-- ==== Sys2Proof/Word.lean ====
section
/-! DEFINITION. The plain words of the model: bytes, sparse tables, and the arithmetic the spec uses everywhere. -/

namespace Sys2Proof

/-- A byte of a blob, a packet or a record, 0 to 255 (R5: multi-byte values are little-endian lists of these). -/
abbrev Byte := Nat

/-- A sparse table: (key, value) pairs with strictly rising keys. A key that is not listed has the table's default. -/
abbrev Tab (α : Type) := List (Nat × α)

/-- `a` brought into the range `lo` to `hi`. -/
def clampInt (lo hi a : Int) : Int := if a < lo then lo else if hi < a then hi else a

/-- `|a|` as a natural number. -/
def absNat (a : Int) : Nat := a.natAbs

/-- 1 for true, 0 for false: how a BOOL object reads (R15). -/
def boolInt (b : Bool) : Int := if b then 1 else 0

/-- 1 for true, 0 for false. -/
def boolNat (b : Bool) : Nat := if b then 1 else 0

end Sys2Proof
end

