-- ==== Sys2Proof/Syntax.lean ====
section
/-! DEFINITION. The commands the part takes, as spec/opcode_table.json lists them, with the operands each carries. -/

namespace Sys2Proof

/-- R13, R439: the paths by which a dictionary request comes: the chain's mailbox, the host's CXL mailbox, the cyclic
process image of the chain (R431). -/
inductive Path where
  | chain | host | image
deriving DecidableEq, Repr

/-- R66, R67: what one lane answered at discovery. -/
structure LaneAnswer where
  lane     : Fin 4
  identity : Nat
  connId   : Nat
deriving DecidableEq, Repr

/-- R64, R66, R67: the end of a discovery attempt: the lanes that answered, how many image streams the camera announced and
whether one of them is an area-scan stream, whether the camera refused the configuration, whether the lanes trained, and the
bootstrap strings. -/
structure Discovery where
  answers : List LaneAnswer
  streams : Nat
  areaScan : Bool
  refused : Bool
  trained : Bool
  vendor  : List Byte
  model   : List Byte
  serial  : List Byte
deriving DecidableEq, Repr

/-- R75, R76: a stream packet as the port takes it: its stream, the sensor row its samples belong to (delivery order), whether
it starts a line, whether its header (CRC, stream, tag sequence) and its payload CRC are right, whether the row ends with it. -/
structure StreamPacket where
  stream    : Nat
  row       : Nat
  lineStart : Bool
  headerOk  : Bool
  payloadOk : Bool
  rowEnd    : Bool
  samples   : List Nat
deriving DecidableEq, Repr

/-- R365: the two modes of CXL IDE. -/
inductive IdeMode where
  | containment | skid
deriving DecidableEq, Repr

/-- R369: a host write of an entry of the MSI-X table: the message's address and data, and whether the vector stays masked. -/
structure MsixEntry where
  vector  : Fin 64
  address : Nat
  data    : Nat
  masked  : Bool
deriving DecidableEq, Repr

/-- R365, R392: what the link reports when it trains: the host has committed the HDM decoder, and the codewords that FEC has
corrected since the last report. -/
structure LinkReport where
  hdm       : Bool
  corrected : Nat
deriving DecidableEq, Repr

/-- R390: the host's writes into a channel's block: of SHADOW, and of the COMMIT bit after it (log entry 35). -/
structure DmaBlockWrite where
  shadow : Option (List Byte)
  commit : Bool
deriving DecidableEq, Repr

/-- R40: the device time of the first sample of a level at an encoder pin, and how long the level has been stable, ns. -/
structure QeSample where
  time   : Nat
  stable : Nat
deriving DecidableEq, Repr

/-- R155, R156: a word of an atlas found in error: the number of wrong bits, 0, 1 or 2 (uncorrectable), in L0, L1, S0, S1. -/
structure AtlasUpset where
  word : Fin 262144
  l0   : Fin 3
  l1   : Fin 3
  s0   : Fin 3
  s1   : Fin 3
deriving DecidableEq, Repr

/-- R396, R397: a place in DRAM: an address of the interleaved region, or an offset in a channel of its channel-local region. -/
inductive DramSite where
  | shared (address : Nat)
  | own (channel : Fin 8) (offset : Nat)
deriving DecidableEq, Repr

/-- R399, R410: an error of a DRAM read: its place, and whether it is uncorrectable. -/
structure DramError where
  site : DramSite
  uncorrectable : Bool
deriving DecidableEq, Repr

/-- R323, R389: why a source read fails: the host returned an error or poison, or DRAM did. -/
inductive ReadFault where
  | host
  | dram (e : DramError)
deriving DecidableEq, Repr

/-- R406: how a channel is detected as faulty: its retraining fails, or a ledger copy on it reads uncorrectable at an offset. -/
structure ChannelLoss where
  channel : Fin 8
  ledger  : Option Nat
deriving DecidableEq, Repr

/-- R401, R403: what happens on the banks of a channel: a bank is idle for a refresh, or a row of one is activated. -/
inductive BankEvent where
  | idle (bank : Fin 16)
  | activate (bank : Fin 16) (row : Nat)
deriving DecidableEq, Repr

/-- R405: when a line enters raw correction, and how many bytes then stand in the replay read-ahead buffer of its pipeline. -/
structure LineTake where
  time  : Nat
  ahead : Nat
deriving DecidableEq, Repr

/-- R476: when an address comes over TW2's bus, and the address. -/
structure TwAddress where
  time    : Nat
  address : Fin 128
deriving DecidableEq, Repr

/-- R508: when a chord link is found lost, and whether an active lane has lost block lock for 1 µs. -/
structure LinkSilence where
  time     : Nat
  unlocked : Bool
deriving DecidableEq, Repr

/-- R155, R337: what a pipeline finds in its SRAM at a line: words of the atlas in error, and whether there is another
uncorrectable error. -/
structure SramErrors where
  atlas : List AtlasUpset
  other : Bool
deriving DecidableEq, Repr

/-- R165, R349: when a rotation starts, and whether an image of the port's atlas that the spare loads has a bad CRC. -/
structure RotationStart where
  time     : Nat
  imageBad : Bool
  /-- R399: the errors of the spare's reads of the snapshot and the replay buffer. -/
  errors   : List DramError
deriving DecidableEq, Repr

/-- R470, R471: how long a two-wire line has been held low, ns, and whether that was before a START. -/
structure TwHeld where
  low    : Nat
  before : Bool
deriving DecidableEq, Repr


/-- R503: a request for one feed-forward tap. -/
inductive TapMove where
  | hold | inc | dec
deriving DecidableEq, Repr

/-- R503: a tap request: a preset, or a move of each tap. -/
inductive TapRequest where
  | preset (n : Fin 8)
  | move (pre main post : TapMove)
deriving DecidableEq, Repr

/-- R503: what the training of a chord lane at one rate came to: the requests its receiver made of the far transmitter, and the eye
margin it reached in the units of `LN_EYE`. -/
structure LaneTraining where
  lane     : Fin 8
  requests : List TapRequest
  margin   : Nat
deriving DecidableEq, Repr

/-- R505: the contents of HELLO: side (true CHE), station, mode, and the items of R200: the unit seam line in µm, the map
CAL_IDs, and `TG_PERIOD` and `TG_PHASE` of the ports that touch the seam. -/
structure Hello where
  east    : Bool
  station : Nat
  mode    : Nat
  seamX   : Int
  calIds  : List Nat
  periods : List Nat
  phases  : List Nat
deriving DecidableEq, Repr


/-- R354: a part that the home unit has accepted, merged or yielded: first line, anchor column, PART_INDEX, last line and column
span. -/
structure LoanPart where
  first  : Nat
  anchor : Nat
  index  : Nat
  last   : Nat
  lo     : Nat
  hi     : Nat
deriving DecidableEq, Repr

/-- R84, R207: a lent port's raw line with its tag. -/
structure LoanLine where
  line   : Nat
  trig   : Nat
  belt   : Int
  epoch  : Nat
  flags  : Nat
  spans  : List (Nat × Nat)
  rows   : List (List Nat)
deriving DecidableEq, Repr

/-- R84: a closed line: its tag and its samples, rows in delivery order. -/
structure CapLine where
  line    : Nat
  trig    : Nat
  belt    : Int
  epoch   : Nat
  flags   : Nat
  port    : Nat
  group   : Nat
  /-- R76: VALID_START and VALID_END of each row. -/
  spans   : List (Nat × Nat)
  arrival : Nat
  rows    : List (List Nat)
deriving DecidableEq, Repr

/-- One sample inside raw correction: as received, clamped (`yc`), substituted (`y`), both in 1/16 LSB; the site's plate value
when its line entered (`p`, R108). -/
structure Px where
  raw   : Nat := 0
  yc    : Int := 0
  y     : Int := 0
  p     : Int := 0
  inv   : Bool := true
  sat   : Bool := false
  subst : Bool := false
  cand  : Bool := false
deriving DecidableEq, Repr

/-- A line inside raw correction: its tag and its rows of samples. -/
structure RcLine where
  cap  : CapLine
  rows : List (List Px)
deriving DecidableEq, Repr

/-- R109, R110, R115: a site's plate estimate (2⁻¹⁶ LSB), whether it has one, AGE, DRUN, STALE and re-acquiring updates. -/
structure Site where
  p     : Int := 0
  known : Bool := false
  age   : Nat := 0
  drun  : Nat := 0
  stale : Bool := false
  reacq : Nat := 0
deriving DecidableEq, Repr

/-- R105: a site of the online list: it is substituted from line `start` on, and, once it has left, before line `stop`. -/
structure OnlineSite where
  row   : Nat
  col   : Nat
  start : Nat
  stop  : Option Nat := none
deriving DecidableEq, Repr

/-- R115: a snapshot of line `line`: what raw correction holds once that line has left and the next has entered. -/
structure RcSnapshot where
  line     : Nat
  epoch    : Nat
  width    : Nat
  layout   : Nat
  depth    : Nat
  status   : Nat
  black    : Tab Int
  first    : List Nat
  discard  : Tab Nat
  okRun    : Nat
  driftRun : Nat
  online   : List OnlineSite
  sites    : List Site
  before   : Option RcLine
  center   : Option RcLine
deriving DecidableEq, Repr

/-- R207, R355, R505: a SETTINGS packet: the home port, the values and blobs of its block, its map and its seams by dictionary
key, and what R353 to R355 need of the home unit: the newest snapshot line and its snapshot, the restart line, whether lines are
cut, and the parts it has taken already (log entry 231). -/
structure LoanSettings where
  homePort : Fin 12
  values   : List (Nat × Int)
  blobs    : List (Nat × List Byte)
  line     : Nat := 0
  /-- R355: since when the fault was present. -/
  since    : Nat := 0
  snapshot : Option RcSnapshot := none
  restart  : Nat := 1
  cut      : Bool := false
  kept     : List LoanPart := []
deriving DecidableEq, Repr

/-- R370: a write to an acknowledgement doorbell: 64 bits, or one of its halves. -/
inductive AckWrite where
  | whole (value : Nat)
  | low (value : Nat)
  | high (value : Nat)
deriving DecidableEq, Repr

/-- R384, R389: how far a running DMA job has come, in bytes written, and the source bytes it read from host memory since the
last command about it, in ascending source order. -/
structure DmaProgress where
  channel : Fin 32
  moved   : Nat
  data    : List Byte
  /-- R385: bytes in the staging buffer, read and not yet written; from a host source they stand last in `data`. -/
  staged  : Nat := 0
deriving DecidableEq, Repr


/-- R417, R418: a datagram as it meets a unit: the Meridian port its frame entered, the HOPS of the header, its fields, the
receipt so far, whether another datagram follows, and whether the frame's FCS is valid. -/
structure Datagram where
  port    : Fin 2
  hops    : Nat
  scope   : Fin 4
  tag     : Nat
  select  : Nat
  address : Nat
  data    : List Byte
  served  : Nat
  refused : Nat
  first   : Nat
  more    : Bool
  fcsOk   : Bool
  /-- R420: how many datagrams behind it, up to the next one, only count as format errors. -/
  faults  : Nat := 0
deriving DecidableEq, Repr

/-- R524: which calibration task completes, with what was measured outside the part: of a self-test 1 pass and 2 to 4 the part
that failed, of a link's vernier the delay of each cell in ps and the cells that were chosen. -/
inductive CalOutcome where
  | plateRef (p : Fin 12)
  | defectMerge (p : Fin 12)
  | stitch
  | latency (valve : Fin 2048)
  | threshold (valve : Fin 2048)
  | bist (pipeline : Fin 13)
  | vernier (link : Fin 32) (delays : List Nat) (cells : Nat)
deriving DecidableEq, Repr

/-- R343, R346: a copy of a ledger: the next SEQ and ORDER_ID, the acknowledged ones, the records in SEQ order, and the orders in
ORDER_ID order with the SEQ, row and outcome of each. -/
structure LedgerCopy where
  nextSeq   : Nat
  nextOrder : Nat
  recAck    : Nat
  outAck    : Nat
  records   : List (Nat × List Byte)
  orders    : List (Nat × Nat × Nat × List Byte)
  /-- R345: how many of the records had an extended record, where that is known (log entry 271). -/
  extended  : Nat := 0
deriving DecidableEq, Repr

/-- R550: what a step of start-up finds: whether the images in slots A and B verify, the repairs and the spares left by island
and the islands without enough spares, the DRAM channels that do not train, and the window the mirror partner holds (R346). -/
structure StartReport where
  slotA   : Bool
  slotB   : Bool
  repairs : List (Fin 40 × Nat × Nat)
  failed  : List (Fin 40)
  dram    : List (Fin 8)
  /-- R412: the Meridian ports whose cage holds a module. -/
  cages   : List (Fin 2) := []
  mirror  : Option LedgerCopy := none
deriving DecidableEq, Repr

/-- The commands of spec/opcode_table.json, one constructor a row. Every command carries first the device time at which
it happens, ns. -/
inductive Instr where
  /-- R439: A dictionary write to an object that has no row of its own is checked in the order of R439 and applied by its access code and effect class. -/
  | objectWrite (t : Nat) (path : Path) (object : Nat) (value : List Byte)
  /-- R13: A read of the low word of a value wider than 32 bits latches the remaining words in that access path's latch. -/
  | wideReadLatch (t : Nat) (path : Path) (object : Nat)
  /-- R10: Writing zero to a writable counter or histogram clears its value and SAT; any other value is refused. -/
  | counterClear (t : Nat) (path : Path) (object : Nat) (value : List Byte)
  /-- R34: A write to an RWE object is staged and joins the pending epoch, or the device declares one at the present line plus the largest lead plus 8. -/
  | rweWrite (t : Nat) (path : Path) (object : Nat) (value : List Byte)
  /-- R33: A write to EPOCH_PENDING declares an epoch's first line for a group, refused with EPOCH_LATE if the margin is short or in INIT and PREOP. -/
  | epochPendingWrite (t : Nat) (path : Path) (g : Fin 12) (value : List Byte)
  /-- R39: Loss of PLL lock moves device time to the on-die oscillator, raises TIME_UNLOCK and puts a unit in RUN into HOLD. -/
  | timeUnlock (t : Nat)
  /-- R39: When PLL lock returns, the rate trim pulls device time back to the chain reference. -/
  | timeRelock (t : Nat)
  /-- R41: An accepted A/B transition of an encoder port changes its count by the decoder mode and updates speed window and direction. -/
  | qeCount (t : QeSample) (q : Fin 4) (a b : Bool)
  /-- R44: When the time since the last edge reaches 1/QE_SPEED_FLOOR, the speed reads 0 and the direction becomes standstill. -/
  | qeStandstillTimeout (t : Nat) (q : Fin 4)
  /-- R45: An accepted Z pulse that meets the gate is checked against the expected count. -/
  | qeIndex (t : QeSample) (q : Fin 4)
  /-- R48: Every SP_PERIOD_US an enabled serial position port starts clocking a word. -/
  | spWordStart (t : Nat) (n : Fin 4)
  /-- R51: A complete serial position word is checked and, if good, updates SP_VALUE_UM and SP_VALUE_TIME. -/
  | spWord (t : Nat) (n : Fin 4) (word startTime : Nat)
  /-- R51: No start bit within SP_TIMEOUT_US discards the word as bad. -/
  | spTimeout (t : Nat) (n : Fin 4)
  /-- R48: A write of SP_ENABLE or SP_CLOCK_KHZ in PREOP takes effect at the start of the next word; clearing stops the port after the word. -/
  | spEnableWrite (t : Nat) (path : Path) (n : Fin 4) (clock : Bool) (value : List Byte)
  /-- R53: A fixed-rate trigger falls due for a port group; the line counter advances and a line slot opens on each enabled port. -/
  | lineTrigger (t : Nat) (g : Fin 12)
  /-- R57: A trigger held for TG_MIN_PERIOD_NS spacing is issued when the spacing has passed, with its issue time as trigger time. -/
  | triggerDeferredIssue (t : Nat) (g : Fin 12)
  /-- R55: In ARMED, RUN and HOLD a write of TG_PERIOD to one port stages the same value for every port of its group. -/
  | tgPeriodWrite (t : Nat) (path : Path) (p : Fin 12) (value : List Byte)
  /-- R55: In ARMED, RUN and HOLD a write of TG_DIVIDER to one port stages the same value for every port of its group. -/
  | tgDividerWrite (t : Nat) (path : Path) (p : Fin 12) (value : List Byte)
  /-- R66: Setting CAM_ENABLE in PREOP starts discovery; clearing it takes the link down and stops the uplink. -/
  | camEnableWrite (t : Nat) (path : Path) (p : Fin 12) (value : List Byte)
  /-- R66: A write of CAM_LANES while the port is enabled repeats discovery with the new value. -/
  | camLanesWrite (t : Nat) (path : Path) (p : Fin 12) (value : List Byte)
  /-- R66: A write of CAM_RATE while the port is enabled repeats discovery with the new value. -/
  | camRateWrite (t : Nat) (path : Path) (p : Fin 12) (value : List Byte)
  /-- R67: A discovery attempt ends up or down, raising CAM_CABLE_ERROR or CAM_CONFIG_REFUSED when it fails. -/
  | discoveryDone (t : Nat) (p : Fin 12) (found : Discovery)
  /-- R66: While CAM_ENABLE stays set and the port is down in INIT or PREOP, discovery is repeated every 1 s. -/
  | discoveryRetry (t : Nat) (p : Fin 12)
  /-- R87: While a port's link is down in ARMED, RUN or HOLD, discovery and configuration repeat every 100 ms. -/
  | linkRetry (t : Nat) (p : Fin 12)
  /-- R87: When a camera link returns, the port writes the group's live exposure and gain at once and marks lines SKEW until acknowledged. -/
  | camLinkReturn (t : Nat) (p : Fin 12)
  /-- R69: CAM_REG_CMD = 1 reads CAM_REG_LEN bytes at CAM_REG_ADDR into CAM_REG_DATA. -/
  | camRegRead (t : Nat) (path : Path) (p : Fin 12)
  /-- R69: CAM_REG_CMD = 2 writes CAM_REG_LEN bytes from CAM_REG_DATA, refused for the epoch registers while lines are taken. -/
  | camRegWrite (t : Nat) (path : Path) (p : Fin 12)
  /-- R69: CAM_REG_CMD = 3 aborts a transaction waiting for its acknowledge. -/
  | camRegAbort (t : Nat) (path : Path) (p : Fin 12)
  /-- R69: A window transaction's acknowledge arrives and CAM_REG_STATUS becomes 2 or 3. -/
  | camRegComplete (t : Nat) (p : Fin 12) (code : Nat) (data : List Byte)
  /-- R69: A window transaction times out after the allowed retries and CAM_REG_STATUS becomes 4. -/
  | camRegTimeout (t : Nat) (p : Fin 12)
  /-- R80: The camera's acknowledge of an epoch write arrives and is checked for lateness and error code. -/
  | camAck (t : Nat) (p : Fin 12) (gain : Bool) (code : Nat)
  /-- R80: The answer to a readback made after the trigger of line F is compared with the written value within CAM_SKEW_TOL. -/
  | skewReadback (t : Nat) (p : Fin 12) (gain : Bool) (code value : Nat)
  /-- R80: A camera event packet is stored and, with CAM_SKEW_SOURCE = 2 and the matching ID, checked against the written value. -/
  | camEventPacket (t : Nat) (p : Fin 12) (id : Nat) (data : List Byte)
  /-- R86: A heartbeat packet from the camera restarts the heartbeat supervision. -/
  | camHeartbeat (t : Nat) (p : Fin 12)
  /-- R86: No heartbeat within CAM_HB_TIMEOUT_MS takes the port's link down. -/
  | camHbTimeout (t : Nat) (p : Fin 12)
  /-- R86: A lane of the gang loses lock, taking the port's link down. -/
  | laneLockLoss (t : Nat) (p : Fin 12) (lane : Fin 4)
  /-- R75: A stream packet arrives and is assigned to the oldest open slot at a line start or fills its line's slot, with the checks of R76. -/
  | streamPacket (t : Nat) (p : Fin 12) (packet : StreamPacket)
  /-- R75: A slot still unfilled CAM_LINE_DEADLINE_NS after its trigger closes as a lost line. -/
  | lineDeadline (t : Nat) (p : Fin 12) (line : Nat)
  /-- R83: A closed line's write to the raw replay buffer commits and the line is handed to its pipeline in line order. -/
  | replayCommit (t : Nat) (p : Fin 12) (line : Nat)
  /-- R92: A line enters raw correction and the previous line completes clamp, substitution, noise reduction, plate and flat-field. -/
  | rcLine (t : LineTake) (p : Fin 14)
  /-- R102: A write of RC_DEFECT_MAP is checked and staged for the next epoch or refused with DEFECT_MAP_REFUSED. -/
  | defectMapWrite (t : Nat) (path : Path) (p : Fin 12) (blob : List Byte)
  /-- R111: A write of RC_FF_PLATE_REF is checked against 2W and the flat-field mode and staged or refused. -/
  | plateRefWrite (t : Nat) (path : Path) (p : Fin 12) (blob : List Byte)
  /-- R121: A registered line is resampled, demosaiced and projected once its trailing row has left raw correction and it is released from the hold. -/
  | rgLine (t : Nat) (p : Fin 14) (errors : SramErrors)
  /-- R194: A closed part's facets are finalised and it leaves segmentation as an own object, a discarded beyond half or a seam candidate. -/
  | objectLeaveSeg (t : Nat) (p : Fin 14)
  /-- R156: The patrol scrub reads and corrects words of all four atlas copies once every AT_SCRUB_PERIOD_MS. -/
  | atlasScrubPass (t : Nat) (pipeline : Fin 13) (upsets : List AtlasUpset)
  /-- R161: A write of AT_BLOB is checked, cancels a running load and starts loading, or is refused. -/
  | atBlobWrite (t : Nat) (path : Path) (p : Fin 12) (blob : List Byte)
  /-- R162: AT_LOAD_CMD = 1 starts loading an atlas from scratch memory after the range and header checks. -/
  | atLoad (t : Nat) (path : Path) (p : Fin 12)
  /-- R161: AT_LOAD_CMD = 2 cancels a running atlas load with code 7. -/
  | atLoadCancel (t : Nat) (path : Path) (p : Fin 12)
  /-- R161: An atlas load finishes, reaching STAGED or being refused for its signature or body. -/
  | atLoadDone (t : Nat) (p : Fin 12)
  /-- R164: At line F plus N the previous atlas is released and AT_STATE reads LIVE. -/
  | atlasHoldEnd (t : Nat) (p : Fin 12)
  /-- R156: Both shadow copies failing in one word reload the shadows from the DRAM image, possibly deferring a swap. -/
  | atlasShadowReload (t : Nat) (p : Fin 12) (done : Bool)
  /-- R189: A write of ST_MAP is checked and staged or refused with ST_MAP_REFUSED. -/
  | stMapWrite (t : Nat) (path : Path) (p : Fin 12) (blob : List Byte)
  /-- R191: ST_CAL_CMD = 1 in ARMED starts the target calibration of every enabled port. -/
  | stCalStart (t : Nat) (path : Path)
  /-- R191: ST_CAL_CMD = 2 cancels a running target calibration. -/
  | stCalCancel (t : Nat) (path : Path)
  /-- R191: A port's calibration completes its fit and stages a map or refuses it with CAL_REJECT. -/
  | stCalDone (t : Nat) (p : Fin 12) (levels : List (Nat × Nat))
  /-- R199: A seam group whose parts have closed and whose neighbours have progressed is resolved to its owner and merged. -/
  | groupResolve (t : Nat)
  /-- R203: A part summary from the chord neighbour is received for a unit-seam group. -/
  | summary (t : Nat) (link : Fin 2) (payload : List Byte)
  /-- R201: A WATERMARK from the peer advances its reported segmentation progress. -/
  | watermark (t : Nat) (link : Fin 2) (time : Nat)
  /-- R201: At least every 10 µs the unit sends a WATERMARK to its chord neighbour. -/
  | watermarkSend (t : Nat) (link : Fin 2)
  /-- R203: A TAKEN from the owner makes a non-owner yield its halves and accept the sub-orders, or is answered refused. -/
  | taken (t : Nat) (link : Fin 2) (seq : Nat) (parts : List Nat) (orders : List (List Byte))
  /-- R203: A TAKEN_ACK reports yielded or refused, a refusal counting in ST_TAKEN_REFUSED. -/
  | takenAck (t : Nat) (link : Fin 2) (part : Nat) (refused : Bool)
  /-- R204: A group whose peer watermark has not passed within ST_WAIT_MAX_US is resolved by split resolution and SEAM_SPLIT is raised. -/
  | seamWaitTimeout (t : Nat)
  /-- R203: A non-owner receiving no TAKEN within ST_WAIT_MAX_US of resolution resolves its halves by split resolution. -/
  | takenTimeout (t : Nat)
  /-- R207: A unit without a free spare lends a failed pipeline's port to a chord neighbour with a free spare. -/
  | loanStart (t : Nat) (link : Fin 2) (p : Fin 12)
  /-- R505: A LINE packet of a lent port's raw line is received by the serving unit. -/
  | loanLine (t : Nat) (link : Fin 2) (line : LoanLine)
  /-- R505: A SETTINGS packet delivers the lent port's dictionary values to the serving unit. -/
  | loanSettings (t : Nat) (link : Fin 2) (settings : LoanSettings)
  /-- R230: The acceptor gives a judged object its sequence number when the ledger windows have room. -/
  | objectAccept (t : Nat)
  /-- R217: A program blob write is checked and staged or refused with its code. -/
  | vdProgramWrite (t : Nat) (path : Path) (g : Fin 12) (blob : List Byte)
  /-- R220: A class table element or array write is checked against R168 and staged for the next epoch. -/
  | classTableWrite (t : Nat) (path : Path) (g : Fin 12) (first : Fin 256) (values : List Byte)
  /-- R237: At line F plus N plus 8,256 the previous program or class table is released and BUSY clears. -/
  | programHoldEnd (t : Nat) (g : Fin 12)
  /-- R251: A valve frame's contents freeze 2,000 ns before its start of frame, fixing its edges and surface predictions. -/
  | frameFreeze (t : Nat) (link : Fin 32) (k : Nat)
  /-- R275: A frozen frame is transmitted on each enabled valve link at its start-of-frame time. -/
  | frameTransmit (t : Nat) (link : Fin 32)
  /-- R258: A surface order with no edge issued after EJ_SURFACE_MAX_WAIT_MS reports NOT_FIRED_LATE. -/
  | surfaceWaitTimeout (t : Nat)
  /-- R255: A mode-2 idle valve receives a pre-charge pulse every EJ_PC_PERIOD_MS. -/
  | prechargePeriodic (t : Nat) (valve : Fin 2048)
  /-- R280: A valve link echo is received and compared with the frame's commanded edges. -/
  | echo (t : Nat) (link : Fin 32) (frame flags executed : Nat) (crcOk : Bool)
  /-- R267: Edges not echoed within EJ_ECHO_TIMEOUT_NS count as completed with UNCONFIRMED and may take the link down. -/
  | echoTimeout (t : Nat) (link : Fin 32)
  /-- R284: A STATUS missing for 3 ms takes the valve link down. -/
  | statusTimeout (t : Nat) (link : Fin 32)
  /-- R281: A STATUS of 64 valve words is received and updates temperatures, faults and latencies. -/
  | valveStatus (t : Nat) (link : Fin 32) (words : List Nat) (board : Nat) (crcOk : Bool)
  /-- R282: At link-up and every 1 s the device sends a PING character on a valve link. -/
  | ping (t : Nat) (link : Fin 32)
  /-- R282: The returned PING gives EJ_LINK_DELAY_NS. -/
  | pingReturn (t : Nat) (link : Fin 32)
  /-- R261: An interlock loop or the pressure comparator opens, blocking the bank and starting KILL on every link. -/
  | interlockOpen (t : Nat) (source : Fin 4)
  /-- R262: Every source closed for EJ_ILK_CLOSE_MS releases the gate and, with EJ_AUTO_RESUME, returns the unit to RUN. -/
  | interlockRelease (t : Nat)
  /-- R259: A write of EJ_VALVE_STATE takes effect now, moving or dropping planned pulses of a valve made dead or unused. -/
  | ejValveStateWrite (t : Nat) (path : Path) (valve : Fin 2048) (value : List Byte)
  /-- R287: A change of EJ_LINK_LEAD_NS takes effect at the next frame not yet frozen. -/
  | ejLinkLeadWrite (t : Nat) (path : Path) (value : List Byte)
  /-- R273: A received remote order is planned against the receiver's own valves. -/
  | remoteOrder (t : Nat) (link : Fin 2) (payload : List Byte)
  /-- R274: A SUB_RESULT for a remote order is combined into the owner's outcome. -/
  | subResult (t : Nat) (link : Fin 2) (payload : List Byte)
  /-- R274: No remote result EJ_REMOTE_WAIT_NS after TRAIL sets REMOTE_UNKNOWN and adds cause UNCOVERED. -/
  | remoteWaitTimeout (t : Nat) (orderId : Nat)
  /-- R304: Once both ledger copies hold an entry, its extended and object records are written to the host rings in SEQ order. -/
  | recordWrite (t : Nat)
  /-- R305: A closed order's outcome record is written to the outcome ring after its object record, followed by OUT_LOW_ORDER. -/
  | outcomeWrite (t : Nat)
  /-- R306: A dictionary write of REC_ACK_SEQ acknowledges records, refused if above the head or below the present value. -/
  | recAckSeqWrite (t : Nat) (path : Path) (value : List Byte)
  /-- R306: A dictionary write of OUT_ACK_ORDER acknowledges outcomes under the same checks. -/
  | outAckOrderWrite (t : Nat) (path : Path) (value : List Byte)
  /-- R370: A write to the REC_ACK doorbell acknowledges records, a low half being held until the high half. -/
  | recAck (t : Nat) (write : AckWrite)
  /-- R370: A write to the OUT_ACK doorbell acknowledges outcomes, a low half being held until the high half. -/
  | outAck (t : Nat) (write : AckWrite)
  /-- R307: REC_IRQ_NS or OUT_IRQ_NS passing since the first unsignalled write raises the ring's interrupt. -/
  | ringIrqTimeout (t : Nat) (outcomes : Bool)
  /-- R312: Once the last crop row is stored, the object's thumbnail is cut and written to its slot. -/
  | thumbWrite (t : Nat)
  /-- R320: A compression engine finishes a block and writes it with its header, or ends the job. -/
  | czBlockDone (t : Nat) (channel : Fin 32) (engine : Fin 4) (data : List Byte) (sourceError : Option ReadFault) (verifyFail : Bool)
  /-- R334: A write of ISLAND_RESET resets an island allowed by R334. -/
  | islandReset (t : Nat) (path : Path) (value : List Byte)
  /-- R335: An island entering reset makes its peers flush pending transfers and refuse new ones. -/
  | islandResetEnter (t : Nat) (island : Fin 40) (flushed : Nat)
  /-- R335: An island signals ready and its crossings resume, with held work written again. -/
  | islandReady (t : Nat) (island : Fin 40)
  /-- R337: A pipeline heartbeat missing for 150 µs detects a pipeline fault. -/
  | pipeHeartbeatTimeout (t : Nat) (pipeline : Fin 13) (last : Nat)
  /-- R353: After a pipeline fault the spare takes the port, loads snapshot m and restarts at line r, planning failsafe pulses. -/
  | failover (t : Nat) (errors : List DramError) (imageBad : Bool)
  /-- R354: The spare catches up with the live lines and its parts stop carrying REPLAYED. -/
  | spareCaughtUp (t : Nat) (p : Fin 14)
  /-- R349: Every RV_ROTATE_MS the spare starts taking over the next enabled port. -/
  | rotate (t : RotationStart)
  /-- R349: The rotation compare over RV_COMPARE_LINES completes equal or mismatches. -/
  | rotationCompareDone (t : Nat) (equal : Bool)
  /-- R349: No epoch boundary within RV_EPOCH_WAIT_MS makes the device declare one for the rotation. -/
  | rotateEpochWaitTimeout (t : Nat)
  /-- R535: A displaced pipeline's self-test ends and it becomes the spare or faulty. -/
  | pipeBistDone (t : Nat) (pipeline : Fin 13) (result : Nat)
  /-- R340: Both DRAM copies have written a ledger entry, releasing its ring write and mirror. -/
  | ledgerCommit (t : Nat)
  /-- R343: The copy of the ledger onto a new channel completes and SINGLE_COPY clears. -/
  | ledgerCopyDone (t : Nat)
  /-- R344: When the CXL island is ready and the ledger checked after a reset, open orders close and the windows are re-issued. -/
  | reissue (t : Nat)
  /-- R346: LG_DISCARD = 1 in INIT at service level discards the ledger and moves sequence numbers past the watermarks. -/
  | lgDiscard (t : Nat) (path : Path) (value : List Byte)
  /-- R347: A mirror partner receives a mirrored ledger entry or acknowledgement and confirms it. -/
  | mirrorEntry (t : Nat) (link : Fin 2) (acks : Bool) (payload : List Byte)
  /-- R347: A CONFIRM from the mirror partner keeps MIRROR_ACTIVE. -/
  | mirrorConfirm (t : Nat) (link : Fin 2) (seq : Nat)
  /-- R347: An entry not confirmed within 50 µs clears MIRROR_ACTIVE. -/
  | mirrorConfirmTimeout (t : Nat)
  /-- R308: The CXL link trains and held ring writes and pending messages are issued. -/
  | cxlLinkUp (t : Nat) (width : Fin 17) (rate : Fin 5) (report : LinkReport)
  /-- R367: The link leaves L0 and does not return within CX_LINK_DOWN_US, holding ring writes. -/
  | cxlLinkDown (t : Nat) (progress : List DmaProgress)
  /-- R576: CXL_PERST_N low holds the CXL island in reset; its rise starts link training. -/
  | cxlPerst (t : Nat) (high : Bool)
  /-- R368: An IDE integrity failure discards the flit and takes the link down. -/
  | ideCheckFail (t : Nat)
  /-- R391: A function level reset aborts every DMA channel and clears shadows and generations. -/
  | functionLevelReset (t : Nat)
  /-- R369: A write of ones to CAUSE clears those cause bits. -/
  | causeClear (t : Nat) (mask : Nat)
  /-- R372: MB_GO with OP 1 latches a dictionary read request for the dictionary server. -/
  | mbRead (t : Nat) (tag object offset length : Nat)
  /-- R373: MB_GO with OP 2 latches a dictionary write or write segment. -/
  | mbWrite (t : Nat) (tag object offset : Nat) (final : Bool) (data : List Byte)
  /-- R373: MB_GO with OP 3 discards a partial segmented write. -/
  | mbAbort (t : Nat) (tag object : Nat)
  /-- R372: The dictionary server completes a mailbox request, sets TAG, RESULT and STATE and signals vector 0. -/
  | mailboxComplete (t : Nat)
  /-- R373: A segmented transfer left open for 1 s is discarded. -/
  | segmentTimeout (t : Nat)
  /-- R376: A host write into the device memory window is taken only in scratch. -/
  | windowWrite (t : Nat) (address : Nat) (data : List Byte)
  /-- R377: A host read of the window returns present data or poisoned data on an uncorrectable error. -/
  | windowRead (t : Nat) (address length : Nat) (errors : List DramError)
  /-- R390: A COMMIT copies SHADOW into the committed set, taken at once by an idle channel. -/
  | dmaCommit (t : Nat) (channel : Fin 32) (block : DmaBlockWrite)
  /-- R391: An ABORT ends the running job with ABORTED and discards the committed set. -/
  | dmaAbort (t : Nat) (channel : Fin 32) (progress : Option DmaProgress)
  /-- R383: A scatter-gather list fetch completes and the job is validated. -/
  | dmaListFetched (t : Nat) (channel : Fin 32) (elements : List (List Byte))
  /-- R385: A validated job takes a free mover or pre-empts a lower-priority job. -/
  | dmaMoverGrant (t : Nat) (toHost : Bool) (victim : Option DmaProgress)
  /-- R387: The bytes written reach half the total and HALF is set. -/
  | dmaHalf (t : Nat) (channel : Fin 32) (data : List Byte)
  /-- R389: The host returns an error for a DMA write and the job ends with DEST_ERROR. -/
  | dmaDestError (t : Nat) (channel : Fin 32) (progress : Option DmaProgress)
  /-- R388: A DMA job completes, writes its check and completion record and takes the next committed set. -/
  | dmaJobDone (t : Nat) (channel : Fin 32) (data : List Byte) (sourceError : Option (Nat × ReadFault))
  /-- R401: A per-bank refresh falls due on a channel, forcing the oldest one when the debt is 8. -/
  | refreshDue (t : Nat) (channel : Fin 8) (events : List BankEvent) (running : Bool) (burst : List (Fin 16)) (hot : Bool)
  /-- R400: The DRAM patrol scrub completes a pass, or runs late. -/
  | dramScrubPass (t : Nat) (late : Bool) (errors : List DramError)
  /-- R408: Every 64 ms the controller reads the DQS oscillator, runs ZQ calibration and applies new delays when needed. -/
  | dramCalibrate (t : Nat) (channel : Fin 8) (drift : Fin 3)
  /-- R406: A request waiting longer than 10 µs makes its channel faulty. -/
  | dramRequestTimeout (t : Nat) (error : DramError)
  /-- R406: A faulty channel switches to the seven-channel map and starts the rebuild. -/
  | drChannelFault (t : Nat) (loss : ChannelLoss)
  /-- R406: The atlas image rebuild completes and REMAPPED is set. -/
  | dramRemapDone (t : Nat)
  /-- R414: A frame that is not Meridian, or crosses the return path, is forwarded unchanged. -/
  | merFrameForward (t : Nat) (port : Fin 2) (destination source : List Byte) (etherType : Nat) (body : List Byte)
  /-- R418: A PASS datagram is counted by its addressed units without effect. -/
  | pass (t : Nat) (d : Datagram)
  /-- R418: A FETCH datagram places the addressed units' bytes in its data. -/
  | fetch (t : Nat) (d : Datagram)
  /-- R419: A STORE datagram's writes are held and applied after a valid FCS. -/
  | store (t : Nat) (d : Datagram)
  /-- R418: A TRADE datagram takes the bytes of its data and puts the unit's own in their place. -/
  | trade (t : Nat) (d : Datagram)
  /-- R425: A MARK datagram records MARK_FWD and MARK_RET and the unit's loop time. -/
  | mark (t : Nat) (d : Datagram) (entry offset : Nat)
  /-- R426: A SPREAD datagram corrects each unit after the reference by step or rate trim and passes its values on. -/
  | spread (t : Nat) (d : Datagram) (entry : Nat)
  /-- R434: An ASK datagram hands a mailbox request to the addressed unit when its request buffer is free. -/
  | ask (t : Nat) (d : Datagram)
  /-- R434: A COLLECT datagram carries out the kept mailbox response. -/
  | collect (t : Nat) (d : Datagram)
  /-- R434: The dictionary server completes a chain mailbox request and RESP_READY is set. -/
  | chainMbxComplete (t : Nat)
  /-- R429: A Meridian port loses link, raising CHAIN_SPLIT if it was expected. -/
  | merLinkLoss (t : Nat) (port : Fin 2)
  /-- R429: A Meridian port regains link and SPLIT clears. -/
  | merLinkUp (t : Nat) (port : Fin 2) (fibre : Bool)
  /-- R426: No SPREAD within MER_TIME_TIMEOUT_MS clears ALIGNED. -/
  | merTimeTimeout (t : Nat)
  /-- R433: No valid cyclic output write within MER_WATCHDOG_US puts a unit in RUN into HOLD. -/
  | merWatchdog (t : Nat)
  /-- R440: A code blob raises the path's level to integrator or service when its hash matches. -/
  | accessCodeWrite (t : Nat) (path : Path) (value : List Byte)
  /-- R440: An unlock blob raises the path to secure level when its signature over the nonce verifies. -/
  | accessUnlockWrite (t : Nat) (path : Path) (value : List Byte)
  /-- R440: Writing a lower level into a path's level object drops it to that level. -/
  | accessLevelWrite (t : Nat) (path : Path) (value : List Byte)
  /-- R440: 600 s without a request on a path returns it to operator level. -/
  | accessLevelTimeout (t : Nat) (host : Bool)
  /-- R440: Every 60 s SEC_NONCE changes. -/
  | nonceRefresh (t : Nat)
  /-- R440: 10 s after three failed attempts a path's unlock attempts are accepted again. -/
  | unlockLockoutEnd (t : Nat) (host : Bool)
  /-- R444: STATE_REQUEST = 1 requests INIT from PREOP. -/
  | reqInit (t : Nat) (path : Path)
  /-- R444: STATE_REQUEST = 2 requests PREOP from INIT, ARMED, RUN or HOLD. -/
  | reqPreop (t : Nat) (path : Path)
  /-- R444: STATE_REQUEST = 3 requests ARMED from PREOP after every leave-PREOP check. -/
  | reqArmed (t : Nat) (path : Path)
  /-- R444: STATE_REQUEST = 4 requests RUN from ARMED or HOLD. -/
  | reqRun (t : Nat) (path : Path)
  /-- R444: STATE_REQUEST = 5 requests HOLD from RUN. -/
  | reqHold (t : Nat) (path : Path)
  /-- R443: A running state transition completes after its waits and DEVICE_STATE changes, signalling vector 4. -/
  | stateTransitionDone (t : Nat)
  /-- R445: A lockstep mismatch, FAB uncorrectable error or firmware watchdog enters FAULT and the bank sends KILL. -/
  | faultEntry (t : Nat)
  /-- R549: A write of DEVICE_RESET = 1 performs a warm reset as an NRESET pulse does. -/
  | deviceReset (t : Nat) (path : Path) (value : List Byte)
  /-- R549: NRESET held low for 1 µs requests a warm reset, writing the Almanac and putting DRAM in self-refresh. -/
  | nreset (t : Nat)
  /-- R447: A chain write of FW_IMAGE is checked and written into the slot not running. -/
  | fwImageWrite (t : Nat) (path : Path) (image : List Byte)
  /-- R447: A host write of FW_IMAGE_HOST is checked and written into the slot not running. -/
  | fwImageHostWrite (t : Nat) (path : Path) (image : List Byte)
  /-- R447: The flash write and read-back of an image complete or fail. -/
  | fwFlashDone (t : Nat) (ok : Bool)
  /-- R448: FW_ACTIVATE = 1 in PREOP marks the other slot trial and warm-resets into it. -/
  | fwActivate (t : Nat) (path : Path) (value : List Byte)
  /-- R448: FW_CONFIRM = 1 in PREOP commits the trial image and raises FW_ROLLBACK_MIN. -/
  | fwConfirm (t : Nat) (path : Path) (value : List Byte)
  /-- R448: A trial image not reaching PREOP within 60 s is abandoned. -/
  | fwTrialTimeout (t : Nat)
  /-- R442: A write of a SEC_KEY slot installs or clears a key under the secure owner or first-unlock rule. -/
  | secKeyWrite (t : Nat) (path : Path) (slot : Fin 8) (value : List Byte)
  /-- R457: A write of a channel configuration word is checked and takes effect in the next source-island cycle. -/
  | evChConfigWrite (t : Nat) (path : Path) (channel : Fin 64) (value : List Byte)
  /-- R455: Task DMA_START acts as a COMMIT write to its DMA channel. -/
  | dmaStart (t : Nat) (n : Fin 32)
  /-- R455: Task HOST_IRQ raises MSI-X vector 48 plus n. -/
  | hostIrq (t : Nat) (n : Fin 16)
  /-- R465: Task EVT_OUT drives its pin as a pulse or a toggle. -/
  | evtOut (t : Nat) (n : Fin 8)
  /-- R455: Task EPOCH_DECLARE declares an epoch for its group as an RWE write would. -/
  | epochDeclare (t : Nat) (g : Fin 12)
  /-- R475: Task TW0_START starts the staged TW0 transfer. -/
  | tw0Start (t : Nat)
  /-- R455: Task STATE_HOLD requests HOLD from RUN. -/
  | stateHold (t : Nat)
  /-- R455: Task STATE_RUN requests RUN from HOLD. -/
  | stateRun (t : Nat)
  /-- R455: Task TIME_CAPTURE stores the TIM device time of its cycle in EV_CAPTURE_TIME. -/
  | timeCapture (t : Nat) (n : Fin 8)
  /-- R568: Task WAKE, a wake pin edge or a TW2 match ends deep sleep and starts up from step 1. -/
  | wake (t : Nat)
  /-- R465: An input pin's level, stable for EV_PIN_FILTER_NS, becomes its EVT_IN level and fires when active. -/
  | evtIn (t : Nat) (n : Fin 8) (high : Bool) (stable : Nat)
  /-- R465: A pulse output's EV_PIN_PULSE_NS expires and the pin returns inactive. -/
  | evtPulseEnd (t : Nat) (n : Fin 8) (async : Bool)
  /-- R466: Event timer n fires at device times matching its period and phase. -/
  | timer (t : Nat) (n : Fin 8)
  /-- R470: A clock stretch beyond TW_STRETCH_TIMEOUT_MS ends the transaction and resets the port. -/
  | twStretchTimeout (t : Nat) (port : Fin 3) (held : TwHeld) (stuck : Bool)
  /-- R472: A START in an acknowledge slot aborts the transfer with BUS_ERROR. -/
  | twBusError (t : Nat) (port : Fin 3)
  /-- R473: A controller driving 1 while reading 0 loses arbitration and releases the bus. -/
  | twArbLost (t : Nat) (port : Fin 2) (bit : Nat)
  /-- R473: A STOP on the bus lets a port retry after arbitration loss or leave BUS_STUCK. -/
  | twStopSeen (t : Nat) (port : Fin 2)
  /-- R474: Every TW0_POLL_US TW0 reads the PoCXP expander registers. -/
  | tw0Poll (t : Nat)
  /-- R474: A PoCXP poll completes, setting or clearing port faults, or fails. -/
  | tw0PollDone (t : Nat) (acknowledged : Bool) (value : Nat)
  /-- R475: TW0_XFER_CMD = 1 starts the staged host transfer. -/
  | tw0XferCmd (t : Nat) (path : Path) (value : List Byte)
  /-- R475: A TW0 host transfer ends and TW0_XFER_STATUS takes its result. -/
  | tw0XferDone (t : Nat) (acknowledged : Bool) (data : List Byte)
  /-- R476: TW2 recognises its address, waking the device from deep sleep if needed. -/
  | tw2Match (t : TwAddress)
  /-- R477: A TW2 transfer sets the register pointer or returns bytes from it. -/
  | tw2Transfer (t : Nat) (write : List Byte) (read : Nat)
  /-- R548: TW1_ALERT makes the power manager read STATUS_WORD of every rail. -/
  | pmbusAlert (t : Nat) (words : List Nat)
  /-- R485: A CIC output sample is filtered and drives the detectors, DC block, block statistics and comparator. -/
  | amOutputSample (t : Nat) (channel : Fin 16) (codes : List Nat)
  /-- R496: A channel that has discarded N plus 63 values becomes settled. -/
  | amSettled (t : Nat) (channel : Fin 16)
  /-- R497: 64 consecutive full-scale codes start an overload episode. -/
  | amOverload (t : Nat) (channel : Fin 16) (high : Bool)
  /-- R497: 1 ms without a full-scale run clears the overload. -/
  | amOverloadClear (t : Nat) (channel : Fin 16)
  /-- R491: Values frozen for AM_FREEZE_MAX_MS force the DC estimate. -/
  | amFreezeMax (t : Nat) (channel : Fin 16)
  /-- R488: A write of AM_PEAK_CLEAR sets the peak holds of the named channels to the present value. -/
  | amPeakClear (t : Nat) (path : Path) (value : List Byte)
  /-- R503: Training of a chord port ends with a width and rate or fails. -/
  | chTrainDone (t : Nat) (link : Fin 2) (full half : List LaneTraining) (far : List (Fin 8 × Bool))
  /-- R503: A tap request from the far receiver changes the transmitter taps or is answered LIMIT. -/
  | tapRequest (t : Nat) (link : Fin 2) (lane : Fin 8) (request : TapRequest)
  /-- R502: A HELLO is received and the pairing, mode and seam checks run. -/
  | hello (t : Nat) (link : Fin 2) (said : Hello)
  /-- R506: A chord packet is delivered when its CRC and SEQ are right, or discarded with a NAK. -/
  | chPacket (t : Nat) (link : Fin 2) (cls typ seq : Nat) (payload : List Byte) (crc : Nat)
  /-- R506: An ACK frees acknowledged packets from the replay buffer. -/
  | chAck (t : Nat) (link : Fin 2) (seq : Nat)
  /-- R506: A NAK makes the transmitter resend from the named SEQ. -/
  | chNak (t : Nat) (link : Fin 2) (seq : Nat)
  /-- R506: At least every 256 ns while packets arrive the receiver sends an ACK. -/
  | chAckSend (t : Nat) (link : Fin 2)
  /-- R510: An L1_REQ is answered by L1_ACK when no traffic class is enabled. -/
  | l1Req (t : Nat) (link : Fin 2)
  /-- R510: An L1_ACK moves both directions to L1. -/
  | l1Ack (t : Nat) (link : Fin 2)
  /-- R510: Nothing to send for CH_L0S_NS puts the transmitter in L0s. -/
  | chL0sEntry (t : Nat) (link : Fin 2)
  /-- R510: In L1 each end sends a wake probe every 1 ms. -/
  | chWakeProbe (t : Nat) (link : Fin 2) (answered : Bool)
  /-- R508: A chord port loses link, discards its replay buffer and retrains. -/
  | chLinkLoss (t : LinkSilence) (link : Fin 2)
  /-- R511: A write of LN_PATTERN starts or stops a lane's generator and checker. -/
  | lnPatternWrite (t : Nat) (path : Path) (lane : Fin 80) (value : List Byte)
  /-- R515: Every 100 ms LN_EYE is updated. -/
  | lnEyeUpdate (t : Nat) (lane : Fin 80) (height width bits errors sent : Nat)
  /-- R526: A CAL_REQUEST for task 1 queues a plate reference measurement. -/
  | plateRef (t : Nat) (path : Path) (forced : Bool) (target deadline : Nat)
  /-- R527: A CAL_REQUEST for task 2 merges the online list into the defect map. -/
  | defectMerge (t : Nat) (path : Path) (forced : Bool) (target deadline : Nat)
  /-- R519: A CAL_REQUEST for task 3 queues the target calibration. -/
  | stitch (t : Nat) (path : Path) (forced : Bool) (target deadline : Nat)
  /-- R528: A CAL_REQUEST for task 4 queues latency measurement of a valve or group. -/
  | valveLatency (t : Nat) (path : Path) (forced : Bool) (target deadline : Nat)
  /-- R529: A CAL_REQUEST for task 5 queues a threshold sweep of a valve or group. -/
  | valveThreshold (t : Nat) (path : Path) (forced : Bool) (target deadline : Nat)
  /-- R535: A CAL_REQUEST for task 6 queues a pipeline self-test. -/
  | pipeBist (t : Nat) (path : Path) (forced : Bool) (target deadline : Nat)
  /-- R530: A CAL_REQUEST for task 7 queues a vernier calibration of a link. -/
  | vernier (t : Nat) (path : Path) (forced : Bool) (target deadline : Nat)
  /-- R530: Every 10 s each up link's vernier cells are measured and reselected. -/
  | vernierPeriodic (t : Nat) (link : Fin 32) (delays : List Nat) (cells : Nat)
  /-- R531: Every CAL_AM_ROTATE_MS a monitor modulator's DAC elements are measured and swapped. -/
  | modulatorRotate (t : Nat) (channel : Fin 16) (elements : List Nat)
  /-- R523: A request not completed by its deadline starves or starts its forced run. -/
  | calDeadline (t : Nat)
  /-- R524: A calibration task completes and its result is checked and applied or refused. -/
  | calResult (t : Nat) (outcome : CalOutcome)
  /-- R533: CAL_STORE_CMD = 1 in PREOP stores the chosen settings in the Vault. -/
  | calStore (t : Nat) (path : Path)
  /-- R533: CAL_STORE_CMD = 2 clears the settings store. -/
  | calStoreClear (t : Nat) (path : Path)
  /-- R538: Every 60 s the Almanac image and watermarks are written to the Vault. -/
  | almanacWrite (t : Nat)
  /-- R537: Every 1 s temperature, link and line-rate samples are added to the Almanac histograms. -/
  | almanacSample (t : Nat)
  /-- R550: VDD_STBY3V3 rising starts the start-up sequence. -/
  | powerOn (t : Nat)
  /-- R546: All power-good inputs of a step are high and the next step is enabled after 0.5 ms. -/
  | railStepGood (t : Nat)
  /-- R546: A step not good within PW_PG_TIMEOUT_MS raises PW_RAIL_FAULT and powers down. -/
  | pwPgTimeout (t : Nat) (late : List (Fin 10))
  /-- R546: 1 s after a failed sequence the manager retries, up to three attempts. -/
  | pwRetry (t : Nat)
  /-- R550: A start-up step completes and the next begins, ending in INIT and PREOP. -/
  | startupStepDone (t : Nat) (report : StartReport)
  /-- R548: A power-good fall or regulator fault outside sequencing blocks the bank and enters SAVE or powers down. -/
  | pgFall (t : Nat) (low : List (Fin 10))
  /-- R548: Every 10 ms TW1 reads each rail's voltage and current. -/
  | railPoll (t : Nat) (millivolts milliamps : List Nat)
  /-- R554: Every 1 ms the junction temperatures are sampled and warnings and trips evaluated. -/
  | tempSample (t : Nat) (temps : List Int)
  /-- R554: 60 s after a thermal power-down the device starts up again. -/
  | thermalRestart (t : Nat)
  /-- R551: A group still below 0 °C after PW_WARMUP_MAX_S raises PW_WARMUP_TIMEOUT. -/
  | pwWarmupTimeout (t : Nat)
  /-- R555: VIN falls below the sag threshold. -/
  | vinFall (t : Nat) (millivolts : Nat)
  /-- R555: VIN returning above the threshold within 20 µs counts a short sag. -/
  | vinRise (t : Nat) (millivolts lowest : Nat)
  /-- R556: VIN below the threshold for 20 µs enters SAVE with cause 0. -/
  | vinSag (t : Nat) (lowest : Nat)
  /-- R557: The save area and Almanac image are written and HOLD_OK is asserted. -/
  | saveWriteDone (t : Nat) (millivolts : Nat)
  /-- R559: VIN above PW_RESUME_MV for 100 ms after a save powers down and starts up again. -/
  | saveResume (t : Nat)
  /-- R568: PW_SLEEP_CMD = 1 in PREOP saves with cause 2 and enters deep sleep. -/
  | pwSleepCmd (t : Nat) (path : Path) (value : List Byte)
  /-- R262: An interlock loop pin returns to closed, clearing its EJ_ILK_STATE bit and starting the EJ_ILK_CLOSE_MS wait toward release. -/
  | ilkLoopClose (t : Nat) (loop : Fin 3)
  /-- R549: NRESET rising after a warm reset releases the hold and lets start-up continue from step 4, or from step 3 for a trial image. -/
  | nresetRelease (t : Nat)
  /-- R549: Loss of VDD_STBY3V3 removes all power, AON included, and is the only cold reset. -/
  | standbyLoss (t : Nat)
  /-- R559: VIN falling below 7.0 V after a save drops the rails, so the next start-up is a power-up. -/
  | vinCollapse (t : Nat)
  /-- R80: An epoch exposure or gain register write, or its readback, times out, which raises EPOCH_SKEW and lets the arming transition proceed. -/
  | camAckTimeout (t : Nat) (p : Fin 12) (gain readback : Bool)
  /-- R512: A lane checker locks after 64 consecutive correct bits and starts counting LN_BITS and LN_ERRORS. -/
  | lnLockGained (t : Nat) (lane : Fin 80)
  /-- R512: A lane checker loses lock when more than 16 of 256 bits are wrong, and LN_RESYNC counts the event. -/
  | lnLockLost (t : Nat) (lane : Fin 80)
  /-- R379: A host write that unmasks an MSI-X vector whose pending bit is set sends the pending message. -/
  | msixUnmask (t : Nat) (entry : MsixEntry)
  /-- R510: When CH_L1_MS passes without SEAM, ORDER, MIRROR or LOAN traffic, the chord port sends L1_REQ. -/
  | chL1Idle (t : Nat) (link : Fin 2)
  /-- R542: A read of CAL_STATUS clears its STARVED and REJECTED bits, which report events since the last read. -/
  | calStatusRead (t : Nat) (path : Path)
  /-- R571: A read of PW_STATUS clears RAIL_WARN, which reports PW_RAIL_WARN raised since the last read. -/
  | pwStatusRead (t : Nat) (path : Path)
  /-- R466: A written EV_TIMER_PERIOD_NS or EV_TIMER_PHASE_NS takes effect at the next device time that is a multiple of 1,000,000 ns. -/
  | evTimerApply (t : Nat) (n : Fin 8)
  /-- R367: The CXL link leaves L0, which counts CX_RECOVERIES and starts the CX_LINK_DOWN_US wait. -/
  | cxlLinkRecovery (t : Nat)
  /-- R365: An IDE_KM message over SPDM in the DOE mailbox programs IDE keys and activates IDE, which R368 checks on the way to ARMED. -/
  | ideKeyProgram (t : Nat) (io : Option Nat) (cache mem : Option IdeMode)
deriving DecidableEq, Repr

end Sys2Proof
end

