-- ==== Sys2Proof/Config.lean ====
section
/-! DEFINITION. What the spec leaves open: constants of one part and free values. None has a body that a proof can see. -/

namespace Sys2Proof.Config

open Sys2Proof

/-- R310, R315: what a mean over samples none of which is valid reads: the spec states no value. Free, from the line's trigger time and
port and from the place of the sample, so that a line that is produced again has the same content (R317, log entry 270). -/
opaque emptyMean : Nat → Nat → Nat

/-- R478: where a named event stands in `EV_EVENT_LIST`; the spec names the list and not its order. Free (log entry 3). -/
opaque eventSlot : Nat → Nat

/-- A free value: nothing fixes it. Applied to the model's counter of draws (log entry 3). -/
opaque freeValue : Nat → Nat

/-- R593: in which order, and with which gaps in 4,096-byte units, the device places its buffers: of the exit from PREOP and
of the buffer. Free within R593's bounds (log entry 26). -/
opaque placeOrder : Nat → Nat → Nat

/-- R593: see `placeOrder`. -/
opaque placeGap : Nat → Nat → Nat

/-- R398: the bytes of the interleaved region that firmware state takes: the spec states no number. Free, but no more than
the settings at reset leave room for: 57,780,731,904 less the window and the thumbnail slots (log entry 27). -/
opaque firmwareBytes : Fin 21809594369

/-- R321: the raw DEFLATE stream of a block at a level: its bytes depend on the data, LEVEL and BSIZE only, and the spec does
not fix them further. Free (log entry 28). -/
opaque deflate : Nat → Nat → List Byte → List Byte

/-- R366: Evwaif's PCI vendor ID, which the spec does not give (log entry 29). -/
opaque vendorId : Nat

/-- R393: what the four bits of WIDTH hold on a x16 link (log entry 273). -/
opaque width16 : Nat

/-- R397: for each aligned run of 4 KiB of a channel, the code of an order of the 16 banks in which its 256-byte granules stand
on them: the hash, which the spec does not give (log entry 274). -/
opaque bankHash : Nat → Nat

/-- R410: the row of an in-channel offset, which the spec does not give (log entry 274). -/
opaque dramRow : Nat → Nat

/-- R410: what ADDRESS of `DR_LAST_ERROR` shows for a channel and an offset of its channel-local region, which has no device
address in the spec (log entry 274). -/
opaque localAddress : Nat → Nat → Nat

/-- R403: the step of a channel's 32-bit LFSR: the spec gives no polynomial (log entry 275). -/
opaque lfsrStep : Nat → Nat

/-- R403: whether the LFSR's value draws a neighbour refresh at probability 2^-k (log entry 275). -/
opaque rowDraw : Nat → Nat → Bool

/-- R310, R593: byte by byte, what a port's thumbnail history reads as in the window: the spec gives it no layout. From the
rows it holds, and the offset (log entry 30). -/
opaque historyByte : List (Nat × List (List Nat)) → Nat → Nat

/-- R406, R409: what a byte of the window that nothing has written since reads as, after the contents of DRAM were lost for
the n-th time: undefined. From n and the address (log entry 37). -/
opaque lostByte : Nat → Nat → Nat

/-- R1: the part is an AZ1213-E. -/
opaque coldStart : Bool

/-- R449: the 16 characters of `SERIAL_NUMBER`. -/
opaque serial : List Byte

/-- R446: the VERSION and the ROLLBACK of the image that the part leaves Evwaif with, which the spec does not give (log entry
40). -/
opaque fwVersion : Nat

/-- See `fwVersion`. -/
opaque fwRollback : Nat

/-- R442, R446: the public key of a firmware key, which stands in ROM: the spec gives its number and not its value (log entry
40). From its KEY_ID. -/
opaque firmwareKey : Nat → List Byte

/-- R486: the coefficients of the built-in sets, by mode, N, k and tap: the spec gives the sets' properties and not their values
(log entry 42). -/
opaque firTap : Nat → Nat → Nat → Nat → Int

/-- R155: the 8 check bits of a SEC-DED code over the 64 bits of an atlas word: the spec names the code and does not write it out
(log entry 222). -/
opaque atlasCheckBits : Nat → Nat

/-- R503: the step of a tap's INC or DEC less one, its least and its greatest value, and the taps of a preset: the spec gives none
of them (log entry 44). -/
opaque tapStep : Nat → Nat → Nat
/-- R503 (log entry 44). -/
opaque tapLow : Nat → Nat
/-- R503 (log entry 44). -/
opaque tapHigh : Nat → Nat
/-- R503 (log entry 44). -/
opaque tapPreset : Nat → Nat

/-- R101, R105: the KIND that an online defect is listed with: the spec states none (log entry 57). -/
opaque onlineKind : Nat

/-- R548: which bits of a PMBus STATUS_WORD are warnings: the spec leaves them to PMBus (log entry 53). -/
opaque pmbusWarnings : Nat

/-- R548: which of its bits say that the regulator reports a fault (log entry 53). -/
opaque pmbusFaults : Nat

/-- R441: what MAX of a directory entry reads for an object whose limit is no I64, from its index (log entry 54). -/
opaque directoryMax : Nat → Nat

/-- R200, R505: the items of HELLO and the values of SETTINGS as bytes: the spec gives them no layout (log entry 45). -/
opaque helloItems : Int → List Nat → List Nat → List Nat → List Byte

/-- See `helloItems`. -/
opaque settingsBytes : List (Nat × Int) → List (Nat × List Byte) → Nat × Nat → Nat → Bool → List (List Nat) → List Byte → List Byte

end Sys2Proof.Config
end

