-- ==== Sys2Proof/Machine/ObjRow.lean ====
section
/-! DEFINITION. The shape of one row of the spec's dictionary tables (R14 to R19, R437). -/

namespace Sys2Proof.Machine

/-- R15: the object types; an array's row holds its element type. -/
inductive Kind where
  | u8 | u16 | u32 | u64 | i16 | i32 | i64 | bool | str | blob | record
deriving DecidableEq, Repr

/-- R16: the access codes. -/
inductive Access where
  | ro | rw | wo | rwe | rwp | rws
deriving DecidableEq, Repr

/-- R17: the effect classes. -/
inductive Effect where
  | none | now | epoch | preop
deriving DecidableEq, Repr

/-- R437, R438: the owner stated for an object. `unstated` falls to the chain unless `OD_OWNER_MAP` hands it to the host;
`channel` is the owner `EV_CH_OWNER` names (R478). -/
inductive Owner where
  | unstated | chain | host | firmware | secure | channel
deriving DecidableEq, Repr

/-- R30, R31, R240: whose epoch boundaries an RWE object follows: the group of the port its repetition or its element
names, the group its repetition or its element names (two elements a group for the row arrays), or every group. -/
inductive Scope where
  | unit | port | portElem | group | groupElem | groupHalf
deriving DecidableEq, Repr

/-- One row of a dictionary table. `blocks` repetitions lie `stride` indexes apart; each has `count` elements. -/
structure ObjRow where
  name     : String
  index    : Nat
  sub      : Nat := 0
  count    : Nat := 1
  kind     : Kind
  isArray  : Bool := false
  access   : Access := .ro
  dflt     : Int := 0
  special  : List (Nat × Int) := []
  blob     : List Nat := []
  lo       : Int
  hi       : Int
  allowed  : List Int := []
  mult     : Nat := 1
  effect   : Effect := .none
  owner    : Owner := .unstated
  level    : Nat := 1
  stride   : Nat := 0
  blocks   : Nat := 1
  scope    : Scope := .unit
  counter  : Bool := false
deriving DecidableEq, Repr

/-- The bytes a value of a kind occupies (R15); 0 for STR and BLOB, whose length is their own. -/
def Kind.bytes : Kind → Nat
  | .u8 => 1 | .u16 => 2 | .u32 => 4 | .u64 => 8 | .i16 => 2 | .i32 => 4 | .i64 => 8 | .bool => 1
  | .str => 0 | .blob => 0 | .record => 8

/-- R15: the bytes of each field of the records, by index. -/
def recordFields (index : Nat) : List Nat :=
  match index with
  | 0x3160 => [4, 8, 8, 1, 1, 4, 4, 4, 4, 8, 8, 8, 8, 8, 8, 8, 8, 8, 8, 8, 8]   -- CAM_STATS_CUR
  | 0x3161 => [4, 8, 8, 1, 1, 4, 4, 4, 4, 8, 8, 8, 8, 8, 8, 8, 8, 8, 8, 8, 8]   -- CAM_STATS_LAST
  | 0x4053 => [8, 2, 4, 1, 1, 1]                                               -- RG_LAST_RESULT
  | 0x5224 => [8, 8, 8, 4, 1, 1]                                               -- EP_LAST_RESULT
  | 0x4f29 => [1, 1, 1, 1, 8, 8, 8, 8, 1, 4]                                   -- RV_LAST_FAILOVER
  | 0x9021 => [2, 1, 1]                                                        -- CX_MB_LAST
  | 0xb01b => [1, 1, 4, 8, 1]                                                  -- DR_LAST_ERROR
  | 0x1020 => [8, 4, 0]                                                        -- ERR_LAST
  | 0xc004 => [1, 2, 1, 8, 8, 8, 1]                                            -- CAL_LAST
  | 0x2008 => [8, 1, 4, 4, 4, 4, 8]                                            -- PW_LAST_SAVE
  | _ => []

/-- R15: the bytes of element `e` of an object; 0 where it is a STR or a BLOB. -/
def ObjRow.size (o : ObjRow) (e : Nat) : Nat :=
  match o.kind with
  | .record => (recordFields o.index).getD e 0
  | k => k.bytes

/-- R441: the TYPE codes of the directory. -/
def Kind.code : Kind → Nat
  | .u8 => 1 | .u16 => 2 | .u32 => 3 | .u64 => 4 | .i16 => 5 | .i32 => 6 | .i64 => 7 | .bool => 8
  | .str => 9 | .blob => 10 | .record => 12

/-- R441: the ACCESS codes of the directory. -/
def Access.code : Access → Nat
  | .ro => 0 | .rw => 1 | .wo => 2 | .rwe => 3 | .rwp => 4 | .rws => 5

/-- R441: the EFFECT codes of the directory. -/
def Effect.code : Effect → Nat
  | .none => 0 | .now => 1 | .epoch => 2 | .preop => 3

/-- The key of element `e` of repetition `b`: 256 × index + subindex. Element 256 carries into the next index, as the
valve objects of R290 do. -/
def ObjRow.key (o : ObjRow) (b e : Nat) : Nat := (o.index + b * o.stride) * 256 + o.sub + e

/-- R449 and the other object tables: the default of element `e`. -/
def ObjRow.dfltAt (o : ObjRow) (e : Nat) : Int :=
  match o.special.find? (fun p => p.1 == e) with
  | some p => p.2
  | none => o.dflt

/-- The repetition and element that key `k` names in this row, if it names one. -/
def ObjRow.locate (o : ObjRow) (k : Nat) : Option (Nat × Nat) :=
  let base := o.index * 256 + o.sub
  if k < base then none
  else
    let d := k - base
    if o.stride = 0 then (if d < o.count then some (0, d) else none)
    else
      let b := d / (o.stride * 256)
      let e := d % (o.stride * 256)
      if b < o.blocks && e < o.count then some (b, e) else none

/-- R15: whether the value is a string or blob of bytes. -/
def ObjRow.isBytes (o : ObjRow) : Bool :=
  match o.kind with
  | .str => true
  | .blob => true
  | _ => false

end Sys2Proof.Machine
end

