-- ==== Sys2Proof/Machine/ObjectsA.lean ====
section
/-! DEFINITION. The dictionary objects of chapters 02 to 10, one row each, as the spec's object tables print them. -/

namespace Sys2Proof.Machine

/-! Objects of spec chapter 02. -/

/-- R59: `TIME_NOW`. -/
def Obj.TIME_NOW : ObjRow := {
  name := "TIME_NOW", index := 0x2200, kind := .u64, lo := 0, hi := 18446744073709551615 }

/-- R59: `TIME_STATUS`. -/
def Obj.TIME_STATUS : ObjRow := {
  name := "TIME_STATUS", index := 0x2201, kind := .u8, lo := 0, hi := 255 }

/-- R59: `TIME_RATE_TRIM`. -/
def Obj.TIME_RATE_TRIM : ObjRow := {
  name := "TIME_RATE_TRIM", index := 0x2202, kind := .i32, lo := (-100000), hi := 100000 }

/-- R59: `TIME_UNLOCK_COUNT`. -/
def Obj.TIME_UNLOCK_COUNT : ObjRow := {
  name := "TIME_UNLOCK_COUNT", index := 0x2203, kind := .u64, access := .rw, lo := 0,
  hi := 18446744073709551615, effect := .now, counter := true }

/-- R59: `QE_MODE`. -/
def Obj.QE_MODE : ObjRow := {
  name := "QE_MODE", index := 0x2210, count := 4, kind := .u8, isArray := true, access := .rwp, dflt := 3,
  lo := 0, hi := 3, effect := .preop }

/-- R59: `QE_FILTER_NS`. -/
def Obj.QE_FILTER_NS : ObjRow := {
  name := "QE_FILTER_NS", index := 0x2211, count := 4, kind := .u16, isArray := true, access := .rw,
  dflt := 20, lo := 0, hi := 1000, effect := .now }

/-- R59: `QE_POSITION`. -/
def Obj.QE_POSITION : ObjRow := {
  name := "QE_POSITION", index := 0x2212, count := 4, kind := .i64, isArray := true, lo := (-140737488355328),
  hi := 140737488355327 }

/-- R59: `QE_SPEED`. -/
def Obj.QE_SPEED : ObjRow := {
  name := "QE_SPEED", index := 0x2213, count := 4, kind := .i32, isArray := true, lo := (-320000000),
  hi := 320000000 }

/-- R59: `QE_SPEED_EDGES`. -/
def Obj.QE_SPEED_EDGES : ObjRow := {
  name := "QE_SPEED_EDGES", index := 0x2214, count := 4, kind := .u8, isArray := true, access := .rw,
  dflt := 8, lo := 1, hi := 64, effect := .now }

/-- R59: `QE_SPEED_FLOOR`. -/
def Obj.QE_SPEED_FLOOR : ObjRow := {
  name := "QE_SPEED_FLOOR", index := 0x2215, count := 4, kind := .u32, isArray := true, access := .rw,
  dflt := 100, lo := 16, hi := 20000000, effect := .now }

/-- R59: `QE_DEADBAND`. -/
def Obj.QE_DEADBAND : ObjRow := {
  name := "QE_DEADBAND", index := 0x2216, count := 4, kind := .u8, isArray := true, access := .rw, dflt := 2,
  lo := 1, hi := 15, effect := .now }

/-- R59: `QE_DIRECTION`. -/
def Obj.QE_DIRECTION : ObjRow := {
  name := "QE_DIRECTION", index := 0x2217, count := 4, kind := .u8, isArray := true, lo := 0, hi := 2 }

/-- R59: `QE_INDEX_POS`. -/
def Obj.QE_INDEX_POS : ObjRow := {
  name := "QE_INDEX_POS", index := 0x2218, count := 4, kind := .i64, isArray := true, access := .rw,
  lo := (-140737488355328), hi := 140737488355327, effect := .now }

/-- R59: `QE_INDEX_PERIOD`. -/
def Obj.QE_INDEX_PERIOD : ObjRow := {
  name := "QE_INDEX_PERIOD", index := 0x2219, count := 4, kind := .u32, isArray := true, access := .rw,
  lo := 0, hi := 4294967295, effect := .now }

/-- R59: `QE_INDEX_TOL`. -/
def Obj.QE_INDEX_TOL : ObjRow := {
  name := "QE_INDEX_TOL", index := 0x221a, count := 4, kind := .u8, isArray := true, access := .rw, lo := 0,
  hi := 255, effect := .now }

/-- R59: `QE_INDEX_DIFF`. -/
def Obj.QE_INDEX_DIFF : ObjRow := {
  name := "QE_INDEX_DIFF", index := 0x221b, count := 4, kind := .i32, isArray := true, lo := (-2147483648),
  hi := 2147483647 }

/-- R59: `QE_INDEX_MISMATCH`. -/
def Obj.QE_INDEX_MISMATCH : ObjRow := {
  name := "QE_INDEX_MISMATCH", index := 0x221c, count := 4, kind := .u64, isArray := true, access := .rw,
  lo := 0, hi := 18446744073709551615, effect := .now, counter := true }

/-- R59: `QE_REHOME`. -/
def Obj.QE_REHOME : ObjRow := {
  name := "QE_REHOME", index := 0x221d, count := 4, kind := .u8, isArray := true, access := .rw, lo := 0,
  hi := 2, effect := .now }

/-- R59: `QE_PHASE_ERRORS`. -/
def Obj.QE_PHASE_ERRORS : ObjRow := {
  name := "QE_PHASE_ERRORS", index := 0x221e, count := 4, kind := .u64, isArray := true, access := .rw,
  lo := 0, hi := 18446744073709551615, effect := .now, counter := true }

/-- R59: `QE_INDEX_GATE`. -/
def Obj.QE_INDEX_GATE : ObjRow := {
  name := "QE_INDEX_GATE", index := 0x221f, count := 4, kind := .u8, isArray := true, access := .rwp, lo := 0,
  hi := 4, effect := .preop }

/-- R59: `SP_ENABLE`. -/
def Obj.SP_ENABLE : ObjRow := {
  name := "SP_ENABLE", index := 0x2280, count := 4, kind := .bool, isArray := true, access := .rwp, lo := 0,
  hi := 1, effect := .now }

/-- R59: `SP_CLOCK_KHZ`. -/
def Obj.SP_CLOCK_KHZ : ObjRow := {
  name := "SP_CLOCK_KHZ", index := 0x2281, count := 4, kind := .u16, isArray := true, access := .rwp,
  dflt := 2000, lo := 1000, hi := 10000, effect := .now }

/-- R59: `SP_PERIOD_US`. -/
def Obj.SP_PERIOD_US : ObjRow := {
  name := "SP_PERIOD_US", index := 0x2282, count := 4, kind := .u16, isArray := true, access := .rw,
  dflt := 1000, lo := 50, hi := 65535, effect := .now }

/-- R59: `SP_TIMEOUT_US`. -/
def Obj.SP_TIMEOUT_US : ObjRow := {
  name := "SP_TIMEOUT_US", index := 0x2283, count := 4, kind := .u8, isArray := true, access := .rw,
  dflt := 20, lo := 5, hi := 200, effect := .now }

/-- R59: `SP_RECOVERY_US`. -/
def Obj.SP_RECOVERY_US : ObjRow := {
  name := "SP_RECOVERY_US", index := 0x2284, count := 4, kind := .u8, isArray := true, access := .rw,
  dflt := 20, lo := 1, hi := 100, effect := .now }

/-- R59: `SP_SCALE_NM`. -/
def Obj.SP_SCALE_NM : ObjRow := {
  name := "SP_SCALE_NM", index := 0x2285, count := 4, kind := .u32, isArray := true, access := .rw,
  dflt := 1000, lo := 1, hi := 1000000, effect := .now }

/-- R59: `SP_OFFSET_UM`. -/
def Obj.SP_OFFSET_UM : ObjRow := {
  name := "SP_OFFSET_UM", index := 0x2286, count := 4, kind := .i32, isArray := true, access := .rw,
  lo := (-2147483648), hi := 2147483647, effect := .now }

/-- R59: `SP_RAW`. -/
def Obj.SP_RAW : ObjRow := {
  name := "SP_RAW", index := 0x2287, count := 4, kind := .u32, isArray := true, lo := 0, hi := 16777215 }

/-- R59: `SP_VALUE_UM`. -/
def Obj.SP_VALUE_UM : ObjRow := {
  name := "SP_VALUE_UM", index := 0x2288, count := 4, kind := .i32, isArray := true, lo := (-2147483648),
  hi := 2147483647 }

/-- R59: `SP_VALUE_TIME`. -/
def Obj.SP_VALUE_TIME : ObjRow := {
  name := "SP_VALUE_TIME", index := 0x2289, count := 4, kind := .u64, isArray := true, lo := 0,
  hi := 18446744073709551615 }

/-- R59: `SP_STATUS`. -/
def Obj.SP_STATUS : ObjRow := {
  name := "SP_STATUS", index := 0x228a, count := 4, kind := .u8, isArray := true, lo := 0, hi := 255 }

/-- R59: `SP_BAD_WORDS`. -/
def Obj.SP_BAD_WORDS : ObjRow := {
  name := "SP_BAD_WORDS", index := 0x228b, count := 4, kind := .u64, isArray := true, access := .rw, lo := 0,
  hi := 18446744073709551615, effect := .now, counter := true }

/-- R59: `SP_WARN_WORDS`. -/
def Obj.SP_WARN_WORDS : ObjRow := {
  name := "SP_WARN_WORDS", index := 0x228c, count := 4, kind := .u64, isArray := true, access := .rw, lo := 0,
  hi := 18446744073709551615, effect := .now, counter := true }

/-- R59: `TG_SOURCE`. -/
def Obj.TG_SOURCE : ObjRow := {
  name := "TG_SOURCE", index := 0x2300, count := 12, kind := .u8, isArray := true, access := .rwp, lo := 0,
  hi := 4, effect := .preop, scope := .portElem }

/-- R59: `TG_PERIOD`. -/
def Obj.TG_PERIOD : ObjRow := {
  name := "TG_PERIOD", index := 0x2301, count := 12, kind := .u64, isArray := true, access := .rwe,
  dflt := 35791394133333, lo := 2147483648000, hi := 429496729600000000, effect := .epoch, scope := .portElem
  }

/-- R59: `TG_DIVIDER`. -/
def Obj.TG_DIVIDER : ObjRow := {
  name := "TG_DIVIDER", index := 0x2302, count := 12, kind := .u32, isArray := true, access := .rwe,
  dflt := 65536, lo := 65536, hi := 4294967295, effect := .epoch, scope := .portElem }

/-- R59: `TG_DIR`. -/
def Obj.TG_DIR : ObjRow := {
  name := "TG_DIR", index := 0x2303, count := 12, kind := .u8, isArray := true, access := .rwp, lo := 0,
  hi := 1, effect := .preop, scope := .portElem }

/-- R59: `TG_PHASE`. -/
def Obj.TG_PHASE : ObjRow := {
  name := "TG_PHASE", index := 0x2304, count := 12, kind := .u64, isArray := true, access := .rwp, lo := 0,
  hi := 18446744073709551615, effect := .preop, scope := .portElem }

/-- R59: `TG_MIN_PERIOD_NS`. -/
def Obj.TG_MIN_PERIOD_NS : ObjRow := {
  name := "TG_MIN_PERIOD_NS", index := 0x2305, count := 12, kind := .u32, isArray := true, access := .rwp,
  dflt := 8333, lo := 500, hi := 1000000, effect := .preop, scope := .portElem }

/-- R59: `TG_DEFERRED`. -/
def Obj.TG_DEFERRED : ObjRow := {
  name := "TG_DEFERRED", index := 0x2306, count := 12, kind := .u64, isArray := true, access := .rw, lo := 0,
  hi := 18446744073709551615, effect := .now, scope := .portElem, counter := true }

/-- R59: `TG_OVERRUN`. -/
def Obj.TG_OVERRUN : ObjRow := {
  name := "TG_OVERRUN", index := 0x2307, count := 12, kind := .u64, isArray := true, access := .rw, lo := 0,
  hi := 18446744073709551615, effect := .now, scope := .portElem, counter := true }

/-- R59: `TG_LAST_TIME`. -/
def Obj.TG_LAST_TIME : ObjRow := {
  name := "TG_LAST_TIME", index := 0x2308, count := 12, kind := .u64, isArray := true, lo := 0,
  hi := 18446744073709551615, scope := .portElem }

/-- R59: `TG_LAST_COUNT`. -/
def Obj.TG_LAST_COUNT : ObjRow := {
  name := "TG_LAST_COUNT", index := 0x2309, count := 12, kind := .i64, isArray := true,
  lo := (-140737488355328), hi := 140737488355327, scope := .portElem }

/-- Rows of chapter 02, part 0. -/
def objectsTime0 : List ObjRow := [Obj.TIME_NOW, Obj.TIME_STATUS, Obj.TIME_RATE_TRIM, Obj.TIME_UNLOCK_COUNT,
  Obj.QE_MODE, Obj.QE_FILTER_NS, Obj.QE_POSITION, Obj.QE_SPEED, Obj.QE_SPEED_EDGES, Obj.QE_SPEED_FLOOR,
  Obj.QE_DEADBAND, Obj.QE_DIRECTION, Obj.QE_INDEX_POS, Obj.QE_INDEX_PERIOD, Obj.QE_INDEX_TOL,
  Obj.QE_INDEX_DIFF, Obj.QE_INDEX_MISMATCH, Obj.QE_REHOME, Obj.QE_PHASE_ERRORS, Obj.QE_INDEX_GATE,
  Obj.SP_ENABLE, Obj.SP_CLOCK_KHZ, Obj.SP_PERIOD_US, Obj.SP_TIMEOUT_US, Obj.SP_RECOVERY_US, Obj.SP_SCALE_NM,
  Obj.SP_OFFSET_UM, Obj.SP_RAW, Obj.SP_VALUE_UM, Obj.SP_VALUE_TIME]

/-- Rows of chapter 02, part 1. -/
def objectsTime1 : List ObjRow := [Obj.SP_STATUS, Obj.SP_BAD_WORDS, Obj.SP_WARN_WORDS, Obj.TG_SOURCE,
  Obj.TG_PERIOD, Obj.TG_DIVIDER, Obj.TG_DIR, Obj.TG_PHASE, Obj.TG_MIN_PERIOD_NS, Obj.TG_DEFERRED,
  Obj.TG_OVERRUN, Obj.TG_LAST_TIME, Obj.TG_LAST_COUNT]

/-! Objects of spec chapter 03. -/

/-- R89: `PORT_GROUP`. -/
def Obj.PORT_GROUP : ObjRow := {
  name := "PORT_GROUP", index := 0x3000, count := 12, kind := .u8, isArray := true, access := .rwp, lo := 0,
  hi := 11, effect := .preop }

/-- R89: `EPOCH_PENDING`. -/
def Obj.EPOCH_PENDING : ObjRow := {
  name := "EPOCH_PENDING", index := 0x3001, count := 12, kind := .u64, isArray := true, access := .rw,
  lo := 0, hi := 18446744073709551615, effect := .now, scope := .groupElem }

/-- R89: `EPOCH_ID`. -/
def Obj.EPOCH_ID : ObjRow := {
  name := "EPOCH_ID", index := 0x3002, count := 12, kind := .u32, isArray := true, lo := 0, hi := 4294967295,
  scope := .groupElem }

/-- R89: `EPOCH_FIRST_LINE`. -/
def Obj.EPOCH_FIRST_LINE : ObjRow := {
  name := "EPOCH_FIRST_LINE", index := 0x3003, count := 12, kind := .u64, isArray := true, lo := 0,
  hi := 18446744073709551615, scope := .groupElem }

/-- R89: `EPOCH_LATE_COUNT`. -/
def Obj.EPOCH_LATE_COUNT : ObjRow := {
  name := "EPOCH_LATE_COUNT", index := 0x3004, count := 12, kind := .u64, isArray := true, access := .rw,
  lo := 0, hi := 18446744073709551615, effect := .now, scope := .groupElem, counter := true }

/-- R89: `CAM_PRESENT`. -/
def Obj.CAM_PRESENT : ObjRow := {
  name := "CAM_PRESENT", index := 0x3005, kind := .u16, lo := 0, hi := 65535 }

/-- R90: `CAM_ENABLE`. -/
def Obj.CAM_ENABLE : ObjRow := {
  name := "CAM_ENABLE", index := 0x3100, kind := .bool, access := .rwp, lo := 0, hi := 1, effect := .now,
  stride := 0x100, blocks := 12, scope := .port }

/-- R90: `CAM_LANES`. -/
def Obj.CAM_LANES : ObjRow := {
  name := "CAM_LANES", index := 0x3101, kind := .u8, access := .rwp, dflt := 4, lo := 1, hi := 4,
  allowed := [1, 2, 4], effect := .now, stride := 0x100, blocks := 12, scope := .port }

/-- R90: `CAM_RATE`. -/
def Obj.CAM_RATE : ObjRow := {
  name := "CAM_RATE", index := 0x3102, kind := .u8, access := .rwp, dflt := 12, lo := 1, hi := 12,
  allowed := [1, 2, 3, 5, 6, 10, 12], effect := .now, stride := 0x100, blocks := 12, scope := .port }

/-- R90: `CAM_LINK_STATUS`. -/
def Obj.CAM_LINK_STATUS : ObjRow := {
  name := "CAM_LINK_STATUS", index := 0x3103, kind := .u16, lo := 0, hi := 65535, stride := 0x100,
  blocks := 12, scope := .port }

/-- R90: `CAM_LAYOUT`. -/
def Obj.CAM_LAYOUT : ObjRow := {
  name := "CAM_LAYOUT", index := 0x3104, kind := .u8, access := .rwp, lo := 0, hi := 2, effect := .preop,
  stride := 0x100, blocks := 12, scope := .port }

/-- R90: `CAM_WIDTH`. -/
def Obj.CAM_WIDTH : ObjRow := {
  name := "CAM_WIDTH", index := 0x3105, kind := .u16, access := .rwp, dflt := 16384, lo := 1024, hi := 16384,
  mult := 64, effect := .preop, stride := 0x100, blocks := 12, scope := .port }

/-- R90: `CAM_DEPTH`. -/
def Obj.CAM_DEPTH : ObjRow := {
  name := "CAM_DEPTH", index := 0x3106, kind := .u8, access := .rwp, dflt := 12, lo := 8, hi := 14,
  allowed := [8, 10, 12, 14], effect := .preop, stride := 0x100, blocks := 12, scope := .port }

/-- R90: `CAM_ROW_SPACING`. -/
def Obj.CAM_ROW_SPACING : ObjRow := {
  name := "CAM_ROW_SPACING", index := 0x3107, kind := .u8, access := .rwp, dflt := 2, lo := 1, hi := 32,
  effect := .preop, stride := 0x100, blocks := 12, scope := .port }

/-- R90: `CAM_ROW_DELIVERY`. -/
def Obj.CAM_ROW_DELIVERY : ObjRow := {
  name := "CAM_ROW_DELIVERY", index := 0x3108, kind := .u8, access := .rwp, lo := 0, hi := 1,
  effect := .preop, stride := 0x100, blocks := 12, scope := .port }

/-- R90: `CAM_ROW_LEAD`. -/
def Obj.CAM_ROW_LEAD : ObjRow := {
  name := "CAM_ROW_LEAD", index := 0x3109, kind := .u8, access := .rwp, lo := 0, hi := 1, effect := .preop,
  stride := 0x100, blocks := 12, scope := .port }

/-- R90: `CAM_FILL_VALUE`. -/
def Obj.CAM_FILL_VALUE : ObjRow := {
  name := "CAM_FILL_VALUE", index := 0x310a, kind := .u16, access := .rw, lo := 0, hi := 65535,
  effect := .now, stride := 0x100, blocks := 12, scope := .port }

/-- R90: `CAM_LINE_DEADLINE_NS`. -/
def Obj.CAM_LINE_DEADLINE_NS : ObjRow := {
  name := "CAM_LINE_DEADLINE_NS", index := 0x310b, kind := .u32, access := .rwp, dflt := 50000, lo := 1000,
  hi := 10000000, effect := .preop, stride := 0x100, blocks := 12, scope := .port }

/-- R90: `CAM_HB_TIMEOUT_MS`. -/
def Obj.CAM_HB_TIMEOUT_MS : ObjRow := {
  name := "CAM_HB_TIMEOUT_MS", index := 0x310c, kind := .u16, access := .rwp, dflt := 10, lo := 0, hi := 1000,
  effect := .preop, stride := 0x100, blocks := 12, scope := .port }

/-- R90: `CAM_TRIG_LATENCY_NS`. -/
def Obj.CAM_TRIG_LATENCY_NS : ObjRow := {
  name := "CAM_TRIG_LATENCY_NS", index := 0x310d, kind := .u16, dflt := 2000, lo := 0, hi := 65535,
  stride := 0x100, blocks := 12, scope := .port }

/-- R90: `CAM_EXPOSURE`. -/
def Obj.CAM_EXPOSURE : ObjRow := {
  name := "CAM_EXPOSURE", index := 0x3110, kind := .u32, access := .rwe, dflt := 20000, lo := 1000,
  hi := 100000000, effect := .epoch, stride := 0x100, blocks := 12, scope := .port }

/-- R90: `CAM_GAIN`. -/
def Obj.CAM_GAIN : ObjRow := {
  name := "CAM_GAIN", index := 0x3111, kind := .u16, access := .rwe, lo := 0, hi := 4800, effect := .epoch,
  stride := 0x100, blocks := 12, scope := .port }

/-- R90: `CAM_EXPOSURE_LEAD`. -/
def Obj.CAM_EXPOSURE_LEAD : ObjRow := {
  name := "CAM_EXPOSURE_LEAD", index := 0x3112, kind := .u16, access := .rwp, dflt := 8, lo := 1, hi := 1024,
  effect := .preop, stride := 0x100, blocks := 12, scope := .port }

/-- R90: `CAM_EXPOSURE_LIVE`. -/
def Obj.CAM_EXPOSURE_LIVE : ObjRow := {
  name := "CAM_EXPOSURE_LIVE", index := 0x3113, kind := .u32, dflt := 20000, lo := 0, hi := 4294967295,
  stride := 0x100, blocks := 12, scope := .port }

/-- R90: `CAM_GAIN_LIVE`. -/
def Obj.CAM_GAIN_LIVE : ObjRow := {
  name := "CAM_GAIN_LIVE", index := 0x3114, kind := .u16, lo := 0, hi := 65535, stride := 0x100, blocks := 12,
  scope := .port }

/-- R90: `CAM_EXPOSURE_REG`. -/
def Obj.CAM_EXPOSURE_REG : ObjRow := {
  name := "CAM_EXPOSURE_REG", index := 0x3115, kind := .u32, access := .rwp, lo := 0, hi := 4294967295,
  effect := .preop, stride := 0x100, blocks := 12, scope := .port }

/-- R90: `CAM_EXPOSURE_SCALE`. -/
def Obj.CAM_EXPOSURE_SCALE : ObjRow := {
  name := "CAM_EXPOSURE_SCALE", index := 0x3116, kind := .u32, access := .rwp, dflt := 65536, lo := 0,
  hi := 4294967295, effect := .preop, stride := 0x100, blocks := 12, scope := .port }

/-- R90: `CAM_GAIN_REG`. -/
def Obj.CAM_GAIN_REG : ObjRow := {
  name := "CAM_GAIN_REG", index := 0x3117, kind := .u32, access := .rwp, lo := 0, hi := 4294967295,
  effect := .preop, stride := 0x100, blocks := 12, scope := .port }

/-- R90: `CAM_GAIN_SCALE`. -/
def Obj.CAM_GAIN_SCALE : ObjRow := {
  name := "CAM_GAIN_SCALE", index := 0x3118, kind := .u32, access := .rwp, dflt := 65536, lo := 0,
  hi := 4294967295, effect := .preop, stride := 0x100, blocks := 12, scope := .port }

/-- R90: `CAM_SKEW_SOURCE`. -/
def Obj.CAM_SKEW_SOURCE : ObjRow := {
  name := "CAM_SKEW_SOURCE", index := 0x3119, kind := .u8, access := .rwp, lo := 0, hi := 2, effect := .preop,
  stride := 0x100, blocks := 12, scope := .port }

/-- R90: `CAM_SKEW_EVENT_ID`. -/
def Obj.CAM_SKEW_EVENT_ID : ObjRow := {
  name := "CAM_SKEW_EVENT_ID", index := 0x311a, kind := .u16, access := .rwp, lo := 0, hi := 65535,
  effect := .preop, stride := 0x100, blocks := 12, scope := .port }

/-- R90: `CAM_SKEW_TOL`. -/
def Obj.CAM_SKEW_TOL : ObjRow := {
  name := "CAM_SKEW_TOL", index := 0x311b, kind := .u16, access := .rwp, lo := 0, hi := 65535,
  effect := .preop, stride := 0x100, blocks := 12, scope := .port }

/-- R90: `CAM_REG_ADDR`. -/
def Obj.CAM_REG_ADDR : ObjRow := {
  name := "CAM_REG_ADDR", index := 0x3120, kind := .u32, access := .rw, lo := 0, hi := 4294967295, mult := 4,
  effect := .now, stride := 0x100, blocks := 12, scope := .port }

/-- R90: `CAM_REG_LEN`. -/
def Obj.CAM_REG_LEN : ObjRow := {
  name := "CAM_REG_LEN", index := 0x3121, kind := .u16, access := .rw, dflt := 4, lo := 4, hi := 256,
  mult := 4, effect := .now, stride := 0x100, blocks := 12, scope := .port }

/-- R90: `CAM_REG_DATA`. -/
def Obj.CAM_REG_DATA : ObjRow := {
  name := "CAM_REG_DATA", index := 0x3122, kind := .blob, access := .rw, blob := List.replicate 256 0,
  lo := 256, hi := 256, effect := .now, stride := 0x100, blocks := 12, scope := .port }

/-- R90: `CAM_REG_CMD`. -/
def Obj.CAM_REG_CMD : ObjRow := {
  name := "CAM_REG_CMD", index := 0x3123, kind := .u8, access := .wo, lo := 1, hi := 3, effect := .now,
  stride := 0x100, blocks := 12, scope := .port }

/-- R90: `CAM_REG_STATUS`. -/
def Obj.CAM_REG_STATUS : ObjRow := {
  name := "CAM_REG_STATUS", index := 0x3124, kind := .u8, lo := 0, hi := 5, stride := 0x100, blocks := 12,
  scope := .port }

/-- R90: `CAM_REG_ACK`. -/
def Obj.CAM_REG_ACK : ObjRow := {
  name := "CAM_REG_ACK", index := 0x3125, kind := .u8, lo := 0, hi := 255, stride := 0x100, blocks := 12,
  scope := .port }

/-- R90: `CAM_VENDOR`. -/
def Obj.CAM_VENDOR : ObjRow := {
  name := "CAM_VENDOR", index := 0x3130, kind := .str, lo := 0, hi := 65535, stride := 0x100, blocks := 12,
  scope := .port }

/-- R90: `CAM_MODEL`. -/
def Obj.CAM_MODEL : ObjRow := {
  name := "CAM_MODEL", index := 0x3131, kind := .str, lo := 0, hi := 65535, stride := 0x100, blocks := 12,
  scope := .port }

/-- R90: `CAM_SERIAL`. -/
def Obj.CAM_SERIAL : ObjRow := {
  name := "CAM_SERIAL", index := 0x3132, kind := .str, lo := 0, hi := 65535, stride := 0x100, blocks := 12,
  scope := .port }

/-- R90: `CAM_LINE_SHORT`. -/
def Obj.CAM_LINE_SHORT : ObjRow := {
  name := "CAM_LINE_SHORT", index := 0x3140, kind := .u64, access := .rw, lo := 0, hi := 18446744073709551615,
  effect := .now, stride := 0x100, blocks := 12, scope := .port, counter := true }

/-- R90: `CAM_LINE_LONG`. -/
def Obj.CAM_LINE_LONG : ObjRow := {
  name := "CAM_LINE_LONG", index := 0x3141, kind := .u64, access := .rw, lo := 0, hi := 18446744073709551615,
  effect := .now, stride := 0x100, blocks := 12, scope := .port, counter := true }

/-- R90: `CAM_LINE_LOST`. -/
def Obj.CAM_LINE_LOST : ObjRow := {
  name := "CAM_LINE_LOST", index := 0x3142, kind := .u64, access := .rw, lo := 0, hi := 18446744073709551615,
  effect := .now, stride := 0x100, blocks := 12, scope := .port, counter := true }

/-- R90: `CAM_LINE_LATE`. -/
def Obj.CAM_LINE_LATE : ObjRow := {
  name := "CAM_LINE_LATE", index := 0x3143, kind := .u64, access := .rw, lo := 0, hi := 18446744073709551615,
  effect := .now, stride := 0x100, blocks := 12, scope := .port, counter := true }

/-- R90: `CAM_LINE_EXTRA`. -/
def Obj.CAM_LINE_EXTRA : ObjRow := {
  name := "CAM_LINE_EXTRA", index := 0x3144, kind := .u64, access := .rw, lo := 0, hi := 18446744073709551615,
  effect := .now, stride := 0x100, blocks := 12, scope := .port, counter := true }

/-- R90: `CAM_EPOCH_SKEW`. -/
def Obj.CAM_EPOCH_SKEW : ObjRow := {
  name := "CAM_EPOCH_SKEW", index := 0x3145, kind := .u64, access := .rw, lo := 0, hi := 18446744073709551615,
  effect := .now, stride := 0x100, blocks := 12, scope := .port, counter := true }

/-- R90: `CAM_CRC_ERRORS`. -/
def Obj.CAM_CRC_ERRORS : ObjRow := {
  name := "CAM_CRC_ERRORS", index := 0x3146, kind := .u64, access := .rw, lo := 0, hi := 18446744073709551615,
  effect := .now, stride := 0x100, blocks := 12, scope := .port, counter := true }

/-- R90: `CAM_LINK_DOWN_COUNT`. -/
def Obj.CAM_LINK_DOWN_COUNT : ObjRow := {
  name := "CAM_LINK_DOWN_COUNT", index := 0x3147, kind := .u64, access := .rw, lo := 0,
  hi := 18446744073709551615, effect := .now, stride := 0x100, blocks := 12, scope := .port, counter := true }

/-- R90: `CAM_CAPTURE_LOST`. -/
def Obj.CAM_CAPTURE_LOST : ObjRow := {
  name := "CAM_CAPTURE_LOST", index := 0x3148, kind := .u64, access := .rw, lo := 0,
  hi := 18446744073709551615, effect := .now, stride := 0x100, blocks := 12, scope := .port, counter := true }

/-- R90: `CAM_EVENT_COUNT`. -/
def Obj.CAM_EVENT_COUNT : ObjRow := {
  name := "CAM_EVENT_COUNT", index := 0x3149, kind := .u64, access := .rw, lo := 0,
  hi := 18446744073709551615, effect := .now, stride := 0x100, blocks := 12, scope := .port, counter := true }

/-- R90: `CAM_EVENT_LAST`. -/
def Obj.CAM_EVENT_LAST : ObjRow := {
  name := "CAM_EVENT_LAST", index := 0x314a, kind := .blob, blob := List.replicate 64 0, lo := 64, hi := 64,
  stride := 0x100, blocks := 12, scope := .port }

/-- R90: `CAM_LINE_NOW`. -/
def Obj.CAM_LINE_NOW : ObjRow := {
  name := "CAM_LINE_NOW", index := 0x3158, kind := .u64, lo := 0, hi := 18446744073709551615, stride := 0x100,
  blocks := 12, scope := .port }

/-- R90: `CAM_LINE_CLOSED`. -/
def Obj.CAM_LINE_CLOSED : ObjRow := {
  name := "CAM_LINE_CLOSED", index := 0x3159, kind := .u64, lo := 0, hi := 18446744073709551615,
  stride := 0x100, blocks := 12, scope := .port }

/-- R90: `CAM_STATS_CUR`. -/
def Obj.CAM_STATS_CUR : ObjRow := {
  name := "CAM_STATS_CUR", index := 0x3160, count := 21, kind := .record, lo := 0, hi := 18446744073709551615,
  stride := 0x100, blocks := 12, scope := .port }

/-- R90: `CAM_STATS_LAST`. -/
def Obj.CAM_STATS_LAST : ObjRow := {
  name := "CAM_STATS_LAST", index := 0x3161, count := 21, kind := .record, lo := 0,
  hi := 18446744073709551615, stride := 0x100, blocks := 12, scope := .port }

/-- R90: `CAM_HIST_CUR`. -/
def Obj.CAM_HIST_CUR : ObjRow := {
  name := "CAM_HIST_CUR", index := 0x3162, count := 128, kind := .u32, isArray := true, lo := 0,
  hi := 4294967295, stride := 0x100, blocks := 12, scope := .port }

/-- R90: `CAM_HIST_LAST`. -/
def Obj.CAM_HIST_LAST : ObjRow := {
  name := "CAM_HIST_LAST", index := 0x3163, count := 128, kind := .u32, isArray := true, lo := 0,
  hi := 4294967295, stride := 0x100, blocks := 12, scope := .port }

/-- R90: `CAM_HIST_SAT_CUR`. -/
def Obj.CAM_HIST_SAT_CUR : ObjRow := {
  name := "CAM_HIST_SAT_CUR", index := 0x3164, count := 4, kind := .u32, isArray := true, lo := 0,
  hi := 4294967295, stride := 0x100, blocks := 12, scope := .port }

/-- R90: `CAM_HIST_SAT_LAST`. -/
def Obj.CAM_HIST_SAT_LAST : ObjRow := {
  name := "CAM_HIST_SAT_LAST", index := 0x3165, count := 4, kind := .u32, isArray := true, lo := 0,
  hi := 4294967295, stride := 0x100, blocks := 12, scope := .port }

/-- R90: `CAM_REPLAY_SLOTS`. -/
def Obj.CAM_REPLAY_SLOTS : ObjRow := {
  name := "CAM_REPLAY_SLOTS", index := 0x3170, kind := .u32, lo := 0, hi := 4294967295, stride := 0x100,
  blocks := 12, scope := .port }

/-- R90: `CAM_REPLAY_BASE`. -/
def Obj.CAM_REPLAY_BASE : ObjRow := {
  name := "CAM_REPLAY_BASE", index := 0x3171, kind := .u64, lo := 0, hi := 18446744073709551615,
  stride := 0x100, blocks := 12, scope := .port }

/-- R90: `CAM_REPLAY_SLOT_BYTES`. -/
def Obj.CAM_REPLAY_SLOT_BYTES : ObjRow := {
  name := "CAM_REPLAY_SLOT_BYTES", index := 0x3172, kind := .u32, lo := 0, hi := 4294967295, stride := 0x100,
  blocks := 12, scope := .port }

/-- Rows of chapter 03, part 0. -/
def objectsCamera0 : List ObjRow := [Obj.PORT_GROUP, Obj.EPOCH_PENDING, Obj.EPOCH_ID, Obj.EPOCH_FIRST_LINE,
  Obj.EPOCH_LATE_COUNT, Obj.CAM_PRESENT, Obj.CAM_ENABLE, Obj.CAM_LANES, Obj.CAM_RATE, Obj.CAM_LINK_STATUS,
  Obj.CAM_LAYOUT, Obj.CAM_WIDTH, Obj.CAM_DEPTH, Obj.CAM_ROW_SPACING, Obj.CAM_ROW_DELIVERY, Obj.CAM_ROW_LEAD,
  Obj.CAM_FILL_VALUE, Obj.CAM_LINE_DEADLINE_NS, Obj.CAM_HB_TIMEOUT_MS, Obj.CAM_TRIG_LATENCY_NS,
  Obj.CAM_EXPOSURE, Obj.CAM_GAIN, Obj.CAM_EXPOSURE_LEAD, Obj.CAM_EXPOSURE_LIVE, Obj.CAM_GAIN_LIVE,
  Obj.CAM_EXPOSURE_REG, Obj.CAM_EXPOSURE_SCALE, Obj.CAM_GAIN_REG, Obj.CAM_GAIN_SCALE, Obj.CAM_SKEW_SOURCE]

/-- Rows of chapter 03, part 1. -/
def objectsCamera1 : List ObjRow := [Obj.CAM_SKEW_EVENT_ID, Obj.CAM_SKEW_TOL, Obj.CAM_REG_ADDR,
  Obj.CAM_REG_LEN, Obj.CAM_REG_DATA, Obj.CAM_REG_CMD, Obj.CAM_REG_STATUS, Obj.CAM_REG_ACK, Obj.CAM_VENDOR,
  Obj.CAM_MODEL, Obj.CAM_SERIAL, Obj.CAM_LINE_SHORT, Obj.CAM_LINE_LONG, Obj.CAM_LINE_LOST, Obj.CAM_LINE_LATE,
  Obj.CAM_LINE_EXTRA, Obj.CAM_EPOCH_SKEW, Obj.CAM_CRC_ERRORS, Obj.CAM_LINK_DOWN_COUNT, Obj.CAM_CAPTURE_LOST,
  Obj.CAM_EVENT_COUNT, Obj.CAM_EVENT_LAST, Obj.CAM_LINE_NOW, Obj.CAM_LINE_CLOSED, Obj.CAM_STATS_CUR,
  Obj.CAM_STATS_LAST, Obj.CAM_HIST_CUR, Obj.CAM_HIST_LAST, Obj.CAM_HIST_SAT_CUR, Obj.CAM_HIST_SAT_LAST]

/-- Rows of chapter 03, part 2. -/
def objectsCamera2 : List ObjRow := [Obj.CAM_REPLAY_SLOTS, Obj.CAM_REPLAY_BASE, Obj.CAM_REPLAY_SLOT_BYTES]

/-! Objects of spec chapter 04. -/

/-- R118: `RC_ENABLE`. -/
def Obj.RC_ENABLE : ObjRow := {
  name := "RC_ENABLE", index := 0x4000, kind := .u8, access := .rwe, dflt := 15, lo := 0, hi := 15,
  effect := .epoch, stride := 0x100, blocks := 12, scope := .port }

/-- R118: `RC_STATUS`. -/
def Obj.RC_STATUS : ObjRow := {
  name := "RC_STATUS", index := 0x4001, kind := .u16, lo := 0, hi := 65535, stride := 0x100, blocks := 12,
  scope := .port }

/-- R118: `RC_MASK_START`. -/
def Obj.RC_MASK_START : ObjRow := {
  name := "RC_MASK_START", index := 0x4002, kind := .u16, access := .rwp, lo := 0, hi := 16383,
  effect := .preop, stride := 0x100, blocks := 12, scope := .port }

/-- R118: `RC_MASK_COUNT`. -/
def Obj.RC_MASK_COUNT : ObjRow := {
  name := "RC_MASK_COUNT", index := 0x4003, kind := .u8, access := .rwp, lo := 0, hi := 64, effect := .preop,
  stride := 0x100, blocks := 12, scope := .port }

/-- R118: `RC_BLACK_SHIFT`. -/
def Obj.RC_BLACK_SHIFT : ObjRow := {
  name := "RC_BLACK_SHIFT", index := 0x4004, kind := .u8, access := .rwe, dflt := 4, lo := 0, hi := 8,
  effect := .epoch, stride := 0x100, blocks := 12, scope := .port }

/-- R118: `RC_BLACK_FIXED`. -/
def Obj.RC_BLACK_FIXED : ObjRow := {
  name := "RC_BLACK_FIXED", index := 0x4005, count := 4, kind := .u16, isArray := true, access := .rwe,
  lo := 0, hi := 65535, effect := .epoch, stride := 0x100, blocks := 12, scope := .port }

/-- R118: `RC_BLACK_TOL`. -/
def Obj.RC_BLACK_TOL : ObjRow := {
  name := "RC_BLACK_TOL", index := 0x4006, kind := .u16, access := .rwe, dflt := 256, lo := 16, hi := 65535,
  effect := .epoch, stride := 0x100, blocks := 12, scope := .port }

/-- R118: `RC_BLACK_LIVE`. -/
def Obj.RC_BLACK_LIVE : ObjRow := {
  name := "RC_BLACK_LIVE", index := 0x4007, count := 4, kind := .u16, isArray := true, lo := 0, hi := 65535,
  stride := 0x100, blocks := 12, scope := .port }

/-- R118: `RC_BLACK_OUTLIER`. -/
def Obj.RC_BLACK_OUTLIER : ObjRow := {
  name := "RC_BLACK_OUTLIER", index := 0x4008, kind := .u64, access := .rw, lo := 0,
  hi := 18446744073709551615, effect := .now, stride := 0x100, blocks := 12, scope := .port, counter := true }

/-- R118: `RC_DEFECT_MAP`. -/
def Obj.RC_DEFECT_MAP : ObjRow := {
  name := "RC_DEFECT_MAP", index := 0x4010, kind := .blob, access := .rwe, lo := 0, hi := 4112,
  effect := .epoch, stride := 0x100, blocks := 12, scope := .port }

/-- R118: `RC_DEFECT_MAP_STATE`. -/
def Obj.RC_DEFECT_MAP_STATE : ObjRow := {
  name := "RC_DEFECT_MAP_STATE", index := 0x4011, kind := .u8, lo := 0, hi := 3, stride := 0x100,
  blocks := 12, scope := .port }

/-- R118: `RC_DEFECT_MAP_ENTRIES`. -/
def Obj.RC_DEFECT_MAP_ENTRIES : ObjRow := {
  name := "RC_DEFECT_MAP_ENTRIES", index := 0x4012, kind := .u16, lo := 0, hi := 1024, stride := 0x100,
  blocks := 12, scope := .port }

/-- R118: `RC_DEFECT_ONLINE_ENABLE`. -/
def Obj.RC_DEFECT_ONLINE_ENABLE : ObjRow := {
  name := "RC_DEFECT_ONLINE_ENABLE", index := 0x4013, kind := .bool, access := .rwe, dflt := 1, lo := 0,
  hi := 1, effect := .epoch, stride := 0x100, blocks := 12, scope := .port }

/-- R118: `RC_DEFECT_K`. -/
def Obj.RC_DEFECT_K : ObjRow := {
  name := "RC_DEFECT_K", index := 0x4014, kind := .u8, access := .rwe, dflt := 32, lo := 8, hi := 255,
  effect := .epoch, stride := 0x100, blocks := 12, scope := .port }

/-- R118: `RC_DEFECT_LINES`. -/
def Obj.RC_DEFECT_LINES : ObjRow := {
  name := "RC_DEFECT_LINES", index := 0x4015, kind := .u16, access := .rwe, dflt := 4096, lo := 16,
  hi := 65535, effect := .epoch, stride := 0x100, blocks := 12, scope := .port }

/-- R118: `RC_DEFECT_ONLINE`. -/
def Obj.RC_DEFECT_ONLINE : ObjRow := {
  name := "RC_DEFECT_ONLINE", index := 0x4016, count := 64, kind := .u32, isArray := true, lo := 0,
  hi := 4294967295, stride := 0x100, blocks := 12, scope := .port }

/-- R118: `RC_DEFECT_ONLINE_COUNT`. -/
def Obj.RC_DEFECT_ONLINE_COUNT : ObjRow := {
  name := "RC_DEFECT_ONLINE_COUNT", index := 0x4017, kind := .u8, lo := 0, hi := 64, stride := 0x100,
  blocks := 12, scope := .port }

/-- R118: `RC_DEFECT_ONLINE_RESET`. -/
def Obj.RC_DEFECT_ONLINE_RESET : ObjRow := {
  name := "RC_DEFECT_ONLINE_RESET", index := 0x4018, kind := .bool, access := .rwe, lo := 0, hi := 1,
  effect := .epoch, stride := 0x100, blocks := 12, scope := .port }

/-- R118: `RC_DEFECT_UNRESOLVED`. -/
def Obj.RC_DEFECT_UNRESOLVED : ObjRow := {
  name := "RC_DEFECT_UNRESOLVED", index := 0x4019, kind := .u64, access := .rw, lo := 0,
  hi := 18446744073709551615, effect := .now, stride := 0x100, blocks := 12, scope := .port, counter := true }

/-- R118: `RC_DEFECT_LIST_FULL`. -/
def Obj.RC_DEFECT_LIST_FULL : ObjRow := {
  name := "RC_DEFECT_LIST_FULL", index := 0x401a, kind := .u64, access := .rw, lo := 0,
  hi := 18446744073709551615, effect := .now, stride := 0x100, blocks := 12, scope := .port, counter := true }

/-- R118: `RC_READ_NOISE`. -/
def Obj.RC_READ_NOISE : ObjRow := {
  name := "RC_READ_NOISE", index := 0x4020, kind := .u16, access := .rwe, dflt := 32, lo := 0, hi := 4095,
  effect := .epoch, stride := 0x100, blocks := 12, scope := .port }

/-- R118: `RC_SHOT_K`. -/
def Obj.RC_SHOT_K : ObjRow := {
  name := "RC_SHOT_K", index := 0x4021, kind := .u32, access := .rwe, dflt := 16384, lo := 0, hi := 1048576,
  effect := .epoch, stride := 0x100, blocks := 12, scope := .port }

/-- R118: `RC_SNR_T1`. -/
def Obj.RC_SNR_T1 : ObjRow := {
  name := "RC_SNR_T1", index := 0x4022, kind := .u8, access := .rwe, dflt := 6, lo := 0, hi := 64,
  effect := .epoch, stride := 0x100, blocks := 12, scope := .port }

/-- R118: `RC_SNR_T2`. -/
def Obj.RC_SNR_T2 : ObjRow := {
  name := "RC_SNR_T2", index := 0x4023, kind := .u8, access := .rwe, dflt := 12, lo := 0, hi := 64,
  effect := .epoch, stride := 0x100, blocks := 12, scope := .port }

/-- R118: `RC_SNR_CURVE`. -/
def Obj.RC_SNR_CURVE : ObjRow := {
  name := "RC_SNR_CURVE", index := 0x4024, count := 8, kind := .u8, isArray := true, access := .rwe,
  dflt := 8, lo := 0, hi := 16, effect := .epoch, stride := 0x100, blocks := 12, scope := .port }

/-- R118: `RC_SIGMA_TABLE`. -/
def Obj.RC_SIGMA_TABLE : ObjRow := {
  name := "RC_SIGMA_TABLE", index := 0x4025, count := 256, kind := .u16, isArray := true, lo := 0,
  hi := 65535, stride := 0x100, blocks := 12, scope := .port }

/-- R118: `RC_TNR_SHIFT`. -/
def Obj.RC_TNR_SHIFT : ObjRow := {
  name := "RC_TNR_SHIFT", index := 0x4028, kind := .u8, access := .rwe, dflt := 6, lo := 2, hi := 12,
  effect := .epoch, stride := 0x100, blocks := 12, scope := .port }

/-- R118: `RC_BG_K`. -/
def Obj.RC_BG_K : ObjRow := {
  name := "RC_BG_K", index := 0x4029, kind := .u8, access := .rwe, dflt := 12, lo := 4, hi := 64,
  effect := .epoch, stride := 0x100, blocks := 12, scope := .port }

/-- R118: `RC_PLATE_STALE_LINES`. -/
def Obj.RC_PLATE_STALE_LINES : ObjRow := {
  name := "RC_PLATE_STALE_LINES", index := 0x402a, kind := .u16, access := .rwe, dflt := 32768, lo := 256,
  hi := 65535, effect := .epoch, stride := 0x100, blocks := 12, scope := .port }

/-- R118: `RC_PLATE_STALE_COUNT`. -/
def Obj.RC_PLATE_STALE_COUNT : ObjRow := {
  name := "RC_PLATE_STALE_COUNT", index := 0x402b, kind := .u16, lo := 0, hi := 65535, stride := 0x100,
  blocks := 12, scope := .port }

/-- R118: `RC_PLATE_STALE`. -/
def Obj.RC_PLATE_STALE : ObjRow := {
  name := "RC_PLATE_STALE", index := 0x402c, kind := .u64, access := .rw, lo := 0, hi := 18446744073709551615,
  effect := .now, stride := 0x100, blocks := 12, scope := .port, counter := true }

/-- R118: `RC_PLATE_WARMUP`. -/
def Obj.RC_PLATE_WARMUP : ObjRow := {
  name := "RC_PLATE_WARMUP", index := 0x402d, kind := .u16, access := .rwp, dflt := 64, lo := 16, hi := 4096,
  effect := .preop, stride := 0x100, blocks := 12, scope := .port }

/-- R118: `RC_PLATE_MEAN`. -/
def Obj.RC_PLATE_MEAN : ObjRow := {
  name := "RC_PLATE_MEAN", index := 0x402e, count := 4, kind := .u32, isArray := true, lo := 0,
  hi := 4294967295, stride := 0x100, blocks := 12, scope := .port }

/-- R118: `RC_FF_MODE`. -/
def Obj.RC_FF_MODE : ObjRow := {
  name := "RC_FF_MODE", index := 0x4030, kind := .u8, access := .rwe, lo := 0, hi := 2, effect := .epoch,
  stride := 0x100, blocks := 12, scope := .port }

/-- R118: `RC_FF_TARGET`. -/
def Obj.RC_FF_TARGET : ObjRow := {
  name := "RC_FF_TARGET", index := 0x4031, kind := .u16, access := .rwe, dflt := 49152, lo := 4096,
  hi := 65535, effect := .epoch, stride := 0x100, blocks := 12, scope := .port }

/-- R118: `RC_FF_DRIFT_LIMIT`. -/
def Obj.RC_FF_DRIFT_LIMIT : ObjRow := {
  name := "RC_FF_DRIFT_LIMIT", index := 0x4032, kind := .u16, access := .rwe, dflt := 102, lo := 0, hi := 512,
  effect := .epoch, stride := 0x100, blocks := 12, scope := .port }

/-- R118: `RC_FF_PLATE_REF`. -/
def Obj.RC_FF_PLATE_REF : ObjRow := {
  name := "RC_FF_PLATE_REF", index := 0x4033, kind := .blob, access := .rwe, lo := 0, hi := 32768,
  effect := .epoch, stride := 0x100, blocks := 12, scope := .port }

/-- R118: `RC_FF_CLIPPED_SITES`. -/
def Obj.RC_FF_CLIPPED_SITES : ObjRow := {
  name := "RC_FF_CLIPPED_SITES", index := 0x4034, kind := .u16, lo := 0, hi := 65535, stride := 0x100,
  blocks := 12, scope := .port }

/-- R118: `RC_FF_CLIPPED_LINES`. -/
def Obj.RC_FF_CLIPPED_LINES : ObjRow := {
  name := "RC_FF_CLIPPED_LINES", index := 0x4035, kind := .u64, access := .rw, lo := 0,
  hi := 18446744073709551615, effect := .now, stride := 0x100, blocks := 12, scope := .port, counter := true }

/-- R118: `RC_FF_ALARM_FRACTION`. -/
def Obj.RC_FF_ALARM_FRACTION : ObjRow := {
  name := "RC_FF_ALARM_FRACTION", index := 0x4036, kind := .u8, access := .rwe, dflt := 26, lo := 1,
  hi := 255, effect := .epoch, stride := 0x100, blocks := 12, scope := .port }

/-- R118: `RC_SNAPSHOT_LINES`. -/
def Obj.RC_SNAPSHOT_LINES : ObjRow := {
  name := "RC_SNAPSHOT_LINES", index := 0x4038, kind := .u16, access := .rwp, dflt := 256, lo := 64,
  hi := 512, allowed := [64, 128, 256, 512], effect := .preop, stride := 0x100, blocks := 12, scope := .port }

/-- R118: `RC_SNAPSHOT_BASE`. -/
def Obj.RC_SNAPSHOT_BASE : ObjRow := {
  name := "RC_SNAPSHOT_BASE", index := 0x4039, kind := .u64, lo := 0, hi := 18446744073709551615,
  stride := 0x100, blocks := 12, scope := .port }

/-- R118: `RC_SNAPSHOT_LAST`. -/
def Obj.RC_SNAPSHOT_LAST : ObjRow := {
  name := "RC_SNAPSHOT_LAST", index := 0x403a, kind := .u64, lo := 0, hi := 18446744073709551615,
  stride := 0x100, blocks := 12, scope := .port }

/-- Rows of chapter 04, part 0. -/
def objectsRaw0 : List ObjRow := [Obj.RC_ENABLE, Obj.RC_STATUS, Obj.RC_MASK_START, Obj.RC_MASK_COUNT,
  Obj.RC_BLACK_SHIFT, Obj.RC_BLACK_FIXED, Obj.RC_BLACK_TOL, Obj.RC_BLACK_LIVE, Obj.RC_BLACK_OUTLIER,
  Obj.RC_DEFECT_MAP, Obj.RC_DEFECT_MAP_STATE, Obj.RC_DEFECT_MAP_ENTRIES, Obj.RC_DEFECT_ONLINE_ENABLE,
  Obj.RC_DEFECT_K, Obj.RC_DEFECT_LINES, Obj.RC_DEFECT_ONLINE, Obj.RC_DEFECT_ONLINE_COUNT,
  Obj.RC_DEFECT_ONLINE_RESET, Obj.RC_DEFECT_UNRESOLVED, Obj.RC_DEFECT_LIST_FULL, Obj.RC_READ_NOISE,
  Obj.RC_SHOT_K, Obj.RC_SNR_T1, Obj.RC_SNR_T2, Obj.RC_SNR_CURVE, Obj.RC_SIGMA_TABLE, Obj.RC_TNR_SHIFT,
  Obj.RC_BG_K, Obj.RC_PLATE_STALE_LINES, Obj.RC_PLATE_STALE_COUNT]

/-- Rows of chapter 04, part 1. -/
def objectsRaw1 : List ObjRow := [Obj.RC_PLATE_STALE, Obj.RC_PLATE_WARMUP, Obj.RC_PLATE_MEAN, Obj.RC_FF_MODE,
  Obj.RC_FF_TARGET, Obj.RC_FF_DRIFT_LIMIT, Obj.RC_FF_PLATE_REF, Obj.RC_FF_CLIPPED_SITES,
  Obj.RC_FF_CLIPPED_LINES, Obj.RC_FF_ALARM_FRACTION, Obj.RC_SNAPSHOT_LINES, Obj.RC_SNAPSHOT_BASE,
  Obj.RC_SNAPSHOT_LAST]

/-! Objects of spec chapter 05. -/

/-- R150: `RG_MEASURE`. -/
def Obj.RG_MEASURE : ObjRow := {
  name := "RG_MEASURE", index := 0x4040, kind := .bool, access := .rwe, dflt := 1, lo := 0, hi := 1,
  effect := .epoch, stride := 0x100, blocks := 12, scope := .port }

/-- R150: `RG_ROW_PITCH`. -/
def Obj.RG_ROW_PITCH : ObjRow := {
  name := "RG_ROW_PITCH", index := 0x4041, kind := .u32, access := .rwp, dflt := 5000, lo := 100,
  hi := 10000000, effect := .preop, stride := 0x100, blocks := 12, scope := .port }

/-- R150: `RG_NOMINAL_SPEED`. -/
def Obj.RG_NOMINAL_SPEED : ObjRow := {
  name := "RG_NOMINAL_SPEED", index := 0x4042, kind := .u32, access := .rwp, dflt := 30000, lo := 1000,
  hi := 200000, effect := .preop, stride := 0x100, blocks := 12, scope := .port }

/-- R150: `RG_WINDOW_LINES`. -/
def Obj.RG_WINDOW_LINES : ObjRow := {
  name := "RG_WINDOW_LINES", index := 0x4043, kind := .u8, access := .rwe, dflt := 8, lo := 4, hi := 32,
  effect := .epoch, stride := 0x100, blocks := 12, scope := .port }

/-- R150: `RG_WINDOW_MIN`. -/
def Obj.RG_WINDOW_MIN : ObjRow := {
  name := "RG_WINDOW_MIN", index := 0x4044, kind := .u8, access := .rwe, dflt := 4, lo := 2, hi := 32,
  effect := .epoch, stride := 0x100, blocks := 12, scope := .port }

/-- R150: `RG_LAG_RANGE`. -/
def Obj.RG_LAG_RANGE : ObjRow := {
  name := "RG_LAG_RANGE", index := 0x4045, kind := .u16, access := .rwe, dflt := 512, lo := 0, hi := 768,
  effect := .epoch, stride := 0x100, blocks := 12, scope := .port }

/-- R150: `RG_LAG_MIN`. -/
def Obj.RG_LAG_MIN : ObjRow := {
  name := "RG_LAG_MIN", index := 0x4046, kind := .u8, lo := 0, hi := 255, stride := 0x100, blocks := 12,
  scope := .port }

/-- R150: `RG_LAG_MAX`. -/
def Obj.RG_LAG_MAX : ObjRow := {
  name := "RG_LAG_MAX", index := 0x4047, kind := .u8, lo := 0, hi := 255, stride := 0x100, blocks := 12,
  scope := .port }

/-- R150: `RG_CONF_MIN`. -/
def Obj.RG_CONF_MIN : ObjRow := {
  name := "RG_CONF_MIN", index := 0x4048, kind := .u8, access := .rwe, dflt := 32, lo := 0, hi := 255,
  effect := .epoch, stride := 0x100, blocks := 12, scope := .port }

/-- R150: `RG_MIN_OCC`. -/
def Obj.RG_MIN_OCC : ObjRow := {
  name := "RG_MIN_OCC", index := 0x4049, kind := .u16, access := .rwe, dflt := 64, lo := 1, hi := 65535,
  effect := .epoch, stride := 0x100, blocks := 12, scope := .port }

/-- R150: `RG_SPAN_MARGIN`. -/
def Obj.RG_SPAN_MARGIN : ObjRow := {
  name := "RG_SPAN_MARGIN", index := 0x404a, kind := .u8, access := .rwe, dflt := 4, lo := 0, hi := 64,
  effect := .epoch, stride := 0x100, blocks := 12, scope := .port }

/-- R150: `RG_HOLD_MAX_NS`. -/
def Obj.RG_HOLD_MAX_NS : ObjRow := {
  name := "RG_HOLD_MAX_NS", index := 0x404b, kind := .u32, access := .rwe, dflt := 100000, lo := 20000,
  hi := 1000000, effect := .epoch, stride := 0x100, blocks := 12, scope := .port }

/-- R150: `RG_FALLBACK`. -/
def Obj.RG_FALLBACK : ObjRow := {
  name := "RG_FALLBACK", index := 0x404c, kind := .u8, access := .rwe, lo := 0, hi := 1, effect := .epoch,
  stride := 0x100, blocks := 12, scope := .port }

/-- R150: `RG_BELT_NM_PER_COUNT`. -/
def Obj.RG_BELT_NM_PER_COUNT : ObjRow := {
  name := "RG_BELT_NM_PER_COUNT", index := 0x404d, kind := .u32, access := .rwp, dflt := 1000, lo := 1,
  hi := 1000000, effect := .preop, stride := 0x100, blocks := 12, scope := .port }

/-- R150: `RG_STATUS`. -/
def Obj.RG_STATUS : ObjRow := {
  name := "RG_STATUS", index := 0x404e, kind := .u16, lo := 0, hi := 65535, stride := 0x100, blocks := 12,
  scope := .port }

/-- R150: `RG_REASON_COUNT`. -/
def Obj.RG_REASON_COUNT : ObjRow := {
  name := "RG_REASON_COUNT", index := 0x4050, count := 16, kind := .u64, isArray := true, access := .rw,
  lo := 0, hi := 18446744073709551615, effect := .now, stride := 0x100, blocks := 12, scope := .port,
  counter := true }

/-- R150: `RG_HOLD_MAX_SEEN`. -/
def Obj.RG_HOLD_MAX_SEEN : ObjRow := {
  name := "RG_HOLD_MAX_SEEN", index := 0x4051, kind := .u32, lo := 0, hi := 4294967295, stride := 0x100,
  blocks := 12, scope := .port }

/-- R150: `RG_TRACKS_OPEN`. -/
def Obj.RG_TRACKS_OPEN : ObjRow := {
  name := "RG_TRACKS_OPEN", index := 0x4052, kind := .u16, lo := 0, hi := 1024, stride := 0x100, blocks := 12,
  scope := .port }

/-- R150: `RG_LAST_RESULT`. -/
def Obj.RG_LAST_RESULT : ObjRow := {
  name := "RG_LAST_RESULT", index := 0x4053, count := 6, kind := .record, lo := 0, hi := 18446744073709551615,
  stride := 0x100, blocks := 12, scope := .port }

/-- R150: `DM_BALANCE`. -/
def Obj.DM_BALANCE : ObjRow := {
  name := "DM_BALANCE", index := 0x4058, kind := .u8, access := .rwe, dflt := 4, lo := 0, hi := 16,
  effect := .epoch, stride := 0x100, blocks := 12, scope := .port }

/-- R150: `DM_FLAT`. -/
def Obj.DM_FLAT : ObjRow := {
  name := "DM_FLAT", index := 0x4059, kind := .u16, access := .rwe, dflt := 256, lo := 0, hi := 65535,
  effect := .epoch, stride := 0x100, blocks := 12, scope := .port }

/-- R150: `CM_MATRIX`. -/
def Obj.CM_MATRIX : ObjRow := {
  name := "CM_MATRIX", index := 0x4060, count := 16, kind := .i16, isArray := true, access := .rwe,
  special := [(0, 4096), (5, 4096), (10, 4096), (15, 4096)], lo := (-32768), hi := 32767, effect := .epoch,
  stride := 0x100, blocks := 12, scope := .port }

/-- R150: `CM_OFFSET`. -/
def Obj.CM_OFFSET : ObjRow := {
  name := "CM_OFFSET", index := 0x4061, count := 4, kind := .i32, isArray := true, access := .rwe,
  lo := (-65535), hi := 65535, effect := .epoch, stride := 0x100, blocks := 12, scope := .port }

/-- R150: `PJ_MATRIX`. -/
def Obj.PJ_MATRIX : ObjRow := {
  name := "PJ_MATRIX", index := 0x4062, count := 12, kind := .i16, isArray := true, access := .rwe,
  special := [(0, 4096), (5, 4096), (11, 4096)], lo := (-32768), hi := 32767, effect := .epoch,
  stride := 0x100, blocks := 12, scope := .port }

/-- R150: `PJ_OFFSET`. -/
def Obj.PJ_OFFSET : ObjRow := {
  name := "PJ_OFFSET", index := 0x4063, count := 3, kind := .i32, isArray := true, access := .rwe,
  lo := (-2147483648), hi := 2147483647, effect := .epoch, stride := 0x100, blocks := 12, scope := .port }

/-- R150: `PJ_CLIPPED`. -/
def Obj.PJ_CLIPPED : ObjRow := {
  name := "PJ_CLIPPED", index := 0x4064, kind := .u64, access := .rw, lo := 0, hi := 18446744073709551615,
  effect := .now, stride := 0x100, blocks := 12, scope := .port, counter := true }

/-- Rows of chapter 05, part 0. -/
def objectsRegistration0 : List ObjRow := [Obj.RG_MEASURE, Obj.RG_ROW_PITCH, Obj.RG_NOMINAL_SPEED,
  Obj.RG_WINDOW_LINES, Obj.RG_WINDOW_MIN, Obj.RG_LAG_RANGE, Obj.RG_LAG_MIN, Obj.RG_LAG_MAX, Obj.RG_CONF_MIN,
  Obj.RG_MIN_OCC, Obj.RG_SPAN_MARGIN, Obj.RG_HOLD_MAX_NS, Obj.RG_FALLBACK, Obj.RG_BELT_NM_PER_COUNT,
  Obj.RG_STATUS, Obj.RG_REASON_COUNT, Obj.RG_HOLD_MAX_SEEN, Obj.RG_TRACKS_OPEN, Obj.RG_LAST_RESULT,
  Obj.DM_BALANCE, Obj.DM_FLAT, Obj.CM_MATRIX, Obj.CM_OFFSET, Obj.PJ_MATRIX, Obj.PJ_OFFSET, Obj.PJ_CLIPPED]

/-! Objects of spec chapter 06. -/

/-- R184: `AT_BLOB`. -/
def Obj.AT_BLOB : ObjRow := {
  name := "AT_BLOB", index := 0x4080, kind := .blob, access := .rwe, lo := 0, hi := 2097312, effect := .epoch,
  stride := 0x100, blocks := 12, scope := .port }

/-- R184: `AT_LOAD_ADDR`. -/
def Obj.AT_LOAD_ADDR : ObjRow := {
  name := "AT_LOAD_ADDR", index := 0x4081, kind := .u64, access := .rw, lo := 0, hi := 18446744073709551615,
  mult := 64, effect := .now, stride := 0x100, blocks := 12, scope := .port }

/-- R184: `AT_LOAD_BYTES`. -/
def Obj.AT_LOAD_BYTES : ObjRow := {
  name := "AT_LOAD_BYTES", index := 0x4082, kind := .u32, access := .rw, lo := 64, hi := 2097312,
  effect := .now, stride := 0x100, blocks := 12, scope := .port }

/-- R184: `AT_LOAD_CMD`. -/
def Obj.AT_LOAD_CMD : ObjRow := {
  name := "AT_LOAD_CMD", index := 0x4083, kind := .u8, access := .wo, lo := 1, hi := 2, effect := .now,
  stride := 0x100, blocks := 12, scope := .port }

/-- R184: `AT_STATE`. -/
def Obj.AT_STATE : ObjRow := {
  name := "AT_STATE", index := 0x4084, kind := .u8, lo := 0, hi := 4, stride := 0x100, blocks := 12,
  scope := .port }

/-- R184: `AT_LIVE_ID`. -/
def Obj.AT_LIVE_ID : ObjRow := {
  name := "AT_LIVE_ID", index := 0x4085, kind := .u64, lo := 0, hi := 18446744073709551615, stride := 0x100,
  blocks := 12, scope := .port }

/-- R184: `AT_STAGED_ID`. -/
def Obj.AT_STAGED_ID : ObjRow := {
  name := "AT_STAGED_ID", index := 0x4086, kind := .u64, lo := 0, hi := 18446744073709551615, stride := 0x100,
  blocks := 12, scope := .port }

/-- R184: `AT_LIVE_NAME`. -/
def Obj.AT_LIVE_NAME : ObjRow := {
  name := "AT_LIVE_NAME", index := 0x4087, kind := .str, lo := 0, hi := 65535, stride := 0x100, blocks := 12,
  scope := .port }

/-- R184: `AT_REFUSE_CODE`. -/
def Obj.AT_REFUSE_CODE : ObjRow := {
  name := "AT_REFUSE_CODE", index := 0x4088, kind := .u8, lo := 0, hi := 8, stride := 0x100, blocks := 12,
  scope := .port }

/-- R184: `AT_SWAP_LINE`. -/
def Obj.AT_SWAP_LINE : ObjRow := {
  name := "AT_SWAP_LINE", index := 0x4089, kind := .u64, lo := 0, hi := 18446744073709551615, stride := 0x100,
  blocks := 12, scope := .port }

/-- R184: `AT_BUSY_UNTIL`. -/
def Obj.AT_BUSY_UNTIL : ObjRow := {
  name := "AT_BUSY_UNTIL", index := 0x408a, kind := .u64, lo := 0, hi := 18446744073709551615,
  stride := 0x100, blocks := 12, scope := .port }

/-- R184: `AT_ERROR_CLASS`. -/
def Obj.AT_ERROR_CLASS : ObjRow := {
  name := "AT_ERROR_CLASS", index := 0x408b, kind := .u8, access := .rwe, dflt := 255, lo := 1, hi := 255,
  effect := .epoch, stride := 0x100, blocks := 12, scope := .port }

/-- R184: `AT_ECC_CORRECTED`. -/
def Obj.AT_ECC_CORRECTED : ObjRow := {
  name := "AT_ECC_CORRECTED", index := 0x408c, kind := .u64, access := .rw, lo := 0,
  hi := 18446744073709551615, effect := .now, stride := 0x100, blocks := 12, scope := .port, counter := true }

/-- R184: `AT_ECC_REPAIRED`. -/
def Obj.AT_ECC_REPAIRED : ObjRow := {
  name := "AT_ECC_REPAIRED", index := 0x408d, kind := .u64, access := .rw, lo := 0,
  hi := 18446744073709551615, effect := .now, stride := 0x100, blocks := 12, scope := .port, counter := true }

/-- R184: `AT_ECC_UNCORR`. -/
def Obj.AT_ECC_UNCORR : ObjRow := {
  name := "AT_ECC_UNCORR", index := 0x408e, kind := .u64, access := .rw, lo := 0, hi := 18446744073709551615,
  effect := .now, stride := 0x100, blocks := 12, scope := .port, counter := true }

/-- R184: `AT_SCRUB_PERIOD_MS`. -/
def Obj.AT_SCRUB_PERIOD_MS : ObjRow := {
  name := "AT_SCRUB_PERIOD_MS", index := 0x408f, kind := .u16, access := .rwp, dflt := 100, lo := 10,
  hi := 10000, effect := .preop, stride := 0x100, blocks := 12, scope := .port }

/-- R184: `AT_SCRUB_PASSES`. -/
def Obj.AT_SCRUB_PASSES : ObjRow := {
  name := "AT_SCRUB_PASSES", index := 0x4090, kind := .u64, access := .rw, lo := 0,
  hi := 18446744073709551615, effect := .now, stride := 0x100, blocks := 12, scope := .port, counter := true }

/-- R184: `AT_PROBE_ADDR`. -/
def Obj.AT_PROBE_ADDR : ObjRow := {
  name := "AT_PROBE_ADDR", index := 0x4091, kind := .u32, access := .rw, lo := 0, hi := 2097151,
  effect := .now, stride := 0x100, blocks := 12, scope := .port }

/-- R184: `AT_PROBE_RESULT`. -/
def Obj.AT_PROBE_RESULT : ObjRow := {
  name := "AT_PROBE_RESULT", index := 0x4092, kind := .u16, lo := 0, hi := 65535, stride := 0x100,
  blocks := 12, scope := .port }

/-- R184: `AT_STATUS`. -/
def Obj.AT_STATUS : ObjRow := {
  name := "AT_STATUS", index := 0x4093, kind := .u16, lo := 0, hi := 65535, stride := 0x100, blocks := 12,
  scope := .port }

/-- R184: `SG_CLOSE_LINES`. -/
def Obj.SG_CLOSE_LINES : ObjRow := {
  name := "SG_CLOSE_LINES", index := 0x40a0, kind := .u8, access := .rwe, dflt := 8, lo := 1, hi := 64,
  effect := .epoch, stride := 0x100, blocks := 12, scope := .port }

/-- R184: `SG_PLATE_GATE`. -/
def Obj.SG_PLATE_GATE : ObjRow := {
  name := "SG_PLATE_GATE", index := 0x40a1, kind := .bool, access := .rwe, dflt := 1, lo := 0, hi := 1,
  effect := .epoch, stride := 0x100, blocks := 12, scope := .port }

/-- R184: `SG_COLUMN_PITCH_NM`. -/
def Obj.SG_COLUMN_PITCH_NM : ObjRow := {
  name := "SG_COLUMN_PITCH_NM", index := 0x40a2, kind := .u32, access := .rwp, dflt := 25000, lo := 100,
  hi := 10000000, effect := .preop, stride := 0x100, blocks := 12, scope := .port }

/-- R184: `SG_DEFECT_SEVERITY`. -/
def Obj.SG_DEFECT_SEVERITY : ObjRow := {
  name := "SG_DEFECT_SEVERITY", index := 0x40a3, kind := .u8, access := .rwe, dflt := 128, lo := 0, hi := 255,
  effect := .epoch, stride := 0x100, blocks := 12, scope := .port }

/-- R184: `SG_OPEN_OBJECTS`. -/
def Obj.SG_OPEN_OBJECTS : ObjRow := {
  name := "SG_OPEN_OBJECTS", index := 0x40a4, kind := .u16, lo := 0, hi := 4096, stride := 0x100,
  blocks := 12, scope := .port }

/-- R184: `SG_OPEN_MAX_SEEN`. -/
def Obj.SG_OPEN_MAX_SEEN : ObjRow := {
  name := "SG_OPEN_MAX_SEEN", index := 0x40a5, kind := .u16, lo := 0, hi := 65535, stride := 0x100,
  blocks := 12, scope := .port }

/-- R184: `SG_OBJECTS_CLOSED`. -/
def Obj.SG_OBJECTS_CLOSED : ObjRow := {
  name := "SG_OBJECTS_CLOSED", index := 0x40a6, kind := .u64, access := .rw, lo := 0,
  hi := 18446744073709551615, effect := .now, stride := 0x100, blocks := 12, scope := .port, counter := true }

/-- R184: `SG_OVERFLOW_OBJECTS`. -/
def Obj.SG_OVERFLOW_OBJECTS : ObjRow := {
  name := "SG_OVERFLOW_OBJECTS", index := 0x40a7, kind := .u64, access := .rw, lo := 0,
  hi := 18446744073709551615, effect := .now, stride := 0x100, blocks := 12, scope := .port, counter := true }

/-- R184: `SG_OVERFLOW_SITES`. -/
def Obj.SG_OVERFLOW_SITES : ObjRow := {
  name := "SG_OVERFLOW_SITES", index := 0x40a8, kind := .u64, access := .rw, lo := 0,
  hi := 18446744073709551615, effect := .now, stride := 0x100, blocks := 12, scope := .port, counter := true }

/-- R184: `SG_SPLITS`. -/
def Obj.SG_SPLITS : ObjRow := {
  name := "SG_SPLITS", index := 0x40a9, kind := .u64, access := .rw, lo := 0, hi := 18446744073709551615,
  effect := .now, stride := 0x100, blocks := 12, scope := .port, counter := true }

/-- R184: `SG_MERGES`. -/
def Obj.SG_MERGES : ObjRow := {
  name := "SG_MERGES", index := 0x40aa, kind := .u64, access := .rw, lo := 0, hi := 18446744073709551615,
  effect := .now, stride := 0x100, blocks := 12, scope := .port, counter := true }

/-- R184: `SG_SLOT_SPILLS`. -/
def Obj.SG_SLOT_SPILLS : ObjRow := {
  name := "SG_SLOT_SPILLS", index := 0x40ab, kind := .u64, access := .rw, lo := 0, hi := 18446744073709551615,
  effect := .now, stride := 0x100, blocks := 12, scope := .port, counter := true }

/-- R184: `SG_TRUNCATED`. -/
def Obj.SG_TRUNCATED : ObjRow := {
  name := "SG_TRUNCATED", index := 0x40ac, kind := .u64, access := .rw, lo := 0, hi := 18446744073709551615,
  effect := .now, stride := 0x100, blocks := 12, scope := .port, counter := true }

/-- R184: `SG_STATUS`. -/
def Obj.SG_STATUS : ObjRow := {
  name := "SG_STATUS", index := 0x40ad, kind := .u16, lo := 0, hi := 65535, stride := 0x100, blocks := 12,
  scope := .port }

/-- R184: `SG_LAST_FACETS`. -/
def Obj.SG_LAST_FACETS : ObjRow := {
  name := "SG_LAST_FACETS", index := 0x40b0, count := 32, kind := .u32, isArray := true, lo := 0,
  hi := 4294967295, stride := 0x100, blocks := 12, scope := .port }

/-- R184: `SG_LAST_ANCHOR_LINE`. -/
def Obj.SG_LAST_ANCHOR_LINE : ObjRow := {
  name := "SG_LAST_ANCHOR_LINE", index := 0x40b1, kind := .u64, lo := 0, hi := 18446744073709551615,
  stride := 0x100, blocks := 12, scope := .port }

/-- R184: `SG_LAST_ANCHOR_COL`. -/
def Obj.SG_LAST_ANCHOR_COL : ObjRow := {
  name := "SG_LAST_ANCHOR_COL", index := 0x40b2, kind := .u16, lo := 0, hi := 65535, stride := 0x100,
  blocks := 12, scope := .port }

/-- Rows of chapter 06, part 0. -/
def objectsAtlas0 : List ObjRow := [Obj.AT_BLOB, Obj.AT_LOAD_ADDR, Obj.AT_LOAD_BYTES, Obj.AT_LOAD_CMD,
  Obj.AT_STATE, Obj.AT_LIVE_ID, Obj.AT_STAGED_ID, Obj.AT_LIVE_NAME, Obj.AT_REFUSE_CODE, Obj.AT_SWAP_LINE,
  Obj.AT_BUSY_UNTIL, Obj.AT_ERROR_CLASS, Obj.AT_ECC_CORRECTED, Obj.AT_ECC_REPAIRED, Obj.AT_ECC_UNCORR,
  Obj.AT_SCRUB_PERIOD_MS, Obj.AT_SCRUB_PASSES, Obj.AT_PROBE_ADDR, Obj.AT_PROBE_RESULT, Obj.AT_STATUS,
  Obj.SG_CLOSE_LINES, Obj.SG_PLATE_GATE, Obj.SG_COLUMN_PITCH_NM, Obj.SG_DEFECT_SEVERITY, Obj.SG_OPEN_OBJECTS,
  Obj.SG_OPEN_MAX_SEEN, Obj.SG_OBJECTS_CLOSED, Obj.SG_OVERFLOW_OBJECTS, Obj.SG_OVERFLOW_SITES, Obj.SG_SPLITS]

/-- Rows of chapter 06, part 1. -/
def objectsAtlas1 : List ObjRow := [Obj.SG_MERGES, Obj.SG_SLOT_SPILLS, Obj.SG_TRUNCATED, Obj.SG_STATUS,
  Obj.SG_LAST_FACETS, Obj.SG_LAST_ANCHOR_LINE, Obj.SG_LAST_ANCHOR_COL]

/-! Objects of spec chapter 07. -/

/-- R209: `ST_ENABLE`. -/
def Obj.ST_ENABLE : ObjRow := {
  name := "ST_ENABLE", index := 0x5000, kind := .bool, access := .rwp, dflt := 1, lo := 0, hi := 1,
  effect := .preop }

/-- R209: `ST_ORDER`. -/
def Obj.ST_ORDER : ObjRow := {
  name := "ST_ORDER", index := 0x5001, count := 12, kind := .u8, isArray := true, access := .rwp, dflt := 255,
  lo := 0, hi := 255, effect := .preop }

/-- R209: `ST_SEAM_X`. -/
def Obj.ST_SEAM_X : ObjRow := {
  name := "ST_SEAM_X", index := 0x5002, count := 11, kind := .i32, isArray := true, access := .rwp,
  lo := (-2147483648), hi := 2147483647, effect := .preop }

/-- R209: `ST_WEST_SEAM_X`. -/
def Obj.ST_WEST_SEAM_X : ObjRow := {
  name := "ST_WEST_SEAM_X", index := 0x5003, kind := .i32, access := .rwp, lo := (-2147483648),
  hi := 2147483647, effect := .preop }

/-- R209: `ST_EAST_SEAM_X`. -/
def Obj.ST_EAST_SEAM_X : ObjRow := {
  name := "ST_EAST_SEAM_X", index := 0x5004, kind := .i32, access := .rwp, lo := (-2147483648),
  hi := 2147483647, effect := .preop }

/-- R209: `ST_SEAM_GUARD`. -/
def Obj.ST_SEAM_GUARD : ObjRow := {
  name := "ST_SEAM_GUARD", index := 0x5005, kind := .u8, access := .rwp, dflt := 16, lo := 8, hi := 64,
  effect := .preop }

/-- R209: `ST_MATCH_NS`. -/
def Obj.ST_MATCH_NS : ObjRow := {
  name := "ST_MATCH_NS", index := 0x5006, kind := .u32, access := .rwp, dflt := 10000, lo := 0, hi := 1000000,
  effect := .preop }

/-- R209: `ST_WAIT_MAX_US`. -/
def Obj.ST_WAIT_MAX_US : ObjRow := {
  name := "ST_WAIT_MAX_US", index := 0x5007, kind := .u16, access := .rwp, dflt := 300, lo := 50, hi := 5000,
  effect := .preop }

/-- R209: `ST_PARTIAL_POLICY`. -/
def Obj.ST_PARTIAL_POLICY : ObjRow := {
  name := "ST_PARTIAL_POLICY", index := 0x5008, kind := .u8, access := .rwe, lo := 0, hi := 3,
  effect := .epoch }

/-- R209: `ST_STATUS`. -/
def Obj.ST_STATUS : ObjRow := {
  name := "ST_STATUS", index := 0x5009, kind := .u16, lo := 0, hi := 65535 }

/-- R209: `ST_MAP`. -/
def Obj.ST_MAP : ObjRow := {
  name := "ST_MAP", index := 0x5010, kind := .blob, access := .rwp, lo := 0, hi := 1092, effect := .preop,
  stride := 0x1, blocks := 12 }

/-- R209: `ST_MAP_CAL_ID`. -/
def Obj.ST_MAP_CAL_ID : ObjRow := {
  name := "ST_MAP_CAL_ID", index := 0x5020, count := 12, kind := .u64, isArray := true, lo := 0,
  hi := 18446744073709551615 }

/-- R209: `ST_SEAM_COL_W`. -/
def Obj.ST_SEAM_COL_W : ObjRow := {
  name := "ST_SEAM_COL_W", index := 0x5021, count := 12, kind := .u16, isArray := true, dflt := 65535,
  lo := 0, hi := 65535 }

/-- R209: `ST_SEAM_COL_E`. -/
def Obj.ST_SEAM_COL_E : ObjRow := {
  name := "ST_SEAM_COL_E", index := 0x5022, count := 12, kind := .u16, isArray := true, dflt := 65535,
  lo := 0, hi := 65535 }

/-- R209: `ST_PROBE_PORT`. -/
def Obj.ST_PROBE_PORT : ObjRow := {
  name := "ST_PROBE_PORT", index := 0x5023, kind := .u8, access := .rw, lo := 0, hi := 11, effect := .now }

/-- R209: `ST_PROBE_POS`. -/
def Obj.ST_PROBE_POS : ObjRow := {
  name := "ST_PROBE_POS", index := 0x5024, kind := .u32, access := .rw, lo := 0, hi := 4294967295,
  effect := .now }

/-- R209: `ST_PROBE_X`. -/
def Obj.ST_PROBE_X : ObjRow := {
  name := "ST_PROBE_X", index := 0x5025, kind := .i32, lo := (-2147483648), hi := 2147483647 }

/-- R209: `ST_CAL_TARGET`. -/
def Obj.ST_CAL_TARGET : ObjRow := {
  name := "ST_CAL_TARGET", index := 0x5030, kind := .blob, access := .rw, lo := 28, hi := 4116, effect := .now
  }

/-- R209: `ST_CAL_LINES`. -/
def Obj.ST_CAL_LINES : ObjRow := {
  name := "ST_CAL_LINES", index := 0x5031, kind := .u16, access := .rw, dflt := 4096, lo := 256, hi := 65535,
  effect := .now }

/-- R209: `ST_CAL_CMD`. -/
def Obj.ST_CAL_CMD : ObjRow := {
  name := "ST_CAL_CMD", index := 0x5032, kind := .u8, access := .wo, lo := 1, hi := 2, effect := .now }

/-- R209: `ST_CAL_STATE`. -/
def Obj.ST_CAL_STATE : ObjRow := {
  name := "ST_CAL_STATE", index := 0x5033, kind := .u8, lo := 0, hi := 3 }

/-- R209: `ST_CAL_RMS`. -/
def Obj.ST_CAL_RMS : ObjRow := {
  name := "ST_CAL_RMS", index := 0x5034, count := 12, kind := .u32, isArray := true, lo := 0, hi := 4294967295
  }

/-- R209: `ST_CAL_RMS_MAX`. -/
def Obj.ST_CAL_RMS_MAX : ObjRow := {
  name := "ST_CAL_RMS_MAX", index := 0x5035, kind := .u16, access := .rw, dflt := 50, lo := 1, hi := 10000,
  effect := .now }

/-- R209: `ST_CAL_EDGES`. -/
def Obj.ST_CAL_EDGES : ObjRow := {
  name := "ST_CAL_EDGES", index := 0x5036, count := 12, kind := .u16, isArray := true, lo := 0, hi := 65535 }

/-- R209: `ST_MERGED`. -/
def Obj.ST_MERGED : ObjRow := {
  name := "ST_MERGED", index := 0x5040, kind := .u64, access := .rw, lo := 0, hi := 18446744073709551615,
  effect := .now, counter := true }

/-- R209: `ST_BEYOND_DROPPED`. -/
def Obj.ST_BEYOND_DROPPED : ObjRow := {
  name := "ST_BEYOND_DROPPED", index := 0x5041, kind := .u64, access := .rw, lo := 0,
  hi := 18446744073709551615, effect := .now, counter := true }

/-- R209: `ST_PARTIAL_OBJECTS`. -/
def Obj.ST_PARTIAL_OBJECTS : ObjRow := {
  name := "ST_PARTIAL_OBJECTS", index := 0x5042, kind := .u64, access := .rw, lo := 0,
  hi := 18446744073709551615, effect := .now, counter := true }

/-- R209: `ST_YIELDED`. -/
def Obj.ST_YIELDED : ObjRow := {
  name := "ST_YIELDED", index := 0x5043, kind := .u64, access := .rw, lo := 0, hi := 18446744073709551615,
  effect := .now, counter := true }

/-- R209: `ST_TAKEN_REFUSED`. -/
def Obj.ST_TAKEN_REFUSED : ObjRow := {
  name := "ST_TAKEN_REFUSED", index := 0x5044, kind := .u64, access := .rw, lo := 0,
  hi := 18446744073709551615, effect := .now, counter := true }

/-- R209: `ST_WAIT_TIMEOUTS`. -/
def Obj.ST_WAIT_TIMEOUTS : ObjRow := {
  name := "ST_WAIT_TIMEOUTS", index := 0x5045, kind := .u64, access := .rw, lo := 0,
  hi := 18446744073709551615, effect := .now, counter := true }

/-- R209: `ST_GROUP_LIMIT`. -/
def Obj.ST_GROUP_LIMIT : ObjRow := {
  name := "ST_GROUP_LIMIT", index := 0x5046, kind := .u64, access := .rw, lo := 0, hi := 18446744073709551615,
  effect := .now, counter := true }

/-- R209: `ST_WAIT_MAX_SEEN`. -/
def Obj.ST_WAIT_MAX_SEEN : ObjRow := {
  name := "ST_WAIT_MAX_SEEN", index := 0x5047, kind := .u32, lo := 0, hi := 4294967295 }

/-- R209: `ST_LOAN_ENABLE`. -/
def Obj.ST_LOAN_ENABLE : ObjRow := {
  name := "ST_LOAN_ENABLE", index := 0x5050, kind := .bool, access := .rwp, lo := 0, hi := 1, effect := .preop
  }

/-- R209: `ST_LOAN_STATE`. -/
def Obj.ST_LOAN_STATE : ObjRow := {
  name := "ST_LOAN_STATE", index := 0x5051, kind := .u8, lo := 0, hi := 2 }

/-- R209: `ST_LOAN_PORT`. -/
def Obj.ST_LOAN_PORT : ObjRow := {
  name := "ST_LOAN_PORT", index := 0x5052, kind := .u8, dflt := 255, lo := 0, hi := 255 }

/-- Rows of chapter 07, part 0. -/
def objectsStitch0 : List ObjRow := [Obj.ST_ENABLE, Obj.ST_ORDER, Obj.ST_SEAM_X, Obj.ST_WEST_SEAM_X,
  Obj.ST_EAST_SEAM_X, Obj.ST_SEAM_GUARD, Obj.ST_MATCH_NS, Obj.ST_WAIT_MAX_US, Obj.ST_PARTIAL_POLICY,
  Obj.ST_STATUS, Obj.ST_MAP, Obj.ST_MAP_CAL_ID, Obj.ST_SEAM_COL_W, Obj.ST_SEAM_COL_E, Obj.ST_PROBE_PORT,
  Obj.ST_PROBE_POS, Obj.ST_PROBE_X, Obj.ST_CAL_TARGET, Obj.ST_CAL_LINES, Obj.ST_CAL_CMD, Obj.ST_CAL_STATE,
  Obj.ST_CAL_RMS, Obj.ST_CAL_RMS_MAX, Obj.ST_CAL_EDGES, Obj.ST_MERGED, Obj.ST_BEYOND_DROPPED,
  Obj.ST_PARTIAL_OBJECTS, Obj.ST_YIELDED, Obj.ST_TAKEN_REFUSED, Obj.ST_WAIT_TIMEOUTS]

/-- Rows of chapter 07, part 1. -/
def objectsStitch1 : List ObjRow := [Obj.ST_GROUP_LIMIT, Obj.ST_WAIT_MAX_SEEN, Obj.ST_LOAN_ENABLE,
  Obj.ST_LOAN_STATE, Obj.ST_LOAN_PORT]

/-! Objects of spec chapter 08. -/

/-- R240: `VD_PROGRAM`. -/
def Obj.VD_PROGRAM : ObjRow := {
  name := "VD_PROGRAM", index := 0x5100, kind := .blob, access := .rwe, lo := 64, hi := 12704,
  effect := .epoch, stride := 0x1, blocks := 12, scope := .group }

/-- R240: `VD_STATE`. -/
def Obj.VD_STATE : ObjRow := {
  name := "VD_STATE", index := 0x5110, count := 12, kind := .u8, isArray := true, lo := 0, hi := 3,
  scope := .groupElem }

/-- R240: `VD_LIVE_ID`. -/
def Obj.VD_LIVE_ID : ObjRow := {
  name := "VD_LIVE_ID", index := 0x5111, count := 12, kind := .u64, isArray := true, lo := 0,
  hi := 18446744073709551615, scope := .groupElem }

/-- R240: `VD_REFUSE_CODE`. -/
def Obj.VD_REFUSE_CODE : ObjRow := {
  name := "VD_REFUSE_CODE", index := 0x5112, count := 12, kind := .u8, isArray := true, lo := 0, hi := 7,
  scope := .groupElem }

/-- R240: `VD_OVERFLOW_POLICY`. -/
def Obj.VD_OVERFLOW_POLICY : ObjRow := {
  name := "VD_OVERFLOW_POLICY", index := 0x5113, kind := .u8, access := .rw, lo := 0, hi := 2, effect := .now
  }

/-- R240: `VD_STATUS`. -/
def Obj.VD_STATUS : ObjRow := {
  name := "VD_STATUS", index := 0x5114, kind := .u16, lo := 0, hi := 65535 }

/-- R240: `VD_OUTCOME_COUNT`. -/
def Obj.VD_OUTCOME_COUNT : ObjRow := {
  name := "VD_OUTCOME_COUNT", index := 0x5118, count := 3, kind := .u64, isArray := true, access := .rw,
  lo := 0, hi := 18446744073709551615, effect := .now, counter := true }

/-- R240: `VD_CLAUSE_HITS`. -/
def Obj.VD_CLAUSE_HITS : ObjRow := {
  name := "VD_CLAUSE_HITS", index := 0x5119, count := 65, kind := .u64, isArray := true, access := .rw,
  lo := 0, hi := 18446744073709551615, effect := .now, counter := true }

/-- R240: `VD_NOT_ACCEPTED`. -/
def Obj.VD_NOT_ACCEPTED : ObjRow := {
  name := "VD_NOT_ACCEPTED", index := 0x511a, kind := .u64, access := .rw, lo := 0,
  hi := 18446744073709551615, effect := .now, counter := true }

/-- R240: `VD_OVERFLOW_FIRED`. -/
def Obj.VD_OVERFLOW_FIRED : ObjRow := {
  name := "VD_OVERFLOW_FIRED", index := 0x511b, kind := .u64, access := .rw, lo := 0,
  hi := 18446744073709551615, effect := .now, counter := true }

/-- R240: `VD_ARMED_OBJECTS`. -/
def Obj.VD_ARMED_OBJECTS : ObjRow := {
  name := "VD_ARMED_OBJECTS", index := 0x511c, kind := .u64, access := .rw, lo := 0,
  hi := 18446744073709551615, effect := .now, counter := true }

/-- R240: `VD_LATENCY_MAX_SEEN`. -/
def Obj.VD_LATENCY_MAX_SEEN : ObjRow := {
  name := "VD_LATENCY_MAX_SEEN", index := 0x511d, kind := .u32, lo := 0, hi := 4294967295 }

/-- R240: `VD_LATE_VERDICTS`. -/
def Obj.VD_LATE_VERDICTS : ObjRow := {
  name := "VD_LATE_VERDICTS", index := 0x511e, kind := .u64, access := .rw, lo := 0,
  hi := 18446744073709551615, effect := .now, counter := true }

/-- R240: `CLASS_TABLE`. -/
def Obj.CLASS_TABLE : ObjRow := {
  name := "CLASS_TABLE", index := 0x5120, count := 256, kind := .u32, isArray := true, access := .rwe,
  special := [(0, 256)], lo := 0, hi := 4294967295, effect := .epoch, stride := 0x1, blocks := 12,
  scope := .group }

/-- R240: `CLASS_TABLE_CRC`. -/
def Obj.CLASS_TABLE_CRC : ObjRow := {
  name := "CLASS_TABLE_CRC", index := 0x5130, count := 12, kind := .u32, isArray := true, lo := 0,
  hi := 4294967295, scope := .groupElem }

/-- R240: `EP_ROWS`. -/
def Obj.EP_ROWS : ObjRow := {
  name := "EP_ROWS", index := 0x5200, kind := .u8, access := .rwp, dflt := 1, lo := 1, hi := 2,
  effect := .preop }

/-- R240: `EP_SCAN_SOURCE`. -/
def Obj.EP_SCAN_SOURCE : ObjRow := {
  name := "EP_SCAN_SOURCE", index := 0x5201, count := 12, kind := .u8, isArray := true, access := .rwp,
  lo := 0, hi := 4, effect := .preop, scope := .groupElem }

/-- R240: `EP_SCAN_FALL_UM`. -/
def Obj.EP_SCAN_FALL_UM : ObjRow := {
  name := "EP_SCAN_FALL_UM", index := 0x5202, count := 12, kind := .i32, isArray := true, access := .rwe,
  dflt := 40000, lo := 0, hi := 2000000, effect := .epoch, scope := .groupElem }

/-- R240: `EP_ROW_SOURCE`. -/
def Obj.EP_ROW_SOURCE : ObjRow := {
  name := "EP_ROW_SOURCE", index := 0x5203, count := 24, kind := .u8, isArray := true, access := .rwp,
  lo := 0, hi := 4, effect := .preop, scope := .groupHalf }

/-- R240: `EP_ROW_FALL_UM`. -/
def Obj.EP_ROW_FALL_UM : ObjRow := {
  name := "EP_ROW_FALL_UM", index := 0x5204, count := 24, kind := .i32, isArray := true, access := .rwe,
  dflt := 100000, lo := 0, hi := 3000000, effect := .epoch, scope := .groupHalf }

/-- R240: `EP_SCAN_LIVE_UM`. -/
def Obj.EP_SCAN_LIVE_UM : ObjRow := {
  name := "EP_SCAN_LIVE_UM", index := 0x5205, count := 12, kind := .i32, isArray := true, lo := (-2147483648),
  hi := 2147483647, scope := .groupElem }

/-- R240: `EP_ROW_LIVE_UM`. -/
def Obj.EP_ROW_LIVE_UM : ObjRow := {
  name := "EP_ROW_LIVE_UM", index := 0x5206, count := 24, kind := .i32, isArray := true, lo := (-2147483648),
  hi := 2147483647, scope := .groupHalf }

/-- R240: `EP_ROW_COUNTS`. -/
def Obj.EP_ROW_COUNTS : ObjRow := {
  name := "EP_ROW_COUNTS", index := 0x5207, count := 24, kind := .i64, isArray := true, access := .rwe,
  lo := (-140737488355327), hi := 140737488355327, effect := .epoch, scope := .groupHalf }

/-- R240: `EP_LAUNCH_QE`. -/
def Obj.EP_LAUNCH_QE : ObjRow := {
  name := "EP_LAUNCH_QE", index := 0x5208, count := 12, kind := .u8, isArray := true, access := .rwp, lo := 0,
  hi := 4, effect := .preop, scope := .groupElem }

/-- R240: `EP_LAUNCH_NM_PER_COUNT`. -/
def Obj.EP_LAUNCH_NM_PER_COUNT : ObjRow := {
  name := "EP_LAUNCH_NM_PER_COUNT", index := 0x5209, count := 12, kind := .u32, isArray := true,
  access := .rwp, dflt := 1000, lo := 1, hi := 1000000, effect := .preop, scope := .groupElem }

/-- R240: `EP_LAUNCH_ACCEL`. -/
def Obj.EP_LAUNCH_ACCEL : ObjRow := {
  name := "EP_LAUNCH_ACCEL", index := 0x520a, count := 12, kind := .u16, isArray := true, access := .rwe,
  dflt := 9807, lo := 1000, hi := 20000, effect := .epoch, scope := .groupElem }

/-- R240: `EP_SP_MAX_AGE_MS`. -/
def Obj.EP_SP_MAX_AGE_MS : ObjRow := {
  name := "EP_SP_MAX_AGE_MS", index := 0x520b, count := 12, kind := .u16, isArray := true, access := .rwe,
  dflt := 10, lo := 1, hi := 1000, effect := .epoch, scope := .groupElem }

/-- R240: `EP_ACCEL`. -/
def Obj.EP_ACCEL : ObjRow := {
  name := "EP_ACCEL", index := 0x5210, count := 256, kind := .u16, isArray := true, access := .rwe,
  dflt := 9807, lo := 1000, hi := 20000, effect := .epoch, stride := 0x1, blocks := 12, scope := .group }

/-- R240: `EP_STATUS`. -/
def Obj.EP_STATUS : ObjRow := {
  name := "EP_STATUS", index := 0x5220, kind := .u16, lo := 0, hi := 65535 }

/-- R240: `EP_HELD_COUNT`. -/
def Obj.EP_HELD_COUNT : ObjRow := {
  name := "EP_HELD_COUNT", index := 0x5221, kind := .u64, access := .rw, lo := 0, hi := 18446744073709551615,
  effect := .now, counter := true }

/-- R240: `EP_REFUSED_COUNT`. -/
def Obj.EP_REFUSED_COUNT : ObjRow := {
  name := "EP_REFUSED_COUNT", index := 0x5222, kind := .u64, access := .rw, lo := 0,
  hi := 18446744073709551615, effect := .now, counter := true }

/-- R240: `EP_RING_MISSES`. -/
def Obj.EP_RING_MISSES : ObjRow := {
  name := "EP_RING_MISSES", index := 0x5223, kind := .u64, access := .rw, lo := 0, hi := 18446744073709551615,
  effect := .now, counter := true }

/-- R240: `EP_LAST_RESULT`. -/
def Obj.EP_LAST_RESULT : ObjRow := {
  name := "EP_LAST_RESULT", index := 0x5224, count := 6, kind := .record, lo := 0, hi := 18446744073709551615
  }

/-- Rows of chapter 08, part 0. -/
def objectsVerdict0 : List ObjRow := [Obj.VD_PROGRAM, Obj.VD_STATE, Obj.VD_LIVE_ID, Obj.VD_REFUSE_CODE,
  Obj.VD_OVERFLOW_POLICY, Obj.VD_STATUS, Obj.VD_OUTCOME_COUNT, Obj.VD_CLAUSE_HITS, Obj.VD_NOT_ACCEPTED,
  Obj.VD_OVERFLOW_FIRED, Obj.VD_ARMED_OBJECTS, Obj.VD_LATENCY_MAX_SEEN, Obj.VD_LATE_VERDICTS, Obj.CLASS_TABLE,
  Obj.CLASS_TABLE_CRC, Obj.EP_ROWS, Obj.EP_SCAN_SOURCE, Obj.EP_SCAN_FALL_UM, Obj.EP_ROW_SOURCE,
  Obj.EP_ROW_FALL_UM, Obj.EP_SCAN_LIVE_UM, Obj.EP_ROW_LIVE_UM, Obj.EP_ROW_COUNTS, Obj.EP_LAUNCH_QE,
  Obj.EP_LAUNCH_NM_PER_COUNT, Obj.EP_LAUNCH_ACCEL, Obj.EP_SP_MAX_AGE_MS, Obj.EP_ACCEL, Obj.EP_STATUS,
  Obj.EP_HELD_COUNT]

/-- Rows of chapter 08, part 1. -/
def objectsVerdict1 : List ObjRow := [Obj.EP_REFUSED_COUNT, Obj.EP_RING_MISSES, Obj.EP_LAST_RESULT]

/-! Objects of spec chapter 09. -/

/-- R289: `EJ_STATUS`. -/
def Obj.EJ_STATUS : ObjRow := {
  name := "EJ_STATUS", index := 0x6000, kind := .u16, dflt := 4, lo := 0, hi := 65535 }

/-- R289: `EJ_QUEUE_USED`. -/
def Obj.EJ_QUEUE_USED : ObjRow := {
  name := "EJ_QUEUE_USED", index := 0x6001, kind := .u16, lo := 0, hi := 8192 }

/-- R289: `EJ_QUEUE_MAX_SEEN`. -/
def Obj.EJ_QUEUE_MAX_SEEN : ObjRow := {
  name := "EJ_QUEUE_MAX_SEEN", index := 0x6002, kind := .u16, lo := 0, hi := 65535 }

/-- R289: `EJ_LINK_ENABLE`. -/
def Obj.EJ_LINK_ENABLE : ObjRow := {
  name := "EJ_LINK_ENABLE", index := 0x6003, kind := .u32, access := .rwp, lo := 0, hi := 4294967295,
  effect := .preop }

/-- R289: `EJ_LINK_LEAD_NS`. -/
def Obj.EJ_LINK_LEAD_NS : ObjRow := {
  name := "EJ_LINK_LEAD_NS", index := 0x6004, kind := .u32, access := .rw, dflt := 20000, lo := 10000,
  hi := 1310700, mult := 20, effect := .now }

/-- R289: `EJ_ILK_STATE`. -/
def Obj.EJ_ILK_STATE : ObjRow := {
  name := "EJ_ILK_STATE", index := 0x6005, kind := .u8, dflt := 7, lo := 0, hi := 255 }

/-- R289: `EJ_ILK_PRESS_SOURCE`. -/
def Obj.EJ_ILK_PRESS_SOURCE : ObjRow := {
  name := "EJ_ILK_PRESS_SOURCE", index := 0x6006, kind := .u8, access := .rwp, dflt := 255, lo := 0,
  hi := 255, allowed := [0, 1, 2, 3, 4, 5, 6, 7, 255], effect := .preop }

/-- R289: `EJ_ILK_CLOSE_MS`. -/
def Obj.EJ_ILK_CLOSE_MS : ObjRow := {
  name := "EJ_ILK_CLOSE_MS", index := 0x6007, kind := .u16, access := .rw, dflt := 100, lo := 10, hi := 10000,
  effect := .now }

/-- R289: `EJ_AUTO_RESUME`. -/
def Obj.EJ_AUTO_RESUME : ObjRow := {
  name := "EJ_AUTO_RESUME", index := 0x6008, kind := .bool, access := .rw, lo := 0, hi := 1, effect := .now }

/-- R289: `EJ_ILK_OPEN_COUNT`. -/
def Obj.EJ_ILK_OPEN_COUNT : ObjRow := {
  name := "EJ_ILK_OPEN_COUNT", index := 0x6009, count := 4, kind := .u64, isArray := true, access := .rw,
  lo := 0, hi := 18446744073709551615, effect := .now, counter := true }

/-- R289: `EJ_MARGIN_X_UM`. -/
def Obj.EJ_MARGIN_X_UM : ObjRow := {
  name := "EJ_MARGIN_X_UM", index := 0x6010, count := 2, kind := .u16, isArray := true, access := .rw,
  dflt := 1000, lo := 0, hi := 20000, effect := .now }

/-- R289: `EJ_MARGIN_LEAD_NS`. -/
def Obj.EJ_MARGIN_LEAD_NS : ObjRow := {
  name := "EJ_MARGIN_LEAD_NS", index := 0x6011, count := 2, kind := .u32, isArray := true, access := .rw,
  lo := 0, hi := 5000000, effect := .now }

/-- R289: `EJ_MARGIN_TRAIL_NS`. -/
def Obj.EJ_MARGIN_TRAIL_NS : ObjRow := {
  name := "EJ_MARGIN_TRAIL_NS", index := 0x6012, count := 2, kind := .u32, isArray := true, access := .rw,
  lo := 0, hi := 5000000, effect := .now }

/-- R289: `EJ_MARGIN_LEAD_COUNTS`. -/
def Obj.EJ_MARGIN_LEAD_COUNTS : ObjRow := {
  name := "EJ_MARGIN_LEAD_COUNTS", index := 0x6013, count := 2, kind := .u32, isArray := true, access := .rw,
  lo := 0, hi := 4294967295, effect := .now }

/-- R289: `EJ_MARGIN_TRAIL_COUNTS`. -/
def Obj.EJ_MARGIN_TRAIL_COUNTS : ObjRow := {
  name := "EJ_MARGIN_TRAIL_COUNTS", index := 0x6014, count := 2, kind := .u32, isArray := true, access := .rw,
  lo := 0, hi := 4294967295, effect := .now }

/-- R289: `EJ_GRACE_UM`. -/
def Obj.EJ_GRACE_UM : ObjRow := {
  name := "EJ_GRACE_UM", index := 0x6015, count := 2, kind := .u16, isArray := true, access := .rw, lo := 0,
  hi := 10000, effect := .now }

/-- R289: `EJ_SUBST_EXTEND_NS`. -/
def Obj.EJ_SUBST_EXTEND_NS : ObjRow := {
  name := "EJ_SUBST_EXTEND_NS", index := 0x6016, count := 2, kind := .u32, isArray := true, access := .rw,
  dflt := 200000, lo := 0, hi := 5000000, effect := .now }

/-- R289: `EJ_PULSE_MIN_NS`. -/
def Obj.EJ_PULSE_MIN_NS : ObjRow := {
  name := "EJ_PULSE_MIN_NS", index := 0x6017, kind := .u32, access := .rw, dflt := 100000, lo := 100000,
  hi := 20000000, effect := .now }

/-- R289: `EJ_PULSE_MAX_NS`. -/
def Obj.EJ_PULSE_MAX_NS : ObjRow := {
  name := "EJ_PULSE_MAX_NS", index := 0x6018, kind := .u32, access := .rw, dflt := 20000000, lo := 0,
  hi := 20000000, effect := .now }

/-- R289: `EJ_MIN_GAP_NS`. -/
def Obj.EJ_MIN_GAP_NS : ObjRow := {
  name := "EJ_MIN_GAP_NS", index := 0x6019, kind := .u32, access := .rw, dflt := 300000, lo := 5000,
  hi := 5000000, effect := .now }

/-- R289: `EJ_TEMP_LIMIT`. -/
def Obj.EJ_TEMP_LIMIT : ObjRow := {
  name := "EJ_TEMP_LIMIT", index := 0x601a, kind := .u8, access := .rw, dflt := 120, lo := 40, hi := 200,
  effect := .now }

/-- R289: `EJ_TEMP_HYST`. -/
def Obj.EJ_TEMP_HYST : ObjRow := {
  name := "EJ_TEMP_HYST", index := 0x601b, kind := .u8, access := .rw, dflt := 10, lo := 1, hi := 50,
  effect := .now }

/-- R289: `EJ_PC_GAP_NS`. -/
def Obj.EJ_PC_GAP_NS : ObjRow := {
  name := "EJ_PC_GAP_NS", index := 0x601c, kind := .u32, access := .rw, dflt := 100000, lo := 20000,
  hi := 1000000, effect := .now }

/-- R289: `EJ_PC_IDLE_NS`. -/
def Obj.EJ_PC_IDLE_NS : ObjRow := {
  name := "EJ_PC_IDLE_NS", index := 0x601d, kind := .u32, access := .rw, dflt := 50000000, lo := 1000000,
  hi := 1000000000, effect := .now }

/-- R289: `EJ_PC_PERIOD_MS`. -/
def Obj.EJ_PC_PERIOD_MS : ObjRow := {
  name := "EJ_PC_PERIOD_MS", index := 0x601e, kind := .u16, access := .rw, dflt := 500, lo := 10, hi := 60000,
  effect := .now }

/-- R289: `EJ_ECHO_TIMEOUT_NS`. -/
def Obj.EJ_ECHO_TIMEOUT_NS : ObjRow := {
  name := "EJ_ECHO_TIMEOUT_NS", index := 0x601f, kind := .u32, access := .rw, dflt := 20000, lo := 2000,
  hi := 1000000, effect := .now }

/-- R289: `EJ_SURFACE_MAX_WAIT_MS`. -/
def Obj.EJ_SURFACE_MAX_WAIT_MS : ObjRow := {
  name := "EJ_SURFACE_MAX_WAIT_MS", index := 0x6020, kind := .u32, access := .rw, dflt := 10000, lo := 100,
  hi := 3600000, effect := .now }

/-- R289: `EJ_SEAM_REACH_UM`. -/
def Obj.EJ_SEAM_REACH_UM : ObjRow := {
  name := "EJ_SEAM_REACH_UM", index := 0x6021, kind := .u32, access := .rwp, dflt := 10000, lo := 0,
  hi := 200000, effect := .preop }

/-- R289: `EJ_REMOTE_WAIT_NS`. -/
def Obj.EJ_REMOTE_WAIT_NS : ObjRow := {
  name := "EJ_REMOTE_WAIT_NS", index := 0x6022, kind := .u32, access := .rw, dflt := 1000000, lo := 100000,
  hi := 100000000, effect := .now }

/-- R289: `EJ_OUTCOME_COUNT`. -/
def Obj.EJ_OUTCOME_COUNT : ObjRow := {
  name := "EJ_OUTCOME_COUNT", index := 0x6030, count := 9, kind := .u64, isArray := true, access := .rw,
  lo := 0, hi := 18446744073709551615, effect := .now, counter := true }

/-- R289: `EJ_SUBSTITUTIONS`. -/
def Obj.EJ_SUBSTITUTIONS : ObjRow := {
  name := "EJ_SUBSTITUTIONS", index := 0x6031, kind := .u64, access := .rw, lo := 0,
  hi := 18446744073709551615, effect := .now, counter := true }

/-- R289: `EJ_THERMAL_REDIRECTS`. -/
def Obj.EJ_THERMAL_REDIRECTS : ObjRow := {
  name := "EJ_THERMAL_REDIRECTS", index := 0x6032, kind := .u64, access := .rw, lo := 0,
  hi := 18446744073709551615, effect := .now, counter := true }

/-- R289: `EJ_MERGED_PULSES`. -/
def Obj.EJ_MERGED_PULSES : ObjRow := {
  name := "EJ_MERGED_PULSES", index := 0x6033, kind := .u64, access := .rw, lo := 0,
  hi := 18446744073709551615, effect := .now, counter := true }

/-- R289: `EJ_PULSE_STORE_FULL`. -/
def Obj.EJ_PULSE_STORE_FULL : ObjRow := {
  name := "EJ_PULSE_STORE_FULL", index := 0x6034, kind := .u64, access := .rw, lo := 0,
  hi := 18446744073709551615, effect := .now, counter := true }

/-- R289: `EJ_PC_CLAMPED`. -/
def Obj.EJ_PC_CLAMPED : ObjRow := {
  name := "EJ_PC_CLAMPED", index := 0x6035, kind := .u64, access := .rw, lo := 0, hi := 18446744073709551615,
  effect := .now, counter := true }

/-- R289: `EJ_AUX_REFUSED`. -/
def Obj.EJ_AUX_REFUSED : ObjRow := {
  name := "EJ_AUX_REFUSED", index := 0x6036, kind := .u64, access := .rw, lo := 0, hi := 18446744073709551615,
  effect := .now, counter := true }

/-- R289: `EJ_REMOTE_SENT`. -/
def Obj.EJ_REMOTE_SENT : ObjRow := {
  name := "EJ_REMOTE_SENT", index := 0x6037, kind := .u64, access := .rw, lo := 0, hi := 18446744073709551615,
  effect := .now, counter := true }

/-- R289: `EJ_REMOTE_RECEIVED`. -/
def Obj.EJ_REMOTE_RECEIVED : ObjRow := {
  name := "EJ_REMOTE_RECEIVED", index := 0x6038, kind := .u64, access := .rw, lo := 0,
  hi := 18446744073709551615, effect := .now, counter := true }

/-- R289: `EJ_REMOTE_UNKNOWN`. -/
def Obj.EJ_REMOTE_UNKNOWN : ObjRow := {
  name := "EJ_REMOTE_UNKNOWN", index := 0x6039, kind := .u64, access := .rw, lo := 0,
  hi := 18446744073709551615, effect := .now, counter := true }

/-- R289: `EJ_LINK_STATUS`. -/
def Obj.EJ_LINK_STATUS : ObjRow := {
  name := "EJ_LINK_STATUS", index := 0x6100, count := 32, kind := .u16, isArray := true, lo := 0, hi := 65535
  }

/-- R289: `EJ_LINK_DELAY_NS`. -/
def Obj.EJ_LINK_DELAY_NS : ObjRow := {
  name := "EJ_LINK_DELAY_NS", index := 0x6101, count := 32, kind := .u16, isArray := true, lo := 0,
  hi := 65535 }

/-- R289: `EJ_LINK_BOARD_WORD`. -/
def Obj.EJ_LINK_BOARD_WORD : ObjRow := {
  name := "EJ_LINK_BOARD_WORD", index := 0x6102, count := 32, kind := .u32, isArray := true, lo := 0,
  hi := 4294967295 }

/-- R289: `EJ_LINK_CRC_ERRORS`. -/
def Obj.EJ_LINK_CRC_ERRORS : ObjRow := {
  name := "EJ_LINK_CRC_ERRORS", index := 0x6120, count := 32, kind := .u64, isArray := true, access := .rw,
  lo := 0, hi := 18446744073709551615, effect := .now, counter := true }

/-- R289: `EJ_LINK_BAD_FRAMES`. -/
def Obj.EJ_LINK_BAD_FRAMES : ObjRow := {
  name := "EJ_LINK_BAD_FRAMES", index := 0x6121, count := 32, kind := .u64, isArray := true, access := .rw,
  lo := 0, hi := 18446744073709551615, effect := .now, counter := true }

/-- R289: `EJ_ECHO_MISSING`. -/
def Obj.EJ_ECHO_MISSING : ObjRow := {
  name := "EJ_ECHO_MISSING", index := 0x6122, count := 32, kind := .u64, isArray := true, access := .rw,
  lo := 0, hi := 18446744073709551615, effect := .now, counter := true }

/-- R289: `EJ_LINK_DOWN_COUNT`. -/
def Obj.EJ_LINK_DOWN_COUNT : ObjRow := {
  name := "EJ_LINK_DOWN_COUNT", index := 0x6123, count := 32, kind := .u64, isArray := true, access := .rw,
  lo := 0, hi := 18446744073709551615, effect := .now, counter := true }

/-- R290: `EJ_VALVE_STATE`. -/
def Obj.EJ_VALVE_STATE : ObjRow := {
  name := "EJ_VALVE_STATE", index := 0x6200, count := 2048, kind := .u8, isArray := true, access := .rw,
  lo := 0, hi := 3, effect := .now }

/-- R290: `EJ_VALVE_ROW`. -/
def Obj.EJ_VALVE_ROW : ObjRow := {
  name := "EJ_VALVE_ROW", index := 0x6208, count := 2048, kind := .u8, isArray := true, access := .rwp,
  dflt := 1, lo := 1, hi := 2, effect := .preop }

/-- R290: `EJ_VALVE_WEST_UM`. -/
def Obj.EJ_VALVE_WEST_UM : ObjRow := {
  name := "EJ_VALVE_WEST_UM", index := 0x6210, count := 2048, kind := .i32, isArray := true, access := .rwp,
  lo := (-2147483648), hi := 2147483647, effect := .preop }

/-- R290: `EJ_VALVE_EAST_UM`. -/
def Obj.EJ_VALVE_EAST_UM : ObjRow := {
  name := "EJ_VALVE_EAST_UM", index := 0x6218, count := 2048, kind := .i32, isArray := true, access := .rwp,
  lo := (-2147483648), hi := 2147483647, effect := .preop }

/-- R290: `EJ_VALVE_OPEN_LAT_NS`. -/
def Obj.EJ_VALVE_OPEN_LAT_NS : ObjRow := {
  name := "EJ_VALVE_OPEN_LAT_NS", index := 0x6220, count := 2048, kind := .u32, isArray := true,
  access := .rw, dflt := 1000000, lo := 0, hi := 6553500, effect := .now }

/-- R290: `EJ_VALVE_CLOSE_LAT_NS`. -/
def Obj.EJ_VALVE_CLOSE_LAT_NS : ObjRow := {
  name := "EJ_VALVE_CLOSE_LAT_NS", index := 0x6228, count := 2048, kind := .u32, isArray := true,
  access := .rw, dflt := 1000000, lo := 0, hi := 6553500, effect := .now }

/-- R290: `EJ_VALVE_OPEN_THRESH_NS`. -/
def Obj.EJ_VALVE_OPEN_THRESH_NS : ObjRow := {
  name := "EJ_VALVE_OPEN_THRESH_NS", index := 0x6230, count := 2048, kind := .u32, isArray := true,
  access := .rw, lo := 0, hi := 1000000, effect := .now }

/-- R290: `EJ_VALVE_PC_MODE`. -/
def Obj.EJ_VALVE_PC_MODE : ObjRow := {
  name := "EJ_VALVE_PC_MODE", index := 0x6238, count := 2048, kind := .u8, isArray := true, access := .rw,
  lo := 0, hi := 2, effect := .now }

/-- R290: `EJ_VALVE_PC_WIDTH_NS`. -/
def Obj.EJ_VALVE_PC_WIDTH_NS : ObjRow := {
  name := "EJ_VALVE_PC_WIDTH_NS", index := 0x6240, count := 2048, kind := .u32, isArray := true,
  access := .rw, dflt := 20000, lo := 5000, hi := 80000, mult := 20, effect := .now }

/-- R290: `EJ_VALVE_STATUS`. -/
def Obj.EJ_VALVE_STATUS : ObjRow := {
  name := "EJ_VALVE_STATUS", index := 0x6248, count := 2048, kind := .u16, isArray := true, lo := 0,
  hi := 65535 }

/-- R290: `EJ_VALVE_TEMP`. -/
def Obj.EJ_VALVE_TEMP : ObjRow := {
  name := "EJ_VALVE_TEMP", index := 0x6250, count := 2048, kind := .i16, isArray := true, lo := (-40),
  hi := 215 }

/-- R290: `EJ_VALVE_PULSES`. -/
def Obj.EJ_VALVE_PULSES : ObjRow := {
  name := "EJ_VALVE_PULSES", index := 0x6258, count := 2048, kind := .u64, isArray := true, lo := 0,
  hi := 18446744073709551615, counter := true }

/-- R290: `EJ_VALVE_LAT_MEASURED`. -/
def Obj.EJ_VALVE_LAT_MEASURED : ObjRow := {
  name := "EJ_VALVE_LAT_MEASURED", index := 0x6260, count := 2048, kind := .u16, isArray := true, lo := 0,
  hi := 65535 }

/-- Rows of chapter 09, part 0. -/
def objectsEjector0 : List ObjRow := [Obj.EJ_STATUS, Obj.EJ_QUEUE_USED, Obj.EJ_QUEUE_MAX_SEEN,
  Obj.EJ_LINK_ENABLE, Obj.EJ_LINK_LEAD_NS, Obj.EJ_ILK_STATE, Obj.EJ_ILK_PRESS_SOURCE, Obj.EJ_ILK_CLOSE_MS,
  Obj.EJ_AUTO_RESUME, Obj.EJ_ILK_OPEN_COUNT, Obj.EJ_MARGIN_X_UM, Obj.EJ_MARGIN_LEAD_NS,
  Obj.EJ_MARGIN_TRAIL_NS, Obj.EJ_MARGIN_LEAD_COUNTS, Obj.EJ_MARGIN_TRAIL_COUNTS, Obj.EJ_GRACE_UM,
  Obj.EJ_SUBST_EXTEND_NS, Obj.EJ_PULSE_MIN_NS, Obj.EJ_PULSE_MAX_NS, Obj.EJ_MIN_GAP_NS, Obj.EJ_TEMP_LIMIT,
  Obj.EJ_TEMP_HYST, Obj.EJ_PC_GAP_NS, Obj.EJ_PC_IDLE_NS, Obj.EJ_PC_PERIOD_MS, Obj.EJ_ECHO_TIMEOUT_NS,
  Obj.EJ_SURFACE_MAX_WAIT_MS, Obj.EJ_SEAM_REACH_UM, Obj.EJ_REMOTE_WAIT_NS, Obj.EJ_OUTCOME_COUNT]

/-- Rows of chapter 09, part 1. -/
def objectsEjector1 : List ObjRow := [Obj.EJ_SUBSTITUTIONS, Obj.EJ_THERMAL_REDIRECTS, Obj.EJ_MERGED_PULSES,
  Obj.EJ_PULSE_STORE_FULL, Obj.EJ_PC_CLAMPED, Obj.EJ_AUX_REFUSED, Obj.EJ_REMOTE_SENT, Obj.EJ_REMOTE_RECEIVED,
  Obj.EJ_REMOTE_UNKNOWN, Obj.EJ_LINK_STATUS, Obj.EJ_LINK_DELAY_NS, Obj.EJ_LINK_BOARD_WORD,
  Obj.EJ_LINK_CRC_ERRORS, Obj.EJ_LINK_BAD_FRAMES, Obj.EJ_ECHO_MISSING, Obj.EJ_LINK_DOWN_COUNT,
  Obj.EJ_VALVE_STATE, Obj.EJ_VALVE_ROW, Obj.EJ_VALVE_WEST_UM, Obj.EJ_VALVE_EAST_UM, Obj.EJ_VALVE_OPEN_LAT_NS,
  Obj.EJ_VALVE_CLOSE_LAT_NS, Obj.EJ_VALVE_OPEN_THRESH_NS, Obj.EJ_VALVE_PC_MODE, Obj.EJ_VALVE_PC_WIDTH_NS,
  Obj.EJ_VALVE_STATUS, Obj.EJ_VALVE_TEMP, Obj.EJ_VALVE_PULSES, Obj.EJ_VALVE_LAT_MEASURED]

/-! Objects of spec chapter 10. -/

/-- R326: `REC_RING_BASE`. -/
def Obj.REC_RING_BASE : ObjRow := {
  name := "REC_RING_BASE", index := 0x7000, kind := .u64, access := .rwp, lo := 0, hi := 18446744073709551615,
  mult := 4096, effect := .preop, owner := .host }

/-- R326: `REC_RING_LOG2`. -/
def Obj.REC_RING_LOG2 : ObjRow := {
  name := "REC_RING_LOG2", index := 0x7001, kind := .u8, access := .rwp, dflt := 16, lo := 11, hi := 24,
  effect := .preop, owner := .host }

/-- R326: `REC_HEAD_SEQ`. -/
def Obj.REC_HEAD_SEQ : ObjRow := {
  name := "REC_HEAD_SEQ", index := 0x7002, kind := .u64, lo := 0, hi := 18446744073709551615, owner := .host }

/-- R326: `REC_ACK_SEQ`. -/
def Obj.REC_ACK_SEQ : ObjRow := {
  name := "REC_ACK_SEQ", index := 0x7003, kind := .u64, access := .rw, lo := 0, hi := 18446744073709551615,
  effect := .now, owner := .host }

/-- R326: `REC_HEAD_ADDR`. -/
def Obj.REC_HEAD_ADDR : ObjRow := {
  name := "REC_HEAD_ADDR", index := 0x7004, kind := .u64, access := .rwp, lo := 0, hi := 18446744073709551615,
  mult := 8, effect := .preop, owner := .host }

/-- R326: `REC_IRQ_COUNT`. -/
def Obj.REC_IRQ_COUNT : ObjRow := {
  name := "REC_IRQ_COUNT", index := 0x7005, kind := .u16, access := .rw, dflt := 64, lo := 1, hi := 65535,
  effect := .now, owner := .host }

/-- R326: `REC_IRQ_NS`. -/
def Obj.REC_IRQ_NS : ObjRow := {
  name := "REC_IRQ_NS", index := 0x7006, kind := .u32, access := .rw, dflt := 20000, lo := 1000,
  hi := 10000000, effect := .now, owner := .host }

/-- R326: `EXT_ENABLE`. -/
def Obj.EXT_ENABLE : ObjRow := {
  name := "EXT_ENABLE", index := 0x7007, kind := .bool, access := .rwp, lo := 0, hi := 1, effect := .preop,
  owner := .host }

/-- R326: `EXT_RING_BASE`. -/
def Obj.EXT_RING_BASE : ObjRow := {
  name := "EXT_RING_BASE", index := 0x7008, kind := .u64, access := .rwp, lo := 0, hi := 18446744073709551615,
  mult := 4096, effect := .preop, owner := .host }

/-- R326: `OUT_RING_BASE`. -/
def Obj.OUT_RING_BASE : ObjRow := {
  name := "OUT_RING_BASE", index := 0x7010, kind := .u64, access := .rwp, lo := 0, hi := 18446744073709551615,
  mult := 4096, effect := .preop, owner := .host }

/-- R326: `OUT_RING_LOG2`. -/
def Obj.OUT_RING_LOG2 : ObjRow := {
  name := "OUT_RING_LOG2", index := 0x7011, kind := .u8, access := .rwp, dflt := 14, lo := 13, hi := 24,
  effect := .preop, owner := .host }

/-- R326: `OUT_LOW_ORDER`. -/
def Obj.OUT_LOW_ORDER : ObjRow := {
  name := "OUT_LOW_ORDER", index := 0x7012, kind := .u64, dflt := 1, lo := 0, hi := 18446744073709551615,
  owner := .host }

/-- R326: `OUT_ACK_ORDER`. -/
def Obj.OUT_ACK_ORDER : ObjRow := {
  name := "OUT_ACK_ORDER", index := 0x7013, kind := .u64, access := .rw, lo := 0, hi := 18446744073709551615,
  effect := .now, owner := .host }

/-- R326: `OUT_HEAD_ADDR`. -/
def Obj.OUT_HEAD_ADDR : ObjRow := {
  name := "OUT_HEAD_ADDR", index := 0x7014, kind := .u64, access := .rwp, lo := 0, hi := 18446744073709551615,
  mult := 8, effect := .preop, owner := .host }

/-- R326: `OUT_IRQ_COUNT`. -/
def Obj.OUT_IRQ_COUNT : ObjRow := {
  name := "OUT_IRQ_COUNT", index := 0x7015, kind := .u16, access := .rw, dflt := 64, lo := 1, hi := 65535,
  effect := .now, owner := .host }

/-- R326: `OUT_IRQ_NS`. -/
def Obj.OUT_IRQ_NS : ObjRow := {
  name := "OUT_IRQ_NS", index := 0x7016, kind := .u32, access := .rw, dflt := 100000, lo := 1000,
  hi := 10000000, effect := .now, owner := .host }

/-- R326: `RING_STATUS`. -/
def Obj.RING_STATUS : ObjRow := {
  name := "RING_STATUS", index := 0x7020, kind := .u16, lo := 0, hi := 65535, owner := .host }

/-- R326: `REC_WRITTEN`. -/
def Obj.REC_WRITTEN : ObjRow := {
  name := "REC_WRITTEN", index := 0x7021, kind := .u64, access := .rw, lo := 0, hi := 18446744073709551615,
  effect := .now, owner := .host, counter := true }

/-- R326: `OUT_WRITTEN`. -/
def Obj.OUT_WRITTEN : ObjRow := {
  name := "OUT_WRITTEN", index := 0x7022, kind := .u64, access := .rw, lo := 0, hi := 18446744073709551615,
  effect := .now, owner := .host, counter := true }

/-- R326: `RING_ACK_REFUSED`. -/
def Obj.RING_ACK_REFUSED : ObjRow := {
  name := "RING_ACK_REFUSED", index := 0x7023, kind := .u64, access := .rw, lo := 0,
  hi := 18446744073709551615, effect := .now, owner := .host, counter := true }

/-- R326: `TH_SLOTS`. -/
def Obj.TH_SLOTS : ObjRow := {
  name := "TH_SLOTS", index := 0x7100, kind := .u32, access := .rwp, dflt := 4096, lo := 256, hi := 65536,
  allowed := [256, 512, 1024, 2048, 4096, 8192, 16384, 32768, 65536], effect := .preop }

/-- R326: `TH_MAX_COLS`. -/
def Obj.TH_MAX_COLS : ObjRow := {
  name := "TH_MAX_COLS", index := 0x7101, kind := .u16, access := .rwp, dflt := 256, lo := 16, hi := 4096,
  effect := .preop }

/-- R326: `TH_MAX_ROWS`. -/
def Obj.TH_MAX_ROWS : ObjRow := {
  name := "TH_MAX_ROWS", index := 0x7102, kind := .u16, access := .rwp, dflt := 256, lo := 16, hi := 4096,
  effect := .preop }

/-- R326: `TH_BASE`. -/
def Obj.TH_BASE : ObjRow := {
  name := "TH_BASE", index := 0x7103, kind := .u64, lo := 0, hi := 18446744073709551615 }

/-- R326: `TH_SLOT_BYTES`. -/
def Obj.TH_SLOT_BYTES : ObjRow := {
  name := "TH_SLOT_BYTES", index := 0x7104, kind := .u32, lo := 0, hi := 4294967295 }

/-- R326: `TH_WRITTEN`. -/
def Obj.TH_WRITTEN : ObjRow := {
  name := "TH_WRITTEN", index := 0x7105, kind := .u64, access := .rw, lo := 0, hi := 18446744073709551615,
  effect := .now, counter := true }

/-- R326: `TH_CLIPPED`. -/
def Obj.TH_CLIPPED : ObjRow := {
  name := "TH_CLIPPED", index := 0x7106, kind := .u64, access := .rw, lo := 0, hi := 18446744073709551615,
  effect := .now, counter := true }

/-- R326: `TH_HISTORY_MISS`. -/
def Obj.TH_HISTORY_MISS : ObjRow := {
  name := "TH_HISTORY_MISS", index := 0x7107, kind := .u64, access := .rw, lo := 0,
  hi := 18446744073709551615, effect := .now, counter := true }

/-- R326: `CZ_BLOCKS`. -/
def Obj.CZ_BLOCKS : ObjRow := {
  name := "CZ_BLOCKS", index := 0x7200, count := 4, kind := .u64, isArray := true, access := .rw, lo := 0,
  hi := 18446744073709551615, effect := .now, counter := true }

/-- R326: `CZ_BYTES_IN`. -/
def Obj.CZ_BYTES_IN : ObjRow := {
  name := "CZ_BYTES_IN", index := 0x7201, count := 4, kind := .u64, isArray := true, access := .rw, lo := 0,
  hi := 18446744073709551615, effect := .now, counter := true }

/-- R326: `CZ_BYTES_OUT`. -/
def Obj.CZ_BYTES_OUT : ObjRow := {
  name := "CZ_BYTES_OUT", index := 0x7202, count := 4, kind := .u64, isArray := true, access := .rw, lo := 0,
  hi := 18446744073709551615, effect := .now, counter := true }

/-- R326: `CZ_NOT_SHRUNK`. -/
def Obj.CZ_NOT_SHRUNK : ObjRow := {
  name := "CZ_NOT_SHRUNK", index := 0x7203, kind := .u64, access := .rw, lo := 0, hi := 18446744073709551615,
  effect := .now, counter := true }

/-- R326: `CZ_STORED`. -/
def Obj.CZ_STORED : ObjRow := {
  name := "CZ_STORED", index := 0x7204, kind := .u64, access := .rw, lo := 0, hi := 18446744073709551615,
  effect := .now, counter := true }

/-- R326: `CZ_VERIFY_FAIL`. -/
def Obj.CZ_VERIFY_FAIL : ObjRow := {
  name := "CZ_VERIFY_FAIL", index := 0x7205, kind := .u64, access := .rw, lo := 0, hi := 18446744073709551615,
  effect := .now, counter := true }

/-- R326: `CZ_ENGINE_BUSY`. -/
def Obj.CZ_ENGINE_BUSY : ObjRow := {
  name := "CZ_ENGINE_BUSY", index := 0x7206, count := 4, kind := .bool, isArray := true, lo := 0, hi := 1 }

/-- R327: `RT_ENABLE`. -/
def Obj.RT_ENABLE : ObjRow := {
  name := "RT_ENABLE", index := 0x40c0, count := 8, kind := .bool, isArray := true, access := .rwe, lo := 0,
  hi := 1, effect := .epoch, stride := 0x100, blocks := 12, scope := .port }

/-- R327: `RT_TAP`. -/
def Obj.RT_TAP : ObjRow := {
  name := "RT_TAP", index := 0x40c1, count := 8, kind := .u8, isArray := true, access := .rwp, dflt := 3,
  lo := 0, hi := 4, effect := .preop, stride := 0x100, blocks := 12, scope := .port }

/-- R327: `RT_PLANES`. -/
def Obj.RT_PLANES : ObjRow := {
  name := "RT_PLANES", index := 0x40c2, count := 8, kind := .u8, isArray := true, access := .rwp, dflt := 11,
  lo := 0, hi := 255, effect := .preop, stride := 0x100, blocks := 12, scope := .port }

/-- R327: `RT_COL_START`. -/
def Obj.RT_COL_START : ObjRow := {
  name := "RT_COL_START", index := 0x40c3, count := 8, kind := .u16, isArray := true, access := .rwp, lo := 0,
  hi := 16383, effect := .preop, stride := 0x100, blocks := 12, scope := .port }

/-- R327: `RT_COL_END`. -/
def Obj.RT_COL_END : ObjRow := {
  name := "RT_COL_END", index := 0x40c4, count := 8, kind := .u16, isArray := true, access := .rwp,
  dflt := 16384, lo := 0, hi := 65535, effect := .preop, stride := 0x100, blocks := 12, scope := .port }

/-- R327: `RT_COL_STEP`. -/
def Obj.RT_COL_STEP : ObjRow := {
  name := "RT_COL_STEP", index := 0x40c5, count := 8, kind := .u8, isArray := true, access := .rwp, dflt := 1,
  lo := 1, hi := 16, effect := .preop, stride := 0x100, blocks := 12, scope := .port }

/-- R327: `RT_LINE_STEP`. -/
def Obj.RT_LINE_STEP : ObjRow := {
  name := "RT_LINE_STEP", index := 0x40c6, count := 8, kind := .u8, isArray := true, access := .rwp,
  dflt := 1, lo := 1, hi := 16, effect := .preop, stride := 0x100, blocks := 12, scope := .port }

/-- R327: `RT_LINE_MODE`. -/
def Obj.RT_LINE_MODE : ObjRow := {
  name := "RT_LINE_MODE", index := 0x40c7, count := 8, kind := .u8, isArray := true, access := .rwp, lo := 0,
  hi := 1, effect := .preop, stride := 0x100, blocks := 12, scope := .port }

/-- R327: `RT_SLOTS`. -/
def Obj.RT_SLOTS : ObjRow := {
  name := "RT_SLOTS", index := 0x40c8, count := 8, kind := .u32, isArray := true, access := .rwp,
  dflt := 1024, lo := 16, hi := 65536,
  allowed := [16, 32, 64, 128, 256, 512, 1024, 2048, 4096, 8192, 16384, 32768, 65536], effect := .preop,
  stride := 0x100, blocks := 12, scope := .port }

/-- R327: `RT_BASE`. -/
def Obj.RT_BASE : ObjRow := {
  name := "RT_BASE", index := 0x40c9, count := 8, kind := .u64, isArray := true, lo := 0,
  hi := 18446744073709551615, stride := 0x100, blocks := 12, scope := .port }

/-- R327: `RT_SLOT_BYTES`. -/
def Obj.RT_SLOT_BYTES : ObjRow := {
  name := "RT_SLOT_BYTES", index := 0x40ca, count := 8, kind := .u32, isArray := true, lo := 0,
  hi := 4294967295, stride := 0x100, blocks := 12, scope := .port }

/-- R327: `RT_LAST_LINE`. -/
def Obj.RT_LAST_LINE : ObjRow := {
  name := "RT_LAST_LINE", index := 0x40cb, count := 8, kind := .u64, isArray := true, lo := 0,
  hi := 18446744073709551615, stride := 0x100, blocks := 12, scope := .port }

/-- R327: `TH_SELECT`. -/
def Obj.TH_SELECT : ObjRow := {
  name := "TH_SELECT", index := 0x40d0, kind := .u8, access := .rwe, lo := 0, hi := 2, effect := .epoch,
  stride := 0x100, blocks := 12, scope := .port }

/-- R327: `TH_TAP`. -/
def Obj.TH_TAP : ObjRow := {
  name := "TH_TAP", index := 0x40d1, kind := .u8, access := .rwp, dflt := 3, lo := 3, hi := 4,
  effect := .preop, stride := 0x100, blocks := 12, scope := .port }

/-- R327: `TH_PLANES`. -/
def Obj.TH_PLANES : ObjRow := {
  name := "TH_PLANES", index := 0x40d2, kind := .u8, access := .rwp, dflt := 11, lo := 0, hi := 255,
  effect := .preop, stride := 0x100, blocks := 12, scope := .port }

/-- R327: `TH_SCALE`. -/
def Obj.TH_SCALE : ObjRow := {
  name := "TH_SCALE", index := 0x40d3, kind := .u8, access := .rwp, dflt := 2, lo := 1, hi := 4,
  allowed := [1, 2, 4], effect := .preop, stride := 0x100, blocks := 12, scope := .port }

/-- R327: `TH_MARGIN`. -/
def Obj.TH_MARGIN : ObjRow := {
  name := "TH_MARGIN", index := 0x40d4, kind := .u8, access := .rwe, dflt := 8, lo := 0, hi := 64,
  effect := .epoch, stride := 0x100, blocks := 12, scope := .port }

/-- R327: `TH_HISTORY_LINES`. -/
def Obj.TH_HISTORY_LINES : ObjRow := {
  name := "TH_HISTORY_LINES", index := 0x40d5, kind := .u16, access := .rwp, dflt := 1024, lo := 256,
  hi := 16384, allowed := [256, 512, 1024, 2048, 4096, 8192, 16384], effect := .preop, stride := 0x100,
  blocks := 12, scope := .port }

/-- Rows of chapter 10, part 0. -/
def objectsRecords0 : List ObjRow := [Obj.REC_RING_BASE, Obj.REC_RING_LOG2, Obj.REC_HEAD_SEQ, Obj.REC_ACK_SEQ,
  Obj.REC_HEAD_ADDR, Obj.REC_IRQ_COUNT, Obj.REC_IRQ_NS, Obj.EXT_ENABLE, Obj.EXT_RING_BASE, Obj.OUT_RING_BASE,
  Obj.OUT_RING_LOG2, Obj.OUT_LOW_ORDER, Obj.OUT_ACK_ORDER, Obj.OUT_HEAD_ADDR, Obj.OUT_IRQ_COUNT,
  Obj.OUT_IRQ_NS, Obj.RING_STATUS, Obj.REC_WRITTEN, Obj.OUT_WRITTEN, Obj.RING_ACK_REFUSED, Obj.TH_SLOTS,
  Obj.TH_MAX_COLS, Obj.TH_MAX_ROWS, Obj.TH_BASE, Obj.TH_SLOT_BYTES, Obj.TH_WRITTEN, Obj.TH_CLIPPED,
  Obj.TH_HISTORY_MISS, Obj.CZ_BLOCKS, Obj.CZ_BYTES_IN]

/-- Rows of chapter 10, part 1. -/
def objectsRecords1 : List ObjRow := [Obj.CZ_BYTES_OUT, Obj.CZ_NOT_SHRUNK, Obj.CZ_STORED, Obj.CZ_VERIFY_FAIL,
  Obj.CZ_ENGINE_BUSY, Obj.RT_ENABLE, Obj.RT_TAP, Obj.RT_PLANES, Obj.RT_COL_START, Obj.RT_COL_END,
  Obj.RT_COL_STEP, Obj.RT_LINE_STEP, Obj.RT_LINE_MODE, Obj.RT_SLOTS, Obj.RT_BASE, Obj.RT_SLOT_BYTES,
  Obj.RT_LAST_LINE, Obj.TH_SELECT, Obj.TH_TAP, Obj.TH_PLANES, Obj.TH_SCALE, Obj.TH_MARGIN,
  Obj.TH_HISTORY_LINES]

end Sys2Proof.Machine
end

