-- ==== Sys2Proof/Machine/ObjectsB.lean ====
section
/-! DEFINITION. The dictionary objects of chapters 11 to 19, one row each, as the spec's object tables print them. -/

namespace Sys2Proof.Machine

/-! Objects of spec chapter 11. -/

/-- R361: `RV_ROTATE_MS`. -/
def Obj.RV_ROTATE_MS : ObjRow := {
  name := "RV_ROTATE_MS", index := 0x4f00, kind := .u32, access := .rw, dflt := 10000, lo := 0, hi := 3600000,
  effect := .now }

/-- R361: `RV_COMPARE_LINES`. -/
def Obj.RV_COMPARE_LINES : ObjRow := {
  name := "RV_COMPARE_LINES", index := 0x4f01, kind := .u16, access := .rwp, dflt := 4096, lo := 1024,
  hi := 65535, effect := .preop }

/-- R361: `RV_BIST_MS`. -/
def Obj.RV_BIST_MS : ObjRow := {
  name := "RV_BIST_MS", index := 0x4f02, kind := .u16, dflt := 20, lo := 0, hi := 65535 }

/-- R361: `RV_REPLAY_SPAN_US`. -/
def Obj.RV_REPLAY_SPAN_US : ObjRow := {
  name := "RV_REPLAY_SPAN_US", index := 0x4f03, kind := .u16, access := .rwp, dflt := 1400, lo := 500,
  hi := 8000, effect := .preop }

/-- R361: `RV_FAILSAFE_POLICY`. -/
def Obj.RV_FAILSAFE_POLICY : ObjRow := {
  name := "RV_FAILSAFE_POLICY", index := 0x4f04, kind := .u8, access := .rw, lo := 0, hi := 1, effect := .now
  }

/-- R361: `RV_FLIGHT_MIN_NS`. -/
def Obj.RV_FLIGHT_MIN_NS : ObjRow := {
  name := "RV_FLIGHT_MIN_NS", index := 0x4f05, kind := .u32, access := .rwp, dflt := 10000000, lo := 1000000,
  hi := 200000000, effect := .preop }

/-- R361: `RV_FLIGHT_MAX_NS`. -/
def Obj.RV_FLIGHT_MAX_NS : ObjRow := {
  name := "RV_FLIGHT_MAX_NS", index := 0x4f06, kind := .u32, access := .rwp, dflt := 60000000, lo := 0,
  hi := 200000000, effect := .preop }

/-- R361: `RV_EPOCH_WAIT_MS`. -/
def Obj.RV_EPOCH_WAIT_MS : ObjRow := {
  name := "RV_EPOCH_WAIT_MS", index := 0x4f07, kind := .u16, access := .rw, dflt := 100, lo := 1, hi := 10000,
  effect := .now }

/-- R361: `RV_PORT_PIPELINE`. -/
def Obj.RV_PORT_PIPELINE : ObjRow := {
  name := "RV_PORT_PIPELINE", index := 0x4f10, count := 12, kind := .u8, isArray := true,
  special := [(1, 1), (2, 2), (3, 3), (4, 4), (5, 5), (6, 6), (7, 7), (8, 8), (9, 9), (10, 10), (11, 11)],
  lo := 0, hi := 255 }

/-- R361: `RV_SPARE`. -/
def Obj.RV_SPARE : ObjRow := {
  name := "RV_SPARE", index := 0x4f11, kind := .u8, dflt := 12, lo := 0, hi := 255 }

/-- R361: `RV_PIPE_STATE`. -/
def Obj.RV_PIPE_STATE : ObjRow := {
  name := "RV_PIPE_STATE", index := 0x4f12, count := 13, kind := .u8, isArray := true, special := [(12, 1)],
  lo := 0, hi := 5 }

/-- R361: `RV_STATUS`. -/
def Obj.RV_STATUS : ObjRow := {
  name := "RV_STATUS", index := 0x4f13, kind := .u16, lo := 0, hi := 65535 }

/-- R361: `RV_NEXT_PORT`. -/
def Obj.RV_NEXT_PORT : ObjRow := {
  name := "RV_NEXT_PORT", index := 0x4f14, kind := .u8, lo := 0, hi := 255 }

/-- R361: `RV_ROTATIONS`. -/
def Obj.RV_ROTATIONS : ObjRow := {
  name := "RV_ROTATIONS", index := 0x4f20, kind := .u64, access := .rw, lo := 0, hi := 18446744073709551615,
  effect := .now, counter := true }

/-- R361: `RV_COMPARE_MISMATCH`. -/
def Obj.RV_COMPARE_MISMATCH : ObjRow := {
  name := "RV_COMPARE_MISMATCH", index := 0x4f21, kind := .u64, access := .rw, lo := 0,
  hi := 18446744073709551615, effect := .now, counter := true }

/-- R361: `RV_BIST_FAILS`. -/
def Obj.RV_BIST_FAILS : ObjRow := {
  name := "RV_BIST_FAILS", index := 0x4f22, kind := .u64, access := .rw, lo := 0, hi := 18446744073709551615,
  effect := .now, counter := true }

/-- R361: `RV_FAILOVERS`. -/
def Obj.RV_FAILOVERS : ObjRow := {
  name := "RV_FAILOVERS", index := 0x4f23, kind := .u64, access := .rw, lo := 0, hi := 18446744073709551615,
  effect := .now, counter := true }

/-- R361: `RV_REPLAY_DUPLICATES`. -/
def Obj.RV_REPLAY_DUPLICATES : ObjRow := {
  name := "RV_REPLAY_DUPLICATES", index := 0x4f24, kind := .u64, access := .rw, lo := 0,
  hi := 18446744073709551615, effect := .now, counter := true }

/-- R361: `RV_CUTS`. -/
def Obj.RV_CUTS : ObjRow := {
  name := "RV_CUTS", index := 0x4f25, kind := .u64, access := .rw, lo := 0, hi := 18446744073709551615,
  effect := .now, counter := true }

/-- R361: `RV_LINES_CUT`. -/
def Obj.RV_LINES_CUT : ObjRow := {
  name := "RV_LINES_CUT", index := 0x4f26, kind := .u64, access := .rw, lo := 0, hi := 18446744073709551615,
  effect := .now, counter := true }

/-- R361: `RV_FAILSAFE_OBJECTS`. -/
def Obj.RV_FAILSAFE_OBJECTS : ObjRow := {
  name := "RV_FAILSAFE_OBJECTS", index := 0x4f27, kind := .u64, access := .rw, lo := 0,
  hi := 18446744073709551615, effect := .now, counter := true }

/-- R361: `RV_FAILSAFE_PULSES`. -/
def Obj.RV_FAILSAFE_PULSES : ObjRow := {
  name := "RV_FAILSAFE_PULSES", index := 0x4f28, kind := .u64, access := .rw, lo := 0,
  hi := 18446744073709551615, effect := .now, counter := true }

/-- R361: `RV_LAST_FAILOVER`. -/
def Obj.RV_LAST_FAILOVER : ObjRow := {
  name := "RV_LAST_FAILOVER", index := 0x4f29, count := 10, kind := .record, lo := 0,
  hi := 18446744073709551615 }

/-- R361: `RV_INTERRUPTION_MAX_SEEN`. -/
def Obj.RV_INTERRUPTION_MAX_SEEN : ObjRow := {
  name := "RV_INTERRUPTION_MAX_SEEN", index := 0x4f2a, kind := .u32, lo := 0, hi := 4294967295 }

/-- R362: `LG_STATUS`. -/
def Obj.LG_STATUS : ObjRow := {
  name := "LG_STATUS", index := 0x7800, kind := .u16, lo := 0, hi := 65535 }

/-- R362: `LG_NEXT_SEQ`. -/
def Obj.LG_NEXT_SEQ : ObjRow := {
  name := "LG_NEXT_SEQ", index := 0x7801, kind := .u64, dflt := 1, lo := 0, hi := 18446744073709551615 }

/-- R362: `LG_NEXT_ORDER`. -/
def Obj.LG_NEXT_ORDER : ObjRow := {
  name := "LG_NEXT_ORDER", index := 0x7802, kind := .u64, dflt := 1, lo := 0, hi := 18446744073709551615 }

/-- R362: `LG_REC_WINDOW`. -/
def Obj.LG_REC_WINDOW : ObjRow := {
  name := "LG_REC_WINDOW", index := 0x7803, kind := .u16, lo := 0, hi := 2048 }

/-- R362: `LG_ORDER_WINDOW`. -/
def Obj.LG_ORDER_WINDOW : ObjRow := {
  name := "LG_ORDER_WINDOW", index := 0x7804, kind := .u16, lo := 0, hi := 8192 }

/-- R362: `LG_COPY_CHANNEL`. -/
def Obj.LG_COPY_CHANNEL : ObjRow := {
  name := "LG_COPY_CHANNEL", index := 0x7805, count := 2, kind := .u8, isArray := true, special := [(1, 4)],
  lo := 0, hi := 7 }

/-- R362: `LG_COMMITTED_LINE`. -/
def Obj.LG_COMMITTED_LINE : ObjRow := {
  name := "LG_COMMITTED_LINE", index := 0x7806, count := 12, kind := .u64, isArray := true, lo := 0,
  hi := 18446744073709551615 }

/-- R362: `LG_MIRROR_ENABLE`. -/
def Obj.LG_MIRROR_ENABLE : ObjRow := {
  name := "LG_MIRROR_ENABLE", index := 0x7807, kind := .bool, access := .rwp, lo := 0, hi := 1,
  effect := .preop }

/-- R362: `LG_DISCARD`. -/
def Obj.LG_DISCARD : ObjRow := {
  name := "LG_DISCARD", index := 0x7808, kind := .u8, access := .wo, lo := 1, hi := 1, effect := .now,
  level := 2 }

/-- R362: `LG_REISSUED_RECORDS`. -/
def Obj.LG_REISSUED_RECORDS : ObjRow := {
  name := "LG_REISSUED_RECORDS", index := 0x7810, kind := .u64, access := .rw, lo := 0,
  hi := 18446744073709551615, effect := .now, counter := true }

/-- R362: `LG_REISSUED_OUTCOMES`. -/
def Obj.LG_REISSUED_OUTCOMES : ObjRow := {
  name := "LG_REISSUED_OUTCOMES", index := 0x7811, kind := .u64, access := .rw, lo := 0,
  hi := 18446744073709551615, effect := .now, counter := true }

/-- R362: `LG_EXT_NOT_RESTORED`. -/
def Obj.LG_EXT_NOT_RESTORED : ObjRow := {
  name := "LG_EXT_NOT_RESTORED", index := 0x7812, kind := .u64, access := .rw, lo := 0,
  hi := 18446744073709551615, effect := .now, counter := true }

/-- R362: `CT_FAULTS`. -/
def Obj.CT_FAULTS : ObjRow := {
  name := "CT_FAULTS", index := 0x7818, count := 7, kind := .u64, isArray := true, access := .rw, lo := 0,
  hi := 18446744073709551615, effect := .now, counter := true }

/-- R362: `CROSS_FLUSHED`. -/
def Obj.CROSS_FLUSHED : ObjRow := {
  name := "CROSS_FLUSHED", index := 0x7820, count := 40, kind := .u64, isArray := true, access := .rw,
  lo := 0, hi := 18446744073709551615, effect := .now, counter := true }

/-- R362: `CROSS_STALE`. -/
def Obj.CROSS_STALE : ObjRow := {
  name := "CROSS_STALE", index := 0x7821, count := 40, kind := .u64, isArray := true, access := .rw, lo := 0,
  hi := 18446744073709551615, effect := .now, counter := true }

/-- R362: `ISLAND_STATE`. -/
def Obj.ISLAND_STATE : ObjRow := {
  name := "ISLAND_STATE", index := 0x7822, count := 40, kind := .u8, isArray := true, dflt := 1, lo := 0,
  hi := 4 }

/-- R362: `ISLAND_RESET`. -/
def Obj.ISLAND_RESET : ObjRow := {
  name := "ISLAND_RESET", index := 0x7823, kind := .u8, access := .wo, lo := 0, hi := 39, effect := .now,
  level := 2 }

/-- Rows of chapter 11, part 0. -/
def objectsIslands0 : List ObjRow := [Obj.RV_ROTATE_MS, Obj.RV_COMPARE_LINES, Obj.RV_BIST_MS,
  Obj.RV_REPLAY_SPAN_US, Obj.RV_FAILSAFE_POLICY, Obj.RV_FLIGHT_MIN_NS, Obj.RV_FLIGHT_MAX_NS,
  Obj.RV_EPOCH_WAIT_MS, Obj.RV_PORT_PIPELINE, Obj.RV_SPARE, Obj.RV_PIPE_STATE, Obj.RV_STATUS,
  Obj.RV_NEXT_PORT, Obj.RV_ROTATIONS, Obj.RV_COMPARE_MISMATCH, Obj.RV_BIST_FAILS, Obj.RV_FAILOVERS,
  Obj.RV_REPLAY_DUPLICATES, Obj.RV_CUTS, Obj.RV_LINES_CUT, Obj.RV_FAILSAFE_OBJECTS, Obj.RV_FAILSAFE_PULSES,
  Obj.RV_LAST_FAILOVER, Obj.RV_INTERRUPTION_MAX_SEEN, Obj.LG_STATUS, Obj.LG_NEXT_SEQ, Obj.LG_NEXT_ORDER,
  Obj.LG_REC_WINDOW, Obj.LG_ORDER_WINDOW, Obj.LG_COPY_CHANNEL]

/-- Rows of chapter 11, part 1. -/
def objectsIslands1 : List ObjRow := [Obj.LG_COMMITTED_LINE, Obj.LG_MIRROR_ENABLE, Obj.LG_DISCARD,
  Obj.LG_REISSUED_RECORDS, Obj.LG_REISSUED_OUTCOMES, Obj.LG_EXT_NOT_RESTORED, Obj.CT_FAULTS,
  Obj.CROSS_FLUSHED, Obj.CROSS_STALE, Obj.ISLAND_STATE, Obj.ISLAND_RESET]

/-! Objects of spec chapter 12. -/

/-- R392: `CX_PCI_ID`. -/
def Obj.CX_PCI_ID : ObjRow := {
  name := "CX_PCI_ID", index := 0x9000, kind := .u32, lo := 0, hi := 4294967295, owner := .host }

/-- R392: `CX_LINK_STATUS`. -/
def Obj.CX_LINK_STATUS : ObjRow := {
  name := "CX_LINK_STATUS", index := 0x9001, kind := .u16, lo := 0, hi := 65535, owner := .host }

/-- R392: `CX_RATE_MAX`. -/
def Obj.CX_RATE_MAX : ObjRow := {
  name := "CX_RATE_MAX", index := 0x9002, kind := .u8, access := .rwp, dflt := 4, lo := 0, hi := 4,
  effect := .preop, owner := .host }

/-- R392: `CX_LINK_DOWN_US`. -/
def Obj.CX_LINK_DOWN_US : ObjRow := {
  name := "CX_LINK_DOWN_US", index := 0x9003, kind := .u16, access := .rwp, dflt := 100, lo := 10,
  hi := 10000, effect := .preop, owner := .host }

/-- R392: `CX_LINK_DOWN_COUNT`. -/
def Obj.CX_LINK_DOWN_COUNT : ObjRow := {
  name := "CX_LINK_DOWN_COUNT", index := 0x9004, kind := .u64, access := .rw, lo := 0,
  hi := 18446744073709551615, effect := .now, owner := .host, counter := true }

/-- R392: `CX_RECOVERIES`. -/
def Obj.CX_RECOVERIES : ObjRow := {
  name := "CX_RECOVERIES", index := 0x9005, kind := .u64, access := .rw, lo := 0, hi := 18446744073709551615,
  effect := .now, owner := .host, counter := true }

/-- R392: `CX_FEC_CORRECTED`. -/
def Obj.CX_FEC_CORRECTED : ObjRow := {
  name := "CX_FEC_CORRECTED", index := 0x9006, kind := .u64, access := .rw, lo := 0,
  hi := 18446744073709551615, effect := .now, owner := .host, counter := true }

/-- R392: `CX_IDE_REQUIRED`. -/
def Obj.CX_IDE_REQUIRED : ObjRow := {
  name := "CX_IDE_REQUIRED", index := 0x9007, kind := .bool, access := .rws, lo := 0, hi := 1, effect := .now,
  owner := .secure, level := 3 }

/-- R392: `CX_IDE_ERRORS`. -/
def Obj.CX_IDE_ERRORS : ObjRow := {
  name := "CX_IDE_ERRORS", index := 0x9008, kind := .u64, access := .rw, lo := 0, hi := 18446744073709551615,
  effect := .now, owner := .host, counter := true }

/-- R392: `CX_HDM_SIZE`. -/
def Obj.CX_HDM_SIZE : ObjRow := {
  name := "CX_HDM_SIZE", index := 0x9010, kind := .u64, access := .rwp, dflt := 34359738368, lo := 1073741824,
  hi := 34359738368, mult := 1073741824, effect := .preop, owner := .host }

/-- R392: `CX_SCRATCH_BYTES`. -/
def Obj.CX_SCRATCH_BYTES : ObjRow := {
  name := "CX_SCRATCH_BYTES", index := 0x9011, kind := .u32, access := .rwp, dflt := 268435456,
  lo := 16777216, hi := 2147483648, mult := 16777216, effect := .preop, owner := .host }

/-- R392: `CX_SCRATCH_BASE`. -/
def Obj.CX_SCRATCH_BASE : ObjRow := {
  name := "CX_SCRATCH_BASE", index := 0x9012, kind := .u64, lo := 0, hi := 18446744073709551615,
  owner := .host }

/-- R392: `CX_MEM_WRITE_REFUSED`. -/
def Obj.CX_MEM_WRITE_REFUSED : ObjRow := {
  name := "CX_MEM_WRITE_REFUSED", index := 0x9013, kind := .u64, access := .rw, lo := 0,
  hi := 18446744073709551615, effect := .now, owner := .host, counter := true }

/-- R392: `CX_POISON_RETURNED`. -/
def Obj.CX_POISON_RETURNED : ObjRow := {
  name := "CX_POISON_RETURNED", index := 0x9014, kind := .u64, access := .rw, lo := 0,
  hi := 18446744073709551615, effect := .now, owner := .host, counter := true }

/-- R392: `CX_CAUSE_MAP`. -/
def Obj.CX_CAUSE_MAP : ObjRow := {
  name := "CX_CAUSE_MAP", index := 0x9018, count := 64, kind := .u16, isArray := true, access := .rwp,
  lo := 0, hi := 65535, effect := .preop, owner := .host }

/-- R392: `CX_MB_REFUSED`. -/
def Obj.CX_MB_REFUSED : ObjRow := {
  name := "CX_MB_REFUSED", index := 0x9020, kind := .u64, access := .rw, lo := 0, hi := 18446744073709551615,
  effect := .now, owner := .host, counter := true }

/-- R392: `CX_MB_LAST`. -/
def Obj.CX_MB_LAST : ObjRow := {
  name := "CX_MB_LAST", index := 0x9021, count := 3, kind := .record, lo := 0, hi := 18446744073709551615,
  owner := .host }

/-- R392: `DMA_COMPL_ADDR`. -/
def Obj.DMA_COMPL_ADDR : ObjRow := {
  name := "DMA_COMPL_ADDR", index := 0x9100, count := 32, kind := .u64, isArray := true, access := .rw,
  lo := 0, hi := 18446744073709551615, mult := 32, effect := .now, owner := .host }

/-- R392: `DMA_JOBS`. -/
def Obj.DMA_JOBS : ObjRow := {
  name := "DMA_JOBS", index := 0x9101, count := 32, kind := .u64, isArray := true, access := .rw, lo := 0,
  hi := 18446744073709551615, effect := .now, owner := .host, counter := true }

/-- R392: `DMA_BYTES`. -/
def Obj.DMA_BYTES : ObjRow := {
  name := "DMA_BYTES", index := 0x9102, count := 32, kind := .u64, isArray := true, access := .rw, lo := 0,
  hi := 18446744073709551615, effect := .now, owner := .host, counter := true }

/-- R392: `DMA_ERRORS`. -/
def Obj.DMA_ERRORS : ObjRow := {
  name := "DMA_ERRORS", index := 0x9103, count := 32, kind := .u64, isArray := true, access := .rw, lo := 0,
  hi := 18446744073709551615, effect := .now, owner := .host, counter := true }

/-- R392: `DMA_PREEMPTIONS`. -/
def Obj.DMA_PREEMPTIONS : ObjRow := {
  name := "DMA_PREEMPTIONS", index := 0x9104, count := 32, kind := .u64, isArray := true, access := .rw,
  lo := 0, hi := 18446744073709551615, effect := .now, owner := .host, counter := true }

/-- R392: `DMA_COMMITS_SKIPPED`. -/
def Obj.DMA_COMMITS_SKIPPED : ObjRow := {
  name := "DMA_COMMITS_SKIPPED", index := 0x9105, count := 32, kind := .u64, isArray := true, access := .rw,
  lo := 0, hi := 18446744073709551615, effect := .now, owner := .host, counter := true }

/-- Rows of chapter 12, part 0. -/
def objectsCxl0 : List ObjRow := [Obj.CX_PCI_ID, Obj.CX_LINK_STATUS, Obj.CX_RATE_MAX, Obj.CX_LINK_DOWN_US,
  Obj.CX_LINK_DOWN_COUNT, Obj.CX_RECOVERIES, Obj.CX_FEC_CORRECTED, Obj.CX_IDE_REQUIRED, Obj.CX_IDE_ERRORS,
  Obj.CX_HDM_SIZE, Obj.CX_SCRATCH_BYTES, Obj.CX_SCRATCH_BASE, Obj.CX_MEM_WRITE_REFUSED,
  Obj.CX_POISON_RETURNED, Obj.CX_CAUSE_MAP, Obj.CX_MB_REFUSED, Obj.CX_MB_LAST, Obj.DMA_COMPL_ADDR,
  Obj.DMA_JOBS, Obj.DMA_BYTES, Obj.DMA_ERRORS, Obj.DMA_PREEMPTIONS, Obj.DMA_COMMITS_SKIPPED]

/-! Objects of spec chapter 13. -/

/-- R410: `DR_STATUS`. -/
def Obj.DR_STATUS : ObjRow := {
  name := "DR_STATUS", index := 0xb000, kind := .u16, lo := 0, hi := 65535 }

/-- R410: `DR_CH_STATE`. -/
def Obj.DR_CH_STATE : ObjRow := {
  name := "DR_CH_STATE", index := 0xb001, count := 8, kind := .u8, isArray := true, lo := 0, hi := 4 }

/-- R410: `DR_CAPACITY`. -/
def Obj.DR_CAPACITY : ObjRow := {
  name := "DR_CAPACITY", index := 0xb002, kind := .u64, dflt := 66035122176, lo := 0,
  hi := 18446744073709551615 }

/-- R410: `DR_ALLOCATED`. -/
def Obj.DR_ALLOCATED : ObjRow := {
  name := "DR_ALLOCATED", index := 0xb003, kind := .u64, lo := 0, hi := 18446744073709551615 }

/-- R410: `DR_RH_K`. -/
def Obj.DR_RH_K : ObjRow := {
  name := "DR_RH_K", index := 0xb004, kind := .u8, access := .rw, dflt := 10, lo := 6, hi := 16,
  effect := .now }

/-- R410: `DR_SCRUB_PERIOD_S`. -/
def Obj.DR_SCRUB_PERIOD_S : ObjRow := {
  name := "DR_SCRUB_PERIOD_S", index := 0xb005, kind := .u32, access := .rwp, dflt := 600, lo := 60,
  hi := 86400, effect := .preop }

/-- R410: `DR_CAPTURE_PANIC`. -/
def Obj.DR_CAPTURE_PANIC : ObjRow := {
  name := "DR_CAPTURE_PANIC", index := 0xb006, kind := .u8, access := .rwp, dflt := 2, lo := 1, hi := 3,
  effect := .preop }

/-- R410: `DR_REPLAY_PANIC`. -/
def Obj.DR_REPLAY_PANIC : ObjRow := {
  name := "DR_REPLAY_PANIC", index := 0xb007, kind := .u8, access := .rwp, dflt := 16, lo := 4, hi := 48,
  effect := .preop }

/-- R410: `DR_UNCORR_LIMIT`. -/
def Obj.DR_UNCORR_LIMIT : ObjRow := {
  name := "DR_UNCORR_LIMIT", index := 0xb008, kind := .u8, access := .rwp, dflt := 4, lo := 1, hi := 255,
  effect := .preop }

/-- R410: `DR_CORRECTED`. -/
def Obj.DR_CORRECTED : ObjRow := {
  name := "DR_CORRECTED", index := 0xb010, count := 8, kind := .u64, isArray := true, access := .rw, lo := 0,
  hi := 18446744073709551615, effect := .now, counter := true }

/-- R410: `DR_UNCORRECTED`. -/
def Obj.DR_UNCORRECTED : ObjRow := {
  name := "DR_UNCORRECTED", index := 0xb011, count := 8, kind := .u64, isArray := true, access := .rw,
  lo := 0, hi := 18446744073709551615, effect := .now, counter := true }

/-- R410: `DR_REFRESH_FORCED`. -/
def Obj.DR_REFRESH_FORCED : ObjRow := {
  name := "DR_REFRESH_FORCED", index := 0xb012, count := 8, kind := .u64, isArray := true, access := .rw,
  lo := 0, hi := 18446744073709551615, effect := .now, counter := true }

/-- R410: `DR_BURST_SPLITS`. -/
def Obj.DR_BURST_SPLITS : ObjRow := {
  name := "DR_BURST_SPLITS", index := 0xb013, count := 8, kind := .u64, isArray := true, access := .rw,
  lo := 0, hi := 18446744073709551615, effect := .now, counter := true }

/-- R410: `DR_NEIGHBOUR_REFRESH`. -/
def Obj.DR_NEIGHBOUR_REFRESH : ObjRow := {
  name := "DR_NEIGHBOUR_REFRESH", index := 0xb014, count := 8, kind := .u64, isArray := true, access := .rw,
  lo := 0, hi := 18446744073709551615, effect := .now, counter := true }

/-- R410: `DR_RETRAINS`. -/
def Obj.DR_RETRAINS : ObjRow := {
  name := "DR_RETRAINS", index := 0xb015, count := 8, kind := .u64, isArray := true, access := .rw, lo := 0,
  hi := 18446744073709551615, effect := .now, counter := true }

/-- R410: `DR_TIMEOUTS`. -/
def Obj.DR_TIMEOUTS : ObjRow := {
  name := "DR_TIMEOUTS", index := 0xb016, count := 8, kind := .u64, isArray := true, access := .rw, lo := 0,
  hi := 18446744073709551615, effect := .now, counter := true }

/-- R410: `DR_DEBT_MAX_SEEN`. -/
def Obj.DR_DEBT_MAX_SEEN : ObjRow := {
  name := "DR_DEBT_MAX_SEEN", index := 0xb017, count := 8, kind := .u8, isArray := true, lo := 0, hi := 8 }

/-- R410: `DR_PANIC_COUNT`. -/
def Obj.DR_PANIC_COUNT : ObjRow := {
  name := "DR_PANIC_COUNT", index := 0xb018, count := 2, kind := .u64, isArray := true, access := .rw,
  lo := 0, hi := 18446744073709551615, effect := .now, counter := true }

/-- R410: `DR_SCRUB_PASSES`. -/
def Obj.DR_SCRUB_PASSES : ObjRow := {
  name := "DR_SCRUB_PASSES", index := 0xb019, kind := .u64, access := .rw, lo := 0,
  hi := 18446744073709551615, effect := .now, counter := true }

/-- R410: `DR_REPLAY_LINES_BAD`. -/
def Obj.DR_REPLAY_LINES_BAD : ObjRow := {
  name := "DR_REPLAY_LINES_BAD", index := 0xb01a, kind := .u64, access := .rw, lo := 0,
  hi := 18446744073709551615, effect := .now, counter := true }

/-- R410: `DR_LAST_ERROR`. -/
def Obj.DR_LAST_ERROR : ObjRow := {
  name := "DR_LAST_ERROR", index := 0xb01b, count := 5, kind := .record, lo := 0, hi := 18446744073709551615 }

/-- Rows of chapter 13, part 0. -/
def objectsDram0 : List ObjRow := [Obj.DR_STATUS, Obj.DR_CH_STATE, Obj.DR_CAPACITY, Obj.DR_ALLOCATED,
  Obj.DR_RH_K, Obj.DR_SCRUB_PERIOD_S, Obj.DR_CAPTURE_PANIC, Obj.DR_REPLAY_PANIC, Obj.DR_UNCORR_LIMIT,
  Obj.DR_CORRECTED, Obj.DR_UNCORRECTED, Obj.DR_REFRESH_FORCED, Obj.DR_BURST_SPLITS, Obj.DR_NEIGHBOUR_REFRESH,
  Obj.DR_RETRAINS, Obj.DR_TIMEOUTS, Obj.DR_DEBT_MAX_SEEN, Obj.DR_PANIC_COUNT, Obj.DR_SCRUB_PASSES,
  Obj.DR_REPLAY_LINES_BAD, Obj.DR_LAST_ERROR]

/-! Objects of spec chapter 14. -/

/-- R449: `VENDOR_NAME`. -/
def Obj.VENDOR_NAME : ObjRow := {
  name := "VENDOR_NAME", index := 0x1000, kind := .str, blob := [69, 118, 119, 97, 105, 102], lo := 0,
  hi := 65535, owner := .chain }

/-- R449: `PRODUCT_NAME`. -/
def Obj.PRODUCT_NAME : ObjRow := {
  name := "PRODUCT_NAME", index := 0x1001, kind := .str,
  blob := [65, 108, 122, 101, 116, 114, 105, 120, 32, 65, 90, 49, 50, 49, 51], lo := 0, hi := 65535,
  owner := .chain }

/-- R449: `ORDER_CODE`. -/
def Obj.ORDER_CODE : ObjRow := {
  name := "ORDER_CODE", index := 0x1002, kind := .str, lo := 0, hi := 65535, owner := .chain }

/-- R449: `SILICON_REV`. -/
def Obj.SILICON_REV : ObjRow := {
  name := "SILICON_REV", index := 0x1003, kind := .str, blob := [66, 48], lo := 0, hi := 65535,
  owner := .chain }

/-- R449: `SERIAL_NUMBER`. -/
def Obj.SERIAL_NUMBER : ObjRow := {
  name := "SERIAL_NUMBER", index := 0x1004, kind := .str, lo := 16, hi := 16, owner := .chain }

/-- R449: `FW_VERSION`. -/
def Obj.FW_VERSION : ObjRow := {
  name := "FW_VERSION", index := 0x1005, kind := .u32, lo := 0, hi := 4294967295, owner := .chain }

/-- R449: `DEVICE_STATE`. -/
def Obj.DEVICE_STATE : ObjRow := {
  name := "DEVICE_STATE", index := 0x1010, kind := .u8, lo := 0, hi := 7, owner := .chain }

/-- R449: `STATE_REQUEST`. -/
def Obj.STATE_REQUEST : ObjRow := {
  name := "STATE_REQUEST", index := 0x1011, kind := .u8, access := .rw, dflt := 2, lo := 1, hi := 5,
  effect := .now, owner := .chain }

/-- R449: `STATE_REFUSE_INDEX`. -/
def Obj.STATE_REFUSE_INDEX : ObjRow := {
  name := "STATE_REFUSE_INDEX", index := 0x1012, kind := .u32, lo := 0, hi := 4294967295, owner := .chain }

/-- R449: `STATE_REFUSE_TEXT`. -/
def Obj.STATE_REFUSE_TEXT : ObjRow := {
  name := "STATE_REFUSE_TEXT", index := 0x1013, kind := .str, lo := 0, hi := 65535, owner := .chain }

/-- R449: `DEVICE_RESET`. -/
def Obj.DEVICE_RESET : ObjRow := {
  name := "DEVICE_RESET", index := 0x1014, kind := .u8, access := .wo, lo := 1, hi := 1, effect := .now,
  owner := .chain, level := 2 }

/-- R449: `ERR_LAST`. -/
def Obj.ERR_LAST : ObjRow := {
  name := "ERR_LAST", index := 0x1020, count := 3, kind := .record, lo := 0, hi := 18446744073709551615,
  owner := .chain }

/-- R449: `ERR_COUNT`. -/
def Obj.ERR_COUNT : ObjRow := {
  name := "ERR_COUNT", index := 0x1021, kind := .u64, access := .rw, lo := 0, hi := 18446744073709551615,
  effect := .now, owner := .chain, counter := true }

/-- R449: `ACCESS_CODE_CHAIN`. -/
def Obj.ACCESS_CODE_CHAIN : ObjRow := {
  name := "ACCESS_CODE_CHAIN", index := 0x1030, kind := .blob, access := .wo, lo := 17, hi := 17,
  effect := .now, owner := .chain, level := 0 }

/-- R449: `ACCESS_UNLOCK_CHAIN`. -/
def Obj.ACCESS_UNLOCK_CHAIN : ObjRow := {
  name := "ACCESS_UNLOCK_CHAIN", index := 0x1031, kind := .blob, access := .wo, lo := 98, hi := 98,
  effect := .now, owner := .chain, level := 0 }

/-- R449: `ACCESS_LEVEL_CHAIN`. -/
def Obj.ACCESS_LEVEL_CHAIN : ObjRow := {
  name := "ACCESS_LEVEL_CHAIN", index := 0x1032, kind := .u8, access := .rw, lo := 0, hi := 3, effect := .now,
  owner := .chain, level := 0 }

/-- R449: `ACCESS_CODE_HOST`. -/
def Obj.ACCESS_CODE_HOST : ObjRow := {
  name := "ACCESS_CODE_HOST", index := 0x1038, kind := .blob, access := .wo, lo := 17, hi := 17,
  effect := .now, owner := .host, level := 0 }

/-- R449: `ACCESS_UNLOCK_HOST`. -/
def Obj.ACCESS_UNLOCK_HOST : ObjRow := {
  name := "ACCESS_UNLOCK_HOST", index := 0x1039, kind := .blob, access := .wo, lo := 98, hi := 98,
  effect := .now, owner := .host, level := 0 }

/-- R449: `ACCESS_LEVEL_HOST`. -/
def Obj.ACCESS_LEVEL_HOST : ObjRow := {
  name := "ACCESS_LEVEL_HOST", index := 0x103a, kind := .u8, access := .rw, lo := 0, hi := 3, effect := .now,
  owner := .host, level := 0 }

/-- R449: `OD_DIRECTORY`. -/
def Obj.OD_DIRECTORY : ObjRow := {
  name := "OD_DIRECTORY", index := 0x1040, kind := .blob, lo := 0, hi := 65535, owner := .chain }

/-- R449: `OD_OWNER_MAP`. -/
def Obj.OD_OWNER_MAP : ObjRow := {
  name := "OD_OWNER_MAP", index := 0x1048, count := 32, kind := .u32, isArray := true, access := .rwp,
  lo := 0, hi := 4294967295, effect := .preop, owner := .chain }

/-- R449: `MER_STATION`. -/
def Obj.MER_STATION : ObjRow := {
  name := "MER_STATION", index := 0x1100, kind := .u16, access := .rw, lo := 0, hi := 65535, effect := .now,
  owner := .chain }

/-- R449: `MER_ALIAS`. -/
def Obj.MER_ALIAS : ObjRow := {
  name := "MER_ALIAS", index := 0x1101, kind := .u16, access := .rwp, lo := 0, hi := 65535, effect := .preop,
  owner := .chain }

/-- R449: `MER_ALIAS_ENABLE`. -/
def Obj.MER_ALIAS_ENABLE : ObjRow := {
  name := "MER_ALIAS_ENABLE", index := 0x1102, kind := .bool, access := .rwp, lo := 0, hi := 1,
  effect := .preop, owner := .chain }

/-- R449: `MER_PORT_STATUS`. -/
def Obj.MER_PORT_STATUS : ObjRow := {
  name := "MER_PORT_STATUS", index := 0x1103, kind := .u16, lo := 0, hi := 65535, owner := .chain }

/-- R449: `MER_PORT_EXPECTED`. -/
def Obj.MER_PORT_EXPECTED : ObjRow := {
  name := "MER_PORT_EXPECTED", index := 0x1104, kind := .u8, access := .rwp, dflt := 1, lo := 0, hi := 3,
  effect := .preop, owner := .chain }

/-- R449: `MER_FWD_DELAY_NS`. -/
def Obj.MER_FWD_DELAY_NS : ObjRow := {
  name := "MER_FWD_DELAY_NS", index := 0x1105, kind := .u16, dflt := 232, lo := 232, hi := 600,
  owner := .chain }

/-- R449: `MER_TIME_REFERENCE`. -/
def Obj.MER_TIME_REFERENCE : ObjRow := {
  name := "MER_TIME_REFERENCE", index := 0x1106, kind := .bool, access := .rwp, lo := 0, hi := 1,
  effect := .preop, owner := .chain }

/-- R449: `MER_PROP_DELAY_NS`. -/
def Obj.MER_PROP_DELAY_NS : ObjRow := {
  name := "MER_PROP_DELAY_NS", index := 0x1107, kind := .u32, lo := 0, hi := 4294967295, owner := .chain }

/-- R449: `MER_TIME_TIMEOUT_MS`. -/
def Obj.MER_TIME_TIMEOUT_MS : ObjRow := {
  name := "MER_TIME_TIMEOUT_MS", index := 0x1108, kind := .u16, access := .rw, dflt := 10, lo := 1,
  hi := 1000, effect := .now, owner := .chain }

/-- R449: `MER_WATCHDOG_US`. -/
def Obj.MER_WATCHDOG_US : ObjRow := {
  name := "MER_WATCHDOG_US", index := 0x1109, kind := .u32, access := .rw, lo := 0, hi := 1000000,
  effect := .now, owner := .chain }

/-- R449: `MER_FCS_ERRORS`. -/
def Obj.MER_FCS_ERRORS : ObjRow := {
  name := "MER_FCS_ERRORS", index := 0x1110, count := 2, kind := .u64, isArray := true, access := .rw,
  lo := 0, hi := 18446744073709551615, effect := .now, owner := .chain, counter := true }

/-- R449: `MER_FORMAT_ERRORS`. -/
def Obj.MER_FORMAT_ERRORS : ObjRow := {
  name := "MER_FORMAT_ERRORS", index := 0x1111, kind := .u64, access := .rw, lo := 0,
  hi := 18446744073709551615, effect := .now, owner := .chain, counter := true }

/-- R449: `MER_LINK_LOSS`. -/
def Obj.MER_LINK_LOSS : ObjRow := {
  name := "MER_LINK_LOSS", index := 0x1112, count := 2, kind := .u64, isArray := true, access := .rw, lo := 0,
  hi := 18446744073709551615, effect := .now, owner := .chain, counter := true }

/-- R449: `MER_CYCLIC_REFUSED`. -/
def Obj.MER_CYCLIC_REFUSED : ObjRow := {
  name := "MER_CYCLIC_REFUSED", index := 0x1113, kind := .u64, access := .rw, lo := 0,
  hi := 18446744073709551615, effect := .now, owner := .chain, counter := true }

/-- R449: `MAP_OUT`. -/
def Obj.MAP_OUT : ObjRow := {
  name := "MAP_OUT", index := 0x1200, count := 32, kind := .u32, isArray := true, access := .rwp, lo := 0,
  hi := 4294967295, effect := .preop, owner := .chain }

/-- R449: `MAP_IN`. -/
def Obj.MAP_IN : ObjRow := {
  name := "MAP_IN", index := 0x1201, count := 32, kind := .u32, isArray := true, access := .rwp, lo := 0,
  hi := 4294967295, effect := .preop, owner := .chain }

/-- R449: `MAP_OUT_BASE`. -/
def Obj.MAP_OUT_BASE : ObjRow := {
  name := "MAP_OUT_BASE", index := 0x1202, kind := .u32, access := .rwp, lo := 0, hi := 4294967295,
  effect := .preop, owner := .chain }

/-- R449: `MAP_IN_BASE`. -/
def Obj.MAP_IN_BASE : ObjRow := {
  name := "MAP_IN_BASE", index := 0x1203, kind := .u32, access := .rwp, dflt := 65536, lo := 0,
  hi := 4294967295, effect := .preop, owner := .chain }

/-- R451: `FW_IMAGE`. -/
def Obj.FW_IMAGE : ObjRow := {
  name := "FW_IMAGE", index := 0xf000, kind := .blob, access := .wo, lo := 0, hi := 16777216, effect := .now,
  owner := .chain, level := 2 }

/-- R451: `FW_IMAGE_HOST`. -/
def Obj.FW_IMAGE_HOST : ObjRow := {
  name := "FW_IMAGE_HOST", index := 0xf001, kind := .blob, access := .wo, lo := 0, hi := 16777216,
  effect := .now, owner := .host, level := 2 }

/-- R451: `FW_STATUS`. -/
def Obj.FW_STATUS : ObjRow := {
  name := "FW_STATUS", index := 0xf002, kind := .u16, lo := 0, hi := 65535, level := 2 }

/-- R451: `FW_REFUSE_CODE`. -/
def Obj.FW_REFUSE_CODE : ObjRow := {
  name := "FW_REFUSE_CODE", index := 0xf003, kind := .u8, lo := 0, hi := 8, level := 2 }

/-- R451: `FW_SLOT_VERSION`. -/
def Obj.FW_SLOT_VERSION : ObjRow := {
  name := "FW_SLOT_VERSION", index := 0xf004, count := 2, kind := .u32, isArray := true, lo := 0,
  hi := 4294967295, level := 2 }

/-- R451: `FW_ACTIVATE`. -/
def Obj.FW_ACTIVATE : ObjRow := {
  name := "FW_ACTIVATE", index := 0xf005, kind := .u8, access := .wo, lo := 1, hi := 1, effect := .now,
  owner := .chain, level := 2 }

/-- R451: `FW_CONFIRM`. -/
def Obj.FW_CONFIRM : ObjRow := {
  name := "FW_CONFIRM", index := 0xf006, kind := .u8, access := .wo, lo := 1, hi := 1, effect := .now,
  owner := .chain, level := 2 }

/-- R451: `FW_ROLLBACK_MIN`. -/
def Obj.FW_ROLLBACK_MIN : ObjRow := {
  name := "FW_ROLLBACK_MIN", index := 0xf007, kind := .u32, lo := 0, hi := 4294967295, level := 2 }

/-- R451: `SEC_KEY`. -/
def Obj.SEC_KEY : ObjRow := {
  name := "SEC_KEY", index := 0xf010, kind := .blob, access := .rws, lo := 0, hi := 100, effect := .now,
  owner := .secure, level := 3, stride := 0x1, blocks := 8 }

/-- R451: `SEC_UNSIGNED_POLICY`. -/
def Obj.SEC_UNSIGNED_POLICY : ObjRow := {
  name := "SEC_UNSIGNED_POLICY", index := 0xf018, kind := .u8, access := .rws, lo := 0, hi := 3,
  effect := .now, owner := .secure, level := 3 }

/-- R451: `SEC_NONCE`. -/
def Obj.SEC_NONCE : ObjRow := {
  name := "SEC_NONCE", index := 0xf019, kind := .blob, lo := 16, hi := 16, level := 2 }

/-- R451: `SEC_ACCESS_HASH`. -/
def Obj.SEC_ACCESS_HASH : ObjRow := {
  name := "SEC_ACCESS_HASH", index := 0xf01a, count := 3, kind := .blob, isArray := true, access := .rws,
  lo := 0, hi := 48, effect := .now, owner := .secure, level := 3 }

/-- R451: `SEC_UNLOCK_FAILS`. -/
def Obj.SEC_UNLOCK_FAILS : ObjRow := {
  name := "SEC_UNLOCK_FAILS", index := 0xf01b, kind := .u64, lo := 0, hi := 18446744073709551615, level := 2,
  counter := true }

/-- Rows of chapter 14, part 0. -/
def objectsChain0 : List ObjRow := [Obj.VENDOR_NAME, Obj.PRODUCT_NAME, Obj.ORDER_CODE, Obj.SILICON_REV,
  Obj.SERIAL_NUMBER, Obj.FW_VERSION, Obj.DEVICE_STATE, Obj.STATE_REQUEST, Obj.STATE_REFUSE_INDEX,
  Obj.STATE_REFUSE_TEXT, Obj.DEVICE_RESET, Obj.ERR_LAST, Obj.ERR_COUNT, Obj.ACCESS_CODE_CHAIN,
  Obj.ACCESS_UNLOCK_CHAIN, Obj.ACCESS_LEVEL_CHAIN, Obj.ACCESS_CODE_HOST, Obj.ACCESS_UNLOCK_HOST,
  Obj.ACCESS_LEVEL_HOST, Obj.OD_DIRECTORY, Obj.OD_OWNER_MAP, Obj.MER_STATION, Obj.MER_ALIAS,
  Obj.MER_ALIAS_ENABLE, Obj.MER_PORT_STATUS, Obj.MER_PORT_EXPECTED, Obj.MER_FWD_DELAY_NS,
  Obj.MER_TIME_REFERENCE, Obj.MER_PROP_DELAY_NS, Obj.MER_TIME_TIMEOUT_MS]

/-- Rows of chapter 14, part 1. -/
def objectsChain1 : List ObjRow := [Obj.MER_WATCHDOG_US, Obj.MER_FCS_ERRORS, Obj.MER_FORMAT_ERRORS,
  Obj.MER_LINK_LOSS, Obj.MER_CYCLIC_REFUSED, Obj.MAP_OUT, Obj.MAP_IN, Obj.MAP_OUT_BASE, Obj.MAP_IN_BASE,
  Obj.FW_IMAGE, Obj.FW_IMAGE_HOST, Obj.FW_STATUS, Obj.FW_REFUSE_CODE, Obj.FW_SLOT_VERSION, Obj.FW_ACTIVATE,
  Obj.FW_CONFIRM, Obj.FW_ROLLBACK_MIN, Obj.SEC_KEY, Obj.SEC_UNSIGNED_POLICY, Obj.SEC_NONCE,
  Obj.SEC_ACCESS_HASH, Obj.SEC_UNLOCK_FAILS]

/-! Objects of spec chapter 15. -/

/-- R478: `EV_STATUS`. -/
def Obj.EV_STATUS : ObjRow := {
  name := "EV_STATUS", index := 0xa000, kind := .u16, lo := 0, hi := 65535 }

/-- R478: `EV_CH_OWNER`. -/
def Obj.EV_CH_OWNER : ObjRow := {
  name := "EV_CH_OWNER", index := 0xa001, count := 64, kind := .u8, isArray := true, access := .rws,
  special := [(28, 1), (29, 1), (30, 1), (31, 1), (32, 1), (33, 1), (34, 1), (35, 1), (36, 1), (37, 1), (38, 1), (39, 1), (40, 1), (41, 1), (42, 1), (43, 1), (44, 1), (45, 1), (46, 1), (47, 1), (48, 1), (49, 1), (50, 1), (51, 1), (52, 1), (53, 1), (54, 1), (55, 1), (56, 2), (57, 2), (58, 2), (59, 2), (60, 2), (61, 2), (62, 2), (63, 2)],
  lo := 0, hi := 3, effect := .now, owner := .secure, level := 3 }

/-- R478: `EV_CH_SECURE`. -/
def Obj.EV_CH_SECURE : ObjRow := {
  name := "EV_CH_SECURE", index := 0xa002, count := 64, kind := .bool, isArray := true, access := .rws,
  lo := 0, hi := 1, effect := .now, owner := .secure, level := 3 }

/-- R478: `EV_CH_STATE`. -/
def Obj.EV_CH_STATE : ObjRow := {
  name := "EV_CH_STATE", index := 0xa003, count := 64, kind := .u8, isArray := true, lo := 0, hi := 2 }

/-- R478: `EV_CH_FIRED`. -/
def Obj.EV_CH_FIRED : ObjRow := {
  name := "EV_CH_FIRED", index := 0xa004, count := 64, kind := .u64, isArray := true, access := .rw, lo := 0,
  hi := 18446744073709551615, effect := .now, owner := .host, counter := true }

/-- R478: `EV_CH_LIMITED`. -/
def Obj.EV_CH_LIMITED : ObjRow := {
  name := "EV_CH_LIMITED", index := 0xa005, count := 64, kind := .u64, isArray := true, access := .rw,
  lo := 0, hi := 18446744073709551615, effect := .now, owner := .host, counter := true }

/-- R478: `EV_CH_GATED`. -/
def Obj.EV_CH_GATED : ObjRow := {
  name := "EV_CH_GATED", index := 0xa006, count := 64, kind := .u64, isArray := true, access := .rw, lo := 0,
  hi := 18446744073709551615, effect := .now, owner := .host, counter := true }

/-- R478: `EV_CH_LOOP`. -/
def Obj.EV_CH_LOOP : ObjRow := {
  name := "EV_CH_LOOP", index := 0xa007, count := 64, kind := .u64, isArray := true, access := .rw, lo := 0,
  hi := 18446744073709551615, effect := .now, owner := .host, counter := true }

/-- R478: `EV_TASK_ACTIVATIONS`. -/
def Obj.EV_TASK_ACTIVATIONS : ObjRow := {
  name := "EV_TASK_ACTIVATIONS", index := 0xa008, count := 96, kind := .u64, isArray := true, access := .rw,
  lo := 0, hi := 18446744073709551615, effect := .now, owner := .host, counter := true }

/-- R478: `EV_TASK_MERGED`. -/
def Obj.EV_TASK_MERGED : ObjRow := {
  name := "EV_TASK_MERGED", index := 0xa009, count := 96, kind := .u64, isArray := true, access := .rw,
  lo := 0, hi := 18446744073709551615, effect := .now, owner := .host, counter := true }

/-- R478: `EV_SOURCE_LEVEL`. -/
def Obj.EV_SOURCE_LEVEL : ObjRow := {
  name := "EV_SOURCE_LEVEL", index := 0xa00a, count := 4, kind := .u32, isArray := true,
  special := [(2, 15), (3, 2147483648)], lo := 0, hi := 4294967295 }

/-- R478: `EV_EVENT_LIST`. -/
def Obj.EV_EVENT_LIST : ObjRow := {
  name := "EV_EVENT_LIST", index := 0xa00b, kind := .blob, lo := 0, hi := 65535 }

/-- R478: `EV_PIN_MODE`. -/
def Obj.EV_PIN_MODE : ObjRow := {
  name := "EV_PIN_MODE", index := 0xa010, count := 8, kind := .u8, isArray := true, access := .rwp, lo := 0,
  hi := 255, allowed := [0, 1, 2, 128, 129, 130], effect := .preop }

/-- R478: `EV_PIN_FILTER_NS`. -/
def Obj.EV_PIN_FILTER_NS : ObjRow := {
  name := "EV_PIN_FILTER_NS", index := 0xa011, count := 8, kind := .u32, isArray := true, access := .rw,
  dflt := 100, lo := 0, hi := 1000000, effect := .now }

/-- R478: `EV_PIN_PULSE_NS`. -/
def Obj.EV_PIN_PULSE_NS : ObjRow := {
  name := "EV_PIN_PULSE_NS", index := 0xa012, count := 8, kind := .u32, isArray := true, access := .rw,
  dflt := 1000, lo := 20, hi := 100000000, effect := .now }

/-- R478: `EV_PIN_WAKE`. -/
def Obj.EV_PIN_WAKE : ObjRow := {
  name := "EV_PIN_WAKE", index := 0xa013, kind := .u8, access := .rwp, lo := 0, hi := 255, effect := .preop }

/-- R478: `EV_TIMER_PERIOD_NS`. -/
def Obj.EV_TIMER_PERIOD_NS : ObjRow := {
  name := "EV_TIMER_PERIOD_NS", index := 0xa018, count := 8, kind := .u32, isArray := true, access := .rw,
  lo := 0, hi := 4000000000, effect := .now }

/-- R478: `EV_TIMER_PHASE_NS`. -/
def Obj.EV_TIMER_PHASE_NS : ObjRow := {
  name := "EV_TIMER_PHASE_NS", index := 0xa019, count := 8, kind := .u32, isArray := true, access := .rw,
  lo := 0, hi := 4294967295, effect := .now }

/-- R478: `EV_CAPTURE_TIME`. -/
def Obj.EV_CAPTURE_TIME : ObjRow := {
  name := "EV_CAPTURE_TIME", index := 0xa01a, count := 8, kind := .u64, isArray := true, lo := 0,
  hi := 18446744073709551615, owner := .host }

/-- R478: `EV_CH_CONFIG`. -/
def Obj.EV_CH_CONFIG : ObjRow := {
  name := "EV_CH_CONFIG", index := 0xa100, kind := .u64, access := .rw, dflt := 4398046494720, lo := 0,
  hi := 18446744073709551615, effect := .now, owner := .channel, stride := 0x1, blocks := 64 }

/-- R480: `TW_STATUS`. -/
def Obj.TW_STATUS : ObjRow := {
  name := "TW_STATUS", index := 0xa040, count := 3, kind := .u16, isArray := true, lo := 0, hi := 65535,
  owner := .host }

/-- R480: `TW0_SPEED_KHZ`. -/
def Obj.TW0_SPEED_KHZ : ObjRow := {
  name := "TW0_SPEED_KHZ", index := 0xa041, kind := .u16, access := .rwp, dflt := 400, lo := 100, hi := 1000,
  allowed := [100, 400, 1000], effect := .preop, owner := .host }

/-- R480: `TW_STRETCH_TIMEOUT_MS`. -/
def Obj.TW_STRETCH_TIMEOUT_MS : ObjRow := {
  name := "TW_STRETCH_TIMEOUT_MS", index := 0xa042, count := 3, kind := .u8, isArray := true, access := .rw,
  dflt := 25, lo := 1, hi := 100, effect := .now, owner := .host }

/-- R480: `TW_AUTO_CLEAR`. -/
def Obj.TW_AUTO_CLEAR : ObjRow := {
  name := "TW_AUTO_CLEAR", index := 0xa043, count := 2, kind := .bool, isArray := true, access := .rw,
  dflt := 1, lo := 0, hi := 1, effect := .now, owner := .host }

/-- R480: `TW_CLR_US`. -/
def Obj.TW_CLR_US : ObjRow := {
  name := "TW_CLR_US", index := 0xa044, count := 2, kind := .u16, isArray := true, access := .rw, dflt := 100,
  lo := 10, hi := 10000, effect := .now, owner := .host }

/-- R480: `TW_RETRIES`. -/
def Obj.TW_RETRIES : ObjRow := {
  name := "TW_RETRIES", index := 0xa045, count := 2, kind := .u8, isArray := true, access := .rw, dflt := 3,
  lo := 0, hi := 15, effect := .now, owner := .host }

/-- R480: `TW_STRETCH_TIMEOUTS`. -/
def Obj.TW_STRETCH_TIMEOUTS : ObjRow := {
  name := "TW_STRETCH_TIMEOUTS", index := 0xa046, count := 3, kind := .u64, isArray := true, access := .rw,
  lo := 0, hi := 18446744073709551615, effect := .now, owner := .host, counter := true }

/-- R480: `TW_BUS_ERRORS`. -/
def Obj.TW_BUS_ERRORS : ObjRow := {
  name := "TW_BUS_ERRORS", index := 0xa047, count := 3, kind := .u64, isArray := true, access := .rw, lo := 0,
  hi := 18446744073709551615, effect := .now, owner := .host, counter := true }

/-- R480: `TW_ARB_LOST`. -/
def Obj.TW_ARB_LOST : ObjRow := {
  name := "TW_ARB_LOST", index := 0xa048, count := 2, kind := .u64, isArray := true, access := .rw, lo := 0,
  hi := 18446744073709551615, effect := .now, owner := .host, counter := true }

/-- R480: `TW_NACKS`. -/
def Obj.TW_NACKS : ObjRow := {
  name := "TW_NACKS", index := 0xa049, count := 3, kind := .u64, isArray := true, access := .rw, lo := 0,
  hi := 18446744073709551615, effect := .now, owner := .host, counter := true }

/-- R480: `TW_ARB_LAST_BIT`. -/
def Obj.TW_ARB_LAST_BIT : ObjRow := {
  name := "TW_ARB_LAST_BIT", index := 0xa04a, count := 2, kind := .u16, isArray := true, lo := 0, hi := 65535,
  owner := .host }

/-- R480: `TW0_POCXP_MAP`. -/
def Obj.TW0_POCXP_MAP : ObjRow := {
  name := "TW0_POCXP_MAP", index := 0xa050, count := 12, kind := .u32, isArray := true, access := .rwp,
  dflt := 16, lo := 0, hi := 4294967295, effect := .preop, owner := .host }

/-- R480: `TW0_POLL_US`. -/
def Obj.TW0_POLL_US : ObjRow := {
  name := "TW0_POLL_US", index := 0xa051, kind := .u16, access := .rwp, dflt := 1000, lo := 100, hi := 10000,
  effect := .preop, owner := .host }

/-- R480: `TW0_POCXP_STATE`. -/
def Obj.TW0_POCXP_STATE : ObjRow := {
  name := "TW0_POCXP_STATE", index := 0xa052, kind := .u16, lo := 0, hi := 65535, owner := .host }

/-- R480: `TW0_POLL_FAILS`. -/
def Obj.TW0_POLL_FAILS : ObjRow := {
  name := "TW0_POLL_FAILS", index := 0xa053, kind := .u64, access := .rw, lo := 0, hi := 18446744073709551615,
  effect := .now, owner := .host, counter := true }

/-- R480: `TW0_XFER_ADDR`. -/
def Obj.TW0_XFER_ADDR : ObjRow := {
  name := "TW0_XFER_ADDR", index := 0xa058, kind := .u8, access := .rw, lo := 0, hi := 127, effect := .now,
  owner := .host }

/-- R480: `TW0_XFER_WRITE`. -/
def Obj.TW0_XFER_WRITE : ObjRow := {
  name := "TW0_XFER_WRITE", index := 0xa059, kind := .blob, access := .rw, lo := 0, hi := 32, effect := .now,
  owner := .host }

/-- R480: `TW0_XFER_READ_LEN`. -/
def Obj.TW0_XFER_READ_LEN : ObjRow := {
  name := "TW0_XFER_READ_LEN", index := 0xa05a, kind := .u8, access := .rw, lo := 0, hi := 32, effect := .now,
  owner := .host }

/-- R480: `TW0_XFER_CMD`. -/
def Obj.TW0_XFER_CMD : ObjRow := {
  name := "TW0_XFER_CMD", index := 0xa05b, kind := .u8, access := .wo, lo := 1, hi := 1, effect := .now,
  owner := .host }

/-- R480: `TW0_XFER_STATUS`. -/
def Obj.TW0_XFER_STATUS : ObjRow := {
  name := "TW0_XFER_STATUS", index := 0xa05c, kind := .u8, lo := 0, hi := 7, owner := .host }

/-- R480: `TW0_XFER_DATA`. -/
def Obj.TW0_XFER_DATA : ObjRow := {
  name := "TW0_XFER_DATA", index := 0xa05d, kind := .blob, lo := 0, hi := 32, owner := .host }

/-- R480: `TW2_ADDR`. -/
def Obj.TW2_ADDR : ObjRow := {
  name := "TW2_ADDR", index := 0xa060, kind := .u8, access := .rwp, dflt := 74, lo := 8, hi := 119,
  effect := .preop, owner := .chain }

/-- R480: `TW2_WAKES`. -/
def Obj.TW2_WAKES : ObjRow := {
  name := "TW2_WAKES", index := 0xa061, kind := .u64, access := .rw, lo := 0, hi := 18446744073709551615,
  effect := .now, owner := .host, counter := true }

/-- Rows of chapter 15, part 0. -/
def objectsLattice0 : List ObjRow := [Obj.EV_STATUS, Obj.EV_CH_OWNER, Obj.EV_CH_SECURE, Obj.EV_CH_STATE,
  Obj.EV_CH_FIRED, Obj.EV_CH_LIMITED, Obj.EV_CH_GATED, Obj.EV_CH_LOOP, Obj.EV_TASK_ACTIVATIONS,
  Obj.EV_TASK_MERGED, Obj.EV_SOURCE_LEVEL, Obj.EV_EVENT_LIST, Obj.EV_PIN_MODE, Obj.EV_PIN_FILTER_NS,
  Obj.EV_PIN_PULSE_NS, Obj.EV_PIN_WAKE, Obj.EV_TIMER_PERIOD_NS, Obj.EV_TIMER_PHASE_NS, Obj.EV_CAPTURE_TIME,
  Obj.EV_CH_CONFIG, Obj.TW_STATUS, Obj.TW0_SPEED_KHZ, Obj.TW_STRETCH_TIMEOUT_MS, Obj.TW_AUTO_CLEAR,
  Obj.TW_CLR_US, Obj.TW_RETRIES, Obj.TW_STRETCH_TIMEOUTS, Obj.TW_BUS_ERRORS, Obj.TW_ARB_LOST, Obj.TW_NACKS]

/-- Rows of chapter 15, part 1. -/
def objectsLattice1 : List ObjRow := [Obj.TW_ARB_LAST_BIT, Obj.TW0_POCXP_MAP, Obj.TW0_POLL_US,
  Obj.TW0_POCXP_STATE, Obj.TW0_POLL_FAILS, Obj.TW0_XFER_ADDR, Obj.TW0_XFER_WRITE, Obj.TW0_XFER_READ_LEN,
  Obj.TW0_XFER_CMD, Obj.TW0_XFER_STATUS, Obj.TW0_XFER_DATA, Obj.TW2_ADDR, Obj.TW2_WAKES]

/-! Objects of spec chapter 16. -/

/-- R499: `AM_STATUS`. -/
def Obj.AM_STATUS : ObjRow := {
  name := "AM_STATUS", index := 0x8000, count := 16, kind := .u16, isArray := true, lo := 0, hi := 65535 }

/-- R499: `AM_ENABLE`. -/
def Obj.AM_ENABLE : ObjRow := {
  name := "AM_ENABLE", index := 0x8001, count := 16, kind := .bool, isArray := true, access := .rwp, lo := 0,
  hi := 1, effect := .preop }

/-- R499: `AM_RANK`. -/
def Obj.AM_RANK : ObjRow := {
  name := "AM_RANK", index := 0x8002, count := 16, kind := .u8, isArray := true, access := .rwp, dflt := 5,
  lo := 1, hi := 7, allowed := [1, 3, 5, 7], effect := .preop }

/-- R499: `AM_CIC_ORDER`. -/
def Obj.AM_CIC_ORDER : ObjRow := {
  name := "AM_CIC_ORDER", index := 0x8003, count := 16, kind := .u8, isArray := true, access := .rwp,
  dflt := 4, lo := 3, hi := 5, effect := .preop }

/-- R499: `AM_CIC_LOG2R`. -/
def Obj.AM_CIC_LOG2R : ObjRow := {
  name := "AM_CIC_LOG2R", index := 0x8004, count := 16, kind := .u8, isArray := true, access := .rwp,
  dflt := 6, lo := 4, hi := 10, effect := .preop }

/-- R499: `AM_FIR_MODE`. -/
def Obj.AM_FIR_MODE : ObjRow := {
  name := "AM_FIR_MODE", index := 0x8005, count := 16, kind := .u8, isArray := true, access := .rwp,
  dflt := 1, lo := 0, hi := 3, effect := .preop }

/-- R499: `AM_SCALE`. -/
def Obj.AM_SCALE : ObjRow := {
  name := "AM_SCALE", index := 0x8006, count := 16, kind := .i32, isArray := true, access := .rw,
  dflt := 65536, lo := (-2147483648), hi := 2147483647, effect := .now }

/-- R499: `AM_OFFSET`. -/
def Obj.AM_OFFSET : ObjRow := {
  name := "AM_OFFSET", index := 0x8007, count := 16, kind := .i32, isArray := true, access := .rw,
  lo := (-2147483648), hi := 2147483647, effect := .now }

/-- R499: `AM_RAW`. -/
def Obj.AM_RAW : ObjRow := {
  name := "AM_RAW", index := 0x8008, count := 16, kind := .i32, isArray := true, lo := (-2147483648),
  hi := 2147483647 }

/-- R499: `AM_VALUE`. -/
def Obj.AM_VALUE : ObjRow := {
  name := "AM_VALUE", index := 0x8009, count := 16, kind := .i32, isArray := true, lo := (-2147483648),
  hi := 2147483647 }

/-- R499: `AM_OVERLOADS`. -/
def Obj.AM_OVERLOADS : ObjRow := {
  name := "AM_OVERLOADS", index := 0x800a, count := 16, kind := .u64, isArray := true, access := .rw, lo := 0,
  hi := 18446744073709551615, effect := .now, counter := true }

/-- R499: `AM_OUT_RATE`. -/
def Obj.AM_OUT_RATE : ObjRow := {
  name := "AM_OUT_RATE", index := 0x800b, count := 16, kind := .u32, isArray := true, lo := 0,
  hi := 4294967295 }

/-- R499: `AM_DELAY_NS`. -/
def Obj.AM_DELAY_NS : ObjRow := {
  name := "AM_DELAY_NS", index := 0x800c, count := 16, kind := .u32, isArray := true, lo := 0,
  hi := 4294967295 }

/-- R499: `AM_BLOCK_SAMPLES`. -/
def Obj.AM_BLOCK_SAMPLES : ObjRow := {
  name := "AM_BLOCK_SAMPLES", index := 0x8010, count := 16, kind := .u16, isArray := true, access := .rw,
  dflt := 1024, lo := 16, hi := 65535, effect := .now }

/-- R499: `AM_BLK_MAX`. -/
def Obj.AM_BLK_MAX : ObjRow := {
  name := "AM_BLK_MAX", index := 0x8011, count := 16, kind := .i32, isArray := true, lo := (-2147483648),
  hi := 2147483647 }

/-- R499: `AM_BLK_MIN`. -/
def Obj.AM_BLK_MIN : ObjRow := {
  name := "AM_BLK_MIN", index := 0x8012, count := 16, kind := .i32, isArray := true, lo := (-2147483648),
  hi := 2147483647 }

/-- R499: `AM_BLK_MEAN`. -/
def Obj.AM_BLK_MEAN : ObjRow := {
  name := "AM_BLK_MEAN", index := 0x8013, count := 16, kind := .i32, isArray := true, lo := (-2147483648),
  hi := 2147483647 }

/-- R499: `AM_BLK_RMS`. -/
def Obj.AM_BLK_RMS : ObjRow := {
  name := "AM_BLK_RMS", index := 0x8014, count := 16, kind := .u32, isArray := true, lo := 0, hi := 4294967295
  }

/-- R499: `AM_BLK_INDEX`. -/
def Obj.AM_BLK_INDEX : ObjRow := {
  name := "AM_BLK_INDEX", index := 0x8015, count := 16, kind := .u64, isArray := true, lo := 0,
  hi := 18446744073709551615 }

/-- R499: `AM_ENV_RELEASE_SHIFT`. -/
def Obj.AM_ENV_RELEASE_SHIFT : ObjRow := {
  name := "AM_ENV_RELEASE_SHIFT", index := 0x8016, count := 8, kind := .u8, isArray := true, access := .rw,
  dflt := 10, lo := 1, hi := 20, effect := .now }

/-- R499: `AM_ENV`. -/
def Obj.AM_ENV : ObjRow := {
  name := "AM_ENV", index := 0x8017, count := 8, kind := .i32, isArray := true, lo := (-2147483648),
  hi := 2147483647 }

/-- R499: `AM_PEAK_HOLD_MAX`. -/
def Obj.AM_PEAK_HOLD_MAX : ObjRow := {
  name := "AM_PEAK_HOLD_MAX", index := 0x8018, count := 8, kind := .i32, isArray := true, lo := (-2147483648),
  hi := 2147483647 }

/-- R499: `AM_PEAK_HOLD_MIN`. -/
def Obj.AM_PEAK_HOLD_MIN : ObjRow := {
  name := "AM_PEAK_HOLD_MIN", index := 0x8019, count := 8, kind := .i32, isArray := true, lo := (-2147483648),
  hi := 2147483647 }

/-- R499: `AM_PEAK_CLEAR`. -/
def Obj.AM_PEAK_CLEAR : ObjRow := {
  name := "AM_PEAK_CLEAR", index := 0x801a, kind := .u8, access := .wo, lo := 0, hi := 255, effect := .now }

/-- R499: `AM_DC_SHIFT`. -/
def Obj.AM_DC_SHIFT : ObjRow := {
  name := "AM_DC_SHIFT", index := 0x8020, count := 8, kind := .u8, isArray := true, access := .rw, dflt := 12,
  lo := 4, hi := 20, effect := .now }

/-- R499: `AM_FREEZE_LINKS`. -/
def Obj.AM_FREEZE_LINKS : ObjRow := {
  name := "AM_FREEZE_LINKS", index := 0x8021, kind := .u32, access := .rw, dflt := 4294967295, lo := 0,
  hi := 4294967295, effect := .now }

/-- R499: `AM_FREEZE_US`. -/
def Obj.AM_FREEZE_US : ObjRow := {
  name := "AM_FREEZE_US", index := 0x8022, kind := .u16, access := .rw, dflt := 2000, lo := 0, hi := 20000,
  effect := .now }

/-- R499: `AM_FREEZE_MAX_MS`. -/
def Obj.AM_FREEZE_MAX_MS : ObjRow := {
  name := "AM_FREEZE_MAX_MS", index := 0x8023, kind := .u16, access := .rw, dflt := 500, lo := 10,
  hi := 10000, effect := .now }

/-- R499: `AM_DC`. -/
def Obj.AM_DC : ObjRow := {
  name := "AM_DC", index := 0x8024, count := 8, kind := .i32, isArray := true, lo := (-2147483648),
  hi := 2147483647 }

/-- R499: `AM_DC_FORCED`. -/
def Obj.AM_DC_FORCED : ObjRow := {
  name := "AM_DC_FORCED", index := 0x8025, count := 8, kind := .u64, isArray := true, access := .rw, lo := 0,
  hi := 18446744073709551615, effect := .now, counter := true }

/-- R499: `AM_PRESS_LOW`. -/
def Obj.AM_PRESS_LOW : ObjRow := {
  name := "AM_PRESS_LOW", index := 0x8030, kind := .i32, access := .rw, lo := (-2147483648), hi := 2147483647,
  effect := .now }

/-- R499: `AM_PRESS_HYST`. -/
def Obj.AM_PRESS_HYST : ObjRow := {
  name := "AM_PRESS_HYST", index := 0x8031, kind := .i32, access := .rw, lo := 0, hi := 2147483647,
  effect := .now }

/-- R499: `AM_PRESS_COUNT`. -/
def Obj.AM_PRESS_COUNT : ObjRow := {
  name := "AM_PRESS_COUNT", index := 0x8032, kind := .u8, access := .rw, dflt := 4, lo := 1, hi := 64,
  effect := .now }

/-- R499: `AM_FIR_USER`. -/
def Obj.AM_FIR_USER : ObjRow := {
  name := "AM_FIR_USER", index := 0x8040, count := 63, kind := .i32, isArray := true, access := .rwp,
  lo := (-2147483648), hi := 2147483647, effect := .preop, stride := 0x1, blocks := 16 }

/-- Rows of chapter 16, part 0. -/
def objectsMonitor0 : List ObjRow := [Obj.AM_STATUS, Obj.AM_ENABLE, Obj.AM_RANK, Obj.AM_CIC_ORDER,
  Obj.AM_CIC_LOG2R, Obj.AM_FIR_MODE, Obj.AM_SCALE, Obj.AM_OFFSET, Obj.AM_RAW, Obj.AM_VALUE, Obj.AM_OVERLOADS,
  Obj.AM_OUT_RATE, Obj.AM_DELAY_NS, Obj.AM_BLOCK_SAMPLES, Obj.AM_BLK_MAX, Obj.AM_BLK_MIN, Obj.AM_BLK_MEAN,
  Obj.AM_BLK_RMS, Obj.AM_BLK_INDEX, Obj.AM_ENV_RELEASE_SHIFT, Obj.AM_ENV, Obj.AM_PEAK_HOLD_MAX,
  Obj.AM_PEAK_HOLD_MIN, Obj.AM_PEAK_CLEAR, Obj.AM_DC_SHIFT, Obj.AM_FREEZE_LINKS, Obj.AM_FREEZE_US,
  Obj.AM_FREEZE_MAX_MS, Obj.AM_DC, Obj.AM_DC_FORCED]

/-- Rows of chapter 16, part 1. -/
def objectsMonitor1 : List ObjRow := [Obj.AM_PRESS_LOW, Obj.AM_PRESS_HYST, Obj.AM_PRESS_COUNT,
  Obj.AM_FIR_USER]

/-! Objects of spec chapter 17. -/

/-- R516: `CH_STATUS`. -/
def Obj.CH_STATUS : ObjRow := {
  name := "CH_STATUS", index := 0xd000, count := 2, kind := .u16, isArray := true, lo := 0, hi := 65535 }

/-- R516: `CH_ENABLE`. -/
def Obj.CH_ENABLE : ObjRow := {
  name := "CH_ENABLE", index := 0xd001, count := 2, kind := .bool, isArray := true, access := .rwp, dflt := 1,
  lo := 0, hi := 1, effect := .preop }

/-- R516: `CH_RATE_MAX`. -/
def Obj.CH_RATE_MAX : ObjRow := {
  name := "CH_RATE_MAX", index := 0xd002, count := 2, kind := .u8, isArray := true, access := .rwp,
  dflt := 32, lo := 16, hi := 32, allowed := [16, 32], effect := .preop }

/-- R516: `CH_EYE_MIN`. -/
def Obj.CH_EYE_MIN : ObjRow := {
  name := "CH_EYE_MIN", index := 0xd003, kind := .u16, access := .rwp, dflt := 24, lo := 8, hi := 200,
  effect := .preop }

/-- R516: `CH_TAPS`. -/
def Obj.CH_TAPS : ObjRow := {
  name := "CH_TAPS", index := 0xd004, count := 16, kind := .u32, isArray := true, lo := 0, hi := 4294967295 }

/-- R516: `CH_RETRY_LIMIT`. -/
def Obj.CH_RETRY_LIMIT : ObjRow := {
  name := "CH_RETRY_LIMIT", index := 0xd005, kind := .u8, access := .rwp, dflt := 8, lo := 2, hi := 64,
  effect := .preop }

/-- R516: `CH_L0S_NS`. -/
def Obj.CH_L0S_NS : ObjRow := {
  name := "CH_L0S_NS", index := 0xd006, kind := .u32, access := .rw, dflt := 1000, lo := 200, hi := 1000000,
  effect := .now }

/-- R516: `CH_L1_MS`. -/
def Obj.CH_L1_MS : ObjRow := {
  name := "CH_L1_MS", index := 0xd007, kind := .u16, access := .rw, dflt := 100, lo := 0, hi := 60000,
  effect := .now }

/-- R516: `CH_INJECT`. -/
def Obj.CH_INJECT : ObjRow := {
  name := "CH_INJECT", index := 0xd008, count := 2, kind := .u16, isArray := true, access := .rw, lo := 0,
  hi := 65535, effect := .now, level := 2 }

/-- R516: `CH_CRC_ERRORS`. -/
def Obj.CH_CRC_ERRORS : ObjRow := {
  name := "CH_CRC_ERRORS", index := 0xd010, count := 2, kind := .u64, isArray := true, access := .rw, lo := 0,
  hi := 18446744073709551615, effect := .now, counter := true }

/-- R516: `CH_RETRIES`. -/
def Obj.CH_RETRIES : ObjRow := {
  name := "CH_RETRIES", index := 0xd011, count := 2, kind := .u64, isArray := true, access := .rw, lo := 0,
  hi := 18446744073709551615, effect := .now, counter := true }

/-- R516: `CH_LINK_LOSS`. -/
def Obj.CH_LINK_LOSS : ObjRow := {
  name := "CH_LINK_LOSS", index := 0xd012, count := 2, kind := .u64, isArray := true, access := .rw, lo := 0,
  hi := 18446744073709551615, effect := .now, counter := true }

/-- R516: `CH_INJECTED`. -/
def Obj.CH_INJECTED : ObjRow := {
  name := "CH_INJECTED", index := 0xd013, count := 2, kind := .u64, isArray := true, access := .rw, lo := 0,
  hi := 18446744073709551615, effect := .now, counter := true }

/-- R516: `CH_BYTES_SENT`. -/
def Obj.CH_BYTES_SENT : ObjRow := {
  name := "CH_BYTES_SENT", index := 0xd014, count := 10, kind := .u64, isArray := true, access := .rw,
  lo := 0, hi := 18446744073709551615, effect := .now, counter := true }

/-- R517: `LN_PATTERN`. -/
def Obj.LN_PATTERN : ObjRow := {
  name := "LN_PATTERN", index := 0xe000, count := 80, kind := .u8, isArray := true, access := .rw, lo := 0,
  hi := 6, effect := .now, level := 2 }

/-- R517: `LN_USER_WORD`. -/
def Obj.LN_USER_WORD : ObjRow := {
  name := "LN_USER_WORD", index := 0xe001, count := 80, kind := .u32, isArray := true, access := .rw, lo := 0,
  hi := 4294967295, effect := .now, level := 2 }

/-- R517: `LN_LOOPBACK`. -/
def Obj.LN_LOOPBACK : ObjRow := {
  name := "LN_LOOPBACK", index := 0xe002, count := 80, kind := .bool, isArray := true, access := .rw, lo := 0,
  hi := 1, effect := .now, level := 2 }

/-- R517: `LN_INJECT`. -/
def Obj.LN_INJECT : ObjRow := {
  name := "LN_INJECT", index := 0xe003, count := 80, kind := .u8, isArray := true, access := .rw, lo := 0,
  hi := 40,
  allowed := [0, 10, 11, 12, 13, 14, 15, 16, 17, 18, 19, 20, 21, 22, 23, 24, 25, 26, 27, 28, 29, 30, 31, 32, 33, 34, 35, 36, 37, 38, 39, 40],
  effect := .now, level := 2 }

/-- R517: `LN_LOCKED`. -/
def Obj.LN_LOCKED : ObjRow := {
  name := "LN_LOCKED", index := 0xe004, count := 80, kind := .bool, isArray := true, lo := 0, hi := 1,
  level := 2 }

/-- R517: `LN_BITS`. -/
def Obj.LN_BITS : ObjRow := {
  name := "LN_BITS", index := 0xe005, count := 80, kind := .u64, isArray := true, access := .rw, lo := 0,
  hi := 18446744073709551615, effect := .now, level := 2, counter := true }

/-- R517: `LN_ERRORS`. -/
def Obj.LN_ERRORS : ObjRow := {
  name := "LN_ERRORS", index := 0xe006, count := 80, kind := .u64, isArray := true, access := .rw, lo := 0,
  hi := 18446744073709551615, effect := .now, level := 2, counter := true }

/-- R517: `LN_RESYNC`. -/
def Obj.LN_RESYNC : ObjRow := {
  name := "LN_RESYNC", index := 0xe007, count := 80, kind := .u64, isArray := true, access := .rw, lo := 0,
  hi := 18446744073709551615, effect := .now, level := 2, counter := true }

/-- R517: `LN_INJECTED`. -/
def Obj.LN_INJECTED : ObjRow := {
  name := "LN_INJECTED", index := 0xe008, count := 80, kind := .u64, isArray := true, access := .rw, lo := 0,
  hi := 18446744073709551615, effect := .now, level := 2, counter := true }

/-- R517: `LN_EYE`. -/
def Obj.LN_EYE : ObjRow := {
  name := "LN_EYE", index := 0xe009, count := 80, kind := .u32, isArray := true, lo := 0, hi := 4294967295,
  level := 2 }

/-- Rows of chapter 17, part 0. -/
def objectsChord0 : List ObjRow := [Obj.CH_STATUS, Obj.CH_ENABLE, Obj.CH_RATE_MAX, Obj.CH_EYE_MIN,
  Obj.CH_TAPS, Obj.CH_RETRY_LIMIT, Obj.CH_L0S_NS, Obj.CH_L1_MS, Obj.CH_INJECT, Obj.CH_CRC_ERRORS,
  Obj.CH_RETRIES, Obj.CH_LINK_LOSS, Obj.CH_INJECTED, Obj.CH_BYTES_SENT, Obj.LN_PATTERN, Obj.LN_USER_WORD,
  Obj.LN_LOOPBACK, Obj.LN_INJECT, Obj.LN_LOCKED, Obj.LN_BITS, Obj.LN_ERRORS, Obj.LN_RESYNC, Obj.LN_INJECTED,
  Obj.LN_EYE]

/-! Objects of spec chapter 18. -/

/-- R540: `CAL_STATUS`. -/
def Obj.CAL_STATUS : ObjRow := {
  name := "CAL_STATUS", index := 0xc000, kind := .u16, lo := 0, hi := 65535 }

/-- R540: `CAL_REQUEST`. -/
def Obj.CAL_REQUEST : ObjRow := {
  name := "CAL_REQUEST", index := 0xc001, kind := .u32, access := .wo, lo := 0, hi := 4294967295,
  effect := .now }

/-- R540: `CAL_QUEUE_USED`. -/
def Obj.CAL_QUEUE_USED : ObjRow := {
  name := "CAL_QUEUE_USED", index := 0xc002, kind := .u8, lo := 0, hi := 16 }

/-- R540: `CAL_DEADLINE_MS`. -/
def Obj.CAL_DEADLINE_MS : ObjRow := {
  name := "CAL_DEADLINE_MS", index := 0xc003, kind := .u32, access := .rw, dflt := 60000, lo := 100,
  hi := 3600000, effect := .now }

/-- R540: `CAL_LAST`. -/
def Obj.CAL_LAST : ObjRow := {
  name := "CAL_LAST", index := 0xc004, count := 7, kind := .record, lo := 0, hi := 18446744073709551615 }

/-- R540: `CAL_DONE`. -/
def Obj.CAL_DONE : ObjRow := {
  name := "CAL_DONE", index := 0xc005, count := 8, kind := .u64, isArray := true, access := .rw, lo := 0,
  hi := 18446744073709551615, effect := .now, counter := true }

/-- R540: `CAL_REJECTS`. -/
def Obj.CAL_REJECTS : ObjRow := {
  name := "CAL_REJECTS", index := 0xc006, count := 8, kind := .u64, isArray := true, access := .rw, lo := 0,
  hi := 18446744073709551615, effect := .now, counter := true }

/-- R540: `CAL_STARVED_COUNT`. -/
def Obj.CAL_STARVED_COUNT : ObjRow := {
  name := "CAL_STARVED_COUNT", index := 0xc007, count := 8, kind := .u64, isArray := true, access := .rw,
  lo := 0, hi := 18446744073709551615, effect := .now, counter := true }

/-- R540: `CAL_LINES_COST`. -/
def Obj.CAL_LINES_COST : ObjRow := {
  name := "CAL_LINES_COST", index := 0xc008, kind := .u64, access := .rw, lo := 0, hi := 18446744073709551615,
  effect := .now, counter := true }

/-- R540: `CAL_PLATE_LINES`. -/
def Obj.CAL_PLATE_LINES : ObjRow := {
  name := "CAL_PLATE_LINES", index := 0xc010, kind := .u16, access := .rw, dflt := 4096, lo := 64,
  hi := 65535, effect := .now }

/-- R540: `CAL_PLATE_TOL`. -/
def Obj.CAL_PLATE_TOL : ObjRow := {
  name := "CAL_PLATE_TOL", index := 0xc011, kind := .u16, access := .rw, dflt := 51, lo := 1, hi := 512,
  effect := .now }

/-- R540: `CAL_PLATE_BAD_MAX`. -/
def Obj.CAL_PLATE_BAD_MAX : ObjRow := {
  name := "CAL_PLATE_BAD_MAX", index := 0xc012, kind := .u16, access := .rw, dflt := 64, lo := 0, hi := 16384,
  effect := .now }

/-- R540: `CAL_LAT_AUTO`. -/
def Obj.CAL_LAT_AUTO : ObjRow := {
  name := "CAL_LAT_AUTO", index := 0xc018, kind := .bool, access := .rw, lo := 0, hi := 1, effect := .now }

/-- R540: `CAL_LAT_SAMPLES`. -/
def Obj.CAL_LAT_SAMPLES : ObjRow := {
  name := "CAL_LAT_SAMPLES", index := 0xc019, kind := .u8, access := .rw, dflt := 16, lo := 4, hi := 255,
  effect := .now }

/-- R540: `CAL_LAT_STEP_MAX`. -/
def Obj.CAL_LAT_STEP_MAX : ObjRow := {
  name := "CAL_LAT_STEP_MAX", index := 0xc01a, kind := .u32, access := .rw, dflt := 50000, lo := 1000,
  hi := 1000000, effect := .now }

/-- R540: `CAL_THRESH_STEP_NS`. -/
def Obj.CAL_THRESH_STEP_NS : ObjRow := {
  name := "CAL_THRESH_STEP_NS", index := 0xc01b, kind := .u32, access := .rw, dflt := 2000, lo := 20,
  hi := 100000, mult := 20, effect := .now }

/-- R540: `CAL_THRESH_CLEAR_NS`. -/
def Obj.CAL_THRESH_CLEAR_NS : ObjRow := {
  name := "CAL_THRESH_CLEAR_NS", index := 0xc01c, kind := .u32, access := .rw, dflt := 2000000, lo := 100000,
  hi := 100000000, effect := .now }

/-- R540: `CAL_AM_ROTATE_MS`. -/
def Obj.CAL_AM_ROTATE_MS : ObjRow := {
  name := "CAL_AM_ROTATE_MS", index := 0xc020, kind := .u16, access := .rw, dflt := 100, lo := 10,
  hi := 60000, effect := .now }

/-- R540: `CAL_VERNIER_CELLS`. -/
def Obj.CAL_VERNIER_CELLS : ObjRow := {
  name := "CAL_VERNIER_CELLS", index := 0xc021, count := 32, kind := .u32, isArray := true, dflt := 1048575,
  lo := 0, hi := 4294967295 }

/-- R540: `CAL_STORE_CMD`. -/
def Obj.CAL_STORE_CMD : ObjRow := {
  name := "CAL_STORE_CMD", index := 0xc030, kind := .u8, access := .wo, lo := 1, hi := 2, effect := .now }

/-- R540: `CAL_STORE_STATE`. -/
def Obj.CAL_STORE_STATE : ObjRow := {
  name := "CAL_STORE_STATE", index := 0xc031, kind := .u8, lo := 0, hi := 3 }

/-- R540: `CAL_STORE_AUTO`. -/
def Obj.CAL_STORE_AUTO : ObjRow := {
  name := "CAL_STORE_AUTO", index := 0xc032, kind := .bool, access := .rwp, dflt := 1, lo := 0, hi := 1,
  effect := .preop }

/-- R540: `CAL_STORE_SKIPPED`. -/
def Obj.CAL_STORE_SKIPPED : ObjRow := {
  name := "CAL_STORE_SKIPPED", index := 0xc033, kind := .u64, access := .rw, lo := 0,
  hi := 18446744073709551615, effect := .now, counter := true }

/-- R540: `BIST_REPAIRS`. -/
def Obj.BIST_REPAIRS : ObjRow := {
  name := "BIST_REPAIRS", index := 0xc100, count := 40, kind := .u16, isArray := true, lo := 0, hi := 65535 }

/-- R540: `BIST_SPARES_LEFT`. -/
def Obj.BIST_SPARES_LEFT : ObjRow := {
  name := "BIST_SPARES_LEFT", index := 0xc101, count := 40, kind := .u16, isArray := true, lo := 0,
  hi := 65535 }

/-- R540: `BIST_PIPE_RESULT`. -/
def Obj.BIST_PIPE_RESULT : ObjRow := {
  name := "BIST_PIPE_RESULT", index := 0xc102, count := 13, kind := .u8, isArray := true, lo := 0, hi := 4 }

/-- R541: `ALM_STATUS`. -/
def Obj.ALM_STATUS : ObjRow := {
  name := "ALM_STATUS", index := 0xc400, kind := .u16, lo := 0, hi := 65535, owner := .firmware }

/-- R541: `ALM_POWER_ON_HOURS`. -/
def Obj.ALM_POWER_ON_HOURS : ObjRow := {
  name := "ALM_POWER_ON_HOURS", index := 0xc401, kind := .u64, lo := 0, hi := 18446744073709551615,
  owner := .firmware, counter := true }

/-- R541: `ALM_SAVES`. -/
def Obj.ALM_SAVES : ObjRow := {
  name := "ALM_SAVES", index := 0xc402, kind := .u64, lo := 0, hi := 18446744073709551615, owner := .firmware,
  counter := true }

/-- R541: `ALM_OBJECTS`. -/
def Obj.ALM_OBJECTS : ObjRow := {
  name := "ALM_OBJECTS", index := 0xc403, kind := .u64, lo := 0, hi := 18446744073709551615,
  owner := .firmware, counter := true }

/-- R541: `ALM_FAILOVERS`. -/
def Obj.ALM_FAILOVERS : ObjRow := {
  name := "ALM_FAILOVERS", index := 0xc404, kind := .u64, lo := 0, hi := 18446744073709551615,
  owner := .firmware, counter := true }

/-- R541: `ALM_ECC_CORR`. -/
def Obj.ALM_ECC_CORR : ObjRow := {
  name := "ALM_ECC_CORR", index := 0xc405, count := 128, kind := .u64, isArray := true, lo := 0,
  hi := 18446744073709551615, owner := .firmware, counter := true }

/-- R541: `ALM_RETRAINS`. -/
def Obj.ALM_RETRAINS : ObjRow := {
  name := "ALM_RETRAINS", index := 0xc406, count := 8, kind := .u64, isArray := true, lo := 0,
  hi := 18446744073709551615, owner := .firmware, counter := true }

/-- R541: `ALM_GENERATION`. -/
def Obj.ALM_GENERATION : ObjRow := {
  name := "ALM_GENERATION", index := 0xc407, kind := .u64, lo := 0, hi := 18446744073709551615,
  owner := .firmware }

/-- R541: `ALM_LAST_WRITE`. -/
def Obj.ALM_LAST_WRITE : ObjRow := {
  name := "ALM_LAST_WRITE", index := 0xc408, kind := .u64, lo := 0, hi := 18446744073709551615,
  owner := .firmware }

/-- R541: `ALM_HIST_TEMP`. -/
def Obj.ALM_HIST_TEMP : ObjRow := {
  name := "ALM_HIST_TEMP", index := 0xc410, count := 32, kind := .u32, isArray := true, lo := 0,
  hi := 4294967295, owner := .firmware, stride := 0x1, blocks := 4 }

/-- R541: `ALM_HIST_SAG`. -/
def Obj.ALM_HIST_SAG : ObjRow := {
  name := "ALM_HIST_SAG", index := 0xc414, count := 32, kind := .u32, isArray := true, lo := 0,
  hi := 4294967295, owner := .firmware }

/-- R541: `ALM_HIST_ENERGY`. -/
def Obj.ALM_HIST_ENERGY : ObjRow := {
  name := "ALM_HIST_ENERGY", index := 0xc415, count := 32, kind := .u32, isArray := true, lo := 0,
  hi := 4294967295, owner := .firmware }

/-- R541: `ALM_HIST_LAT_DRIFT`. -/
def Obj.ALM_HIST_LAT_DRIFT : ObjRow := {
  name := "ALM_HIST_LAT_DRIFT", index := 0xc416, count := 32, kind := .u32, isArray := true, lo := 0,
  hi := 4294967295, owner := .firmware }

/-- R541: `ALM_HIST_LINK`. -/
def Obj.ALM_HIST_LINK : ObjRow := {
  name := "ALM_HIST_LINK", index := 0xc417, count := 32, kind := .u32, isArray := true, lo := 0,
  hi := 4294967295, owner := .firmware, stride := 0x1, blocks := 3 }

/-- R541: `ALM_HIST_LINE_RATE`. -/
def Obj.ALM_HIST_LINE_RATE : ObjRow := {
  name := "ALM_HIST_LINE_RATE", index := 0xc420, count := 32, kind := .u32, isArray := true, lo := 0,
  hi := 4294967295, owner := .firmware, stride := 0x1, blocks := 12 }

/-- R541: `ALM_HIST_SAT`. -/
def Obj.ALM_HIST_SAT : ObjRow := {
  name := "ALM_HIST_SAT", index := 0xc430, count := 22, kind := .u32, isArray := true, lo := 0,
  hi := 4294967295, owner := .firmware }

/-- Rows of chapter 18, part 0. -/
def objectsCalibration0 : List ObjRow := [Obj.CAL_STATUS, Obj.CAL_REQUEST, Obj.CAL_QUEUE_USED,
  Obj.CAL_DEADLINE_MS, Obj.CAL_LAST, Obj.CAL_DONE, Obj.CAL_REJECTS, Obj.CAL_STARVED_COUNT, Obj.CAL_LINES_COST,
  Obj.CAL_PLATE_LINES, Obj.CAL_PLATE_TOL, Obj.CAL_PLATE_BAD_MAX, Obj.CAL_LAT_AUTO, Obj.CAL_LAT_SAMPLES,
  Obj.CAL_LAT_STEP_MAX, Obj.CAL_THRESH_STEP_NS, Obj.CAL_THRESH_CLEAR_NS, Obj.CAL_AM_ROTATE_MS,
  Obj.CAL_VERNIER_CELLS, Obj.CAL_STORE_CMD, Obj.CAL_STORE_STATE, Obj.CAL_STORE_AUTO, Obj.CAL_STORE_SKIPPED,
  Obj.BIST_REPAIRS, Obj.BIST_SPARES_LEFT, Obj.BIST_PIPE_RESULT, Obj.ALM_STATUS, Obj.ALM_POWER_ON_HOURS,
  Obj.ALM_SAVES, Obj.ALM_OBJECTS]

/-- Rows of chapter 18, part 1. -/
def objectsCalibration1 : List ObjRow := [Obj.ALM_FAILOVERS, Obj.ALM_ECC_CORR, Obj.ALM_RETRAINS,
  Obj.ALM_GENERATION, Obj.ALM_LAST_WRITE, Obj.ALM_HIST_TEMP, Obj.ALM_HIST_SAG, Obj.ALM_HIST_ENERGY,
  Obj.ALM_HIST_LAT_DRIFT, Obj.ALM_HIST_LINK, Obj.ALM_HIST_LINE_RATE, Obj.ALM_HIST_SAT]

/-! Objects of spec chapter 19. -/

/-- R570: `PW_STATUS`. -/
def Obj.PW_STATUS : ObjRow := {
  name := "PW_STATUS", index := 0x2000, kind := .u16, lo := 0, hi := 65535 }

/-- R570: `PW_VIN_MV`. -/
def Obj.PW_VIN_MV : ObjRow := {
  name := "PW_VIN_MV", index := 0x2001, kind := .u32, lo := 0, hi := 4294967295 }

/-- R570: `PW_VIN_MIN_MV`. -/
def Obj.PW_VIN_MIN_MV : ObjRow := {
  name := "PW_VIN_MIN_MV", index := 0x2002, kind := .u32, lo := 0, hi := 4294967295 }

/-- R570: `PW_VIN_RATIO`. -/
def Obj.PW_VIN_RATIO : ObjRow := {
  name := "PW_VIN_RATIO", index := 0x2003, kind := .u32, access := .rwp, dflt := 8192, lo := 4096,
  hi := 16384, effect := .preop }

/-- R570: `PW_HOLDUP_CAP_UF`. -/
def Obj.PW_HOLDUP_CAP_UF : ObjRow := {
  name := "PW_HOLDUP_CAP_UF", index := 0x2004, kind := .u16, access := .rwp, dflt := 3300, lo := 3300,
  hi := 20000, effect := .preop }

/-- R570: `PW_RESUME_MV`. -/
def Obj.PW_RESUME_MV : ObjRow := {
  name := "PW_RESUME_MV", index := 0x2005, kind := .u16, access := .rw, dflt := 11000, lo := 10400,
  hi := 13000, effect := .now }

/-- R570: `PW_SAG_COUNT`. -/
def Obj.PW_SAG_COUNT : ObjRow := {
  name := "PW_SAG_COUNT", index := 0x2006, kind := .u64, access := .rw, lo := 0, hi := 18446744073709551615,
  effect := .now, counter := true }

/-- R570: `PW_SAG_SHORT`. -/
def Obj.PW_SAG_SHORT : ObjRow := {
  name := "PW_SAG_SHORT", index := 0x2007, kind := .u64, access := .rw, lo := 0, hi := 18446744073709551615,
  effect := .now, counter := true }

/-- R570: `PW_LAST_SAVE`. -/
def Obj.PW_LAST_SAVE : ObjRow := {
  name := "PW_LAST_SAVE", index := 0x2008, count := 7, kind := .record, lo := 0, hi := 18446744073709551615 }

/-- R570: `PW_SLEEP_CMD`. -/
def Obj.PW_SLEEP_CMD : ObjRow := {
  name := "PW_SLEEP_CMD", index := 0x2009, kind := .u8, access := .wo, lo := 1, hi := 1, effect := .now }

/-- R570: `PW_RAIL_ADDR`. -/
def Obj.PW_RAIL_ADDR : ObjRow := {
  name := "PW_RAIL_ADDR", index := 0x2010, count := 10, kind := .u8, isArray := true, access := .rwp,
  special := [(0, 64), (1, 65), (2, 66), (3, 67), (4, 68), (5, 69), (6, 70), (7, 71), (8, 72), (9, 73)],
  lo := 8, hi := 119, effect := .preop }

/-- R570: `PW_RAIL_PAGE`. -/
def Obj.PW_RAIL_PAGE : ObjRow := {
  name := "PW_RAIL_PAGE", index := 0x2011, count := 10, kind := .u8, isArray := true, access := .rwp, lo := 0,
  hi := 31, effect := .preop }

/-- R570: `PW_RAIL_VOUT_MV`. -/
def Obj.PW_RAIL_VOUT_MV : ObjRow := {
  name := "PW_RAIL_VOUT_MV", index := 0x2012, count := 10, kind := .u16, isArray := true, lo := 0, hi := 65535
  }

/-- R570: `PW_RAIL_IOUT_MA`. -/
def Obj.PW_RAIL_IOUT_MA : ObjRow := {
  name := "PW_RAIL_IOUT_MA", index := 0x2013, count := 10, kind := .u32, isArray := true, lo := 0,
  hi := 4294967295 }

/-- R570: `PW_RAIL_STATUS_WORD`. -/
def Obj.PW_RAIL_STATUS_WORD : ObjRow := {
  name := "PW_RAIL_STATUS_WORD", index := 0x2014, count := 10, kind := .u16, isArray := true, lo := 0,
  hi := 65535 }

/-- R570: `PW_RAIL_FAULTS`. -/
def Obj.PW_RAIL_FAULTS : ObjRow := {
  name := "PW_RAIL_FAULTS", index := 0x2015, count := 10, kind := .u64, isArray := true, access := .rw,
  lo := 0, hi := 18446744073709551615, effect := .now, counter := true }

/-- R570: `PW_PG_TIMEOUT_MS`. -/
def Obj.PW_PG_TIMEOUT_MS : ObjRow := {
  name := "PW_PG_TIMEOUT_MS", index := 0x2016, kind := .u8, access := .rwp, dflt := 10, lo := 1, hi := 100,
  effect := .preop }

/-- R570: `PW_POWER_MW`. -/
def Obj.PW_POWER_MW : ObjRow := {
  name := "PW_POWER_MW", index := 0x2017, kind := .u32, lo := 0, hi := 4294967295 }

/-- R570: `PW_START_MS`. -/
def Obj.PW_START_MS : ObjRow := {
  name := "PW_START_MS", index := 0x2018, kind := .u32, lo := 0, hi := 4294967295 }

/-- R570: `PW_ISLAND_MV`. -/
def Obj.PW_ISLAND_MV : ObjRow := {
  name := "PW_ISLAND_MV", index := 0x2020, count := 40, kind := .u16, isArray := true, lo := 0, hi := 65535 }

/-- R570: `PW_CORE_SETPOINT_MV`. -/
def Obj.PW_CORE_SETPOINT_MV : ObjRow := {
  name := "PW_CORE_SETPOINT_MV", index := 0x2021, kind := .u16, dflt := 800, lo := 700, hi := 800 }

/-- R570: `PW_GATING_ENABLE`. -/
def Obj.PW_GATING_ENABLE : ObjRow := {
  name := "PW_GATING_ENABLE", index := 0x2022, kind := .bool, access := .rwp, dflt := 1, lo := 0, hi := 1,
  effect := .preop }

/-- R570: `PW_TEMP`. -/
def Obj.PW_TEMP : ObjRow := {
  name := "PW_TEMP", index := 0x2030, count := 4, kind := .i16, isArray := true, lo := (-32768), hi := 32767 }

/-- R570: `PW_TEMP_MAX_SEEN`. -/
def Obj.PW_TEMP_MAX_SEEN : ObjRow := {
  name := "PW_TEMP_MAX_SEEN", index := 0x2031, count := 4, kind := .i16, isArray := true, lo := (-32768),
  hi := 32767 }

/-- R570: `PW_TEMP_WARN_C`. -/
def Obj.PW_TEMP_WARN_C : ObjRow := {
  name := "PW_TEMP_WARN_C", index := 0x2032, kind := .u8, access := .rw, dflt := 95, lo := 80, hi := 100,
  effect := .now }

/-- R570: `PW_WARMUP_MAX_S`. -/
def Obj.PW_WARMUP_MAX_S : ObjRow := {
  name := "PW_WARMUP_MAX_S", index := 0x2033, kind := .u16, access := .rwp, dflt := 600, lo := 60, hi := 3600,
  effect := .preop }

/-- R570: `PW_THERMAL_TRIPS`. -/
def Obj.PW_THERMAL_TRIPS : ObjRow := {
  name := "PW_THERMAL_TRIPS", index := 0x2034, kind := .u64, access := .rw, lo := 0,
  hi := 18446744073709551615, effect := .now, counter := true }

/-- Rows of chapter 19, part 0. -/
def objectsPower0 : List ObjRow := [Obj.PW_STATUS, Obj.PW_VIN_MV, Obj.PW_VIN_MIN_MV, Obj.PW_VIN_RATIO,
  Obj.PW_HOLDUP_CAP_UF, Obj.PW_RESUME_MV, Obj.PW_SAG_COUNT, Obj.PW_SAG_SHORT, Obj.PW_LAST_SAVE,
  Obj.PW_SLEEP_CMD, Obj.PW_RAIL_ADDR, Obj.PW_RAIL_PAGE, Obj.PW_RAIL_VOUT_MV, Obj.PW_RAIL_IOUT_MA,
  Obj.PW_RAIL_STATUS_WORD, Obj.PW_RAIL_FAULTS, Obj.PW_PG_TIMEOUT_MS, Obj.PW_POWER_MW, Obj.PW_START_MS,
  Obj.PW_ISLAND_MV, Obj.PW_CORE_SETPOINT_MV, Obj.PW_GATING_ENABLE, Obj.PW_TEMP, Obj.PW_TEMP_MAX_SEEN,
  Obj.PW_TEMP_WARN_C, Obj.PW_WARMUP_MAX_S, Obj.PW_THERMAL_TRIPS]

/-- R436, R441: every object of the dictionary, in the order of the tables. -/
def objectTable : List ObjRow :=
  objectsTime0 ++ objectsTime1 ++ objectsCamera0 ++ objectsCamera1 ++ objectsCamera2 ++ objectsRaw0 ++
  objectsRaw1 ++ objectsRegistration0 ++ objectsAtlas0 ++ objectsAtlas1 ++ objectsStitch0 ++ objectsStitch1 ++
  objectsVerdict0 ++ objectsVerdict1 ++ objectsEjector0 ++ objectsEjector1 ++ objectsRecords0 ++ objectsRecords1 ++
  objectsIslands0 ++ objectsIslands1 ++ objectsCxl0 ++ objectsDram0 ++ objectsChain0 ++ objectsChain1 ++
  objectsLattice0 ++ objectsLattice1 ++ objectsMonitor0 ++ objectsMonitor1 ++ objectsChord0 ++ objectsCalibration0 ++
  objectsCalibration1 ++ objectsPower0

end Sys2Proof.Machine
end

