-- ==== Sys2Proof/Machine/State.lean ====
section
/-! DEFINITION. Every piece of state the spec gives the part, as plain data, and its value at reset. The dictionary's
objects, the read-only ones among them, live in `dict` and `blobs` under their index and subindex; what the spec says the
machine keeps beside them stands in the unit structures. -/

namespace Sys2Proof.Machine

open Sys2Proof

/-- Who raises it and whether it is safe. -/
inductive Fault where
  /-- WINDOW_READ and WINDOW_WRITE, at an address at or above `CX_HDM_SIZE`: R375 exposes no such address. Safe: the
  machine stops where the host has no device memory to reach. -/
  | outsideWindow (address : Nat)
deriving DecidableEq, Repr

/-- Who raises it and whether it is safe. -/
inductive Refusal where
  /-- An arm of `exec` whose command has no meaning yet. Safe: it stops. -/
  | notModelled (mnemonic : String)
deriving DecidableEq, Repr

/-- The named events: what the spec says the device raises. -/
inductive Ev where
  /-- R463 -/
  | EV_LOOP
  /-- R33 -/
  | EPOCH_LATE
  /-- R39 -/
  | TIME_UNLOCK
  /-- R45 -/
  | INDEX_MISMATCH
  /-- R51 -/
  | SP_FAULT
  /-- R30 -/
  | TRIGGER_GROUP_MIXED
  /-- R67 -/
  | CAM_CABLE_ERROR
  /-- R67 -/
  | CAM_CONFIG_REFUSED
  /-- R68 -/
  | CAM_BANDWIDTH
  /-- R73 -/
  | CAM_LAYOUT_REFUSED
  /-- R80 -/
  | EPOCH_SKEW
  /-- R86 -/
  | CAM_LINK_DOWN
  /-- R99 -/
  | BLACK_LOST
  /-- R102 -/
  | DEFECT_MAP_REFUSED
  /-- R105 -/
  | ONLINE_DEFECT
  /-- R109 -/
  | PLATE_STALE
  /-- R110 -/
  | PLATE_NOT_READY
  /-- R111 -/
  | PLATE_REF_REFUSED
  /-- R112 -/
  | PLATE_DRIFT
  /-- R97 -/
  | RC_MASK_REFUSED
  /-- R122 -/
  | RG_NOMINAL_MISMATCH
  /-- R127 -/
  | RG_LAG_REFUSED
  /-- R160 -/
  | ATLAS_REFUSED
  /-- R164 -/
  | ATLAS_BUSY
  /-- R155 -/
  | ATLAS_UNCORRECTABLE
  /-- R156 -/
  | ATLAS_SWAP_DEFERRED
  /-- R165 -/
  | ATLAS_IMAGE_BAD
  /-- R166 -/
  | ATLAS_MISSING
  /-- R167 -/
  | ATLAS_CLASS_MISMATCH
  /-- R167 -/
  | ATLAS_PROJ_MISMATCH
  /-- R174 -/
  | SG_OVERFLOW
  /-- R502 -/
  | CH_PAIRING
  /-- R508 -/
  | CH_LINK_LOSS
  /-- R509 -/
  | CH_LOAN_REFUSED
  /-- R189 -/
  | ST_MAP_REFUSED
  /-- R191 -/
  | CAL_REJECT
  /-- R192 -/
  | ST_CONFIG_REFUSED
  /-- R200 -/
  | ST_SEAM_MISMATCH
  /-- R200 -/
  | ST_CAL_MISMATCH
  /-- R204 -/
  | SEAM_SPLIT
  /-- R217 -/
  | VD_PROGRAM_REFUSED
  /-- R237 -/
  | VD_BUSY
  /-- R218 -/
  | VD_CLASS_MISMATCH
  /-- R219 -/
  | VD_PROGRAM_MISSING
  /-- R222 -/
  | EP_POSITION_HELD
  /-- R223 -/
  | EP_GEOMETRY_REFUSED
  /-- R233 -/
  | VD_WINDOW_FULL
  /-- R244 -/
  | EJ_CONFIG_REFUSED
  /-- R245 -/
  | VALVE_FAULT
  /-- R284 -/
  | VB_LINK_DOWN
  /-- R308 -/
  | RING_MISSING
  /-- R318 -/
  | RT_BANDWIDTH
  /-- R338 -/
  | CONTINUITY_DEGRADED
  /-- R346 -/
  | LEDGER_RESTORE_FAILED
  /-- R347 -/
  | MIRROR_LOST
  /-- R444 -/
  | HOLD_CAUSE_ACTIVE
  /-- R398 -/
  | DR_ALLOC_REFUSED
  /-- R406 -/
  | DR_CHANNEL_FAULT
  /-- R368 -/
  | CX_IDE_MISSING
  /-- R412 -/
  | MER_MEDIUM_MIXED
  /-- R429 -/
  | CHAIN_SPLIT
  /-- R430 -/
  | MER_MAP_REFUSED
  /-- R433 -/
  | MER_WATCHDOG
  /-- R493 -/
  | AM_CONFIG_REFUSED
  /-- R497 -/
  | AM_OVERLOAD
  /-- R523 -/
  | CAL_STARVED
  /-- R538 -/
  | ALMANAC_LOST
  /-- R546 -/
  | PW_RAIL_FAULT
  /-- R548 -/
  | PW_RAIL_WARN
  /-- R554 -/
  | THERMAL_WARN
  /-- R554 -/
  | THERMAL_TRIP
  /-- R551 -/
  | PW_WARMUP_TIMEOUT
  /-- R556 -/
  | VIN_SAG
  /-- R561 -/
  | PW_HOLDUP_SHORT
  /-- R567 -/
  | VAULT_SAVE_TORN
  /-- R470 -/
  | STRETCH_TIMEOUT
  /-- R472 -/
  | BUS_ERROR
  /-- R473 -/
  | ARB_LOST
  /-- R474 -/
  | TW_POLL_FAIL
deriving DecidableEq, Repr

/-- R449: the name of an event, as `STATE_REFUSE_TEXT` and `ERR_LAST` spell it. -/
def Ev.text (e : Ev) : String :=
  match e with
  | .EV_LOOP => "EV_LOOP"
  | .EPOCH_LATE => "EPOCH_LATE"
  | .TIME_UNLOCK => "TIME_UNLOCK"
  | .INDEX_MISMATCH => "INDEX_MISMATCH"
  | .SP_FAULT => "SP_FAULT"
  | .TRIGGER_GROUP_MIXED => "TRIGGER_GROUP_MIXED"
  | .CAM_CABLE_ERROR => "CAM_CABLE_ERROR"
  | .CAM_CONFIG_REFUSED => "CAM_CONFIG_REFUSED"
  | .CAM_BANDWIDTH => "CAM_BANDWIDTH"
  | .CAM_LAYOUT_REFUSED => "CAM_LAYOUT_REFUSED"
  | .EPOCH_SKEW => "EPOCH_SKEW"
  | .CAM_LINK_DOWN => "CAM_LINK_DOWN"
  | .BLACK_LOST => "BLACK_LOST"
  | .DEFECT_MAP_REFUSED => "DEFECT_MAP_REFUSED"
  | .ONLINE_DEFECT => "ONLINE_DEFECT"
  | .PLATE_STALE => "PLATE_STALE"
  | .PLATE_NOT_READY => "PLATE_NOT_READY"
  | .PLATE_REF_REFUSED => "PLATE_REF_REFUSED"
  | .PLATE_DRIFT => "PLATE_DRIFT"
  | .RC_MASK_REFUSED => "RC_MASK_REFUSED"
  | .RG_NOMINAL_MISMATCH => "RG_NOMINAL_MISMATCH"
  | .RG_LAG_REFUSED => "RG_LAG_REFUSED"
  | .ATLAS_REFUSED => "ATLAS_REFUSED"
  | .ATLAS_BUSY => "ATLAS_BUSY"
  | .ATLAS_UNCORRECTABLE => "ATLAS_UNCORRECTABLE"
  | .ATLAS_SWAP_DEFERRED => "ATLAS_SWAP_DEFERRED"
  | .ATLAS_IMAGE_BAD => "ATLAS_IMAGE_BAD"
  | .ATLAS_MISSING => "ATLAS_MISSING"
  | .ATLAS_CLASS_MISMATCH => "ATLAS_CLASS_MISMATCH"
  | .ATLAS_PROJ_MISMATCH => "ATLAS_PROJ_MISMATCH"
  | .SG_OVERFLOW => "SG_OVERFLOW"
  | .CH_PAIRING => "CH_PAIRING"
  | .CH_LINK_LOSS => "CH_LINK_LOSS"
  | .CH_LOAN_REFUSED => "CH_LOAN_REFUSED"
  | .ST_MAP_REFUSED => "ST_MAP_REFUSED"
  | .CAL_REJECT => "CAL_REJECT"
  | .ST_CONFIG_REFUSED => "ST_CONFIG_REFUSED"
  | .ST_SEAM_MISMATCH => "ST_SEAM_MISMATCH"
  | .ST_CAL_MISMATCH => "ST_CAL_MISMATCH"
  | .SEAM_SPLIT => "SEAM_SPLIT"
  | .VD_PROGRAM_REFUSED => "VD_PROGRAM_REFUSED"
  | .VD_BUSY => "VD_BUSY"
  | .VD_CLASS_MISMATCH => "VD_CLASS_MISMATCH"
  | .VD_PROGRAM_MISSING => "VD_PROGRAM_MISSING"
  | .EP_POSITION_HELD => "EP_POSITION_HELD"
  | .EP_GEOMETRY_REFUSED => "EP_GEOMETRY_REFUSED"
  | .VD_WINDOW_FULL => "VD_WINDOW_FULL"
  | .EJ_CONFIG_REFUSED => "EJ_CONFIG_REFUSED"
  | .VALVE_FAULT => "VALVE_FAULT"
  | .VB_LINK_DOWN => "VB_LINK_DOWN"
  | .RING_MISSING => "RING_MISSING"
  | .RT_BANDWIDTH => "RT_BANDWIDTH"
  | .CONTINUITY_DEGRADED => "CONTINUITY_DEGRADED"
  | .LEDGER_RESTORE_FAILED => "LEDGER_RESTORE_FAILED"
  | .MIRROR_LOST => "MIRROR_LOST"
  | .HOLD_CAUSE_ACTIVE => "HOLD_CAUSE_ACTIVE"
  | .DR_ALLOC_REFUSED => "DR_ALLOC_REFUSED"
  | .DR_CHANNEL_FAULT => "DR_CHANNEL_FAULT"
  | .CX_IDE_MISSING => "CX_IDE_MISSING"
  | .MER_MEDIUM_MIXED => "MER_MEDIUM_MIXED"
  | .CHAIN_SPLIT => "CHAIN_SPLIT"
  | .MER_MAP_REFUSED => "MER_MAP_REFUSED"
  | .MER_WATCHDOG => "MER_WATCHDOG"
  | .AM_CONFIG_REFUSED => "AM_CONFIG_REFUSED"
  | .AM_OVERLOAD => "AM_OVERLOAD"
  | .CAL_STARVED => "CAL_STARVED"
  | .ALMANAC_LOST => "ALMANAC_LOST"
  | .PW_RAIL_FAULT => "PW_RAIL_FAULT"
  | .PW_RAIL_WARN => "PW_RAIL_WARN"
  | .THERMAL_WARN => "THERMAL_WARN"
  | .THERMAL_TRIP => "THERMAL_TRIP"
  | .PW_WARMUP_TIMEOUT => "PW_WARMUP_TIMEOUT"
  | .VIN_SAG => "VIN_SAG"
  | .PW_HOLDUP_SHORT => "PW_HOLDUP_SHORT"
  | .VAULT_SAVE_TORN => "VAULT_SAVE_TORN"
  | .STRETCH_TIMEOUT => "STRETCH_TIMEOUT"
  | .BUS_ERROR => "BUS_ERROR"
  | .ARB_LOST => "ARB_LOST"
  | .TW_POLL_FAIL => "TW_POLL_FAIL"

/-- R478: every named event. -/
def Ev.all : List Ev := [
  .EV_LOOP, .EPOCH_LATE, .TIME_UNLOCK, .INDEX_MISMATCH, .SP_FAULT,
  .TRIGGER_GROUP_MIXED, .CAM_CABLE_ERROR, .CAM_CONFIG_REFUSED, .CAM_BANDWIDTH, .CAM_LAYOUT_REFUSED,
  .EPOCH_SKEW, .CAM_LINK_DOWN, .BLACK_LOST, .DEFECT_MAP_REFUSED, .ONLINE_DEFECT,
  .PLATE_STALE, .PLATE_NOT_READY, .PLATE_REF_REFUSED, .PLATE_DRIFT, .RC_MASK_REFUSED,
  .RG_NOMINAL_MISMATCH, .RG_LAG_REFUSED, .ATLAS_REFUSED, .ATLAS_BUSY, .ATLAS_UNCORRECTABLE,
  .ATLAS_SWAP_DEFERRED, .ATLAS_IMAGE_BAD, .ATLAS_MISSING, .ATLAS_CLASS_MISMATCH, .ATLAS_PROJ_MISMATCH,
  .SG_OVERFLOW, .CH_PAIRING, .CH_LINK_LOSS, .CH_LOAN_REFUSED, .ST_MAP_REFUSED,
  .CAL_REJECT, .ST_CONFIG_REFUSED, .ST_SEAM_MISMATCH, .ST_CAL_MISMATCH, .SEAM_SPLIT,
  .VD_PROGRAM_REFUSED, .VD_BUSY, .VD_CLASS_MISMATCH, .VD_PROGRAM_MISSING, .EP_POSITION_HELD,
  .EP_GEOMETRY_REFUSED, .VD_WINDOW_FULL, .EJ_CONFIG_REFUSED, .VALVE_FAULT, .VB_LINK_DOWN,
  .RING_MISSING, .RT_BANDWIDTH, .CONTINUITY_DEGRADED, .LEDGER_RESTORE_FAILED, .MIRROR_LOST,
  .HOLD_CAUSE_ACTIVE, .DR_ALLOC_REFUSED, .DR_CHANNEL_FAULT, .CX_IDE_MISSING, .MER_MEDIUM_MIXED,
  .CHAIN_SPLIT, .MER_MAP_REFUSED, .MER_WATCHDOG, .AM_CONFIG_REFUSED, .AM_OVERLOAD,
  .CAL_STARVED, .ALMANAC_LOST, .PW_RAIL_FAULT, .PW_RAIL_WARN, .THERMAL_WARN,
  .THERMAL_TRIP, .PW_WARMUP_TIMEOUT, .VIN_SAG, .PW_HOLDUP_SHORT, .VAULT_SAVE_TORN,
  .STRETCH_TIMEOUT, .BUS_ERROR, .ARB_LOST, .TW_POLL_FAIL]


/-- What the part sends out. -/
inductive Out where
  /-- R379: an MSI-X message on a vector. -/
  | msix (vector : Nat)
  /-- R372: the answer to a dictionary request: its path, the object's key and the RESULT. -/
  | result (path : Path) (key code : Nat)
  /-- R6, R13: the value a read returns on a path. -/
  | value (path : Path) (key value : Nat)
  /-- R72: the trigger packet of line `line` to port `port`'s camera, to act at device time `actAt`. -/
  | trigger (port line actAt : Nat)
  /-- R69, R78, R80: a control command on port `port`'s uplink: a write of `data` to a camera register, or a read of `length`
  bytes from there. -/
  | camControl (port : Nat) (write : Bool) (address length : Nat) (data : List Byte)
  /-- R66: discovery starts on a port. -/
  | discover (port lanes rate : Nat)
  /-- R48: a serial position port starts clocking a word. -/
  | spClock (port khz : Nat)
  /-- R504, R506, R514: a chord packet: header, payload and CRC-32C; where `bad` is set its CRC leaves corrupted. -/
  | chord (link : Nat) (packet : List Byte) (bad : Bool)
  /-- R503: the answer to a tap request on a lane: the new values, or LIMIT. -/
  | taps (link lane value : Nat) (limit : Bool)
  /-- R546, R547: the PMBus OPERATION that turns a rail on or off. -/
  | railOperation (rail address page : Nat) (on : Bool)
  /-- R552: the PMBus VOUT_COMMAND of rail VDD_CORE. -/
  | railVoltage (address page millivolts : Nat)
  /-- R503: a receiver asks the far transmitter of its lane for other taps. -/
  | tapRequest (link lane : Nat) (request : TapRequest)
  /-- R304, R378: a write to host memory within one 64-byte line: of the whole line as a CXL.cache direct full-line write, of a
  part of it as a CXL.io memory write. -/
  | hostWrite (address : Nat) (data : List Byte) (fullLine : Bool)
  /-- R378: a CXL.cache current-value read of host memory. -/
  | hostRead (address length : Nat)
  /-- R275 to R278: a frame of a valve bank link, its 90 bytes between start and end of frame. -/
  | frame (link : Nat) (bytes : List Byte)
  /-- R275: KILL on a valve bank link. -/
  | kill (link : Nat)
  /-- R282: a PING character. -/
  | ping (link : Nat)
  /-- R377: the answer to a host read of the window: its bytes, none of them where it is poisoned. -/
  | windowData (address : Nat) (data : List Byte) (poisoned : Bool)
  /-- R377: the device takes a 64-byte line back from the host. -/
  | backInvalidate (address : Nat)
  /-- R413 to R420: a datagram goes on at a Meridian port, with the HOPS its header now has. -/
  | datagram (port action : Nat) (d : Datagram)
  /-- R414, R415: a frame goes on unchanged at a Meridian port. -/
  | frameOn (port : Nat) (bytes : List Byte)
  /-- R471: TWn_CLR is asserted for a time, and nine clocks and a STOP follow. -/
  | twClear (port us : Nat)
  /-- R474, R475: a transaction of TW0 starts: its address, the bytes written and how many are read. -/
  | tw0 (address : Nat) (write : List Byte) (read : Nat)
  /-- R477: the bytes that a TW2 transfer returns. -/
  | tw2 (bytes : List Byte)
  /-- R510: a wake probe. -/
  | wakeProbe (link : Nat)
deriving DecidableEq, Repr

/-- R13: the three latches, each the words left of the last low-word read on its path. -/
structure Latches where
  chain : List Nat := []
  image : List Nat := []
  host  : List Nat := []
deriving DecidableEq, Repr

/-- R32 to R34: for each port group, what is staged for its next epoch and what was live in its earlier ones. Keys hold
the group where an object has one value for the unit (R31). -/
structure Epochs where
  /-- Values staged for the group's next epoch, by group and object. -/
  staged      : Tab Int := []
  /-- Blobs staged for the group's next epoch. -/
  stagedBlobs : Tab (List Byte) := []
  /-- The values each object took and the epoch id each became live in, newest first. -/
  past        : Tab (List (Nat × Int)) := []
  /-- The blobs each object took and the epoch id each became live in, newest first. -/
  pastBlobs   : Tab (List (Nat × List Byte)) := []
  /-- R32: the groups that have begun their first epoch, epoch id 0. -/
  begun       : List Nat := []
deriving DecidableEq, Repr

/-- R40 to R46: an encoder port beside its objects. -/
structure QePort where
  /-- The accepted levels of A and B. -/
  a      : Bool := false
  b      : Bool := false
  /-- R44: the edges of the window, newest first. -/
  window : List Nat := []
  /-- R43: where the standstill began. -/
  origin : Int := 0
  /-- R43: the highest count since the direction became forward, or the lowest since it became reverse. -/
  mark   : Int := 0
deriving DecidableEq, Repr

/-- R48, R51: a serial position port beside its objects. -/
structure SpPort where
  /-- A word is being clocked, and at which clock. -/
  busy    : Bool := false
  khz     : Nat := 0
  /-- R48: when the last word began, at its first falling edge, and when it ended. -/
  started : Option Nat := none
  ended   : Option Nat := none
  /-- R51: consecutive discarded words and consecutive good words. -/
  badRun  : Nat := 0
  goodRun : Nat := 0
deriving DecidableEq, Repr

/-- R24: a line of a group: its trigger time, its belt count, and the speeds of the four encoders at that time. -/
structure TrigMark where
  line   : Nat
  epoch  : Nat
  time   : Nat
  belt   : Int
  speeds : List Int
deriving DecidableEq, Repr

/-- R53 to R57: the trigger generator of a port group. -/
structure TgGroup where
  running : Bool := false
  /-- R53, R54: the exact time the periods are counted from, and how many of them to the next trigger, in 2⁻³² ns. -/
  origin  : Nat := 0
  next    : Nat := 0
  /-- R53, R54: the period the triggers are counted with. -/
  period  : Nat := 0
  /-- R56: the high-water mark and the accumulator. -/
  high    : Int := 0
  acc     : Nat := 0
  /-- R57: the belt count and the exact due time of a trigger that is held. -/
  held    : Option (Int × Nat) := none
  /-- R57: when the last trigger was issued. -/
  last    : Option Nat := none
  /-- The group's lines of this arming that a later stage can still ask about, newest first. -/
  marks   : List TrigMark := []
deriving DecidableEq, Repr

/-- R37 to R62: the timing island. -/
structure Tim where
  qe : Tab QePort := []
  sp : Tab SpPort := []
  tg : Tab TgGroup := []
  /-- R39: device time runs from the on-die oscillator; TIME_UNLOCK was raised and ALIGNED has not been 1 since. -/
  oscillator : Bool := false
  unlocked : Bool := false
  /-- R23: the unit has entered ARMED since its last reset, so device time no longer steps. -/
  armedSinceReset : Bool := false
  /-- R47: the unit has taken lines since it was last in PREOP, so a re-home request of a trigger source waits. -/
  lined : Bool := false
  /-- R21: the unit's mode is set to surface mode. The dictionary prints no object for the setting (log entry 206). -/
  surfaceSet : Bool := false
deriving DecidableEq, Repr

/-- R74, R76: one sensor row of a line that is being received. -/
structure RowIn where
  samples : List Nat := []
  /-- R76: a packet's payload failed its CRC: nothing later of the row counts as received. -/
  crcBad  : Bool := false
  ended   : Bool := false
  /-- R76: the row delivered more than C columns. -/
  long    : Bool := false
deriving DecidableEq, Repr

/-- R75: a line slot. -/
structure Slot where
  line  : Nat
  trig  : Nat
  belt  : Int
  epoch : Nat
  skew  : Bool := false
  /-- Streams that have received the line's start. -/
  started : List Nat := []
  rows  : List RowIn := []
deriving DecidableEq, Repr

/-- R79, R80, R87: a control command of the port's own on its way to the camera. -/
structure CamWrite where
  gain     : Bool
  /-- R78: the camera's register. -/
  addr     : Nat := 0
  value    : Nat
  epoch    : Nat
  first    : Nat
  readback : Bool := false
  /-- R87: written because the link returned. -/
  relink   : Bool := false
  /-- R79: written on the way to ARMED. -/
  arming   : Bool := false
deriving DecidableEq, Repr

/-- R69: a transaction of the register window: its direction, and the camera's registers it is for. A read takes `length` bytes, a
write has them. -/
structure WinCmd where
  write   : Bool
  address : Nat
  length  : Nat
  data    : List Byte
deriving DecidableEq, Repr

/-- R66 to R88: a camera port beside its objects. -/
structure CamPort where
  /-- Open slots, oldest first. -/
  slots     : List Slot := []
  /-- R75: the line each stream is filling; none while its packets are discarded. -/
  current   : Tab (Option Nat) := []
  /-- R75: discarded line starts of each stream that `CAM_LINE_EXTRA` has counted before the other stream's start of that line. -/
  extra     : Tab Nat := []
  /-- R77: lines counted in `CAM_LINE_LATE`. -/
  lateSeen  : List Nat := []
  /-- R85: closed lines whose write to the replay buffer has not committed, oldest first. -/
  waiting   : List CapLine := []
  /-- R405: the capture path is in panic. -/
  panic     : Bool := false
  /-- R405: the replay read-ahead of the port is in panic. -/
  reading   : Bool := false
  /-- R404, R405: since when. -/
  readFrom  : Nat := 0
  /-- R83: committed lines that wait for an earlier line. -/
  committed : List CapLine := []
  /-- R83: lines handed to the pipeline, oldest first. -/
  toPipe    : List CapLine := []
  writes    : List CamWrite := []
  /-- R79, R80: the writes made for the next epoch, for the readbacks after its first trigger. -/
  issued    : List CamWrite := []
  /-- R79: the exposure (0) and the gain (1) that the camera was last sent. -/
  sent      : Tab Int := []
  /-- R80: epochs that carry EPOCH_SKEW. -/
  skewed    : List Nat := []
  /-- R87: lines triggered now carry SKEW until the writes of the link's return are acknowledged. -/
  relinking : Bool := false
  /-- R87: the link has returned and its writes are not yet made. -/
  returned  : Bool := false
  /-- R66: the physical lane that answered with connection ID 0: the master lane, which carries the uplink. -/
  master    : Option Nat := none
  /-- R66, R87: when the last discovery attempt ended. -/
  attemptEnd : Nat := 0
  /-- R86: when the last heartbeat came, or supervision began; R91: when the last heartbeat came. -/
  heartbeat : Nat := 0
  beat      : Option Nat := none
  /-- R69: the window transaction runs as a write. -/
  winWrite  : Bool := false
  /-- R69: the bytes it reads or writes. -/
  winLen    : Nat := 0
  /-- R71: the window transaction is on the uplink, or waits for the port's own commands. -/
  winOn     : Bool := false
  winWait   : Option WinCmd := none
  /-- R79: the trigger time of the present epoch's first line. -/
  epochTrig : Nat := 0
  /-- R537: lines triggered since the Almanac's last sample. -/
  second    : Nat := 0
  /-- R82: running sum of samples per plane, current and last bank. -/
  sumCur    : Tab Nat := []
  sumLast   : Tab Nat := []
deriving DecidableEq, Repr

/-- The twelve camera ports and the raw replay buffers (R83: line n of port k in slot n mod N, key k × 2²⁰ + slot). -/
structure Cams where
  ports  : Tab CamPort := []
  replay : Tab (Option CapLine) := []
deriving DecidableEq, Repr



/-- R95, R111: a sample as it leaves raw correction, with the value after noise reduction and the value as received. -/
structure OutPx where
  raw   : Nat := 0
  nr    : Nat := 0
  v     : Nat := 0
  inv   : Bool := true
  sat   : Bool := false
  plate : Bool := false
  subst : Bool := false
deriving DecidableEq, Repr

/-- A line as it leaves raw correction. -/
structure RegLine where
  cap  : CapLine
  rows : List (List OutPx)
deriving DecidableEq, Repr

/-- R99, R102, R105: what the first line of an epoch changes in raw correction when it gets there: exposure or gain differ, a
new defect map, a reset of the online list. -/
structure RcChange where
  line    : Nat
  exposed : Bool
  newMap  : Bool
  reset   : Bool
deriving DecidableEq, Repr

/-- R92 to R119: the raw correction of a camera port. -/
structure RcPort where
  /-- R98: the black estimate of each plane, 2⁻¹⁶ LSB. -/
  black    : Tab Int := []
  /-- R98: planes whose first mean is still to come; R99: planes whose next mean is taken without the test. -/
  first    : List Nat := []
  /-- R99: runs of discarded means by plane, and of passing lines. -/
  discard  : Tab Nat := []
  okRun    : Nat := 0
  /-- R112: lines towards the clearing of DRIFT. -/
  driftRun : Nat := 0
  /-- R110: the line after which the estimates started: 0 but where a failover found no snapshot. -/
  warmFrom : Nat := 0
  /-- R106, R117: an epoch boundary has built the sigma table since the last reset. -/
  table    : Bool := false
  /-- The changes of the last 64 epochs that had one, newest first. -/
  changes  : List RcChange := []
  online   : List OnlineSite := []
  sites    : List Site := []
  /-- R107: lines n - 1 and n. -/
  before   : Option RcLine := none
  center   : Option RcLine := none
  /-- R115: the two snapshot slots; none while a slot holds no valid snapshot. -/
  snaps    : Tab (Option RcSnapshot) := []
  /-- Lines that have left raw correction, oldest first. -/
  out      : List RegLine := []
deriving DecidableEq, Repr

/-- R136: the result of a track. -/
structure TrackResult where
  firstLine  : Nat := 0
  d16        : Nat := 0
  speed      : Nat := 0
  confidence : Nat := 0
  reason     : Nat := 0
  source     : Nat := 0
deriving DecidableEq, Repr

/-- R124: columns `a` to `b` of leading-row line `line`. -/
structure Run where
  line : Nat
  a    : Nat
  b    : Nat
deriving DecidableEq, Repr

/-- R124, R125: a track of a port. -/
structure Track where
  id     : Nat
  first  : Nat
  col    : Nat
  group  : Nat
  epoch  : Nat
  /-- Its own runs, for the profiles. -/
  runs   : List Run := []
  /-- The runs of ended undecided tracks whose claims passed to it. -/
  taken  : List Run := []
  /-- R125: its merging lines as a survivor. -/
  merges : List Nat := []
  /-- Its last line, once it has closed or ended. -/
  last   : Option Nat := none
  /-- R125: it ended in another track, after it was decided. -/
  ended  : Bool := false
  result : Option TrackResult := none
deriving DecidableEq, Repr

/-- R121 to R147: the registration of a camera port. -/
structure RgPort where
  /-- R126: the tracks whose windows are open or whose claims have not expired. -/
  tracks : List Track := []
  nextId : Nat := 0
  /-- Lines that have left raw correction, newest first: the history of both rows. -/
  lines  : List RegLine := []
  /-- R132: lines whose trailing row waits for release, with the device time they left raw correction, oldest first. -/
  queue  : List (Nat × RegLine) := []
deriving DecidableEq, Repr

/-- R141 to R144: a registered site: its four planes, its atlas coordinates, its flags, and the result of the track that
claims it. -/
structure RgSite where
  r     : Nat := 0
  g     : Nat := 0
  nir   : Nat := 0
  b     : Nat := 0
  u     : Nat := 0
  v     : Nat := 0
  w     : Nat := 0
  inv   : Bool := true
  sat   : Bool := false
  plate : Bool := false
  subst : Bool := false
  track : Option TrackResult := none
deriving DecidableEq, Repr

/-- R121: a registered line: the tag of its port line and its sites. -/
structure RgLine where
  cap   : CapLine
  sites : List RgSite
deriving DecidableEq, Repr

/-- R165: an image of a port's atlas in DRAM: the table of a blob, and its CRC-32C. -/
structure AtlasImage where
  blob : List Byte
  crc  : Nat
deriving DecidableEq, Repr

/-- R152: the atlas SRAM of a pipeline: the tables in its two live copies and its two shadow copies, each by the blob that spells
it. -/
structure AtlasPipe where
  l0 : List Byte := []
  l1 : List Byte := []
  s0 : List Byte := []
  s1 : List Byte := []
  /-- R163, R165: it took over before the line at which its port swapped, which is still to come. -/
  ahead     : Bool := false
  /-- R156: the shadows are being reloaded from the DRAM image. -/
  reloading : Bool := false
  /-- R156: when the present scrub pass began. -/
  scrubFrom : Nat := 0
deriving DecidableEq, Repr

/-- R152 to R167: the atlas of a camera port beside its objects. -/
structure AtPort where
  /-- R165: the live image, and the previous or staged one. -/
  image    : Option AtlasImage := none
  other    : Option AtlasImage := none
  /-- R163: the line of this arming at which the live atlas was swapped in; 0 before a swap. -/
  swapLine : Nat := 0
  /-- R161: the blob of a running load. -/
  loading  : Option (List Byte) := none
  /-- R161, R406: it was copied from scratch. -/
  fromScratch : Bool := false
  /-- R164: until which line the previous atlas is held. -/
  holdLine : Option Nat := none
deriving DecidableEq, Repr

/-- R176: a class slot. -/
structure ClassSlot where
  cls      : Nat
  area     : Nat
  severity : Nat
deriving DecidableEq, Repr

/-- R176 to R178: the accumulators of an object, or of one region of it. -/
structure Acc where
  area     : Nat := 0
  defect   : Nat := 0
  severity : Nat := 0
  perim    : Nat := 0
  sat      : Nat := 0
  subst    : Nat := 0
  attach   : Nat := 0
  other    : Nat := 0
  minCol   : Option Nat := none
  maxCol   : Nat := 0
  sc       : Int := 0
  sl       : Int := 0
  scc      : Int := 0
  sll      : Int := 0
  scl      : Int := 0
  su       : Nat := 0
  sv       : Nat := 0
  sw       : Nat := 0
  slots    : List ClassSlot := []
  /-- R193, R202: the first and last lines of its object sites, and the lowest column of them on the first. -/
  firstL   : Option Nat := none
  lastL    : Nat := 0
  anchor   : Nat := 0
deriving DecidableEq, Repr

/-- R195: a contact with a seam: the first and last trigger times of the lines with a site in the edge column. -/
structure Contact where
  east  : Bool
  first : Nat
  last  : Nat
deriving DecidableEq, Repr

/-- R170 to R177: an open object or a part of one. -/
structure SgObj where
  id       : Nat
  /-- R169: its key; none for the overflow object. -/
  key      : Option Nat
  port     : Nat
  group    : Nat
  epoch    : Nat
  first    : Nat
  last     : Nat
  /-- Its runs on its last line, and those of the line being processed. -/
  runs     : List Run := []
  fresh    : List Run := []
  /-- R354: its columns on its first line. -/
  head     : Option (Nat × Nat) := none
  anchorLine : Nat
  anchorCol  : Nat
  acc      : Acc := {}
  /-- R177: one for each region, west to east; empty without a seam. -/
  regions  : List Acc := []
  /-- R180: bits TRUNCATED, LEFT, RIGHT and CONTINUED; and TRUNCATED by region. -/
  edge     : Nat := 0
  cut      : List Bool := []
  contacts : List Contact := []
  part     : Nat := 0
  result   : TrackResult := {}
  overflow : Bool := false
  /-- R175: it closed on the line being processed. -/
  closed   : Bool := false
  /-- R173: its closing line, once closed, and that line's trigger time. -/
  closeLine : Nat := 0
  closeTime : Nat := 0
  /-- R296: the pipeline that was live for the port at its closing line. -/
  pipe      : Nat := 255
  /-- R328: it was produced while the spare caught up. -/
  replayed : Bool := false
deriving DecidableEq, Repr

/-- R178, R180: a site of the last line whose lower neighbours are still to come. -/
structure SgPend where
  id     : Nat
  col    : Nat
  perim  : Bool
  trunc  : Bool
deriving DecidableEq, Repr

/-- R169 to R182: the segmentation of a camera port. -/
structure SgPort where
  objs   : List SgObj := []
  nextId : Nat := 0
  /-- The line processed last, its trigger time, its INVALID columns and the object of each of its object sites. -/
  line   : Nat := 0
  time   : Nat := 0
  inv    : List Bool := []
  own    : List (Option Nat) := []
  pend   : List SgPend := []
  /-- R181: closed parts on their way out, in order. -/
  done   : List SgObj := []
deriving DecidableEq, Repr

/-- R195, R199: a contact of a candidate at a seam: the seam's number from the west (0 the west unit seam, k the seam east of
the k-th port of `ST_ORDER`, 200 to 203 those of lent ports), whether the candidate lies west of it, and the times. -/
structure SeamContact where
  seam    : Nat
  west    : Bool
  first   : Nat
  last    : Nat
deriving DecidableEq, Repr

/-- R354: the identity, last line and column span of a part that was accepted, merged or yielded. -/
structure PartId where
  port   : Nat
  first  : Nat
  anchor : Nat
  index  : Nat
  last   : Nat
  lo     : Nat
  hi     : Nat
deriving DecidableEq, Repr

/-- R195 to R202: a primary half: of a candidate of this unit, or from a neighbour's SUMMARY. -/
structure Half where
  /-- The chord port it came over; none for this unit's own. -/
  link      : Option Nat := none
  /-- R202: its PART_ID on each chord port it was sent or received on. -/
  ids       : List (Nat × Nat) := []
  port      : Nat
  group     : Nat
  epoch     : Nat
  first     : Nat
  last      : Nat
  firstTime : Nat
  closeLine : Nat
  closeTime : Nat
  /-- R354: its whole part, of a half of this unit. -/
  whole     : PartId := { port := 0, first := 0, anchor := 0, index := 0, last := 0, lo := 0, hi := 0 }
  /-- R296: the pipeline that formed it, of a half of this unit. -/
  pipe      : Nat := 255
  /-- R199: when its candidate left segmentation. -/
  left      : Nat
  contacts  : List SeamContact
  /-- R196: HALF_X in 0.1 µm, the centroid position in 1/256 column, HALF_SLOPE. -/
  x         : Int
  centre    : Int
  slope     : Nat
  acc       : Acc
  edge      : Nat
  part      : Nat
  result    : TrackResult
  anchorCol : Nat
  anchorX   : Int
  replayed  : Bool := false
deriving DecidableEq, Repr

/-- R195, R203: a group of halves. -/
structure SeamGroup where
  halves  : List Half
  /-- R204: when its last part closed. -/
  closed  : Nat
  /-- R203: since when it waits for TAKEN; none while it is not resolved. -/
  waiting : Option Nat := none
  /-- R204, R207: a loan ended, and with it the traffic at a unit seam that its halves touch. -/
  cutOff  : Bool := false
deriving DecidableEq, Repr

/-- R199 to R207: stitching. -/
structure Stitch where
  groups  : List SeamGroup := []
  /-- R202: PART_IDs given, by chord port. -/
  nextId  : Tab Nat := []
  /-- R201: the peer's last WATERMARK, and when the unit last sent one, by chord port. -/
  marks   : Tab Nat := []
  sentAt  : Tab Nat := []
  /-- R191: the sum and number of plane-R values by column, and the lines averaged, by port. -/
  calSums : Tab (List (Nat × Nat)) := []
  calLines : Tab Nat := []
  /-- R191: ports whose calibration has finished. -/
  calDone : List Nat := []
  calBad  : Bool := false
  /-- R207: the port lent to the neighbour over each chord port, and the home port served for it. -/
  lent    : Tab (Option Nat) := []
  served  : Tab (Option Nat) := []
deriving DecidableEq, Repr

/-- R194 to R205: an object on its way to the verdict and the acceptor. -/
structure Judged where
  port      : Nat
  group     : Nat
  epoch     : Nat
  first     : Nat
  last      : Nat
  firstTime : Nat
  closeLine : Nat
  closeTime : Nat
  anchorCol : Nat
  acc       : Acc
  facets    : List Int
  /-- R298 without THUMB and FAILSAFE; R299. -/
  flags     : Nat
  mask      : Nat
  result    : TrackResult
  centroid  : Int
  west      : Int
  east      : Int
  wait      : Nat
  /-- R296: the physical pipeline that formed the owner's part. -/
  pipe      : Nat := 255
  /-- R203: the PART_IDs to name in TAKEN, by chord port. -/
  taken     : List (Nat × List Nat) := []
  /-- R205: the span a widened order reaches to. -/
  widen     : Option (Int × Int) := none
  arrived   : Nat := 0
  /-- R352, R354: the parts of this unit that it holds. -/
  parts     : List PartId := []
  /-- R216: the verdict and its CLAUSE, once judged. -/
  outcome   : Nat := 0
  clause    : Nat := 255
deriving DecidableEq, Repr

/-- R221, R238: the positions a group's epoch uses. -/
structure EpPos where
  epoch : Nat
  scan  : Int
  rows  : List Int
deriving DecidableEq, Repr

/-- R211 to R238: the verdict and the ephemeris of a port group. -/
structure VdGroup where
  /-- R238: the positions of the group's last 64 epochs, newest first. -/
  positions : List EpPos := []
  /-- R222: a position of the group's live epoch was held. -/
  held      : Bool := false
  /-- R237: until which line the previous program and the previous class table are held. -/
  progHold  : Option Nat := none
  tableHold : Option Nat := none
  /-- R218: VD_CLASS_MISMATCH stands. -/
  mismatch  : Bool := false
deriving DecidableEq, Repr

/-- R226 to R228: when, or at which belt counts, an object crosses an ejector row. -/
structure Transit where
  row     : Nat
  surface : Bool := false
  lead    : Int
  centre  : Int
  trail   : Int
  vRow    : Nat := 0
deriving DecidableEq, Repr

/-- R267: why a pulse did not complete or a position went uncovered, in the order that decides the outcome. -/
inductive Cause where
  | power | reset | interlock | late | thermal | uncovered | overflow
deriving DecidableEq, Repr

/-- R248, R357: what an entry of the in-flight queue is: an accepted order, an ejection of R233, a blanket pulse of R357, or
the remote order that came over a chord port. -/
inductive FlightKind where
  | own | overflow | blanket
  | remote (link : Nat)
deriving DecidableEq, Repr

/-- R267, R288: an edge of a pulse: planned, in a frozen frame, executed (echoed, or counted so), or lost on the link. -/
inductive Edge where
  | planned
  | frozen (frame : Nat)
  | executed
  | lost
deriving DecidableEq, Repr

/-- R256: in surface mode, the belt counts of a pulse's edges before the latencies, and the latencies in ns. -/
structure BeltEdges where
  lead   : Int
  trail  : Int
  open_  : Int
  close  : Int
deriving DecidableEq, Repr

/-- R249 to R258: a planned pulse of a valve. -/
structure Pulse where
  id     : Nat
  valve  : Nat
  /-- R255: a pre-charge; R529: a test pulse. -/
  pre    : Bool := false
  test   : Bool := false
  /-- The in-flight orders it serves. -/
  orders : List Nat := []
  /-- R249, R259: it serves its own valve's position; it has been moved. -/
  direct : Bool := true
  moved  : Bool := false
  on     : Int
  off    : Int
  /-- R256, R258: what its edge times are predicted from in surface mode, and whether they are. -/
  belt   : Option BeltEdges := none
  timed  : Bool := true
  onEdge  : Edge := .planned
  offEdge : Edge := .planned
  /-- R255: the main pulse this pre-charge precedes. -/
  main   : Option Nat := none
  /-- R255: its pre-charge was sent. -/
  charged : Bool := false
  /-- R250, R256: the width limits changed its last prediction. -/
  clipped : Bool := false
  /-- R286: its on edge has met a repeated off edge, and does not come before this time. -/
  after   : Int := 0
deriving DecidableEq, Repr

/-- R248 to R274: an order in the in-flight queue. -/
structure Flight where
  id       : Nat
  kind     : FlightKind
  seq      : Nat
  orderId  : Nat
  port     : Nat
  accepted : Nat
  transit  : Transit
  west     : Int
  east     : Int
  /-- R257, R272: G. -/
  grace    : Nat := 0
  /-- R249: its positions, and which valve serves which position. -/
  positions : List Nat := []
  serves    : List (Nat × Nat) := []
  causes   : List Cause := []
  flags    : Nat := 0
  /-- R269: valves with a completed main pulse, and the executed main edges. -/
  fired    : List Nat := []
  onTime   : Option Int := none
  offTime  : Int := 0
  /-- R257: on edges were advanced. -/
  advanced : Bool := false
  /-- R271, R274: chord ports whose result is still to come; valves that fired there; whether a part there fired. -/
  remote      : List Nat := []
  remoteFired : Nat := 0
  remoteOk    : Bool := false
  /-- R203: the PART_IDs its TAKEN named, by chord port. -/
  named    : List (Nat × Nat) := []
  /-- R271: OWNER_STATION of a remote order. -/
  station  : Nat := 0
  /-- R274: in surface mode, when the belt passed P_TRAIL. -/
  passed   : Option Nat := none
deriving DecidableEq, Repr

/-- R277: an entry of a frame and the pulse it commands. -/
structure FrameEdge where
  channel : Nat
  code    : Nat
  offset  : Nat
  pulse   : Nat
  on      : Bool
  /-- R286: an off edge that is satisfied by a repeat carries no entry of its own; R285: a repeat. -/
  again   : Bool := false
deriving DecidableEq, Repr

/-- R275: a frame of a link. -/
structure Frame where
  k     : Nat
  lead  : Nat
  edges : List FrameEdge
  /-- R283: its echo has come; the edges left were not in it. -/
  echoed : Bool := false
deriving DecidableEq, Repr

/-- R275 to R288: a valve bank link beside its objects. -/
structure VbLink where
  /-- R251: frames below this one have frozen. -/
  next      : Nat := 0
  /-- Frozen frames to transmit, and transmitted frames to be echoed, oldest first. -/
  frozen    : List Frame := []
  sent      : List Frame := []
  /-- R282, R284: echoes without error in a row, missing echoes in a row and the frame of the last of them, times of errors. -/
  good      : Nat := 0
  missing   : Nat := 0
  missedAt  : Option Nat := none
  errors    : List Nat := []
  /-- R281, R284: when the last STATUS came, or the link came up; when the last STATUS came. -/
  status    : Nat := 0
  heard     : Option Nat := none
  /-- R282: when the last PING was sent, and whether it has not returned. -/
  ping      : Option Nat := none
  pingOut   : Bool := false
  /-- R293: when an echo was last missing. -/
  late      : Option Nat := none
deriving DecidableEq, Repr

/-- R245, R255: a valve beside its objects. -/
structure Valve where
  /-- R245: consecutive status words with and without a fault. -/
  bad      : Nat := 0
  clean    : Nat := 0
  /-- R255: when it was last energised, and since when its periodic pre-charge counts. -/
  lastOff  : Option Int := none
  periodic : Option Nat := none
  /-- R285: the pulses whose off edge is repeated. -/
  again    : List Nat := []
  /-- R528: its last completed main pulse since the last status word was preceded by its pre-charge, or not. -/
  ran      : Option Bool := none
  /-- R529: a test pulse was completed since the last status word. -/
  tested   : Bool := false
deriving DecidableEq, Repr

/-- R243 to R288: the ejector bank. -/
structure Bank where
  flights  : List Flight := []
  pulses   : List Pulse := []
  links    : Tab VbLink := []
  valves   : Tab Valve := []
  nextId   : Nat := 1
  /-- R262: since when every source has been closed. -/
  closedAt : Option Nat := none
  /-- R588: when the last gate event was. -/
  gateEvent : Option Nat := none
  /-- R491: the executed valve edges of the last 50 ms: their link and their time. -/
  edges    : List (Nat × Int) := []
deriving DecidableEq, Repr

/-- R310: a stored row of a thumbnail history: its selected planes in ascending bit order, the flags plane last. -/
structure HistRow where
  row    : Nat
  planes : List (List Nat)
deriving DecidableEq, Repr

/-- R310: the thumbnail history of a port: its newest rows first, and the lines of the row that is being formed. -/
structure Hist where
  rows  : List HistRow := []
  lines : List RgLine := []
  classes : List (List Nat) := []
deriving DecidableEq, Repr

/-- R309 to R312: a thumbnail that waits for its last row. -/
structure ThumbJob where
  seq     : Nat
  port    : Nat
  home    : Nat
  facets  : List Int
  row0    : Nat
  rows    : Nat
  col0    : Nat
  cols    : Nat
  /-- R312: CLIPPED, PARTIAL_VIEW. -/
  clipped : Bool
  partial_ : Bool
  /-- R404: when its object was accepted. -/
  since   : Nat := 0
deriving DecidableEq, Repr

/-- R314: a sample of a tap: its value and its flags, bit 0 INVALID, 1 SAT, 2 PLATE, 3 SUBST. -/
structure RtSample where
  value : Nat
  flags : Nat
deriving DecidableEq, Repr

/-- R314: one line at a tap: its planes in bit order, and bits 3:0 of its line flags. -/
structure RtLine where
  line   : Nat
  planes : List (List RtSample)
  flags  : Nat
deriving DecidableEq, Repr

/-- R593: the buffers placed at the last exit from PREOP, by number and size in bytes, and how many exits there have been.
Buffers: 0 the thumbnail slots; 1 + 16 k the replay buffer of port k, 2 + 16 k its snapshots, 3 + 16 k its thumbnail history,
8 + 16 k + n its reticle ring n. -/
structure Placement where
  exits : Nat := 0
  sizes : List (Nat × Nat) := []
deriving DecidableEq, Repr

/-- R339, R340: an entry of the record window. -/
structure LedgerRecord where
  seq     : Nat
  record  : List Byte
  /-- Empty without `EXT_ENABLE`. -/
  ext     : List Byte
  /-- R404: when its write to the copies was asked for. -/
  since   : Nat := 0
  /-- R340: both copies hold it. -/
  stored  : Bool := false
  written : Bool := false
  /-- R347: it has gone to the mirror and waits for CONFIRM, since when. -/
  mirror  : Option Nat := none
deriving DecidableEq, Repr

/-- R339: an order entry of the order window; its outcome record is empty while the order is open. -/
structure LedgerOrder where
  orderId : Nat
  seq     : Nat
  row     : Nat
  outcome : List Byte := []
  /-- R404: when its write to the copies was asked for. -/
  since   : Nat := 0
  /-- R340: both copies hold it. -/
  stored  : Bool := false
  written : Bool := false
  /-- R347: it has gone to the mirror and waits for CONFIRM, since when. -/
  mirror  : Option Nat := none
deriving DecidableEq, Repr

/-- R234, R300: what the next summary covers. -/
structure Missed where
  verdicts   : List Nat := [0, 0, 0]
  ejected    : Nat := 0
  notEjected : Nat := 0
  mask       : Nat := 0
  first      : Nat
  last       : Nat
deriving DecidableEq, Repr

/-- R307: the writes of a ring since its last interrupt and when the first of them was made. -/
structure RingIrq where
  count : Nat := 0
  since : Nat := 0
deriving DecidableEq, Repr

/-- R347: the window the mirror partner keeps for its neighbour. -/
structure MirrorWindow where
  recordAck : Nat := 0
  orderAck  : Nat := 0
  records   : List (Nat × List Byte) := []
  /-- Order entries by ORDER_ID. -/
  outcomes  : List (Nat × List Byte) := []
deriving DecidableEq, Repr

/-- R339 to R347: the ledger. -/
structure Ledger where
  records : List LedgerRecord := []
  orders  : List LedgerOrder := []
  /-- R305: closed orders whose outcome is still to be written, in the order in which they closed. -/
  closed  : List Nat := []
  missed  : Option Missed := none
  recIrq  : RingIrq := {}
  outIrq  : RingIrq := {}
  /-- R370: the held low halves. -/
  recLow  : Option Nat := none
  outLow  : Option Nat := none
  /-- R347: what this unit keeps for its mirrored neighbour. -/
  mirrored : Option MirrorWindow := none
deriving DecidableEq, Repr

/-- R353: a pipeline fault on a port whose failover is still to come: when it was detected, when it arose, and its cause as
`RV_LAST_FAILOVER` codes it. -/
structure PipeFault where
  port     : Nat
  pipeline : Nat
  detected : Nat
  since    : Nat
  cause    : Nat
deriving DecidableEq, Repr

/-- R352 to R358: the last failover of a port. -/
structure Failover where
  detected : Nat
  since    : Nat
  committed : Nat
  restart  : Nat
  /-- R353: the first line the spare processes. -/
  start    : Nat
  cut      : Bool
  /-- R355: the spare's projection output has reached line `restart`. -/
  reached  : Bool := false
  /-- R356: B1, the start of B2, and when the spare caught up. -/
  b1       : Option (Int × Int) := none
  b2       : Int := 0
  caught   : Option Nat := none
  /-- R357: until when blanket pulses have been planned for B2. -/
  planned  : Int := 0
deriving DecidableEq, Repr

/-- R349: a rotation in progress: the port, the spare, the snapshot line, the first line that is compared, when the compare
ended equal, and the spare's self-test after a mismatch. -/
structure Rotation where
  port     : Nat
  spare    : Nat
  snapshot : Nat
  begun    : Option Nat := none
  compared : Option Nat := none
  mismatch : Bool := false
deriving DecidableEq, Repr

/-- R329 to R358: parts, faults, rotation and failover. -/
structure Continuity where
  /-- R338: the parts that are faulty, by kind (the element of `CT_FAULTS`) and number. -/
  faulty   : List (Nat × Nat) := []
  kept     : List PartId := []
  /-- R353: pipeline faults whose failover is still to come, oldest first. -/
  faults   : List PipeFault := []
  failover : Tab (Option Failover) := []
  rotation : Option Rotation := none
  /-- R349: when the last rotation was due. -/
  rotated  : Nat := 0
  /-- R350, R535: pipelines in self-test and since when; the one whose pass declares the live pipeline of a port faulty. -/
  testing  : List (Nat × Nat) := []
  accuses  : Option (Nat × Nat) := none
  /-- R343: the ledger copy that is being written anew: which of the two, and onto which channel. -/
  copying  : Option (Nat × Nat) := none
  /-- R338: retrained DRAM channels that wait for a full copy of the ledger. -/
  returning : List Nat := []
  /-- R406: the line at which a port's replay buffer has refilled. -/
  refill   : Tab Nat := []
deriving DecidableEq, Repr

/-- R565: a save area of the Vault: its bytes up to the end of the ledger part, and the completion record once it is written. -/
structure SaveArea where
  image      : List Byte
  completion : List Byte := []
  /-- R345: how many of the records had an extended record (log entry 271). -/
  extended   : Nat := 0
deriving DecidableEq, Repr

/-- R342, R533, R538, R563: what the Vault keeps beside the dictionary. -/
structure Vault where
  seqMark   : Nat := 1
  orderMark : Nat := 1
  /-- R533: the settings store: values and blobs by object key; none while it is empty. -/
  store     : Option (Tab Int × Tab (List Byte)) := none
  /-- R533, R559: the other copy of the settings store, and whether the copy written last fails its CRC. -/
  storeOld  : Option (Tab Int × Tab (List Byte)) := none
  storeBad  : Bool := false
  /-- R538: the bytes of the two copies of the Almanac; none where a copy was never written. -/
  almA      : Option (List Byte) := none
  almB      : Option (List Byte) := none
  /-- R565: save areas A and B. -/
  saveA     : Option SaveArea := none
  saveB     : Option SaveArea := none
  /-- R566: the generation of the last restored save. -/
  restored  : Nat := 0
deriving DecidableEq, Repr

/-- R324: a block an engine has compressed: its index, its engine, its source bytes, and what failed in it. -/
structure CzBlock where
  index       : Nat
  engine      : Nat
  src         : List Byte
  sourceError : Bool
  verifyFail  : Bool
deriving DecidableEq, Repr

/-- R381 to R388: a job of a DMA channel, as its descriptors give it. -/
structure DmaJob where
  gen       : Nat
  /-- SRC_SPACE and DST_SPACE: device memory. -/
  srcDev    : Bool
  dstDev    : Bool
  /-- Source address, destination address and bytes of each piece, in ascending source order. -/
  pieces    : List (Nat × Nat × Nat)
  form      : Nat
  check     : Nat
  prio      : Nat
  compl     : Bool
  irqHalf   : Bool
  irqFull   : Bool
  tag       : Nat
  czCtrl    : Nat
  outLimit  : Nat
  indexAddr : Nat
  /-- R384: it moves from the highest byte downward. -/
  down      : Bool := false
  /-- Bytes written so far, or, for compression, source bytes consumed, and the source bytes themselves. -/
  moved     : Nat := 0
  read      : List Byte := []
  /-- R323: compression: blocks written, output bytes, the block that ended the job. -/
  blocks    : Nat := 0
  outBytes  : Nat := 0
  endBlock  : Nat := 0
  /-- R385: the mover it runs on, or its last one. -/
  mover     : Nat := 0
  /-- R324: compression: the blocks given to engines so far, and those that are compressed and not yet written. -/
  issued    : Nat := 0
  early     : List CzBlock := []
  /-- R385: the bytes a pre-empted job has read and not yet written. -/
  staged    : List Byte := []
deriving DecidableEq, Repr

/-- R390: a DMA channel: its registers, the committed set and the job taken. -/
structure DmaChannel where
  shadow       : List Byte := List.replicate 64 0
  committed    : Option (List Byte) := none
  genCommitted : Nat := 0
  genTaken     : Nat := 0
  bytesDone    : Nat := 0
  blocksDone   : Nat := 0
  /-- R394: STATUS. -/
  code         : Nat := 0
  state        : Nat := 0
  done         : Bool := false
  half         : Bool := false
  /-- The descriptor taken, while the job is validated or its list is fetched. -/
  taken        : List Byte := []
  job          : Option DmaJob := none
deriving DecidableEq, Repr

/-- R371: a mailbox request that is latched. -/
structure MbRequest where
  tag    : Nat
  op     : Nat
  object : Nat
  offset : Nat
  length : Nat
  final  : Bool
  data   : List Byte
deriving DecidableEq, Repr

/-- R371 to R374: the mailbox. -/
structure Mailbox where
  request : Option MbRequest := none
  /-- MB_CMD, MB_OBJECT, MB_OFFSET, MB_LENGTH and MB_FLAGS, as the host wrote them last. -/
  cmd     : Nat := 0
  object  : Nat := 0
  offset  : Nat := 0
  length  : Nat := 0
  flags   : Nat := 0
  /-- MB_STATUS. -/
  tag     : Nat := 0
  result  : Nat := 0
  state   : Nat := 0
  /-- MB_DATA: its 4,096 bytes; those past the list are zero. -/
  data    : List Byte := []
  /-- R373: the open segmented writes: the object of each, its bytes so far, and when its last segment came. -/
  partials : List (Nat × List Byte × Nat) := []
deriving DecidableEq, Repr

/-- R365 to R391: the host port's own state. -/
structure Cxl where
  /-- R367: the link is in L0. -/
  linkUp     : Bool := false
  /-- R367: the width it trained at. -/
  width      : Nat := 0
  /-- R367: when the link left L0, while it may still return. -/
  recovery   : Option Nat := none
  /-- R365, R368: IDE is active on CXL.io, CXL.cache and CXL.mem. -/
  ide        : List Bool := [false, false, false]
  /-- R365: the selective stream of CXL.io's IDE. -/
  ideStream  : Option Nat := none
  /-- R365: the modes of IDE on CXL.cache and CXL.mem. -/
  ideModes   : List (Option IdeMode) := [none, none]
  /-- R576: CXL_PERST_N is high. -/
  perst      : Bool := false
  /-- R369: CAUSE. -/
  cause      : Nat := 0
  /-- R379: the vectors a host write has unmasked (log entry 5: masked at reset, as the MSI-X standard has it). -/
  unmasked   : List Nat := []
  /-- R369: the message addresses and data of the MSI-X table. -/
  msixTable  : Tab (Nat × Nat) := []
  /-- R379: the pending bits. -/
  pendingVec : List Nat := []
  mb         : Mailbox := {}
  dma        : Tab DmaChannel := []
  /-- R324: the compression engines at work: the engine, and the channel and the index of its block. -/
  engines    : List (Nat × Nat × Nat) := []
  /-- R377: the 64-byte lines the host holds, the one tracked longest first. -/
  held       : List Nat := []
deriving DecidableEq, Repr

/-- R401, R406: a DRAM channel beside its objects. -/
structure DramChannel where
  /-- R401: the banks whose refreshes are due and not yet issued, the oldest first, and the bank whose turn is next. -/
  owed   : List Nat := []
  bank   : Nat := 0
  /-- R401: the temperature reading of this channel's DRAM is above 85 °C. -/
  hot    : Bool := false
  /-- R403: the shift register that the draws come from, and the rows, with their banks, whose neighbours are to be refreshed. -/
  lfsr   : Nat := 0
  near   : List (Nat × Nat) := []
  /-- R406: when uncorrectable errors occurred, newest first. -/
  errors : List Nat := []
  /-- R407: it was faulty and has had its full retrain. -/
  retrained : Bool := false
  /-- R401, R408: when its next refresh and its next periodic calibration fall due; 0 before the first. -/
  due    : Nat := 0
  calDue : Nat := 0
deriving DecidableEq, Repr

/-- R440: the access paths beside their level objects. -/
structure AccessState where
  /-- When each path last had a request. -/
  lastChain   : Nat := 0
  lastHost    : Nat := 0
  /-- Failed unlock and code attempts since the last success or lockout. -/
  failsChain  : Nat := 0
  failsHost   : Nat := 0
  /-- Until when a path's attempts are refused. -/
  lockChain   : Nat := 0
  lockHost    : Nat := 0
  /-- When the nonce last changed. -/
  nonceTime   : Nat := 0
deriving DecidableEq, Repr

/-- R421 to R435: the chain port's own state. -/
structure Mer where
  /-- R412: the medium each port chose at power-on, once it is known: fibre is 1000BASE-X. -/
  media    : Tab (Option Bool) := []
  /-- R425: MARK_FWD, MARK_RET and LOOP_TIME. -/
  markFwd  : Nat := 0
  markRet  : Nat := 0
  loop     : Nat := 0
  /-- R426: the last error e, `integ`, when the last SPREAD came, and the runs of good and bad ones. -/
  error    : Int := 0
  integ    : Int := 0
  spread   : Option Nat := none
  goodRun  : Nat := 0
  badRun   : Nat := 0
  /-- R433: when the output window was last written, or RUN entered. -/
  cyclic   : Nat := 0
  /-- R419: the writes of the frame that passes, held until its FCS has been checked: the ACTION and the datagram of each. -/
  held     : List (Nat × Datagram) := []
  /-- R434, R435: the request that is held, the kept response, RESP_READY, and the TAG of the last request. -/
  request  : Option MbRequest := none
  response : List Byte := []
  ready    : Bool := false
  lastTag  : Option Nat := none
  /-- R373: the open segmented writes: the object of each, its bytes so far, and when its last segment came. -/
  partials : List (Nat × List Byte × Nat) := []
deriving DecidableEq, Repr

/-- R446: a firmware image in a flash slot that has been checked. -/
structure FwImage where
  version  : Nat
  rollback : Nat
deriving DecidableEq, Repr

/-- R446 to R448: the firmware slots and what the flash keeps of them. -/
structure Firmware where
  /-- The image in slots A and B; none where the slot is empty. -/
  slotA     : Option FwImage := none
  slotB     : Option FwImage := none
  /-- The committed slot, and the slot marked trial: true is B. -/
  committed : Bool := false
  trial     : Option Bool := none
  /-- The slot that runs, once start-up has chosen one. -/
  running   : Option Bool := none
  /-- R448: when the trial image began. -/
  trialFrom : Nat := 0
  /-- R448: a trial image was abandoned; the next boot shows it. -/
  abandoned : Bool := false
  /-- R452: the slots whose image failed its check at the last start. -/
  failed    : List Bool := []
  /-- R447: the image that is being written. -/
  writing   : Option FwImage := none
deriving DecidableEq, Repr

/-- R443, R444: a state transition that runs: its target and the object whose request began it. -/
structure Transition where
  target : Nat
  since  : Nat
deriving DecidableEq, Repr

/-- R455, R463: an activation on its way to a task, with the channels it came through. -/
structure Activation where
  task : Nat
  time : Nat
  tags : List Nat
deriving DecidableEq, Repr

/-- R465: what drives an EVT output: the resynchronised and the asynchronous channels, with the ends of their pulses. -/
structure EvtPin where
  drive      : Bool := false
  until_     : Nat := 0
  asyncDrive : Bool := false
  asyncUntil : Nat := 0
deriving DecidableEq, Repr

/-- R470 to R473: a two-wire port beside its objects. -/
structure TwPort where
  /-- R481: a transaction, or a transfer addressed to TW2, runs. -/
  busy       : Bool := false
  /-- R473: how often this transaction lost arbitration, and that it waits for a STOP. -/
  lost       : Nat := 0
  waits      : Bool := false
  /-- R471: until when the bus is cleared, and that it was still held low then. -/
  clearUntil : Nat := 0
  stuck      : Bool := false
  /-- R481: the last transaction ended with a status other than OK, or lost arbitration. -/
  error      : Bool := false
  arbLost    : Bool := false
deriving DecidableEq, Repr

/-- R475: a transfer of TW0, as staged when it started. -/
structure TwXfer where
  address : Nat
  write   : List Byte
  read    : Nat
deriving DecidableEq, Repr

/-- R474 to R477: TW0's traffic and TW2's pointer. -/
structure TwoWire where
  /-- R474: the reads of the poll that runs or waits, as address and register. -/
  polls   : List (Nat × Nat) := []
  /-- R474: when the last poll fell due. -/
  polled  : Nat := 0
  /-- R474: the consecutive failures of each read, by 256 × address + register. -/
  fails   : Tab Nat := []
  /-- R475: the transfer that runs or waits. -/
  xfer    : Option TwXfer := none
  /-- R475: what runs on TW0: 0 nothing, 1 the poll, 2 the transfer. -/
  running : Nat := 0
  /-- R477: the register pointer. -/
  pointer : Nat := 0
deriving DecidableEq, Repr

/-- R453 to R466: the lattice beside its dictionary objects. -/
structure Lattice where
  /-- R462: when each channel last forwarded, plus one; 0 never. -/
  lastFwd     : Tab Nat := []
  /-- R457, R460: by channel, its word before the last write of it, and by level source, its level before the last change, each
  with the time of that. -/
  words       : Tab (Nat × Nat) := []
  prior       : Tab (Nat × Bool) := []
  /-- R461: activations that have not reached their task. -/
  activations : List Activation := []
  /-- R463: by block, the time and the tags of its latest activations. -/
  recent      : Tab (List (Nat × List Nat)) := []
  /-- R479: when a task last merged events, plus one; 0 never. -/
  lastMerge   : Nat := 0
  /-- R465: by event pin. -/
  pins        : Tab EvtPin := []
  /-- R466: the period and the phase in force, by timer. -/
  timers      : Tab (Nat × Nat) := []
  /-- R468: by two-wire port. -/
  ports       : Tab TwPort := []
  /-- R474 to R477. -/
  tw          : TwoWire := {}
deriving DecidableEq, Repr

/-- R492: the settings of the pressure comparator. -/
structure Pressure where
  low   : Int := 0
  hyst  : Int := 0
  count : Nat := 4
deriving DecidableEq, Repr

/-- R484 to R497: a monitor channel beside its objects. -/
structure AmChannel where
  /-- R484: the last codes, newest first. -/
  codes   : List Nat := []
  /-- R485: the integrators and combs. -/
  integ   : List Int := []
  comb    : List Int := []
  /-- R486: the last 63 decimated values, newest first. -/
  fir     : List Int := []
  /-- R496: values discarded. -/
  dropped : Nat := 0
  /-- R489: the block: its length, its values so far, their sum and the sum of their squares. -/
  block   : Nat := 0
  count   : Nat := 0
  sum     : Int := 0
  squares : Nat := 0
  hi      : Int := 0
  lo      : Int := 0
  /-- R490: d. -/
  dc      : Int := 0
  /-- R491: since when values have been frozen without a break. -/
  frozen  : Option Nat := none
  /-- R492: runs of low and of high values, and what the comparator reports apart from R494. -/
  lowRun  : Nat := 0
  highRun : Nat := 0
  low     : Bool := true
  /-- R492: the comparator's settings as the channel's last output sample left them. -/
  press   : Pressure := {}
  /-- R497: when the last run of full-scale codes was. -/
  overAt  : Nat := 0
deriving DecidableEq, Repr

/-- R504, R506: a packet sent and not yet acknowledged. -/
structure ChPacket where
  cls     : Nat
  typ     : Nat
  seq     : Nat
  payload : List Byte
  tries   : Nat := 0
deriving DecidableEq, Repr

/-- R506: a packet that waits because the replay buffer is full, with the time it became ready. -/
structure ChWait where
  cls     : Nat
  typ     : Nat
  payload : List Byte
  ready   : Nat
deriving DecidableEq, Repr

/-- R502 to R514: a chord port beside its objects. -/
structure ChPort where
  nextSeq : Nat := 0
  /-- R506: the next SEQ expected, and whether packets have come since the last ACK. -/
  expect  : Nat := 0
  ackDue  : Bool := false
  replay  : List ChPacket := []
  stalled : List ChWait := []
  /-- R514: packets sent since the last corrupted one. -/
  inject  : Nat := 0
  /-- R508, R510: when the port last sent, last heard, and last carried SEAM, ORDER, MIRROR or LOAN traffic. -/
  lastSend    : Nat := 0
  lastHeard   : Nat := 0
  lastTraffic : Nat := 0
  /-- R510: an L1_REQ waits for its L1_ACK. -/
  l1Asked : Bool := false
  /-- R502: what the far end's HELLO said. -/
  peer    : Option Hello := none
deriving DecidableEq, Repr


/-- R520 to R523: a calibration request in the queue. -/
structure CalRequest where
  task    : Nat
  target  : Nat
  forced  : Bool
  /-- R523: its deadline. -/
  due     : Nat
  /-- R522: the engine has started it. -/
  started : Bool := false
  /-- R521: the valves without a result yet. -/
  left    : List Nat := []
  /-- R523: its forced run, and the first line, the last line and the port it has marked. -/
  forcing : Bool := false
  marked  : Option (Nat × Nat × Nat) := none
deriving DecidableEq, Repr

/-- R529: the threshold sweeps of a valve. -/
structure Sweep where
  /-- The width of the next test pulse, and the widths at which the armature moved. -/
  width : Nat := 10000
  found : List Nat := []
  /-- A test pulse is out and its status word still to come; a sweep ended without movement. -/
  waits : Bool := false
  still : Bool := false
deriving DecidableEq, Repr

/-- R523: an accepted object and the times at which it crosses the ejector rows. -/
structure Passing where
  port   : Nat
  first  : Nat
  last   : Nat
  rows   : List Int
deriving DecidableEq, Repr

/-- R519 to R539: the calibration engine and the Almanac beside their objects. -/
structure Calib where
  queue   : List CalRequest := []
  /-- R525: the objects of results that have been written since their task began, by key. -/
  beaten  : List Nat := []
  /-- R526: by port, the samples taken of each site and their sum. -/
  plate   : Tab (List (Nat × Int)) := []
  /-- R528: by valve, the samples taken and their sum. -/
  latency : Tab (Nat × Nat) := []
  /-- R529: by valve. -/
  sweeps  : Tab Sweep := []
  /-- R523: recent forced test pulses, by target and time, and the objects they can have met. -/
  tests   : List (Nat × Int) := []
  passing : List Passing := []
  /-- R535: the result of the last self-test of a pipeline since its request began. -/
  bist    : Tab Nat := []
  /-- R531: by monitor channel, the DAC elements in use. -/
  dac     : Tab (List Nat) := []
  /-- R530, R531: when each link was last measured and each channel last rotated. -/
  vernierAt : Tab Nat := []
  rotatedAt : Tab Nat := []
  /-- R536, R537: the residue of hours in seconds, and when the histograms were last sampled. -/
  residue : Nat := 0
  sampled : Nat := 0
  /-- R538: when the image was last written, so as to be written every 60 s. -/
  written : Nat := 0
  /-- R538: when the periodic write of the image that runs began. -/
  writing : Option Nat := none
  /-- R533: when the write of the settings store that runs began. -/
  storing : Option Nat := none
deriving DecidableEq, Repr


/-- R556: what began a SAVE, and when. -/
structure SaveRun where
  cause : Nat
  since : Nat
  /-- R565: the save area that is written, and the state at entry. -/
  area  : Nat
  /-- R557: when HOLD_OK was asserted. -/
  done  : Option Nat := none
deriving DecidableEq, Repr

/-- R544 to R568: the power manager. -/
structure Power where
  /-- R550: 0 before start-up, 1 to 8 the step that runs, 9 once PREOP was reached, 10 once start-up has ended in INIT. -/
  step    : Nat := 0
  /-- R546: the step of rails that runs, the attempts made, and when the last one failed. -/
  rail    : Nat := 1
  /-- R546: when that step was enabled. -/
  railAt  : Nat := 0
  tries   : Nat := 0
  failed  : Option Nat := none
  /-- R550: start-up follows a warm reset, and when it began. -/
  warm    : Bool := false
  start   : Nat := 0
  /-- R549: NRESET is held low. -/
  nreset  : Bool := false
  /-- R555: since when VIN has been below the threshold; it has been taken as a sag. -/
  below   : Option Nat := none
  sagged  : Bool := false
  /-- R559: when VIN last came back above the threshold. -/
  risen   : Nat := 0
  /-- R551: since when INIT waits for warm-up. -/
  coldAt  : Option Nat := none
  /-- R557: the save that runs or has been made. -/
  save    : Option SaveRun := none
  /-- R554: since when the part waits on standby power after a thermal trip. -/
  tripped : Option Nat := none
  /-- R568: deep sleep. -/
  asleep  : Bool := false
  /-- R554: the groups that are at or above the warning, and at or above the trip. -/
  warn    : List Nat := []
  trip    : List Nat := []
deriving DecidableEq, Repr

/-- The whole machine. -/
structure State where
  /-- The commands waiting, first in, first out. -/
  pending      : List Instr := []
  /-- R22, R37: device time, ns. -/
  now          : Nat := 0
  /-- R10: the events each counter has counted at the present instant, by the key of its object. -/
  fresh        : Tab Nat := []
  /-- R14 to R19: the live value of every dictionary object, by 256 × index + subindex. -/
  dict         : Tab Int := []
  /-- The live value of every STR and BLOB object, by the same key. -/
  blobs        : Tab (List Byte) := []
  /-- R17: values written in PREOP to objects of effect preop, not yet live. -/
  staged       : Tab Int := []
  /-- R17: blobs written in PREOP to objects of effect preop, not yet live. -/
  stagedBlobs  : Tab (List Byte) := []
  /-- R18, R31: the epochs of the twelve port groups and what is staged for them. -/
  epochs       : Epochs := {}
  /-- R449: the name in `ERR_LAST`. -/
  errName      : Option Ev := none
  /-- R13: the words each access path's latch holds. -/
  latches      : Latches := {}
  /-- What the part has sent: every packet, message, pin edge and host write, oldest first. -/
  out          : List Out := []
  /-- The model's own counter of open values drawn (log entry 3). -/
  draws        : Nat := 0
  /-- R375: the bytes of device memory the host reaches. -/
  mem          : List Host.Cell := []
  /-- R406, R409: how often the contents of DRAM were lost. -/
  lost         : Nat := 0
  /-- R399: the 64-byte blocks of the interleaved region whose last read was uncorrectable, until they are written again. -/
  dramBad      : List Nat := []
  /-- R395 to R411: by DRAM channel. -/
  dram         : Tab DramChannel := []
  /-- R400: when the present pass of the patrol scrub begins. -/
  scrubFrom    : Nat := 0
  /-- R453 to R466. -/
  lattice      : Lattice := {}
  /-- R369 to R391. -/
  cxl          : Cxl := {}
  /-- R440. -/
  access       : AccessState := {}
  /-- R37 to R62. -/
  tim          : Tim := {}
  /-- R63 to R91. -/
  cams         : Cams := {}
  /-- R92 to R119: by camera port. -/
  rc           : Tab RcPort := []
  /-- R120 to R151: by camera port. -/
  rg           : Tab RgPort := []
  /-- R211 to R242: by port group. -/
  vd           : Tab VdGroup := []
  /-- R152 to R167: by camera port. -/
  atl          : Tab AtPort := []
  /-- R152: by pipeline. -/
  apipes       : Tab AtlasPipe := []
  /-- R169 to R186: by camera port. -/
  sg           : Tab SgPort := []
  /-- R501 to R518: CHW, CHE. -/
  ch           : Tab ChPort := []
  /-- R513: by lane, the bits its generator has sent since it last inverted one. -/
  lanes        : Tab Nat := []
  /-- R187 to R210. -/
  st           : Stitch := {}
  /-- R230: judged objects in the order in which they reached the acceptor. -/
  judged       : List Judged := []
  /-- R243 to R288. -/
  bank         : Bank := {}
  /-- R339 to R347. -/
  lg           : Ledger := {}
  /-- R563. -/
  vault        : Vault := {}
  /-- R337 to R358. -/
  cont         : Continuity := {}
  /-- R593. -/
  place        : Placement := {}
  /-- R312, R316: the bytes written to thumbnail slots and reticle slots, by 2²⁰ × buffer + slot. -/
  slots        : Tab (List Byte) := []
  /-- R310: by camera port. -/
  hist         : Tab Hist := []
  /-- R312: thumbnails to be written, oldest first. -/
  thumbs       : List ThumbJob := []
  /-- R315: the lines each stream averages, newest first, by 8 × port + stream. -/
  rt           : Tab (List RtLine) := []
  /-- R262, R444: what put the unit into HOLD: 0 a request, 1 an interlock, 2 TIME_UNLOCK, 3 MER_WATCHDOG. -/
  holdBy       : Nat := 0
  /-- R421 to R435. -/
  mer          : Mer := {}
  /-- R446 to R448. -/
  fw           : Firmware := {}
  /-- R443: the transition that runs. -/
  trans        : Option Transition := none
  /-- R482 to R498: by monitor channel. -/
  am           : Tab AmChannel := []
  /-- R519 to R543. -/
  cal          : Calib := {}
  /-- R544 to R571. -/
  power        : Power := {}
deriving DecidableEq, Repr

/-- The part right after power reaches it (R550: BOOT, no step of the start-up done): every dictionary object at its
table's default, every unit idle, the queue empty. -/
def State.reset : State := {}

end Sys2Proof.Machine
end

