-- ==== Sys2Proof/Machine/Tab.lean ====
section
/-! DEFINITION. Reading and writing the sparse tables that hold registers, buffers and per-port state. -/

namespace Sys2Proof.Machine

open Sys2Proof

/-- The value at key `k`; `d` where the table lists no `k`. -/
def look {α : Type} (t : Tab α) (d : α) (k : Nat) : α :=
  match t with
  | [] => d
  | (k', v) :: r => if k = k' then v else look r d k

/-- The entry at key `k`, if the table lists one. -/
def find? {α : Type} (t : Tab α) (k : Nat) : Option α :=
  match t with
  | [] => none
  | (k', v) :: r => if k = k' then some v else find? r k

/-- The table without key `k`. -/
def unlist {α : Type} (t : Tab α) (k : Nat) : Tab α :=
  match t with
  | [] => []
  | (k', v) :: r => if k = k' then unlist r k else (k', v) :: unlist r k

/-- The table with `v` listed at `k`, keys kept rising. -/
def enlist {α : Type} (t : Tab α) (k : Nat) (v : α) : Tab α :=
  match t with
  | [] => [(k, v)]
  | (k', v') :: r =>
    if k < k' then (k, v) :: (k', v') :: r
    else if k = k' then (k, v) :: r
    else (k', v') :: enlist r k v

/-- The table whose value at `k` is `v`; a value equal to the default `d` is not listed. -/
def store {α : Type} [DecidableEq α] (t : Tab α) (d : α) (k : Nat) (v : α) : Tab α :=
  if v = d then unlist t k else enlist t k v

/-- The canonical form: strictly rising keys. -/
def rising {α : Type} (t : Tab α) : Bool :=
  match t with
  | [] => true
  | (k, _) :: r =>
    (match r with
     | [] => true
     | (k', _) :: _ => decide (k < k')) && rising r

end Sys2Proof.Machine
end

