-- ==== Sys2Proof/Machine/Ops.lean ====
section
/-! DEFINITION. The named operations over the machine's registers, memory, counters, events and outputs. Every meaning is
written over them. -/

namespace Sys2Proof.Machine

open Sys2Proof

/-! ## Device time -/

/-- R23: device time never decreases. A command that happens at `t` finds device time at least `t`. -/
def State.at (s : State) (t : Nat) : State := { s with now := max s.now t, fresh := if s.now < t then [] else s.fresh }

/-! ## The dictionary's live values -/

/-- The live value of an object: what every function of the device uses (R17). -/
def State.rd (s : State) (o : ObjRow) (b : Nat := 0) (e : Nat := 0) : Int := look s.dict (o.dfltAt e) (o.key b e)

/-- The live value as a natural number. -/
def State.rdN (s : State) (o : ObjRow) (b : Nat := 0) (e : Nat := 0) : Nat := (s.rd o b e).toNat

/-- The live value of a BOOL or of a one-bit state. -/
def State.flag (s : State) (o : ObjRow) (b : Nat := 0) (e : Nat := 0) : Bool := decide (s.rd o b e ≠ 0)

/-- The live value becomes `v`. -/
def State.put (s : State) (o : ObjRow) (b e : Nat) (v : Int) : State :=
  { s with dict := store s.dict (o.dfltAt e) (o.key b e) v }

/-- The live value becomes the natural number `v`. -/
def State.putN (s : State) (o : ObjRow) (b e v : Nat) : State := s.put o b e (v : Int)

/-- The live bytes of a STR or BLOB. -/
def State.rdBlob (s : State) (o : ObjRow) (b : Nat := 0) (e : Nat := 0) : List Byte := look s.blobs o.blob (o.key b e)

/-- The live bytes become `v`. -/
def State.putBlob (s : State) (o : ObjRow) (b e : Nat) (v : List Byte) : State :=
  { s with blobs := store s.blobs o.blob (o.key b e) v }

/-- The values of elements `0` to `n - 1`. -/
def State.rdList (s : State) (o : ObjRow) (b n : Nat) : List Int := (List.range n).map (fun e => s.rd o b e)

/-- Elements `0, 1, …` become the values of the list. -/
def State.putList (s : State) (o : ObjRow) (b : Nat) (vs : List Int) : State :=
  (vs.zipIdx).foldl (fun s p => s.put o b p.2 p.1) s

/-! ## Counters (R8 to R10) -/

/-- R8: the largest COUNT. -/
def countMax : Nat := 2 ^ 48 - 1

/-- R8: a counter word after `n` more events: COUNT saturates, and SAT is set with it. -/
def satCount (v n : Nat) : Nat :=
  if countMax ≤ v % 2 ^ 48 + n then 2 ^ 63 + countMax else v % 2 ^ 48 + n

/-- R8, R10: a saturating counter object counts `n` events, which stand also as those of the present instant. -/
def State.count (s : State) (o : ObjRow) (b e n : Nat) : State :=
  { s.putN o b e (satCount (s.rdN o b e) n) with fresh := store s.fresh 0 (o.key b e) (look s.fresh 0 (o.key b e) + n) }

/-- R10: a counter is cleared. The clear applies before the events of the same instant, which are then counted. -/
def State.clearCount (s : State) (o : ObjRow) (b e : Nat) : State :=
  s.putN o b e (satCount 0 (look s.fresh 0 (o.key b e)))

/-- R9: a histogram bin after `n` more events. -/
def satBin (v n : Nat) : Nat := min (v + n) 4294967295

/-- R9: bin `i` of a histogram counts `n` events; the bit of its SAT mask is set when the bin is full. -/
def State.bin (s : State) (o : ObjRow) (b e n : Nat) (sat : ObjRow) (sb se bit : Nat) : State :=
  let v := satBin (s.rdN o b e) n
  let s := s.putN o b e v
  if v = 4294967295 then s.putN sat sb se (s.rdN sat sb se ||| 2 ^ bit) else s

/-! ## Outputs -/

/-- The part sends `x`. -/
def State.emit (s : State) (x : Out) : State := { s with out := s.out ++ [x] }

/-! ## Free values -/

/-- The next open value of the run (log entry 3): nothing fixes it. -/
def State.free (s : State) : Nat := Config.freeValue s.draws

/-- The draw is used up. -/
def State.drawn (s : State) : State := { s with draws := s.draws + 1 }

/-! ## Interrupt messages (R379) -/

/-- R379: vector `v` is raised: its message goes out, or stays pending while it is masked or the link is down. -/
def State.vector (s : State) (v : Nat) : State :=
  if s.cxl.linkUp && s.cxl.unmasked.contains v then s.emit (.msix v)
  else if s.cxl.pendingVec.contains v then s
  else { s with cxl := { s.cxl with pendingVec := s.cxl.pendingVec ++ [v] } }

/-- R369, R379: CAUSE bit `n` is set; newly set, it raises vector 3. -/
def State.causeBit (s : State) (n : Nat) : State :=
  if s.cxl.cause.testBit n then s
  else { s with cxl := { s.cxl with cause := s.cxl.cause ||| 2 ^ n } }.vector 3

/-- R369, R478: every CAUSE bit whose `CX_CAUSE_MAP` element is the event number `num` is set. Element 0 names none. -/
def State.causeOf (s : State) (num : Nat) : State :=
  (List.range 64).foldl (fun s n =>
    let m := s.rdN Obj.CX_CAUSE_MAP 0 n
    if m = 0 then s else if m = num then s.causeBit n else s) s

/-! ## The event lattice's sources (R453 to R463) -/

/-- R454: the level of a level source. R453: source 127 is constant 1. -/
def State.level (s : State) (src : Nat) : Bool :=
  if src = 127 then true else (s.rdN Obj.EV_SOURCE_LEVEL 0 (src / 32)).testBit (src % 32)

/-- R453: the sources marked P. -/
def isPulse (src : Nat) : Bool :=
  decide (src < 36) || (decide (48 ≤ src) && decide (src < 52)) || src == 70 || src == 71 ||
    (decide (74 ≤ src) && decide (src < 109)) || (decide (112 ≤ src) && decide (src < 116)) ||
    (decide (118 ≤ src) && decide (src < 127))

/-- R453: the island a source arises in, by its number of R329; `async` for a source on an asynchronous channel. -/
def sourceIsland (src : Nat) (async : Bool) : Nat :=
  if src < 12 then 38 else if src < 24 then 15 + (src - 12) else if src < 36 then 38
  else if src < 48 then 15 + (src - 36) else if src < 56 then 38
  else if src < 64 then (if async then 39 else 38)
  else if src < 71 then 39 else if src < 74 then 0 else if src < 106 then 1 else if src < 108 then 35
  else if src < 110 then 1 else if src < 112 then 38 else if src < 116 then 39 else if src < 118 then 38
  else if src = 118 then 0 else 38

/-- R455: the island of a task: DMA and epochs, the host's interrupts, the pins, the two-wire ports, the state machine. -/
def taskIsland (task : Nat) (async : Bool) : Nat :=
  if task < 32 then 1 else if task < 48 then 35 else if task < 56 then (if async then 39 else 38)
  else if task < 68 then 38 else if task = 68 then 39 else if task < 72 then 0 else if task < 80 then 38 else 39

/-- R463: the block that acts on a task, by a number of the model's own. -/
def taskBlock (task : Nat) : Nat :=
  if task < 32 then 100 + task else if task < 48 then 600 else if task < 56 then 500 + (task - 48)
  else if task < 68 then 300 + (task - 56) else if task = 68 then 400 else if task < 72 then 200 else 700

/-- R463: the block that produces a source, by the same numbers; 1000 and up where no task acts on it. -/
def sourceBlock (src : Nat) : Nat :=
  if 74 ≤ src && src < 106 then 100 + (src - 74) else if 71 ≤ src && src < 74 then 200
  else if 24 ≤ src && src < 36 then 300 + (src - 24) else if src = 112 || src = 114 then 400
  else 1000 + src

/-- R329, R463: 64 cycles of a block, in whole ns: of CTL 53, of AON 2,560, of FAB and TIM 64. -/
def blockSpan (block : Nat) : Nat := if block = 200 then 53 else if block = 400 then 2560 else 64

/-- R463: the tags an event of a source carries: those of its block's activations within 64 of its cycles (log entry 15). -/
def State.tagsOf (s : State) (src : Nat) : List Nat :=
  let b := sourceBlock src
  (((look s.lattice.recent [] b).filter (fun (x : Nat × List Nat) => decide (s.now ≤ x.1 + blockSpan b))).flatMap
    (fun (x : Nat × List Nat) => x.2)).eraseDups

/-- R463: a block takes an activation with these tags; those too old to mark an event are forgotten. -/
def State.noteTags (s : State) (block : Nat) (tags : List Nat) : State :=
  let old := (look s.lattice.recent [] block).filter (fun (x : Nat × List Nat) => decide (s.now ≤ x.1 + blockSpan block))
  { s with lattice := { s.lattice with recent := enlist s.lattice.recent block (old ++ [(s.now, tags)]) } }

/-- R329: an island is held in reset, or its power is off. `ISLAND_STATE` 1 is running. -/
def State.islandRuns (s : State) (i : Nat) : Bool := decide (s.rd Obj.ISLAND_STATE 0 i = 1)

/-- R462, R464: a channel's minimum interval in ns; an asynchronous channel has a fixed 200 ns. -/
def channelInterval (n cfg : Nat) : Nat :=
  if 56 ≤ n then 200
  else (cfg % 4096) *
    (match (cfg / 4096) % 4 with
     | 0 => 10
     | 1 => 1000
     | 2 => 100000
     | _ => 10000000)

/-- R456: the four task fields of a channel word. -/
def channelTasks (cfg : Nat) : List Nat :=
  [(cfg / 2 ^ 35) % 128, (cfg / 2 ^ 28) % 128, (cfg / 2 ^ 21) % 128, (cfg / 2 ^ 14) % 128].filter (fun x => x != 127)

/-- R460: the level of a gate as last received: one that changed in this cycle counts with its level before. -/
def State.gateLevel (s : State) (src : Nat) : Bool :=
  match find? s.lattice.prior src with
  | some (t, v) => if t = s.now then v else s.level src
  | none => s.level src

/-- R457: the word in force of a channel: a word written in this cycle is not yet. -/
def State.channelWord (s : State) (n : Nat) : Nat :=
  match find? s.lattice.words n with
  | some (t, w) => if t = s.now then w else s.rdN Obj.EV_CH_CONFIG n 0
  | none => s.rdN Obj.EV_CH_CONFIG n 0

/-- R457, R460: what stood before the first change of a cycle, with the time of it. -/
def beforeChange {α : Type} (now : Nat) (l : Tab (Nat × α)) (k : Nat) (old : α) : Tab (Nat × α) :=
  if (find? l k).any (fun x => x.1 == now) then l else enlist l k (now, old)

/-- R463: a channel that received its own tag: it counts the loop, and with LOOP_STOP it is stopped. -/
def State.channelLoop (s : State) (n cfg : Nat) : State × Bool :=
  let s := s.count Obj.EV_CH_LOOP 0 n 1
  if cfg.testBit 62 then
    (((s.putN Obj.EV_CH_CONFIG n 0 (cfg - 2 ^ 63)).putN Obj.EV_CH_STATE 0 n 2).putN Obj.EV_STATUS 0 0
      (s.rdN Obj.EV_STATUS ||| 8), true)
  else (s, false)

/-- R459 to R464: what channel `n` does with an event of source `src` that carries `tags`; true when it was stopped by a
loop. -/
def State.channelEvent (s : State) (src : Nat) (tags : List Nat) (n : Nat) : State × Bool :=
  let cfg := s.channelWord n
  let async := decide (56 ≤ n)
  if cfg.testBit 63 && (cfg / 2 ^ 49) % 128 == src then
    if !async && !s.islandRuns (sourceIsland src false) then (s, false)
    else if tags.contains n then s.channelLoop n cfg
    else if cfg.testBit 61 && (s.gateLevel ((cfg / 2 ^ 42) % 128) == cfg.testBit 60) then
      (s.count Obj.EV_CH_GATED 0 n 1, false)
    else
      let last := look s.lattice.lastFwd 0 n
      if last ≠ 0 && s.now + 1 < last + channelInterval n cfg then (s.count Obj.EV_CH_LIMITED 0 n 1, false)
      else
        let s := s.count Obj.EV_CH_FIRED 0 n 1
        let act := ((channelTasks cfg).filter (fun k => async || s.islandRuns (taskIsland k false))).map
          (fun k => ({ task := k, time := s.now, tags := n :: tags } : Activation))
        ({ s with lattice := { s.lattice with
            lastFwd := store s.lattice.lastFwd 0 n (s.now + 1),
            activations := s.lattice.activations ++ act } }, false)
  else (s, false)

/-- The first `n` channels take an event of `src`; the channels a loop stopped are returned. -/
def State.channels (s : State) (src : Nat) (tags : List Nat) (n : Nat) : State × List Nat :=
  (List.range n).foldl (fun p n =>
    let q := p.1.channelEvent src tags n
    (q.1, if q.2 then p.2 ++ [n] else p.2)) (s, [])

/-- R449, R453, R478: a named event is raised on object `obj` (31:16 index, 15:8 subindex): `ERR_LAST` and `ERR_COUNT` take
it, the CAUSE bits mapped to it and to source 118 are set, and source 118 fires. A channel the event stops by a loop raises
EV_LOOP in its turn; `fuel` bounds that by the number of channels. -/
def raiseWith (fuel : Nat) (s : State) (e : Ev) (obj : Nat) : State :=
  let s := ((s.putN Obj.ERR_LAST 0 0 s.now).putN Obj.ERR_LAST 0 1 obj).count Obj.ERR_COUNT 0 0 1
  let s := { s with errName := some e }
  let s := (s.causeOf (Config.eventSlot e.ctorIdx + 256)).causeOf 119
  let p := s.channels 118 (s.tagsOf 118) 64
  match fuel with
  | 0 => p.1
  | f + 1 => p.2.foldl (fun s n => raiseWith f s .EV_LOOP (Obj.EV_CH_CONFIG.key n 0 * 256)) p.1

/-- R449: a named event is raised. -/
def State.raise (s : State) (e : Ev) (obj : Nat := 0) : State := raiseWith 64 s e obj

/-- The identity of an object in events and refusals: 31:16 index, 15:8 subindex (R444, R449). -/
def ObjRow.ident (o : ObjRow) (b : Nat := 0) (e : Nat := 0) : Nat := o.key b e * 256

/-- R453: source `src` fires: every channel that names it takes the event, and a CAUSE bit mapped to it is set. An event that is too
short for the asynchronous channels reaches the first 56 alone (R464). -/
def State.fire (s : State) (src : Nat) (n : Nat := 64) : State :=
  let tags := s.tagsOf src
  let s := s.causeOf (src + 1)
  let p := s.channels src tags n
  p.2.foldl (fun s n => s.raise .EV_LOOP (Obj.EV_CH_CONFIG.ident n 0)) p.1

/-- R453, R454, R460: a level source takes level `v`. A level that becomes 1 fires its event, gated on the levels of before, in the
first `n` channels. -/
def State.setLevel (s : State) (src : Nat) (v : Bool) (n : Nat := 64) : State :=
  let w := s.rdN Obj.EV_SOURCE_LEVEL 0 (src / 32)
  let old := w.testBit (src % 32)
  if old == v then s
  else
    let s := { s with lattice := { s.lattice with prior := beforeChange s.now s.lattice.prior src old } }
    if v then (s.fire src n).putN Obj.EV_SOURCE_LEVEL 0 (src / 32) (w ||| 2 ^ (src % 32))
    else s.putN Obj.EV_SOURCE_LEVEL 0 (src / 32) (w - 2 ^ (src % 32))

/-! ## Device memory (R375)

`lost` counts how often the contents of DRAM were lost. -/

/-- R375: bytes nothing has written read as zero (log entry 38); after a loss of DRAM contents they are undefined (R406). -/
def blankByte (lost a : Nat) : BitVec 8 := if lost = 0 then 0 else BitVec.ofNat 8 (Config.lostByte lost a)

/-- The byte at an address. -/
def memRead (lost : Nat) (m : List Host.Cell) (a : Nat) : BitVec 8 :=
  match m with
  | [] => blankByte lost a
  | (k, v) :: r => if a = k then v else memRead lost r a

/-- The memory without an entry at `a`. -/
def memErase (m : List Host.Cell) (a : Nat) : List Host.Cell :=
  match m with
  | [] => []
  | (k, v) :: r => if a = k then memErase r a else (k, v) :: memErase r a

/-- The memory with `v` listed at `a`, addresses kept rising. -/
def memInsert (m : List Host.Cell) (a : Nat) (v : BitVec 8) : List Host.Cell :=
  match m with
  | [] => [(a, v)]
  | (k, w) :: r =>
    if a < k then (a, v) :: (k, w) :: r
    else if a = k then (a, v) :: r
    else (k, w) :: memInsert r a v

/-- The memory after one byte is written; a byte equal to what an unlisted address reads as is not listed. -/
def memWrite (lost : Nat) (m : List Host.Cell) (a : Nat) (v : BitVec 8) : List Host.Cell :=
  if v = blankByte lost a then memErase m a else memInsert m a v

/-- The memory after bytes are written at rising addresses. -/
def memWriteList (lost : Nat) (m : List Host.Cell) (a : Nat) (bs : List Byte) : List Host.Cell :=
  match bs with
  | [] => m
  | b :: r => memWriteList lost (memWrite lost m a (BitVec.ofNat 8 b)) (a + 1) r

/-- The canonical form: strictly rising addresses and no entry that an unlisted address reads as. -/
def Memory.wf (lost : Nat) (m : List Host.Cell) : Bool := rising m && m.all (fun c => decide (c.2 ≠ blankByte lost c.1))

/-- The byte of device memory at an address. -/
def State.memByte (s : State) (a : Nat) : Byte := (memRead s.lost s.mem a).toNat

/-- `n` bytes from an address on. -/
def State.memBytes (s : State) (a n : Nat) : List Byte := (List.range n).map (fun i => s.memByte (a + i))

/-- R399: block `b` of 64 bytes holds one of the `n` bytes from `a` on. -/
def blockMeets (b a n : Nat) : Bool := decide (64 * b < a + n) && decide (a < 64 * b + 64)

/-- R399: one of the blocks that hold the `n` bytes from `a` on reads uncorrectable. -/
def State.unreadable (s : State) (a n : Nat) : Bool := s.dramBad.any (fun b => blockMeets b a n)

/-- R399: the `n` bytes from `a` on are written: their blocks read again. -/
def State.rewritten (s : State) (a n : Nat) : State := { s with dramBad := s.dramBad.filter (fun b => !blockMeets b a n) }

/-- Bytes are written at rising addresses. -/
def State.memStore (s : State) (a : Nat) (b : List Byte) : State :=
  { s with mem := memWriteList s.lost s.mem a b }.rewritten a b.length

/-- R406, R409: the contents of DRAM that the host reaches are lost. -/
def State.memLose (s : State) : State := { s with mem := [], lost := s.lost + 1, dramBad := [] }

/-! ## Bytes -/

/-- R5: a little-endian list of bytes as a number. -/
def leNat (l : List Byte) : Nat :=
  match l with
  | [] => 0
  | b :: r => b % 256 + 256 * leNat r

/-- R5: a number as `n` little-endian bytes. -/
def toLe (n v : Nat) : List Byte :=
  match n with
  | 0 => []
  | k + 1 => v % 256 :: toLe k (v / 256)

/-- Bytes `from` to `from + n - 1` of a list, as a number. -/
def leAt (l : List Byte) (start n : Nat) : Nat := leNat ((l.drop start).take n)

/-- The signed value of an `n`-byte number. -/
def signedOf (n v : Nat) : Int := if v % 2 ^ (8 * n) < 2 ^ (8 * n - 1) then ((v % 2 ^ (8 * n) : Nat) : Int)
  else ((v % 2 ^ (8 * n) : Nat) : Int) - (2 ^ (8 * n) : Nat)

/-- The two's complement of a signed value in `n` bytes. -/
def unsignedOf (n : Nat) (v : Int) : Nat := (v % ((2 ^ (8 * n) : Nat) : Int)).toNat

/-- One bit of the CRC-32C (polynomial 0x1edc6f41, reflected). -/
def crcBit (c : Nat) : Nat := if c % 2 = 1 then (c / 2) ^^^ 0x82f63b78 else c / 2

/-- One byte of the CRC-32C. -/
def crcByte (c b : Nat) : Nat :=
  crcBit (crcBit (crcBit (crcBit (crcBit (crcBit (crcBit (crcBit (c ^^^ b))))))))

/-- The CRC-32C of a list of bytes: all ones in, inverted out. -/
def crc32c (l : List Byte) : Nat := (l.foldl crcByte 0xffffffff) ^^^ 0xffffffff

/-- A byte enters the CRC-32 of IEEE 802.3, bit by bit. -/
def ieeeByte (c : Nat) (b : Byte) : Nat :=
  (List.range 8).foldl (fun c _ => if c % 2 = 1 then (c / 2) ^^^ 0xedb88320 else c / 2) (c ^^^ b)

/-! ## Arithmetic the chapters share -/

/-- R11: the difference of two 48-bit counts, sign-extended. -/
def wrap48 (v : Int) : Int :=
  let m := v % (2 ^ 48)
  if m < 2 ^ 47 then m else m - 2 ^ 48

/-- Division rounded to the nearest, halves away from zero. -/
def divNearest (a b : Int) : Int :=
  if a < 0 then -((2 * (-a) + b) / (2 * b)) else (2 * a + b) / (2 * b)

/-- One bit of an integer square root: the bit is kept where the square still fits. -/
def isqrtBit (n r b : Nat) : Nat := if (r + 2 ^ b) * (r + 2 ^ b) ≤ n then r + 2 ^ b else r

/-- The bits of an integer square root from bit `b` down. -/
def isqrtFrom (n r b : Nat) : Nat :=
  match b with
  | 0 => isqrtBit n r 0
  | k + 1 => isqrtFrom n (isqrtBit n r (k + 1)) k

/-- The floor of the exact square root (R225), for numbers below 2³⁸⁴. -/
def isqrt (n : Nat) : Nat := isqrtFrom n 0 191

/-- R129, R179: round_half_up of a quotient with a positive divisor. -/
def rnd (a b : Int) : Int := (2 * a + b) / (2 * b)

/-- A list with its element `i` replaced; lengthened with `d` where it is shorter. -/
def setAt {α : Type} (l : List α) (d : α) (i : Nat) (v : α) : List α :=
  (List.range (max l.length (i + 1))).map (fun j => if j = i then v else l.getD j d)

/-- The sum of a list of integers. -/
def sumInt (l : List Int) : Int := l.foldl (fun a v => a + v) 0

/-- The sum of a list of naturals. -/
def sumNat (l : List Nat) : Nat := l.foldl (fun a v => a + v) 0

end Sys2Proof.Machine
end

