-- ==== Sys2Proof/Machine/Flags.lean ====
section
/-! DEFINITION. The bits of status objects, the device states they turn on, and the parts that are faulty. -/

namespace Sys2Proof.Machine

open Sys2Proof

/-- R6: bit `i` of a status object. -/
def State.bit (s : State) (o : ObjRow) (b e i : Nat) : Bool := (s.rdN o b e).testBit i

/-- The number with bit `i` set to `v`. -/
def withBit (n i : Nat) (v : Bool) : Nat :=
  if n.testBit i then (if v then n else n - 2 ^ i) else (if v then n + 2 ^ i else n)

/-- Bit `i` of a status object becomes `v`. -/
def State.setBit (s : State) (o : ObjRow) (b e i : Nat) (v : Bool) : State :=
  s.putN o b e (withBit (s.rdN o b e) i v)

/-- The field of `n` bits at bit `lo` of a word. -/
def fieldOf (w lo n : Nat) : Nat := (w / 2 ^ lo) % 2 ^ n

/-- The word with its field of `n` bits at bit `lo` replaced by `v`. -/
def withField (w lo n v : Nat) : Nat := w - fieldOf w lo n * 2 ^ lo + (v % 2 ^ n) * 2 ^ lo

/-- A field of a status object becomes `v`. -/
def State.setField (s : State) (o : ObjRow) (b e lo n v : Nat) : State :=
  s.putN o b e (withField (s.rdN o b e) lo n v)

/-! ## Device states (R443) -/

/-- R443: BOOT. -/
def stBoot : Nat := 0
/-- R443: INIT. -/
def stInit : Nat := 1
/-- R443: PREOP. -/
def stPreop : Nat := 2
/-- R443: ARMED. -/
def stArmed : Nat := 3
/-- R443: RUN. -/
def stRun : Nat := 4
/-- R443: HOLD. -/
def stHold : Nat := 5
/-- R443: SAVE. -/
def stSave : Nat := 6
/-- R443: FAULT. -/
def stFault : Nat := 7

/-- R443: the device state. -/
def State.mode (s : State) : Nat := s.rdN Obj.DEVICE_STATE

/-- R33: the unit is in ARMED, RUN or HOLD, where lines are taken. -/
def State.lining (s : State) : Bool := decide (stArmed ≤ s.mode) && decide (s.mode ≤ stHold)

/-- R21, R47, R443: the object of the device state, whether lines have been taken since the last PREOP, and the mode of the
unit, which a user sets in PREOP: the dictionary prints no object for it, so it is a free value there (log entry 206). -/
def State.enterMode (s : State) (m : Nat) : State :=
  let lined := (decide (stArmed ≤ m) && decide (m ≤ stHold)) || (s.tim.lined && m != stPreop)
  let s := s.putN Obj.DEVICE_STATE 0 0 m
  if m = stPreop then { s with tim := { s.tim with lined := lined, surfaceSet := s.free % 2 == 1 }, draws := s.draws + 1 }
  else { s with tim := { s.tim with lined := lined } }

/-- R443, R453: the device state changes: vector 4, source 71, the levels RUN, HOLD and SAVE, and `VD_STATUS`.ACCEPTING
(R241) follow it. -/
def State.setMode (s : State) (m : Nat) : State :=
  if s.mode = m then s
  else
    let s := (s.enterMode m).vector 4
    let s := (s.fire 71).setLevel 72 (m == stRun)
    let s := (s.setLevel 73 (m == stHold)).setBit Obj.VD_STATUS 0 0 0 (m == stRun || m == stHold)
    s.setLevel 69 (m == stSave)

/-! ## Faulty parts (R337, R338)

A part is its kind, the element of `CT_FAULTS` that counts it (0 pipeline, 1 DRAM channel, 2 camera lane gang, 3 chord port,
4 Meridian port, 5 valve link, 6 CXL link), and its number. -/

/-- R338: `LG_STATUS`.DEGRADED follows the number of faulty parts. -/
def State.degrade (s : State) (l : List (Nat × Nat)) : State :=
  let s := { s with cont := { s.cont with faulty := l } }
  let now := decide (2 ≤ l.length)
  if s.bit Obj.LG_STATUS 0 0 9 == now then s
  else
    let s := s.setBit Obj.LG_STATUS 0 0 9 now
    if now then s.raise .CONTINUITY_DEGRADED (Obj.LG_STATUS.ident) else s

/-- R338: a part is detected as faulty. -/
def State.partFault (s : State) (kind n : Nat) : State :=
  if s.cont.faulty.contains (kind, n) then s
  else (s.count Obj.CT_FAULTS 0 kind 1).degrade (s.cont.faulty ++ [(kind, n)])

/-- R338: a part returns to service. -/
def State.partBack (s : State) (kind n : Nat) : State :=
  if s.cont.faulty.contains (kind, n) then s.degrade (s.cont.faulty.filter (fun x => x != (kind, n))) else s

end Sys2Proof.Machine
end

