-- ==== Sys2Proof/Machine/Access.lean ====
section
/-! DEFINITION. The dictionary's access machinery: which object a key names, who owns it, the checks of a write in the order
of R439, and the staging of values for PREOP's exit and for epochs (R17, R18, R30 to R34, R437 to R439). -/

namespace Sys2Proof.Machine

open Sys2Proof

/-- The object, repetition and element a key names. R439: none where the index or subindex does not exist. -/
def objAt (k : Nat) : Option (ObjRow × Nat × Nat) :=
  objectTable.findSome? (fun o =>
    match o.locate k with
    | some p => some (o, p.1, p.2)
    | none => none)

/-! ## Port groups and epochs -/

/-- R30: the port group of a port. -/
def State.portGroup (s : State) (p : Nat) : Nat := s.rdN Obj.PORT_GROUP 0 p

/-- R30: the enabled ports of a group. -/
def State.groupPorts (s : State) (g : Nat) : List Nat :=
  (List.range 12).filter (fun p => s.flag Obj.CAM_ENABLE p && s.portGroup p == g)

/-- R25, R33: the group's present line: the last line triggered on its ports. -/
def State.presentLine (s : State) (g : Nat) : Nat :=
  (s.groupPorts g).foldl (fun a p => max a (s.rdN Obj.CAM_LINE_NOW p)) 0

/-- R33: the largest `CAM_EXPOSURE_LEAD` of the group's ports. -/
def State.maxLead (s : State) (g : Nat) : Nat :=
  (s.groupPorts g).foldl (fun a p => max a (s.rdN Obj.CAM_EXPOSURE_LEAD p)) 0

/-- R33: the least first line a declaration may name. -/
def State.epochFloor (s : State) (g : Nat) : Nat := s.presentLine g + s.maxLead g + 8

/-- R33: a refusal with EPOCH_LATE. -/
def State.epochLate (s : State) (g : Nat) : State :=
  (s.count Obj.EPOCH_LATE_COUNT 0 g 1).raise .EPOCH_LATE (Obj.EPOCH_PENDING.ident 0 g)

/-- R34: the device declares an epoch of group `g` itself, unless one is pending. Lines must be taken (R33), and a group
with no enabled port runs no generator (R30). -/
def State.declareOwn (s : State) (g : Nat) : State :=
  if s.lining && !(s.groupPorts g).isEmpty && s.rdN Obj.EPOCH_PENDING 0 g == 0 then
    s.putN Obj.EPOCH_PENDING 0 g (s.epochFloor g)
  else s

/-- R33, R34: a written declaration of first line `l`: its RESULT and the state. -/
def State.declareAt (s : State) (g l : Nat) : State × Nat :=
  if !s.lining then (s, 4)
  else
    let pend := s.rdN Obj.EPOCH_PENDING 0 g
    if l < s.epochFloor g || (pend ≠ 0 && pend ≤ l) then (s.epochLate g, 5)
    else (s.putN Obj.EPOCH_PENDING 0 g l, 0)

/-- R30, R31: the group whose epochs an object follows; none for an object with one value for the unit. -/
def State.groupOf (s : State) (o : ObjRow) (b e : Nat) : Option Nat :=
  match o.scope with
  | .unit => none
  | .port => some (s.portGroup b)
  | .portElem => some (s.portGroup e)
  | .group => some b
  | .groupElem => some e
  | .groupHalf => some (e / 2)

/-- R31: the key an RWE value is staged and kept under for group `g`. -/
def epochKey (o : ObjRow) (b e g : Nat) : Nat :=
  match o.scope with
  | .unit => (g + 1) * 2 ^ 24 + o.key b e
  | _ => o.key b e

/-- R31: the groups an RWE write stages its value in. -/
def State.stageGroups (s : State) (o : ObjRow) (b e : Nat) : List Nat :=
  match s.groupOf o b e with
  | some g => [g]
  | none => List.range 12

/-- R525: an object that a calibration task writes has been written. -/
def State.noteWrite (s : State) (o : ObjRow) (b e : Nat) : State :=
  let k := o.key b e
  let i := o.index
  if (i == Obj.RC_FF_PLATE_REF.index || i == Obj.RC_DEFECT_MAP.index || i == Obj.ST_MAP.index ||
      i == Obj.EJ_VALVE_OPEN_LAT_NS.index || i == Obj.EJ_VALVE_OPEN_THRESH_NS.index) && !s.cal.beaten.contains k then
    { s with cal := { s.cal with beaten := s.cal.beaten ++ [k] } }
  else s

/-- R31: a group that holds an enabled port has yet to take a value that is staged in all of them. -/
def State.unitWaits (s : State) (o : ObjRow) (b e : Nat) : Bool :=
  (List.range 12).any (fun g => !(s.groupPorts g).isEmpty && (find? s.epochs.staged (epochKey o b e g)).isSome)

/-- R31: a value for the whole unit that no group with an enabled port waits for any more is read back, also where the last
that waited has lost its enabled ports. -/
def State.unitSettle (s : State) : State :=
  s.epochs.staged.foldl (fun s x =>
    match (if 2 ^ 24 ≤ x.1 then objAt (x.1 % 2 ^ 24) else none) with
    | none => s
    | some (o, b, e) =>
      if o.effect != .epoch || o.scope != .unit || s.unitWaits o b e then s else s.put o b e x.2) s

/-- R18, R34: an RWE value is staged in each group it concerns, and each of them has an epoch pending. -/
def State.stageEpoch (s : State) (o : ObjRow) (b e : Nat) (v : Int) : State :=
  let s := (s.stageGroups o b e).foldl (fun s g =>
    ({ s with epochs := { s.epochs with staged := enlist s.epochs.staged (epochKey o b e g) v } }).declareOwn g) s
  match o.scope with
  | .unit => if s.unitWaits o b e then s else s.put o b e v
  | _ => s

/-- R18, R34: an RWE blob is staged. -/
def State.stageEpochBlob (s : State) (o : ObjRow) (b e : Nat) (v : List Byte) : State :=
  (s.stageGroups o b e).foldl (fun s g =>
    ({ s with epochs := { s.epochs with stagedBlobs := enlist s.epochs.stagedBlobs (epochKey o b e g) v } }).declareOwn
      g) (s.noteWrite o b e)

/-- The value an epoch's history gives for epoch `ep`: the newest that became live no later. -/
def pastAt {α : Type} (l : List (Nat × α)) (d : α) (ep : Nat) : α :=
  match l with
  | [] => d
  | (e, v) :: r => if e ≤ ep then v else pastAt r d ep

/-- R31: the value of an RWE object that was live for group `g` in its epoch `ep`. -/
def State.rdEpoch (s : State) (g ep : Nat) (o : ObjRow) (b : Nat := 0) (e : Nat := 0) : Int :=
  pastAt (look s.epochs.past [] (epochKey o b e g)) (s.rd o b e) ep

/-- R31: the same as a natural number. -/
def State.rdEpochN (s : State) (g ep : Nat) (o : ObjRow) (b : Nat := 0) (e : Nat := 0) : Nat :=
  (s.rdEpoch g ep o b e).toNat

/-- R31: the blob of an RWE object that was live for group `g` in its epoch `ep`. -/
def State.rdEpochBlob (s : State) (g ep : Nat) (o : ObjRow) (b : Nat := 0) (e : Nat := 0) : List Byte :=
  pastAt (look s.epochs.pastBlobs [] (epochKey o b e g)) (s.rdBlob o b e) ep

/-- R31: the value live for group `g` now. -/
def State.rdGroup (s : State) (g : Nat) (o : ObjRow) (b : Nat := 0) (e : Nat := 0) : Int :=
  s.rdEpoch g (s.rdN Obj.EPOCH_ID 0 g) o b e

/-- R18, R32: one staged value becomes live in epoch `ep` of group `g`. A value for the whole unit is read back only when
every group that holds an enabled port has taken it (R31). -/
def State.takeValue (s : State) (ep k : Nat) (v : Int) : State :=
  match objAt (k % 2 ^ 24) with
  | none => s
  | some (o, b, e) =>
    let h := look s.epochs.past [] k
    let old := pastAt h (s.rd o b e) ep
    let h' := if old = v then h else if h.isEmpty then [(ep, v), (0, old)] else (ep, v) :: h
    let st := unlist s.epochs.staged k
    let s := { s with epochs := { s.epochs with staged := st, past := store s.epochs.past [] k h' } }
    match o.scope with
    | .unit => if s.unitWaits o b e then s else s.put o b e v
    | _ => s.put o b e v

/-- R18, R32: one staged blob becomes live. -/
def State.takeBlob (s : State) (ep k : Nat) (v : List Byte) : State :=
  match objAt (k % 2 ^ 24) with
  | none => s
  | some (o, b, e) =>
    let h := look s.epochs.pastBlobs [] k
    let old := pastAt h (s.rdBlob o b e) ep
    let h' := if old = v then h else if h.isEmpty then [(ep, v), (0, old)] else (ep, v) :: h
    { s with epochs := { s.epochs with
        stagedBlobs := unlist s.epochs.stagedBlobs k, pastBlobs := store s.epochs.pastBlobs [] k h' } }.putBlob o b e v

/-- R31: whether a staged key belongs to group `g`. -/
def State.keyOfGroup (s : State) (g k : Nat) : Bool :=
  if 2 ^ 24 ≤ k then k / 2 ^ 24 == g + 1
  else
    match objAt k with
    | none => false
    | some (o, b, e) => s.groupOf o b e == some g

/-- R32: every value staged for group `g` becomes live in its epoch `ep`. -/
def State.takeStaged (s : State) (g ep : Nat) : State :=
  let vs := s.epochs.staged.filter (fun p => s.keyOfGroup g p.1)
  let bs := s.epochs.stagedBlobs.filter (fun p => s.keyOfGroup g p.1)
  let s := vs.foldl (fun s p => s.takeValue ep p.1 p.2) s
  bs.foldl (fun s p => s.takeBlob ep p.1 p.2) s

/-! ## Values staged until PREOP's exit (R17) -/

/-- R17: a value of effect preop is staged. -/
def State.stage (s : State) (o : ObjRow) (b e : Nat) (v : Int) : State :=
  { s with staged := enlist s.staged (o.key b e) v }

/-- R17: a blob of effect preop is staged. -/
def State.stageBlob (s : State) (o : ObjRow) (b e : Nat) (v : List Byte) : State :=
  { s.noteWrite o b e with stagedBlobs := enlist s.stagedBlobs (o.key b e) v }

/-- R17: the value last written, staged or live: what a read of an object of effect preop returns, and what the checks on
leaving PREOP look at. -/
def State.last (s : State) (o : ObjRow) (b : Nat := 0) (e : Nat := 0) : Int :=
  match find? s.staged (o.key b e) with
  | some v => v
  | none => s.rd o b e

/-- The value last written as a natural number. -/
def State.lastN (s : State) (o : ObjRow) (b : Nat := 0) (e : Nat := 0) : Nat := (s.last o b e).toNat

/-- The blob last written, staged or live. -/
def State.lastBlob (s : State) (o : ObjRow) (b : Nat := 0) (e : Nat := 0) : List Byte :=
  match find? s.stagedBlobs (o.key b e) with
  | some v => v
  | none => s.rdBlob o b e

/-- R18, R32: the value an RWE object has from the arming epoch on: the staged one, or the live one. -/
def State.next (s : State) (o : ObjRow) (b e g : Nat) : Int :=
  match find? s.epochs.staged (epochKey o b e g) with
  | some v => v
  | none => s.rd o b e

/-- R17, R31: the transition out of PREOP to ARMED makes every staged value live, the port groups among them. -/
def State.preopLive (s : State) : State :=
  let s' := s.staged.foldl (fun s p =>
    match objAt p.1 with
    | some (o, b, e) => s.put o b e p.2
    | none => s) s
  let s' := s.stagedBlobs.foldl (fun s p =>
    match objAt p.1 with
    | some (o, b, e) => s.putBlob o b e p.2
    | none => s) s'
  ({ s' with staged := [], stagedBlobs := [] }).unitSettle

/-! ## Owners and levels (R437, R438, R440) -/

/-- R438: an entry of `OD_OWNER_MAP` covers index `i`. An entry of 0 is unused. -/
def ownerEntryCovers (w i : Nat) : Bool := w != 0 && decide (w / 65536 ≤ i) && decide (i ≤ w % 65536)

/-- R438: the owner class of an object as it stands: 0 chain, 1 host, 2 firmware, 3 secure. -/
def State.ownerOf (s : State) (o : ObjRow) (b e : Nat) : Nat :=
  match o.owner with
  | .chain => 0
  | .host => 1
  | .firmware => 2
  | .secure => 3
  | .channel => s.rdN Obj.EV_CH_OWNER 0 b
  | .unstated =>
    if (List.range 32).any (fun n => ownerEntryCovers (s.rdN Obj.OD_OWNER_MAP 0 n) (o.key b e / 256)) then 1 else 0

/-- R440: the level a path holds. The process image writes as the chain does (R431). -/
def State.pathLevel (s : State) (p : Path) : Nat :=
  match p with
  | .chain => s.rdN Obj.ACCESS_LEVEL_CHAIN
  | .image => s.rdN Obj.ACCESS_LEVEL_CHAIN
  | .host => s.rdN Obj.ACCESS_LEVEL_HOST

/-- R437: the owner class a path writes under: its own, and secure while it holds secure level. -/
def State.pathOwns (s : State) (p : Path) (own : Nat) : Bool :=
  match own with
  | 0 => p != .host
  | 1 => p == .host
  | 3 => s.pathLevel p == 3
  | _ => false

/-- R16: whether the access code allows a write. -/
def ObjRow.writable (o : ObjRow) : Bool :=
  match o.access with
  | .ro => false
  | _ => true

/-! ## Values (R439 checks 5 and 7) -/

/-- The value written, from its bytes. -/
def ObjRow.decodeValue (o : ObjRow) (bs : List Byte) : Int :=
  match o.kind with
  | .i16 => signedOf 2 (leNat bs)
  | .i32 => signedOf 4 (leNat bs)
  | .i64 => signedOf 8 (leNat bs)
  | _ => (leNat bs : Int)

/-- R7: the bits of an object's word that its field map reserves: a written value leaves them 0. -/
def ObjRow.reserved (o : ObjRow) : Nat :=
  match o.index with
  | 0x1200 => 0xff                                                        -- MAP_OUT (R430)
  | 0x1201 => 0xff                                                        -- MAP_IN (R430)
  | 0xa050 => 0xff8000e0                                                  -- TW0_POCXP_MAP (R474)
  | _ => 0

/-- R7: the value that a written word leaves: its reserved bits are ignored and read as zero. -/
def ObjRow.keepBits (o : ObjRow) (v : Int) : Int :=
  if o.reserved = 0 then v else ((v.toNat - (v.toNat &&& o.reserved) : Nat) : Int)

/-- The bytes of a value. -/
def ObjRow.encodeValue (o : ObjRow) (v : Int) : List Byte := toLe o.kind.bytes (unsignedOf o.kind.bytes v)

/-- R439 check 5: the length fits the type. A blob's limits are lengths (R441). -/
def ObjRow.lengthOk (o : ObjRow) (n : Nat) : Bool :=
  if o.isBytes then decide ((n : Int) ≤ o.hi) else n == o.kind.bytes

/-- The range of the Unit/Range column: limits, listed values, multiples. R10: a writable counter takes 0 only. -/
def ObjRow.rangeOk (o : ObjRow) (v : Int) : Bool :=
  if o.counter then v == 0
  else decide (o.lo ≤ v) && decide (v ≤ o.hi) && (o.allowed.isEmpty || o.allowed.contains v) &&
    (o.mult == 1 || v % (o.mult : Int) == 0)

/-- R48: the shortest period of a serial position port: 40 clock periods, the timeout and the recovery, in µs × kHz. It is asked of
a write of the period only (log entry 249). -/
def State.spPeriodOk (s : State) (n : Nat) (periodUs : Int) : Bool :=
  let khz := s.rd Obj.SP_CLOCK_KHZ 0 n
  decide (40 * 1000 + (s.rd Obj.SP_TIMEOUT_US 0 n + s.rd Obj.SP_RECOVERY_US 0 n) * khz ≤ periodUs * khz)

/-- R111: a plate reference will be live with a value written now: the staged one, or the live one. -/
def State.nextPlateRef (s : State) (p : Nat) : List Byte :=
  match find? s.epochs.stagedBlobs (Obj.RC_FF_PLATE_REF.key p 0) with
  | some b => b
  | none => s.rdBlob Obj.RC_FF_PLATE_REF p

/-- R120: N_S of a layout and a row spacing. -/
def nominalShift (layout spacing : Nat) : Nat := match layout with | 0 => 0 | 1 => spacing | _ => 2 * spacing

/-- R127: Lmin. -/
def lagMin (ns range : Nat) : Nat := max 1 (ns * (1024 - range) / 1024)

/-- R127: Lmax. -/
def lagMax (ns range : Nat) : Nat := max (lagMin ns range + 2) ((ns * (1024 + range) + 1023) / 1024)

/-- R228: D_r is positive where the group's belt travels forward and negative where it travels backward, and with two rows
the second lies further. A row that is 0 has not been written yet. -/
def State.rowCountOk (s : State) (e : Nat) (v : Int) : Bool :=
  let g := e / 2
  let dir := (s.groupPorts g).head?.elim 0 (fun p => s.rd Obj.TG_DIR 0 p)
  let other := s.next Obj.EP_ROW_COUNTS 0 (e ^^^ 1) g
  (if dir = 0 then decide (0 < v) else decide (v < 0)) &&
    (s.rd Obj.EP_ROWS != 2 || other == 0 ||
      (if e % 2 = 1 then decide (absNat other < absNat v) else decide (absNat v < absNat other)))

/-- R314: the planes that a tap has in a layout, and bit 4 for the flags plane. -/
def tapMask (tap layout : Nat) : Nat :=
  match tap with
  | 3 => 31
  | 4 => 17
  | _ => match layout with | 0 => 17 | 1 => 19 | _ => 23

/-- R314: a plane mask has only planes of its tap and layout. -/
def State.planesOk (s : State) (p tap planes : Nat) : Bool :=
  planes &&& tapMask tap (s.rdN Obj.CAM_LAYOUT p) == planes

/-- The relations between objects that the chapters state with them (R439 check 7). -/
def State.relationOk (s : State) (o : ObjRow) (b e : Nat) (v : Int) : Bool :=
  let g := s.portGroup b
  if o.index = 0x8040 then                        -- AM_FIR_USER (R486)
    decide (sumNat ((List.range 63).map (fun i => absNat (if i = e then v else s.last o b i))) ≤ 4194304)
  else match o.index with
  | 0x2282 => s.spPeriodOk e v                                            -- SP_PERIOD_US (R48)
  | 0x310a => decide (v ≤ 2 ^ (s.rdN Obj.CAM_DEPTH b) - 1)              -- CAM_FILL_VALUE
  | 0x4022 => decide (v ≤ s.next Obj.RC_SNR_T2 b 0 g)                     -- RC_SNR_T1
  | 0x4023 => decide (s.next Obj.RC_SNR_T1 b 0 g ≤ v)                     -- RC_SNR_T2
  | 0x4043 => decide (s.next Obj.RG_WINDOW_MIN b 0 g ≤ v)                 -- RG_WINDOW_LINES
  | 0x4044 => decide (v ≤ s.next Obj.RG_WINDOW_LINES b 0 g)               -- RG_WINDOW_MIN
  | 0x4045 =>                                                             -- RG_LAG_RANGE (R127)
    let ns := nominalShift (s.rdN Obj.CAM_LAYOUT b) (s.rdN Obj.CAM_ROW_SPACING b)
    ns == 0 || (decide (lagMax ns v.toNat ≤ 96) && decide (lagMax ns v.toNat ≤ lagMin ns v.toNat + 64))
  | 0x4030 => v == 0 || !(s.nextPlateRef b).isEmpty                       -- RC_FF_MODE (R111)
  | 0x40c1 =>                                                             -- RT_TAP (R314, R315)
    s.planesOk b v.toNat (s.lastN Obj.RT_PLANES b e) && (v != 4 || s.last Obj.RT_LINE_MODE b e == 0)
  | 0x40c2 => s.planesOk b (s.lastN Obj.RT_TAP b e) v.toNat               -- RT_PLANES (R314)
  | 0x40c7 => v == 0 || s.last Obj.RT_TAP b e != 4                        -- RT_LINE_MODE (R315)
  | 0x40d1 => s.planesOk b v.toNat (s.lastN Obj.TH_PLANES b)              -- TH_TAP (R310, R314)
  | 0x40d2 => s.planesOk b (s.lastN Obj.TH_TAP b) v.toNat                 -- TH_PLANES (R310, R314)
  | 0x5207 => s.rowCountOk e v                                            -- EP_ROW_COUNTS (R228)
  | 0x6017 => decide (v ≤ s.rd Obj.EJ_PULSE_MAX_NS)                       -- EJ_PULSE_MIN_NS
  | 0x6018 => decide (s.rd Obj.EJ_PULSE_MIN_NS ≤ v)                       -- EJ_PULSE_MAX_NS
  | 0x4f05 => decide (v ≤ s.last Obj.RV_FLIGHT_MAX_NS)                    -- RV_FLIGHT_MIN_NS
  | 0x4f06 => decide (s.last Obj.RV_FLIGHT_MIN_NS ≤ v)                    -- RV_FLIGHT_MAX_NS
  | 0x1048 => v == 0 || decide (v / 65536 ≤ v % 65536)                    -- OD_OWNER_MAP (R438)
  | 0xa001 => if 56 ≤ e then v == 2 || v == 3 else true                   -- EV_CH_OWNER (R458)
  | 0x9010 => decide (s.last Obj.CX_SCRATCH_BYTES ≤ v)                    -- CX_HDM_SIZE
  | 0x9011 => decide (v ≤ s.last Obj.CX_HDM_SIZE)                         -- CX_SCRATCH_BYTES
  | 0x6230 => v == 0 || decide (10000 ≤ v)                                -- EJ_VALVE_OPEN_THRESH_NS
  | 0x1109 => v == 0 || decide (100 ≤ v)                                  -- MER_WATCHDOG_US
  | 0x4f00 => v == 0 || decide (1000 ≤ v)                                 -- RV_ROTATE_MS
  | 0xa018 => v == 0 || decide (1000 ≤ v)                                 -- EV_TIMER_PERIOD_NS
  | 0xe002 => v == 0 || decide (e < 16) || decide (64 ≤ e)                -- LN_LOOPBACK (R512)
  | 0xe003 => v == 0 || decide (10 ≤ v)                                   -- LN_INJECT (R513)
  | 0x5001 => decide (v < 12) || v == 255                                 -- ST_ORDER
  | _ => true

/-- R439 check 4: the states that forbid a write: RWP outside PREOP (R16); SAVE, where the dictionary does not serve (R557).
R457: a channel's owner while it is enabled; R443: a request for a state while a transition runs; R346, R448, R533, R568: what
is written in INIT or PREOP alone; R475: a transfer of TW0 while one runs. -/
def State.stateAllows (s : State) (o : ObjRow) (e : Nat) : Bool :=
  if s.mode = stSave then false
  else if o.access = .rwp then s.mode == stPreop
  else if o.index = 0xa001 then !(s.rdN Obj.EV_CH_CONFIG e).testBit 63
  else if o.index = Obj.STATE_REQUEST.index then s.trans.isNone
  else if [Obj.FW_ACTIVATE.index, Obj.FW_CONFIRM.index, Obj.PW_SLEEP_CMD.index, Obj.CAL_STORE_CMD.index].contains o.index then
    s.mode == stPreop
  else if o.index = Obj.LG_DISCARD.index then s.mode == stInit
  else if o.index = Obj.TW0_XFER_CMD.index then s.lattice.tw.xfer.isNone
  else true

/-- R439, checks 1 to 5: the first that fails gives the RESULT; 0 where none does. -/
def State.checkAccess (s : State) (p : Path) (o : ObjRow) (b e n : Nat) : Nat :=
  if !o.writable || s.pathLevel p < o.level then 2
  else if !s.pathOwns p (s.ownerOf o b e) then 3
  else if !s.stateAllows o e then 4
  else if !o.lengthOk n then 6
  else 0

/-- R190: a target blob: 2 to 1,024 positions, strictly increasing, and a CRC-32C over all before it. -/
def targetOk (b : List Byte) : Bool :=
  let n := leAt b 4 2
  decide (20 ≤ b.length) && leAt b 0 4 == 0x47545358 && decide (2 ≤ n) && decide (n ≤ 1024) && leAt b 6 2 == 0 &&
    b.length == 20 + 4 * n && leAt b (16 + 4 * n) 4 == crc32c (b.take (16 + 4 * n)) &&
    (List.range (n - 1)).all (fun i => decide (signedOf 4 (leAt b (16 + 4 * i) 4) < signedOf 4 (leAt b (20 + 4 * i) 4)))

/-- R439: the RESULT of a write of a value, for an object without checks of its own. -/
def State.checkWrite (s : State) (p : Path) (o : ObjRow) (b e : Nat) (bs : List Byte) : Nat :=
  match s.checkAccess p o b e bs.length with
  | 0 =>
    if o.isBytes then
      (if (bs.length : Int) < o.lo || (o.index == Obj.ST_CAL_TARGET.index && !bs.isEmpty && !targetOk bs) ||
        (o.index == Obj.SEC_ACCESS_HASH.index && !bs.isEmpty && bs.length != 48) then 5 else 0)
    else if o.rangeOk (o.decodeValue bs) && s.relationOk o b e (o.decodeValue bs) then 0 else 5
  | r => r

/-- R17, R18: a value that passed its checks is applied by its access code and effect class. -/
def State.applyWrite (s : State) (o : ObjRow) (b e : Nat) (bs : List Byte) : State :=
  let v := o.keepBits (o.decodeValue bs)
  match o.effect with
  | .preop => if o.isBytes then s.stageBlob o b e bs else s.stage o b e v
  | .epoch => if o.isBytes then s.stageEpochBlob o b e bs else s.stageEpoch o b e v
  | _ =>
    if o.isBytes then s.putBlob o b e bs
    else if o.counter then s.clearCount o b e
    else (s.noteWrite o b e).put o b e v

/-- R440: a request on a path: the path's time of last request moves. The process image carries no requests. -/
def State.touch (s : State) (p : Path) : State :=
  { s with access := match p with
      | .host => { s.access with lastHost := s.now }
      | .chain => { s.access with lastChain := s.now }
      | .image => s.access }

/-- The answer to a dictionary request goes back on its path (R372). -/
def State.answer (s : State) (p : Path) (k r : Nat) : State := s.emit (.result p k r)

/-- R440: the nonce changes: 16 bytes that nothing fixes. -/
def State.newNonce (s : State) : State :=
  let p := (List.range 16).foldl (fun (p : List Byte × State) _ => (p.1 ++ [p.2.free % 256], p.2.drawn)) ([], s)
  { p.2.putBlob Obj.SEC_NONCE 0 0 p.1 with access := { p.2.access with nonceTime := p.2.now } }

/-- R439: a write request to an object without an operation of its own, checked, applied and answered. -/
def State.dictWrite (s : State) (p : Path) (o : ObjRow) (b e : Nat) (bs : List Byte) : State :=
  let s := s.touch p
  match s.checkWrite p o b e bs with
  | 0 => (s.applyWrite o b e bs).answer p (o.key b e) 0
  | r => s.answer p (o.key b e) r

end Sys2Proof.Machine
end

