-- ==== Sys2Proof/Machine/Requests.lean ====
section
/-! DEFINITION. The queue of calibration requests and what becomes of a result (spec/18_calibration_and_almanac.md, R519 to
R525). What the tasks measure stands in Calibration.lean. -/

namespace Sys2Proof.Machine

open Sys2Proof

/-- R542: bits of `CAL_STATUS` that are kept: REJECTED and STARVED. -/
def calRejected : Nat := 4
/-- R542. -/
def calStarved : Nat := 5

/-- R522, R540: the queue becomes `q`, and `CAL_QUEUE_USED` shows it. -/
def State.setQueue (s : State) (q : List CalRequest) : State :=
  { s with cal := { s.cal with queue := q } }.putN Obj.CAL_QUEUE_USED 0 0 q.length

/-- R522: the request for a task and target, if one is queued. -/
def State.calRequest (s : State) (task target : Nat) : Option CalRequest :=
  s.cal.queue.find? (fun r => r.task == task && r.target == target)

/-- R522: the request of a task that the engine has started and that concerns `x`: the target itself, or a valve of its
group. -/
def State.calRunning (s : State) (task x : Nat) : Option CalRequest :=
  s.cal.queue.find? (fun r => r.task == task && r.started && r.left.contains x)

/-- R540: `CAL_LAST`: what the engine did last. -/
def State.calLast (s : State) (task target cause : Nat) (marked : Option (Nat × Nat × Nat)) : State :=
  let m := marked.getD (0, 0, 0)
  s.putList Obj.CAL_LAST 0 ([task, target, cause, s.now, m.1, m.2.1, m.2.2].map (fun (n : Nat) => (n : Int)))

/-- R524: a result is refused. -/
def State.calReject (s : State) (task target cause : Nat) (marked : Option (Nat × Nat × Nat) := none) : State :=
  let s := (s.count Obj.CAL_REJECTS 0 task 1).calLast task target cause marked
  (s.setBit Obj.CAL_STATUS 0 0 calRejected true).raise .CAL_REJECT (Obj.CAL_LAST.ident)

/-- R524: a result is accepted. -/
def State.calAccept (s : State) (task target : Nat) (marked : Option (Nat × Nat × Nat) := none) : State :=
  (s.count Obj.CAL_DONE 0 task 1).calLast task target 0 marked

/-- R521, R522: target `x` of a task has its result; a request with none left is complete. -/
def State.calDone (s : State) (task x : Nat) : State :=
  s.setQueue ((s.cal.queue.map (fun (r : CalRequest) =>
    if r.task = task && r.started then { r with left := r.left.filter (fun y => y != x) } else r)).filter
      (fun r => !(r.task == task && r.started && r.left.isEmpty)))

/-- R525: the object with key `k` has been written since its task began. -/
def State.calBeaten (s : State) (k : Nat) : Bool := s.cal.beaten.contains k

/-- R525: a task that writes the object with key `k` begins. -/
def State.calWatch (s : State) (k : Nat) : State :=
  { s with cal := { s.cal with beaten := s.cal.beaten.filter (fun x => x != k) } }

/-- R522: a request joins the queue: it replaces one for its task and target, whose run goes on; none where the queue is
full. -/
def State.calEnqueue (s : State) (r : CalRequest) : Option State :=
  match s.calRequest r.task r.target with
  | some old =>
    let r := { r with
      started := old.started, forcing := false, marked := old.marked }
    some (s.setQueue (s.cal.queue.map (fun x => if x.task = r.task && x.target = r.target then r else x)))
  | none => if 16 ≤ s.cal.queue.length then none else some (s.setQueue (s.cal.queue ++ [r]))

/-- R520: the deadline of a request: its field in 10 ms, or `CAL_DEADLINE_MS`. -/
def State.calDue (s : State) (deadline : Nat) : Nat :=
  s.now + (if deadline = 0 then s.rdN Obj.CAL_DEADLINE_MS * 1000000 else deadline * 10000000)

/-- R523: line or object lines that a forced run marked: from `first` to `last` of port `p`. -/
def markJoin (m : Option (Nat × Nat × Nat)) (first last p : Nat) : Option (Nat × Nat × Nat) :=
  match m with
  | none => some (first, last, p)
  | some (a, b, q) => some (min a first, max b last, q)

/-- R523: a forced run marks lines: the request keeps the first and last, and `CAL_LAST` and `CAL_LINES_COST` show them. -/
def State.calMark (s : State) (task target first last p : Nat) : State :=
  let s := s.setQueue (s.cal.queue.map (fun (x : CalRequest) =>
    if x.task = task && x.target = target then { x with marked := markJoin x.marked first last p } else x))
  s.count Obj.CAL_LINES_COST 0 0 (last + 1 - first)

end Sys2Proof.Machine
end

