-- ==== Sys2Proof/Machine/Time.lean ====
section
/-! DEFINITION. Encoders, serial position ports and trigger settings (spec/02_timebase_and_position.md, R37 to R62). The line
triggers themselves stand in Lines.lean, the loss of the time reference in States.lean. -/

namespace Sys2Proof.Machine

open Sys2Proof

abbrev Result := Host.Outcome State Fault Refusal

/-- The encoder port `q`. -/
def State.qe (s : State) (q : Nat) : QePort := look s.tim.qe {} q

/-- The encoder port `q` becomes `v`. -/
def State.setQe (s : State) (q : Nat) (v : QePort) : State := { s with tim := { s.tim with qe := store s.tim.qe {} q v } }

/-- The serial position port `n`. -/
def State.sp (s : State) (n : Nat) : SpPort := look s.tim.sp {} n

/-- The serial position port `n` becomes `v`. -/
def State.setSp (s : State) (n : Nat) (v : SpPort) : State := { s with tim := { s.tim with sp := store s.tim.sp {} n v } }

/-! ## Encoders -/

/-- R41: what a transition of A and B counts: 0 where both stand still, none where both change in one sample, and else the
step in the mode `QE_MODE` selects. A before B counts up. -/
def qeStep (mode : Nat) (a b a' b' : Bool) : Option Int :=
  if a != a' && b != b' then none
  else if a == a' && b == b' then some 0
  else if a != a' then
    let up := a' != b
    if mode = 0 || (mode = 1 && !a') then some 0 else some (if up then 1 else -1)
  else
    let up := b' == a
    if mode = 3 then some (if up then 1 else -1) else some 0

/-- R44: the speed of a window, in 1/16 count/s, without its sign; `t` is now. -/
def windowSpeed (w : List Nat) (t : Nat) : Nat :=
  match w with
  | [] => 0
  | [_] => 0
  | tn :: r =>
    let t0 := r.getLastD tn
    let n := r.length
    let v := (16000000000 * n + (tn - t0) / 2) / (tn - t0)
    let e := t - tn
    if (tn - t0) / n < e then min v (16000000000 / e) else v

/-- R44: no edge of port `q` has come for 1/QE_SPEED_FLOOR at device time `t`. -/
def State.qeStale (s : State) (q t : Nat) : Bool :=
  match (s.qe q).window with
  | [] => false
  | tn :: _ => decide (1000000000 / s.rdN Obj.QE_SPEED_FLOOR 0 q ≤ t - tn)

/-- R43, R44: the direction of port `q` at device time `t`. -/
def State.qeDir (s : State) (q t : Nat) : Nat := if s.qeStale q t then 0 else s.rdN Obj.QE_DIRECTION 0 q

/-- R44: the speed of port `q` at device time `t`, over at most `QE_SPEED_EDGES` intervals as that is set now: 0 from standstill
on, negative in reverse. -/
def State.qeSpeed (s : State) (q t : Nat) : Int :=
  let w := (s.qe q).window.take (s.rdN Obj.QE_SPEED_EDGES 0 q + 1)
  match s.qeDir q t with
  | 0 => 0
  | 2 => -(windowSpeed w t : Int)
  | _ => (windowSpeed w t : Int)

/-- R43: the direction state and its extreme count after the count has moved to `p`: from standstill beyond the deadband
either way; from a direction when the count falls more than the deadband back from its extreme. -/
def qeDirection (dir : Nat) (origin mark p dead : Int) : Nat × Int :=
  let d := wrap48 (p - origin)
  let back := wrap48 (p - mark)
  match dir with
  | 1 => if back < -dead then (2, p) else if 0 < back then (1, p) else (1, mark)
  | 2 => if dead < back then (1, p) else if back < 0 then (2, p) else (2, mark)
  | _ => if dead < d then (1, p) else if d < -dead then (2, p) else (0, mark)

/-- R44: standstill: the speed reads 0, the window empties, and the next direction is measured from here. -/
def State.qeStandstill (s : State) (q : Nat) : State :=
  let p := s.rd Obj.QE_POSITION 0 q
  let s := s.setQe q { s.qe q with window := [], origin := p, mark := p }
  (s.putN Obj.QE_DIRECTION 0 q 0).put Obj.QE_SPEED 0 q 0

/-- R42 to R44: the count of port `q` steps by `d` at time `t`: position, direction state, window and speed. A port that has
come to standstill counts from there. The window keeps the 65 edges that the largest `QE_SPEED_EDGES` spans. -/
def State.qeCount (s : State) (q : Nat) (d : Int) (t : Nat) : State :=
  let s := if s.qeStale q t then s.qeStandstill q else s
  let pt := s.qe q
  let p := wrap48 (s.rd Obj.QE_POSITION 0 q + d)
  let dir := s.rdN Obj.QE_DIRECTION 0 q
  let dm := qeDirection dir pt.origin pt.mark p (s.rd Obj.QE_DEADBAND 0 q)
  let kept := if dm.1 = dir then pt.window else []
  let carries := (dm.1 = 1 && d = 1) || (dm.1 = 2 && d = -1)
  let w := if carries then (t :: kept).take 65 else kept
  let s := (s.put Obj.QE_POSITION 0 q p).putN Obj.QE_DIRECTION 0 q dm.1
  let s := s.setQe q { pt with mark := dm.2, window := w }
  s.put Obj.QE_SPEED 0 q (s.qeSpeed q t)

/-- R44: no edge for 1/QE_SPEED_FLOOR. -/
def execQeStandstillTimeout (t : Nat) (q : Fin 4) (s : State) : Result :=
  let s := s.at t
  .next (if s.qeStale q s.now then s.qeStandstill q else s)

/-- R47: port `q` triggers lines of some enabled port. -/
def State.isTriggerSource (s : State) (q : Nat) : Bool :=
  (List.range 12).any (fun p => s.flag Obj.CAM_ENABLE p && s.rdN Obj.TG_SOURCE 0 p == q + 1)

/-- R21, R29: the belt encoder of a unit that is set to surface mode: the lowest that triggers lines, without which the unit
is in free fall (log entry 16). -/
def State.beltEncoder (s : State) : Option Nat :=
  match (List.range 4).find? (fun q => s.isTriggerSource q) with
  | none => none
  | some q => if s.tim.surfaceSet then some q else none

/-- R21: the unit is in surface mode. -/
def State.surface (s : State) : Bool := s.beltEncoder.isSome

/-- R45: the A/B state an index pulse must meet: 1 to 4 are A/B = 00, 01, 11, 10. -/
def indexGate (gate : Nat) (a b : Bool) : Bool :=
  match gate with
  | 0 => true
  | 1 => !a && !b
  | 2 => !a && b
  | 3 => a && b
  | _ => a && !b

/-- R45: the present count less the expected one. Where the count lies exactly between two expected ones, which the rule does
not decide, the lower is taken (log entry 207). -/
def indexDiff (present pos : Int) (period : Nat) : Int :=
  let d := wrap48 (present - pos)
  if period = 0 then d
  else
    let r := d % (period : Int)
    if 2 * r ≤ period then r else r - period

/-- R47: a re-home request of port `q` waits: a trigger source takes none from the first line on until the unit is in PREOP. -/
def State.rehomeWaits (s : State) (q : Nat) : Bool := s.isTriggerSource q && (s.lining || s.tim.lined)

/-- R40: the glitch filter of port `q` accepts a level that has been stable for `stable` ns. -/
def State.qeAccepts (s : State) (q stable : Nat) : Bool := decide (s.rdN Obj.QE_FILTER_NS 0 q ≤ stable)

/-- R40, R45 to R47: an index pulse: the filter, the gate, the check against the expected count, and the snap. A port whose
`QE_MODE` is 0 counts nothing and still takes its index pulses (log entry 208). -/
def execQeIndex (t : QeSample) (q : Fin 4) (s : State) : Result :=
  let s := s.at t.time
  let pt := s.qe q
  if !s.qeAccepts q t.stable || !indexGate (s.rdN Obj.QE_INDEX_GATE 0 q) pt.a pt.b then .next s
  else
    let s := s.fire (48 + q)
    let p := s.rd Obj.QE_POSITION 0 q
    let d := indexDiff p (s.rd Obj.QE_INDEX_POS 0 q) (s.rdN Obj.QE_INDEX_PERIOD 0 q)
    let s :=
      if s.rdN Obj.QE_INDEX_TOL 0 q < absNat d then
        ((s.put Obj.QE_INDEX_DIFF 0 q (clampInt (-2147483648) 2147483647 d)).count Obj.QE_INDEX_MISMATCH 0 q 1).raise
          .INDEX_MISMATCH (Obj.QE_INDEX_DIFF.ident 0 q)
      else s
    if s.rdN Obj.QE_REHOME 0 q = 0 || s.rehomeWaits q then .next s
    else
      let s := s.put Obj.QE_POSITION 0 q (wrap48 (p - d))
      let s := s.setQe q { pt with origin := wrap48 (pt.origin - d), mark := wrap48 (pt.mark - d) }
      .next (if s.rdN Obj.QE_REHOME 0 q = 1 then s.put Obj.QE_REHOME 0 q 0 else s)

/-! ## Serial position ports -/

/-- R48: a word of port `n` is due: a period after the last one began, and the recovery time after it ended. -/
def State.spDue (s : State) (n : Nat) : Bool :=
  (s.sp n).started.all (fun x => decide (x + s.rdN Obj.SP_PERIOD_US 0 n * 1000 ≤ s.now)) &&
    (s.sp n).ended.all (fun x => decide (x + s.rdN Obj.SP_RECOVERY_US 0 n * 1000 ≤ s.now))

/-- R48: until when the start bit of the word of port `n` may come. -/
def State.spLimit (s : State) (n : Nat) : Nat := (s.sp n).started.getD 0 + s.rdN Obj.SP_TIMEOUT_US 0 n * 1000

/-- R48: a word starts: the port takes its clock and its enable for the word. -/
def execSpWordStart (t : Nat) (n : Fin 4) (s : State) : Result :=
  let s := s.at t
  if s.flag Obj.SP_ENABLE 0 n && stInit ≤ s.mode && !(s.sp n).busy && s.spDue n then
    let khz := s.rdN Obj.SP_CLOCK_KHZ 0 n
    .next ((s.setSp n { s.sp n with busy := true, khz := khz, started := some s.now }).emit (.spClock n khz))
  else .next s

/-- R50: one bit of the word into the CRC. -/
def spCrcBit (crc bit : Nat) : Nat :=
  let fb := ((crc / 32) % 2 + bit) % 2
  let c := (2 * crc) % 64
  if fb = 1 then c ^^^ 3 else c

/-- R50: the CRC over bits 38:7, most significant first. -/
def spCrc (word : Nat) : Nat := ((List.range 32).map (fun i => (word / 2 ^ (38 - i)) % 2)).foldl spCrcBit 0

/-- R51: the word is good: its CRC holds (sent inverted), ERROR and STOP are 0, reserved bits are 0, START is 1. -/
def spGood (word : Nat) : Bool :=
  (word / 2) % 64 == 63 - spCrc word && !word.testBit 14 && !word.testBit 0 && fieldOf word 7 6 == 0 && word.testBit 39

/-- R51: a discarded word. The third in a row raises SP_FAULT. -/
def State.spBad (s : State) (n : Nat) : State :=
  let pt := s.sp n
  let s := s.setSp n { pt with busy := false, ended := some s.now, badRun := pt.badRun + 1, goodRun := 0 }
  let s := s.count Obj.SP_BAD_WORDS 0 n 1
  if pt.badRun + 1 = 3 && !s.bit Obj.SP_STATUS 0 n 2 then
    ((s.setBit Obj.SP_STATUS 0 n 2 true).raise .SP_FAULT (Obj.SP_STATUS.ident 0 n)).setLevel (52 + n) true
  else s

/-- R51, R52: a good word: the value, its time, and the third in a row clears SP_FAULT. -/
def State.spTake (s : State) (n word startTime : Nat) : State :=
  let pt := s.sp n
  let pos := fieldOf word 15 24
  let s := s.setSp n { pt with busy := false, ended := some s.now, badRun := 0, goodRun := pt.goodRun + 1 }
  let v := s.rd Obj.SP_OFFSET_UM 0 n + (pos * s.rdN Obj.SP_SCALE_NM 0 n / 1000 : Nat)
  let s := (s.putN Obj.SP_RAW 0 n pos).put Obj.SP_VALUE_UM 0 n (clampInt (-2147483648) 2147483647 v)
  let s := (s.putN Obj.SP_VALUE_TIME 0 n startTime).setBit Obj.SP_STATUS 0 n 0 true
  let s := s.setBit Obj.SP_STATUS 0 n 1 (word.testBit 13)
  let s := if word.testBit 13 then s.count Obj.SP_WARN_WORDS 0 n 1 else s
  if pt.goodRun + 1 = 3 && s.bit Obj.SP_STATUS 0 n 2 then (s.setBit Obj.SP_STATUS 0 n 2 false).setLevel (52 + n) false
  else s

/-- R49 to R52: a complete word; one whose start bit came after the timeout is discarded too. -/
def execSpWord (t : Nat) (n : Fin 4) (word startTime : Nat) (s : State) : Result :=
  let s := s.at t
  if !(s.sp n).busy then .next s
  else if spGood word && startTime ≤ s.spLimit n then .next (s.spTake n word startTime)
  else .next (s.spBad n)

/-- R51: no start bit within the timeout. -/
def execSpTimeout (t : Nat) (n : Fin 4) (s : State) : Result :=
  let s := s.at t
  if (s.sp n).busy && s.spLimit n ≤ s.now then .next (s.spBad n) else .next s

/-- R48: a write of `SP_ENABLE` or `SP_CLOCK_KHZ`; the word that runs keeps its clock. -/
def execSpEnableWrite (t : Nat) (path : Path) (n : Fin 4) (clock : Bool) (value : List Byte) (s : State) : Result :=
  let s := s.at t
  .next (if clock then s.dictWrite path Obj.SP_CLOCK_KHZ 0 n value else s.dictWrite path Obj.SP_ENABLE 0 n value)

/-! ## Trigger generators -/

/-- The trigger generator of port group `g`. -/
def State.tg (s : State) (g : Nat) : TgGroup := look s.tim.tg {} g

/-- The trigger generator of port group `g` becomes `v`. -/
def State.setTg (s : State) (g : Nat) (v : TgGroup) : State := { s with tim := { s.tim with tg := store s.tim.tg {} g v } }

/-! ## Trigger settings -/

/-- R55: in ARMED, RUN and HOLD the value is written to every port of the group; in PREOP to the one element. -/
def State.writeTrigger (s : State) (path : Path) (o : ObjRow) (p : Nat) (value : List Byte) : State :=
  let s := s.touch path
  match s.checkWrite path o 0 p value with
  | 0 =>
    let s :=
      if s.lining then
        ((List.range 12).filter (fun k => s.portGroup k == s.portGroup p)).foldl
          (fun s k => s.applyWrite o 0 k value) s
      else s.applyWrite o 0 p value
    s.answer path (o.key 0 p) 0
  | r => s.answer path (o.key 0 p) r

/-- R55: a write of `TG_PERIOD`. -/
def execTgPeriodWrite (t : Nat) (path : Path) (p : Fin 12) (value : List Byte) (s : State) : Result :=
  .next ((s.at t).writeTrigger path Obj.TG_PERIOD p value)

/-- R55: a write of `TG_DIVIDER`. -/
def execTgDividerWrite (t : Nat) (path : Path) (p : Fin 12) (value : List Byte) (s : State) : Result :=
  .next ((s.at t).writeTrigger path Obj.TG_DIVIDER p value)

end Sys2Proof.Machine
end

