-- ==== Sys2Proof/Machine/Camera.lean ====
section
/-! DEFINITION. Camera ports: discovery, the register window, exposure and gain at the camera, line assembly, statistics and
the raw replay capture (spec/03_camera_ports.md, R63 to R91). -/

namespace Sys2Proof.Machine

open Sys2Proof

/-- Camera port `p`. -/
def State.cam (s : State) (p : Nat) : CamPort := look s.cams.ports {} p

/-- Camera port `p` becomes `v`. -/
def State.setCam (s : State) (p : Nat) (v : CamPort) : State :=
  { s with cams := { s.cams with ports := store s.cams.ports {} p v } }

/-- R91: bits of `CAM_LINK_STATUS`. -/
def camUp : Nat := 4
/-- R91. -/
def camDiscovering : Nat := 5
/-- R91. -/
def camRefused : Nat := 6
/-- R91. -/
def camCableError : Nat := 7
/-- R91. -/
def camHbOk : Nat := 8
/-- R91. -/
def camSkewBit : Nat := 9

/-- R91: the link of port `p` is up. -/
def State.camIsUp (s : State) (p : Nat) : Bool := s.bit Obj.CAM_LINK_STATUS p 0 camUp

/-- R91: a bit of the link status of port `p`. -/
def State.camBit (s : State) (p i : Nat) (v : Bool) : State := s.setBit Obj.CAM_LINK_STATUS p 0 i v

/-! ## The shape of a line (R73) -/

/-- R73: the rows of a layout. -/
def layoutRows (layout : Nat) : Nat := match layout with | 0 => 1 | 1 => 2 | _ => 3

/-- R73: the row width C. -/
def rowWidth (layout w : Nat) : Nat := w / layoutRows layout

/-- R73: the row width of port `p`. -/
def State.camC (s : State) (p : Nat) : Nat := rowWidth (s.rdN Obj.CAM_LAYOUT p) (s.rdN Obj.CAM_WIDTH p)

/-- R81: the plane of a sample: R, G, NIR, B of a QUAD; R, G, B of a TRI. -/
def planeOf (layout row col : Nat) : Nat :=
  match layout with
  | 0 => 0
  | 1 => 2 * row + col % 2
  | _ => row

/-- R81: the planes of a layout. -/
def layoutPlanes (layout : Nat) : Nat := match layout with | 0 => 1 | 1 => 4 | _ => 3

/-! ## EPOCH_SKEW (R80) -/

/-- R85: SKEW on a closed line of epoch `ep`. -/
def skewedLine (l : CapLine) (ep : Nat) : CapLine := if l.epoch = ep then { l with flags := l.flags ||| 8 } else l

/-- R80: SKEW on what a port's pipeline holds of epoch `ep`: the lines in raw correction, and those in registration. -/
def State.pipeSkew (s : State) (p ep : Nat) : State :=
  let r := look s.rc {} p
  let g := look s.rg {} p
  let rc := fun (l : RcLine) => { l with cap := skewedLine l.cap ep }
  let rg := fun (l : RegLine) => { l with cap := skewedLine l.cap ep }
  { s with
    rc := store s.rc {} p { r with before := r.before.map rc, center := r.center.map rc, out := r.out.map rg }
    rg := store s.rg {} p { g with lines := g.lines.map rg, queue := g.queue.map (fun x => (x.1, rg x.2)) } }

/-- R80: SKEW on the replay copies of port `p`. -/
def State.replaySkew (s : State) (p ep : Nat) : State :=
  { s with cams := { s.cams with replay := s.cams.replay.map (fun (x : Nat × Option CapLine) =>
      if x.1 / 2 ^ 20 = p then (x.1, x.2.map (fun l => skewedLine l ep)) else x) } }

/-- R80: EPOCH_SKEW of epoch `ep` on port `p`, raised once per epoch: the count, the flag of every line of it that is tagged,
wherever it stands, and the SKEW of its statistics. -/
def State.epochSkew (s : State) (p ep : Nat) : State :=
  let c := s.cam p
  if c.skewed.contains ep then s
  else
    let mark := fun (l : CapLine) => skewedLine l ep
    let s := s.setCam p { c with
      skewed := ep :: c.skewed,
      slots := c.slots.map (fun x => if x.epoch = ep then { x with skew := true } else x),
      waiting := c.waiting.map mark, committed := c.committed.map mark, toPipe := c.toPipe.map mark }
    let s := (s.pipeSkew p ep).replaySkew p ep
    let s := if s.rdN Obj.CAM_STATS_CUR p 0 = ep then s.put Obj.CAM_STATS_CUR p 3 1 else s
    let s := if s.rdN Obj.CAM_STATS_LAST p 0 = ep then s.put Obj.CAM_STATS_LAST p 3 1 else s
    let s := if s.rdN Obj.EPOCH_ID 0 (s.portGroup p) = ep then s.camBit p camSkewBit true else s
    (s.count Obj.CAM_EPOCH_SKEW p 0 1).raise .EPOCH_SKEW (Obj.CAM_EPOCH_SKEW.ident p)

/-! ## Link, discovery and restart (R66, R67, R86, R87) -/

/-- R66, R88: discovery starts: DISCOVERING reads 1 for the whole attempt. A port whose island is not running starts it when the
island is ready. -/
def State.discover (s : State) (p : Nat) : State :=
  if !s.islandRuns (15 + p) then s
  else (s.camBit p camDiscovering true).emit (.discover p (s.rdN Obj.CAM_LANES p) (s.rdN Obj.CAM_RATE p))

/-- R87: lines that port `p` has open, and those it triggers from now on, carry SKEW until the settings that a returned link
writes are acknowledged; with no register to write there is none. -/
def State.camRelink (s : State) (p : Nat) : State :=
  let c := s.cam p
  if !s.lining || (s.rdN Obj.CAM_EXPOSURE_REG p = 0 && s.rdN Obj.CAM_GAIN_REG p = 0) then s
  else
    (s.setCam p { c with relinking := true, slots := c.slots.map (fun x => { x with skew := true }) }).put
      Obj.CAM_STATS_CUR p 3 1

/-- R79, R80: the port's own commands that a link takes with it as it goes have no acknowledge any more: on the way to ARMED they
are made again, and while lines are taken their epochs carry EPOCH_SKEW, as after a timeout (log entry 262). -/
def State.camForget (s : State) (p : Nat) : State :=
  let c := s.cam p
  let s := s.setCam p { c with writes := [], issued := if s.lining then c.issued else [] }
  if s.lining then (c.writes.filter (fun w => !w.relink)).foldl (fun s w => s.epochSkew p w.epoch) s else s

/-- R66, R69, R86: the link of port `p` is no longer up, and no attempt runs; a window transaction that ran ends with status 4
(R87). -/
def State.camDrop (s : State) (p : Nat) : State :=
  let w := withBit (withField (s.rdN Obj.CAM_LINK_STATUS p) 0 4 0) camUp false
  let s := s.putN Obj.CAM_LINK_STATUS p 0 (withBit w camDiscovering false)
  let s := s.setBit Obj.CAM_PRESENT 0 0 p false
  let s := s.setCam p { s.cam p with attemptEnd := s.now, master := none, winOn := false, winWait := none }
  let s := if s.rdN Obj.CAM_REG_STATUS p = 1 then s.putN Obj.CAM_REG_STATUS p 0 4 else s
  (s.camForget p).camRelink p

/-- R66: the uplink of port `p` stops: nothing of the port's own waits for it any more. -/
def State.camUplinkStop (s : State) (p : Nat) : State := s.setCam p { s.cam p with writes := [], issued := [] }

/-- R86: a link that was up goes down: CAM_LINK_DOWN, its count, and level source 36 + p. -/
def State.camLinkDown (s : State) (p : Nat) : State :=
  if s.camIsUp p then
    ((((s.camDrop p).count Obj.CAM_LINK_DOWN_COUNT p 0 1).raise .CAM_LINK_DOWN (Obj.CAM_LINK_STATUS.ident p)).setLevel
      (36 + p) true).partFault 2 p
  else s

/-- R66: a write of `CAM_ENABLE`: set, discovery starts; cleared, the link goes down and the uplink stops. -/
def execCamEnableWrite (t : Nat) (path : Path) (p : Fin 12) (value : List Byte) (s : State) : Result :=
  let s := s.at t
  let was := s.flag Obj.CAM_ENABLE p
  let r := s.checkWrite path Obj.CAM_ENABLE p 0 value
  let s := s.dictWrite path Obj.CAM_ENABLE p 0 value
  let is := s.flag Obj.CAM_ENABLE p
  if r ≠ 0 then .next s
  else if !was && is then .next (s.discover p)
  else if was && !is then .next ((s.unitSettle.camDrop p).camUplinkStop p)
  else .next s

/-- R66: a write of `CAM_LANES` or `CAM_RATE`: an enabled port repeats discovery with the new value. -/
def State.camLinkWrite (s : State) (path : Path) (o : ObjRow) (p : Nat) (value : List Byte) : State :=
  let r := s.checkWrite path o p 0 value
  let s := s.dictWrite path o p 0 value
  if r = 0 && s.flag Obj.CAM_ENABLE p then (s.camDrop p).discover p else s

/-- R66: a write of `CAM_LANES`. -/
def execCamLanesWrite (t : Nat) (path : Path) (p : Fin 12) (value : List Byte) (s : State) : Result :=
  .next ((s.at t).camLinkWrite path Obj.CAM_LANES p value)

/-- R66: a write of `CAM_RATE`. -/
def execCamRateWrite (t : Nat) (path : Path) (p : Fin 12) (value : List Byte) (s : State) : Result :=
  .next ((s.at t).camLinkWrite path Obj.CAM_RATE p value)

/-- R67: what the cabling shows: different devices, a connection ID missing below `lanes`, or one duplicated. -/
def cableError (answers : List LaneAnswer) (lanes : Nat) : Bool :=
  let ids := answers.map (fun a => a.connId)
  let who := answers.map (fun a => a.identity)
  who.any (fun i => i != who.headD 0) || decide (answers.length < lanes) ||
    (List.range lanes).any (fun c => !ids.contains c) || ids.any (fun c => decide (1 < ids.count c))

/-- R66: the lane of the connection with ID 0, which becomes the master lane. -/
def masterLane (answers : List LaneAnswer) : Option Nat :=
  (answers.find? (fun a => a.connId == 0)).map (fun a => a.lane.val)

/-- R64: the camera announces what a port does not support: an area-scan stream or a third stream. -/
def discoveryUnsupported (d : Discovery) : Bool := d.areaScan || decide (2 < d.streams)

/-- R66, R87: the link comes up on the lanes of the connection; in ARMED, RUN and HOLD it has returned. -/
def State.camLinkUp (s : State) (p : Nat) (d : Discovery) : State :=
  let lanes := (d.answers.filter (fun a => a.connId < s.rdN Obj.CAM_LANES p)).foldl (fun m a => m ||| 2 ^ a.lane.val) 0
  let w := withBit (withField (s.rdN Obj.CAM_LINK_STATUS p) 0 4 lanes) camUp true
  let w := withBit (withBit w camRefused false) camCableError false
  let s := (s.putN Obj.CAM_LINK_STATUS p 0 w).setBit Obj.CAM_PRESENT 0 0 p true
  let s := ((s.putBlob Obj.CAM_VENDOR p 0 d.vendor).putBlob Obj.CAM_MODEL p 0 d.model).putBlob Obj.CAM_SERIAL p 0 d.serial
  let s := s.setCam p { s.cam p with heartbeat := s.now, returned := s.lining, master := masterLane d.answers }
  (s.setLevel (36 + p) false).partBack 2 p

/-- R66, R67: a discovery attempt ends, up or down. -/
def execDiscoveryDone (t : Nat) (p : Fin 12) (found : Discovery) (s : State) : Result :=
  let s := s.at t
  if !s.bit Obj.CAM_LINK_STATUS p 0 camDiscovering || !s.islandRuns (15 + p) then .next s
  else
    let s := (s.camBit p camDiscovering false).setCam p { s.cam p with attemptEnd := s.now }
    if cableError found.answers (s.rdN Obj.CAM_LANES p) then
      .next ((s.camBit p camCableError true).raise .CAM_CABLE_ERROR (Obj.CAM_LINK_STATUS.ident p))
    else if discoveryUnsupported found || found.refused then
      .next ((s.camBit p camRefused true).raise .CAM_CONFIG_REFUSED (Obj.CAM_LINK_STATUS.ident p))
    else if found.trained then .next (s.camLinkUp p found)
    else .next s

/-- R66, R88: whether a further attempt is due: the port is enabled, its island runs, it is down and idle, and `wait` ns have
passed. -/
def State.attemptDue (s : State) (p wait : Nat) : Bool :=
  s.flag Obj.CAM_ENABLE p && s.islandRuns (15 + p) && !s.camIsUp p && !s.bit Obj.CAM_LINK_STATUS p 0 camDiscovering &&
    decide ((s.cam p).attemptEnd + wait ≤ s.now)

/-- R66: in INIT and PREOP discovery is repeated every 1 s. -/
def execDiscoveryRetry (t : Nat) (p : Fin 12) (s : State) : Result :=
  let s := s.at t
  if (s.mode == stInit || s.mode == stPreop) && s.attemptDue p 1000000000 then .next (s.discover p) else .next s

/-- R87: in ARMED, RUN and HOLD discovery and configuration repeat every 100 ms. -/
def execLinkRetry (t : Nat) (p : Fin 12) (s : State) : Result :=
  let s := s.at t
  if s.lining && s.attemptDue p 100000000 then .next (s.discover p) else .next s

/-- R86: a heartbeat packet. -/
def execCamHeartbeat (t : Nat) (p : Fin 12) (s : State) : Result :=
  let s := s.at t
  if s.camIsUp p then .next (s.setCam p { s.cam p with heartbeat := s.now, beat := some s.now }) else .next s

/-- R86: no heartbeat within `CAM_HB_TIMEOUT_MS`. -/
def execCamHbTimeout (t : Nat) (p : Fin 12) (s : State) : Result :=
  let s := s.at t
  let ms := s.rdN Obj.CAM_HB_TIMEOUT_MS p
  if s.camIsUp p && ms != 0 && decide ((s.cam p).heartbeat + ms * 1000000 ≤ s.now) then
    .next (s.camLinkDown p)
  else .next s

/-- R86: a lane of the gang loses lock. -/
def execLaneLockLoss (t : Nat) (p : Fin 12) (lane : Fin 4) (s : State) : Result :=
  let s := s.at t
  if s.bit Obj.CAM_LINK_STATUS p 0 lane then .next ((s.camBit p lane false).camLinkDown p) else .next s

/-! ## The register window (R69, R70) -/

/-- R69: the bytes of the window's data object, `n` of them. -/
def State.camRegData (s : State) (p n : Nat) : List Byte := (s.rdBlob Obj.CAM_REG_DATA p).take n

/-- R70: a camera address belongs to the epoch mechanism: it is the port's exposure or gain register, of which 0 is none. -/
def State.epochRegister (s : State) (p addr : Nat) : Bool :=
  addr != 0 && (addr == s.rdN Obj.CAM_EXPOSURE_REG p || addr == s.rdN Obj.CAM_GAIN_REG p)

/-- R66, R71: a window transaction goes onto the uplink. The uplink of a port that is not up carries nothing: the transaction runs
into its timeout (log entry 261). -/
def State.winSend (s : State) (p : Nat) (x : WinCmd) : State :=
  let s := s.setCam p { s.cam p with winOn := true, winWait := none }
  if s.camIsUp p then s.emit (.camControl p x.write x.address x.length x.data) else s

/-- R71: a window transaction starts, unless commands of the port's own are before it. -/
def State.winStart (s : State) (p : Nat) (x : WinCmd) : State :=
  if (s.cam p).writes.isEmpty then s.winSend p x else s.setCam p { s.cam p with winWait := some x }

/-- R69, R70: a write of `CAM_REG_CMD`. While a transaction runs it is refused; a write to an epoch register while lines
are taken is refused with status 5. The transaction takes its address, length and bytes now. -/
def State.camReg (s : State) (path : Path) (p : Nat) (write : Bool) : State :=
  let k := Obj.CAM_REG_CMD.key p 0
  let s := s.touch path
  match s.checkAccess path Obj.CAM_REG_CMD p 0 1 with
  | 0 =>
    let addr := s.rdN Obj.CAM_REG_ADDR p
    if s.rdN Obj.CAM_REG_STATUS p = 1 then s.answer path k 8
    else if write && s.lining && s.epochRegister p addr then
      (s.putN Obj.CAM_REG_STATUS p 0 5).answer path k 4
    else
      let n := s.rdN Obj.CAM_REG_LEN p
      let s := (s.putN Obj.CAM_REG_STATUS p 0 1).setCam p { s.cam p with winWrite := write, winLen := n }
      let x : WinCmd := { write := write, address := addr, length := n, data := if write then s.camRegData p n else [] }
      (s.winStart p x).answer path k 0
  | r => s.answer path k r

/-- R78: the camera's register of exposure or gain; 0 none. -/
def State.camRegAddr (s : State) (p : Nat) (gain : Bool) : Nat :=
  if gain then s.rdN Obj.CAM_GAIN_REG p else s.rdN Obj.CAM_EXPOSURE_REG p

/-- R79, R80: a control command goes out on the uplink; a register value is 4 bytes, the lowest first (log entry 209), and of a
value of 2³² or more the low 4 (log entry 252). -/
def State.sendWrite (s : State) (p : Nat) (w : CamWrite) : State :=
  s.emit (.camControl p (!w.readback) w.addr 4 (if w.readback then [] else toLe 4 w.value))

/-- R71: the window transaction leaves the uplink: the port's first command goes out, if one waits. -/
def State.winEnd (s : State) (p : Nat) : State :=
  let c := s.cam p
  let s := s.setCam p { c with winOn := false, winWait := none }
  match c.writes with
  | [] => s
  | w :: _ => if c.winOn then s.sendWrite p w else s

/-- R69: `CAM_REG_CMD` = 1. -/
def execCamRegRead (t : Nat) (path : Path) (p : Fin 12) (s : State) : Result := .next ((s.at t).camReg path p false)

/-- R69: `CAM_REG_CMD` = 2. -/
def execCamRegWrite (t : Nat) (path : Path) (p : Fin 12) (s : State) : Result := .next ((s.at t).camReg path p true)

/-- R69: `CAM_REG_CMD` = 3: a transaction that waits for its acknowledge is aborted, and the window is idle. With none
running the command is refused. -/
def execCamRegAbort (t : Nat) (path : Path) (p : Fin 12) (s : State) : Result :=
  let s := (s.at t).touch path
  let k := Obj.CAM_REG_CMD.key p 0
  match s.checkAccess path Obj.CAM_REG_CMD p 0 1 with
  | 0 =>
    if s.rdN Obj.CAM_REG_STATUS p = 1 then .next (((s.putN Obj.CAM_REG_STATUS p 0 0).winEnd p).answer path k 0)
    else .next ((s.putN Obj.CAM_REG_STATUS p 0 5).answer path k 4)
  | r => .next (s.answer path k r)

/-- R69: the acknowledge of the window transaction that is on the uplink. -/
def execCamRegComplete (t : Nat) (p : Fin 12) (code : Nat) (data : List Byte) (s : State) : Result :=
  let s := s.at t
  if s.rdN Obj.CAM_REG_STATUS p ≠ 1 || !(s.cam p).winOn || !s.camIsUp p then .next s
  else if code ≠ 0 then .next (((s.putN Obj.CAM_REG_STATUS p 0 3).putN Obj.CAM_REG_ACK p 0 code).winEnd p)
  else
    let s := ((s.putN Obj.CAM_REG_STATUS p 0 2).putN Obj.CAM_REG_ACK p 0 0).winEnd p
    if (s.cam p).winWrite then .next s
    else
      let n := (s.cam p).winLen
      let got := (data ++ List.replicate n 0).take n
      .next (s.putBlob Obj.CAM_REG_DATA p 0 (got ++ (s.rdBlob Obj.CAM_REG_DATA p).drop n))

/-- R69: no acknowledge after the retries. -/
def execCamRegTimeout (t : Nat) (p : Fin 12) (s : State) : Result :=
  let s := s.at t
  if s.rdN Obj.CAM_REG_STATUS p = 1 && (s.cam p).winOn then .next ((s.putN Obj.CAM_REG_STATUS p 0 4).winEnd p) else .next s

/-! ## Exposure and gain at the camera (R78 to R80) -/

/-- R78: the register value of a setting: its scale in 2⁻¹⁶, halves rounding up. -/
def camRegValue (v scale : Nat) : Nat := (v * scale + 32768) / 65536

/-- R78: the register value of a setting of exposure or gain. -/
def State.camScaled (s : State) (p : Nat) (gain : Bool) (v : Nat) : Nat :=
  camRegValue v (if gain then s.rdN Obj.CAM_GAIN_SCALE p else s.rdN Obj.CAM_EXPOSURE_SCALE p)

/-- R71, R79: a command of the port's own joins its queue; the first in the queue is on the uplink, once a window transaction
there has completed. With the link down it can have no acknowledge, and its epoch carries EPOCH_SKEW as after a timeout (log
entry 262). -/
def State.pushWrite (s : State) (p : Nat) (w : CamWrite) : State :=
  let c := s.cam p
  if !s.camIsUp p then s.epochSkew p w.epoch
  else
    let s := s.setCam p { c with writes := c.writes ++ [w] }
    if c.writes.isEmpty && !c.winOn then s.sendWrite p w else s

/-- R79: the write of a setting: exposure or gain of value `v` for epoch `ep`, whose first line is `first`. -/
def State.camWrite (s : State) (p : Nat) (gain : Bool) (v ep first : Nat) : CamWrite :=
  { gain := gain, addr := s.camRegAddr p gain, value := s.camScaled p gain v, epoch := ep, first := first }

/-- R79, R80: a write is made; it stands for its register until the readbacks of its epoch, and `v` is what the camera was last
sent. -/
def State.issueWrite (s : State) (p : Nat) (w : CamWrite) (v : Int) : State :=
  let c := s.cam p
  (s.setCam p { c with
    issued := c.issued.filter (fun x => x.gain != w.gain) ++ [w]
    sent := store c.sent 0 (boolNat w.gain) v }).pushWrite p w

/-- R71, R79: the command on the uplink is done; the next one goes out, and after the last a window transaction that waits. -/
def State.popWrite (s : State) (p : Nat) : State :=
  let c := s.cam p
  let s := s.setCam p { c with writes := c.writes.drop 1 }
  match c.writes.drop 1 with
  | [] =>
    match c.winWait with
    | none => s
    | some x => s.winSend p x
  | w :: _ => s.sendWrite p w

/-- R71: the port's own command that is on the uplink: the first of its queue, unless a window transaction is there. -/
def CamPort.onUplink (c : CamPort) : List CamWrite := if c.winOn then [] else c.writes

/-- R87: the last write of a returned link is acknowledged: lines triggered from now on carry no SKEW. One that only times out is
not acknowledged. -/
def State.relinkDone (s : State) (p : Nat) (w : CamWrite) : State :=
  let c := s.cam p
  if !w.relink || c.writes.any (fun x => x.relink) then s else s.setCam p { c with relinking := false }

/-- R79, R80: the camera's acknowledge of the write on the uplink: late after the trigger of its epoch's first line, or with a
code, it raises EPOCH_SKEW. -/
def execCamAck (t : Nat) (p : Fin 12) (gain : Bool) (code : Nat) (s : State) : Result :=
  let s := s.at t
  match (s.cam p).onUplink with
  | [] => .next s
  | w :: _ =>
    if w.readback || w.gain != gain then .next s
    else
      let late := !w.arming && !w.relink && decide (w.first ≤ s.rdN Obj.CAM_LINE_NOW p) && decide ((s.cam p).epochTrig < s.now)
      let s := s.popWrite p
      let s := if late || code ≠ 0 then s.epochSkew p w.epoch else s
      .next (s.relinkDone p w)

/-- R79, R80: a write or a readback times out: the applied value is not confirmed. -/
def execCamAckTimeout (t : Nat) (p : Fin 12) (gain readback : Bool) (s : State) : Result :=
  let s := s.at t
  match (s.cam p).onUplink with
  | [] => .next s
  | w :: _ =>
    if w.readback != readback || w.gain != gain then .next s
    else .next ((s.popWrite p).epochSkew p w.epoch)

/-- The distance of two register values. -/
def natDist (a b : Nat) : Nat := if a ≤ b then b - a else a - b

/-- R80: the answer to a readback: a code, or a value further from the written one than `CAM_SKEW_TOL`. -/
def execSkewReadback (t : Nat) (p : Fin 12) (gain : Bool) (code value : Nat) (s : State) : Result :=
  let s := s.at t
  match (s.cam p).onUplink with
  | [] => .next s
  | w :: _ =>
    if !w.readback || w.gain != gain then .next s
    else
      let s := s.popWrite p
      if code ≠ 0 || s.rdN Obj.CAM_SKEW_TOL p < natDist value w.value then .next (s.epochSkew p w.epoch) else .next s

/-- R80: the setting an event packet is compared with: the exposure register's value, or the gain register's where no
exposure is written; none where neither is. -/
def State.eventReference (s : State) (p : Nat) : Option Nat :=
  if s.rdN Obj.CAM_EXPOSURE_REG p ≠ 0 then some (s.camScaled p false (s.rdN Obj.CAM_EXPOSURE p))
  else if s.rdN Obj.CAM_GAIN_REG p ≠ 0 then some (s.camScaled p true (s.rdN Obj.CAM_GAIN p))
  else none

/-- R80, R90: a camera event packet is kept, its ID in the first two bytes and zeros behind its data (log entry 211); with source
2 and the matching ID its first word, the lowest byte first (log entry 210), is checked. -/
def execCamEventPacket (t : Nat) (p : Fin 12) (id : Nat) (data : List Byte) (s : State) : Result :=
  let s := s.at t
  if !s.camIsUp p then .next s
  else
    let s := s.count Obj.CAM_EVENT_COUNT p 0 1
    let s := s.putBlob Obj.CAM_EVENT_LAST p 0 ((toLe 2 id ++ data ++ List.replicate 64 0).take 64)
    if s.rdN Obj.CAM_SKEW_SOURCE p = 2 && id == s.rdN Obj.CAM_SKEW_EVENT_ID p && s.lining then
      match s.eventReference p with
      | none => .next s
      | some v =>
        if s.rdN Obj.CAM_SKEW_TOL p < natDist (leAt data 0 4) v then
          .next (s.epochSkew p (s.rdN Obj.EPOCH_ID 0 (s.portGroup p)))
        else .next s
    else .next s

/-- R87: the link has returned: the live exposure and gain are written, and lines carry SKEW until the last is acknowledged. -/
def execCamLinkReturn (t : Nat) (p : Fin 12) (s : State) : Result :=
  let s := s.at t
  if !((s.cam p).returned && s.camIsUp p && s.lining) then .next s
  else
    let ep := s.rdN Obj.EPOCH_ID 0 (s.portGroup p)
    let s := (s.setCam p { s.cam p with returned := false, relinking := false }).camRelink p
    .next ([false, true].foldl (fun (s : State) gain =>
      let v := s.rdN (if gain then Obj.CAM_GAIN else Obj.CAM_EXPOSURE) p
      if s.camRegAddr p gain = 0 then s
      else
        let s := s.setCam p { s.cam p with sent := store (s.cam p).sent 0 (boolNat gain) v }
        s.pushWrite p { s.camWrite p gain v ep 0 with relink := true }) s)

/-! ## Statistics (R81, R82) -/

/-- R81: one valid sample of a plane joins a bank: its sum, clips and histogram bin. -/
def State.statSample (s : State) (p : Nat) (cur : Bool) (plane depth v : Nat) : State :=
  let o := if cur then Obj.CAM_STATS_CUR else Obj.CAM_STATS_LAST
  let h := if cur then Obj.CAM_HIST_CUR else Obj.CAM_HIST_LAST
  let sat := if cur then Obj.CAM_HIST_SAT_CUR else Obj.CAM_HIST_SAT_LAST
  let c := s.cam p
  let sums := if cur then c.sumCur else c.sumLast
  let sum := look sums 0 plane + v
  let sums := store sums 0 plane sum
  let s := s.setCam p (if cur then { c with sumCur := sums } else { c with sumLast := sums })
  let s := s.count o p (9 + plane) 1
  let n := s.rdN o p (9 + plane) % 2 ^ 48
  let s := s.putN o p (5 + plane) (sum * 256 / n)
  let s := if v = 0 then s.count o p (13 + plane) 1 else s
  let s := if v = 2 ^ depth - 1 then s.count o p (17 + plane) 1 else s
  let b := v / 2 ^ (depth - 5)
  s.bin h p (32 * plane + b) 1 sat p plane b

/-- R81: the valid samples of one row. -/
def State.statRow (s : State) (p : Nat) (cur : Bool) (layout depth row : Nat) (span : Nat × Nat) (r : List Nat) : State :=
  (r.zipIdx).foldl (fun s x =>
    if span.1 ≤ x.2 && x.2 < span.2 then s.statSample p cur (planeOf layout row x.2) depth x.1 else s) s

/-- R81, R82: a closed line joins the bank of its epoch. -/
def State.statLine (s : State) (p : Nat) (l : CapLine) : State :=
  let cur := l.epoch == s.rdN Obj.CAM_STATS_CUR p 0
  if !cur && l.epoch != s.rdN Obj.CAM_STATS_LAST p 0 then s
  else
    let s := s.count (if cur then Obj.CAM_STATS_CUR else Obj.CAM_STATS_LAST) p 2 1
    let layout := s.rdN Obj.CAM_LAYOUT p
    let depth := s.rdN Obj.CAM_DEPTH p
    ((l.rows.zip l.spans).zipIdx).foldl (fun s x => s.statRow p cur layout depth x.2 x.1.2 x.1.1) s

/-- R82: the last bank is final once every slot of its epoch has closed; CAM_EPOCH_CLOSED fires. -/
def State.statFinal (s : State) (p : Nat) : State :=
  if s.rdN Obj.CAM_STATS_LAST p 1 ≠ 0 && !s.flag Obj.CAM_STATS_LAST p 4 &&
      !(s.cam p).slots.any (fun x => x.epoch == s.rdN Obj.CAM_STATS_LAST p 0) then
    (s.put Obj.CAM_STATS_LAST p 4 1).fire (12 + p)
  else s

/-- R82: at the trigger of an epoch's first line the current bank is copied to the last bank and cleared. -/
def State.statSwitch (s : State) (p ep first : Nat) : State :=
  let s := s.putList Obj.CAM_STATS_LAST p (s.rdList Obj.CAM_STATS_CUR p 21)
  let s := s.putList Obj.CAM_HIST_LAST p (s.rdList Obj.CAM_HIST_CUR p 128)
  let s := s.putList Obj.CAM_HIST_SAT_LAST p (s.rdList Obj.CAM_HIST_SAT_CUR p 4)
  let c := s.cam p
  let s := s.setCam p { c with sumLast := c.sumCur, sumCur := [] }
  let s := s.putList Obj.CAM_STATS_CUR p (List.replicate 21 0)
  let s := s.putList Obj.CAM_HIST_CUR p (List.replicate 128 0)
  let s := s.putList Obj.CAM_HIST_SAT_CUR p (List.replicate 4 0)
  let s := (s.putN Obj.CAM_STATS_CUR p 0 ep).putN Obj.CAM_STATS_CUR p 1 first
  s.statFinal p

/-! ## Line assembly (R75 to R77, R83 to R85) -/

/-- R85: the bits of FLAGS. -/
def lfShort : Nat := 1
/-- R85. -/
def lfLong : Nat := 2
/-- R85. -/
def lfLost : Nat := 4
/-- R85. -/
def lfSkew : Nat := 8
/-- R85. -/
def lfCrc : Nat := 16
/-- R85. -/
def lfDeadline : Nat := 32
/-- R85. -/
def lfCapture : Nat := 64

/-- R76: what is left of a row of width `c`: its samples, filled up, its span, and whether it was short. -/
def finishRow (c fill : Nat) (r : RowIn) : List Nat × (Nat × Nat) :=
  let x := r.samples.take c
  (x ++ List.replicate (c - x.length) fill, if x.isEmpty then (0, 0) else (0, x.length))

/-- R77: the rows and spans of an all-invalid line. -/
def invalidRows (rows c fill : Nat) : List (List Nat) × List (Nat × Nat) :=
  (List.replicate rows (List.replicate c fill), List.replicate rows (0, 0))

/-- R76, R77: the line counters, each once per line. -/
def State.lineCounts (s : State) (p flags : Nat) : State :=
  let s := if flags.testBit 0 then s.count Obj.CAM_LINE_SHORT p 0 1 else s
  let s := if flags.testBit 1 then s.count Obj.CAM_LINE_LONG p 0 1 else s
  let s := if flags.testBit 2 then s.count Obj.CAM_LINE_LOST p 0 1 else s
  let s := if flags.testBit 4 then s.count Obj.CAM_CRC_ERRORS p 0 1 else s
  if flags.testBit 6 then s.count Obj.CAM_CAPTURE_LOST p 0 1 else s

/-- R405: the capture path of port `p` holds as many lines as it now holds: it enters or leaves panic. -/
def State.capturePanic (s : State) (p : Nat) : State :=
  let c := s.cam p
  let on := decide (s.rdN Obj.DR_CAPTURE_PANIC ≤ c.waiting.length)
  if on == c.panic then s
  else
    let s := s.setCam p { c with panic := on }
    let s := if on then s.count Obj.DR_PANIC_COUNT 0 0 1 else s
    s.setBit Obj.DR_STATUS 0 0 4 ((List.range 12).any (fun q => (s.cam q).panic))

/-- R75 to R77, R81 to R85: a slot closes as a line. `lost` makes it all-invalid with the further flags; a link that is down
does so too (R86), and so does a capture path that already buffers four lines (R85). Only there is a payload that failed its CRC
still counted and flagged (log entry 251). -/
def State.closeSlot (s : State) (p : Nat) (x : Slot) (lost : Option Nat) : State :=
  let layout := s.rdN Obj.CAM_LAYOUT p
  let nr := layoutRows layout
  let c := s.camC p
  let fill := s.rdN Obj.CAM_FILL_VALUE p
  let cam := s.cam p
  let full := decide (4 ≤ cam.waiting.length)
  let down := !s.camIsUp p
  let skew := if x.skew || cam.skewed.contains x.epoch then lfSkew else 0
  let ins := (List.range nr).map (fun i => x.rows.getD i {})
  let done := ins.map (finishRow c fill)
  let short := done.any (fun d => decide (d.2.2 < c))
  let kept := (if short then lfShort else 0) ||| (if ins.any (fun r => r.long) then lfLong else 0) |||
    (if ins.any (fun r => r.crcBad) then lfCrc else 0)
  let inv := invalidRows nr c fill
  let parts : Nat × List (List Nat) × List (Nat × Nat) :=
    if down then (lfLost ||| lfDeadline, inv.1, inv.2)
    else match lost with
      | some f => (lfLost ||| f, inv.1, inv.2)
      | none =>
        if full then (kept ||| lfLost ||| lfCapture, inv.1, inv.2)
        else (kept, done.map (fun d => d.1), done.map (fun d => d.2))
  let flags := (if full then parts.1 ||| lfLost ||| lfCapture else parts.1) ||| skew
  let l : CapLine := {
    line := x.line, trig := x.trig, belt := x.belt, epoch := x.epoch, flags := flags, port := p, group := s.portGroup p,
    spans := parts.2.2, arrival := s.now, rows := parts.2.1 }
  let s := s.setCam p { cam with slots := cam.slots.filter (fun y => y.line != x.line), waiting := cam.waiting ++ [l] }
  (((s.capturePanic p).lineCounts p flags).statLine p l).statFinal p

/-- R74, R75: the line of a slot is complete: every row it needs has ended. -/
def slotComplete (layout : Nat) (x : Slot) : Bool :=
  (List.range (layoutRows layout)).all (fun i => (x.rows.getD i {}).ended)

/-- R76: a row takes a packet's samples; from a payload CRC failure on, nothing counts as received. -/
def takeSamples (c : Nat) (r : RowIn) (k : StreamPacket) : RowIn :=
  if r.crcBad || !k.payloadOk then { r with crcBad := true, ended := r.ended || k.rowEnd }
  else
    let all := r.samples ++ k.samples
    { r with samples := all.take c, long := r.long || decide (c < all.length), ended := r.ended || k.rowEnd }

/-- R73, R74: the row of the line a packet's samples belong to. -/
def State.packetRow (s : State) (p : Nat) (k : StreamPacket) : Nat :=
  if s.rdN Obj.CAM_ROW_DELIVERY p = 1 then k.stream else k.row

/-- R75, R76: a packet fills its slot; a complete line closes. -/
def State.fillSlot (s : State) (p : Nat) (x : Slot) (k : StreamPacket) : State :=
  let i := s.packetRow p k
  let x := { x with rows := setAt x.rows {} i (takeSamples (s.camC p) (x.rows.getD i {}) k) }
  if slotComplete (s.rdN Obj.CAM_LAYOUT p) x then s.closeSlot p x none
  else
    let c := s.cam p
    s.setCam p { c with slots := c.slots.map (fun y => if y.line = x.line then x else y) }

/-- R76: the rows of stream `st` of a slot end where they stand: a short row. -/
def State.endStream (s : State) (p st : Nat) (x : Slot) : Slot :=
  let mine := if s.rdN Obj.CAM_ROW_DELIVERY p = 1 then [st] else List.range (layoutRows (s.rdN Obj.CAM_LAYOUT p))
  mine.foldl (fun x i => { x with rows := setAt x.rows {} i { x.rows.getD i {} with ended := true } }) x

/-- R75: a line start ends the line its stream was filling. -/
def State.endCurrent (s : State) (p st : Nat) : State :=
  match look (s.cam p).current none st with
  | none => s
  | some n =>
    match (s.cam p).slots.find? (fun x => x.line == n) with
    | none => s
    | some x =>
      let x := s.endStream p st x
      if slotComplete (s.rdN Obj.CAM_LAYOUT p) x then s.closeSlot p x none
      else
        let c := s.cam p
        s.setCam p { c with slots := c.slots.map (fun y => if y.line = n then x else y) }

/-- The line stream `st` fills from now on; none: its packets are discarded. -/
def State.setCurrent (s : State) (p st : Nat) (n : Option Nat) : State :=
  let c := s.cam p
  s.setCam p { c with current := store c.current none st n }

/-- R76: the packets of every stream are discarded until its next line start. -/
def State.noCurrent (s : State) (p : Nat) : State := s.setCam p { s.cam p with current := [] }

/-- R75: the start of stream `st` that belongs to a line counted in `CAM_LINE_EXTRA` by the other stream's start, if one is due:
whether it is, and the port without it. -/
def CamPort.extraDue (c : CamPort) (st : Nat) : Bool × CamPort :=
  let n := look c.extra 0 (1 - st)
  (decide (0 < n), { c with extra := store c.extra 0 (1 - st) (n - 1) })

/-- R75: a line start of stream `st` that no open slot waits for is discarded with the rest of its line, and counted once for the
line, not once per stream. -/
def State.lineExtra (s : State) (p st : Nat) : State :=
  let d := (s.cam p).extraDue st
  if d.1 then s.setCam p d.2
  else
    let c := s.cam p
    let two := s.rdN Obj.CAM_ROW_DELIVERY p = 1
    let s := if two then s.setCam p { c with extra := store c.extra 0 st (look c.extra 0 st + 1) } else s
    s.count Obj.CAM_LINE_EXTRA p 0 1

/-- R75: a line start goes to the oldest open slot that has not received one; with none waiting the line is discarded. -/
def State.lineStart (s : State) (p : Nat) (k : StreamPacket) : State :=
  let s := s.endCurrent p k.stream
  match (s.cam p).slots.find? (fun x => !x.started.contains k.stream) with
  | none => (s.setCurrent p k.stream none).lineExtra p k.stream
  | some x =>
    let s := (s.setCam p ((s.cam p).extraDue k.stream).2).setCurrent p k.stream (some x.line)
    s.fillSlot p { x with started := k.stream :: x.started } k

/-- R77: a packet of a line whose slot has closed is discarded and counted once for the line. -/
def State.latePacket (s : State) (p n : Nat) : State :=
  let c := s.cam p
  if c.lateSeen.contains n then s
  else (s.setCam p { c with lateSeen := n :: c.lateSeen }).count Obj.CAM_LINE_LATE p 0 1

/-- R74, R76: port `p` knows stream `st`. -/
def State.knownStream (s : State) (p st : Nat) : Bool := decide (st ≤ s.rdN Obj.CAM_ROW_DELIVERY p)

/-- R75, R76: a stream packet arrives. A bad header, or one that names an unknown stream, is taken as the start of the oldest
open slot's line, which closes all-invalid, and what follows is discarded until a line start. With no slot open nothing is
counted (log entry 250). -/
def execStreamPacket (t : Nat) (p : Fin 12) (packet : StreamPacket) (s : State) : Result :=
  let s := s.at t
  if !s.camIsUp p then .next s
  else if !packet.headerOk || !s.knownStream p packet.stream then
    match (s.cam p).slots with
    | [] => .next (s.noCurrent p)
    | x :: _ => .next ((s.closeSlot p x (some 0)).noCurrent p)
  else if packet.lineStart then .next (s.lineStart p packet)
  else
    match look (s.cam p).current none packet.stream with
    | none => .next s
    | some n =>
      match (s.cam p).slots.find? (fun x => x.line == n) with
      | some x => .next (s.fillSlot p x packet)
      | none => .next (s.latePacket p n)

/-- R75, R76: a slot unfilled at its deadline closes as a lost line; with two streams, one complete row is kept and the
missing one is all-invalid. -/
def execLineDeadline (t : Nat) (p : Fin 12) (line : Nat) (s : State) : Result :=
  let s := s.at t
  match (s.cam p).slots.find? (fun x => x.line == line) with
  | none => .next s
  | some x =>
    if s.now < x.trig + s.rdN Obj.CAM_LINE_DEADLINE_NS p then .next s
    else
      let one := s.rdN Obj.CAM_ROW_DELIVERY p = 1 && (x.rows.any (fun r => r.ended))
      if one then
        let x' := { x with rows := x.rows.map (fun r => if r.ended then r else {}) }
        .next (s.closeSlot p x' none)
      else .next (s.closeSlot p x (some lfDeadline))

/-- R405: the replay read-ahead of port `p` enters or leaves panic. It is empty as a replay begins; each line that is taken from it
tells its level (log entry 242). -/
def State.replayPanic (s : State) (p : Nat) (on : Bool) : State :=
  let c := s.cam p
  if on == c.reading then s
  else
    let s := s.setCam p { c with reading := on, readFrom := s.now }
    let s := if on then s.count Obj.DR_PANIC_COUNT 0 1 1 else s
    s.setBit Obj.DR_STATUS 0 0 5 ((List.range 12).any (fun q => (s.cam q).reading))

/-- R83: committed lines go to the pipeline in line order, as far as no earlier line is missing; `fuel` bounds the run. -/
def handOn (fuel : Nat) (s : State) (p : Nat) : State :=
  match fuel with
  | 0 => s
  | f + 1 =>
    let c := s.cam p
    let n := s.rdN Obj.CAM_LINE_CLOSED p + 1
    match c.committed.find? (fun l => l.line == n) with
    | none => s
    | some l =>
      let s := s.setCam p { c with committed := c.committed.filter (fun y => y.line != n), toPipe := c.toPipe ++ [l] }
      handOn f (s.putN Obj.CAM_LINE_CLOSED p 0 n) p

/-- R83: the key of a replay slot: port × 2²⁰ + slot. -/
def replayKey (p slot : Nat) : Nat := p * 2 ^ 20 + slot

/-- R84: the 64-byte tag of a line in its replay slot, without its CRC. -/
def capTag (l : CapLine) (dataBytes : Nat) : List Byte :=
  toLe 8 l.line ++ toLe 8 l.trig ++ toLe 8 (unsignedOf 8 l.belt) ++ toLe 4 l.epoch ++ toLe 2 l.flags ++ [l.port, l.group] ++
    ((List.range 3).map (fun i => let sp := l.spans.getD i (0, 0); toLe 2 sp.1 ++ toLe 2 sp.2)).flatten ++
    toLe 8 l.arrival ++ toLe 4 dataBytes ++ [0, 0, 0, 0]

/-- R84: the samples packed `depth` bits each, least significant bit first. -/
def packSamples (depth : Nat) (xs : List Nat) : Nat := xs.foldr (fun x a => x % 2 ^ depth + 2 ^ depth * a) 0

/-- R84: the bytes of a replay slot: the tag with its CRC-32C, then the data. -/
def capBytes (depth : Nat) (l : CapLine) : List Byte :=
  let xs := l.rows.flatten
  let n := xs.length * depth / 8
  let data := toLe n (packSamples depth xs)
  let tag := capTag l n
  tag ++ toLe 4 (crc32c (tag ++ data)) ++ data

end Sys2Proof.Machine
end

