-- ==== Sys2Proof/Machine/RawCorrection.lean ====
section
/-! DEFINITION. Raw correction: black clamp, defect substitution, noise reduction, plate, flat-field, snapshots
(spec/04_raw_correction.md, R92 to R119). A line enters; the line before it, whose lookahead it is, completes. -/

namespace Sys2Proof.Machine

open Sys2Proof

/-- Raw correction of port `p`. -/
def State.rcp (s : State) (p : Nat) : RcPort := look s.rc {} p

/-- Raw correction of port `p` becomes `v`. -/
def State.setRcp (s : State) (p : Nat) (v : RcPort) : State := { s with rc := store s.rc {} p v }

/-- R119: bits of `RC_STATUS`. -/
def rsWarmup : Nat := 0
/-- R119. -/
def rsReady : Nat := 1
/-- R119. -/
def rsSnapshot : Nat := 2
/-- R119. -/
def rsRefLoaded : Nat := 3
/-- R119. -/
def rsMapRefused : Nat := 4
/-- R119. -/
def rsOnlineFull : Nat := 5
/-- R119. -/
def rsStale : Nat := 6
/-- R119. -/
def rsBlackLost : Nat := 7
/-- R119. -/
def rsDrift : Nat := 8

/-- A bit of `RC_STATUS` of port `p`. -/
def State.rcBit (s : State) (p i : Nat) (v : Bool) : State := s.setBit Obj.RC_STATUS p 0 i v

/-! ## The settings of a line (R114) -/

/-- R114: a setting of port `p` in the epoch of line `l`. -/
def State.rcSet (s : State) (l : CapLine) (o : ObjRow) (e : Nat := 0) : Int := s.rdEpoch l.group l.epoch o l.port e

/-- The same as a natural number. -/
def State.rcSetN (s : State) (l : CapLine) (o : ObjRow) (e : Nat := 0) : Nat := (s.rcSet l o e).toNat

/-- R93: the same-colour step. -/
def colourStep (layout : Nat) : Nat := if layout = 1 then 2 else 1

/-! ## The noise model (R106) -/

/-- R106: 10^(2^k / 2000) in 2⁻⁹⁶, for each bit k of a gain in 0.01 dB. -/
def gammaBits : List Nat :=
  [79319429834851588214380107775, 79410802291334243152930988449, 79593863096572789365982385150,
    79961251676073863932716749153, 80701124028381665884074921915, 82201469941596729048810484555,
    85286360886416835801412372814, 91807800691307892687697781942, 106384800559490512839944096130,
    142849782588923672308652107416, 257560692285761746514074155352, 837297093678997818861650500308,
    8848702290136737331276150626230]

/-- R106: γ = 10^(gain / 2000) in 2⁻⁶⁴, the product of its bits' factors (log entry 17). -/
def gamma64 (gain : Nat) : Nat :=
  (gammaBits.zipIdx.foldl (fun a f => if gain.testBit f.2 then a * f.1 / 2 ^ 96 else a) (2 ^ 96)) / 2 ^ 32

/-- R106: entry `i` of the sigma table: 16 √(σ_r² + K s) rounded, at most 65,535. -/
def sigmaEntry (readNoise shotK gain depth i : Nat) : Nat :=
  let g := gamma64 gain
  let x := g * g * readNoise * readNoise + g * shotK * (2 * i + 1) * 2 ^ (47 + depth)
  min 65535 ((isqrt x + 2 ^ 63) / 2 ^ 64)

/-- R106: the table's lookup for a value in 1/16 LSB, with the settings of the epoch of line `l`. -/
def State.sigma (s : State) (l : CapLine) (v : Int) : Nat :=
  let d := s.rdN Obj.CAM_DEPTH l.port
  let i := min 255 ((max v 0).toNat / 2 ^ (d - 4))
  sigmaEntry (s.rcSetN l Obj.RC_READ_NOISE) (s.rcSetN l Obj.RC_SHOT_K) (s.rcSetN l Obj.CAM_GAIN) d i

/-! ## Defect maps (R100 to R102) -/

/-- R100: the entries of a map blob, as words. -/
def mapEntries (blob : List Byte) : List Nat := (List.range (leAt blob 4 2)).map (fun i => leAt blob (16 + 4 * i) 4)

/-- R101: the row of an entry. -/
def entryRow (w : Nat) : Nat := fieldOf w 30 2
/-- R101: the column of an entry. -/
def entryCol (w : Nat) : Nat := fieldOf w 16 14
/-- R101: the side of an entry. -/
def entrySide (w : Nat) : Nat := fieldOf w 14 2

/-- R102: the entries stand in strictly ascending (ROW, COLUMN) order. -/
def entriesAscend (ws : List Nat) : Bool :=
  match ws with
  | [] => true
  | a :: r =>
    (match r with
     | [] => true
     | b :: _ => decide (entryRow a * 16384 + entryCol a < entryRow b * 16384 + entryCol b)) && entriesAscend r

/-- R102: a map is right for a layout of `rows` rows of `c` columns with colour step `g`. -/
def mapFits (blob : List Byte) (layout w : Nat) : Bool :=
  let ws := mapEntries blob
  let g := colourStep layout
  let listed := fun r col => ws.any (fun e => entryRow e == r && entryCol e == col)
  blob.isEmpty ||
    (decide (16 ≤ blob.length) && leAt blob 0 4 == 0x314d4644 && decide (leAt blob 4 2 ≤ 1024) &&
      blob.length == 16 + 4 * leAt blob 4 2 && leAt blob 6 2 == rowWidth layout w && leAt blob 8 4 == 0 &&
      leAt blob 12 4 == crc32c (blob.drop 16) &&
      ws.all (fun e => fieldOf e 0 12 == 0 && decide (entryRow e < layoutRows layout) &&
        decide (entryCol e < rowWidth layout w) && entrySide e != 3 &&
        !(listed (entryRow e) (entryCol e + g) && listed (entryRow e) (entryCol e + 2 * g))) &&
      entriesAscend ws)

/-- R102: a write of `RC_DEFECT_MAP`, checked against the layout last written, and staged or refused. -/
def execDefectMapWrite (t : Nat) (path : Path) (p : Fin 12) (blob : List Byte) (s : State) : Result :=
  let s := (s.at t).touch path
  let o := Obj.RC_DEFECT_MAP
  match s.checkAccess path o p 0 blob.length with
  | 0 =>
    if mapFits blob (s.lastN Obj.CAM_LAYOUT p) (s.lastN Obj.CAM_WIDTH p) then
      let s := (s.stageEpochBlob o p 0 blob).putN Obj.RC_DEFECT_MAP_STATE p 0 2
      .next ((s.rcBit p rsMapRefused false).answer path (o.key p 0) 0)
    else
      let s := ((s.putN Obj.RC_DEFECT_MAP_STATE p 0 3).rcBit p rsMapRefused true).raise .DEFECT_MAP_REFUSED (o.ident p)
      .next (s.answer path (o.key p 0) 5)
  | r => .next (s.answer path (o.key p 0) r)

/-- R111: a write of `RC_FF_PLATE_REF`: 0 or 2W bytes; an empty one only while no flat-field mode is live or staged. R111 names
an event for the check on leaving PREOP alone: a refused write raises none. -/
def execPlateRefWrite (t : Nat) (path : Path) (p : Fin 12) (blob : List Byte) (s : State) : Result :=
  let s := (s.at t).touch path
  let o := Obj.RC_FF_PLATE_REF
  match s.checkAccess path o p 0 blob.length with
  | 0 =>
    let ok :=
      if blob.isEmpty then s.rdN Obj.RC_FF_MODE p == 0 && s.next Obj.RC_FF_MODE p 0 (s.portGroup p) == 0
      else blob.length == 2 * s.lastN Obj.CAM_WIDTH p
    if ok then .next ((s.stageEpochBlob o p 0 blob).answer path (o.key p 0) 0) else .next (s.answer path (o.key p 0) 5)
  | r => .next (s.answer path (o.key p 0) r)

/-! ## Black clamp (R97 to R99) -/

/-- R97: whether a column is masked. -/
def State.masked (s : State) (p c : Nat) : Bool :=
  let ms := s.rdN Obj.RC_MASK_START p
  decide (ms ≤ c) && decide (c < ms + s.rdN Obj.RC_MASK_COUNT p)

/-- R98: sum and number of a plane's masked samples that are valid, not SAT and not in the map. -/
def State.blackSum (s : State) (l : CapLine) (map : List Nat) (plane : Nat) : Nat × Nat :=
  let layout := s.rdN Obj.CAM_LAYOUT l.port
  let full := 2 ^ s.rdN Obj.CAM_DEPTH l.port - 1
  (l.rows.zipIdx).foldl (fun a r =>
    let sp := l.spans.getD r.2 (0, 0)
    (r.1.zipIdx).foldl (fun a x =>
      if s.masked l.port x.2 && planeOf layout r.2 x.2 == plane && decide (sp.1 ≤ x.2) && decide (x.2 < sp.2) &&
          x.1 != full && !map.any (fun e => entryRow e == r.2 && entryCol e == x.2) then (a.1 + x.1, a.2 + 1) else a) a)
    (0, 0)

/-- R98: the estimate after a mean `m` (1/16 LSB) that passed its test. -/
def blackStep (b : Int) (m shift : Nat) : Int :=
  if shift = 0 then (m * 4096 : Int) else b + ((m * 4096 : Int) - b + 2 ^ (shift - 1)) / 2 ^ shift

/-- R98: the black estimate of a plane; the fixed one where nothing is tracked or no mean has come. -/
def State.blackOf (s : State) (l : CapLine) (plane : Nat) : Int :=
  let r := s.rcp l.port
  let fixed := s.rcSet l Obj.RC_BLACK_FIXED plane * 4096
  if s.rdN Obj.RC_MASK_COUNT l.port = 0 then fixed else look r.black fixed plane

/-- R98, R99: one plane's mean of line `l` updates its estimate. The Bool says the plane produced a mean that passed; a mean
taken without the test counts as passing (log entry 217). -/
def State.blackPlane (s : State) (l : CapLine) (map : List Nat) (plane : Nat) : State × Bool :=
  let p := l.port
  let sn := s.blackSum l map plane
  if sn.2 = 0 then (s, false)
  else
    let m := (32 * sn.1 + sn.2) / (2 * sn.2)
    let b := s.blackOf l plane
    let r := s.rcp p
    if r.first.contains plane then
      (s.setRcp p { r with black := enlist r.black plane (m * 4096 : Int), first := r.first.erase plane,
                           discard := store r.discard 0 plane 0 }, true)
    else if absNat ((m * 4096 : Int) - b) ≤ s.rcSetN l Obj.RC_BLACK_TOL * 4096 then
      (s.setRcp p { r with black := enlist r.black plane (blackStep b m (s.rcSetN l Obj.RC_BLACK_SHIFT)),
                           discard := store r.discard 0 plane 0 }, true)
    else
      let s := s.count Obj.RC_BLACK_OUTLIER p 0 1
      let n := look r.discard 0 plane + 1
      if n = 256 then
        let s := s.setRcp p { r with black := enlist r.black plane (m * 4096 : Int), discard := store r.discard 0 plane 0 }
        ((s.rcBit p rsBlackLost true).raise .BLACK_LOST (Obj.RC_BLACK_LIVE.ident p plane), false)
      else (s.setRcp p { r with discard := store r.discard 0 plane n }, false)

/-- R98, R99: the line's means: every plane in turn, the clearing run of BLACK_LOST, and `RC_BLACK_LIVE`. -/
def State.blackLine (s : State) (l : CapLine) (map : List Nat) : State :=
  let p := l.port
  let planes := List.range (layoutPlanes (s.rdN Obj.CAM_LAYOUT p))
  let live := fun (s : State) => planes.foldl (fun s k =>
    s.put Obj.RC_BLACK_LIVE p k (clampInt 0 65535 ((s.blackOf l k + 2048) / 4096))) s
  if s.rdN Obj.RC_MASK_COUNT p = 0 then live s
  else
    let x := planes.foldl (fun (a : State × Bool) k => let q := a.1.blackPlane l map k; (q.1, a.2 && q.2)) (s, true)
    let s := x.1
    let run := if x.2 then (s.rcp p).okRun + 1 else 0
    let s := s.setRcp p { s.rcp p with okRun := run }
    live (if 256 ≤ run then s.rcBit p rsBlackLost false else s)

/-! ## Entering: clamp and substitution (R97, R99, R103, R108) -/

/-- R99: the clamped value of a sample. -/
def clampBlack (enabled : Bool) (x : Nat) (b : Int) : Int := if enabled then 16 * x - (b + 2048) / 4096 else 16 * x

/-- The sample at a column of a row. -/
def pxAt (r : List Px) (c : Int) : Px := if c < 0 then {} else r.getD c.toNat {}

/-- R103: a neighbour's value, where it is usable: inside the row, valid, not SAT, not listed. -/
def usable (r : List Px) (listed : Nat → Bool) (c : Int) : Option Int :=
  if c < 0 || (r.length : Int) ≤ c then none
  else
    let x := pxAt r c
    if x.inv || x.sat || listed c.toNat then none else some x.yc

/-- R103 steps 2 and 3: the mean of two neighbours, or the one that is usable. -/
def meanOf (a b : Option Int) : Option Int :=
  match a, b with
  | some a, some b => some ((a + b + 1) / 2)
  | some a, none => some a
  | none, b => b

/-- R103: the value a listed site takes from its neighbours, in the order of the four steps; none in step 4. -/
def substValue (r : List Px) (listed : Nat → Bool) (c g : Nat) (side : Nat) : Option Int :=
  let at' := fun (d : Int) => usable r listed ((c : Int) + d)
  let gi : Int := g
  let near :=
    match side with
    | 0 => (match at' (-gi) with | some v => some v | none => at' gi)
    | 1 => (match at' gi with | some v => some v | none => at' (-gi))
    | _ => meanOf (at' (-gi)) (at' gi)
  match near with
  | some v => some v
  | none => meanOf (at' (-(2 * gi))) (at' (2 * gi))

/-- R103, R105: how a site is listed on a line: by the map with its side, by the online list with side 2, or not. -/
def listedSide (map : List Nat) (online : List OnlineSite) (line row col : Nat) : Option Nat :=
  match map.find? (fun e => entryRow e == row && entryCol e == col) with
  | some e => some (entrySide e)
  | none =>
    if online.any (fun o => o.row == row && o.col == col && decide (o.start ≤ line) &&
        (match o.stop with | none => true | some x => decide (line < x))) then some 2 else none

/-- R109, R110: the state of site (row, col). -/
def siteAt (sites : List Site) (c row col : Nat) : Site := sites.getD (row * c + col) {}

/-- R92 stage 1: the rows of a line unpacked and clamped, masked columns invalid, each with its site's plate value. -/
def State.rcUnpack (s : State) (l : CapLine) : List (List Px) :=
  let p := l.port
  let layout := s.rdN Obj.CAM_LAYOUT p
  let full := 2 ^ s.rdN Obj.CAM_DEPTH p - 1
  let clamp := (s.rcSetN l Obj.RC_ENABLE).testBit 0
  let sites := (s.rcp p).sites
  let cw := s.camC p
  (l.rows.zipIdx).map (fun r =>
    let sp := l.spans.getD r.2 (0, 0)
    (r.1.zipIdx).map (fun x =>
      let inv := !(decide (sp.1 ≤ x.2) && decide (x.2 < sp.2)) || s.masked p x.2
      let y := clampBlack clamp x.1 (s.blackOf l (planeOf layout r.2 x.2))
      ({ raw := x.1, yc := y, y := y, p := ((siteAt sites cw r.2 x.2).p + 2048) / 4096, inv := inv,
         sat := x.1 == full } : Px)))

/-- R92 stage 2, R103: the rows after substitution, and how many sites no neighbour could serve. -/
def State.rcSubstitute (s : State) (l : CapLine) (map : List Nat) (rows : List (List Px)) : List (List Px) × Nat :=
  if !(s.rcSetN l Obj.RC_ENABLE).testBit 1 then (rows, 0)
  else
    let g := colourStep (s.rdN Obj.CAM_LAYOUT l.port)
    let online := (s.rcp l.port).online
    let out := (rows.zipIdx).map (fun r =>
      let side := fun c => listedSide map online l.line r.2 c
      (r.1.zipIdx).map (fun x =>
        match side x.2 with
        | none => (x.1, 0)
        | some sd =>
          if x.1.inv then (x.1, 0)
          else
            match substValue r.1 (fun c => (side c).isSome) x.2 g sd with
            | some v => ({ x.1 with y := v, sat := false, subst := true }, 0)
            | none => ({ x.1 with y := x.1.p, sat := false, subst := true }, 1)))
    (out.map (fun r => r.map (fun x => x.1)), sumNat (out.map (fun r => sumNat (r.map (fun x => x.2)))))

/-- R110: in warm-up every valid site is a candidate under four times `RC_BG_K`. -/
def State.warm (s : State) (l : CapLine) : Bool :=
  decide (l.line ≤ (s.rcp l.port).warmFrom + s.rdN Obj.RC_PLATE_WARMUP l.port)

/-- R108: the candidates of a line as it enters. -/
def State.rcCandidates (s : State) (l : CapLine) (rows : List (List Px)) : List (List Px) :=
  let k := s.rcSetN l Obj.RC_BG_K * (if s.warm l then 4 else 1)
  rows.map (fun r => r.map (fun x =>
    if x.inv || x.sat then x else { x with cand := decide (4 * absNat (x.y - x.p) ≤ k * s.sigma l x.p) }))

/-- R110: a site without an estimate takes its first valid sample. -/
def State.rcFirstValid (s : State) (l : CapLine) (rows : List (List Px)) : State × List (List Px) :=
  let r := s.rcp l.port
  let n := sumNat (rows.map (fun x => x.length))
  let flat := rows.flatten
  let sites := (List.range n).map (fun i =>
    let st := r.sites.getD i {}
    let x := flat.getD i {}
    if st.known || x.inv then st else { st with p := x.y * 4096, known := true })
  let cw := s.camC l.port
  let rows := (rows.zipIdx).map (fun row => (row.1.zipIdx).map (fun x =>
    { x.1 with p := ((siteAt sites cw row.2 x.2).p + 2048) / 4096 }))
  (s.setRcp l.port { r with sites := sites }, rows)

/-- R105: `RC_DEFECT_ONLINE` and its count show the list, ascending; entries carry SIDE 2, and a KIND that
the spec does not state (log entry 57). -/
def State.onlinePublish (s : State) (p : Nat) : State :=
  let live := (s.rcp p).online.filter (fun o => o.stop.isNone)
  let ws : List Int := live.map (fun o => ((o.row * 2 ^ 30 + o.col * 2 ^ 16 + 2 * 2 ^ 14 + (Config.onlineKind % 4) * 2 ^ 12 : Nat) : Int))
  let s := s.putList Obj.RC_DEFECT_ONLINE p (ws ++ List.replicate (64 - ws.length) 0)
  (s.putN Obj.RC_DEFECT_ONLINE_COUNT p 0 ws.length).rcBit p rsOnlineFull (ws.length == 64)

/-- R99, R102, R105: the epochs whose first line is line `l`, or was lost between the line before and `l`: where exposure or
gain changed, the black estimates take this line's means without the test; a new map's sites leave the online list; a reset
empties it and every DRUN. `entering` says that `l` enters; else it completes, where the list is changed alone. -/
def State.rcChange (s : State) (before : Option RcLine) (l : CapLine) (entering : Bool) : State :=
  let p := l.port
  let prev := before.elim 0 (fun x => x.cap.line)
  let due := (s.rcp p).changes.filter (fun c => decide (prev < c.line) && decide (c.line ≤ l.line))
  if due.isEmpty then s
  else
    let r := s.rcp p
    let map := mapEntries (s.rdEpochBlob l.group l.epoch Obj.RC_DEFECT_MAP p)
    let first := if entering && due.any (fun c => c.exposed) then List.range (layoutPlanes (s.rdN Obj.CAM_LAYOUT p)) else r.first
    let online :=
      if due.any (fun c => c.reset) then []
      else if due.any (fun c => c.newMap) then
        r.online.filter (fun o => !map.any (fun e => entryRow e == o.row && entryCol e == o.col))
      else r.online
    let sites := if due.any (fun c => c.reset) then r.sites.map (fun st => { st with drun := 0 }) else r.sites
    (s.setRcp p { r with first := first, online := online, sites := sites }).onlinePublish p

/-- R92 stages 1 and 2, R98, R108: line `l` enters. The black estimate its masked columns give applies from the next line. -/
def State.rcEnter (s : State) (l : CapLine) : State × RcLine :=
  let s := s.rcChange (s.rcp l.port).center l true
  let map := mapEntries (s.rdEpochBlob l.group l.epoch Obj.RC_DEFECT_MAP l.port)
  let rows := s.rcUnpack l
  let sub := s.rcSubstitute l map rows
  let s := if sub.2 = 0 then s else s.count Obj.RC_DEFECT_UNRESOLVED l.port 0 sub.2
  let s := s.blackLine l map
  let fv := s.rcFirstValid l sub.1
  (fv.1, { cap := l, rows := fv.1.rcCandidates l fv.2 })

/-! ## Completing: noise reduction, plate and flat-field (R107 to R112) -/

/-- R107: the row of a neighbouring line, where there is one. -/
def rowOf (l : Option RcLine) (r : Nat) : List Px :=
  match l with
  | none => []
  | some l => l.rows.getD r []

/-- R107: the 5 × 3 window of same-colour sites around column `c`: every position but the centre. -/
def window (a b d : List Px) (c g : Nat) : List Px :=
  ([a, b, d].zipIdx).flatMap (fun r => ([-2, -1, 0, 1, 2] : List Int).filterMap (fun j =>
    let k := (c : Int) + j * g
    if (r.2 = 1 && j = 0) || k < 0 || (r.1.length : Int) ≤ k then none else some (pxAt r.1 k)))

/-- R107: the spatial filter at a sample. -/
def State.spatial (s : State) (l : CapLine) (x : Px) (w : List Px) : Int :=
  if x.inv || x.sat || !(s.rcSetN l Obj.RC_ENABLE).testBit 2 then x.y
  else
    let s0 := s.sigma l x.y
    let t1 := s.rcSetN l Obj.RC_SNR_T1
    let t2 := s.rcSetN l Obj.RC_SNR_T2
    let nd := w.foldl (fun (a : Int × Int) v =>
      if v.inv || v.sat then a
      else
        let dv := absNat (v.y - x.y)
        let k : Int := if 4 * dv ≤ t1 * s0 then 2 else if 4 * dv ≤ t2 * s0 then 1 else 0
        (a.1 + k * v.y, a.2 + k)) (4 * x.y, 4)
    let f := (nd.1 + nd.2 / 2) / nd.2
    let band := min 7 ((max x.y 0).toNat / 2 ^ (s.rdN Obj.CAM_DEPTH l.port + 1))
    x.y + ((f - x.y) * s.rcSet l Obj.RC_SNR_CURVE band + 8) / 16

/-- R108: a sample of line n is background: valid, not SAT, and every available position of its window a candidate. -/
def isPlate (x : Px) (w : List Px) : Bool :=
  !x.inv && !x.sat && x.cand && w.all (fun v => v.inv || v.sat || v.cand)

/-- R109: a site after a background line: its estimate, its re-acquiring updates. -/
def plateUpdate (st : Site) (y : Int) (shift : Nat) (warm : Bool) : Site :=
  let reacq := if st.stale then 16 else st.reacq
  let a := if warm then 2 else if 0 < reacq then max 2 (shift - 3) else shift
  { st with p := st.p + (y * 4096 - st.p + 2 ^ (a - 1)) / 2 ^ a, age := 0, stale := false, reacq := reacq - 1 }

/-- R111: the flat-field output of a sample, and whether mode 2 clipped its estimate. -/
def flatField (mode depth target limit ref : Nat) (y p : Int) : Nat × Bool :=
  let y0 := max y 0
  let r : Int := ref * 16384
  let div := fun (pe : Int) => (min 65535 ((y0 * 4096 * target + pe / 2) / pe)).toNat
  match mode with
  | 0 => ((min 65535 ((y0 * 4096 + 2 ^ (depth + 3)) / 2 ^ (depth + 4))).toNat, false)
  | 1 => (div (max r 65536), false)
  | _ =>
    let pe := clampInt (r * (1024 - limit) / 1024) (r * (1024 + limit) / 1024) p
    (div (max pe 65536), pe != p)

/-- R104: a site of line n deviates from the exact mean of its two neighbours' clamped values. -/
def deviates (y a b : Int) (k sigma : Nat) : Bool := decide (k * sigma < 2 * absNat (2 * y - a - b))

/-- What completing a sample gives: its output, its site, whether it was clipped, whether its site just went stale or left
the stale state. -/
structure PxDone where
  out     : OutPx
  site    : Site
  clipped : Bool
  aged    : Bool
  fresh   : Bool

/-- R107 to R111: one sample of the centre line completes. -/
def State.rcPixel (s : State) (l : CapLine) (ref : List Byte) (idx : Nat) (x : Px) (w : List Px) (st : Site) : PxDone :=
  let depth := s.rdN Obj.CAM_DEPTH l.port
  let ys := s.spatial l x w
  let plate := isPlate x w
  let st' :=
    if plate then plateUpdate st ys (s.rcSetN l Obj.RC_TNR_SHIFT) (s.warm l)
    else if x.inv then st
    else { st with age := min (st.age + 1) 65535 }
  let aged := !x.inv && !plate && !st.stale && decide (s.rcSetN l Obj.RC_PLATE_STALE_LINES ≤ st'.age)
  let st' := if aged then { st' with stale := true } else st'
  let y := if plate && (s.rcSetN l Obj.RC_ENABLE).testBit 3 then (st'.p + 2048) / 4096 else ys
  let ff := flatField (s.rcSetN l Obj.RC_FF_MODE) depth (s.rcSetN l Obj.RC_FF_TARGET)
    (s.rcSetN l Obj.RC_FF_DRIFT_LIMIT) (leAt ref (2 * idx) 2) y st'.p
  let nr := (min 65535 (max 0 (y + 2) / 4)).toNat
  { out := { raw := x.raw, nr := nr, v := if x.inv then 0 else if x.sat then 65535 else ff.1, inv := x.inv, sat := x.sat,
             plate := plate, subst := x.subst },
    site := st', clipped := !x.inv && !x.sat && ff.2, aged := aged, fresh := plate && st.stale }

/-- R104, R105: the run counter of a site after an observation, and whether it has reached its limit. -/
def onlineRun (st : Site) (hit : Bool) (limit : Nat) : Site × Bool :=
  let n := if hit then min (st.drun + 1) limit else 0
  ({ st with drun := n }, decide (limit ≤ n))

/-- R105: a site is in the online list: it has entered and not left. -/
def inOnline (online : List OnlineSite) (row col : Nat) : Bool :=
  online.any (fun o => o.row == row && o.col == col && o.stop.isNone)

/-- R105: the live entries of the online list. -/
def onlineCount (online : List OnlineSite) : Nat := (online.filter (fun o => o.stop.isNone)).length

/-- R104, R105: online detection on the completed line: which sites were observed, and what their runs became. The flags
say: an unlisted site stands at its limit now, a listed one leaves. -/
def State.rcObserve (s : State) (l : CapLine) (map : List Nat) (rows : List (List Px)) (outs : List (List OutPx))
    (sites : List Site) : List (Site × Bool × Bool) :=
  let g := colourStep (s.rdN Obj.CAM_LAYOUT l.port)
  let cw := s.camC l.port
  let k := s.rcSetN l Obj.RC_DEFECT_K
  let limit := s.rcSetN l Obj.RC_DEFECT_LINES
  let online := (s.rcp l.port).online
  ((rows.zip outs).zipIdx).flatMap (fun r =>
    (r.1.1.zipIdx).map (fun x =>
      let st := siteAt sites cw r.2 x.2
      let o := r.1.2
      let sees := !x.1.inv && decide (g ≤ x.2) && decide (x.2 + g < r.1.1.length) && (o.getD (x.2 - g) {}).plate &&
        (o.getD (x.2 + g) {}).plate && !map.any (fun e => entryRow e == r.2 && entryCol e == x.2)
      if !sees then (st, false, false)
      else
        let dev := deviates x.1.yc (pxAt r.1.1 ((x.2 - g : Nat) : Int)).yc (pxAt r.1.1 ((x.2 + g : Nat) : Int)).yc k (s.sigma l x.1.p)
        let listed := inOnline online r.2 x.2
        let q := onlineRun st (if listed then !dev else dev) limit
        if listed && q.2 then ({ q.1 with drun := 0 }, false, true) else (q.1, q.2 && !listed, false)))

/-- R104, R105: sites at their limit that the line's map does not list enter the list in ascending order while it has room; a
change made at line n applies from line n + 2. A site observed at its limit that finds no room counts in
`RC_DEFECT_LIST_FULL`. -/
def State.onlineAdmit (s : State) (l : CapLine) (map : List Nat) (obs : List (Site × Bool × Bool)) : State :=
  let p := l.port
  let cw := max 1 (s.camC p)
  let limit := s.rcSetN l Obj.RC_DEFECT_LINES
  let r := s.rcp p
  let online := r.online.map (fun o =>
    if o.stop.isNone && (obs.getD (o.row * cw + o.col) ({}, false, false)).2.2 then { o with stop := some (l.line + 2) } else o)
  let s := s.setRcp p { r with online := online.filter (fun o =>
    match o.stop with | none => true | some x => decide (l.line < x)), sites := obs.map (fun o => o.1) }
  ((List.range obs.length).filter (fun i =>
      let st := (obs.getD i ({}, false, false)).1
      decide (limit ≤ st.drun) && !inOnline online (i / cw) (i % cw) &&
        !map.any (fun e => entryRow e == i / cw && entryCol e == i % cw))).foldl (fun s i =>
    let r := s.rcp p
    if onlineCount r.online < 64 then
      let e : OnlineSite := { row := i / cw, col := i % cw, start := l.line + 2 }
      let s := s.setRcp p { r with online := r.online ++ [e],
                                   sites := setAt r.sites {} i { r.sites.getD i {} with drun := 0 } }
      s.raise .ONLINE_DEFECT (Obj.RC_DEFECT_ONLINE.ident p)
    else if (obs.getD i ({}, false, false)).2.1 then s.count Obj.RC_DEFECT_LIST_FULL p 0 1
    else s) s

/-- R112: the clipped sites of a line, and the drift they show. A line outside mode 2 leaves the clearing run as it is (log
entry 218), and `RC_FF_CLIPPED_SITES` as well (log entry 257). -/
def State.rcDrift (s : State) (l : CapLine) (clipped : Nat) : State :=
  let p := l.port
  if s.rcSetN l Obj.RC_FF_MODE ≠ 2 then s
  else
    let s := s.putN Obj.RC_FF_CLIPPED_SITES p 0 clipped
    let s := if clipped = 0 then s else s.count Obj.RC_FF_CLIPPED_LINES p 0 1
    let drifting := decide (s.rcSetN l Obj.RC_FF_ALARM_FRACTION * s.rdN Obj.CAM_WIDTH p < clipped * 256)
    let on := s.bit Obj.RC_STATUS p 0 rsDrift
    let r := s.rcp p
    if drifting then
      let s := s.setRcp p { r with driftRun := 0 }
      if on then s else (s.rcBit p rsDrift true).raise .PLATE_DRIFT (Obj.RC_STATUS.ident p)
    else if on then
      let s := s.setRcp p { r with driftRun := r.driftRun + 1 }
      if r.driftRun + 1 = 256 then (s.rcBit p rsDrift false).setRcp p { s.rcp p with driftRun := 0 } else s
    else s

/-- R109: the stale sites after a line: their number, the count of those that went stale, PLATE_STALE on the first. -/
def State.rcStale (s : State) (l : CapLine) (aged fresh : Nat) : State :=
  let p := l.port
  let n := s.rdN Obj.RC_PLATE_STALE_COUNT p
  let s := s.putN Obj.RC_PLATE_STALE_COUNT p 0 (n + aged - fresh)
  let s := if aged = 0 then s else s.count Obj.RC_PLATE_STALE p 0 aged
  let s := s.rcBit p rsStale (n + aged - fresh != 0)
  if n = 0 && aged ≠ 0 then s.raise .PLATE_STALE (Obj.RC_PLATE_STALE_COUNT.ident p) else s

/-- R118: the mean plate estimate of each plane, 1/16 LSB, over all its sites, rounded down (log entry 256). -/
def State.rcPlateMean (s : State) (p : Nat) : State :=
  let layout := s.rdN Obj.CAM_LAYOUT p
  let cw := max 1 (s.camC p)
  let sites := (s.rcp p).sites
  (List.range (layoutPlanes layout)).foldl (fun s k =>
    let mine := (sites.zipIdx).filterMap (fun x =>
      if planeOf layout (x.2 / cw) (x.2 % cw) = k then some x.1.p else none)
    if mine.isEmpty then s
    else s.put Obj.RC_PLATE_MEAN p k (clampInt 0 4294967295 (sumInt mine / ((mine.length : Int) * 4096)))) s

/-- R191: while a target calibration runs, the flat-field values of plane R, or of the single plane, of a line join the sums of
their columns, until `ST_CAL_LINES` lines are averaged. An invalid value joins none (log entry 225). -/
def State.calLine (s : State) (p : Nat) (outs : List (List OutPx)) : State :=
  let n := look s.st.calLines 0 p
  if s.rdN Obj.ST_CAL_STATE ≠ 1 || decide (s.rdN Obj.ST_CAL_LINES ≤ n) then s
  else
    let layout := s.rdN Obj.CAM_LAYOUT p
    let old := look s.st.calSums [] p
    let sums := (List.range (s.camC p)).map (fun c => (outs.zipIdx).foldl (fun a r =>
      let x := r.1.getD c {}
      if x.inv || planeOf layout r.2 c != 0 then a else (a.1 + x.v, a.2 + 1)) (old.getD c (0, 0)))
    { s with st := { s.st with calSums := store s.st.calSums [] p sums, calLines := store s.st.calLines 0 p (n + 1) } }

/-- R107 to R112: the centre line completes with its neighbours: it leaves raw correction. -/
def State.rcComplete (s : State) (before : Option RcLine) (x : RcLine) (after : Option RcLine) : State :=
  let l := x.cap
  let p := l.port
  let s := s.rcChange before l false
  let map := mapEntries (s.rdEpochBlob l.group l.epoch Obj.RC_DEFECT_MAP p)
  let ref := s.rdEpochBlob l.group l.epoch Obj.RC_FF_PLATE_REF p
  let g := colourStep (s.rdN Obj.CAM_LAYOUT p)
  let cw := s.camC p
  let sites := (s.rcp p).sites
  let done := (x.rows.zipIdx).map (fun r =>
    let up := rowOf before r.2
    let dn := rowOf after r.2
    (r.1.zipIdx).map (fun v =>
      s.rcPixel l ref (r.2 * cw + v.2) v.1 (window up r.1 dn v.2 g) (siteAt sites cw r.2 v.2)))
  let outs := done.map (fun r => r.map (fun d => d.out))
  let flat := done.flatten
  let s := s.setRcp p { s.rcp p with sites := flat.map (fun d => d.site), out := (s.rcp p).out ++ [{ cap := l, rows := outs }] }
  let s :=
    if s.rcSet l Obj.RC_DEFECT_ONLINE_ENABLE = 0 then s
    else (s.onlineAdmit l map (s.rcObserve l map x.rows outs (s.rcp p).sites)).onlinePublish p
  let s := s.rcDrift l ((flat.filter (fun d => d.clipped)).length)
  let s := s.rcStale l ((flat.filter (fun d => d.aged)).length) ((flat.filter (fun d => d.fresh)).length)
  let s := (s.rcPlateMean p).calLine p outs
  if s.bit Obj.RC_STATUS p 0 rsWarmup && decide ((s.rcp p).warmFrom + s.rdN Obj.RC_PLATE_WARMUP p ≤ l.line) then
    (s.rcBit p rsReady true).rcBit p rsWarmup false
  else s

/-! ## Snapshots (R115) -/

/-- R115: the snapshot of line m, taken when line m + 1, `next`, has entered and line m has left. -/
def State.rcSnapshot (s : State) (m : Nat) (next : CapLine) : State :=
  let p := next.port
  let r := s.rcp p
  let snap : RcSnapshot := {
    line := m, epoch := next.epoch, width := s.rdN Obj.CAM_WIDTH p, layout := s.rdN Obj.CAM_LAYOUT p,
    depth := s.rdN Obj.CAM_DEPTH p, status := s.rdN Obj.RC_STATUS p, black := (List.range 4).map (fun k => (k, s.blackOf next k)), first := r.first,
    discard := r.discard, okRun := r.okRun, driftRun := r.driftRun, online := r.online, sites := r.sites,
    before := r.before, center := r.center }
  let slot := (m / s.rdN Obj.RC_SNAPSHOT_LINES p) % 2
  let s := s.setRcp p { r with snaps := store r.snaps none slot (some snap) }
  (s.putN Obj.RC_SNAPSHOT_LAST p 0 m).rcBit p rsSnapshot true

/-- R92, R113, R115: line `l` enters and the line before it completes; at a multiple of `RC_SNAPSHOT_LINES` its snapshot is
written. -/
def State.rcLine (s : State) (l : CapLine) : State :=
  let p := l.port
  let e := s.rcEnter l
  let s := e.1
  let r := s.rcp p
  match r.center with
  | none => s.setRcp p { r with before := none, center := some e.2 }
  | some x =>
    let s := s.rcComplete r.before x (some e.2)
    let s := s.setRcp p { s.rcp p with before := some x, center := some e.2 }
    if x.cap.line % s.rdN Obj.RC_SNAPSHOT_LINES p = 0 then s.rcSnapshot x.cap.line l else s

/-- R113: lines have stopped: the last line completes with an all-invalid line as its lookahead. -/
def State.rcFlush (s : State) (p : Nat) : State :=
  let r := s.rcp p
  match r.center with
  | none => s
  | some x =>
    let s := s.rcComplete r.before x none
    s.setRcp p { s.rcp p with before := none, center := none }

/-- R115, R118, R119: the snapshot in slot `i` of port `p` is not valid any more. -/
def State.snapshotDrop (s : State) (p i : Nat) : State :=
  let s := s.setRcp p { s.rcp p with snaps := store (s.rcp p).snaps none i none }
  let other := look (s.rcp p).snaps none (1 - i)
  (s.putN Obj.RC_SNAPSHOT_LAST p 0 (other.elim 0 (fun x => x.line))).rcBit p rsSnapshot other.isSome

/-- R110: the newest valid snapshot of the port with the same width, layout and depth. -/
def State.rcSeed (s : State) (p : Nat) : Option RcSnapshot :=
  let fits := fun (x : RcSnapshot) => x.width == s.rdN Obj.CAM_WIDTH p && x.layout == s.rdN Obj.CAM_LAYOUT p &&
    x.depth == s.rdN Obj.CAM_DEPTH p
  let pick := fun i => (look (s.rcp p).snaps none i).filter fits
  match pick 0, pick 1 with
  | some a, some b => if s.rdN Obj.RC_SNAPSHOT_LAST p = b.line then some b else some a
  | some a, none => some a
  | none, b => b

/-- R98, R110: raw correction of a port starts empty after line `n` (0 at ARMED entry): its estimates from a snapshot, from the
plate reference, or from each site's first valid sample. BLACK_LOST and DRIFT stay until their runs clear them (R99, R112);
the runs start at 0 (log entry 220), and so do AGE, DRUN and the re-acquire count of a site from a snapshot, with STALE clear
(log entry 254). -/
def State.rcStart (s : State) (p n : Nat) : State :=
  let r := s.rcp p
  let planes := List.range (layoutPlanes (s.rdN Obj.CAM_LAYOUT p))
  let ref := s.nextPlateRef p
  let listed := fun (l : List OnlineSite) => (l.filter (fun o => o.stop.isNone)).map (fun o => { o with start := 1 })
  let fresh : RcPort := { r with online := listed r.online, before := none, center := none, out := [], table := true, discard := [], okRun := 0, driftRun := 0, warmFrom := n }
  let r' : RcPort :=
    match s.rcSeed p with
    | some x => { fresh with
        black := x.black, first := [],
        online := listed x.online,
        sites := x.sites.map (fun st => { st with age := 0, drun := 0, stale := false, reacq := 0 }) }
    | none => { fresh with
        black := (List.range 4).map (fun k => (k, s.next Obj.RC_BLACK_FIXED p k (s.portGroup p) * 4096)), first := planes,
        sites := if ref.isEmpty then [] else
          (List.range (ref.length / 2)).map (fun i => ({ p := (leAt ref (2 * i) 2 : Int) * 16384, known := true } : Site)) }
  let s := s.setRcp p r'
  let s := s.putN Obj.RC_PLATE_STALE_COUNT p 0 0
  let w := s.rdN Obj.RC_STATUS p
  let w := withBit (withBit (withBit w rsWarmup true) rsReady false) rsStale false
  (s.putN Obj.RC_STATUS p 0 w).onlinePublish p

/-- R98, R110: raw correction of a port at ARMED entry. -/
def State.rcArm (s : State) (p : Nat) : State := (s.setRcp p { s.rcp p with changes := [] }).rcStart p 0

/-- R99, R102, R105: an epoch of port `p` opens at line `f`: the state of the new map and of the reference is shown, a reset of
the online list reads false again, and what the line changes in raw correction waits for it. -/
def State.rcEpoch (s : State) (p f : Nat) (exposed : Bool) (newMap mapStaged : Bool) : State :=
  let map := mapEntries (s.rdBlob Obj.RC_DEFECT_MAP p)
  let reset := s.flag Obj.RC_DEFECT_ONLINE_RESET p
  let r := s.rcp p
  let c : RcChange := { line := f, exposed := exposed, newMap := newMap, reset := reset }
  let s := s.setRcp p { r with
    table := true, changes := if exposed || newMap || reset then (c :: r.changes).take 64 else r.changes }
  let s :=
    if newMap || mapStaged then
      (s.putN Obj.RC_DEFECT_MAP_ENTRIES p 0 map.length).putN Obj.RC_DEFECT_MAP_STATE p 0 (if map.isEmpty then 0 else 1)
    else s
  let s := s.rcBit p rsRefLoaded (!(s.rdBlob Obj.RC_FF_PLATE_REF p).isEmpty)
  if reset then
    let k := Obj.RC_DEFECT_ONLINE_RESET.key p 0
    { s with epochs := { s.epochs with staged := unlist s.epochs.staged k, past := unlist s.epochs.past k } }.put
      Obj.RC_DEFECT_ONLINE_RESET p 0 0
  else s

end Sys2Proof.Machine
end

