-- ==== Sys2Proof/Machine/Registration.lean ====
section
/-! DEFINITION. Registration, demosaic and projection: tracks on the leading row, the displacement they measure, the hold, the
speed, and the registered line (spec/05_registration_and_demosaic.md, R120 to R151). -/

namespace Sys2Proof.Machine

open Sys2Proof

/-- The registration of port `p`. -/
def State.rgp (s : State) (p : Nat) : RgPort := look s.rg {} p

/-- The registration of port `p` becomes `v`. -/
def State.setRg (s : State) (p : Nat) (v : RgPort) : State := { s with rg := store s.rg {} p v }

/-- R151: bits of `RG_STATUS`. -/
def rgMeasuring : Nat := 0
/-- R151. -/
def rgSurface : Nat := 1
/-- R151. -/
def rgCapped : Nat := 2
/-- R151. -/
def rgTracksFull : Nat := 3
/-- R151. -/
def rgMismatch : Nat := 4

/-! ## Rows and the nominal displacement (R120 to R123, R127) -/

/-- R120: N_S of port `p`. -/
def State.rgShift (s : State) (p : Nat) : Nat := nominalShift (s.rdN Obj.CAM_LAYOUT p) (s.rdN Obj.CAM_ROW_SPACING p)

/-- R120: the delivered row that leads. -/
def leadRow (layout lead : Nat) : Nat := if lead = 0 then 0 else layoutRows layout - 1

/-- R120: the delivered row that trails. -/
def trailRow (layout lead : Nat) : Nat := if lead = 0 then layoutRows layout - 1 else 0

/-- R122: the relation between pitch, nominal speed, period (in 2⁻³² ns) and N_S, multiplied out. -/
def nominalFits (pitch speed period ns : Nat) : Bool :=
  decide (absNat ((16 * pitch * 100000 * 2 ^ 32 : Nat) - (16 * ns * speed * period : Nat) : Int) ≤ 8 * speed * period)

/-- R122, R123: the relation applies to a port: QUAD or TRI, free fall, fixed-rate triggers. -/
def State.rgRelation (s : State) (p : Nat) : Bool := s.rdN Obj.CAM_LAYOUT p != 0 && !s.surface && s.rdN Obj.TG_SOURCE 0 p == 0

/-- R123: displacement is measured on port `p`: QUAD or TRI in free fall. -/
def State.rgMeasures (s : State) (p : Nat) : Bool := s.rdN Obj.CAM_LAYOUT p != 0 && !s.surface

/-- R127, R145: a setting of block `p` as the epoch `ep` of its group has it. -/
def State.rgSet (s : State) (p ep : Nat) (o : ObjRow) : Nat := s.rdEpochN (s.portGroup p) ep o p

/-- R127: Lmin for lines of epoch `ep`. -/
def State.rgLmin (s : State) (p ep : Nat) : Nat := lagMin (s.rgShift p) (s.rgSet p ep Obj.RG_LAG_RANGE)

/-- R127: Lmax for lines of epoch `ep`. -/
def State.rgLmax (s : State) (p ep : Nat) : Nat := lagMax (s.rgShift p) (s.rgSet p ep Obj.RG_LAG_RANGE)

/-! ## Trigger times -/

/-- R207: under which number the lines of port `p` are marked: its group's; the tags of a lent port's lines under its own. -/
def markGroup (p g : Nat) : Nat := if p < 12 then g else p

/-- R24: the mark of line `n` of group `g`, while the machine keeps it. -/
def State.markOf (s : State) (g n : Nat) : Option TrigMark := (s.tg g).marks.find? (fun m => m.line == n)

/-- R24: the trigger time of line `n` of group `g`. -/
def State.trigTime (s : State) (g n : Nat) : Option Nat := (s.markOf g n).map (fun m => m.time)

/-! ## Fallback results (R135, R137, R225) -/

/-- The verdict and ephemeris of group `g`. -/
def State.vdg (s : State) (g : Nat) : VdGroup := look s.vd {} g

/-- The verdict and ephemeris of group `g` becomes `v`. -/
def State.setVdg (s : State) (g : Nat) (v : VdGroup) : State := { s with vd := store s.vd {} g v }

/-- R238: the positions of epoch `ep` of group `g`, or the oldest held; true when the epoch has left the ring. -/
def State.epPositions (s : State) (g ep : Nat) : EpPos × Bool :=
  let l := (s.vdg g).positions
  match l.find? (fun x => x.epoch == ep) with
  | some x => (x, false)
  | none => (l.getLastD { epoch := ep, scan := 0, rows := [] }, true)

/-- R225: the scan-line speed from the launch encoder at a line's trigger, 0.1 mm/s; 0 when no encoder speed exists. -/
def State.launchSpeed (s : State) (g ep : Nat) (mark : Option TrigMark) : Nat :=
  let qe := s.rdN Obj.EP_LAUNCH_QE 0 g
  match mark with
  | none => 0
  | some m =>
    let v := absNat (m.speeds.getD (qe - 1) 0)
    if qe = 0 || v = 0 then 0
    else
      let vl := (rnd (v * s.rdN Obj.EP_LAUNCH_NM_PER_COUNT 0 g : Nat) 16000).toNat
      let fs := ((s.epPositions g ep).1.scan).toNat
      let disc := (vl * vl + 2000 * s.rdEpochN g ep Obj.EP_LAUNCH_ACCEL 0 g * fs) * 256
      (rnd (isqrt disc : Nat) 1600).toNat

/-- R136: SPEED saturates. -/
def speedField (v : Nat) : Nat := min v 4294967295

/-- R135: Tw of a fallback result: from the lines ahead where they are triggered, else from the lines behind, else from the
minimum period of the port. -/
def State.fallbackTime (s : State) (p g f nw : Nat) : Nat :=
  let g := markGroup p g
  match s.trigTime g f, s.trigTime g (f + nw), (if nw < f then s.trigTime g (f - nw) else none) with
  | some a, some b, _ => b - a
  | some a, none, some c => a - c
  | _, _, _ => nw * s.rdN Obj.TG_MIN_PERIOD_NS 0 p

/-- R135: the fallback result of a track or object of port `p` whose first line is `f`, in epoch `ep`, with K′ = `kp`. Where
the encoder gives speed 0 or a time of 0 the division has no stated result: the displacement is a free value inside its
clamp (log entry 3). -/
def State.fallback (s : State) (p ep f kp reason : Nat) : State × TrackResult :=
  let g := s.portGroup p
  let ns := s.rgShift p
  let nominal : TrackResult :=
    { firstLine := f, d16 := 16 * ns, speed := s.rdN Obj.RG_NOMINAL_SPEED p, reason := reason, source := 2 }
  if s.rgSet p ep Obj.RG_FALLBACK ≠ 1 then (s, nominal)
  else
    let mark := s.markOf (markGroup p g) f
    let qe := s.rdN Obj.EP_LAUNCH_QE 0 g
    let reads := match mark with
      | none => false
      | some m => qe != 0 && m.speeds.getD (qe - 1) 0 != 0
    let s := s.setBit Obj.EP_STATUS 0 0 3 (!reads)
    if !reads then (s, nominal)
    else
      let v := s.launchSpeed g ep mark
      if ns = 0 then (s, { nominal with speed := speedField v, source := 1 })
      else
        let lo := 16 * s.rgLmin p ep
        let hi := 16 * s.rgLmax p ep
        let nw := kp + s.rgLmax p ep - 1
        let tw := s.fallbackTime p g f nw
        let d := if v * tw = 0 then s.free else (s.rdN Obj.RG_ROW_PITCH p * 1600000 * nw + v * tw / 2) / (v * tw)
        let s := if v * tw = 0 then s.drawn else s
        (s, { nominal with d16 := min hi (max lo d), speed := speedField v, source := 1 })

/-- R137: the reason of an object whose earliest site no track claims. -/
def State.objectReason (s : State) (p ep : Nat) : Nat :=
  if s.surface then 9 else if s.rdN Obj.CAM_LAYOUT p = 0 then 8 else if s.rgSet p ep Obj.RG_MEASURE = 0 then 10 else 7

/-- R137: the belt speed at a line's trigger, 0.1 mm/s. -/
def State.beltSpeed (s : State) (p : Nat) (mark : Option TrigMark) : Nat :=
  match s.beltEncoder, mark with
  | some q, some m => (rnd (absNat (m.speeds.getD q 0) * s.rdN Obj.RG_BELT_NM_PER_COUNT p : Nat) 1600000).toNat
  | _, _ => 0

/-- R137: the result an object takes when no track claims its earliest site, on line `n` of epoch `ep`. -/
def State.objectResult (s : State) (p ep n : Nat) : State × TrackResult :=
  let reason := s.objectReason p ep
  if reason = 9 then
    (s, { firstLine := n, d16 := 16 * s.rgShift p, speed := speedField (s.beltSpeed p (s.markOf (markGroup p (s.portGroup p)) n)),
          reason := 9, source := 3 })
  else s.fallback p ep n (s.rgSet p ep Obj.RG_WINDOW_LINES) reason

/-! ## Measuring (R128 to R131, R134) -/

/-- R128: a run widened by a margin and clipped to the row holds column `c`. -/
def Run.covers (r : Run) (margin c : Nat) : Bool := decide (r.a ≤ c + margin) && decide (c ≤ r.b + margin)

/-- R125, R128: the runs that make the profile span of line `x`: those of the window lines, and before a merging line only
those of the lines before it. -/
def Track.span (t : Track) (kp x : Nat) : List Run :=
  let cut := (t.merges.filter (fun m => decide (x < m))).foldl (fun a m => min a m) (t.first + kp)
  t.runs.filter (fun r => decide (r.line < t.first + kp) && decide (r.line < cut))

/-- The row `row` of the line `n` that has left raw correction. -/
def State.rgRow (s : State) (p n row : Nat) : Option (List OutPx) :=
  ((s.rgp p).lines.find? (fun l => l.cap.line == n)).map (fun l => l.rows.getD row [])

/-- R128, R131: one profile value and whether an INVALID site lies in the span. -/
def State.profile (s : State) (p row margin : Nat) (span : List Run) (n : Nat) : Nat × Bool :=
  let sites := (((s.rgRow p n row).getD []).zipIdx).filter (fun x => span.any (fun r => r.covers margin x.2))
  ((sites.filter (fun x => !x.1.inv && !x.1.plate)).length, sites.any (fun x => x.1.inv))

/-- R129: SAD[L] of two profiles. -/
def sadAt (pl pt : List Nat) (l : Nat) : Nat :=
  sumNat ((pl.zipIdx).map (fun x => absNat ((x.1 : Int) - (pt.getD (x.2 + l) 0 : Nat))))

/-- R129: the lowest lag with the smallest sum, from a list that starts at lag `l`. -/
def bestLag (l : Nat) (sads : List Nat) : Nat :=
  match sads.zipIdx with
  | [] => l
  | x :: r => l + (r.foldl (fun a y => if y.1 < a.1 then y else a) x).2

/-- R129: D16, from the sums of a lag range that starts at `lmin`. -/
def lagD16 (lmin : Nat) (sads : List Nat) (ls : Nat) : Nat :=
  let at' := fun l => (sads.getD (l - lmin) 0 : Int)
  let den := at' (ls - 1) - 2 * at' ls + at' (ls + 1)
  let d := if 0 < den then clampInt (-8) 8 (rnd (8 * (at' (ls - 1) - at' (ls + 1))) den) else 0
  (16 * (ls : Int) + d).toNat

/-- R130: Q, from the sums, the chosen lag and the occupancy A. -/
def lagQ (lmin : Nat) (sads : List Nat) (ls occ : Nat) : Nat :=
  let best := sads.getD (ls - lmin) 0
  let far := ((sads.zipIdx).filter (fun x => decide (2 ≤ absNat ((x.2 + lmin : Nat) - (ls : Int))))).map (fun x => x.1)
  let second := match far with
    | [] => max (sads.getD (ls - 1 - lmin) 0) (sads.getD (ls + 1 - lmin) 0)
    | x :: r => r.foldl min x
  (clampInt 0 255 (((256 * (second - best) / occ : Nat) : Int) - ((256 * best / occ : Nat) : Int))).toNat

/-- R131: what an undecided track of port `p` gives over its first `kp` window lines. -/
def State.measure (s : State) (p : Nat) (t : Track) (kp : Nat) : State × TrackResult :=
  let layout := s.rdN Obj.CAM_LAYOUT p
  let rl := leadRow layout (s.rdN Obj.CAM_ROW_LEAD p)
  let rt := trailRow layout (s.rdN Obj.CAM_ROW_LEAD p)
  let set := s.rgSet p t.epoch
  let lmin := s.rgLmin p t.epoch
  let lmax := s.rgLmax p t.epoch
  let prof := fun row x => s.profile p row (set Obj.RG_SPAN_MARGIN) (t.span kp x) x
  let pl := (List.range kp).map (fun i => prof rl (t.first + i))
  let pt := (List.range (kp + lmax)).map (fun j => prof rt (t.first + j))
  let bad := pl.any (fun x => x.2) || (pt.zipIdx).any (fun x => decide (lmin ≤ x.2) && x.1.2)
  if bad then s.fallback p t.epoch t.first kp 5
  else if kp < set Obj.RG_WINDOW_MIN then s.fallback p t.epoch t.first kp 4
  else
    let l := pl.map (fun x => x.1)
    let tr := pt.map (fun x => x.1)
    let sads := (List.range (lmax + 1 - lmin)).map (fun i => sadAt l tr (lmin + i))
    let ls := bestLag lmin sads
    let occ := sumNat l + sumNat ((tr.drop ls).take kp)
    if occ < set Obj.RG_MIN_OCC then s.fallback p t.epoch t.first kp 2
    else if ls = lmin || ls = lmax then s.fallback p t.epoch t.first kp 3
    else
      let q := lagQ lmin sads ls occ
      if q < set Obj.RG_CONF_MIN then s.fallback p t.epoch t.first kp 1
      else
        let d := lagD16 lmin sads ls
        let nw := kp + lmax - 1
        let g := markGroup p t.group
        let tw := (s.trigTime g (t.first + nw)).getD 0 - (s.trigTime g t.first).getD 0
        let v := (s.rdN Obj.RG_ROW_PITCH p * 1600000 * nw + d * tw / 2) / (d * tw)
        (s, { firstLine := t.first, d16 := d, speed := speedField v, confidence := q, reason := 0, source := 0 })

/-- R136, R150: the last result is readable. -/
def State.publishResult (s : State) (p : Nat) (r : TrackResult) : State :=
  let s := (s.putN Obj.RG_LAST_RESULT p 0 r.firstLine).putN Obj.RG_LAST_RESULT p 1 r.d16
  let s := (s.putN Obj.RG_LAST_RESULT p 2 r.speed).putN Obj.RG_LAST_RESULT p 3 r.confidence
  (s.putN Obj.RG_LAST_RESULT p 4 r.reason).putN Obj.RG_LAST_RESULT p 5 r.source

/-! ## Tracks (R124 to R126) -/

/-- R124: the runs of a row: its maximal stretches of valid, non-PLATE sites. -/
def rowRuns (line : Nat) (row : List OutPx) : List Run :=
  (row.zipIdx).foldl (fun acc x =>
    if x.1.inv || x.1.plate then acc
    else
      match acc.getLast? with
      | some r => if r.b + 1 = x.2 then acc.dropLast ++ [{ r with b := x.2 }] else acc ++ [{ line := line, a := x.2, b := x.2 }]
      | none => [{ line := line, a := x.2, b := x.2 }]) []

/-- R126: the number of tracks of a port. -/
def State.publishTracks (s : State) (p : Nat) : State :=
  let n := (s.rgp p).tracks.length
  (s.putN Obj.RG_TRACKS_OPEN p 0 (min n 1024)).setBit Obj.RG_STATUS p 0 rgTracksFull (decide (1024 ≤ n))

/-- R124, R126, R131: a run that joins no track opens one; beyond the limit, and with `RG_MEASURE` false, it takes its result
at once. Where both hold its reason is TRACK_FULL (log entry 260), and a result taken at once leaves CAPPED as it was (log
entry 258). -/
def State.openTrack (s : State) (p : Nat) (cap : CapLine) (r : Run) : State :=
  let rg := s.rgp p
  let t : Track := { id := rg.nextId, first := cap.line, col := r.a, group := cap.group, epoch := cap.epoch, runs := [r] }
  let k := s.rgSet p cap.epoch Obj.RG_WINDOW_LINES
  let at' := fun reason =>
    let f := s.fallback p cap.epoch cap.line k reason
    (f.1.publishResult p f.2, some f.2)
  let q : State × Option TrackResult :=
    if 1024 ≤ rg.tracks.length then at' 6
    else if s.rgSet p cap.epoch Obj.RG_MEASURE = 0 then at' 10
    else (s, none)
  q.1.setRg p { rg with tracks := rg.tracks ++ [{ t with result := q.2 }], nextId := rg.nextId + 1 }

/-- R125: of two tracks, the one that survives a merge. -/
def Track.before (a b : Track) : Bool := decide (a.first < b.first) || (a.first == b.first && decide (a.col ≤ b.col))

/-- R125: track `o` ends in the survivor `v` at line `l`: decided, it keeps its claims before `l`; undecided, all its claims
pass on. The runs it has on `l` are the survivor's. -/
def mergeInto (v o : Track) (l : Nat) : Track × Option Track :=
  let here := o.runs.filter (fun r => r.line == l)
  let past := o.runs.filter (fun r => r.line != l)
  let v' := { v with runs := v.runs ++ here, merges := v.merges ++ [l] }
  match o.result with
  | some _ => (v', some { o with runs := past, last := some (l - 1), ended := true })
  | none => ({ v' with taken := v.taken ++ o.taken ++ past }, none)

/-- R124, R125: a run of line `l` joins the tracks `ids`: one survives and takes the run. -/
def joinTracks (tracks : List Track) (ids : List Nat) (r : Run) : List Track × Nat :=
  match tracks.filter (fun t => ids.contains t.id) with
  | [] => (tracks, 0)
  | x :: rest =>
    let v := rest.foldl (fun a t => if t.before a && !a.before t then t else a) x
    let others := (x :: rest).filter (fun t => t.id != v.id)
    let m := others.foldl (fun (acc : Track × List Track) o =>
      let q := mergeInto acc.1 o r.line
      (q.1, match q.2 with | some e => acc.2 ++ [e] | none => acc.2)) (v, [])
    let v' := { m.1 with runs := m.1.runs ++ [r] }
    (tracks.filterMap (fun t =>
      if t.id = v.id then some v'
      else if ids.contains t.id then m.2.find? (fun e => e.id == t.id)
      else some t), v.id)

/-- R124 to R126: the runs of leading-row line `cap.line` join, merge and open tracks; a track with no run on it closes. -/
def State.trackLine (s : State) (p : Nat) (cap : CapLine) (row : List OutPx) : State :=
  let l := cap.line
  let prev := ((s.rgp p).tracks.filter (fun t => t.last.isNone)).flatMap (fun t =>
    (t.runs.filter (fun r => r.line + 1 == l)).map (fun r => (r, t.id)))
  let was := (s.rgp p).tracks
  let f := (rowRuns l row).foldl (fun (acc : State × List (Nat × Nat)) r =>
    let top := fun i => match acc.2.find? (fun a => a.1 == i) with | some a => a.2 | none => i
    let ids := ((prev.filter (fun q => decide (q.1.a ≤ r.b + 1) && decide (r.a ≤ q.1.b + 1))).map (fun q => top q.2)).eraseDups
    if ids.isEmpty then (acc.1.openTrack p cap r, acc.2)
    else
      let rg := acc.1.rgp p
      let j := joinTracks rg.tracks ids r
      (acc.1.setRg p { rg with tracks := j.1 },
       (acc.2.map (fun a => if ids.contains a.2 then (a.1, j.2) else a)) ++
         (ids.filter (fun i => i != j.2)).map (fun i => (i, j.2)))) (s, [])
  let s := f.1
  let rg := s.rgp p
  let close := fun (t : Track) =>
    if t.last.isNone && was.any (fun w => w.id == t.id) && !t.runs.any (fun r => r.line == l) then { t with last := some (l - 1) }
    else t
  (s.setRg p { rg with tracks := rg.tracks.map close }).publishTracks p

/-! ## The hold (R132, R147) -/

/-- R132, R147: the line a track's decision stands on, once line `m` has left raw correction, and whether it stands under the
cap rule; at the exit (`final`) a window is decided on the lines it has under that rule. -/
def State.decideAt (s : State) (p : Nat) (t : Track) (m : Nat) (final : Bool) : Option (Nat × Bool) :=
  let set := s.rgSet p t.epoch
  let lmax := s.rgLmax p t.epoch
  let target := t.first + set Obj.RG_WINDOW_LINES - 1 + lmax
  let t0 := s.trigTime (markGroup p t.group) (t.first + s.rgLmin p t.epoch)
  let beyond : Nat → Bool := fun n =>
    match t0, s.trigTime (markGroup p t.group) n with
    | some a, some b => decide (a + set Obj.RG_HOLD_MAX_NS < b)
    | _, _ => false
  let top := min m target
  let fit := (List.range (top + 1 - t.first)).filter (fun i => !beyond (t.first + i))
  let last := t.first + (fit.getLastD 0)
  if last < top then some (last, true)
  else if last = target then some (target, false)
  else if beyond (last + 1) then some (last, true)
  else if final then some (last, true)
  else none

/-- R132: every open window that can be decided is decided. -/
def State.decideTracks (s : State) (p m : Nat) (final : Bool) : State :=
  ((s.rgp p).tracks.filter (fun t => t.result.isNone)).foldl (fun s t =>
    match s.decideAt p t m final with
    | none => s
    | some (last, capped) =>
      let k := s.rgSet p t.epoch Obj.RG_WINDOW_LINES
      let q := s.measure p t (min k (last + 1 - (t.first + s.rgLmax p t.epoch)))
      let s := (q.1.setBit Obj.RG_STATUS p 0 rgCapped capped).publishResult p q.2
      let rg := s.rgp p
      s.setRg p { rg with tracks := rg.tracks.map (fun x => if x.id = t.id then { x with result := some q.2 } else x) }) s

/-- R121, R124, R132: a line leaves raw correction: its leading row makes tracks, its trailing row waits for release. The
history keeps 256 lines (R146 needs 97 before the oldest held line, which is at most 128 behind). -/
def State.rgEnter (s : State) (l : RegLine) : State :=
  let p := l.cap.port
  let rg := s.rgp p
  let s := s.setRg p { rg with lines := (l :: rg.lines).take 256, queue := rg.queue ++ [(s.now, l)] }
  if s.rgMeasures p then
    let row := l.rows.getD (leadRow (s.rdN Obj.CAM_LAYOUT p) (s.rdN Obj.CAM_ROW_LEAD p)) []
    (s.trackLine p l.cap row).decideTracks p l.cap.line false
  else s

/-- R146: a line before the one at which the stage starts gives its leading row to the history alone. -/
def State.rgHistory (s : State) (l : RegLine) : State :=
  let rg := s.rgp l.cap.port
  s.setRg l.cap.port { rg with lines := (l :: rg.lines).take 256 }

/-- R132: trailing-row line `n` is held by an undecided track. -/
def State.rgHeld (s : State) (p n : Nat) : Bool :=
  (s.rgp p).tracks.any (fun t => t.result.isNone && decide (t.first + s.rgLmin p t.epoch ≤ n))

/-- R147: at the exit from ARMED, RUN or HOLD every open window is decided on the lines it has, so every line is released. -/
def State.rgFlush (s : State) (p : Nat) : State :=
  match (s.rgp p).lines with
  | [] => s
  | l :: _ => s.decideTracks p l.cap.line true

/-! ## Resampling (R139, R140) -/

/-- R139: a track's result claims column `c` of registered line `n`. -/
def Track.claims (t : Track) (lmax margin n c : Nat) : Bool :=
  match t.result with
  | none => false
  | some r =>
    let l := n - (r.d16 + 8) / 16
    if n < t.first + (r.d16 + 8) / 16 then false
    else
      match t.last with
      | none => (t.runs ++ t.taken).any (fun x => x.line == l && x.covers margin c)
      | some e =>
        if l ≤ e then (t.runs ++ t.taken).any (fun x => x.line == l && x.covers margin c)
        else !t.ended && decide (l ≤ e + lmax) && (t.runs ++ t.taken).any (fun x => x.line == e && x.covers margin c)

/-- R139: the result of the track that claims column `c` of registered line `n`: the earliest first line, then the lowest
start column. A claim is bounded by the settings of the track's epoch (log entry 259). -/
def State.claimOf (s : State) (p n c : Nat) : Option TrackResult :=
  let mine := (s.rgp p).tracks.filter (fun t =>
    t.claims (s.rgLmax p t.epoch) (s.rgSet p t.epoch Obj.RG_SPAN_MARGIN) n c)
  match mine with
  | [] => none
  | x :: r => (r.foldl (fun a t => if t.before a && !a.before t then t else a) x).result

/-- R140: a sample interpolated between the nearer line `a` (n - q) and the farther line `b` (n - q - 1) by r sixteenths. -/
def resample (a b : OutPx) (r : Nat) : OutPx :=
  let one := fun (x : OutPx) => if x.inv then { x with v := 0, inv := true } else if x.sat then { x with v := 65535 } else x
  if r = 0 then one a
  else if a.inv || b.inv then one (if r ≤ 8 then a else b)
  else
    { raw := a.raw, nr := a.nr,
      v := if a.sat || b.sat then 65535 else (a.v * (16 - r) + b.v * r + 8) / 16,
      inv := false, sat := a.sat || b.sat, plate := a.plate && b.plate, subst := a.subst || b.subst }

/-- R140: the sample of delivered row `row`, column `c`, displaced by `d16` from line `n`. Lines before the first are
INVALID. -/
def State.displaced (s : State) (p row n c d16 : Nat) : OutPx :=
  let at' := fun (k : Nat) => if n < k then ({} : OutPx) else ((s.rgRow p (n - k) row).getD []).getD c {}
  resample (at' (d16 / 16)) (at' (d16 / 16 + 1)) (d16 % 16)

/-- R140: the aligned samples of a column, by delivered row, and the track that claims it. -/
def State.alignedColumn (s : State) (p : Nat) (l : RegLine) (c : Nat) : List OutPx × Option TrackResult :=
  let layout := s.rdN Obj.CAM_LAYOUT p
  let n := l.cap.line
  let lead := leadRow layout (s.rdN Obj.CAM_ROW_LEAD p)
  let trail := trailRow layout (s.rdN Obj.CAM_ROW_LEAD p)
  let claim := if s.rgMeasures p then s.claimOf p n c else none
  let d16 := match claim with | some r => r.d16 | none => 16 * s.rgShift p
  ((List.range (layoutRows layout)).map (fun row =>
    if row = trail then (l.rows.getD row []).getD c {}
    else if row = lead then s.displaced p row n c d16
    else s.displaced p row n c ((d16 + 1) / 2)), claim)

/-! ## Demosaic (R141 to R143) -/

/-- R140, R141: an aligned column: its samples by row, and the flags of its site. -/
structure AlignedSite where
  vals  : List Nat
  inv   : Bool
  sat   : Bool
  plate : Bool
  subst : Bool
deriving DecidableEq, Repr

/-- R140: the flags of a registered site from those of its rows. -/
def alignSite (rows : List OutPx) : AlignedSite :=
  { vals := rows.map (fun x => x.v), inv := rows.any (fun x => x.inv), sat := rows.any (fun x => x.sat),
    plate := rows.all (fun x => x.plate), subst := rows.any (fun x => x.subst) }

/-- R141: the value of a row at a column, where it is usable: its site is valid and not SAT. -/
def usableAt (sites : List AlignedSite) (row : Nat) (c : Int) : Option Nat :=
  if c < 0 then none
  else
    match sites[c.toNat]? with
    | some x => if x.inv || x.sat then none else some (x.vals.getD row 0)
    | none => none

/-- R141: d(x, k). -/
def gradient (sites : List AlignedSite) (row c : Nat) (k : Int) : Nat :=
  match usableAt sites row k, usableAt sites row c with
  | some a, some b => absNat ((a : Int) - b)
  | _, _ => 65535

/-- R141: the direction for a usable site: 0 two-sided, -1 or 1 one-sided. -/
def direction (sites : List AlignedSite) (balance flat c : Nat) : Int :=
  let gl := gradient sites 0 c ((c : Int) - 2) + gradient sites 1 c ((c : Int) - 2)
  let gr := gradient sites 0 c ((c : Int) + 2) + gradient sites 1 c ((c : Int) + 2)
  if 16 * absNat ((gl : Int) - gr) ≤ balance * (gl + gr) + 16 * flat then 0 else if gl ≤ gr then -1 else 1

/-- R141: the guide estimate g(side) of a row. -/
def guide (sites : List AlignedSite) (row c : Nat) (side : Int) : Nat :=
  let x := (usableAt sites row c).getD 0
  match usableAt sites row ((c : Int) + 2 * side) with
  | some y => (x + y + 1) / 2
  | none => x

/-- R141, R142: the missing plane of a row at a usable site. -/
def missingPlane (sites : List AlignedSite) (row c : Nat) (side : Int) : Nat :=
  let x := (usableAt sites row c).getD 0
  let clip := fun (v : Int) => (clampInt 0 65535 v).toNat
  let oneSided := fun (d : Int) (y : Nat) => clip ((x : Int) + y - guide sites row c d)
  let lft := usableAt sites row ((c : Int) - 1)
  let rgt := usableAt sites row ((c : Int) + 1)
  match lft, rgt with
  | some a, some b =>
    if side = 0 then
      clip ((x : Int) + ((a : Int) - guide sites row c (-1) + b - guide sites row c 1 + 1) / 2)
    else if side < 0 then oneSided (-1) a else oneSided 1 b
  | some a, none => oneSided (-1) a
  | none, some b => oneSided 1 b
  | none, none => x

/-- R141 to R143: the four planes R, G, NIR, B of column `c` of an aligned line. -/
def demosaic (layout balance flat : Nat) (sites : List AlignedSite) (c : Nat) : List Nat :=
  match sites[c]? with
  | none => [0, 0, 0, 0]
  | some x =>
    let own := fun r => x.vals.getD r 0
    if x.inv then [0, 0, 0, 0]
    else
      match layout with
      | 0 => [own 0, 0, 0, 0]
      | 1 =>
        let side := direction sites balance flat c
        let miss := fun r => if x.sat then 65535 else missingPlane sites r c side
        if c % 2 = 0 then [own 0, miss 0, own 1, miss 1] else [miss 0, own 0, miss 1, own 1]
      | _ => [own 0, own 1, 0, own 2]

/-! ## Colour matrix and projection (R144) -/

/-- R144: q_i before the clamp. -/
def colourRow (m : List Int) (offset : Int) (x : List Nat) : Int :=
  (sumInt ((m.zip x).map (fun e => e.1 * (e.2 : Int))) + 2048) / 4096 + offset

/-- R144: coordinate k before the clamp. -/
def projectRow (m : List Int) (offset : Int) (q : List Int) : Int :=
  (sumInt ((m.zip q).map (fun e => e.1 * e.2)) + offset + 2 ^ 20) / 2 ^ 21

/-- R144: the coordinates of a site and whether any value was clipped. -/
def project (cm pj : List Int) (co po : List Int) (x : List Nat) : List Nat × Bool :=
  let q := (List.range 4).map (fun i => colourRow ((cm.drop (4 * i)).take 4) (co.getD i 0) x)
  let qc := q.map (clampInt 0 65535)
  let k := (List.range 3).map (fun i => projectRow ((pj.drop (4 * i)).take 4) (po.getD i 0) qc)
  let kc := k.map (clampInt 0 127)
  (kc.map Int.toNat, q != qc || k != kc)

/-- R145: the elements of an array of the block of port `p` in the epoch of a line. -/
def State.lineArray (s : State) (l : CapLine) (o : ObjRow) (n : Nat) : List Int :=
  (List.range n).map (fun e => s.rdEpoch l.group l.epoch o l.port e)

/-- R139 to R145: the registered line, and how many of its sites were clipped. -/
def State.register (s : State) (l : RegLine) : RgLine × Nat :=
  let p := l.cap.port
  let layout := s.rdN Obj.CAM_LAYOUT p
  let cols := (List.range (s.camC p)).map (fun c => s.alignedColumn p l c)
  let sites := cols.map (fun x => alignSite x.1)
  let set := s.rgSet p l.cap.epoch
  let cm := s.lineArray l.cap Obj.CM_MATRIX 16
  let co := s.lineArray l.cap Obj.CM_OFFSET 4
  let pj := s.lineArray l.cap Obj.PJ_MATRIX 12
  let po := s.lineArray l.cap Obj.PJ_OFFSET 3
  let done := (cols.zipIdx).map (fun x =>
    let a := sites.getD x.2 { vals := [], inv := true, sat := false, plate := false, subst := false }
    let pl := demosaic layout (set Obj.DM_BALANCE) (set Obj.DM_FLAT) sites x.2
    let uvw := if a.inv then ([0, 0, 0], false) else project cm pj co po pl
    (({ r := pl.getD 0 0, g := pl.getD 1 0, nir := pl.getD 2 0, b := pl.getD 3 0,
        u := uvw.1.getD 0 0, v := uvw.1.getD 1 0, w := uvw.1.getD 2 0,
        inv := a.inv, sat := a.sat, plate := a.plate, subst := a.subst, track := x.1.2 } : RgSite), uvw.2))
  ({ cap := l.cap, sites := done.map (fun x => x.1) }, (done.filter (fun x => x.2)).length)

/-- R126, R139: the tracks whose claims the lines after registered line `n` can still meet. -/
def State.dropTracks (s : State) (p n : Nat) : State :=
  let rg := s.rgp p
  let keep := fun (t : Track) =>
    match t.result, t.last with
    | some r, some e => decide (n + 1 ≤ e + (if t.ended then 0 else s.rgLmax p t.epoch) + (r.d16 + 8) / 16)
    | _, _ => true
  (s.setRg p { rg with tracks := rg.tracks.filter keep }).publishTracks p

/-- R132, R149: the oldest waiting line of port `p` is registered, when no track holds it. -/
def State.rgRelease (s : State) (p : Nat) : State × Option RgLine :=
  match (s.rgp p).queue with
  | [] => (s, none)
  | (t, l) :: rest =>
    if s.rgHeld p l.cap.line then (s, none)
    else
      let q := s.register l
      let s := s.setRg p { s.rgp p with queue := rest }
      let s := if q.2 = 0 then s else s.count Obj.PJ_CLIPPED p 0 q.2
      let s := s.putN Obj.RG_HOLD_MAX_SEEN p 0 (min 4294967295 (max (s.rdN Obj.RG_HOLD_MAX_SEEN p) (s.now - t)))
      (s.dropTracks p l.cap.line, some q.1)

/-! ## ARMED entry and epochs (R122, R145, R147) -/

/-- R122, R127: what refuses to leave PREOP on an enabled port: its object's identity and the event. -/
def State.rgRefusals (s : State) (p : Nat) : List (Nat × Ev) :=
  let layout := s.lastN Obj.CAM_LAYOUT p
  if layout = 0 || !s.flag Obj.CAM_ENABLE p then []
  else
    let g := s.lastN Obj.PORT_GROUP 0 p
    let ns := nominalShift layout (s.lastN Obj.CAM_ROW_SPACING p)
    let range := (s.next Obj.RG_LAG_RANGE p 0 g).toNat
    let lag := if 96 < lagMax ns range || 65 < lagMax ns range + 1 - lagMin ns range then
      [(Obj.CAM_ROW_SPACING.ident p, Ev.RG_LAG_REFUSED)] else []
    let encoder := s.lastN Obj.TG_SOURCE 0 p != 0
    let surface := s.tim.surfaceSet &&
      (List.range 12).any (fun q => s.flag Obj.CAM_ENABLE q && s.lastN Obj.TG_SOURCE 0 q != 0)
    let fits := nominalFits (s.lastN Obj.RG_ROW_PITCH p) (s.lastN Obj.RG_NOMINAL_SPEED p)
      (s.next Obj.TG_PERIOD 0 p g).toNat ns
    lag ++ (if surface || encoder || fits then [] else [(Obj.RG_ROW_PITCH.ident p, Ev.RG_NOMINAL_MISMATCH)])

/-- R120, R122, R127, R151: the first line of an epoch of port `p`: the lag range, MEASURING, SURFACE and the relation. -/
def State.rgEpoch (s : State) (p ep : Nat) : State :=
  let mono := s.rdN Obj.CAM_LAYOUT p = 0
  let s := s.putN Obj.RG_LAG_MIN p 0 (if mono then 0 else s.rgLmin p ep)
  let s := s.putN Obj.RG_LAG_MAX p 0 (if mono then 0 else s.rgLmax p ep)
  let s := s.setBit Obj.RG_STATUS p 0 rgMeasuring (s.rgMeasures p && s.rgSet p ep Obj.RG_MEASURE != 0)
  let s := s.setBit Obj.RG_STATUS p 0 rgSurface s.surface
  if !s.rgRelation p then s.setBit Obj.RG_STATUS p 0 rgMismatch false
  else if nominalFits (s.rdN Obj.RG_ROW_PITCH p) (s.rdN Obj.RG_NOMINAL_SPEED p)
      (s.rdEpochN (s.portGroup p) ep Obj.TG_PERIOD 0 p) (s.rgShift p) then
    s.setBit Obj.RG_STATUS p 0 rgMismatch false
  else if s.bit Obj.RG_STATUS p 0 rgMismatch then s
  else (s.setBit Obj.RG_STATUS p 0 rgMismatch true).raise .RG_NOMINAL_MISMATCH (Obj.RG_ROW_PITCH.ident p)

/-- R146, R147, R150: registration of port `p` at ARMED entry, empty. -/
def State.rgArm (s : State) (p : Nat) : State :=
  let s := s.setRg p {}
  let s := (s.putN Obj.RG_HOLD_MAX_SEEN p 0 0).putN Obj.RG_TRACKS_OPEN p 0 0
  s.putN Obj.RG_STATUS p 0 0

end Sys2Proof.Machine
end

