-- ==== Sys2Proof/Machine/Signature.lean ====
section
/-! DEFINITION. SHA-384 (FIPS 180-4) and the verification of an ECDSA P-384 signature (FIPS 186-5), which spec/06 R159 and
spec/14 R440, R442 name and do not write out (log entry 202). -/

namespace Sys2Proof.Machine

open Sys2Proof

/-! ## SHA-384 -/

/-- FIPS 180-4: the round constants of SHA-512 from round 0 on. -/
def shaK0 : List Nat := [
  4794697086780616226, 8158064640168781261, 13096744586834688815, 16840607885511220156,
  4131703408338449720, 6480981068601479193, 10538285296894168987, 12329834152419229976,
  15566598209576043074, 1334009975649890238, 2608012711638119052, 6128411473006802146,
  8268148722764581231, 9286055187155687089, 11230858885718282805, 13951009754708518548,
  16472876342353939154, 17275323862435702243, 1135362057144423861, 2597628984639134821]

/-- FIPS 180-4: the round constants of SHA-512 from round 20 on. -/
def shaK1 : List Nat := [
  3308224258029322869, 5365058923640841347, 6679025012923562964, 8573033837759648693,
  10970295158949994411, 12119686244451234320, 12683024718118986047, 13788192230050041572,
  14330467153632333762, 15395433587784984357, 489312712824947311, 1452737877330783856,
  2861767655752347644, 3322285676063803686, 5560940570517711597, 5996557281743188959,
  7280758554555802590, 8532644243296465576, 9350256976987008742, 10552545826968843579]

/-- FIPS 180-4: the round constants of SHA-512 from round 40 on. -/
def shaK2 : List Nat := [
  11727347734174303076, 12113106623233404929, 14000437183269869457, 14369950271660146224,
  15101387698204529176, 15463397548674623760, 17586052441742319658, 1182934255886127544,
  1847814050463011016, 2177327727835720531, 2830643537854262169, 3796741975233480872,
  4115178125766777443, 5681478168544905931, 6601373596472566643, 7507060721942968483,
  8399075790359081724, 8693463985226723168, 9568029438360202098, 10144078919501101548]

/-- FIPS 180-4: the round constants of SHA-512 from round 60 on. -/
def shaK3 : List Nat := [
  10430055236837252648, 11840083180663258601, 13761210420658862357, 14299343276471374635,
  14566680578165727644, 15097957966210449927, 16922976911328602910, 17689382322260857208,
  500013540394364858, 748580250866718886, 1242879168328830382, 1977374033974150939,
  2944078676154940804, 3659926193048069267, 4368137639120453308, 4836135668995329356,
  5532061633213252278, 6448918945643986474, 6902733635092675308, 7801388544844847127]

/-- FIPS 180-4: the first hash value of SHA-384. -/
def shaInit : List Nat := [
  14680500436340154072, 7105036623409894663, 10473403895298186519, 1526699215303891257,
  7436329637833083697, 10282925794625328401, 15784041429090275239, 5167115440072839076]

/-- FIPS 180-4: the round constants. -/
def shaK : List Nat := shaK0 ++ shaK1 ++ shaK2 ++ shaK3

/-- A 64-bit word rotated right. -/
def rotr64 (x n : Nat) : Nat := (x / 2 ^ n ||| x * 2 ^ (64 - n)) % 2 ^ 64

/-- The number a list of bytes spells, most significant first. -/
def beNat (b : List Byte) : Nat := b.foldl (fun a x => a * 256 + x) 0

/-- The `n` bytes of a number, most significant first. -/
def toBe (n v : Nat) : List Byte := (List.range n).map (fun i => v / 256 ^ (n - 1 - i) % 256)

/-- FIPS 180-4: the message padded to whole blocks of 128 bytes. -/
def shaPad (m : List Byte) : List Byte :=
  m ++ [0x80] ++ List.replicate ((239 - m.length % 128) % 128) 0 ++ toBe 16 (8 * m.length)

/-- FIPS 180-4: `n` more words of the message schedule; `w` is the schedule so far, newest first. -/
def shaSchedule (n : Nat) (w : List Nat) : List Nat :=
  match n with
  | 0 => w.reverse
  | k + 1 =>
    let a := w.getD 14 0
    let b := w.getD 1 0
    let s0 := rotr64 a 1 ^^^ rotr64 a 8 ^^^ a / 2 ^ 7
    let s1 := rotr64 b 19 ^^^ rotr64 b 61 ^^^ b / 2 ^ 6
    shaSchedule k ((w.getD 15 0 + s0 + w.getD 6 0 + s1) % 2 ^ 64 :: w)

/-- FIPS 180-4: one round: the eight working variables, the round's constant and word. -/
def shaRound (v : List Nat) (kw : Nat × Nat) : List Nat :=
  match v with
  | [a, b, c, d, e, f, g, h] =>
    let t1 := h + (rotr64 e 14 ^^^ rotr64 e 18 ^^^ rotr64 e 41) + ((e &&& f) ^^^ ((2 ^ 64 - 1 - e) &&& g)) + kw.1 + kw.2
    let t2 := (rotr64 a 28 ^^^ rotr64 a 34 ^^^ rotr64 a 39) + ((a &&& b) ^^^ (a &&& c) ^^^ (b &&& c))
    [(t1 + t2) % 2 ^ 64, a, b, c, (d + t1) % 2 ^ 64, e, f, g]
  | _ => v

/-- FIPS 180-4: one block of 128 bytes is added to the hash value. -/
def shaBlock (h : List Nat) (block : List Byte) : List Nat :=
  let w := shaSchedule 64 ((List.range 16).map (fun i => beNat ((block.drop (8 * i)).take 8))).reverse
  (h.zip ((shaK.zip w).foldl shaRound h)).map (fun x => (x.1 + x.2) % 2 ^ 64)

/-- FIPS 180-4: `n` blocks are added to the hash value. -/
def shaBlocks (n : Nat) (h : List Nat) (m : List Byte) : List Nat :=
  match n with
  | 0 => h
  | k + 1 => shaBlocks k (shaBlock h (m.take 128)) (m.drop 128)

/-- R159, R440: SHA-384 of a message: 48 bytes. -/
@[irreducible] def sha384 (m : List Byte) : List Byte :=
  let p := shaPad m
  ((shaBlocks (p.length / 128) shaInit p).take 6).flatMap (toBe 8)

/-! ## The curve P-384 -/

/-- FIPS 186-5: the prime of P-384. -/
def p384P : Nat := 2 ^ 384 - 2 ^ 128 - 2 ^ 96 + 2 ^ 32 - 1
/-- FIPS 186-5: the order of the base point. -/
def p384N : Nat :=
  39402006196394479212279040100143613805079739270465446667946905279627659399113263569398956308152294913554433653942643
/-- FIPS 186-5: the coefficient b; a is -3. -/
def p384B : Nat := 0xb3312fa7e23ee7e4988e056be3f82d19181d9c6efe8141120314088f5013875ac656398d8a2ed19d2a85c8edd3ec2aef
/-- FIPS 186-5: the base point. -/
def p384G : Nat × Nat :=
  (0xaa87ca22be8b05378eb1c71ef320ad746e1d3b628ba79b9859f741e082542a385502f25dbf55296c3a545e3872760ab7,
   0x3617de4a96262c6f5d9e98bf9292dc29f8f41dbd289a147ce9da3113b5f0b8c00a60b1ce1d7e819d7a431d7c90ea0e5f)

/-- `b ^ e` modulo `m`, for an exponent of `n` bits. -/
def powMod (n b e m : Nat) : Nat :=
  match n with
  | 0 => 1 % m
  | k + 1 =>
    let h := powMod k (b * b % m) (e / 2) m
    if e % 2 = 1 then h * b % m else h

/-- The inverse modulo a prime `m`. -/
def invMod (a m : Nat) : Nat := powMod 384 (a % m) (m - 2) m

/-- The sum of two points of P-384; none is the point at infinity. -/
def p384Add (x y : Option (Nat × Nat)) : Option (Nat × Nat) :=
  match x, y with
  | none, y => y
  | x, none => x
  | some a, some b =>
    if a.1 = b.1 && (a.2 + b.2) % p384P = 0 then none
    else
      let l :=
        if a.1 = b.1 then (3 * a.1 * a.1 + p384P - 3) * invMod (2 * a.2) p384P % p384P
        else (b.2 + p384P - a.2) * invMod (b.1 + p384P - a.1) p384P % p384P
      let c := (l * l + 2 * p384P - a.1 - b.1) % p384P
      some (c, (l * (a.1 + p384P - c) + p384P - a.2) % p384P)

/-- A multiple of a point, for a factor of `n` bits. -/
def p384Mul (n k : Nat) (x : Option (Nat × Nat)) : Option (Nat × Nat) :=
  match n with
  | 0 => none
  | m + 1 =>
    let h := p384Mul m (k / 2) (p384Add x x)
    if k % 2 = 1 then p384Add h x else h

/-- FIPS 186-5: a public key is a point of the curve, in uncompressed form (R442). -/
def p384Key (k : List Byte) : Option (Nat × Nat) :=
  let x := beNat ((k.drop 1).take 48)
  let y := beNat (k.drop 49)
  if k.length = 97 && k.getD 0 0 = 4 && decide (x < p384P) && decide (y < p384P) &&
      y * y % p384P = (x * x * x + (p384P - 3) * x + p384B) % p384P then some (x, y) else none

/-- R159, R440: an ECDSA P-384 signature, r then s, each 48 bytes and big-endian, verifies over the SHA-384 digest of a
message with a public key. -/
@[irreducible] def ecdsaOk (key message signature : List Byte) : Bool :=
  let r := beNat (signature.take 48)
  let s := beNat (signature.drop 48)
  match p384Key key with
  | none => false
  | some q =>
    if signature.length ≠ 96 || r = 0 || s = 0 || decide (p384N ≤ r) || decide (p384N ≤ s) then false
    else
      let w := invMod s p384N
      let e := beNat (sha384 message)
      match p384Add (p384Mul 384 (e * w % p384N) (some p384G)) (p384Mul 384 (r * w % p384N) (some q)) with
      | none => false
      | some x => x.1 % p384N == r

end Sys2Proof.Machine
end

