-- ==== Sys2Proof/Machine/Atlas.lean ====
section
/-! DEFINITION. The colour atlas of a port: blobs and their checks, loading, swapping, retention, check bits and scrub, and the
class of a site (spec/06_atlas_and_segmentation.md, R152 to R168). -/

namespace Sys2Proof.Machine

open Sys2Proof

/-- The atlas of port `p`. -/
def State.atp (s : State) (p : Nat) : AtPort := look s.atl {} p

/-- The atlas of port `p` becomes `v`. -/
def State.setAt (s : State) (p : Nat) (v : AtPort) : State := { s with atl := store s.atl {} p v }

/-- The pipeline that serves a port: of a lent port, the one that serves no port of this unit. -/
def State.pipelineOf (s : State) (p : Nat) : Nat :=
  if p < 12 then s.rdN Obj.RV_PORT_PIPELINE 0 p
  else
    let own := (List.range 12).map (fun k => s.rdN Obj.RV_PORT_PIPELINE 0 k)
    ((List.range 13).find? (fun q => !own.contains q && (s.rdN Obj.RV_PIPE_STATE 0 q == 0 || s.rdN Obj.RV_PIPE_STATE 0 q == 5))).getD 12

/-- R207, R348: the port that pipeline `q` serves: one of this unit, or one lent by a neighbour. -/
def State.portOf (s : State) (q : Nat) : Option Nat :=
  match (List.range 12).find? (fun p => s.rdN Obj.RV_PORT_PIPELINE 0 p == q) with
  | some p => some p
  | none => [12, 13].find? (fun p => (look s.st.served none (p - 12)).isSome && s.pipelineOf p == q)

/-! ## Keys and signatures (R159, R442) -/

/-- R442: the public key of the slot that holds KEY_ID `id` with PURPOSE bit `bit`. -/
def State.keyFor (s : State) (id bit : Nat) : Option (List Byte) :=
  (List.range 8).findSome? (fun n =>
    let b := s.rdBlob Obj.SEC_KEY n
    if b.length = 100 && leAt b 0 2 == id && (b.getD 2 0).testBit bit then some (b.drop 3) else none)

/-- R159: a signed blob's signature, its last 96 bytes, verifies over what precedes it. -/
def State.blobSigned (s : State) (blob : List Byte) (keyId bit : Nat) : Bool :=
  match s.keyFor keyId bit with
  | none => false
  | some k => ecdsaOk k (blob.take (blob.length - 96)) (blob.drop (blob.length - 96))

/-- R160, R217 check 5: the key and the signing policy. -/
def State.signingOk (s : State) (sigKind keyId bit : Nat) : Bool :=
  if sigKind = 0 then !(s.rdN Obj.SEC_UNSIGNED_POLICY).testBit bit else (s.keyFor keyId bit).isSome

/-! ## The blob (R157, R158) -/

/-- R152: the number of entries. -/
def atlasEntries : Nat := 2097152

/-- R157: the fields of an atlas blob. -/
def atBodyBytes (b : List Byte) : Nat := leAt b 8 4
/-- R157. -/
def atSigKind (b : List Byte) : Nat := b.getD 7 0
/-- R157. -/
def atEncoding (b : List Byte) : Nat := b.getD 6 0
/-- R157. -/
def atClassCrc (b : List Byte) : Nat := leAt b 12 4
/-- R157. -/
def atId (b : List Byte) : Nat := leAt b 16 8
/-- R157. -/
def atProjCrc (b : List Byte) : Nat := leAt b 24 4
/-- R157. -/
def atKeyId (b : List Byte) : Nat := leAt b 28 2
/-- R157: NAME without its zero padding. -/
def blobName (b : List Byte) : List Byte := ((b.drop 32).take 16).takeWhile (fun c => c != 0)

/-- R157, R160 check 3: the header holds. -/
def atHeaderOk (b : List Byte) : Bool :=
  leAt b 0 4 == 0x534c5441 && leAt b 4 2 == 1 && decide (atEncoding b ≤ 1) && decide (atSigKind b ≤ 1) &&
    leAt b 60 4 == crc32c (b.take 60) && leAt b 30 2 == 0 && ((b.drop 48).take 12).all (fun x => x == 0)

/-- R158: the sum of the run lengths of a body of `n` runs. -/
def runsTotal (n : Nat) (body : List Byte) : Nat :=
  match n with
  | 0 => 0
  | k + 1 => leAt body 0 2 + 1 + runsTotal k (body.drop 3)

/-- R158: the class of entry `a` in a body of `n` runs. -/
def runsAt (n : Nat) (body : List Byte) (a : Nat) : Nat :=
  match n with
  | 0 => 0
  | k + 1 => if a ≤ leAt body 0 2 then body.getD 2 0 else runsAt k (body.drop 3) (a - leAt body 0 2 - 1)

/-- R160 check 8: the body holds. -/
def atBodyOk (b : List Byte) : Bool :=
  let n := atBodyBytes b
  if atEncoding b = 0 then n == atlasEntries
  else decide (n ≤ atlasEntries) && n % 3 == 0 && runsTotal (n / 3) (b.drop 64) == atlasEntries

/-- R152, R158: the class an atlas gives entry `a`. An atlas copy that was never loaded reads 0 (log entry 19). -/
def atlasClass (b : List Byte) (a : Nat) : Nat :=
  if b.isEmpty then 0
  else if atEncoding b = 0 then b.getD (64 + a) 0
  else runsAt (atBodyBytes b / 3) (b.drop 64) a

/-- R152: word `w` of a copy that holds atlas `b`: 64 bits, entry 8w in bits 7:0. A word in error is told by how many of its bits
are wrong (`AtlasUpset`, log entry 222). -/
def atlasWord (b : List Byte) (w : Nat) : Nat := leNat ((List.range 8).map (fun i => atlasClass b (8 * w + i)))

/-- R152, R155: the 8 check bits of word `w`: those of a SEC-DED code over its 64 bits, which the spec does not write out (log
entry 222). -/
def atlasCheckBits (b : List Byte) (w : Nat) : Nat := Config.atlasCheckBits (atlasWord b w) % 256

/-- R152: entry `a` as its copy holds it: byte a & 7 of word a >> 3. -/
def atlasEntry (b : List Byte) (a : Nat) : Nat := fieldOf (atlasWord b (a / 8)) (8 * (a % 8)) 8

/-- R165: the DRAM image of atlas `b` is the table itself; this is its CRC. -/
def atlasImageCrc (b : List Byte) : Nat := crc32c ((List.range atlasEntries).map (atlasClass b))

/-- R165: the image of an atlas; none where there is no atlas. -/
def atlasImage (b : List Byte) : Option AtlasImage := if b.isEmpty then none else some { blob := b, crc := atlasImageCrc b }

/-! ## The copies of a pipeline (R152, R153, R163, R165) -/

/-- The atlas SRAM of pipeline `q`. -/
def State.atPipe (s : State) (q : Nat) : AtlasPipe := look s.apipes {} q

/-- The atlas SRAM of pipeline `q` becomes `v`. -/
def State.setAtPipe (s : State) (q : Nat) (v : AtlasPipe) : State := { s with apipes := store s.apipes {} q v }

/-- R153: both copies of each pair hold the same table. -/
def AtlasPipe.hold (x : AtlasPipe) (live shadow : List Byte) (ahead : Bool) : AtlasPipe :=
  { x with l0 := live, l1 := live, s0 := shadow, s1 := shadow, ahead := ahead }

/-- R163: the pairs change places. -/
def AtlasPipe.swap (x : AtlasPipe) : AtlasPipe := x.hold x.s0 x.l0 false

/-- R163, R349: the pipelines that hold the atlas of port `p`: the one that serves it, and the spare that compares with it. -/
def State.atHolders (s : State) (p : Nat) : List Nat :=
  let q := s.pipelineOf p
  (if q < 13 then [q] else []) ++
    (match s.cont.rotation with
     | some r => if r.port = p && r.spare != q then [r.spare] else []
     | none => [])

/-- The copies of every holder of port `p`'s atlas change by `f`. -/
def State.atEach (s : State) (p : Nat) (f : AtlasPipe → AtlasPipe) : State :=
  (s.atHolders p).foldl (fun s q => s.setAtPipe q (f (s.atPipe q))) s

/-- R165: pipeline `q` loads the images of port `p`, the one of the epoch of line `x`, the first it will process, into its live
copies. -/
def State.atLoadPipe (s : State) (q p x : Nat) : State :=
  let a := s.atp p
  let blob := fun (i : Option AtlasImage) => (i.map (fun y => y.blob)).getD []
  let ahead := decide (x < a.swapLine)
  if 13 ≤ q then s
  else s.setAtPipe q { (s.atPipe q).hold (blob (if ahead then a.other else a.image))
    (blob (if ahead then a.image else a.other)) ahead with reloading := false }

/-- R165: the live image of port `p` is not there to be loaded. -/
def State.imageMissing (s : State) (p : Nat) : Bool := (s.atp p).image.isNone && !(s.rdBlob Obj.AT_BLOB p).isEmpty

/-- R406: the atlas images of DRAM are undefined. -/
def State.imagesLost (s : State) : State :=
  (List.range 12).foldl (fun s p => s.setAt p { s.atp p with image := none, other := none }) s

/-- R406: the atlas images of every port are built again from the copies of the pipeline that serves it. -/
def State.imagesRebuilt (s : State) : State :=
  (List.range 12).foldl (fun s p =>
    let q := s.pipelineOf p
    let x := s.atPipe q
    if 13 ≤ q then s
    else s.setAt p { s.atp p with
      image := atlasImage (if x.ahead then x.s0 else x.l0), other := atlasImage (if x.ahead then x.l0 else x.s0) }) s

/-! ## State and status (R184, R185) -/

/-- R164: the previous atlas of port `p` is still held. -/
def State.atHeld (s : State) (p : Nat) : Bool :=
  match (s.atp p).holdLine with
  | some l => decide (s.presentLine (s.portGroup p) < l)
  | none => false

/-- R161: a staged atlas waits for its epoch. -/
def State.atStaged (s : State) (p : Nat) : Option (List Byte) := find? s.epochs.stagedBlobs (Obj.AT_BLOB.key p 0)

/-- R184, R185: what the status objects of the atlas of port `p` read. -/
def State.atPublish (s : State) (p : Nat) : State :=
  let a := s.atp p
  let live := s.rdBlob Obj.AT_BLOB p
  let st := s.atStaged p
  let code := if a.loading.isSome then 1 else if st.isSome then 2 else if a.holdLine.isSome then 4
    else if live.isEmpty then 0 else 3
  let s := (s.putN Obj.AT_STATE p 0 code).putN Obj.AT_STAGED_ID p 0 (match st with | some b => atId b | none => 0)
  let s := (s.putN Obj.AT_LIVE_ID p 0 (atId live)).putBlob Obj.AT_LIVE_NAME p 0 (blobName live)
  let s := s.putN Obj.AT_BUSY_UNTIL p 0 (a.holdLine.getD 0)
  let w := s.rdN Obj.AT_STATUS p
  let w := withBit (withBit w 1 (!live.isEmpty)) 2 a.loading.isSome
  s.putN Obj.AT_STATUS p 0 (withBit (withBit w 3 st.isSome) 5 a.holdLine.isSome)

/-- R160: a blob is refused. -/
def State.atRefuse (s : State) (p code : Nat) : State :=
  let s := (s.putN Obj.AT_REFUSE_CODE p 0 code).setBit Obj.AT_STATUS p 0 4 true
  let s := s.raise .ATLAS_REFUSED (Obj.AT_REFUSE_CODE.ident p)
  if code = 6 then s.raise .ATLAS_BUSY (Obj.AT_BUSY_UNTIL.ident p) else s

/-! ## Loading (R160 to R162) -/

/-- R160: checks 2 to 6, made when a blob arrives; 0 when they pass. -/
def State.atCheck (s : State) (p : Nat) (b : List Byte) : Nat :=
  if b.length < 64 then 2
  else if !atHeaderOk b then 1
  else if b.length ≠ 64 + atBodyBytes b + (if atSigKind b = 0 then 0 else 96) then 2
  else if !s.signingOk (atSigKind b) (atKeyId b) 0 then 5
  else if s.atHeld p then 6
  else 0

/-- R160, R161: a blob arrives, from scratch or by a write: it is refused, or it cancels a running load and its own starts. -/
def State.atArrive (s : State) (path : Path) (p k : Nat) (b : List Byte) (scratch : Bool) : State :=
  match s.atCheck p b with
  | 0 =>
    let s := if (s.atp p).loading.isSome then s.atRefuse p 7 else s
    let s := (s.setAt p { s.atp p with loading := some b, fromScratch := scratch }).setBit Obj.AT_STATUS p 0 4 false
    (s.atPublish p).answer path k 0
  | c => ((s.atRefuse p c).atPublish p).answer path k (if c = 6 then 8 else 5)

/-- R160, R161: a write of `AT_BLOB`. -/
def execAtBlobWrite (t : Nat) (path : Path) (p : Fin 12) (blob : List Byte) (s : State) : Result :=
  let s := (s.at t).touch path
  match s.checkAccess path Obj.AT_BLOB p 0 blob.length with
  | 0 => .next (s.atArrive path p (Obj.AT_BLOB.key p 0) blob false)
  | r => .next (s.answer path (Obj.AT_BLOB.key p 0) r)

/-- R376: the base of scratch. -/
def State.scratchBase (s : State) : Nat := s.rdN Obj.CX_HDM_SIZE - s.rdN Obj.CX_SCRATCH_BYTES

/-- R376: `n` bytes from address `a` on lie wholly inside scratch. -/
def State.inScratch (s : State) (a n : Nat) : Bool :=
  decide (s.scratchBase ≤ a) && decide (a + n ≤ s.rdN Obj.CX_HDM_SIZE)

/-- R161, R162: `AT_LOAD_CMD` = 1. The bytes are those scratch holds when the command arrives (log entry 20). -/
def execAtLoad (t : Nat) (path : Path) (p : Fin 12) (s : State) : Result :=
  let s := (s.at t).touch path
  let k := Obj.AT_LOAD_CMD.key p 0
  match s.checkAccess path Obj.AT_LOAD_CMD p 0 1 with
  | 0 =>
    let a := s.rdN Obj.AT_LOAD_ADDR p
    let n := s.rdN Obj.AT_LOAD_BYTES p
    if !s.inScratch a n then .next (((s.atRefuse p 8).atPublish p).answer path k 5)
    else .next (s.atArrive path p k (s.memBytes a n) true)
  | r => .next (s.answer path k r)

/-- R161: `AT_LOAD_CMD` = 2 cancels a running load with code 7. -/
def execAtLoadCancel (t : Nat) (path : Path) (p : Fin 12) (s : State) : Result :=
  let s := (s.at t).touch path
  let k := Obj.AT_LOAD_CMD.key p 0
  match s.checkAccess path Obj.AT_LOAD_CMD p 0 1 with
  | 0 =>
    if (s.atp p).loading.isSome then
      .next ((((s.setAt p { s.atp p with loading := none }).atRefuse p 7).atPublish p).answer path k 0)
    else .next (s.answer path k 0)
  | r => .next (s.answer path k r)

/-- R160, R161: a load ends: its signature and body hold and the atlas is staged, which counts as its write (R34), or it is
refused. -/
def execAtLoadDone (t : Nat) (p : Fin 12) (s : State) : Result :=
  let s := s.at t
  match (s.atp p).loading with
  | none => .next s
  | some b =>
    let s := s.setAt p { s.atp p with loading := none }
    if atSigKind b = 1 && !s.blobSigned b (atKeyId b) 0 then .next ((s.atRefuse p 4).atPublish p)
    else if !atBodyOk b then .next ((s.atRefuse p 3).atPublish p)
    else
      let s := s.setAt p { s.atp p with other := atlasImage b }
      let s := s.atEach p (fun x => { x with s0 := b, s1 := b })
      .next ((s.stageEpochBlob Obj.AT_BLOB p 0 b).atPublish p)

/-! ## Swap, retention and the checks of an epoch (R163, R164, R167) -/

/-- R168: the live class table of group `g` as 256 entries. -/
def State.classTable (s : State) (g ep : Nat) : List Nat := (List.range 256).map (fun e => s.rdEpochN g ep Obj.CLASS_TABLE g e)

/-- R168: the CRC of a class table. -/
def classTableCrc (l : List Nat) : Nat := crc32c (l.flatMap (fun e => toLe 4 e))

/-- R167: the CRC of the live projection settings of port `p`. -/
def State.projCrc (s : State) (p : Nat) : Nat :=
  let arr := fun (o : ObjRow) (n w : Nat) => (s.rdList o p n).flatMap (fun v => toLe w (unsignedOf w v))
  crc32c (arr Obj.CM_MATRIX 16 2 ++ arr Obj.CM_OFFSET 4 4 ++ arr Obj.PJ_MATRIX 12 2 ++ arr Obj.PJ_OFFSET 3 4)

/-- R163, R164: the staged atlas has become live at line `f`, taking the place of `prev`, be they equal or not. -/
def State.atSwap (s : State) (p f : Nat) (prev : List Byte) : State :=
  let hold := if prev.isEmpty || f = 1 then none else some (f + s.rdN Obj.CAM_REPLAY_SLOTS p)
  let live := s.rdBlob Obj.AT_BLOB p
  let s := s.setAt p { s.atp p with image := atlasImage live, other := atlasImage prev, swapLine := f, holdLine := hold }
  let s := s.atEach p (fun x => x.hold live prev false)
  ((s.putN Obj.AT_SWAP_LINE p 0 f).setBit Obj.AT_STATUS p 0 9 false).atPublish p

/-- R156: staged atlases whose shadows are being reloaded do not take effect at this boundary: their keys, and the swap is
deferred. -/
def State.atDefer (s : State) (ports : List Nat) : State × List (Nat × List Byte) :=
  ports.foldl (fun acc p =>
    match acc.1.atStaged p with
    | none => acc
    | some b =>
      if !(acc.1.atPipe (acc.1.pipelineOf p)).reloading then acc
      else
        let k := Obj.AT_BLOB.key p 0
        let s := { acc.1 with epochs := { acc.1.epochs with stagedBlobs := unlist acc.1.epochs.stagedBlobs k } }
        ((s.setBit Obj.AT_STATUS p 0 9 true).raise .ATLAS_SWAP_DEFERRED (Obj.AT_BLOB.ident p), acc.2 ++ [(k, b)])) (s, [])

/-- R156: the deferred atlases stay staged. -/
def State.atRestage (s : State) (l : List (Nat × List Byte)) : State :=
  l.foldl (fun s x => { s with epochs := { s.epochs with stagedBlobs := enlist s.epochs.stagedBlobs x.1 x.2 } }) s

/-- R167: the checks of a new epoch of port `p`. -/
def State.atChecks (s : State) (p tableCrc : Nat) : State :=
  let live := s.rdBlob Obj.AT_BLOB p
  let bad := !live.isEmpty && atClassCrc live != 0 && atClassCrc live != tableCrc
  let s := s.setBit Obj.AT_STATUS p 0 7 bad
  let s := if bad then s.raise .ATLAS_CLASS_MISMATCH (Obj.AT_STATUS.ident p) else s
  let off := !live.isEmpty && atProjCrc live != 0 && atProjCrc live != s.projCrc p
  let s := s.setBit Obj.AT_STATUS p 0 8 off
  if off then s.raise .ATLAS_PROJ_MISMATCH (Obj.AT_STATUS.ident p) else s

/-- R156, R166: pipeline `q` has left reset or gating: all four copies hold the images of the port it serves, and a new scrub
pass starts. -/
def State.atReload (s : State) (q : Nat) : State :=
  let s := match s.portOf q with
    | some p => if s.imageMissing p then s else s.atLoadPipe q p (s.atp p).swapLine
    | none => s
  s.setAtPipe q { s.atPipe q with scrubFrom := s.now }

/-- R164: the hold of port `p` ends. -/
def State.atRelease (s : State) (p : Nat) : State := (s.setAt p { s.atp p with holdLine := none }).atPublish p

/-- R164: line F + N is reached. -/
def execAtlasHoldEnd (t : Nat) (p : Fin 12) (s : State) : Result :=
  let s := s.at t
  match (s.atp p).holdLine with
  | none => .next s
  | some _ => .next (if s.atHeld p then s else s.atRelease p)

/-! ## Check bits and scrub (R155, R156) -/

/-- R153, R155: how many of the lookups of a word, in the clocks `cs` (ascending), find its error: those before the word is
written back, `gap` clocks after the first. -/
def findsError (cs : List Nat) (gap : Nat) : Nat := (cs.filter (fun c => decide (c ≤ cs.headD 0 + gap))).length

/-- R155: one word of a live pair found in error, with the clocks of its lookups in L0 and in L1: the counters, once for each
lookup that finds it, and true when the word is lost. When a corrected word is written back, within 1 µs (1,000 clocks), is
free (log entry 221); a repaired one is, in the clock the pipeline stalls. -/
def State.atUpset (s : State) (p : Nat) (u : AtlasUpset) (c0 c1 : List Nat) : State × Bool :=
  let gap := s.free % 1001
  let one := (if u.l0.val = 1 then findsError c0 gap else 0) + (if u.l1.val = 1 then findsError c1 gap else 0)
  let all := c0.length + c1.length
  let both := u.l0.val == 2 && u.l1.val == 2 && all != 0
  let rep := if both then 0 else (if u.l0.val = 2 then findsError c0 0 else 0) + (if u.l1.val = 2 then findsError c1 0 else 0)
  let s := if one = 0 then s else s.drawn.count Obj.AT_ECC_CORRECTED p 0 one
  let s := if rep = 0 then s else s.count Obj.AT_ECC_REPAIRED p 0 rep
  if both then
    (((s.count Obj.AT_ECC_UNCORR p 0 all).setBit Obj.AT_STATUS p 0 6 true).raise .ATLAS_UNCORRECTABLE
      (Obj.AT_STATUS.ident p), true)
  else (s, false)

/-- R156: the scrub runs: from INIT on, not in SAVE, while the pipeline that serves the port runs. -/
def State.scrubbing (s : State) : Bool := decide (stInit ≤ s.mode) && s.mode != stSave

/-- R156: both shadow copies of pipeline `q` failed in one word: the shadows are reloaded from the DRAM image. -/
def State.shadowFail (s : State) (q : Nat) : State := s.setAtPipe q { s.atPipe q with reloading := true }

/-- R156: single errors of the shadows in a scrubbed word, and uncorrectable ones rewritten from the other copy: the counters of
port `p`. -/
def State.shadowUpset (s : State) (p : Nat) (u : AtlasUpset) : State :=
  let one := (if u.s0.val = 1 then 1 else 0) + (if u.s1.val = 1 then 1 else 0)
  let s := if one = 0 then s else s.count Obj.AT_ECC_CORRECTED p 0 one
  if (u.s0.val = 2) != (u.s1.val = 2) then s.count Obj.AT_ECC_REPAIRED p 0 1 else s

/-- R156: pipeline `q` ends a pass, after the words in error it met. A pass of a pipeline that serves a port counts on that port;
both shadows lost in a word are reloaded. -/
def State.scrubPass (s : State) (q : Nat) (upsets : List AtlasUpset) : State × Bool :=
  let lost := upsets.any (fun u => u.l0.val == 2 && u.l1.val == 2)
  let s := match s.portOf q with
    | some p =>
      (upsets.foldl (fun (s : State) u => (s.atUpset p u [0] [0]).1.shadowUpset p u) s).count Obj.AT_SCRUB_PASSES p 0 1
    | none => s
  let s := if upsets.any (fun u => u.s0.val == 2 && u.s1.val == 2) then s.shadowFail q else s
  (s.setAtPipe q { s.atPipe q with scrubFrom := s.now }, lost)

/-- R156: how long the scrub passes of pipeline `q` are apart: as its port sets it, or, serving none, as the object's default
(log entry 263). -/
def State.scrubPeriod (s : State) (q : Nat) : Nat :=
  match s.portOf q with
  | some p => s.rdN Obj.AT_SCRUB_PERIOD_MS p * 1000000
  | none => Obj.AT_SCRUB_PERIOD_MS.dflt.toNat * 1000000

/-- R156: the shadows of the pipeline that serves port `p` fail in one word (`done` false), and their reload from the DRAM image
ends (`done` true). -/
def execAtlasShadowReload (t : Nat) (p : Fin 12) (done : Bool) (s : State) : Result :=
  let s := s.at t
  let q := s.pipelineOf p
  if 13 ≤ q then .next s
  else if done then
    let x := s.atPipe q
    let b := (((if x.ahead then (s.atp p).image else (s.atp p).other)).map (fun i => i.blob)).getD x.s0
    .next (s.setAtPipe q { x with s0 := b, s1 := b, reloading := false })
  else .next (s.shadowFail q)

/-! ## The class of a site (R152 to R155) -/

/-- R152: the atlas address of a site. -/
def RgSite.address (x : RgSite) : Nat := x.u * 16384 + x.v * 128 + x.w

/-- R153: column `c` reads L0 (true) or L1, in clock c / 4 of its line. -/
def readsL0 (c : Nat) : Bool := decide (c % 4 < 2)

/-- R163: line `n` of port `p` reaches the lookups of pipeline `q`: where the swap was still to come, the pairs change places at
its line. -/
def State.atReach (s : State) (q p n : Nat) : State :=
  let x := s.atPipe q
  if x.ahead && (s.atp p).swapLine ≤ n then s.setAtPipe q x.swap else s

/-- R153, R163: the table that column `c` of line `n` of port `p` is looked up in: a line before the swap keeps the pair it had. -/
def State.atCopy (s : State) (q p n c : Nat) : List Byte :=
  let x := s.atPipe q
  if x.ahead || (s.atp p).swapLine ≤ n then (if readsL0 c then x.l0 else x.l1) else (if readsL0 c then x.s0 else x.s1)

/-- R154: whether a site is looked up. -/
def lookedUp (gate : Bool) (x : RgSite) : Bool := !x.inv && !(gate && x.plate)

/-- R154, R155: the classes of a registered line, the counters of its lookups, and true when a word was lost. -/
def State.classify (s : State) (l : RgLine) (upsets : List AtlasUpset) : State × List Nat × Bool :=
  let p := l.cap.port
  let g := l.cap.group
  let ep := l.cap.epoch
  let q := s.pipelineOf p
  let s := s.atReach q p l.cap.line
  let gate := s.rdEpoch g ep Obj.SG_PLATE_GATE p != 0
  let used := (l.sites.zipIdx).filter (fun x => lookedUp gate x.1)
  let r := upsets.foldl (fun (acc : State × List Nat) u =>
    let hits := used.filter (fun x => x.1.address / 8 == u.word.val)
    let clocks := fun (l0 : Bool) => (hits.filter (fun x => readsL0 x.2 == l0)).map (fun x => x.2 / 4)
    let q := acc.1.atUpset p u (clocks true) (clocks false)
    (q.1, if q.2 then u.word.val :: acc.2 else acc.2)) (s, [])
  let err := s.rdEpochN g ep Obj.AT_ERROR_CLASS p
  (r.1, (l.sites.zipIdx).map (fun x =>
    if !lookedUp gate x.1 then 0
    else if r.2.contains (x.1.address / 8) then err
    else atlasClass (s.atCopy q p l.cap.line x.2) x.1.address), !r.2.isEmpty)

end Sys2Proof.Machine
end

