-- ==== Sys2Proof/Machine/Segment.lean ====
section
/-! DEFINITION. Segmentation: keys, runs, joining, merging, splitting, overflow, class slots, closing, and the facets
(spec/06_atlas_and_segmentation.md, R169 to R186). -/

namespace Sys2Proof.Machine

open Sys2Proof

/-- The segmentation of port `p`. -/
def State.sgp (s : State) (p : Nat) : SgPort := look s.sg {} p

/-- The segmentation of port `p` becomes `v`. -/
def State.setSg (s : State) (p : Nat) (v : SgPort) : State := { s with sg := store s.sg {} p v }

/-- R186: bits of `SG_STATUS`. -/
def sgActive : Nat := 0
/-- R186. -/
def sgFull : Nat := 1
/-- R186. -/
def sgOverflowOpen : Nat := 2
/-- R186. -/
def sgSpill : Nat := 3

/-- R180: bits of EDGE. -/
def edgeTruncated : Nat := 0
/-- R180. -/
def edgeLeft : Nat := 1
/-- R180. -/
def edgeRight : Nat := 2
/-- R180. -/
def edgeContinued : Nat := 4
/-- R180. -/
def edgeExit : Nat := 6

/-! ## Keys (R168, R169) -/

/-- R169: what a site is: background, an object site with a key, or an ATTACH site. -/
inductive SiteKey where
  | background
  | key (k : Nat)
  | attach
deriving DecidableEq, Repr

/-- R168: SEVERITY of a class table entry. -/
def entrySeverity (e : Nat) : Nat := fieldOf e 24 8

/-- R169: the key of a site of class `k` whose entry is `e`. -/
def keyOf (k e : Nat) : SiteKey :=
  if k = 0 || e.testBit 8 then .background
  else
    match fieldOf e 12 2 with
    | 0 => .key (fieldOf e 16 4)
    | 1 => .key (16 + k)
    | _ => .attach

/-- R170: the runs of a line: maximal stretches of object sites with one key. -/
def keyRuns (line : Nat) (keys : List SiteKey) : List (Run × Nat) :=
  (keys.zipIdx).foldl (fun acc x =>
    match x.1 with
    | .key k =>
      match acc.getLast? with
      | some (r, k') =>
        if r.b + 1 = x.2 && k' = k then acc.dropLast ++ [({ r with b := x.2 }, k)]
        else acc ++ [({ line := line, a := x.2, b := x.2 }, k)]
      | none => [({ line := line, a := x.2, b := x.2 }, k)]
    | _ => acc) []

/-! ## Class slots and accumulators (R176, R178) -/

/-- R176: the slot with the lowest severity, the highest class number lowest among equals. -/
def lowestSlot (l : List ClassSlot) : Option ClassSlot :=
  match l with
  | [] => none
  | x :: r => some (r.foldl (fun a y =>
      if y.severity < a.severity || (y.severity == a.severity && a.cls < y.cls) then y else a) x)

/-- R176: a site of a class is added to the slots. -/
def Acc.addClass (a : Acc) (k severity : Nat) : Acc :=
  if a.slots.any (fun x => x.cls == k) then
    { a with slots := a.slots.map (fun x => if x.cls = k then { x with area := x.area + 1, severity := severity } else x) }
  else if a.slots.length < 8 then { a with slots := a.slots ++ [{ cls := k, area := 1, severity := severity }] }
  else
    match lowestSlot a.slots with
    | none => { a with other := a.other + 1 }
    | some x =>
      if x.severity < severity then
        { a with other := a.other + x.area,
                 slots := a.slots.map (fun y => if y.cls = x.cls then { cls := k, area := 1, severity := severity } else y) }
      else { a with other := a.other + 1 }

/-- R178: an object site at column `c` of line `n`, line `l` from the first line. -/
def Acc.addSite (a : Acc) (c n l : Nat) (x : RgSite) (k severity limit : Nat) : Acc :=
  { a.addClass k severity with
    firstL := some (a.firstL.getD n), lastL := n
    anchor := if a.firstL.isNone then c else if a.firstL = some n then min a.anchor c else a.anchor
    area := a.area + 1
    defect := a.defect + boolNat (decide (limit ≤ severity))
    severity := max a.severity severity
    sat := a.sat + boolNat x.sat
    subst := a.subst + boolNat x.subst
    minCol := some (match a.minCol with | some m => min m c | none => c)
    maxCol := max a.maxCol c
    sc := a.sc + c, sl := a.sl + l, scc := a.scc + c * c, sll := a.sll + l * l, scl := a.scl + c * l
    su := a.su + x.u, sv := a.sv + x.v, sw := a.sw + x.w }

/-- R176: the order in which merged slots are kept: severity, then area, then the lower class. -/
def slotBefore (x y : ClassSlot) : Bool :=
  decide (y.severity < x.severity) || (x.severity == y.severity && (decide (y.area < x.area) ||
    (x.area == y.area && decide (x.cls ≤ y.cls))))

/-- An element put into a list kept in an order. -/
def insertBy {α : Type} (before : α → α → Bool) (x : α) (l : List α) : List α :=
  match l with
  | [] => [x]
  | y :: r => if before x y then x :: y :: r else y :: insertBy before x r

/-- A list brought into an order; equals keep theirs. -/
def sortBy {α : Type} (before : α → α → Bool) (l : List α) : List α := l.foldr (insertBy before) []

/-- R176: the slots of two merged objects: equal classes add. -/
def mergeSlots (a b : List ClassSlot) : List ClassSlot :=
  let both := a.map (fun x => match b.find? (fun y => y.cls == x.cls) with
    | some y => { x with area := x.area + y.area }
    | none => x)
  sortBy slotBefore (both ++ b.filter (fun y => !a.any (fun x => x.cls == y.cls)))

/-- R172, R176: the accumulators of a survivor after it takes those of an object whose first line is `d` lines later (or
earlier, where `d` is negative). -/
def Acc.merge (a b : Acc) (d : Int) : Acc :=
  let slots := mergeSlots a.slots b.slots
  { area := a.area + b.area, defect := a.defect + b.defect, severity := max a.severity b.severity,
    perim := a.perim + b.perim, sat := a.sat + b.sat, subst := a.subst + b.subst, attach := a.attach + b.attach,
    other := a.other + b.other + sumNat ((slots.drop 8).map (fun x => x.area)),
    minCol := match a.minCol, b.minCol with
      | some x, some y => some (min x y)
      | some x, none => some x
      | none, y => y
    maxCol := max a.maxCol b.maxCol,
    sc := a.sc + b.sc, sl := a.sl + b.sl + d * b.area, scc := a.scc + b.scc,
    sll := a.sll + b.sll + 2 * d * b.sl + d * d * b.area, scl := a.scl + b.scl + d * b.sc,
    su := a.su + b.su, sv := a.sv + b.sv, sw := a.sw + b.sw, slots := slots.take 8
    firstL := match a.firstL, b.firstL with
      | some x, some y => some (min x y)
      | some x, none => some x
      | none, y => y
    lastL := max a.lastL b.lastL
    anchor := match a.firstL, b.firstL with
      | some x, some y => if x < y then a.anchor else if y < x then b.anchor else min a.anchor b.anchor
      | some _, none => a.anchor
      | none, _ => b.anchor }

/-- R202: the sums with lines counted from a line `d` later. -/
def Acc.shift (a : Acc) (d : Nat) : Acc :=
  let e : Int := -(d : Int)
  { a with sl := a.sl + e * a.area, sll := a.sll + 2 * e * a.sl + e * e * a.area, scl := a.scl + e * a.sc }

/-! ## Regions and seams (R177, R193) -/

/-- R193, R209: the seam columns of port `p`: west, east; 0xffff none. -/
def State.seamW (s : State) (p : Nat) : Nat := s.rdN Obj.ST_SEAM_COL_W 0 p
/-- R193, R209. -/
def State.seamE (s : State) (p : Nat) : Nat := s.rdN Obj.ST_SEAM_COL_E 0 p

/-- R177: the seam columns of a port, west to east. -/
def State.seams (s : State) (p : Nat) : List Nat := [s.seamW p, s.seamE p].filter (fun c => c != 65535)

/-- R177: the region of a column: a seam column belongs to the region east of it. -/
def regionOf (seams : List Nat) (c : Nat) : Nat := (seams.filter (fun x => decide (x ≤ c))).length

/-- R193: the edge columns of port `p`: of its west seam (false) s, of its east seam (true) s - 1. -/
def State.edgeCols (s : State) (p : Nat) : List (Bool × Nat) :=
  (if s.seamW p = 65535 then [] else [(false, s.seamW p)]) ++ (if s.seamE p = 65535 then [] else [(true, s.seamE p - 1)])

/-- R195: a line with a site in an edge column is a contact. -/
def touchContact (l : List Contact) (east : Bool) (t : Nat) : List Contact :=
  if l.any (fun x => x.east == east) then
    l.map (fun x => if x.east = east then { x with first := min x.first t, last := max x.last t } else x)
  else l ++ [{ east := east, first := t, last := t }]

/-- R195: sites in columns `a` to `b` of a line with trigger time `t` touch the edge columns. -/
def SgObj.touch (o : SgObj) (edges : List (Bool × Nat)) (a b t : Nat) : SgObj :=
  { o with contacts := edges.foldl (fun l e => if a ≤ e.2 && e.2 ≤ b then touchContact l e.1 t else l) o.contacts }

/-! ## Objects -/

/-- The open object `id` becomes `f` of it. -/
def State.modObj (s : State) (p id : Nat) (f : SgObj → SgObj) : State :=
  let g := s.sgp p
  s.setSg p { g with objs := g.objs.map (fun o => if o.id = id then f o else o) }

/-- The open object `id`. -/
def State.sgObj (s : State) (p id : Nat) : Option SgObj := (s.sgp p).objs.find? (fun o => o.id == id)

/-- R172: of two objects, the one with the earlier anchor. -/
def SgObj.before (a b : SgObj) : Bool :=
  decide (a.anchorLine < b.anchorLine) || (a.anchorLine == b.anchorLine && decide (a.anchorCol ≤ b.anchorCol))

/-- R170, R174: a run of line `n` joins an object, whose first line's epoch closes it after `close` lines. -/
def SgObj.joins (o : SgObj) (close : Nat) (r : Run) : Bool :=
  let n := r.line
  if o.last + 1 = n then o.runs.any (fun x => decide (x.a ≤ r.b + 1) && decide (r.a ≤ x.b + 1))
  else
    decide (o.last + 2 ≤ n) && decide (n ≤ o.last + close) &&
      o.runs.any (fun x => decide (x.a ≤ r.b + 1)) && o.runs.any (fun x => decide (r.a ≤ x.b + 1))

/-- R173: `SG_CLOSE_LINES` of an object, from the epoch of its first line. -/
def State.closeLines (s : State) (o : SgObj) : Nat := s.rdEpochN o.group o.epoch Obj.SG_CLOSE_LINES o.port

/-- Two tables of the line being processed: what each object was merged into, and what a run that meets it joins (merges and
R175's successors). -/
structure SgAlias where
  merged : List (Nat × Nat) := []
  joined : List (Nat × Nat) := []
deriving DecidableEq, Repr

/-- Where a table leads. -/
def aliasTop (l : List (Nat × Nat)) (i : Nat) : Nat :=
  match l.find? (fun a => a.1 == i) with
  | some a => a.2
  | none => i

/-- A table after `i` leads to `j`. -/
def aliasTo (l : List (Nat × Nat)) (i j : Nat) : List (Nat × Nat) :=
  (l.map (fun a => if a.2 = i then (a.1, j) else a)) ++ [(i, j)]

/-- R174: the overflow object, if one is open. -/
def State.overflowObj (s : State) (p : Nat) : Option SgObj := (s.sgp p).objs.find? (fun o => o.key.isNone && !o.closed)

/-- R174: the open objects that count towards the limit. -/
def State.openCount (s : State) (p : Nat) : Nat := ((s.sgp p).objs.filter (fun o => o.key.isSome && !o.closed)).length

/-- R184: SG_OPEN_OBJECTS: the objects that are open. -/
def State.openObjects (s : State) (p : Nat) : Nat := min 4096 ((s.sgp p).objs.filter (fun o => !o.closed)).length

/-- R137, R170: a new object whose earliest site is column `r.a` of line `l`. -/
def State.newObj (s : State) (l : RgLine) (key : Option Nat) (r : Run) : State × Nat :=
  let p := l.cap.port
  let q := match (l.sites.getD r.a {}).track with
    | some x => (s, x)
    | none => s.objectResult p l.cap.epoch l.cap.line
  let s := q.1
  let g := s.sgp p
  let n := (s.seams p).length
  let o : SgObj := {
    id := g.nextId, key := key, port := p, group := l.cap.group, epoch := l.cap.epoch, first := l.cap.line,
    last := l.cap.line, anchorLine := l.cap.line, anchorCol := r.a, result := q.2, overflow := key.isNone,
    regions := if n = 0 then [] else List.replicate (n + 1) {}, cut := List.replicate (n + 1) false }
  let s := s.setSg p { g with objs := g.objs ++ [o], nextId := g.nextId + 1 }
  (s.putN Obj.SG_OPEN_MAX_SEEN p 0 (max (s.openObjects p) (s.rdN Obj.SG_OPEN_MAX_SEEN p)), g.nextId)

/-- R175: the object closes at line n with CONTINUED, and a new part takes its place. -/
def State.splitObj (s : State) (l : RgLine) (o : SgObj) (r : Run) : State × Nat :=
  let p := l.cap.port
  let s := (s.modObj p o.id (fun x => { x with edge := withBit x.edge edgeContinued true, closed := true })).count
    Obj.SG_SPLITS p 0 1
  let g := s.sgp p
  let part : SgObj := { o with
    id := g.nextId, epoch := l.cap.epoch, first := l.cap.line, anchorLine := l.cap.line, anchorCol := r.a,
    fresh := [], head := none, acc := {}, regions := o.regions.map (fun _ => {}), edge := 0, cut := o.cut.map (fun _ => false), contacts := [],
    part := o.part + 1 }
  (s.setSg p { g with objs := g.objs ++ [part], nextId := g.nextId + 1 }, g.nextId)

/-- The columns two spans cover together. -/
def joinSpan (a b : Option (Nat × Nat)) : Option (Nat × Nat) :=
  match a, b with
  | some x, some y => some (min x.1 y.1, max x.2 y.2)
  | some x, none => some x
  | none, y => y

/-- R172, R174: object `o` merges into the survivor `v`. -/
def State.mergeObj (s : State) (p : Nat) (v o : SgObj) : State :=
  let d : Int := (o.first : Int) - v.first
  let v' : SgObj := { v with
    key := match v.key with | some k => some k | none => o.key
    acc := v.acc.merge o.acc d
    regions := (v.regions.zip o.regions).map (fun x => x.1.merge x.2 d)
    cut := (v.cut.zip o.cut).map (fun x => x.1 || x.2)
    edge := v.edge ||| o.edge
    contacts := o.contacts.foldl (fun l c => touchContact (touchContact l c.east c.first) c.east c.last) v.contacts
    fresh := v.fresh ++ o.fresh
    head := if o.first < v.first then o.head else if o.first = v.first then joinSpan v.head o.head else v.head
    overflow := v.overflow || o.overflow }
  let g := s.sgp p
  (s.setSg p { g with objs := (g.objs.filter (fun x => x.id != o.id)).map (fun x => if x.id = v.id then v' else x) }).count
    Obj.SG_MERGES p 0 1

/-- R174, R175: a run that joins no object: it opens one, or joins the overflow object, which may split. -/
def State.openObj (s : State) (l : RgLine) (al : SgAlias) (key : Nat) (r : Run) : State × SgAlias × Nat :=
  let p := l.cap.port
  if s.openCount p < 4096 then
    let q := s.newObj l (some key) r
    (q.1, al, q.2)
  else
    match s.overflowObj p with
    | some o =>
      if o.first + 8192 ≤ r.line then
        let q := s.splitObj l o r
        (q.1, { al with joined := aliasTo al.joined o.id q.2 }, q.2)
      else (s, al, o.id)
    | none =>
      let q := s.newObj l none r
      ((q.1.count Obj.SG_OVERFLOW_OBJECTS p 0 1).raise .SG_OVERFLOW (Obj.SG_STATUS.ident p), al, q.2)

/-- R177, R178: the sites of a run are added to object `id`. -/
def State.addRun (s : State) (l : RgLine) (id : Nat) (r : Run) (classes table : List Nat) : State :=
  let p := l.cap.port
  let seams := s.seams p
  let edges := s.edgeCols p
  let add := fun (o : SgObj) (a : Acc) (c : Nat) =>
    let k := classes.getD c 0
    a.addSite c l.cap.line (l.cap.line - o.first) (l.sites.getD c {}) k (entrySeverity (table.getD k 0))
      (s.rdEpochN o.group o.epoch Obj.SG_DEFECT_SEVERITY p)
  let cols := (List.range (r.b + 1 - r.a)).map (fun i => r.a + i)
  s.modObj p id (fun o =>
    let o := { o with
      acc := cols.foldl (add o) o.acc
      regions := (o.regions.zipIdx).map (fun (x : Acc × Nat) =>
        (cols.filter (fun c => regionOf seams c == x.2)).foldl (add o) x.1)
      fresh := o.fresh ++ [r]
      head := if l.cap.line = o.first then joinSpan o.head (some (r.a, r.b)) else o.head }
    o.touch edges r.a r.b l.cap.trig)

/-- R170 to R175: one run of a line joins, merges and opens objects, and its sites are added; the object it went to. -/
def State.segRun (s : State) (l : RgLine) (start : List SgObj) (al : SgAlias) (r : Run) (key : Nat)
    (classes table : List Nat) : State × SgAlias × Nat :=
  let p := l.cap.port
  let met := start.filter (fun o => (o.key == some key || o.key.isNone) && o.joins (s.closeLines o) r)
  let onOverflow := met.any (fun o => o.key.isNone)
  let hits := met.foldl (fun (acc : State × SgAlias × List Nat) o =>
    let i := aliasTop acc.2.1.joined o.id
    if acc.2.2.contains i then acc
    else
      match acc.1.sgObj p i with
      | none => acc
      | some x =>
        if x.first + 8192 ≤ r.line then
          let q := acc.1.splitObj l x r
          (q.1, { acc.2.1 with joined := aliasTo acc.2.1.joined i q.2 }, acc.2.2 ++ [q.2])
        else (acc.1, acc.2.1, acc.2.2 ++ [i])) (s, al, [])
  let s := hits.1
  let al := hits.2.1
  let objs := hits.2.2.filterMap (fun i => s.sgObj p i)
  let done : State × SgAlias × Nat :=
    match objs with
    | [] => s.openObj l al key r
    | x :: rest =>
      let v := rest.foldl (fun a o => if o.before a && !a.before o then o else a) x
      let m := (objs.filter (fun o => o.id != v.id)).foldl (fun (acc : State × SgAlias) o =>
        match acc.1.sgObj p v.id with
        | none => acc
        | some v' => (acc.1.mergeObj p v' o,
            { merged := aliasTo acc.2.merged o.id v.id, joined := aliasTo acc.2.joined o.id v.id })) (s, al)
      (m.1, m.2, v.id)
  let s := done.1.addRun l done.2.2 r classes table
  let toOverflow := onOverflow || (match s.sgObj p done.2.2 with | some o => o.key.isNone | none => false)
  (if toOverflow then s.count Obj.SG_OVERFLOW_SITES p 0 (r.b + 1 - r.a) else s, done.2.1, done.2.2)

/-! ## Perimeter, edges and ATTACH sites (R171, R178, R180) -/

/-- R177, R178: a site at column `c` counts for the perimeter of object `id`. -/
def State.addPerim (s : State) (p id c : Nat) : State :=
  let seams := s.seams p
  s.modObj p id (fun o => { o with
    acc := { o.acc with perim := o.acc.perim + 1 }
    regions := (o.regions.zipIdx).map (fun (x : Acc × Nat) => if x.2 = regionOf seams c then { x.1 with perim := x.1.perim + 1 } else x.1) })

/-- R180: a site at column `c` of object `id` is 8-adjacent to an INVALID site. -/
def State.addCut (s : State) (p id c : Nat) : State :=
  let seams := s.seams p
  s.modObj p id (fun o => { o with
    edge := withBit o.edge edgeTruncated true
    cut := (o.cut.zipIdx).map (fun (x : Bool × Nat) => x.1 || x.2 == regionOf seams c) })

/-- Whether any of the columns `c - 1` to `c + 1` is set. -/
def near (row : List Bool) (c : Nat) : Bool :=
  (decide (0 < c) && row.getD (c - 1) false) || row.getD c false || row.getD (c + 1) false

/-- R180: LEFT and RIGHT of a site at column `c` of a row of `width` columns. -/
def State.addSides (s : State) (p id c width : Nat) : State :=
  let s := if c = 0 then s.modObj p id (fun o => { o with edge := withBit o.edge edgeLeft true }) else s
  if c + 1 = width then s.modObj p id (fun o => { o with edge := withBit o.edge edgeRight true }) else s

/-- R178, R180: the sites of the line before, seen from this line: their lower neighbours are known now. -/
def State.segPend (s : State) (p : Nat) (al : SgAlias) (own : List (Option Nat)) (inv : List Bool) : State :=
  let g := s.sgp p
  g.pend.foldl (fun s x =>
    let id := aliasTop al.merged x.id
    let s := if x.perim && (own.getD x.col none != some id) then s.addPerim p id x.col else s
    if x.trunc && near inv x.col then s.addCut p id x.col else s) s

/-- R180: the sides of a site and whether it is already known to be truncated. -/
def State.segEdges (s : State) (p id c width : Nat) (inv before : List Bool) : State × Bool :=
  let s := s.addSides p id c width
  if near inv c || near before c then (s.addCut p id c, false) else (s, true)

/-- R178: one object site of this line: its perimeter as far as this line and the one before show it. -/
def State.segSite (s : State) (p c width : Nat) (own prev : List (Option Nat)) (inv before : List Bool) : State :=
  match own.getD c none with
  | none => s
  | some id =>
    let inside := decide (0 < c) && decide (c + 1 < width) && own.getD (c - 1) none == some id &&
      own.getD (c + 1) none == some id && prev.getD c none == some id
    let s := if inside then s else s.addPerim p id c
    let q := s.segEdges p id c width inv before
    let g := q.1.sgp p
    q.1.setSg p { g with pend := g.pend ++ [{ id := id, col := c, perim := inside, trunc := q.2 }] }

/-- R171: one ATTACH site of this line. -/
def State.segAttach (s : State) (l : RgLine) (al : SgAlias) (c : Nat) (own prev : List (Option Nat))
    (inv before : List Bool) (classes table : List Nat) : State :=
  let p := l.cap.port
  let at' := fun (row : List (Option Nat)) (i : Nat) => if i + c < 1 then none else row.getD (i + c - 1) none
  let ids := (((List.range 3).map (at' own) ++ (List.range 3).map (at' prev)).filterMap (fun x => x)).map (aliasTop al.joined)
  match ids.eraseDups.filterMap (fun i => s.sgObj p i) with
  | [] => s
  | x :: rest =>
    let o := rest.foldl (fun a y => if y.before a && !a.before y then y else a) x
    let k := classes.getD c 0
    let sev := entrySeverity (table.getD k 0)
    let seams := s.seams p
    let edges := s.edgeCols p
    let add := fun (a : Acc) => { a.addClass k sev with attach := a.attach + 1 }
    let s := s.modObj p o.id (fun y =>
      { y with acc := add y.acc,
               regions := (y.regions.zipIdx).map (fun (z : Acc × Nat) => if z.2 = regionOf seams c then add z.1 else z.1) }.touch edges c c
        l.cap.trig)
    let s := if o.key.isNone then s.count Obj.SG_OVERFLOW_SITES p 0 1 else s
    let q := s.segEdges p o.id c l.sites.length inv before
    let g := q.1.sgp p
    q.1.setSg p { g with pend := g.pend ++ [{ id := o.id, col := c, perim := false, trunc := q.2 }] }

/-! ## Lines and closing (R173, R174, R181) -/

/-- R184, R186: the number of open objects, and its bits. -/
def State.segPublish (s : State) (p : Nat) : State :=
  let n := s.openObjects p
  let s := (s.putN Obj.SG_OPEN_OBJECTS p 0 n).putN Obj.SG_OPEN_MAX_SEEN p 0 (max n (s.rdN Obj.SG_OPEN_MAX_SEEN p))
  (s.setBit Obj.SG_STATUS p 0 sgFull (decide (4096 ≤ s.openCount p))).setBit Obj.SG_STATUS p 0 sgOverflowOpen
    (s.overflowObj p).isSome

/-- R173, R181: the objects that close on line `n` leave in the order of their anchors. -/
def State.segClose (s : State) (p n time : Nat) (closes : SgObj → Bool) (exit : Bool) : State :=
  let g := s.sgp p
  let out := sortBy SgObj.before (g.objs.filter closes)
  let out := out.map (fun o => { o with
    edge := if exit then withBit o.edge edgeExit true else o.edge, closeLine := n, closeTime := time, pipe := s.pipelineOf p })
  (s.setSg p { g with objs := g.objs.filter (fun o => !closes o), done := g.done ++ out }).segPublish p

/-- R169 to R181: a registered line is segmented. `classes` are its sites' classes. -/
def State.segLine (s : State) (l : RgLine) (classes : List Nat) : State :=
  let p := l.cap.port
  let n := l.cap.line
  let width := l.sites.length
  let table := s.classTable l.cap.group l.cap.epoch
  let keys := classes.map (fun k => keyOf k (table.getD k 0))
  let inv := l.sites.map (fun x => x.inv)
  let start := (s.sgp p).objs
  let runs := (keyRuns n keys).foldl (fun (acc : State × SgAlias × List (Run × Nat)) r =>
    let q := acc.1.segRun l start acc.2.1 r.1 r.2 classes table
    (q.1, q.2.1, acc.2.2 ++ [(r.1, q.2.2)])) (s, {}, [])
  let al := runs.2.1
  let own := (List.range width).map (fun c =>
    (runs.2.2.find? (fun r => decide (r.1.a ≤ c) && decide (c ≤ r.1.b))).map (fun r => aliasTop al.merged r.2))
  let g := s.sgp p
  let prev := g.own.map (fun x => x.map (aliasTop al.merged))
  let s := runs.1.segPend p al own inv
  let s := s.setSg p { s.sgp p with pend := [] }
  let s := (List.range width).foldl (fun s c => s.segSite p c width own prev inv g.inv) s
  let s := (List.range width).foldl (fun s c =>
    match keys.getD c .background with
    | .attach => s.segAttach l al c own prev inv g.inv classes table
    | _ => s) s
  let g := s.sgp p
  let s := s.setSg p { g with
    objs := g.objs.map (fun o => if o.fresh.isEmpty then o else { o with runs := o.fresh, fresh := [], last := n })
    line := n, time := l.cap.trig, inv := inv, own := own }
  s.segClose p n l.cap.trig (fun o => o.closed || decide (o.last + s.closeLines o ≤ n)) false

/-- R173: at the exit from ARMED, RUN or HOLD every open object closes on the last processed line. -/
def State.segFlush (s : State) (p : Nat) : State :=
  let g := s.sgp p
  let s := s.segPend p {} [] []
  let s := s.setSg p { s.sgp p with pend := [], own := [], inv := [] }
  (s.segClose p g.line g.time (fun _ => true) true).setBit Obj.SG_STATUS p 0 sgActive false

/-- R146, R182: segmentation of port `p` starts, empty. -/
def State.segArm (s : State) (p : Nat) : State :=
  let s := (s.setSg p {}).putN Obj.SG_OPEN_MAX_SEEN p 0 0
  (s.setBit Obj.SG_STATUS p 0 sgActive true).segPublish p

/-! ## Facets (R178 to R180) -/

/-- R179: atan(2⁻ⁱ) × 9000/π × 2⁴⁰, for the vector rotation of `angle`. -/
def atanSteps : List Int :=
  [2473901162496000, 1460429133083088, 771650645164004, 391701916185581, 196611061506230, 98401376322308,
   49212695162823, 24607849280925, 12304112378679, 6152079657422, 3076042762247, 1538021747816, 769010919745,
   384505465602, 192252733517, 96126366848, 48063183435, 24031591719, 12015795860, 6007897930, 3003948965,
   1501974482, 750987241, 375493621, 187746810, 93873405, 46936703, 23468351, 11734176, 5867088, 2933544, 1466772,
   733386, 366693, 183346, 91673, 45837, 22918, 11459, 5730]

/-- R179: one step of a vector rotation towards the x axis. -/
def rotate (v : Int × Int × Int) (i : Nat) (step : Int) : Int × Int × Int :=
  if 0 < v.2.1 then (v.1 + v.2.1 / 2 ^ i, v.2.1 - v.1 / 2 ^ i, v.2.2 + step)
  else (v.1 - v.2.1 / 2 ^ i, v.2.1 + v.1 / 2 ^ i, v.2.2 - step)

/-- R179: atan2(y, x) × 9000/π, rounded, for vectors that are not zero. -/
def angle (y x : Int) : Int :=
  let turned : Int × Int × Int := if x < 0 then (if 0 ≤ y then (y, -x, 4500 * 2 ^ 40) else (-y, x, -4500 * 2 ^ 40)) else (x, y, 0)
  let v : Int × Int × Int := (turned.1 * 2 ^ 44, turned.2.1 * 2 ^ 44, turned.2.2)
  let r := (atanSteps.zipIdx).foldl (fun v k => rotate v k.2 k.1) v
  (r.2.2 + 2 ^ 39) / 2 ^ 40

/-- R179: ORIENTATION: within 1 of the exact value, which of the three being free; -9,000 reads 9,000. -/
def orientation (h2 d : Int) (free : Nat) : Int :=
  let v := clampInt (-9000) 9000 (angle h2 d + (free % 3 : Nat) - 1)
  if v = -9000 then 9000 else v

/-- R178: the range of facet `i`: U32, but MU_CL and ORIENTATION are I32. -/
def facetClamp (i : Nat) (v : Int) : Int :=
  if i = 18 || i = 21 then clampInt (-2147483648) 2147483647 v else clampInt 0 4294967295 v

/-- R179: sy in nm a line: from the speed and the trigger times in free fall, from the belt counts in surface mode. The belt
count of a line that was never triggered is a free value (log entry 3). -/
def State.linePitch (s : State) (p g : Nat) (speed first last : Nat) : State × Int :=
  let n := last + 1 - first
  let g := markGroup p g
  match s.beltEncoder with
  | none =>
    let t0 := (s.trigTime g first).getD 0
    let t1 := match s.trigTime g (last + 1) with
      | some t => t
      | none => (s.trigTime g last).getD 0 + s.rdN Obj.TG_MIN_PERIOD_NS 0 p
    (s, rnd ((speed : Int) * ((t1 : Int) - t0)) (10000 * n))
  | some _ =>
    let b := fun n => (s.markOf g n).map (fun m => m.belt)
    let q : State × Int := match b first, b (last + 1) with
      | some x, some y => (s, wrap48 (y - x))
      | _, _ => (s.drawn, wrap48 (s.free : Nat))
    (q.1, rnd (absNat q.2 * s.rdN Obj.RG_BELT_NM_PER_COUNT p : Nat) n)

/-- R179: a quotient whose divisor is no site at all has no stated value: a free one (log entry 3). -/
def openRnd (free : Int) (a b : Int) : Int := if b = 0 then free else rnd a b

/-- R136: facet 28. -/
def TrackResult.packed (r : TrackResult) : Nat := (r.d16 % 65536) * 65536 + r.confidence * 256 + r.reason * 16 + r.source

/-- R180: EDGE of an object or half from its own bits. -/
def edgeWord (edge part other : Nat) (overflow : Bool) : Nat :=
  withBit (withBit (withBit edge 3 overflow) 5 (part != 0)) 7 (other != 0)

/-- R178, R179: the 32 facets from the exact sums. -/
def State.facets (s : State) (p g : Nat) (a : Acc) (r : TrackResult) (first last edge part : Nat) : State × List Int :=
  let q := s.linePitch p g r.speed first last
  let s := q.1
  let sy := q.2
  let sx : Int := s.rdN Obj.SG_COLUMN_PITCH_NM p
  let n : Int := (last + 1 - first : Nat)
  let ar : Int := a.area
  let cols : Int := match a.minCol with | some m => (a.maxCol : Int) - m + 1 | none => 0
  let z := fun (i : Nat) => (Config.freeValue (s.draws + i) : Int)
  let mcc := openRnd (z 0) (16 * (ar * a.scc - a.sc * a.sc)) (ar * ar)
  let mll := openRnd (z 1) (16 * (ar * a.sll - a.sl * a.sl)) (ar * ar)
  let mcl := openRnd (z 2) (16 * (ar * a.scl - a.sc * a.sl)) (ar * ar)
  let x := mcc * sx * sx
  let y := mll * sy * sy
  let h := mcl * sx * sy
  let root : Int := isqrt ((x - y) * (x - y) + 4 * h * h).toNat
  let lp := (x + y + root) / 2
  let lm := max 0 ((x + y - root) / 2)
  let elong : Int := if lm = 0 then 4294967295 else isqrt (rnd (65536 * lp) lm).toNat
  let orient := if x = y && h = 0 then 0 else orientation (2 * h) (x - y) (Config.freeValue (s.draws + 3))
  let vals : List Int := [
    rnd (sy * n) 1000, rnd (sx * cols) 1000, rnd (ar * sx * sy) 1000000, a.defect, a.severity, elong,
    openRnd (z 4) (65536 * a.defect) ar, openRnd (z 5) (65536 * ar) (n * cols),
    openRnd (z 6) (256 * a.su) ar, openRnd (z 7) (256 * a.sv) ar, openRnd (z 8) (256 * a.sw) ar, a.perim,
    openRnd (z 9) (256 * a.sc) ar, openRnd (z 10) (256 * a.sl) ar, (a.minCol.getD 0 : Nat), a.maxCol,
    mcc, mll, mcl, rnd (isqrt lp.toNat : Nat) 1000, rnd (isqrt lm.toNat : Nat) 1000, orient,
    a.sat, a.subst, edge, part, a.attach, a.other, r.packed, n, cols, ar]
  ({ s with draws := s.draws + 11 }, (vals.zipIdx).map (fun v => facetClamp v.2 v.1))

/-- R137, R180, R181: the oldest closed part of port `p` leaves segmentation: its facets, its counters. -/
def State.segLeave (s : State) (p : Nat) : Option (State × SgObj × List Int) :=
  let g := s.sgp p
  match g.done with
  | [] => none
  | o :: rest =>
    let s := s.setSg p { g with done := rest }
    let o := { o with edge := edgeWord o.edge o.part o.acc.other o.overflow }
    let q := s.facets p o.group o.acc o.result o.first o.last o.edge o.part
    let s := q.1
    let spill := o.acc.other != 0
    let s := if spill then s.count Obj.SG_SLOT_SPILLS p 0 1 else s
    let s := if o.edge.testBit edgeTruncated then s.count Obj.SG_TRUNCATED p 0 1 else s
    let s := (s.count Obj.SG_OBJECTS_CLOSED p 0 1).count Obj.RG_REASON_COUNT p o.result.reason 1
    let s := s.putList Obj.SG_LAST_FACETS p (q.2.map (fun v => v % 4294967296))
    let s := (s.putN Obj.SG_LAST_ANCHOR_LINE p 0 o.anchorLine).putN Obj.SG_LAST_ANCHOR_COL p 0 o.anchorCol
    some (s.setBit Obj.SG_STATUS p 0 sgSpill spill, o, q.2)

end Sys2Proof.Machine
end

