-- ==== Sys2Proof/Machine/Chord.lean ====
section
/-! DEFINITION. Chord packets: sending, acknowledging and resending (spec/17_chord_links_and_lanes.md, R501 to R514). -/

namespace Sys2Proof.Machine

open Sys2Proof

/-- Chord port `k`: 0 CHW, 1 CHE. -/
def State.chp (s : State) (k : Nat) : ChPort := look s.ch {} k

/-- Chord port `k` becomes `v`. -/
def State.setCh (s : State) (k : Nat) (v : ChPort) : State := { s with ch := store s.ch {} k v }

/-- R518: UP of chord port `k`. -/
def State.chUp (s : State) (k : Nat) : Bool := s.bit Obj.CH_STATUS 0 k 0

/-- R518: POWER of chord port `k`: 0 L0, 1 L0s, 2 L1. -/
def State.chPower (s : State) (k : Nat) : Nat := fieldOf (s.rdN Obj.CH_STATUS 0 k) 9 2

/-- R504: the bytes a packet occupies: header, payload and CRC. -/
def packetBytes (payload : List Byte) : Nat := 12 + payload.length

/-- R506: the bytes in the replay buffer. -/
def ChPort.held (c : ChPort) : Nat := sumNat (c.replay.map (fun x => packetBytes x.payload))

/-- R504: a packet's header word. -/
def chordHeader (cls typ seq length : Nat) : Nat := 2 ^ 60 * cls + 2 ^ 52 * typ + 2 ^ 40 * (length % 4096) + 65536 * seq

/-- R504: the bytes of a packet with the CRC `crc`. -/
def chordBytes (cls typ seq : Nat) (payload : List Byte) (crc : Nat) : List Byte :=
  toLe 8 (chordHeader cls typ seq payload.length) ++ payload ++ toLe 4 crc

/-- R504: a packet: the header, the payload and a CRC-32C over both. -/
def chordPacket (cls typ seq : Nat) (payload : List Byte) : List Byte :=
  chordBytes cls typ seq payload (crc32c (toLe 8 (chordHeader cls typ seq payload.length) ++ payload))

/-- R504: CLASS, TYPE, LENGTH and SEQ of a packet. -/
def chordClass (b : List Byte) : Nat := fieldOf (leAt b 0 8) 60 4
/-- R504. -/
def chordType (b : List Byte) : Nat := fieldOf (leAt b 0 8) 52 8
/-- R504. -/
def chordLength (b : List Byte) : Nat := fieldOf (leAt b 0 8) 40 12
/-- R504. -/
def chordSeq (b : List Byte) : Nat := fieldOf (leAt b 0 8) 16 24

/-- R504, R506: a packet's CRC matches: it stands after the payload that LENGTH gives, of at most 2,048 bytes. -/
def chordCrcOk (b : List Byte) : Bool :=
  decide (chordLength b ≤ 2048) && b.length == 12 + chordLength b && leAt b (8 + chordLength b) 4 == crc32c (b.take (8 + chordLength b))

/-- R514: a new packet goes out; one in every `CH_INJECT` is corrupted. -/
def State.chEmit (s : State) (k cls typ seq : Nat) (payload : List Byte) : State :=
  let c := s.chp k
  let n := s.rdN Obj.CH_INJECT 0 k
  let bad := n != 0 && decide (n ≤ c.inject + 1)
  let s := s.setCh k { c with inject := if bad || n = 0 then 0 else c.inject + 1 }
  let s := if bad then s.count Obj.CH_INJECTED 0 k 1 else s
  (s.count Obj.CH_BYTES_SENT 0 (5 * k + cls) (packetBytes payload)).emit
    (.chord k (chordPacket cls typ seq payload) bad)

/-- R506: a packet takes the next SEQ, enters the replay buffer and goes out. -/
def State.chPush (s : State) (k cls typ : Nat) (payload : List Byte) : State :=
  let c := s.chp k
  let pk : ChPacket := { cls := cls, typ := typ, seq := c.nextSeq, payload := payload }
  let s := s.setCh k { c with
    nextSeq := (c.nextSeq + 1) % 16777216, replay := c.replay ++ [pk], lastSend := s.now
    lastTraffic := if cls = 0 then c.lastTraffic else s.now }
  s.chEmit k cls typ pk.seq payload

/-- R506: a packet fits the 64 KiB replay buffer. -/
def ChPort.fits (c : ChPort) (payload : List Byte) : Bool := decide (c.held + packetBytes payload ≤ 65536)

/-- R506, R510: the unit sends a packet on chord port `k`: at once, or, with a full replay buffer, later. A port that is not
up carries none; one in L0s or L1 leaves it (log entry 282). -/
def State.chordSend (s : State) (k cls typ : Nat) (payload : List Byte) : State :=
  if !s.chUp k then s
  else
    let s := s.setField Obj.CH_STATUS 0 k 9 2 0
    let c := s.chp k
    if c.stalled.isEmpty && c.fits payload then s.chPush k cls typ payload
    else s.setCh k { c with stalled := c.stalled ++ [{ cls := cls, typ := typ, payload := payload, ready := s.now }] }

/-- R507: the packet chosen next among those that wait: one that has waited 2 µs, the oldest first; else by class. -/
def nextWaiting (now : Nat) (l : List ChWait) : Option (Nat × ChWait) :=
  let old := (l.zipIdx).find? (fun x => decide (x.1.ready + 2000 ≤ now))
  match old with
  | some x => some (x.2, x.1)
  | none =>
    match l.zipIdx with
    | [] => none
    | x :: r =>
      let y := r.foldl (fun a b => if b.1.cls < a.1.cls then b else a) x
      some (y.2, y.1)

/-- R506, R507: packets that wait go out while they fit; `fuel` is their number. -/
def State.chDrain (s : State) (k fuel : Nat) : State :=
  match fuel with
  | 0 => s
  | n + 1 =>
    let c := s.chp k
    match nextWaiting s.now c.stalled with
    | none => s
    | some (i, w) =>
      if c.fits w.payload then
        ((s.setCh k { c with stalled := c.stalled.eraseIdx i }).chPush k w.cls w.typ w.payload).chDrain k n
      else s

/-- R506: whether SEQ `a` comes no later than SEQ `b`, modulo 2²⁴. -/
def seqUpTo (a b : Nat) : Bool := decide ((b + 16777216 - a) % 16777216 < 8388608)

/-- R506: an ACK or NAK goes out; it carries SEQ 0 and no place in the replay buffer. -/
def State.chControl (s : State) (k typ seq : Nat) : State :=
  let payload := toLe 4 seq
  ((s.setCh k { s.chp k with lastSend := s.now }).count Obj.CH_BYTES_SENT 0 (5 * k) (packetBytes payload)).emit
    (.chord k (chordPacket 0 typ 0 payload) false)

/-- R200, R210: seam traffic runs on chord port `k`. -/
def State.seamTraffic (s : State) (k : Nat) : Bool := s.bit Obj.ST_STATUS 0 0 (1 + k)

end Sys2Proof.Machine
end

