-- ==== Sys2Proof/Machine/Stitch.lean ====
section
/-! DEFINITION. Stitching: column maps, seams, candidates, groups, ownership and merging, split resolution, the target
calibration (spec/07_stitching.md, R187 to R210). -/

namespace Sys2Proof.Machine

open Sys2Proof

/-! ## Column maps (R187 to R189) -/

/-- R188: ROW_WIDTH of a map. -/
def mapWidth (b : List Byte) : Nat := leAt b 4 2

/-- R188: coefficient k of a map. -/
def mapCoeff (b : List Byte) (k : Nat) : Int := signedOf 8 (leAt b (8 + 8 * k) 8)

/-- R188: residual j of a map. -/
def mapResid (b : List Byte) (j : Nat) : Int := signedOf 4 (leAt b (56 + 4 * j) 4)

/-- R188: CAL_ID of a map. -/
def mapCalId (b : List Byte) : Nat := leAt b 1080 8

/-- R187: the value of a map at position `p`, 0.1 µm. -/
def mapX (b : List Byte) (p : Int) : Int :=
  let c : Int := mapWidth b
  let h := 128 * c
  let z := ((p - h) * 2 ^ 31) / h
  let x := [4, 3, 2, 1, 0].foldl (fun x k => (x * z + 2 ^ 30) / 2 ^ 31 + mapCoeff b k) (mapCoeff b 5)
  let d := 256 * (c - 1)
  let q := 255 * p
  let j := (q / d).toNat
  let r := if j = 255 then mapResid b 255
    else mapResid b j + ((mapResid b (j + 1) - mapResid b j) * (q % d) + d / 2) / d
  x + r

/-- R187: a value in 0.1 µm as global_x_um. -/
def umOf (x : Int) : Int := (x + 5) / 10

/-- R188, R189: a map fits a port whose row has `c` columns. -/
def mapOk (b : List Byte) (c : Nat) : Bool :=
  b.length == 1092 && leAt b 0 4 == 0x50414d58 && leAt b 6 2 == 0 && leAt b 1088 4 == crc32c (b.take 1088) &&
    mapWidth b == c &&
    (let xs := (List.range c).map (fun (i : Nat) => mapX b (256 * (i : Int)))
     xs.all (fun x => decide (-2147483648 ≤ umOf x) && decide (umOf x ≤ 2147483647)) &&
       (xs.zip (xs.drop 1)).all (fun x => decide (10 ≤ x.2 - x.1) && decide (x.2 - x.1 ≤ 1000000)))

/-- R193: the smallest integer column of a map whose value is at least `x`; none where no column is. -/
def seamColumn (b : List Byte) (x : Int) : Option Nat :=
  (List.range (mapWidth b)).find? (fun c => decide (x ≤ mapX b (256 * c)))

/-- The live map of port `p`. -/
def State.portMap (s : State) (p : Nat) : List Byte := s.rdBlob Obj.ST_MAP p

/-- R189: a write of `ST_MAP`: checked against the layout written last, staged until PREOP's exit, or refused, as a map of the
wrong length is. -/
def execStMapWrite (t : Nat) (path : Path) (p : Fin 12) (blob : List Byte) (s : State) : Result :=
  let s := (s.at t).touch path
  let k := Obj.ST_MAP.key p 0
  match s.checkAccess path Obj.ST_MAP p 0 blob.length with
  | 0 =>
    if mapOk blob (rowWidth (s.lastN Obj.CAM_LAYOUT p) (s.lastN Obj.CAM_WIDTH p)) then
      .next ((s.stageBlob Obj.ST_MAP p 0 blob).answer path k 0)
    else .next ((s.raise .ST_MAP_REFUSED (Obj.ST_MAP.ident p)).answer path k 5)
  | r =>
    let s := if r = 6 then s.raise .ST_MAP_REFUSED (Obj.ST_MAP.ident p) else s
    .next (s.answer path k r)

/-! ## Order, zones and seams (R192, R193) -/

/-- R192: the ports of `ST_ORDER` up to its end, from its elements. -/
def orderPorts (l : List Int) : List Nat := (l.takeWhile (fun v => v != 255)).map Int.toNat

/-- R192: the live order of the unit's ports, west to east. -/
def State.order (s : State) : List Nat := orderPorts (s.rdList Obj.ST_ORDER 0 12)

/-- R20, R192: a chord port is connected: a far end has said HELLO since reset (log entry 21). -/
def State.connected (s : State) (k : Nat) : Bool := (s.chp k).peer.isSome

/-- R192: the first seam of a list, west to east, that does not lie above the seam before it: the object that holds it. -/
def seamOutOfOrder (l : List (Int × Nat)) : Option Nat :=
  match l with
  | a :: b :: r => if a.1 < b.1 then seamOutOfOrder (b :: r) else some b.2
  | _ => none

/-- R192: the seam at `x` (0.1 µm) lies in the overlap of two maps and keeps the guard in both. -/
def seamOk (w e : List Byte) (x : Int) (guard : Nat) : Bool :=
  let last := fun (b : List Byte) => mapX b (256 * ((mapWidth b : Int) - 1))
  let lo := max (mapX w 0) (mapX e 0)
  let hi := min (last w) (last e)
  let guarded := fun (b : List Byte) =>
    match seamColumn b lo, seamColumn b x with
    | some first, some c =>
      let after := (seamColumn b (hi + 1)).getD (mapWidth b)
      decide (first + guard ≤ c) && decide (c + guard ≤ after)
    | _, _ => false
  decide (lo ≤ x) && decide (x ≤ hi) && guarded w && guarded e

/-- R192: a unit seam at `x` (0.1 µm) lies in the view of this unit's port and keeps the guard there. The other view is the
neighbour's, which nothing tells to this unit (log entry 223). -/
def unitSeamOk (b : List Byte) (x : Int) (guard : Nat) : Bool :=
  decide (mapX b 0 ≤ x) && decide (x ≤ mapX b (256 * ((mapWidth b : Int) - 1))) &&
    (match seamColumn b x with
     | some c => decide (guard ≤ c) && decide (c + guard ≤ mapWidth b)
     | none => false)

/-- R192: the objects whose settings refuse to leave PREOP, from the values that will be live after the exit. -/
def State.stitchRefusals (s : State) : List Nat :=
  let enabled := (List.range 12).filter (fun p => s.flag Obj.CAM_ENABLE p)
  let map := fun p => s.lastBlob Obj.ST_MAP p
  let bad := (enabled.filter (fun p =>
    !mapOk (map p) (rowWidth (s.lastN Obj.CAM_LAYOUT p) (s.lastN Obj.CAM_WIDTH p)))).map (fun p => Obj.ST_MAP.ident p)
  if s.last Obj.ST_ENABLE = 0 then bad
  else
    let order := orderPorts ((List.range 12).map (fun e => s.last Obj.ST_ORDER 0 e))
    let listed := enabled.all (fun p => order.count p == 1) && order.all (fun p => enabled.contains p)
    let inner := (List.range (order.length - 1)).map (fun i => s.last Obj.ST_SEAM_X 0 i)
    let lines := (if s.connected 0 then [(s.last Obj.ST_WEST_SEAM_X, Obj.ST_WEST_SEAM_X.ident)] else []) ++
      (List.range inner.length).map (fun i => (inner.getD i 0, Obj.ST_SEAM_X.ident 0 i)) ++
      (if s.connected 1 then [(s.last Obj.ST_EAST_SEAM_X, Obj.ST_EAST_SEAM_X.ident)] else [])
    let guard := s.lastN Obj.ST_SEAM_GUARD
    let out := ((List.range (order.length - 1)).filter (fun i =>
      !seamOk (map (order.getD i 0)) (map (order.getD (i + 1) 0)) (10 * inner.getD i 0) guard)).map
        (fun i => Obj.ST_SEAM_X.ident 0 i)
    let sideCheck := fun (k : Nat) (o : ObjRow) (p : Option Nat) =>
      match p with
      | some p => if s.connected k && !unitSeamOk (map p) (10 * s.last o) guard then [o.ident] else []
      | none => []
    bad ++ (if listed then [] else [Obj.ST_ORDER.ident]) ++ (seamOutOfOrder lines).toList ++
      (if bad.isEmpty && listed then
        out ++ sideCheck 0 Obj.ST_WEST_SEAM_X order.head? ++ sideCheck 1 Obj.ST_EAST_SEAM_X order.getLast? else [])

/-- R192, R193, R209: the settings are live: seam columns and map CAL_IDs; stitching starts empty. -/
def State.stitchArm (s : State) : State :=
  let on := s.flag Obj.ST_ENABLE
  let order := s.order
  let n := order.length
  let s := (List.range 12).foldl (fun s p =>
    let m := s.portMap p
    let k := order.idxOf p
    let here := on && decide (k < n) && !m.isEmpty
    let line := fun (w : Bool) =>
      if w then (if k = 0 then (if s.connected 0 then some (s.rd Obj.ST_WEST_SEAM_X) else none)
        else some (s.rd Obj.ST_SEAM_X 0 (k - 1)))
      else (if k + 1 = n then (if s.connected 1 then some (s.rd Obj.ST_EAST_SEAM_X) else none)
        else some (s.rd Obj.ST_SEAM_X 0 k))
    let col := fun (w : Bool) =>
      match here, line w with
      | true, some x => (seamColumn m (10 * x)).getD 65535
      | _, _ => 65535
    ((s.putN Obj.ST_SEAM_COL_W 0 p (col true)).putN Obj.ST_SEAM_COL_E 0 p (col false)).putN Obj.ST_MAP_CAL_ID 0 p
      (if m.isEmpty then 0 else mapCalId m)) s
  let s := s.putN Obj.ST_WAIT_MAX_SEEN 0 0 0
  { s with st := { s.st with groups := [] }, judged := [] }

/-- R207: the chord port over which port `p` is lent. -/
def State.lentOver (s : State) (p : Nat) : Option Nat := [0, 1].find? (fun k => look s.st.lent none k == some p)

/-- R207: the port of the order on a side of a seam. -/
def State.orderSide (s : State) (seam : Nat) (west : Bool) : Option Nat :=
  if !west then s.order[seam]? else if seam = 0 then none else s.order[seam - 1]?

/-- R207: the port served over chord port `k` meets this unit's end port: their seam is a camera seam. -/
def State.servedMeets (s : State) (k : Nat) : Bool :=
  if k = 0 then s.rd Obj.ST_EAST_SEAM_X 0 12 == s.rd Obj.ST_WEST_SEAM_X else s.rd Obj.ST_WEST_SEAM_X 0 13 == s.rd Obj.ST_EAST_SEAM_X

/-- R205, R207: the number of a seam of port `p`, and the chord port that leads to its other side; none for a camera seam. The
seam with a port that is lent is a unit seam, and one with a port that is served a camera seam. -/
def State.seamOf (s : State) (p : Nat) (west : Bool) : Nat × Option Nat :=
  let n := s.order.length
  if p < 12 then
    let k := s.order.idxOf p
    let j := if west then k else k + 1
    (j, match s.orderSide j west with
      | some q => s.lentOver q
      | none =>
        let e := if west then 0 else 1
        if (look s.st.served none e).isSome && s.servedMeets e then none else some e)
  else if p = 12 then
    if !west && s.servedMeets 0 then (0, none)
    else (if west then 200 else 201, some 0)
  else
    if west && s.servedMeets 1 then (n, none)
    else (if west then 202 else 203, some 1)

/-- R192, R207: the line of a seam of port `p`, µm. -/
def State.seamLine (s : State) (p : Nat) (west : Bool) : Int :=
  let k := s.order.idxOf p
  if 12 ≤ p then s.rd (if west then Obj.ST_WEST_SEAM_X else Obj.ST_EAST_SEAM_X) 0 p
  else if west then (if k = 0 then s.rd Obj.ST_WEST_SEAM_X else s.rd Obj.ST_SEAM_X 0 (k - 1))
  else if k + 1 = s.order.length then s.rd Obj.ST_EAST_SEAM_X
  else s.rd Obj.ST_SEAM_X 0 k

/-- R199: the port on a side of a seam that this unit's pipelines serve; none where the neighbour's unit is. -/
def State.sidePort (s : State) (seam : Nat) (west : Bool) : Option Nat :=
  let here := fun (p : Option Nat) => p.filter (fun p => (s.lentOver p).isNone)
  if seam = 200 then (if west then none else some 12)
  else if seam = 201 then (if west then some 12 else none)
  else if seam = 202 then (if west then none else some 13)
  else if seam = 203 then (if west then some 13 else none)
  else if west then
    (if seam = 0 then (if (look s.st.served none 0).isSome && (s.seamOf 12 false).1 == 0 then some 12 else none)
     else here (s.orderSide seam true))
  else
    match s.orderSide seam false with
    | some p => here (some p)
    | none => if (look s.st.served none 1).isSome && (s.seamOf 13 true).1 == seam then some 13 else none

/-- R199, R201: the chord port whose WATERMARK tells of the far side of a seam. -/
def State.seamLink (s : State) (seam : Nat) : Option Nat :=
  if seam = 200 || seam = 201 then some 0
  else if seam = 202 || seam = 203 then some 1
  else if ((s.orderSide seam true).bind s.lentOver).isSome then (s.orderSide seam true).bind s.lentOver
  else if ((s.orderSide seam false).bind s.lentOver).isSome then (s.orderSide seam false).bind s.lentOver
  else if (s.sidePort seam true).isNone then some 0
  else if (s.sidePort seam false).isNone then some 1
  else none

/-! ## Halves (R193 to R196) -/

/-- R193: the region that is a port's primary half. -/
def State.primaryRegion (s : State) (p : Nat) : Nat := if s.seamW p = 65535 then 0 else 1

/-- R196, R202: HALF_SLOPE of a map at position `p`: its slope over one column centred there, 2⁻¹⁶ µm per column (log
entry 22). -/
def mapSlope (b : List Byte) (p : Int) : Nat :=
  let top := 256 * ((mapWidth b : Int) - 1)
  let lo := max 0 (p - 128)
  let hi := min top (p + 128)
  (rnd ((mapX b hi - mapX b lo) * 65536 * 256) (10 * (hi - lo))).toNat

/-- R354: the identity of a closed part. -/
def SgObj.partId (o : SgObj) : PartId :=
  { port := o.port, first := o.first, anchor := o.anchorCol, index := o.part, last := o.last
    lo := o.acc.minCol.getD 0, hi := o.acc.maxCol }

/-- R194, R196, R202: what accumulator `a` of a closed part makes of it: the whole part, or its primary half, whose lines, anchor
and sums are its own. Where it holds no object site the part's lines stand, and the centroid has no stated value: a free one. -/
def State.halfWith (s : State) (o : SgObj) (a : Acc) (edge : Nat) : Half :=
  let p := o.port
  let m := s.portMap p
  let first := a.firstL.getD o.first
  let anchor := if a.firstL.isSome then a.anchor else o.anchorCol
  let centre := openRnd s.free (256 * a.sc) a.area
  { port := p, group := o.group, epoch := o.epoch, first := first, last := if a.firstL.isSome then a.lastL else o.last,
    firstTime := (s.trigTime (markGroup p o.group) first).getD 0, closeLine := o.closeLine, closeTime := o.closeTime, left := s.now,
    contacts := o.contacts.map (fun c => { seam := (s.seamOf p (!c.east)).1, west := c.east, first := c.first, last := c.last }),
    x := mapX m centre, centre := centre, slope := mapSlope m centre, acc := a.shift (first - o.first),
    edge := edgeWord (edge % 128) o.part a.other o.overflow, part := o.part, result := o.result, anchorCol := anchor,
    anchorX := umOf (mapX m (256 * anchor)), replayed := o.replayed, whole := o.partId, pipe := o.pipe }

/-- R194, R196: the primary half of a closed part. -/
def State.halfOf (s : State) (o : SgObj) : Half :=
  let i := s.primaryRegion o.port
  let a := if o.regions.isEmpty then o.acc else o.regions.getD i {}
  s.halfWith o a (withBit (withBit (withBit o.edge edgeTruncated (o.cut.getD i false)) edgeLeft (a.minCol == some 0)) edgeRight
    (a.minCol.isSome && a.maxCol + 1 == s.camC o.port))

/-- R195: two contacts lie on opposite sides of one seam and overlap when widened. -/
def contactsMeet (m : Nat) (a b : SeamContact) : Bool :=
  a.seam == b.seam && a.west != b.west && decide (a.first ≤ b.last + 2 * m) && decide (b.first ≤ a.last + 2 * m)

/-- R195: two candidates are partners. -/
def partners (m : Nat) (a b : Half) : Bool := a.contacts.any (fun x => b.contacts.any (contactsMeet m x))

/-! ## Objects for the verdict (R194, R198, R205) -/

/-- R298: FLAGS from EDGE and the result, with what stitching adds. -/
def objectFlags (edge : Nat) (r : TrackResult) (replayed : Bool) (extra : Nat) : Nat :=
  let pick := fun (b i : Nat) (w : Nat) => if edge.testBit b then withBit w i true else w
  let w := pick 0 0 (pick 4 3 (pick 3 4 (pick 7 8 (pick 5 9 (pick 6 10 extra)))))
  let w := if r.source = 1 || r.source = 2 then withBit w 5 true else w
  if replayed then withBit w 6 true else w

/-- R299: the bit of a half in CAMERA_MASK. -/
def Half.maskBit (h : Half) : Nat :=
  match h.link with
  | some 0 => 2 ^ 12
  | some _ => 2 ^ 13
  | none => if h.port < 12 then 2 ^ h.port else 2 ^ 14


/-- R230: an object joins those that wait for the acceptor; in one cycle the lower port goes first, lent ports last. -/
def State.toVerdict (s : State) (j : Judged) : State :=
  let j := { j with arrived := s.now }
  { s with judged := sortBy (fun (a b : Judged) =>
      decide (a.arrived < b.arrived) || (a.arrived == b.arrived && decide (a.port ≤ b.port))) (s.judged ++ [j]) }

/-- R194, R204: a half or a whole part as an object of its own. -/
def State.ownObject (s : State) (h : Half) (extra wait : Nat) (widen : Option (Int × Int)) : State :=
  let q := s.facets h.port h.group h.acc h.result h.first h.last h.edge h.part
  let m := s.portMap h.port
  let x := fun (c : Nat) => umOf (mapX m (256 * c))
  let extra := if h.port < 12 then extra else withBit extra 7 true
  q.1.toVerdict {
    port := h.port, group := h.group, epoch := h.epoch, first := h.first, last := h.last, firstTime := h.firstTime,
    closeLine := h.closeLine, closeTime := h.closeTime, anchorCol := h.anchorCol, acc := h.acc, facets := q.2,
    flags := objectFlags h.edge h.result h.replayed extra, mask := h.maskBit, result := h.result,
    centroid := umOf (mapX m (q.2.getD 12 0)), west := x (h.acc.minCol.getD 0),
    east := x h.acc.maxCol, wait := wait, pipe := h.pipe, widen := widen, parts := [h.whole] }

/-- R199: a wait is recorded. -/
def State.noteWait (s : State) (w : Nat) : State :=
  s.putN Obj.ST_WAIT_MAX_SEEN 0 0 (min 4294967295 (max (s.rdN Obj.ST_WAIT_MAX_SEEN) w))

/-- R204, R205: this unit's halves of a group become objects of their own; with policy 3 an order reaches to the unit seam
line. -/
def State.splitResolve (s : State) (halves : List Half) : State :=
  (halves.filter (fun h => h.link.isNone)).foldl (fun s h =>
    let policy := s.rdEpochN h.group h.epoch Obj.ST_PARTIAL_POLICY
    let m := s.portMap h.port
    let lo := umOf (mapX m (256 * h.acc.minCol.getD 0))
    let hi := umOf (mapX m (256 * h.acc.maxCol))
    let w := h.contacts.any (fun c => !c.west && (s.seamOf h.port true).2.isSome && c.seam == (s.seamOf h.port true).1)
    let e := h.contacts.any (fun c => c.west && (s.seamOf h.port false).2.isSome && c.seam == (s.seamOf h.port false).1)
    let widen := if policy = 3 && (w || e) then
        some (if w then min lo (s.seamLine h.port true) else lo, if e then max hi (s.seamLine h.port false) else hi)
      else none
    ((s.ownObject h 4 (s.now - h.left) widen).count Obj.ST_PARTIAL_OBJECTS 0 0 1).noteWait (s.now - h.left)) s

/-! ## Candidates and groups (R194, R195, R201, R202) -/

/-- R195: a half joins the groups that hold its partners; a group it would fill beyond four leaves it alone. -/
def State.joinGroup (s : State) (h : Half) : State :=
  let m := s.rdN Obj.ST_MATCH_NS
  let meets := fun (g : SeamGroup) => g.waiting.isNone && g.halves.any (partners m h)
  let met := s.st.groups.filter meets
  let all := met.flatMap (fun g => g.halves) ++ [h]
  if 4 < all.length then
    (s.count Obj.ST_GROUP_LIMIT 0 0 1).splitResolve [h]
  else
    { s with st := { s.st with
        groups := s.st.groups.filter (fun g => !meets g) ++ [{
          halves := all, closed := s.now, cutOff := met.any (fun g => g.cutOff) }] } }

/-- R207: the camera port an object's port is: its own, or the home port served over a chord link. -/
def State.homePort (s : State) (p : Nat) : Nat :=
  if p < 12 then p else (look s.st.served none (p - 12)).getD 0

/-- R202: the part summary of a half with PART_ID `id`; SEAM is 0 at the west unit seam and 1 at the east. -/
def summaryBytes (h : Half) (id : Nat) (c : SeamContact) (east : Bool) : List Byte :=
  let i := fun (n : Nat) (v : Int) => toLe n (unsignedOf n v)
  let slots := sortBy slotBefore h.acc.slots
  let body :=
    toLe 8 id ++ toLe 8 h.firstTime ++ toLe 8 c.first ++ toLe 8 c.last ++ i 4 h.x ++ toLe 4 h.slope ++
    toLe 4 h.acc.area ++ toLe 4 (h.last + 1 - h.first) ++
    i 8 h.acc.sc ++ i 8 h.acc.sl ++ i 8 h.acc.scc ++ i 8 h.acc.sll ++ i 8 h.acc.scl ++
    toLe 8 h.acc.su ++ toLe 8 h.acc.sv ++ toLe 8 h.acc.sw ++
    toLe 4 h.acc.defect ++ toLe 4 h.acc.perim ++ toLe 4 h.acc.sat ++ toLe 4 h.acc.subst ++ toLe 4 h.acc.attach ++
    toLe 4 h.acc.other ++ toLe 2 (h.acc.minCol.getD 0) ++ toLe 2 h.acc.maxCol ++ toLe 1 h.acc.severity ++
    toLe 1 (h.edge % 256) ++ toLe 1 slots.length ++ toLe 1 (min 255 h.part) ++
    (List.range 8).flatMap (fun k => toLe 4 ((slots[k]?).elim 0 (fun x => x.area))) ++
    (List.range 8).flatMap (fun k => toLe 1 ((slots[k]?).elim 0 (fun x => x.cls))) ++
    i 4 h.anchorX ++ toLe 4 h.result.packed ++ toLe 4 h.result.speed ++ toLe 1 h.port ++ toLe 1 (boolNat east) ++ toLe 2 0
  body ++ toLe 4 (crc32c body)

/-- R199, R201: up to which trigger time segmentation of port `p` has come at one of its seams: no object that is still open has a
contact that begins earlier. -/
def State.sideProgress (s : State) (p : Nat) (east : Bool) : Nat :=
  let g := s.sgp p
  (g.objs ++ g.done).foldl (fun t o =>
    o.contacts.foldl (fun t c => if c.east = east then min t (c.first - 1) else t) t) g.time

/-- R182, R354: port `p` will produce again what its pipeline lost: its island is in reset, or a failover is to come. -/
def State.restarting (s : State) (p : Nat) : Bool :=
  let q := s.pipelineOf p
  s.lining && (s.cont.faults.any (fun f => f.port == p) ||
    (decide (q < 13) && (s.rdN Obj.ISLAND_STATE 0 (2 + q) == 2 || s.rdN Obj.ISLAND_STATE 0 (2 + q) == 4)))

/-- R199, R201, R354: up to which trigger time a port has finished segmenting at one of its seams. A port whose segmentation has
stopped has finished with every line; for one that is to restart, others wait. -/
def State.portProgress (s : State) (p : Nat) (east : Bool) : Nat :=
  if !s.bit Obj.SG_STATUS p 0 sgActive && (s.sgp p).done.isEmpty && !s.restarting p then 2 ^ 64 else s.sideProgress p east

/-- R201, R207: the WATERMARK the unit can give on chord port `k`: the least progress of its ports at the seams that `k` leads
to. -/
def State.ownMark (s : State) (k : Nat) : Nat :=
  let mine := s.order.filter (fun p => (s.lentOver p).isNone) ++
    [0, 1].filterMap (fun j => if (look s.st.served none j).isSome then some (12 + j) else none)
  let sides := mine.flatMap (fun p => [true, false].filterMap (fun west =>
    if (s.seamOf p west).2 = some k then some (s.portProgress p (!west)) else none))
  sides.foldl min (2 ^ 64)

/-- R201: a WATERMARK goes out. -/
def State.sendMark (s : State) (k : Nat) : State :=
  let s := s.chordSend k 1 1 (toLe 8 (min (2 ^ 64 - 1) (s.ownMark k)))
  { s with st := { s.st with sentAt := store s.st.sentAt 0 k s.now } }

/-- R201, R202: a candidate at a unit seam is sent as a SUMMARY on each chord port that leads to one of its seams while
traffic runs there, with a WATERMARK. -/
def State.sendSummaries (s : State) (h : Half) : State × Half :=
  [true, false].foldl (fun acc west =>
    let q := acc.1.seamOf h.port west
    match q.2, acc.2.contacts.find? (fun c => c.seam == q.1 && c.west != west) with
    | some k, some c =>
      if acc.1.seamTraffic k then
        let id := look acc.1.st.nextId 0 k
        let s := { acc.1 with st := { acc.1.st with nextId := store acc.1.st.nextId 0 k (id + 1) } }
        let h := { acc.2 with ids := acc.2.ids ++ [(k, id)] }
        ((s.chordSend k 1 0 (summaryBytes { h with port := s.homePort h.port } id c (!west))).sendMark k, h)
      else acc
    | _, _ => acc) (s, h)

/-- R194: a part that has left segmentation is an object of its own, is discarded, loses its beyond half, or becomes a
candidate. -/
def State.stitchPart (s : State) (o : SgObj) : State :=
  let h := s.halfOf o
  let s := if h.acc.area = 0 then s.drawn else s
  let sites := fun (a : Acc) => a.area + a.attach
  let i := s.primaryRegion o.port
  let beyond := (o.regions.zipIdx).any (fun x => x.2 != i && sites x.1 != 0)
  if o.contacts.isEmpty && !beyond then s.ownObject (s.halfWith o o.acc o.edge) 0 0 none
  else if sites h.acc = 0 then s.count Obj.ST_BEYOND_DROPPED 0 0 1
  else if o.contacts.isEmpty then (s.count Obj.ST_BEYOND_DROPPED 0 0 1).ownObject h 0 0 none
  else
    let q := s.sendSummaries h
    q.1.joinGroup q.2

/-- R353, R354: a spare replays the lines of port `p` and has not caught up (`RV_PIPE_STATE` 5). -/
def State.replaying (s : State) (p : Nat) : Bool := s.rdN Obj.RV_PIPE_STATE 0 (s.pipelineOf p) == 5

/-- R354: a replayed part is a duplicate of a part that was accepted, merged or yielded: by its identity, or as what the
cut at line `r` left of it. -/
def State.duplicatePart (s : State) (o : SgObj) : Bool :=
  let cutAt := (look s.cont.failover none o.port).bind (fun f => if f.cut then some f.restart else none)
  s.cont.kept.any (fun k => k.port == o.port &&
    ((k.first == o.first && k.anchor == o.anchorCol && k.index == o.part) ||
      (cutAt == some o.first && o.edge.testBit edgeTruncated && decide (k.first ≤ o.first) && decide (o.first ≤ k.last) &&
        o.head.any (fun h => decide (h.1 ≤ k.hi + 1) && decide (k.lo ≤ h.2 + 1)))))

/-- R181, R194, R354: the oldest closed part of a port leaves segmentation. A duplicate is discarded before stitching. -/
def execObjectLeaveSeg (t : Nat) (p : Fin 14) (s : State) : Result :=
  let s := s.at t
  match s.segLeave p with
  | none => .next s
  | some (s, o, _) =>
    if !s.replaying p then .next (s.stitchPart o)
    else if s.duplicatePart o then .next (s.count Obj.RV_REPLAY_DUPLICATES 0 0 1)
    else .next (s.stitchPart { o with replayed := true })

/-- R202: the half a SUMMARY describes, received on chord port `k` at seam `seam`, of which it lies `west`. A SUMMARY does not tell
the trigger time of its part's closing line, which R235 asks for: CONTACT_LAST stands for it (log entry 266). -/
def halfOfSummary (b : List Byte) (k seam now : Nat) (west : Bool) : Half :=
  let i := fun (o n : Nat) => signedOf n (leAt b o n)
  let area := leAt b 40 4
  let reg := leAt b 188 4
  let n := b.getD 142 0
  { link := some k, ids := [(k, leAt b 0 8)], port := b.getD 196 0, group := 0, epoch := 0, first := 0,
    last := leAt b 44 4 - 1, firstTime := leAt b 8 8, closeLine := 0, closeTime := leAt b 24 8, left := now,
    contacts := [{ seam := seam, west := west, first := leAt b 16 8, last := leAt b 24 8 }],
    x := i 32 4, centre := rnd (256 * i 48 8) (max 1 area : Nat), slope := leAt b 36 4,
    acc := {
      area := area, defect := leAt b 112 4, severity := b.getD 140 0, perim := leAt b 116 4, sat := leAt b 120 4,
      subst := leAt b 124 4, attach := leAt b 128 4, other := leAt b 132 4, minCol := some (leAt b 136 2),
      maxCol := leAt b 138 2, sc := i 48 8, sl := i 56 8, scc := i 64 8, sll := i 72 8, scl := i 80 8,
      su := leAt b 88 8, sv := leAt b 96 8, sw := leAt b 104 8,
      slots := (List.range (min 8 n)).map (fun j =>
        { cls := b.getD (176 + j) 0, area := leAt b (144 + 4 * j) 4, severity := 0 }) },
    edge := b.getD 141 0, part := b.getD 143 0,
    result := { firstLine := 0, d16 := reg / 65536, speed := leAt b 192 4, confidence := (reg / 256) % 256,
                reason := (reg / 16) % 16, source := reg % 4 },
    anchorCol := 0, anchorX := i 184 4 }

/-- R202, R207: the seam a SUMMARY of a half at `x` (0.1 µm) on chord port `k` stands at, and whether the half lies west of it:
the unit seam, a seam of the port that is served for that neighbour, or one of the port that is lent to it. Where the SEAM bit
fits two of them the half's place tells which (log entry 224). -/
def State.summarySeam (s : State) (k : Nat) (east : Bool) (x : Int) : Nat × Bool :=
  let served := (look s.st.served none k).isSome
  let line := fun (p : Nat) (west : Bool) => 10 * s.seamLine p west
  match look s.st.lent none k with
  | some p =>
    let j := s.order.idxOf p
    if k = 0 then (if !east then (j, false) else if line p true ≤ x then (j + 1, true) else (0, true))
    else if east then (j + 1, true)
    else if x < line p false then (j, false)
    else (s.order.length, false)
  | none =>
    if k = 0 then
      if served && !east then (201, false)
      else if served && decide (x < line 12 true) then (200, true)
      else (0, true)
    else
      if served && east then (202, true)
      else if served && decide (line 13 false ≤ x) then (203, false)
      else (s.order.length, false)

/-- R201, R202: a SUMMARY arrives. A summary of the wrong length or CRC is no summary; while traffic is stopped none is taken. -/
def execSummary (t : Nat) (link : Fin 2) (payload : List Byte) (s : State) : Result :=
  let s := s.at t
  if !s.seamTraffic link || payload.length ≠ 204 || leAt payload 200 4 ≠ crc32c (payload.take 200) then .next s
  else
    let q := s.summarySeam link (payload.getD 197 0 == 1) (signedOf 4 (leAt payload 32 4))
    .next (s.joinGroup (halfOfSummary payload link q.1 s.now q.2))

/-- R201: the peer's progress. -/
def execWatermark (t : Nat) (link : Fin 2) (time : Nat) (s : State) : Result :=
  let s := s.at t
  .next { s with st := { s.st with marks := store s.st.marks 0 link (max time (look s.st.marks 0 link)) } }

/-- R201: at least every 10 µs the unit sends its progress. -/
def execWatermarkSend (t : Nat) (link : Fin 2) (s : State) : Result :=
  let s := s.at t
  if s.seamTraffic link && decide (look s.st.sentAt 0 link + 10000 ≤ s.now) then .next (s.sendMark link) else .next s

/-! ## Resolution (R196, R197, R199, R203, R204) -/

/-- R199: a group's latest contact end and the match widening. -/
def State.groupEnd (s : State) (g : SeamGroup) : Nat :=
  (g.halves.flatMap (fun h => h.contacts)).foldl (fun m c => max m c.last) 0 + s.rdN Obj.ST_MATCH_NS

/-- The seams a group touches. -/
def SeamGroup.seams (g : SeamGroup) : List Nat := ((g.halves.flatMap (fun h => h.contacts)).map (fun c => c.seam)).eraseDups

/-- R199: the ports on the sides of the group's seams have finished past its end. -/
def State.camerasDone (s : State) (g : SeamGroup) : Bool :=
  let e := s.groupEnd g
  g.seams.all (fun j => [true, false].all (fun west =>
    match s.sidePort j west with
    | some p => decide (e ≤ s.portProgress p west)
    | none => true))

/-- R199: the peers' watermarks have passed the group's end. -/
def State.peersDone (s : State) (g : SeamGroup) : Bool :=
  g.seams.all (fun j =>
    match s.seamLink j with
    | some k => decide (s.groupEnd g ≤ look s.st.marks 0 k)
    | none => true)

/-- R200, R204: traffic is stopped at a unit seam the group touches, or stopped there when a loan ended (R207). -/
def State.groupStopped (s : State) (g : SeamGroup) : Bool :=
  g.seams.any (fun j =>
    match s.seamLink j with
    | some k => !s.seamTraffic k
    | none => g.cutOff)

/-- R196: the centroid of a group, 0.1 µm; without any object site it has no stated value: a free one. -/
def State.groupX (s : State) (l : List Half) : Int :=
  openRnd s.free (sumInt (l.map (fun h => (h.acc.area : Int) * h.x))) (sumNat (l.map (fun h => h.acc.area)))

/-- R192, R196: the port of this unit whose primary zone holds `x`, or the chord port towards the unit whose zone does. -/
def State.zoneOf (s : State) (l : List Half) (x : Int) : Sum Nat Nat :=
  let order := s.order
  let west := l.find? (fun h => h.link == some 0)
  let east := l.find? (fun h => h.link == some 1)
  let lineW := if (look s.st.served none 0).isSome && (s.seamOf 12 false).1 == 0 then s.rd Obj.ST_WEST_SEAM_X 0 12
    else s.rd Obj.ST_WEST_SEAM_X
  let lineE := if (look s.st.served none 1).isSome && (s.seamOf 13 true).1 == order.length then s.rd Obj.ST_EAST_SEAM_X 0 13
    else s.rd Obj.ST_EAST_SEAM_X
  if west.isSome && decide (x < 10 * lineW) then .inr 0
  else if east.isSome && decide (10 * lineE ≤ x) then .inr 1
  else
    let lent := l.find? (fun h => h.link.isNone && decide (12 ≤ h.port) &&
      decide (10 * s.rd Obj.ST_WEST_SEAM_X 0 h.port ≤ x) && decide (x < 10 * s.rd Obj.ST_EAST_SEAM_X 0 h.port))
    match lent with
    | some h => .inl h.port
    | none =>
      let n := (List.range (order.length - 1)).filter (fun i => decide (10 * s.rd Obj.ST_SEAM_X 0 i ≤ x))
      let p := order.getD n.length 0
      match s.lentOver p with
      | some k => .inr k
      | none => .inl p

/-- R197 step 1: the line of marks `g` whose trigger time lies nearest `t`, ties going to the earlier line. -/
def State.nearestLine (s : State) (g t : Nat) : Nat :=
  match (s.tg g).marks with
  | [] => 0
  | m :: r =>
    let d := fun (x : TrigMark) => absNat ((x.time : Int) - t)
    (r.foldl (fun a x => if d x < d a || (d x == d a && x.line < a.line) then x else a) m).line

/-- The lowest position in a range for which a rising condition holds, by bisection; `top + 1` where none does. -/
def bisect (f : Int → Bool) (fuel : Nat) (lo hi : Int) : Int :=
  match fuel with
  | 0 => lo
  | n + 1 =>
    if hi ≤ lo then lo
    else
      let mid := (lo + hi) / 2
      if f mid then bisect f n lo mid else bisect f n (mid + 1) hi

/-- R197 step 2: the position of a map whose value lies nearest `x`, the lower of two. -/
def nearestPosition (b : List Byte) (x : Int) : Int :=
  let top := 256 * ((mapWidth b : Int) - 1)
  let up := bisect (fun p => decide (x ≤ mapX b p)) 40 0 (top + 1)
  if up = 0 then 0
  else if top < up || x - mapX b (up - 1) ≤ mapX b up - x then
    let v := mapX b (up - 1)
    bisect (fun p => decide (v ≤ mapX b p)) 40 0 (up - 1)
  else up

/-- R197 step 3: a half's sums in the owner's frame, `d` lines later, with α and β in 2⁻²⁴ (log entry 23). -/
def moveHalf (a : Acc) (d alpha beta : Int) : Acc :=
  let ar : Int := a.area
  let sl := a.sl + d * ar
  let scl := a.scl + d * a.sc
  let one : Int := 2 ^ 24
  let col := fun (c : Nat) => (clampInt 0 4294967295 (rnd (alpha + beta * c) one)).toNat
  { a with
    sl := sl, sll := a.sll + 2 * d * a.sl + d * d * ar
    sc := rnd (alpha * ar + beta * a.sc) one
    scc := rnd (alpha * alpha * ar + 2 * alpha * beta * a.sc + beta * beta * a.scc) (one * one)
    scl := rnd (alpha * sl + beta * scl) one
    minCol := a.minCol.map col, maxCol := col a.maxCol }

/-- R197: what a half becomes in the owner's frame: its first line there, its α and β, and its sums. -/
def State.inFrame (s : State) (owner first : Nat) (h : Half) : Nat × Int × Int × Acc :=
  let m := s.portMap owner
  if h.link.isNone && h.port = owner then (h.first, 0, 2 ^ 24, h.acc.merge {} 0)
  else
    let line := s.nearestLine (markGroup owner (s.portGroup owner)) h.firstTime
    let p := nearestPosition m h.x
    let beta := 256 * rnd (65536 * h.slope) (max 1 (mapSlope m p) : Nat)
    let alpha := (p * 2 ^ 24 - beta * h.centre) / 256
    (line, alpha, beta, moveHalf h.acc ((line : Int) - first) alpha beta)

/-- R197: the anchor of a merged object: the half with the earliest anchor, then the lowest global x. -/
def anchorHalf (l : List Half) : Option Half :=
  match l with
  | [] => none
  | x :: r => some (r.foldl (fun a h =>
      if h.firstTime < a.firstTime || (h.firstTime == a.firstTime && h.anchorX < a.anchorX) then h else a) x)

/-- R198: the map value of a half at a column of its own camera, µm; a neighbour's half gives it by its HALF_X and HALF_SLOPE
(log entry 24). -/
def State.halfX (s : State) (h : Half) (c : Nat) : Int :=
  match h.link with
  | none => umOf (mapX (s.portMap h.port) (256 * c))
  | some _ => umOf (h.x + (10 * (h.slope : Int) * (256 * c - h.centre)) / (256 * 65536))

/-- R31, R176, R202: a SUMMARY names classes alone: the class slots of a neighbour's half are ranked with the class table of the
epoch of the merged object's first line. -/
def Half.rank (h : Half) (table : List Nat) : Half :=
  if h.link.isNone then h
  else { h with acc := { h.acc with
    slots := h.acc.slots.map (fun x => { x with severity := entrySeverity (table.getD x.cls 0) }) } }

/-- R196 to R198: the merged object of a group whose owner is port `owner` of this unit. -/
def State.mergeGroup (s : State) (l : List Half) (owner : Nat) (x : Int) : State :=
  let g := s.portGroup owner
  let lines := l.map (fun h => (s.inFrame owner 0 h).1)
  let first := lines.foldl min (lines.headD 0)
  let mark := s.markOf (markGroup owner g) first
  let epoch := (mark.map (fun m => m.epoch)).getD 0
  let l := l.map (fun h => h.rank (s.classTable g epoch))
  let parts := l.map (fun h => (h, s.inFrame owner first h))
  let acc := parts.foldl (fun (a : Acc) x =>
    let d : Int := if x.1.link.isNone && x.1.port = owner then (x.2.1 : Int) - first else 0
    a.merge x.2.2.2.2 d) {}
  let last := parts.foldl (fun m x => max m (x.2.1 + (x.1.last - x.1.first))) first
  match anchorHalf l with
  | none => s
  | some an =>
    let f := s.inFrame owner first an
    let col := (clampInt 0 65535 (rnd (f.2.1 + f.2.2.1 * an.anchorCol) (2 ^ 24))).toNat
    let edge := l.foldl (fun w h => w ||| h.edge) 0
    let edge := withBit edge edgeContinued (an.edge.testBit edgeContinued)
    let edge := withBit (withBit edge 5 (an.part != 0)) 7 (acc.other != 0)
    let q := s.facets owner g acc an.result first last edge an.part
    let wests := l.map (fun h => s.halfX h (h.acc.minCol.getD 0))
    let easts := l.map (fun h => s.halfX h h.acc.maxCol)
    let merged := decide (1 < l.length)
    let lent := l.any (fun h => h.link.isNone && decide (12 ≤ h.port))
    let extra := (if merged then 2 else 0) + (if lent then 128 else 0)
    let left := l.map (fun h => h.left)
    let names := fun (k : Nat) => (l.filter (fun h => h.link == some k)).flatMap (fun h =>
      (h.ids.filter (fun i => i.1 == k)).map (fun i => i.2))
    let s := if merged then q.1.count Obj.ST_MERGED 0 0 1 else q.1
    let s := s.noteWait (s.now - left.foldl min (left.headD 0))
    s.toVerdict {
      port := owner, group := g, epoch := epoch, first := first, last := last,
      firstTime := (mark.map (fun m => m.time)).getD an.firstTime,
      closeLine := l.foldl (fun m h => if h.link.isNone then max m h.closeLine else m) 0,
      closeTime := l.foldl (fun m h => max m h.closeTime) 0,
      anchorCol := col, acc := acc, facets := q.2,
      flags := objectFlags edge an.result (l.any (fun h => h.replayed)) extra,
      mask := l.foldl (fun w h => w ||| h.maskBit) 0, result := an.result, centroid := umOf x,
      west := wests.foldl min (wests.headD 0), east := easts.foldl max (easts.headD 0),
      wait := s.now - left.foldl max 0,
      pipe := ((l.find? (fun h => h.link.isNone && h.port == owner)).map (fun h => h.pipe)).getD (s.pipelineOf owner)
      parts := (l.filter (fun h => h.link.isNone)).map (fun h => h.whole),
      taken := ([0, 1].filter (fun k => !(names k).isEmpty)).map (fun k => (k, names k)) }

/-- R204: SEAM_SPLIT at the unit seams among `seams` is raised, or cleared. -/
def State.markSplit (s : State) (seams : List Nat) (on : Bool) : State :=
  seams.foldl (fun s j =>
    match s.seamLink j with
    | none => s
    | some k =>
      let s := s.setBit Obj.ST_STATUS 0 0 (3 + k) on
      if on then s.raise .SEAM_SPLIT (Obj.ST_STATUS.ident) else s) s

/-- A group leaves the list. -/
def State.dropGroup (s : State) (g : SeamGroup) : State :=
  { s with st := { s.st with groups := s.st.groups.erase g } }

/-- R196, R203: a group is resolved by its centroid: merged here, or left to its owner. -/
def State.resolveGroup (s : State) (g : SeamGroup) : State :=
  let x := s.groupX g.halves
  let s := if g.halves.all (fun h => h.acc.area == 0) then s.drawn else s
  match s.zoneOf g.halves x with
  | .inl p => ((s.dropGroup g).mergeGroup g.halves p x).markSplit g.seams false
  | .inr _ =>
    let left := (g.halves.filter (fun h => h.link.isNone)).map (fun h => h.left)
    let s := s.noteWait (s.now - left.foldl min (left.headD s.now))
    { s with st := { s.st with
        groups := s.st.groups.map (fun x => if x = g then { g with waiting := some s.now } else x) } }

/-- R199: the first group that can be resolved is. A group at a unit seam whose traffic is stopped goes to split
resolution (R204). -/
def execGroupResolve (t : Nat) (s : State) : Result :=
  let s := s.at t
  let ready := fun (g : SeamGroup) => g.waiting.isNone && s.camerasDone g && (s.groupStopped g || s.peersDone g)
  match s.st.groups.find? ready with
  | none => .next s
  | some g => .next (if s.groupStopped g then (s.dropGroup g).splitResolve g.halves else s.resolveGroup g)

/-- R204: the peer's watermark has not passed a group's end in time. -/
def execSeamWaitTimeout (t : Nat) (s : State) : Result :=
  let s := s.at t
  let late := fun (g : SeamGroup) => g.waiting.isNone && !s.peersDone g &&
    decide (g.closed + s.rdN Obj.ST_WAIT_MAX_US * 1000 ≤ s.now)
  match s.st.groups.find? late with
  | none => .next s
  | some g =>
    let silent := g.seams.filter (fun j => (s.seamLink j).any (fun k => decide (look s.st.marks 0 k < s.groupEnd g)))
    .next ((((s.dropGroup g).splitResolve g.halves).count Obj.ST_WAIT_TIMEOUTS 0 0 1).markSplit silent true)

/-- R203, R204: no TAKEN has come for halves this unit does not own. -/
def execTakenTimeout (t : Nat) (s : State) : Result :=
  let s := s.at t
  let late := fun (g : SeamGroup) =>
    match g.waiting with
    | some w => decide (w + s.rdN Obj.ST_WAIT_MAX_US * 1000 ≤ s.now)
    | none => false
  match s.st.groups.find? late with
  | none => .next s
  | some g => .next (((s.dropGroup g).splitResolve g.halves).count Obj.ST_WAIT_TIMEOUTS 0 0 1)

/-! ## Target calibration (R190, R191) -/

/-- R190: TARGET_ID of the target. -/
def State.targetId (s : State) : Nat := leAt (s.rdBlob Obj.ST_CAL_TARGET) 8 8

/-- R191: what the fit of a port gives: the matched edges, whether a match lies too far away, the RMS of the final errors and the
sum of their squares, 0.1 µm, and the map's A and RESID. -/
structure CalFit where
  edges     : Nat
  farMatch  : Bool
  rms       : Nat
  squares   : Nat
  coeffs    : List Int
  residuals : List Int
deriving DecidableEq, Repr

/-- R191: the positions, 1/256 column, where the averages of neighbouring columns of the plane cross the midpoint between the
bar level and the plate level, by linear interpolation. `sums` holds the sum and number of values by column, `levels` the two
levels there; a column without a value is passed over. -/
def edgePositions (sums levels : List (Nat × Nat)) : List Int :=
  let mid := fun (c : Nat) => let l := levels.getD c (0, 0); ((l.1 + l.2 : Nat) : Int)
  let cols := (sums.zipIdx).filterMap (fun x =>
    if x.1.2 = 0 then none else some ((x.2 : Int), (x.1.2 : Int), 2 * (x.1.1 : Int) - x.1.2 * mid x.2))
  (cols.zip (cols.drop 1)).filterMap (fun x =>
    let a := x.1.2.2 * x.2.2.1
    let b := x.2.2.2 * x.1.2.1
    if decide (a < 0) == decide (b < 0) then none
    else
      let num := 256 * (x.2.1 - x.1.1) * a
      some (256 * x.1.1 + if b < a then rnd num (a - b) else rnd (-num) (b - a)))

/-- R191: the place of the value nearest `x` in a list, the first of two. -/
def nearestIn (l : List Int) (x : Int) : Nat :=
  (List.range l.length).foldl (fun k i => if absNat (l.getD i 0 - x) < absNat (l.getD k 0 - x) then i else k) 0

/-- R191: the local spacing of the target's edges at edge `i`: the smaller of the gaps to its neighbours (log entry 226). -/
def edgeGap (l : List Int) (i : Nat) : Int :=
  let west := if i = 0 then none else some (l.getD i 0 - l.getD (i - 1) 0)
  let east := if i + 1 < l.length then some (l.getD (i + 1) 0 - l.getD i 0) else none
  match west, east with
  | some a, some b => min a b
  | some a, none => a
  | none, some b => b
  | none, none => 0

/-- The determinant of the square matrix of the first `n` rows, by its first column; of the empty matrix 1. -/
def determinant (n : Nat) (rows : List (List Int)) : Int :=
  match n with
  | 0 => 1
  | k + 1 => sumInt ((List.range (k + 1)).map (fun i =>
      (if i % 2 = 0 then 1 else -1) * ((rows.getD i []).headD 0) *
        determinant k ((rows.eraseIdx i).map (fun r => r.drop 1))))

/-- R191: A[0] to A[5] by least squares in z, from z in 2⁻³¹ and x in 0.1 µm of each edge: the solution of the normal equations,
each rounded once (log entry 227). -/
def leastSquares (pts : List (Int × Int)) : List Int :=
  let power := fun (n : Nat) => sumInt (pts.map (fun x => x.1 ^ n))
  let value := fun (n : Nat) => sumInt (pts.map (fun x => x.1 ^ n * x.2))
  let m := fun (k : Option Nat) => (List.range 6).map (fun i =>
    (List.range 6).map (fun j => if k = some j then value i else power (i + j)))
  let d := determinant 6 (m none)
  (List.range 6).map (fun k => if 0 < d then rnd (determinant 6 (m (some k)) * 2 ^ (31 * k)) d else 0)

/-- R191: RESID: the mean fit error of the edges nearest each of the 256 points, between points that have edges linear
interpolation, at either end the value of the nearest such point. `errors` holds the point and the error of each edge. -/
def residualsOf (errors : List (Nat × Int)) : List Int :=
  let at' := fun (j : Nat) =>
    let l := (errors.filter (fun e => e.1 = j)).map (fun e => e.2)
    if l.isEmpty then none else some (rnd (sumInt l) l.length)
  let means := (List.range 256).map at'
  let get := fun (j : Nat) => means.getD j none
  (List.range 256).map (fun j =>
    let below := ((List.range (j + 1)).reverse).find? (fun i => (get i).isSome)
    let above := ((List.range (256 - j)).map (fun i => j + i)).find? (fun i => (get i).isSome)
    match below, above with
    | some a, some b =>
      let u := (get a).getD 0
      if a = b then u else u + rnd (((get b).getD 0 - u) * ((j : Int) - a)) ((b : Int) - a)
    | some a, none => (get a).getD 0
    | none, some b => (get b).getD 0
    | none, none => 0)

/-- R188, R191: the map blob of a fit. -/
def fitMap (c id : Nat) (fit : CalFit) : List Byte :=
  let body := toLe 4 0x50414d58 ++ toLe 2 c ++ toLe 2 0 ++
    (List.range 6).flatMap (fun k => toLe 8 (unsignedOf 8 (fit.coeffs.getD k 0))) ++
    (List.range 256).flatMap (fun j => toLe 4 (unsignedOf 4 (fit.residuals.getD j 0))) ++ toLe 8 id
  body ++ toLe 4 (crc32c body)

/-- R191: the calibration starts on every enabled port. -/
def State.calStart (s : State) : State :=
  let s := { s.putN Obj.ST_CAL_STATE 0 0 1 with
    st := { s.st with calDone := [], calBad := false, calSums := [], calLines := [] } }
  let s := (List.range 12).foldl (fun s p => s.calWatch (Obj.ST_MAP.key p 0)) s
  s.setQueue (s.cal.queue.map (fun (r : CalRequest) => if r.task = 3 then { r with started := true } else r))

/-- R191: `ST_CAL_CMD` = 1, accepted in ARMED only. -/
def execStCalStart (t : Nat) (path : Path) (s : State) : Result :=
  let s := (s.at t).touch path
  let k := Obj.ST_CAL_CMD.key 0 0
  match s.checkAccess path Obj.ST_CAL_CMD 0 0 1 with
  | 0 =>
    if s.mode ≠ stArmed then .next (s.answer path k 4)
    else
      match s.calEnqueue { task := 3, target := 0, forced := false, due := s.calDue 0, left := [0] } with
      | none => .next (s.answer path k 8)
      | some s => .next ((if s.rdN Obj.ST_CAL_STATE = 1 then s else s.calStart).answer path k 0)
  | r => .next (s.answer path k r)

/-- R191, R209: `ST_CAL_CMD` = 2: a running calibration ends. -/
def execStCalCancel (t : Nat) (path : Path) (s : State) : Result :=
  let s := (s.at t).touch path
  let k := Obj.ST_CAL_CMD.key 0 0
  match s.checkAccess path Obj.ST_CAL_CMD 0 0 1 with
  | 0 => .next ((if s.rdN Obj.ST_CAL_STATE = 1 then (s.putN Obj.ST_CAL_STATE 0 0 0).calDone 3 0 else s).answer path k 0)
  | r => .next (s.answer path k r)

/-- R190: the edge positions of the target, 0.1 µm. -/
def State.targetEdges (s : State) : List Int :=
  let b := s.rdBlob Obj.ST_CAL_TARGET
  (List.range (leAt b 4 2)).map (fun i => 10 * signedOf 4 (leAt b (16 + 4 * i) 4))

/-- R191: the fit of port `p` from the averages of its columns, with the bar level and the plate level of each (log entry 25). -/
def State.targetFit (s : State) (p : Nat) (levels : List (Nat × Nat)) : CalFit :=
  let c : Int := s.camC p
  let h := 128 * c
  let d := 256 * (c - 1)
  let live := s.portMap p
  let edges := s.targetEdges
  let found := (edgePositions (look s.st.calSums [] p) levels).map (fun q =>
    let i := nearestIn edges (mapX live q)
    (q, edges.getD i 0, decide (edgeGap edges i < 4 * (absNat (mapX live q - edges.getD i 0) : Nat))))
  let coeffs := leastSquares (found.map (fun e => (((e.1 - h) * 2 ^ 31) / h, e.2.1)))
  let plain : CalFit := { edges := found.length, farMatch := found.any (fun e => e.2.2), rms := 0, squares := 0, coeffs := coeffs
                          residuals := [] }
  let poly := fitMap (s.camC p) s.targetId plain
  let resid := residualsOf (found.map (fun e => ((rnd (255 * e.1) d).toNat, e.2.1 - mapX poly e.1)))
  let final := fitMap (s.camC p) s.targetId { plain with residuals := resid }
  let squares := sumNat (found.map (fun e => absNat (e.2.1 - mapX final e.1) ^ 2))
  let n := found.length
  let rms := if n = 0 then 0 else (isqrt (4 * squares / n) + 1) / 2
  { plain with rms := min 4294967295 rms, squares := squares, residuals := resid }

/-- R191: a fit is refused. -/
def State.fitRefused (s : State) (p : Nat) (fit : CalFit) : Bool :=
  decide (fit.edges < 12) || fit.farMatch || decide (s.rdN Obj.ST_CAL_RMS_MAX ^ 2 * fit.edges < fit.squares) ||
    !mapOk (fitMap (s.camC p) s.targetId fit) (s.camC p)

/-- R191: port `p`, which has averaged its lines, fits its map, which is staged or refused. `levels` gives the bar level and the
plate level of each column (log entry 25). -/
def execStCalDone (t : Nat) (p : Fin 12) (levels : List (Nat × Nat)) (s : State) : Result :=
  let s := s.at t
  if s.rdN Obj.ST_CAL_STATE ≠ 1 || !s.flag Obj.CAM_ENABLE p || s.st.calDone.contains p ||
      decide (look s.st.calLines 0 p.val < s.rdN Obj.ST_CAL_LINES) then .next s
  else
    let fit := s.targetFit p levels
    let s := (s.putN Obj.ST_CAL_RMS 0 p fit.rms).putN Obj.ST_CAL_EDGES 0 p fit.edges
    let cause := if s.calBeaten (Obj.ST_MAP.key p 0) then 3 else if fit.edges < 12 then 2 else 1
    let bad := s.fitRefused p fit || cause == 3
    let s := if bad then s.calReject 3 0 cause
      else (s.stageBlob Obj.ST_MAP p 0 (fitMap (s.camC p) s.targetId fit)).calAccept 3 0
    let st := { s.st with calDone := s.st.calDone ++ [p.val], calBad := s.st.calBad || bad }
    let s := { s with st := st }
    if (List.range 12).all (fun k => !s.flag Obj.CAM_ENABLE k || st.calDone.contains k) then
      .next ((s.putN Obj.ST_CAL_STATE 0 0 (if st.calBad then 3 else 2)).calDone 3 0)
    else .next s

end Sys2Proof.Machine
end

