-- ==== Sys2Proof/Machine/Verdict.lean ====
section
/-! DEFINITION. Sort programs, class tables, judging, ephemeris geometry and transit (spec/08_trajectory_and_verdict.md, R211 to
R238). Acceptance stands in Accept.lean. -/

namespace Sys2Proof.Machine

open Sys2Proof

/-- R241: VD_STATUS bits. -/
def vdWindowFull : Nat := 1
/-- R241. -/
def vdMismatch : Nat := 2
/-- R241. -/
def vdMissing : Nat := 3
/-- R241. -/
def vdBusy : Nat := 4
/-- R241. -/
def vdLate : Nat := 5

/-! ## The sort program (R211 to R217) -/

/-- R213: a term. -/
structure VdTerm where
  kind  : Nat
  index : Nat
  op    : Nat
  join  : Nat
  const : Int
deriving DecidableEq, Repr

/-- R213: a clause. -/
structure VdClause where
  outcome : Nat
  terms   : List VdTerm
deriving DecidableEq, Repr

/-- R212: the fields of a program blob. -/
def vdClauses (b : List Byte) : Nat := b.getD 6 0
/-- R212. -/
def vdDefault (b : List Byte) : Nat := b.getD 7 0
/-- R212. -/
def vdBodyBytes (b : List Byte) : Nat := leAt b 8 4
/-- R212. -/
def vdClassCrc (b : List Byte) : Nat := leAt b 12 4
/-- R212. -/
def vdId (b : List Byte) : Nat := leAt b 16 8
/-- R212. -/
def vdSigKind (b : List Byte) : Nat := b.getD 24 0
/-- R212. -/
def vdKeyId (b : List Byte) : Nat := leAt b 26 2
/-- R212. -/
def vdBody (b : List Byte) : List Byte := (b.drop 64).take (vdBodyBytes b)

/-- R217 check 2: the header holds. -/
def vdHeaderOk (b : List Byte) : Bool :=
  leAt b 0 4 == 0x47525053 && leAt b 4 2 == 1 && decide (vdClauses b ≤ 64) && decide (vdDefault b ≤ 2) &&
    decide (vdSigKind b ≤ 1) && b.getD 25 0 == 0 && ((b.drop 48).take 12).all (fun x => x == 0) &&
    leAt b 60 4 == crc32c (b.take 60)

/-- R213: a term from its 12 bytes. -/
def vdTerm (b : List Byte) : VdTerm :=
  { kind := b.getD 0 0, index := b.getD 1 0, op := b.getD 2 0, join := b.getD 3 0, const := signedOf 8 (leAt b 4 8) }

/-- R213, R214: a term's fields lie in their ranges; `first` is the first term of its clause. -/
def VdTerm.ok (t : VdTerm) (first : Bool) : Bool :=
  decide (t.kind ≤ 3) && (t.kind != 0 || decide (t.index ≤ 31)) && (t.kind != 3 || decide (t.index ≤ 4)) &&
    decide (t.op ≤ 7) && decide (t.join ≤ 1) && (!first || t.join == 0)

/-- R213: the terms of a clause. -/
def vdTerms (b : List Byte) (n : Nat) : List VdTerm := (List.range n).map (fun j => vdTerm ((b.drop (12 * j)).take 12))

/-- R213: `n` clauses of a body; none where they do not fill it exactly or a field breaks its range. -/
def vdParse (n : Nat) (b : List Byte) : Option (List VdClause) :=
  match n with
  | 0 => if b.isEmpty then some [] else none
  | k + 1 =>
    let m := b.getD 0 0
    let ts := vdTerms (b.drop 4) m
    if b.length < 4 + 12 * m || m = 0 || 16 < m || 2 < b.getD 1 0 || b.getD 2 0 ≠ 0 || b.getD 3 0 ≠ 0 ||
        !(ts.zipIdx).all (fun x => x.1.ok (x.2 == 0)) then none
    else
      match vdParse k (b.drop (4 + 12 * m)) with
      | none => none
      | some r => some ({ outcome := b.getD 1 0, terms := ts } :: r)

/-- The clauses of a program blob; an accepted blob parses. -/
def vdProgram (b : List Byte) : List VdClause := (vdParse (vdClauses b) (vdBody b)).getD []

/-- R217 check 6: the body holds. -/
def vdBodyOk (b : List Byte) : Bool :=
  leAt b 28 4 == crc32c (vdBody b) && decide (vdBodyBytes b ≤ 12544) && (vdParse (vdClauses b) (vdBody b)).isSome

/-- R217 check 7: the program rejects to row 2. -/
def vdUsesB (b : List Byte) : Bool := vdDefault b == 2 || (vdProgram b).any (fun c => c.outcome == 2)

/-- R217: the code of the first check that a program blob fails; 0 where none does. -/
def State.vdCheck (s : State) (g : Nat) (b : List Byte) : Nat :=
  if b.length < 64 then 2
  else if !vdHeaderOk b then 1
  else if b.length ≠ 64 + vdBodyBytes b + (if vdSigKind b = 0 then 0 else 96) then 2
  else if !s.signingOk (vdSigKind b) (vdKeyId b) 1 then 5
  else if vdSigKind b = 1 && !s.blobSigned b (vdKeyId b) 1 then 4
  else if !vdBodyOk b then 3
  else if s.rdN Obj.EP_ROWS = 1 && vdUsesB b then 6
  else if (s.vdg g).progHold.isSome then 7
  else 0

/-- R241: BUSY and CLASS_MISMATCH are raised for any group. -/
def State.vdPublish (s : State) : State :=
  let any := fun (f : VdGroup → Bool) => (List.range 12).any (fun g => f (s.vdg g))
  (s.setBit Obj.VD_STATUS 0 0 vdBusy (any (fun g => g.progHold.isSome || g.tableHold.isSome))).setBit Obj.VD_STATUS 0 0
    vdMismatch (any (fun g => g.mismatch))

/-- R217, R237: a write is refused; one that meets a hold raises VD_BUSY too. -/
def State.vdRefuse (s : State) (g code : Nat) (program : Bool) : State :=
  let s := s.putN Obj.VD_REFUSE_CODE 0 g code
  let s := if program then
      (s.putN Obj.VD_STATE 0 g 3).raise .VD_PROGRAM_REFUSED (Obj.VD_REFUSE_CODE.ident 0 g)
    else s
  if code = 7 then s.raise .VD_BUSY (Obj.VD_STATUS.ident) else s

/-- R217: a write of `VD_PROGRAM`. -/
def execVdProgramWrite (t : Nat) (path : Path) (g : Fin 12) (blob : List Byte) (s : State) : Result :=
  let s := (s.at t).touch path
  let k := Obj.VD_PROGRAM.key g 0
  match s.checkAccess path Obj.VD_PROGRAM g 0 blob.length with
  | 0 =>
    match s.vdCheck g blob with
    | 0 => .next (((s.putN Obj.VD_STATE 0 g 2).stageEpochBlob Obj.VD_PROGRAM g 0 blob).answer path k 0)
    | c => .next ((s.vdRefuse g c true).answer path k (if c = 7 then 8 else 5))
  | r => .next (s.answer path k r)

/-! ## The class table (R168, R220) -/

/-- R168: an entry holds: reserved bits 0, MERGE not 3, and class 0 background. -/
def classEntryOk (cls e : Nat) : Bool :=
  decide (e < 2 ^ 32) && fieldOf e 20 4 == 0 && fieldOf e 14 2 == 0 && fieldOf e 12 2 != 3 && fieldOf e 9 3 == 0 &&
    fieldOf e 0 8 == 0 && (cls != 0 || e.testBit 8)

/-- R220: the entries of a write, each with its class. -/
def classEntries (first : Nat) (values : List Byte) : List (Nat × Nat) :=
  (List.range (values.length / 4)).map (fun i => (first + i, leAt values (4 * i) 4))

/-- R168, R220, R237: a write of one element of `CLASS_TABLE`, or of the whole array. -/
def execClassTableWrite (t : Nat) (path : Path) (g : Fin 12) (first : Fin 256) (values : List Byte) (s : State) : Result :=
  let s := (s.at t).touch path
  let k := Obj.CLASS_TABLE.key g first
  let n := if values.length = 1024 && first.val = 0 then 4 else values.length
  match s.checkAccess path Obj.CLASS_TABLE g first n with
  | 0 =>
    let es := classEntries first values
    if !es.all (fun x => classEntryOk x.1 x.2) then .next (s.answer path k 5)
    else if (s.vdg g).tableHold.isSome then .next ((s.vdRefuse g 7 false).answer path k 8)
    else .next ((es.foldl (fun s x => s.stageEpoch Obj.CLASS_TABLE g x.1 x.2) s).answer path k 0)
  | r => .next (s.answer path k r)

/-- R237: the holds of group `g` that its present line has reached end. -/
def State.vdHolds (s : State) (g : Nat) : State :=
  let v := s.vdg g
  let n := s.presentLine g
  let keep := fun (h : Option Nat) => h.filter (fun l => decide (n < l))
  (s.setVdg g { v with progHold := keep v.progHold, tableHold := keep v.tableHold }).vdPublish

/-- R237: line F + N + 8,256 is reached. -/
def execProgramHoldEnd (t : Nat) (g : Fin 12) (s : State) : Result := .next ((s.at t).vdHolds g)

/-- R237: every hold ends when the device goes back to PREOP. -/
def State.vdRelease (s : State) : State :=
  ((List.range 12).foldl (fun s g => s.setVdg g { s.vdg g with progHold := none, tableHold := none }) s).vdPublish

/-! ## Judging (R214 to R216) -/

/-- R214: the value of a term's operand. -/
def Judged.operand (j : Judged) (kind index : Nat) : Int :=
  let area := (j.acc.slots.find? (fun x => x.cls == index)).elim 0 (fun x => x.area)
  match kind with
  | 0 => j.facets.getD index 0
  | 1 => area
  | 2 => if j.acc.area = 0 then 0 else rnd (65536 * area : Nat) j.acc.area
  | _ =>
    match index with
    | 0 => j.result.speed
    | 1 => j.centroid
    | 2 => j.flags
    | 3 => j.port
    | _ => j.result.source

/-- R215: the comparisons; AND is taken over the 64 bits of both. -/
def vdTest (op : Nat) (v c : Int) : Bool :=
  let both := unsignedOf 8 v &&& unsignedOf 8 c
  match op with
  | 0 => decide (v < c)
  | 1 => decide (v ≤ c)
  | 2 => v == c
  | 3 => v != c
  | 4 => decide (c ≤ v)
  | 5 => decide (c < v)
  | 6 => both != 0
  | _ => both == 0

/-- R216: a clause matches: an OR of products. -/
def VdClause.holds (c : VdClause) (j : Judged) : Bool :=
  let r := c.terms.foldl (fun (a : Bool × Bool) t =>
    let a := if t.join = 1 then (a.1 || a.2, true) else a
    (a.1, a.2 && vdTest t.op (j.operand t.kind t.index) t.const)) (false, true)
  r.1 || r.2

/-- R216: the first clause that matches decides. -/
def vdDecide (b : List Byte) (j : Judged) : Nat × Nat :=
  match ((vdProgram b).zipIdx).find? (fun x => x.1.holds j) with
  | some x => (x.1.outcome, x.2)
  | none => (vdDefault b, 255)

/-- R205, R219: the verdict of an object: of `ST_PARTIAL_POLICY` for a SEAM_PARTIAL object where it rejects, else of the
program of its group in its epoch. Every judged object counts in `VD_CLAUSE_HITS`. -/
def State.judge (s : State) (j : Judged) : State × Judged :=
  let policy := if j.flags.testBit 2 then s.rdEpochN j.group j.epoch Obj.ST_PARTIAL_POLICY else 0
  let b := s.rdEpochBlob j.group j.epoch Obj.VD_PROGRAM j.group
  let v := if policy = 1 then (1, 255) else if policy = 2 then (2, 255)
    else if b.isEmpty then (0, 255) else vdDecide b { j with port := s.homePort j.port }
  (s.count Obj.VD_CLAUSE_HITS 0 (if v.2 = 255 then 64 else v.2) 1, { j with outcome := v.1, clause := v.2 })

/-! ## Geometry (R221 to R223, R228) -/

/-- R222: a value of serial position port `n` can be taken now. -/
def State.spTakeable (s : State) (n maxAgeMs : Nat) : Bool :=
  !s.bit Obj.SP_STATUS 0 n 2 && s.bit Obj.SP_STATUS 0 n 0 &&
    decide (s.now ≤ s.rdN Obj.SP_VALUE_TIME 0 n + maxAgeMs * 1000000)

/-- R221, R222: a position as it is taken: the fixed value, the port's value, or the previous epoch's; true when held. -/
def State.takePosition (s : State) (source : Nat) (fixed : Int) (maxAge : Nat) (prev : Option Int) : Int × Bool :=
  if source = 0 then (fixed, false)
  else if s.spTakeable (source - 1) maxAge then (s.rd Obj.SP_VALUE_UM 0 (source - 1), false)
  else (prev.getD (s.rd Obj.SP_VALUE_UM 0 (source - 1)), true)

/-- R223: the geometry holds. -/
def geometryOk (rows : Nat) (scan f1 f2 : Int) : Bool :=
  decide (0 ≤ scan) && decide (10000 ≤ f1 - scan) && decide (f1 - scan ≤ 1000000) &&
    (rows != 2 || (decide (f1 < f2) && decide (f2 - scan ≤ 1000000)))

/-- R222: a value is held. -/
def State.epHeld (s : State) (o : ObjRow) (e : Nat) : State :=
  (s.count Obj.EP_HELD_COUNT 0 0 1).raise .EP_POSITION_HELD (o.ident 0 e)

/-- R222, R242: HELD: a position of the live epoch of a group with an enabled port was held. -/
def State.publishHeld (s : State) : State :=
  s.setBit Obj.EP_STATUS 0 0 1 ((List.range 12).any (fun k => (s.vdg k).held && !(s.groupPorts k).isEmpty))

/-- R221 to R223, R238: the ephemeris of group `g` takes its positions at the first line of epoch `ep`. The entry to ARMED opens the
arming epoch before its first line is triggered: what it takes there (`entry`) is readable, and the first line's trigger takes
them again, which alone counts and raises (log entry 267). In surface mode there are none. -/
def State.epEpoch (s : State) (g ep : Nat) (entry : Bool) : State :=
  let s := (s.setBit Obj.EP_STATUS 0 0 4 false).setBit Obj.EP_STATUS 0 0 0 (!s.surface)
  if s.surface then ((s.setVdg g { s.vdg g with held := false }).publishHeld).setBit Obj.EP_STATUS 0 0 2 false
  else
    let all := (s.vdg g).positions
    let v := { s.vdg g with positions := if entry then all else all.filter (fun x => x.epoch != ep) }
    let rows := s.rdN Obj.EP_ROWS
    let age := s.rdEpochN g ep Obj.EP_SP_MAX_AGE_MS 0 g
    let prev := if v.positions.isEmpty then all.head? else v.positions.head?
    let scan := s.takePosition (s.rdN Obj.EP_SCAN_SOURCE 0 g) (s.rdEpoch g ep Obj.EP_SCAN_FALL_UM 0 g) age
      (prev.map (fun x => x.scan))
    let row := fun (r : Nat) =>
      let e := 2 * g + r
      let fixed := s.rdEpoch g ep Obj.EP_ROW_FALL_UM 0 e
      if rows ≤ r then (fixed, false)
      else s.takePosition (s.rdN Obj.EP_ROW_SOURCE 0 e) fixed age (prev.bind (fun x => x.rows[r]?))
    let f1 := row 0
    let f2 := row 1
    let s := if scan.2 && !entry then s.epHeld Obj.EP_SCAN_LIVE_UM g else s
    let s := if f1.2 && !entry then s.epHeld Obj.EP_ROW_LIVE_UM (2 * g) else s
    let s := if f2.2 && !entry then s.epHeld Obj.EP_ROW_LIVE_UM (2 * g + 1) else s
    let ok := geometryOk rows scan.1 f1.1 f2.1
    let taken : EpPos := { epoch := ep, scan := scan.1, rows := [f1.1, f2.1] }
    let now := if ok then taken else match prev with | some x => { x with epoch := ep } | none => taken
    let s := s.setBit Obj.EP_STATUS 0 0 2 (!ok)
    let s := if ok || entry then s
      else (s.count Obj.EP_REFUSED_COUNT 0 0 1).raise .EP_GEOMETRY_REFUSED (Obj.EP_STATUS.ident)
    let s := s.setVdg g { v with
      positions := (now :: v.positions).take 64, held := scan.2 || f1.2 || f2.2 }
    let s := s.publishHeld.put Obj.EP_SCAN_LIVE_UM 0 g now.scan
    (List.range rows).foldl (fun s r => s.put Obj.EP_ROW_LIVE_UM 0 (2 * g + r) (now.rows.getD r 0)) s

/-- R219, R222, R223, R228: what keeps the unit in PREOP: the object whose check fails, and the event. -/
def State.vdRefusals (s : State) : List (Nat × Ev) :=
  (List.range 12).flatMap (fun g =>
    if (s.groupPorts g).isEmpty then []
    else
      let missing := (s.rdBlob Obj.VD_PROGRAM g).isEmpty &&
        (find? s.epochs.stagedBlobs (Obj.VD_PROGRAM.key g 0)).isNone
      let rows := s.lastN Obj.EP_ROWS
      let a := if missing then [(Obj.VD_PROGRAM.ident g 0, Ev.VD_PROGRAM_MISSING)] else []
      let row := fun (r : Nat) => 2 * g + r
      let geo : List Nat :=
        if s.surface then
          (List.range rows).filterMap (fun r =>
            if s.rowCountOk (row r) (s.next Obj.EP_ROW_COUNTS 0 (row r) g) &&
                s.next Obj.EP_ROW_COUNTS 0 (row r) g != 0 then none
            else some (Obj.EP_ROW_COUNTS.ident 0 (row r)))
        else
          let age := (s.next Obj.EP_SP_MAX_AGE_MS 0 g g).toNat
          let pos := fun (source : Nat) (fixed : Int) =>
            if source = 0 then (fixed, true) else (s.rd Obj.SP_VALUE_UM 0 (source - 1), s.spTakeable (source - 1) age)
          let scan := pos (s.lastN Obj.EP_SCAN_SOURCE 0 g) (s.next Obj.EP_SCAN_FALL_UM 0 g g)
          let f := fun (r : Nat) => pos (s.lastN Obj.EP_ROW_SOURCE 0 (row r)) (s.next Obj.EP_ROW_FALL_UM 0 (row r) g)
          (if scan.2 then [] else [Obj.EP_SCAN_SOURCE.ident 0 g]) ++
          ((List.range rows).filterMap (fun r => if (f r).2 then none else some (Obj.EP_ROW_SOURCE.ident 0 (row r)))) ++
          (if geometryOk rows scan.1 (f 0).1 (f 1).1 then [] else [Obj.EP_ROW_FALL_UM.ident 0 (row 0)])
      a ++ geo.map (fun i => (i, Ev.EP_GEOMETRY_REFUSED)))

/-! ## A new epoch (R218, R237) -/

/-- R218, R237: the program and class table of group `g` at the first line `f` of epoch `ep`. -/
def State.vdEpoch (s : State) (g ep f : Nat) : State :=
  let prog := s.rdEpochBlob g ep Obj.VD_PROGRAM g
  let old := if ep = 0 then [] else s.rdEpochBlob g (ep - 1) Obj.VD_PROGRAM g
  let table := s.classTable g ep
  let before := if ep = 0 then table else s.classTable g (ep - 1)
  let until_ := f + (s.groupPorts g).foldl (fun m p => max m (s.rdN Obj.CAM_REPLAY_SLOTS p)) 0 + 8256
  let v := s.vdg g
  let v := if prog ≠ old && !old.isEmpty && f ≠ 1 then { v with progHold := some until_ } else v
  let v := if table ≠ before && f ≠ 1 then { v with tableHold := some until_ } else v
  let bad := !prog.isEmpty && vdClassCrc prog != 0 && vdClassCrc prog != classTableCrc table
  let s := s.setVdg g { v with mismatch := bad }
  let s := s.putN Obj.VD_LIVE_ID 0 g (if prog.isEmpty then 0 else vdId prog)
  let s := if prog.isEmpty || s.rdN Obj.VD_STATE 0 g = 3 then s else s.putN Obj.VD_STATE 0 g 1
  let s := s.vdPublish
  if bad then s.raise .VD_CLASS_MISMATCH (Obj.VD_STATUS.ident) else s

/-! ## Transit (R224, R226, R228) -/

/-- R224: the acceleration class: the slot of largest area, ties to the lower class. An object without a class slot has
none stated: a free one (log entry 3). -/
def accelClass (slots : List ClassSlot) (free : Nat) : Nat :=
  match slots with
  | [] => free % 256
  | x :: r => (r.foldl (fun a b => if a.area < b.area || (a.area = b.area && b.cls < a.cls) then b else a) x).cls

/-- R179: the trigger times of an object's first line and of the line after its last. -/
def State.spanTimes (s : State) (j : Judged) : Nat × Nat :=
  let g := markGroup j.port j.group
  let t0 := (s.trigTime g j.first).getD j.firstTime
  let t1 := match s.trigTime g (j.last + 1) with
    | some t => t
    | none => (s.trigTime g j.last).getD t0 + s.rdN Obj.TG_MIN_PERIOD_NS 0 j.port
  (t0, t1)

/-- R226: the transit at row `row` in free fall, from the positions given. A root of 0 divides nothing that the spec
states: free values (log entry 3). -/
def State.fallTransit (s : State) (j : Judged) (row : Nat) (pos : EpPos) : Transit :=
  let a : Int := s.rdEpochN j.group j.epoch Obj.EP_ACCEL j.group (accelClass j.acc.slots s.free)
  let ts := s.spanTimes j
  let n := j.facets.getD 29 1
  let cl := j.facets.getD 13 0
  let dt : Int := (ts.2 : Int) - ts.1
  let sy := rnd (j.result.speed * dt) (10000 * n)
  let at_ := ts.1 + rnd ((2 * cl + 256) * dt) (512 * n)
  let d := pos.rows.getD (row - 1) 0 - pos.scan
  let vu : Int := 100 * j.result.speed
  let s16 : Int := isqrt ((vu * vu + 2 * (1000 * a) * d) * 256).toNat
  let z := fun (i : Nat) => (Config.freeValue (s.draws + 1 + i) : Int)
  let tc := at_ + openRnd (z 0) (32 * d * 1000000000) (16 * vu + s16)
  let ahead := rnd ((2 * cl + 256) * sy) 512000
  let behind := rnd ((512 * n - 2 * cl - 256) * sy) 512000
  { row := row, lead := tc - openRnd (z 1) (16000000000 * ahead) s16, centre := tc,
    trail := tc + openRnd (z 2) (16000000000 * behind) s16, vRow := (rnd s16 1600).toNat }

/-- R228: the belt counts at which an object crosses row `row`. A belt count of a line that was never triggered is a free
value (log entry 3). -/
def State.beltTransit (s : State) (j : Judged) (row : Nat) : Transit :=
  let b := fun (n i : Nat) => match s.markOf (markGroup j.port j.group) n with
    | some m => m.belt
    | none => wrap48 (Config.freeValue (s.draws + i) : Nat)
  let b0 := b j.first 0
  let dc := wrap48 (b (j.last + 1) 1 - b0)
  let d := s.rdEpoch j.group j.epoch Obj.EP_ROW_COUNTS 0 (2 * j.group + (row - 1))
  let n := j.facets.getD 29 1
  let cl := j.facets.getD 13 0
  { row := row, surface := true, lead := wrap48 (b0 + d), centre := wrap48 (b0 + rnd ((2 * cl + 256) * dc) (512 * n) + d),
    trail := wrap48 (b0 + dc + d) }

/-- R226, R228, R238: the transit of an object at a row; an epoch that has left the ring counts as a miss. -/
def State.transit (s : State) (j : Judged) (row : Nat) : State × Transit :=
  if s.surface then ({ s with draws := s.draws + 2 }, s.beltTransit j row)
  else
    let p := s.epPositions j.group j.epoch
    let x := s.fallTransit j row p.1
    let s := { s with draws := s.draws + 4 }
    (if p.2 then (s.count Obj.EP_RING_MISSES 0 0 1).setBit Obj.EP_STATUS 0 0 4 true else s, x)

/-- R240: `EP_LAST_RESULT` shows the last order. -/
def State.epResult (s : State) (x : Transit) : State :=
  let u := fun (v : Int) => (unsignedOf 8 v : Int)
  s.putList Obj.EP_LAST_RESULT 0 [u x.lead, u x.centre, u x.trail, min 4294967295 x.vRow, x.row, boolInt x.surface]

end Sys2Proof.Machine
end

