-- ==== Sys2Proof/Machine/Ledger.lean ====
section
/-! DEFINITION. Records and outcomes byte by byte, the ledger and its windows, the host rings and their acknowledgement
(spec/10_records_streams_and_compression.md, R295 to R308; spec/11_islands_crossings_and_continuity.md, R339 to R347). -/

namespace Sys2Proof.Machine

open Sys2Proof

/-- R364: LG_STATUS bits. -/
def lgValid : Nat := 0
/-- R364. -/
def lgRecFull : Nat := 1
/-- R364. -/
def lgOrderFull : Nat := 2
/-- R364. -/
def lgReissuing : Nat := 3
/-- R364. -/
def lgSingle : Nat := 4
/-- R364. -/
def lgMirrorActive : Nat := 5
/-- R364. -/
def lgMirrorLost : Nat := 6
/-- R364. -/
def lgFromMirror : Nat := 7

/-- The two's complement bytes of a value (R5). -/
def iLe (n : Nat) (v : Int) : List Byte := toLe n (unsignedOf n v)

/-- A record is closed by the CRC-32C over what precedes it (R295). -/
def withCrc (b : List Byte) : List Byte := b ++ toLe 4 (crc32c b)

/-- `n` zero bytes. -/
def zeros (n : Nat) : List Byte := List.replicate n 0

/-- What a record says beside its object. -/
structure RecordTag where
  seq      : Nat
  orderId  : Nat
  time     : Nat
  flags    : Nat
  pipeline : Nat
  port     : Nat
  station  : Nat
  latency  : Nat
  thumb    : Nat
deriving DecidableEq, Repr

/-- R176, R297: slots are reported by area, largest first, ties going to the lower class. -/
def slotLarger (x y : ClassSlot) : Bool :=
  decide (y.area < x.area) || (x.area == y.area && decide (x.cls ≤ y.cls))

/-- R297: the first `n` class slots in order, as (class, area). -/
def slotList (n : Nat) (slots : List ClassSlot) : List (Nat × Nat) :=
  let l := sortBy slotLarger slots
  (List.range n).map (fun k => (l[k]?).elim (0, 0) (fun x => (x.cls, x.area)))

/-- R296, R297: the object record. -/
def objectRecord (j : Judged) (r : RecordTag) : List Byte :=
  let f := fun (i : Nat) => j.facets.getD i 0
  withCrc (toLe 8 r.seq ++ toLe 8 j.firstTime ++ toLe 8 r.time ++ toLe 8 j.first ++ toLe 8 r.orderId ++
    iLe 4 j.centroid ++ iLe 4 j.west ++ iLe 4 j.east ++ iLe 2 (min 65535 (f 29)) ++ iLe 2 (min 65535 (f 30)) ++ iLe 4 (f 31) ++
    (slotList 4 j.acc.slots).flatMap (fun x => toLe 4 (x.1 * 2 ^ 24 + min x.2 16777215)) ++
    (List.range 8).flatMap (fun i => iLe 4 (f i)) ++ toLe 4 j.result.speed ++ toLe 1 j.outcome ++ toLe 1 j.clause ++
    toLe 2 r.flags ++ toLe 2 j.mask ++ toLe 1 r.pipeline ++ toLe 1 r.port ++ toLe 2 r.station ++ [0, 0])

/-- R301: the extended record of an object. -/
def extendedRecord (j : Judged) (r : RecordTag) : List Byte :=
  let slots := slotList 8 j.acc.slots
  withCrc (toLe 8 r.seq ++ toLe 4 j.epoch ++ toLe 2 j.anchorCol ++ toLe 1 j.acc.slots.length ++ [2] ++
    (List.range 32).flatMap (fun i => iLe 4 (j.facets.getD i 0)) ++ slots.flatMap (fun x => toLe 4 x.2) ++
    slots.flatMap (fun x => toLe 1 x.1) ++ toLe 4 (min 4294967295 j.wait) ++ toLe 4 (min 4294967295 r.latency) ++
    toLe 4 r.thumb ++ zeros 56)

/-- R300: a count of a summary. -/
def summaryCount (n : Nat) : List Byte := toLe 8 (min n (2 ^ 64 - 1))

/-- R300: the summary record. -/
def summaryRecord (m : Missed) (seq time station : Nat) : List Byte :=
  withCrc (toLe 8 seq ++ toLe 8 m.first ++ toLe 8 time ++ toLe 8 m.last ++ zeros 8 ++
    (List.range 3).flatMap (fun i => summaryCount (m.verdicts.getD i 0)) ++ summaryCount m.ejected ++
    summaryCount m.notEjected ++ zeros 32 ++ [255, 255] ++ zeros 2 ++ toLe 2 m.mask ++ [255, 255] ++ toLe 2 station ++ [1, 0])

/-- R301: the extended record of a summary. -/
def summaryExtended (seq : Nat) : List Byte := withCrc (toLe 8 seq ++ zeros 7 ++ [3] ++ zeros 236)

/-- R269: what an outcome carries. -/
structure Outcome where
  seq     : Nat
  code    : Nat
  flags   : Nat
  row     : Nat
  valves  : Nat
  first   : Nat
  onTime  : Nat
  offDelta : Nat
deriving DecidableEq, Repr

/-- R302: the outcome record. -/
def outcomeRecord (o : Outcome) : List Byte :=
  withCrc (toLe 8 o.seq ++ toLe 8 o.onTime ++ toLe 4 o.offDelta ++ toLe 2 o.flags ++ toLe 2 o.first ++ [o.code, o.row] ++
    toLe 1 o.valves ++ [4])

/-! ## The windows (R231, R341) -/

/-- R341: the windows and their bits follow what they hold. -/
def State.lgPublish (s : State) : State :=
  let r := s.lg.records.length
  let o := s.lg.orders.length
  let s := (s.putN Obj.LG_REC_WINDOW 0 0 r).putN Obj.LG_ORDER_WINDOW 0 0 o
  (s.setBit Obj.LG_STATUS 0 0 lgRecFull (decide (2048 ≤ r))).setBit Obj.LG_STATUS 0 0 lgOrderFull (decide (8192 ≤ o))

/-- R231, R341: the record window has room. -/
def State.recRoom (s : State) : Bool := decide (s.lg.records.length < 2048)

/-- R248, R341: the free places of the order window. -/
def State.orderRoom (s : State) : Nat := 8192 - s.lg.orders.length

/-- R230, R339: a record and its extended record enter the ledger under the next SEQ. -/
def State.lgPush (s : State) (record ext : List Byte) : State :=
  let seq := s.rdN Obj.LG_NEXT_SEQ
  let e : LedgerRecord := { seq := seq, record := record, ext := if s.flag Obj.EXT_ENABLE then ext else [], since := s.now }
  ({ s with lg := { s.lg with records := s.lg.records ++ [e] } }.putN Obj.LG_NEXT_SEQ 0 0 (seq + 1)).lgPublish

/-- The record of SEQ `seq` changes. -/
def State.modRecord (s : State) (seq : Nat) (f : LedgerRecord → LedgerRecord) : State :=
  { s with lg := { s.lg with records := s.lg.records.map (fun x => if x.seq = seq then f x else x) } }

/-- The order entry of ORDER_ID `id` changes. -/
def State.modOrder (s : State) (id : Nat) (f : LedgerOrder → LedgerOrder) : State :=
  { s with lg := { s.lg with orders := s.lg.orders.map (fun x => if x.orderId = id then f x else x) } }

/-- R247, R339: an order enters the order window under the next ORDER_ID. -/
def State.lgPushOrder (s : State) (seq row : Nat) : State :=
  let id := s.rdN Obj.LG_NEXT_ORDER
  let e : LedgerOrder := { orderId := id, seq := seq, row := row, since := s.now }
  ({ s with lg := { s.lg with orders := s.lg.orders ++ [e] } }.putN Obj.LG_NEXT_ORDER 0 0 (id + 1)).lgPublish

/-! ## The mirror's sending side (R347) -/

/-- R347: the chord port of the mirror partner: the east neighbour, or the west one of the easternmost unit. -/
def State.mirrorLink (s : State) : Nat := if s.connected 1 then 1 else 0

/-- R347: the mirror can be reached: its chord port is up, and its traffic is not stopped under R200. -/
def State.mirrorUp (s : State) : Bool :=
  s.chUp s.mirrorLink && (s.seamTraffic s.mirrorLink || !s.flag Obj.ST_ENABLE)

/-- R347: the unit runs without a second copy. -/
def State.mirrorLost (s : State) : State :=
  let s := s.setBit Obj.LG_STATUS 0 0 lgMirrorActive false
  if s.flag Obj.LG_MIRROR_ENABLE && !s.bit Obj.LG_STATUS 0 0 lgMirrorLost then
    (s.setBit Obj.LG_STATUS 0 0 lgMirrorLost true).raise .MIRROR_LOST (Obj.LG_STATUS.ident)
  else s

/-- R347: an entry goes to the mirror. -/
def State.mirrorSend (s : State) (typ : Nat) (payload : List Byte) : State :=
  if !s.flag Obj.LG_MIRROR_ENABLE then s
  else if s.mirrorUp then s.chordSend s.mirrorLink 3 typ payload
  else s.mirrorLost

/-- R347: the acknowledgements go to the mirror. -/
def State.mirrorAcks (s : State) : State :=
  s.mirrorSend 1 (toLe 8 (s.rdN Obj.REC_ACK_SEQ) ++ toLe 8 (s.rdN Obj.OUT_ACK_ORDER))

/-- R347: a record that both copies hold goes to the mirror and waits for its confirmation. -/
def State.mirrorRecord (s : State) (e : LedgerRecord) : State :=
  if !s.flag Obj.LG_MIRROR_ENABLE || !s.mirrorUp then s.mirrorSend 0 (e.record ++ e.ext)
  else
    let now := s.now
    let s := s.modRecord e.seq (fun x => { x with mirror := some now })
    s.mirrorSend 0 (e.record ++ e.ext)

/-- R347: an order entry as the mirror gets it: its ORDER_ID and its outcome record; of an open order the record says outcome 255
(log entry 234). -/
def orderEntry (o : LedgerOrder) : List Byte :=
  toLe 8 o.orderId ++
    (if o.outcome.isEmpty then withCrc (toLe 8 o.seq ++ zeros 16 ++ [255, o.row, 0, 4]) else o.outcome)

/-- R347: an order entry that both copies hold goes to the mirror and waits for its confirmation. -/
def State.mirrorOrder (s : State) (o : LedgerOrder) : State :=
  if !s.flag Obj.LG_MIRROR_ENABLE || !s.mirrorUp then s.mirrorSend 0 (orderEntry o)
  else
    let now := s.now
    let s := s.modOrder o.orderId (fun x => { x with mirror := some now })
    s.mirrorSend 0 (orderEntry o)

/-- R347: the whole present window goes to the mirror again. -/
def State.mirrorWindow (s : State) : State :=
  let s := s.setBit Obj.LG_STATUS 0 0 lgMirrorLost false
  let s := s.lg.records.foldl (fun s e => if e.stored then s.mirrorRecord e else s) s
  (s.lg.orders.foldl (fun s o => if o.stored then s.mirrorOrder o else s) s).mirrorAcks

/-! ## Ring writes (R303 to R308) -/

/-- R378: the writes that `b` from address `a` on is made of, one for each 64-byte line it meets. -/
def hostWrites (a : Nat) (b : List Byte) : List Out :=
  (List.range ((a + b.length + 63) / 64 - a / 64)).map (fun i =>
    let lo := max a (64 * (a / 64 + i))
    let hi := min (a + b.length) (64 * (a / 64 + i + 1))
    .hostWrite lo ((b.drop (lo - a)).take (hi - lo)) (hi - lo == 64))

/-- R304: a host write. -/
def State.hostWrite (s : State) (a : Nat) (b : List Byte) : State := { s with out := s.out ++ hostWrites a b }

/-- R304, R305, R453: a head value goes to its address, if one is set, and source `src` fires. -/
def State.headWrite (s : State) (a : ObjRow) (v src : Nat) : State :=
  if s.rdN a = 0 then s else (s.hostWrite (s.rdN a) (toLe 8 v)).fire src

/-- R303, R304: a record goes into its slots, its extended record first. -/
def State.writeRecord (s : State) (e : LedgerRecord) : State :=
  let slot := e.seq % 2 ^ s.rdN Obj.REC_RING_LOG2
  let s := if e.ext.isEmpty then s else s.hostWrite (s.rdN Obj.EXT_RING_BASE + 256 * slot) e.ext
  let s := s.hostWrite (s.rdN Obj.REC_RING_BASE + 128 * slot) e.record
  s.modRecord e.seq (fun x => { x with written := true })

/-- R303, R305: an outcome goes into its slot. -/
def State.writeOutcome (s : State) (o : LedgerOrder) : State :=
  let slot := o.orderId % 2 ^ s.rdN Obj.OUT_RING_LOG2
  let s := s.hostWrite (s.rdN Obj.OUT_RING_BASE + 32 * slot) o.outcome
  { s with lg := { s.lg with closed := s.lg.closed.filter (fun x => x != o.orderId) } }.modOrder o.orderId
    (fun x => { x with written := true })

/-- R305: `OUT_LOW_ORDER`: the lowest ORDER_ID whose outcome is not written. -/
def State.lowOrder (s : State) : Nat :=
  match s.lg.orders.find? (fun o => !o.written) with
  | some o => o.orderId
  | none => s.rdN Obj.LG_NEXT_ORDER

/-- R307: one more write of a ring is complete: at the count its interrupt is raised. -/
def State.ringIrq (s : State) (out : Bool) : State :=
  let q := if out then s.lg.outIrq else s.lg.recIrq
  let n := q.count + 1
  let limit := if out then s.rdN Obj.OUT_IRQ_COUNT else s.rdN Obj.REC_IRQ_COUNT
  let q' : RingIrq := if limit ≤ n then {} else { count := n, since := if n = 1 then s.now else q.since }
  let s := { s with lg := if out then { s.lg with outIrq := q' } else { s.lg with recIrq := q' } }
  if limit ≤ n then s.vector (if out then 2 else 1) else s

/-- R308, R344: ring writes can be issued: the link is up, the ring has a base, no re-issue runs. -/
def State.ringOpen (s : State) (base : ObjRow) : Bool :=
  s.cxl.linkUp && s.rdN base != 0 && !s.bit Obj.LG_STATUS 0 0 lgReissuing

/-- R304, R340: the next record in SEQ order is written, once both copies hold it. -/
def execRecordWrite (t : Nat) (s : State) : Result :=
  let s := s.at t
  match s.lg.records.find? (fun e => !e.written) with
  | none => .next s
  | some e =>
    if !s.ringOpen Obj.REC_RING_BASE || !e.stored then .next s
    else
      let s := (s.writeRecord e).putN Obj.REC_HEAD_SEQ 0 0 e.seq
      let s := s.count Obj.REC_WRITTEN 0 0 1
      .next ((s.headWrite Obj.REC_HEAD_ADDR e.seq 106).ringIrq false)

/-- R305: the outcome of the order that closed first is written, after the record of its SEQ. -/
def execOutcomeWrite (t : Nat) (s : State) : Result :=
  let s := s.at t
  match s.lg.closed with
  | [] => .next s
  | id :: _ =>
    match s.lg.orders.find? (fun o => o.orderId == id) with
    | none => .next s
    | some o =>
      if !s.ringOpen Obj.OUT_RING_BASE || s.rdN Obj.REC_HEAD_SEQ < o.seq then .next s
      else
        let s := s.writeOutcome o
        let s := (s.putN Obj.OUT_LOW_ORDER 0 0 s.lowOrder).count Obj.OUT_WRITTEN 0 0 1
        .next ((s.headWrite Obj.OUT_HEAD_ADDR s.lowOrder 107).ringIrq true)

/-- R307: the time since a ring's first unsignalled write has passed. -/
def execRingIrqTimeout (t : Nat) (outcomes : Bool) (s : State) : Result :=
  let s := s.at t
  let q := if outcomes then s.lg.outIrq else s.lg.recIrq
  let limit := if outcomes then s.rdN Obj.OUT_IRQ_NS else s.rdN Obj.REC_IRQ_NS
  if q.count = 0 || s.now < q.since + limit then .next s
  else
    let s := { s with lg := if outcomes then { s.lg with outIrq := {} } else { s.lg with recIrq := {} } }
    .next (s.vector (if outcomes then 2 else 1))

/-! ## Acknowledgement (R306, R341, R370) -/

/-- R306, R341: an acknowledgement of records is checked; one that holds frees its places; true when it is taken. -/
def State.ackRecords (s : State) (v : Nat) : State × Bool :=
  if s.rdN Obj.REC_HEAD_SEQ < v || v < s.rdN Obj.REC_ACK_SEQ then (s.count Obj.RING_ACK_REFUSED 0 0 1, false)
  else
    let s := s.putN Obj.REC_ACK_SEQ 0 0 v
    ({ s with lg := { s.lg with records := s.lg.records.filter (fun e => decide (v < e.seq)) } }.lgPublish.mirrorAcks, true)

/-- R306, R341: an acknowledgement of outcomes. -/
def State.ackOutcomes (s : State) (v : Nat) : State × Bool :=
  if s.rdN Obj.OUT_LOW_ORDER ≤ v || v < s.rdN Obj.OUT_ACK_ORDER then (s.count Obj.RING_ACK_REFUSED 0 0 1, false)
  else
    let s := s.putN Obj.OUT_ACK_ORDER 0 0 v
    ({ s with lg := { s.lg with orders := s.lg.orders.filter (fun e => decide (v < e.orderId)) } }.lgPublish.mirrorAcks, true)

/-- R306: a dictionary write of an acknowledgement. -/
def State.ackWrite (s : State) (path : Path) (o : ObjRow) (value : List Byte) (ack : State → Nat → State × Bool) : State :=
  let s := s.touch path
  match s.checkAccess path o 0 0 value.length with
  | 0 =>
    let q := ack s (leNat value)
    q.1.answer path (o.key 0 0) (if q.2 then 0 else 5)
  | r => s.answer path (o.key 0 0) r

/-- R306: a write of `REC_ACK_SEQ`. -/
def execRecAckSeqWrite (t : Nat) (path : Path) (value : List Byte) (s : State) : Result :=
  .next ((s.at t).ackWrite path Obj.REC_ACK_SEQ value State.ackRecords)

/-- R306: a write of `OUT_ACK_ORDER`. -/
def execOutAckOrderWrite (t : Nat) (path : Path) (value : List Byte) (s : State) : Result :=
  .next ((s.at t).ackWrite path Obj.OUT_ACK_ORDER value State.ackOutcomes)

/-- R370: what a doorbell write completes, and the low half that stays held. -/
def doorbell (held : Option Nat) (w : AckWrite) : Option Nat × Option Nat :=
  match w with
  | .whole v => (some v, held)
  | .low v => (none, some v)
  | .high v =>
    match held with
    | some l => (some (v * 2 ^ 32 + l), none)
    | none => (none, none)

/-- R370: the REC_ACK doorbell. -/
def execRecAck (t : Nat) (write : AckWrite) (s : State) : Result :=
  let s := s.at t
  let d := doorbell s.lg.recLow write
  let s := { s with lg := { s.lg with recLow := d.2 } }
  match d.1 with
  | some v => .next (s.ackRecords v).1
  | none => .next s

/-- R370: the OUT_ACK doorbell. -/
def execOutAck (t : Nat) (write : AckWrite) (s : State) : Result :=
  let s := s.at t
  let d := doorbell s.lg.outLow write
  let s := { s with lg := { s.lg with outLow := d.2 } }
  match d.1 with
  | some v => .next (s.ackOutcomes v).1
  | none => .next s

/-- R270, R339, R340: an order has closed: its outcome enters the ledger, waits for the ring and for both copies. -/
def State.lgClose (s : State) (orderId : Nat) (o : Outcome) : State :=
  { s with lg := { s.lg with closed := s.lg.closed ++ [orderId] } }.modOrder orderId
    (fun x => { x with outcome := outcomeRecord o, stored := false, since := s.now })

end Sys2Proof.Machine
end

