-- ==== Sys2Proof/Machine/Bank.lean ====
section
/-! DEFINITION. The ejector bank: valves, the in-flight queue, the planning of pulses, their joining, pre-charge, moving and
dropping, and the outcomes of orders (spec/09_ejector_bank.md, R243 to R274). The links stand in ValveLinks.lean. -/

namespace Sys2Proof.Machine

open Sys2Proof

/-! ## Valves (R243 to R246) -/

/-- The valve `v` beside its objects. -/
def State.valve (s : State) (v : Nat) : Valve := look s.bank.valves {} v

/-- The valve `v` becomes `x`. -/
def State.setValve (s : State) (v : Nat) (x : Valve) : State :=
  { s with bank := { s.bank with valves := store s.bank.valves {} v x } }

/-- The valve bank link `l`. -/
def State.vbl (s : State) (l : Nat) : VbLink := look s.bank.links {} l

/-- The valve bank link `l` becomes `x`. -/
def State.setVbl (s : State) (l : Nat) (x : VbLink) : State :=
  { s with bank := { s.bank with links := store s.bank.links {} l x } }

/-- R293: EJ_LINK_STATUS bits. -/
def vbEnabled : Nat := 0
/-- R293. -/
def vbUp : Nat := 1
/-- R293. -/
def vbDown : Nat := 2
/-- R293. -/
def vbBurst : Nat := 3
/-- R293. -/
def vbWatchdog : Nat := 5

/-- R294: EJ_VALVE_STATUS bits. -/
def evCurrent : Nat := 1
/-- R294. -/
def evOpen : Nat := 2
/-- R294. -/
def evShort : Nat := 3
/-- R294. -/
def evFault : Nat := 4
/-- R294. -/
def evHot : Nat := 5

/-- R282: link `l` is enabled. -/
def State.linkEnabled (s : State) (l : Nat) : Bool := (s.rdN Obj.EJ_LINK_ENABLE).testBit l

/-- R282: link `l` is up. -/
def State.linkUp (s : State) (l : Nat) : Bool := s.bit Obj.EJ_LINK_STATUS 0 l vbUp

/-- R243: the configured state. -/
def State.valveState (s : State) (v : Nat) : Nat := s.rdN Obj.EJ_VALVE_STATE 0 v

/-- R245: HOT. -/
def State.valveHot (s : State) (v : Nat) : Bool := s.bit Obj.EJ_VALVE_STATUS 0 v evHot

/-- R245: a valve is able. -/
def State.valveAble (s : State) (v : Nat) : Bool :=
  (s.valveState v == 1 || s.valveState v == 2) && !s.valveHot v && !s.bit Obj.EJ_VALVE_STATUS 0 v evFault &&
    s.linkUp (v / 64)

/-- R246: the centre of a footprint. -/
def State.valveCentre (s : State) (v : Nat) : Int := (s.rd Obj.EJ_VALVE_WEST_UM 0 v + s.rd Obj.EJ_VALVE_EAST_UM 0 v) / 2

/-- R243: the valves of a row in a state other than unused. -/
def State.rowValves (s : State) (row : Nat) : List Nat :=
  (List.range 2048).filter (fun v => s.valveState v != 0 && s.rdN Obj.EJ_VALVE_ROW 0 v == row)

/-- The first valve of a list for which no other is better. -/
def bestValve (better : Nat → Nat → Bool) (l : List Nat) : Option Nat :=
  match l with
  | [] => none
  | x :: r => some (r.foldl (fun a b => if better b a then b else a) x)

/-- R246: the neighbours of a valve, west then east. -/
def State.neighbours (s : State) (v : Nat) : List Nat :=
  let c := s.valveCentre v
  let l := (s.rowValves (s.rdN Obj.EJ_VALVE_ROW 0 v)).filter (fun u => u != v)
  let w := bestValve (fun a b => decide (s.valveCentre b < s.valveCentre a)) (l.filter (fun u => decide (s.valveCentre u < c)))
  let e := bestValve (fun a b => decide (s.valveCentre a < s.valveCentre b)) (l.filter (fun u => decide (c < s.valveCentre u)))
  w.toList ++ e.toList

/-- R244: what keeps the unit in PREOP: the object of the first valve whose settings fail. One EJ_CONFIG_REFUSED stands for all
of them. -/
def State.bankRefusals (s : State) : List (Nat × Ev) :=
  let vs := (List.range 2048).filter (fun v => s.valveState v != 0)
  let west := fun v => s.last Obj.EJ_VALVE_WEST_UM 0 v
  let east := fun v => s.last Obj.EJ_VALVE_EAST_UM 0 v
  let row := fun v => s.lastN Obj.EJ_VALVE_ROW 0 v
  let bad := fun (v : Nat) =>
    if !(s.lastN Obj.EJ_LINK_ENABLE).testBit (v / 64) then some Obj.EJ_LINK_ENABLE.ident
    else if east v < west v then some (Obj.EJ_VALVE_WEST_UM.ident 0 v)
    else if row v = 2 && s.lastN Obj.EP_ROWS = 1 then some (Obj.EJ_VALVE_ROW.ident 0 v)
    else if vs.any (fun u => u != v && row u == row v && (west u + east u) / 2 == (west v + east v) / 2) then
      some (Obj.EJ_VALVE_WEST_UM.ident 0 v)
    else none
  (vs.findSome? bad).toList.map (fun i => (i, Ev.EJ_CONFIG_REFUSED))

/-! ## The gate and the states (R261 to R264, R291) -/

/-- R291: EJ_STATUS GATED: the bank is blocked. -/
def ejGated : Nat := 2

/-- R291: EJ_STATUS CONFIG_REFUSED. -/
def ejRefused : Nat := 1

/-- R245, R284, R291: an enabled link is down: it is not up, be it that it has not come up yet. -/
def State.linkIsDown (s : State) (l : Nat) : Bool := s.linkEnabled l && !s.linkUp l

/-- R261: the bank is blocked. -/
def State.gated (s : State) : Bool := s.bit Obj.EJ_STATUS 0 0 ejGated

/-- R261, R453, R548, R557: the interlock gate blocks the bank: GATED, and the level of BANK_GATED. -/
def State.gateBank (s : State) : State := (s.setBit Obj.EJ_STATUS 0 0 ejGated true).setLevel 67 true

/-- R262 to R264: no new on edge is issued: HOLD, SAVE and FAULT. -/
def State.edgesHeld (s : State) : Bool := s.mode == stHold || s.mode == stSave || s.mode == stFault

/-- R444: a unit in RUN enters HOLD, for the reason `why`. -/
def State.enterHold (s : State) (why : Nat) : State :=
  if s.mode = stRun then { s.setMode stHold with holdBy := why } else s

/-- R433, R444: the unit enters RUN; the cyclic watchdog runs from here. -/
def State.enterRun (s : State) : State := { s.setMode stRun with mer := { s.mer with cyclic := s.now } }

/-! ## Frames in time (R251) -/

/-- R251: when frame `k` of link `l` freezes. -/
def State.freezeTime (s : State) (l k : Nat) : Int :=
  5000 * (k : Int) - s.rdN Obj.EJ_LINK_LEAD_NS - s.rdN Obj.EJ_LINK_DELAY_NS 0 l - 2000

/-- R251: an edge of valve `v` at time `t` can no longer be issued: its frame has frozen, or the moment for it has passed. -/
def State.frozenAt (s : State) (v : Nat) (t : Int) : Bool :=
  let k := (t / 5000).toNat
  decide (t < 0) || decide (k < (s.vbl (v / 64)).next) || decide (s.freezeTime (v / 64) k < s.now)

/-- R257: the start of the first frame of link `l` that has not frozen. -/
def State.openFrame (s : State) (l : Nat) : Nat :=
  max (s.vbl l).next ((s.now + s.rdN Obj.EJ_LINK_LEAD_NS + s.rdN Obj.EJ_LINK_DELAY_NS 0 l + 6999) / 5000)

/-- R250: an edge goes to the nearest 20 ns, halves up. -/
def edgeGrid (t : Int) : Int := ((t + 10) / 20) * 20

/-- The next 20 ns step at or after a time. -/
def edgeUp (t : Int) : Int := ((t + 19) / 20) * 20

/-! ## Flights and pulses -/

/-- The order `id` of the in-flight queue. -/
def State.flight (s : State) (id : Nat) : Option Flight := s.bank.flights.find? (fun f => f.id == id)

/-- An order of the queue changes. -/
def State.modFlight (s : State) (id : Nat) (f : Flight → Flight) : State :=
  { s with bank := { s.bank with flights := s.bank.flights.map (fun x => if x.id = id then f x else x) } }

/-- Every order a pulse serves changes. -/
def State.modOrders (s : State) (ids : List Nat) (f : Flight → Flight) : State := ids.foldl (fun s i => s.modFlight i f) s

/-- R268: a flag of every order a pulse serves is set. -/
def State.flagOrders (s : State) (ids : List Nat) (b : Nat) : State :=
  s.modOrders ids (fun x => { x with flags := withBit x.flags b true })

/-- R268: the bits. -/
def ofPartial : Nat := 0
/-- R268. -/
def ofSubstituted : Nat := 1
/-- R268. -/
def ofRedirect : Nat := 2
/-- R268. -/
def ofPrecharged : Nat := 3
/-- R268. -/
def ofMerged : Nat := 4
/-- R268. -/
def ofClipped : Nat := 5
/-- R268. -/
def ofEnergised : Nat := 6
/-- R268. -/
def ofUnconfirmed : Nat := 7
/-- R268. -/
def ofLink : Nat := 8
/-- R268. -/
def ofRemote : Nat := 9
/-- R268. -/
def ofRefused : Nat := 10
/-- R268. -/
def ofUnknown : Nat := 11
/-- R268. -/
def ofHold : Nat := 12
/-- R268. -/
def ofLateOff : Nat := 13

/-- The pulse `id`. -/
def State.pulse (s : State) (id : Nat) : Option Pulse := s.bank.pulses.find? (fun p => p.id == id)

/-- A pulse changes. -/
def State.modPulse (s : State) (id : Nat) (f : Pulse → Pulse) : State :=
  { s with bank := { s.bank with pulses := s.bank.pulses.map (fun x => if x.id = id then f x else x) } }

/-- A pulse leaves the store of its valve. -/
def State.removePulse (s : State) (id : Nat) : State :=
  { s with bank := { s.bank with pulses := s.bank.pulses.filter (fun x => x.id != id) } }

/-- R248, R289: the queue's occupancy. -/
def State.queuePublish (s : State) : State :=
  let n := s.bank.flights.length
  (s.putN Obj.EJ_QUEUE_USED 0 0 n).putN Obj.EJ_QUEUE_MAX_SEEN 0 0 (max n (s.rdN Obj.EJ_QUEUE_MAX_SEEN))

/-- The pulses of valve `v`. -/
def State.pulsesOf (s : State) (v : Nat) : List Pulse := s.bank.pulses.filter (fun p => p.valve == v)

/-- R251: a pulse whose on edge can still be moved. -/
def Pulse.waiting (p : Pulse) : Bool := p.onEdge == .planned

/-- R255: a pre-charge that has not been sent is taken back when its main pulse changes. -/
def State.unprecharge (s : State) (main : Nat) : State :=
  { s with bank := { s.bank with pulses := s.bank.pulses.filter (fun x => !(x.main == some main && x.waiting)) } }

/-- The orders a pulse belongs to: of a pre-charge, those of its main pulse. -/
def State.ordersOf (s : State) (p : Pulse) : List Nat :=
  match p.main.bind s.pulse with
  | some m => m.orders
  | none => p.orders

/-- R252, R259, R262, R267: a pulse is dropped: its orders take the flags, and the cause, if it is a main pulse. -/
def State.dropPulse (s : State) (p : Pulse) (cause : Cause) (flags : List Nat := []) : State :=
  let orders := s.ordersOf p
  let s := (s.unprecharge p.id).removePulse p.id
  let s := if p.pre then s else s.modOrders orders (fun x => { x with causes := x.causes ++ [cause] })
  flags.foldl (fun s b => s.flagOrders orders b) s

/-- R255, R267, R269, R270: both edges of a pulse count as executed. -/
def State.completePulse (s : State) (p : Pulse) : State :=
  let s := s.removePulse p.id
  let x := s.valve p.valve
  let s := s.setValve p.valve { x with
    lastOff := some (max p.off (x.lastOff.getD p.off))
    ran := if p.pre then x.ran else some p.charged, tested := x.tested || p.test }
  if p.test then s.count Obj.EJ_VALVE_PULSES 0 p.valve 1
  else if p.pre then
    match p.main with
    | some m => (s.flagOrders (s.ordersOf p) ofPrecharged).modPulse m (fun x => { x with charged := true })
    | none => s
  else
    let s := s.count Obj.EJ_VALVE_PULSES 0 p.valve 1
    s.modOrders p.orders (fun x => { x with
      fired := if x.fired.contains p.valve then x.fired else x.fired ++ [p.valve],
      onTime := some (min p.on (x.onTime.getD p.on)), offTime := max x.offTime p.off })

/-! ## Outcomes (R266 to R270, R273) -/

/-- R266, R267: the code of a cause. -/
def Cause.code (c : Cause) : Nat :=
  match c with
  | .late => 2 | .interlock => 3 | .thermal => 4 | .uncovered => 5 | .power => 6 | .reset => 7 | .overflow => 8

/-- R267: the causes in the order that decides. -/
def causeOrder : List Cause := [.power, .reset, .interlock, .late, .thermal, .uncovered, .overflow]

/-- R267: whether a main pulse completed here or in a remote part. -/
def Flight.hasFired (f : Flight) : Bool := !f.fired.isEmpty || f.remoteOk

/-- R266, R267: the code of an order; one without any position is uncovered (R249). -/
def Flight.code (f : Flight) : Nat :=
  if f.hasFired then (if f.advanced then 1 else 0)
  else ((causeOrder.find? (fun c => f.causes.contains c)).map Cause.code).getD 5

/-- R267: some position has no completed pulse on it or on a substitute. -/
def Flight.isPartial (f : Flight) : Bool :=
  f.hasFired && f.positions.any (fun p => !f.serves.any (fun x => x.1 == p && f.fired.contains x.2))

/-- R269: the outcome of an order. -/
def Flight.outcome (f : Flight) : Outcome :=
  { seq := f.seq, code := f.code, flags := withBit f.flags ofPartial (f.isPartial || f.flags.testBit ofPartial),
    row := f.transit.row, valves := min 255 (f.fired.length + f.remoteFired),
    first := match f.fired with | [] => 65535 | x :: r => r.foldl min x,
    onTime := (f.onTime.getD 0).toNat,
    offDelta := match f.onTime with | none => 0 | some t => (clampInt 0 4294967295 (f.offTime - t)).toNat }

/-- R273: SUB_RESULT. -/
def subResult (f : Flight) : List Byte :=
  let o := f.outcome
  let code := if f.positions.isEmpty && !f.causes.contains .overflow then 255 else o.code
  withCrc (toLe 8 f.orderId ++ toLe 8 o.onTime ++ toLe 4 o.offDelta ++ [code, o.valves] ++ toLe 2 o.flags ++ zeros 4)

/-- R270, R273: an order closes. -/
def State.closeFlight (s : State) (f : Flight) : State :=
  let s := ({ s with bank := { s.bank with flights := s.bank.flights.filter (fun x => x.id != f.id) } }).queuePublish
  match f.kind with
  | .own => (s.count Obj.EJ_OUTCOME_COUNT 0 f.code 1).lgClose f.orderId f.outcome
  | .remote k => s.chordSend k 2 1 (subResult f)
  | _ => s.count Obj.EJ_OUTCOME_COUNT 0 f.code 1

/-- R270: an order has nothing left to wait for. -/
def State.flightDone (s : State) (f : Flight) : Bool :=
  f.remote.isEmpty && s.bank.pulses.all (fun p => !p.orders.contains f.id)

/-- R248: the earliest planned edge of an order; none sorts last. -/
def State.firstEdge (s : State) (f : Flight) : Int :=
  (s.bank.pulses.filter (fun p => p.orders.contains f.id && p.timed)).foldl (fun m p => min m p.on) (2 ^ 64)

/-- R248: the queue is kept in the order of each order's earliest planned edge. -/
def State.queueSort (s : State) : State :=
  let keyed := s.bank.flights.map (fun f => (s.firstEdge f, f))
  { s with bank := { s.bank with
      flights := (sortBy (fun (a b : Int × Flight) => decide (a.1 ≤ b.1)) keyed).map (fun x => x.2) } }

/-- R248, R270: every order whose pulses have completed or been dropped, and whose remote parts have returned, closes; the others
stand in the order of their edges. -/
def State.settle (s : State) : State :=
  ((s.bank.flights.filter (fun f => s.flightDone f)).foldl (fun s f => s.closeFlight f) s).queueSort

/-! ## Pulses of an order (R250, R254 to R256) -/

/-- R250: the width limits: the off edge after them, and whether they changed it. -/
def State.widthLimit (s : State) (on off : Int) : Int × Bool :=
  let lo : Int := s.rdN Obj.EJ_PULSE_MIN_NS
  let hi : Int := s.rdN Obj.EJ_PULSE_MAX_NS
  if off - on < lo then (on + lo, true) else if hi < off - on then (on + hi, true) else (off, false)

/-- R256: the travel sense. -/
def State.beltSense (s : State) : Int :=
  if ((List.range 12).find? (fun p => s.flag Obj.CAM_ENABLE p)).elim 0 (fun p => s.rdN Obj.TG_DIR 0 p) = 0 then 1 else -1

/-- R256: V. -/
def State.beltV (s : State) : Int :=
  match s.beltEncoder with
  | some q => s.beltSense * s.qeSpeed q s.now
  | none => 0

/-- R256: the present count. -/
def State.beltNow (s : State) : Int :=
  match s.beltEncoder with
  | some q => s.rd Obj.QE_POSITION 0 q
  | none => 0

/-- R256: the compensated belt counts of a pulse's edges. -/
def State.beltCounts (s : State) (b : BeltEdges) : Int × Int :=
  let u := s.beltSense
  let v := s.beltV
  (wrap48 (b.lead - u * (b.open_ * v / 16000000000)), wrap48 (b.trail - u * (b.close * v / 16000000000)))

/-- R256: the time at which the belt reaches a count. -/
def State.beltTime (s : State) (p : Int) : Int :=
  s.now + wrap48 (p - s.beltNow) * s.beltSense * 16000000000 / s.beltV

/-- R250, R256: the pulse of an order on valve `v`, substitute or direct, and whether its width was changed. -/
def State.pulseFor (s : State) (f : Flight) (v : Nat) (sub : Bool) : Pulse × Bool :=
  let ri := f.transit.row - 1
  let e : Int := if sub then s.rdN Obj.EJ_SUBST_EXTEND_NS 0 ri else 0
  let lo : Int := s.rdN Obj.EJ_VALVE_OPEN_LAT_NS 0 v
  let lc : Int := s.rdN Obj.EJ_VALVE_CLOSE_LAT_NS 0 v
  let p : Pulse := { id := 0, valve := v, orders := [f.id], on := 0, off := 0 }
  if f.transit.surface then
    let u := s.beltSense
    ({ p with timed := false, belt := some {
        lead := wrap48 (f.transit.lead - u * s.rdN Obj.EJ_MARGIN_LEAD_COUNTS 0 ri),
        trail := wrap48 (f.transit.trail + u * s.rdN Obj.EJ_MARGIN_TRAIL_COUNTS 0 ri), open_ := lo + e, close := lc - e } },
      false)
  else
    let on := edgeGrid (f.transit.lead - s.rdN Obj.EJ_MARGIN_LEAD_NS 0 ri - lo - e)
    let off := edgeGrid (f.transit.trail + s.rdN Obj.EJ_MARGIN_TRAIL_NS 0 ri - lc + e)
    let w := s.widthLimit on off
    ({ p with on := on, off := w.1 }, w.2)

/-- R254: the effective pre-charge width, and whether it is below the configured one; 0 for no pre-charge. -/
def State.chargeWidth (s : State) (v : Nat) : Nat × Bool :=
  let th := s.rdN Obj.EJ_VALVE_OPEN_THRESH_NS 0 v
  let w0 := s.rdN Obj.EJ_VALVE_PC_WIDTH_NS 0 v
  let w := min w0 (6 * th / 200 * 20)
  if th = 0 || w < 5000 then (0, false) else (w, decide (w < w0))

/-- R255: the valve has not been energised within the idle time before `t`, nor will be by a pulse planned to begin before. -/
def State.valveIdle (s : State) (v : Nat) (t : Int) : Bool :=
  let lim := t - s.rdN Obj.EJ_PC_IDLE_NS
  (match (s.valve v).lastOff with
    | some x => decide (x ≤ lim)
    | none => true) &&
    (s.pulsesOf v).all (fun q => !q.timed || decide (q.off ≤ lim) || decide (t ≤ q.on))

/-- R255: the pre-charge of a main pulse is planned, where its conditions hold. A full store drops it (R253). -/
def State.planCharge (s : State) (p : Pulse) : State :=
  let w := s.chargeWidth p.valve
  let off := edgeGrid (p.on - s.rdN Obj.EJ_PC_GAP_NS)
  let on := off - w.1
  if s.rdN Obj.EJ_VALVE_PC_MODE 0 p.valve = 0 || w.1 = 0 || s.valveHot p.valve || s.frozenAt p.valve on ||
      !s.valveIdle p.valve on then s
  else if 32 ≤ (s.pulsesOf p.valve).length then s.count Obj.EJ_PULSE_STORE_FULL 0 0 1
  else
    let q : Pulse := { p with id := s.bank.nextId, pre := true, on := on, off := off, belt := none, main := some p.id }
    { s with bank := { s.bank with pulses := s.bank.pulses ++ [q], nextId := s.bank.nextId + 1 } }

/-! ## Joining and storing (R252, R253) -/

/-- R252: two belt pulses joined: the earlier lead, the later trail. -/
def joinBelt (a b : Pulse) : Option BeltEdges :=
  match a.belt, b.belt with
  | some x, some y => some (if b.off ≤ a.off then x else { y with lead := x.lead, open_ := x.open_ })
  | some x, none => some x
  | none, y => y

/-- R252: the pulse `c` against one stored main pulse `q` of its valve: what becomes of the state and of `c`; none where `c`
is dropped. `c` is stored once it has been joined with a stored pulse. -/
def State.meetPulse (s : State) (c : Pulse) (stored : Bool) (q : Pulse) : State × Option (Pulse × Bool) :=
  let gap : Int := s.rdN Obj.EJ_MIN_GAP_NS
  let first := if q.on ≤ c.on then q else c
  let later := if q.on ≤ c.on then c else q
  if first.off + gap ≤ later.on then (s, some (c, stored))
  else
    let off := max first.off later.off
    if off - first.on ≤ s.rdN Obj.EJ_PULSE_MAX_NS && first.offEdge == .planned && !s.frozenAt first.valve first.off then
      let orders := (q.orders ++ c.orders).eraseDups
      let j : Pulse := { q with
        on := first.on, off := off, orders := orders, direct := q.direct || c.direct, moved := q.moved && c.moved
        onEdge := first.onEdge, belt := joinBelt first later, charged := first.charged, after := first.after }
      let s := if stored then (s.unprecharge c.id).removePulse c.id else s
      let s := if j.charged then s.flagOrders orders ofPrecharged else s
      let s := if j.on = q.on then s else s.unprecharge q.id
      let s := s.modPulse q.id (fun _ => j)
      let s := if 1 < orders.length then s.flagOrders orders ofMerged else s
      (s.count Obj.EJ_MERGED_PULSES 0 0 1, some (j, true))
    else
      let on := edgeUp (first.off + gap)
      let s := s.flagOrders later.orders ofClipped
      let short := decide (later.off - on < s.rdN Obj.EJ_PULSE_MIN_NS)
      if q.on ≤ c.on then
        if short then (s.dropPulse c .overflow, none)
        else
          let s := if stored then (s.unprecharge c.id).modPulse c.id (fun x => { x with on := on }) else s
          (s, some ({ c with on := on }, stored))
      else if short then (s.dropPulse q .overflow, some (c, stored))
      else
        let s := (s.unprecharge q.id).modPulse q.id (fun x => { x with on := on })
        (s.planCharge { q with on := on }, some (c, stored))

/-- R255: a periodic pre-charge too near a planned pulse is omitted. -/
def State.dropPeriodic (s : State) (p : Pulse) : State :=
  let idle : Int := s.rdN Obj.EJ_PC_IDLE_NS
  { s with bank := { s.bank with pulses := s.bank.pulses.filter (fun q =>
      !(q.valve == p.valve && q.pre && !q.test && q.main.isNone && q.waiting && decide (q.on < p.off + idle) &&
        decide (p.on - idle < q.off))) } }

/-- R252, R253, R255: the main pulse `c` enters the store of its valve. -/
def State.placePulse (s : State) (c : Pulse) : State :=
  if !c.timed then
    if 32 ≤ (s.pulsesOf c.valve).length then (s.count Obj.EJ_PULSE_STORE_FULL 0 0 1).dropPulse c .overflow
    else { s with bank := { s.bank with pulses := s.bank.pulses ++ [c] } }
  else
    let s := s.dropPeriodic c
    let qs := sortBy (fun (a b : Pulse) => decide (a.on ≤ b.on))
      ((s.pulsesOf c.valve).filter (fun q => !q.pre && q.timed && q.onEdge != .lost))
    let r := qs.foldl (fun (acc : State × Option (Pulse × Bool)) q =>
      match acc.2 with
      | none => acc
      | some (c, st) =>
        if c.id = q.id then acc
        else
          match acc.1.pulse q.id with
          | none => acc
          | some q => acc.1.meetPulse c st q) (s, some (c, false))
    match r.2 with
    | none => r.1
    | some (c, true) =>
      if c.waiting && r.1.bank.pulses.all (fun x => x.main != some c.id) && !c.charged then r.1.planCharge c else r.1
    | some (c, false) =>
      let s := r.1
      if 32 ≤ (s.pulsesOf c.valve).length then (s.count Obj.EJ_PULSE_STORE_FULL 0 0 1).dropPulse c .overflow
      else ({ s with bank := { s.bank with pulses := s.bank.pulses ++ [c] } }).planCharge c

/-- R252, R253, R255: a new main pulse enters the store of its valve. -/
def State.addPulse (s : State) (p : Pulse) : State :=
  { s with bank := { s.bank with nextId := s.bank.nextId + 1 } }.placePulse { p with id := s.bank.nextId }

/-! ## Planning an order (R249, R251) -/

/-- R249: the positions of an order and the valves that serve each. -/
structure Cover where
  position : Nat
  valves   : List Nat
  direct   : Bool
  hot      : Bool
deriving DecidableEq, Repr

/-- R249: the positions of a span in a row. -/
def State.covers (s : State) (row : Nat) (lo hi : Int) : List Cover :=
  let vs := (s.rowValves row).filter (fun v => (s.valveState v == 1 || s.valveState v == 3) &&
    decide (s.rd Obj.EJ_VALVE_WEST_UM 0 v ≤ hi) && decide (lo ≤ s.rd Obj.EJ_VALVE_EAST_UM 0 v))
  vs.map (fun v =>
    if s.valveAble v then { position := v, valves := [v], direct := true, hot := false }
    else
      let n := s.neighbours v
      { position := v, valves := n.filter (fun u => s.valveAble u), direct := false,
        hot := s.valveHot v || n.any (fun u => s.valveHot u) })

/-- R250, R251: an order's pulses, one a valve; a valve that takes any substitute pulse has it extended. -/
def State.orderPulses (s : State) (f : Flight) (cs : List Cover) : List (Pulse × Bool) :=
  ((cs.flatMap (fun c => c.valves)).eraseDups).map (fun v =>
    let mine := cs.filter (fun c => c.valves.contains v)
    let q := s.pulseFor f v (mine.any (fun c => !c.direct))
    ({ q.1 with direct := mine.any (fun c => c.direct) }, q.2))

/-- R257: an order in surface mode is late at a prediction: its earliest on count lies behind, and how its grace decides:
none not late, some true within the grace, some false beyond it. -/
def State.beltLate (s : State) (f : Flight) (ps : List Pulse) : Option Bool :=
  let u := s.beltSense
  let gone := fun (p : Int) => wrap48 (s.beltNow - p) * u
  let cs := ps.filterMap (fun p => p.belt.map s.beltCounts)
  let worst := cs.foldl (fun (m : Int) c => max m (gone c.1)) 0
  if s.beltV ≤ 0 || worst ≤ 0 then none
  else some (decide (worst ≤ f.grace) && cs.all (fun c => decide (gone c.2 ≤ 0)))

/-- R256, R257, R286: the predicted times of a pulse; the on edges of an order that is late within its grace go into the first open
frame, and one that has met a repeated off edge does not come before the frame after it. A pulse whose predicted on edge lies in
a frozen frame is not timed: it waits for a later prediction, which R257 may find late. -/
def State.predict (s : State) (p : Pulse) (grace : Bool) : Pulse :=
  match p.belt with
  | none => p
  | some b =>
    if s.beltV ≤ 0 then { p with timed := p.timed && p.onEdge != .planned }
    else
      let c := s.beltCounts b
      let on := if p.onEdge != .planned then p.on
        else max p.after (if grace then 5000 * (s.openFrame (p.valve / 64) : Int) else edgeGrid (s.beltTime c.1))
      let off := if p.offEdge != .planned then p.off else edgeGrid (s.beltTime c.2)
      let open_ := p.onEdge != .planned || !s.frozenAt p.valve on
      let w := s.widthLimit on off
      if p.offEdge != .planned then { p with timed := open_, on := on, off := off }
      else { p with timed := open_, on := on, off := w.1, clipped := w.2 }

/-- R249 to R258: an order in the queue is planned against the valves of this unit. -/
def State.planFlight (s : State) (id : Nat) : State :=
  match s.flight id with
  | none => s
  | some f =>
    let ri := f.transit.row - 1
    let m : Int := s.rdN Obj.EJ_MARGIN_X_UM 0 ri
    let cs := s.covers f.transit.row (f.west - m) (f.east + m)
    let bare := (cs.filter (fun c => c.valves.isEmpty)).map (fun c => if c.hot then Cause.thermal else Cause.uncovered)
    let s := s.modFlight id (fun x => { x with
      positions := cs.map (fun c => c.position), causes := x.causes ++ bare,
      serves := cs.flatMap (fun c => c.valves.map (fun v => (c.position, v))) })
    let ps := s.orderPulses f cs
    let subs := sumNat (cs.map (fun c => if c.direct then 0 else c.valves.length))
    let belt := s.beltLate f (ps.map (fun p => p.1))
    let first := ps.foldl (fun (a : Option Pulse) p => match a with
      | none => some p.1
      | some q => some (if p.1.on < q.on then p.1 else q)) none
    let late := if f.transit.surface then belt == some false
      else first.any (fun p => s.frozenAt p.valve p.on)
    if late then s.modFlight id (fun x => { x with causes := x.causes ++ [Cause.late] })
    else
      let s := if subs = 0 then s else (s.count Obj.EJ_SUBSTITUTIONS 0 0 subs).flagOrders [id] ofSubstituted
      let s := if belt == some true then s.modFlight id (fun x => { x with advanced := true }) else s
      let s := if ps.any (fun p => p.2) then s.flagOrders [id] ofClipped else s
      ps.foldl (fun s p =>
        let q := s.predict p.1 (belt == some true)
        if q.timed && s.frozenAt q.valve q.on then s.dropPulse q .late else s.addPulse q) s

/-- R274: an order in surface mode whose P_TRAIL the belt has passed notes when. -/
def State.beltPassed (s : State) : State :=
  let gone := fun (f : Flight) => f.transit.surface && f.passed.isNone &&
    decide (0 < wrap48 (s.beltNow - f.transit.trail) * s.beltSense)
  let now := s.now
  if s.bank.flights.any gone then
    { s with bank := { s.bank with flights := s.bank.flights.map (fun f => if gone f then { f with passed := some now } else f) } }
  else s

/-- R248: an order enters the queue and is planned. -/
def State.enqueue (s : State) (f : Flight) : State :=
  let f := { f with id := s.bank.nextId, accepted := s.now }
  let s := { s with bank := { s.bank with flights := s.bank.flights ++ [f], nextId := s.bank.nextId + 1 } }
  ((s.queuePublish.planFlight f.id).beltPassed).settle

/-- R248: an ejection that is not accepted work takes a slot, if one may be taken; true when it is made. -/
def State.enqueueAux (s : State) (f : Flight) : State × Bool :=
  if s.orderRoom < 8192 - s.bank.flights.length then (s.enqueue f, true)
  else (s.count Obj.EJ_AUX_REFUSED 0 0 1, false)

/-! ## Valves that become unable (R259) -/

/-- R259: a waiting pulse of valve `v` is moved to its able neighbours, or dropped. -/
def State.movePulse (s : State) (p : Pulse) (hot : Bool) : State :=
  let cause := if hot then Cause.thermal else Cause.uncovered
  if p.pre || p.moved || !p.direct then s.dropPulse p cause
  else
    let ns := (s.neighbours p.valve).filter (fun u => s.valveAble u)
    let news := p.orders.flatMap (fun i =>
      match s.flight i with
      | none => []
      | some f => ns.filterMap (fun u =>
          let q := s.pulseFor f u true
          let n := s.predict { q.1 with moved := true, direct := false } false
          let frozen := if n.belt.isSome then !n.timed && decide (0 < s.beltV) else s.frozenAt u n.on
          if frozen then none else some (i, n, q.2)))
    let lost := p.orders.filter (fun i => !news.any (fun x => x.1 == i))
    let s := (s.unprecharge p.id).removePulse p.id
    let s := s.modOrders lost (fun x => { x with causes := x.causes ++ [cause] })
    if news.isEmpty then s
    else
      let s := if hot then s.count Obj.EJ_THERMAL_REDIRECTS 0 0 1 else s
      news.foldl (fun s x =>
        let s := s.modFlight x.1 (fun f => { f with
          serves := f.serves ++ (f.serves.filter (fun y => y.2 == p.valve)).map (fun y => (y.1, x.2.1.valve)) })
        let s := s.flagOrders [x.1] ofSubstituted
        let s := if hot then s.flagOrders [x.1] ofRedirect else s
        let s := if x.2.2 then s.flagOrders [x.1] ofClipped else s
        (s.count Obj.EJ_SUBSTITUTIONS 0 0 1).addPulse x.2.1) s

/-- R259: a valve has become unable: what it has not begun goes to its neighbours. -/
def State.valveUnable (s : State) (v : Nat) (hot : Bool) : State :=
  ((s.pulsesOf v).filter (fun p => p.waiting)).foldl (fun s p =>
    match s.pulse p.id with
    | none => s
    | some p => s.movePulse p hot) s

/-- R491: an executed edge is kept as long as a monitor can ask about it. -/
def State.noteEdge (s : State) (link : Nat) (time : Int) : State :=
  let l := s.bank.edges.filter (fun e => decide ((s.now : Int) - 50000000 < e.2))
  { s with bank := { s.bank with edges := (link, time) :: l } }

/-- R491: the edges of a pulse that lie behind in frozen frames, whose echoes have not come, were executed. -/
def State.noteBehind (s : State) (p : Pulse) : State :=
  let behind := fun (e : Edge) (t : Int) => match e with
    | .frozen _ => decide (t ≤ s.now)
    | _ => false
  let s := if behind p.onEdge p.on then s.noteEdge (p.valve / 64) p.on else s
  if behind p.offEdge p.off then s.noteEdge (p.valve / 64) p.off else s

/-! ## KILL (R262, R264, R265, R267) -/

/-- R267: a pulse has begun: its on edge was executed, or lies behind in a frozen frame. -/
def State.pulseBegun (s : State) (p : Pulse) : Bool :=
  p.onEdge != .planned && p.onEdge != .lost && decide (p.on ≤ s.now)

/-- R267, R285: a pulse's off edge has been executed, or lies behind in a frozen frame; one that was lost and is repeated has
not. -/
def State.pulseEnded (s : State) (p : Pulse) : Bool :=
  p.offEdge != .planned && p.offEdge != .lost && decide (p.off ≤ s.now)

/-- R267: a KILL now comes between the edges of a pulse: it has begun and not ended. -/
def State.pulseCut (s : State) (p : Pulse) : Bool := s.pulseBegun p && !s.pulseEnded p

/-- R269: the executed edges of a main pulse that does not complete. -/
def State.noteEdges (s : State) (p : Pulse) (off : Option Int) : State :=
  if p.pre then s
  else s.modOrders p.orders (fun f => { f with
    onTime := some (min p.on (f.onTime.getD p.on)), offTime := max f.offTime (off.getD (f.onTime.getD p.on)) })

/-- R262, R267, R269: a KILL: pulses that it cuts do not complete and have energised their coil; with `all`, and where the on
edge is frozen and still to come, the others are dropped too, those that have ended without their echoes with their coil
energised. -/
def State.killPulses (s : State) (cause : Cause) (all : Bool) : State :=
  (s.bank.pulses.foldl (fun s p =>
    if s.pulseCut p then
      let x := s.valve p.valve
      let s := s.setValve p.valve { x with lastOff := some (s.now : Int), again := [] }
      ((s.noteBehind p).noteEdges p none).dropPulse p cause [ofEnergised]
    else if p.onEdge == .planned then (if all then s.dropPulse p cause else s)
    else if p.onEdge == .lost then s.removePulse p.id
    else if decide ((s.now : Int) < p.on) then s.dropPulse p cause
    else if all then ((s.noteBehind p).noteEdges p (some p.off)).dropPulse p cause [ofEnergised]
    else s) s).settle

/-- R261: every enabled link starts KILL. -/
def State.killLinks (s : State) : State :=
  ((List.range 32).filter (fun l => s.linkEnabled l)).foldl (fun s l => s.emit (.kill l)) s

end Sys2Proof.Machine
end

