-- ==== Sys2Proof/Machine/Failsafe.lean ====
section
/-! DEFINITION. The failsafe of a failover: its zone, its blind window and the blanket pulses over it
(spec/11_islands_crossings_and_continuity.md, R356 to R358). -/

namespace Sys2Proof.Machine

open Sys2Proof

/-! ## The zone and the blind window (R356) -/

/-- R192, R356: the primary zone of a port in µm; at an end of the machine it ends with the port's columns 0 and C - 1. -/
def State.zoneSpan (s : State) (p : Nat) : Int × Int :=
  let b := s.portMap p
  let ends := (umOf (mapX b 0), umOf (mapX b (256 * ((s.camC p : Int) - 1))))
  if !s.flag Obj.ST_ENABLE then ends
  else
    let order := s.order
    match order.findIdx? (fun q => q == p) with
    | none => ends
    | some i =>
      let west := if i = 0 then (if s.connected 0 then s.rd Obj.ST_WEST_SEAM_X else ends.1) else s.rd Obj.ST_SEAM_X 0 (i - 1)
      let east := if i + 1 = order.length then (if s.connected 1 then s.rd Obj.ST_EAST_SEAM_X else ends.2)
        else s.rd Obj.ST_SEAM_X 0 i
      (west, east)

/-- R356: the zone valves of a port: in service, row 1, over the zone widened by EJ_MARGIN_X_UM. -/
def State.zoneValves (s : State) (p : Nat) : List Nat :=
  let z := s.zoneSpan p
  let m : Int := s.rdN Obj.EJ_MARGIN_X_UM 0 0
  (s.rowValves 1).filter (fun v => s.valveState v == 1 && decide (s.rd Obj.EJ_VALVE_WEST_UM 0 v ≤ z.2 + m) &&
    decide (z.1 - m ≤ s.rd Obj.EJ_VALVE_EAST_UM 0 v))

/-- R356: P. -/
def State.zoneLead (s : State) (p : Nat) : Nat :=
  s.rdN Obj.EJ_LINK_LEAD_NS + (s.zoneValves p).foldl (fun m v => max m (s.rdN Obj.EJ_VALVE_OPEN_LAT_NS 0 v)) 0 + 7000

/-- R356: the end of B2: 250 µs and P after the spare caught up; while it has not, after now. -/
def State.blindEnd (s : State) (p : Nat) (f : Failover) : Int := (f.caught.getD s.now : Nat) + 250000 + (s.zoneLead p : Int)

/-- R356: a time lies in the blind window of a port's failover, which is taken from the detection on. -/
def State.blindAt (s : State) (p : Nat) (t : Int) : Bool :=
  match look s.cont.failover none p with
  | none => false
  | some f =>
    decide ((f.detected : Int) ≤ t) && ((match f.b1 with
     | some b => decide (b.1 ≤ t) && decide (t ≤ b.2)
     | none => false) || (decide (f.b2 ≤ t) && decide (t ≤ s.blindEnd p f)))

/-! ## Blanket pulses (R357) -/

/-- R250, R357: a window of edges cut into pulses of at most `hi` ns and `gap` ns apart, on the 20 ns grid; `fuel` bounds their
number. -/
def chunks (fuel : Nat) (on off hi gap : Int) : List (Int × Int) :=
  match fuel with
  | 0 => []
  | n + 1 =>
    if off ≤ on then []
    else if off - on ≤ hi then [(on, off)]
    else
      let cut := (on + hi) / 20 * 20
      (on, cut) :: chunks n (edgeUp (cut + gap)) off hi gap

/-- R250, R357: the edges of valve `v` for a window: T_LEAD and T_TRAIL at its ends, no margins, e = 0; an on edge whose frame
has frozen goes to the first open one. -/
def State.blanketEdges (s : State) (v : Nat) (lo hi : Int) : List (Int × Int) :=
  let on := max (edgeGrid (lo - s.rdN Obj.EJ_VALVE_OPEN_LAT_NS 0 v)) (5000 * (s.openFrame (v / 64) : Int))
  let off := edgeGrid (hi - s.rdN Obj.EJ_VALVE_CLOSE_LAT_NS 0 v)
  let w : Int := s.rdN Obj.EJ_PULSE_MAX_NS
  let gap : Int := s.rdN Obj.EJ_MIN_GAP_NS
  (chunks ((off - on) / (w + gap) + 2).toNat on off w gap).map (fun x => (x.1, (s.widthLimit x.1 x.2).1))

/-- R357: one blanket pulse of the flight `id` on valve `v`, counted where the valve takes it. -/
def State.blanketAdd (s : State) (id v : Nat) (x : Int × Int) : State :=
  let drops := fun (s : State) => ((s.flight id).map (fun f => f.causes.length)).getD 0
  let n := drops s
  let s := s.addPulse { id := 0, valve := v, orders := [id], on := x.1, off := x.2 }
  if drops s = n then s.count Obj.RV_FAILSAFE_PULSES 0 0 1 else s

/-- R357: blanket pulses of the flight `id` on valve `v`. -/
def State.blanketValve (s : State) (id v : Nat) (lo hi : Int) : State :=
  (s.blanketEdges v lo hi).foldl (fun s x => s.blanketAdd id v x) s

/-- R248, R357: an auxiliary ejection over the zone of port `p` from `lo` to `hi`, if a slot may be taken. -/
def State.blanket (s : State) (p : Nat) (lo hi : Int) : State :=
  let vs := (s.zoneValves p).filter (fun v => s.valveAble v)
  if vs.isEmpty then s
  else if s.orderRoom < 8192 - s.bank.flights.length then
    let f : Flight := { id := s.bank.nextId, kind := .blanket, seq := 0, orderId := 0, port := p, accepted := s.now,
                        transit := { row := 1, lead := lo, centre := lo, trail := hi }, west := (s.zoneSpan p).1,
                        east := (s.zoneSpan p).2, positions := vs, serves := vs.map (fun v => (v, v)) }
    let s := { s with bank := { s.bank with flights := s.bank.flights ++ [f], nextId := s.bank.nextId + 1 } }.queuePublish
    (vs.foldl (fun s v => s.blanketValve f.id v lo hi) s).settle
  else s.count Obj.EJ_AUX_REFUSED 0 0 1

/-- R357: the last pulse of valve `v` that the blanket ejection `id` holds, where its off edge can still move. -/
def State.blanketPulse (s : State) (id v : Nat) : Option Pulse :=
  let mine := (s.pulsesOf v).filter (fun q => !q.pre && q.orders.contains id)
  ((sortBy (fun (a b : Pulse) => decide (b.off ≤ a.off)) mine).head?).filter (fun q =>
    q.offEdge == .planned && !s.frozenAt v q.off)

/-- R356, R357: while B2 grows, the blanket of a valve grows with it, from `lo`, up to which it has been planned, to `hi`. -/
def State.growValve (s : State) (id v : Nat) (lo hi : Int) : State :=
  match s.blanketPulse id v with
  | none => if s.valveAble v then s.blanketValve id v lo hi else s
  | some q =>
    let w : Int := s.rdN Obj.EJ_PULSE_MAX_NS
    let gap : Int := s.rdN Obj.EJ_MIN_GAP_NS
    let off := edgeGrid (hi - s.rdN Obj.EJ_VALVE_CLOSE_LAT_NS 0 v)
    let cut := min off ((q.on + w) / 20 * 20)
    let s := s.modPulse q.id (fun x => { x with off := max x.off cut })
    let on := edgeUp (cut + gap)
    ((chunks ((off - on) / (w + gap) + 2).toNat on off w gap).filter (fun x =>
      decide ((s.rdN Obj.EJ_PULSE_MIN_NS : Int) ≤ x.2 - x.1))).foldl (fun s x => s.blanketAdd id v x) s

/-- The last failover of port `p`. -/
def State.failoverOf (s : State) (p : Nat) : Option Failover := look s.cont.failover none p

/-- The last failover of port `p` becomes `f`. -/
def State.setFailover (s : State) (p : Nat) (f : Option Failover) : State :=
  { s with cont := { s.cont with failover := store s.cont.failover none p f } }

/-- R356, R357: B2 of port `p` is covered up to its present end. -/
def State.growBlanket (s : State) (p : Nat) : State :=
  match s.failoverOf p with
  | none => s
  | some f =>
    let hi := s.blindEnd p f
    let lo := max f.b2 f.detected
    if s.rdN Obj.RV_FAILSAFE_POLICY != 0 || hi ≤ lo || hi ≤ f.planned then s
    else
      let s := match s.bank.flights.find? (fun x => x.kind == .blanket && x.port == p) with
        | some x => (s.zoneValves p).foldl (fun (s : State) v => s.growValve x.id v (max lo f.planned) hi) s
        | none => s.blanket p lo hi
      s.setFailover p (some { f with planned := hi })

/-- R356, R357: every growing B2. -/
def State.growBlankets (s : State) : State := (List.range 12).foldl (fun s p => s.growBlanket p) s

end Sys2Proof.Machine
end

