-- ==== Sys2Proof/Machine/ValveLinks.lean ====
section
/-! DEFINITION. The valve bank links: freezing and sending frames, echoes, status words, link loss, the interlock gate, and
remote orders (spec/09_ejector_bank.md, R251, R256 to R264, R271 to R288). -/

namespace Sys2Proof.Machine

open Sys2Proof

/-! ## Predictions in surface mode (R256 to R258) -/

/-- R256: a waiting surface pulse takes its new prediction: stored anew where its edges changed. -/
def State.repredictPulse (s : State) (id : Nat) : State :=
  match s.pulse id with
  | none => s
  | some p =>
    let grace := p.orders.any (fun i => (s.flight i).any (fun f => f.advanced))
    let q := s.predict p grace
    if q = p then s
    else if p.onEdge != .planned then s.modPulse id (fun _ => q)
    else ((s.unprecharge id).removePulse id).placePulse q

/-- R257: an order is judged at a prediction by the pulses it has still to begin: late within its grace it is advanced, late
beyond it what it has not begun is dropped. -/
def State.relate (s : State) (f : Flight) : State :=
  let ps := s.bank.pulses.filter (fun p => p.orders.contains f.id && p.belt.isSome && !p.pre && p.waiting)
  match s.beltLate f ps with
  | none => s
  | some true => s.modFlight f.id (fun x => { x with advanced := true })
  | some false =>
    ps.foldl (fun s p =>
      let rest := p.orders.filter (fun i => i != f.id)
      if rest.isEmpty then s.dropPulse p .late
      else (s.modPulse p.id (fun x => { x with orders := rest })).modFlight f.id
        (fun x => { x with causes := x.causes ++ [.late] })) s

/-- R256, R257: the prediction is repeated for a frame. -/
def State.repredict (s : State) : State :=
  if s.bank.flights.any (fun f => f.transit.surface) then
    let s := (s.bank.flights.filter (fun f => f.transit.surface)).foldl (fun s f => s.relate f) s
    let ps := sortBy (fun (a b : Pulse) => decide (a.on ≤ b.on))
      (s.bank.pulses.filter (fun p => p.belt.isSome && (p.waiting || p.offEdge == .planned)))
    ((ps.foldl (fun s p => s.repredictPulse p.id) s).beltPassed).settle
  else s

/-- R258: a surface order that has waited long enough with no edge issued is late. -/
def State.surfaceGiveUp (s : State) (f : Flight) : State :=
  let ps := s.bank.pulses.filter (fun p => p.orders.contains f.id && !p.pre)
  if f.transit.surface && decide (f.accepted + s.rdN Obj.EJ_SURFACE_MAX_WAIT_MS * 1000000 ≤ s.now) &&
      ps.all (fun p => p.waiting) && f.fired.isEmpty then
    ps.foldl (fun s p =>
      let rest := p.orders.filter (fun i => i != f.id)
      if rest.isEmpty then s.dropPulse p .late
      else (s.modPulse p.id (fun x => { x with orders := rest })).modFlight f.id
        (fun x => { x with causes := x.causes ++ [.late] })) s
  else s

/-- R258: EJ_SURFACE_MAX_WAIT_MS has passed for a surface order. -/
def execSurfaceWaitTimeout (t : Nat) (s : State) : Result :=
  let s := s.at t
  .next (s.bank.flights.foldl (fun s f => s.surfaceGiveUp f) s).settle

/-! ## Freezing a frame (R251, R277, R286) -/

/-- The frame a time lies in. -/
def frameOf (t : Int) : Int := t / 5000

/-- The place of a time in its frame, in units of 20 ns. -/
def frameOffset (t : Int) : Nat := ((t % 5000) / 20).toNat

/-- R262, R263: why no on edge of this pulse may go into a frame now: dropped with INTERLOCK, and the flags its order takes. -/
def State.onBlocked (s : State) : Option (List Nat) :=
  if s.gated then some []
  else if s.edgesHeld then some [ofHold]
  else none

/-- R286: a planned on edge meets a repeated off edge: a main pulse begins in the next frame, a pre-charge is omitted. -/
def State.meetRepeat (s : State) (p : Pulse) (k : Nat) : State :=
  if p.pre then s.removePulse p.id
  else
    let s := (s.unprecharge p.id).flagOrders p.orders ofClipped
    let on : Int := 5000 * ((k : Int) + 1)
    if p.off - on < s.rdN Obj.EJ_PULSE_MIN_NS then s.dropPulse p .overflow
    else s.modPulse p.id (fun x => { x with on := on, after := on })

/-- R255: a pre-charge that is due is sent only where its conditions still hold. -/
def State.chargeHolds (s : State) (p : Pulse) : Bool :=
  p.test || (!s.valveHot p.valve && ({ s with bank := { s.bank with
    pulses := s.bank.pulses.filter (fun q => q.id != p.id) } }).valveIdle p.valve p.on)

/-- R251, R254, R262, R286: an on edge that is due in frame `k`; the frame's new entry, if it is issued. -/
def State.freezeOn (s : State) (p : Pulse) (k : Nat) : State × List FrameEdge :=
  match s.onBlocked with
  | some flags => (s.dropPulse p .interlock flags, [])
  | none =>
    if !(s.valve p.valve).again.isEmpty then (s.meetRepeat p k, [])
    else if p.pre && !s.chargeHolds p then (s.removePulse p.id, [])
    else
      let s := if p.pre && !p.test && (s.chargeWidth p.valve).2 then s.count Obj.EJ_PC_CLAMPED 0 0 1 else s
      (s.modPulse p.id (fun x => { x with onEdge := .frozen k }),
        [{ channel := p.valve % 64, code := if p.pre then 3 else 1, offset := frameOffset p.on, pulse := p.id, on := true }])

/-- R251, R286: an off edge that is due in frame `k`; a repeat of the same frame satisfies it. One that a new prediction has put into
a frame that is frozen goes to the start of this one (log entry 134). -/
def State.freezeOff (s : State) (p : Pulse) (k : Nat) : State × List FrameEdge :=
  let rep := !(s.valve p.valve).again.isEmpty
  let p := { p with off := max p.off (5000 * (k : Int)) }
  let s := if p.clipped && p.belt.isSome then s.flagOrders p.orders ofClipped else s
  (s.modPulse p.id (fun x => { x with off := p.off, offEdge := .frozen k }),
    [{ channel := p.valve % 64, code := 2, offset := if rep then 0 else frameOffset p.off, pulse := p.id, on := false,
       again := rep }])

/-- R251: the pulse `id` against frame `k` of its link. -/
def State.freezePulse (s : State) (id k : Nat) : State × List FrameEdge :=
  match s.pulse id with
  | none => (s, [])
  | some p =>
    if p.timed && p.onEdge == .planned && frameOf p.on == (k : Int) then s.freezeOn p k
    else if p.onEdge != .planned && p.offEdge == .planned && decide (frameOf p.off ≤ (k : Int)) then s.freezeOff p k
    else (s, [])

/-- R285: the repeats that frame carries: the off edge again, at OFFSET 0, for each valve whose off edge was lost. -/
def State.repeats (s : State) (l : Nat) : List FrameEdge :=
  (List.range 64).flatMap (fun c => (s.valve (64 * l + c)).again.map (fun id =>
    { channel := c, code := 2, offset := 0, pulse := id, on := false, again := true }))

/-- R251: the contents of frame `k` of link `l` freeze. Off edges come first, as they free the valve. -/
def State.freezeFrame (s : State) (l k : Nat) : State :=
  let s := s.growBlankets.repredict
  let ids := (sortBy (fun (a b : Pulse) => decide (a.on ≤ b.on))
    (s.bank.pulses.filter (fun p => p.valve / 64 == l))).map (fun p => p.id)
  let r := ids.foldl (fun (a : State × List FrameEdge) id =>
    let q := a.1.freezePulse id k
    (q.1, a.2 ++ q.2)) (s, s.repeats l)
  let x := r.1.vbl l
  let f : Frame := { k := k, lead := r.1.rdN Obj.EJ_LINK_LEAD_NS / 20, edges := r.2 }
  (r.1.setVbl l { x with next := k + 1, frozen := x.frozen ++ [f] }).settle

/-! ## Sending a frame (R275 to R278) -/

/-- R278: one bit of the CRC-16. -/
def crc16Bit (c : Nat) : Nat := if c.testBit 15 then (2 * c % 65536) ^^^ 0x1021 else 2 * c % 65536

/-- R278: one byte of the CRC-16. -/
def crc16Byte (c b : Nat) : Nat := (List.range 8).foldl (fun c _ => crc16Bit c) (c ^^^ (256 * (b % 256)))

/-- R278: the CRC-16 of the valve bank link. -/
def crc16 (l : List Byte) : Nat := l.foldl crc16Byte 0xffff

/-- R276: the header. -/
def frameHeader (link : Nat) (gate save : Bool) (lead k : Nat) : Nat :=
  2 ^ 60 + (link % 32) * 2 ^ 55 + (if gate then 2 ^ 54 else 0) + (if save then 2 ^ 53 else 0) + (lead % 65536) * 2 ^ 32 +
    k % 2 ^ 32

/-- R277: the entry of a channel: 9:8 CODE, 7:0 OFFSET. -/
def entryWord (edges : List FrameEdge) (c : Nat) : Nat :=
  match edges.find? (fun e => e.channel == c) with
  | some e => e.code * 256 + e.offset
  | none => 0

/-- R275: the 90 bytes between start and end of frame. -/
def frameBytes (link : Nat) (gate save : Bool) (f : Frame) : List Byte :=
  let entries := sumNat ((List.range 64).map (fun c => entryWord f.edges c * 2 ^ (10 * c)))
  let body := toLe 8 (frameHeader link gate save f.lead f.k) ++ toLe 80 entries
  body ++ toLe 2 (crc16 body)

/-- R262, R265, R282: GATE of a frame: the bank is blocked, the link is not up, or a warm reset runs. -/
def State.frameGate (s : State) (l : Nat) : Bool := s.gated || !s.linkUp l || s.mode == stBoot

/-- R275: what of a frozen frame goes out: no on edges while GATE is set, and none of pulses that are gone. -/
def State.sentFrame (s : State) (l : Nat) (f : Frame) : Frame :=
  { f with edges := f.edges.filter (fun e => !e.on || (!s.frameGate l && (s.pulse e.pulse).isSome)) }

/-- R275: the oldest frozen frame goes out. -/
def State.sendFrame (s : State) (l : Nat) (f : Frame) : State :=
  let x := s.vbl l
  let gate := s.frameGate l
  let f := s.sentFrame l f
  (s.setVbl l { x with frozen := x.frozen.drop 1, sent := x.sent ++ [f] }).emit
    (.frame l (frameBytes l gate (s.mode == stSave) f))

/-- R251, R275: the start of frame of the oldest frozen frame. -/
def execFrameTransmit (t : Nat) (link : Fin 32) (s : State) : Result :=
  let s := s.at t
  match (s.vbl link).frozen with
  | [] => .next s
  | f :: _ =>
    if 5000 * f.k ≤ s.now + 20 * f.lead + s.rdN Obj.EJ_LINK_DELAY_NS 0 link then .next (s.sendFrame link f) else .next s

/-! ## Links up and down (R282, R284, R288) -/

/-- R453: the level of source 116: any enabled link is down. -/
def State.linkLevel (s : State) : State :=
  s.setLevel 116 ((List.range 32).any s.linkIsDown)

/-- R288: a pulse on a link that goes down: frozen and not echoed, it sets UNCONFIRMED and counts as completed; those of its
edges that lie behind were executed (R491). -/
def State.linkDownPulse (s : State) (p : Pulse) : State :=
  match p.onEdge with
  | .frozen _ => ((s.noteBehind p).flagOrders p.orders ofUnconfirmed).completePulse p
  | _ => s

/-- R284, R288: the link goes down. -/
def State.vbDownNow (s : State) (l : Nat) (burst : Bool) : State :=
  if !s.linkUp l then s
  else
    let x := s.vbl l
    let s := s.setVbl l { x with good := 0, missing := 0, missedAt := none, errors := [], pingOut := false }
    let s := (s.setBit Obj.EJ_LINK_STATUS 0 l vbUp false).setBit Obj.EJ_LINK_STATUS 0 l vbDown true
    let s := if burst then s.setBit Obj.EJ_LINK_STATUS 0 l vbBurst true else s
    let s := ((s.count Obj.EJ_LINK_DOWN_COUNT 0 l 1).raise .VB_LINK_DOWN (Obj.EJ_LINK_STATUS.ident 0 l)).partFault 5 l
    let ps := s.bank.pulses.filter (fun p => p.valve / 64 == l)
    let s := ps.foldl (fun s p => s.linkDownPulse p) s.linkLevel
    ((List.range 64).foldl (fun s c => s.valveUnable (64 * l + c) (s.valveHot (64 * l + c))) s).settle

/-- R282: the link is up. -/
def State.vbUpNow (s : State) (l : Nat) : State :=
  let s := s.setVbl l { s.vbl l with status := s.now, ping := none, pingOut := false }
  let s := (s.setBit Obj.EJ_LINK_STATUS 0 l vbUp true).setBit Obj.EJ_LINK_STATUS 0 l vbDown false
  ((s.setBit Obj.EJ_LINK_STATUS 0 l vbBurst false).linkLevel).partBack 5 l

/-- R284: a CRC failure or a BAD_FRAME echo; the eighth within 1 ms takes the link down. -/
def State.vbError (s : State) (l : Nat) : State :=
  let x := s.vbl l
  let es := (s.now :: x.errors).filter (fun e => decide (s.now < e + 1000000))
  let s := s.setVbl l { x with errors := es }
  if 8 ≤ es.length then s.vbDownNow l true else s

/-- R282: an echo without error. -/
def State.vbGood (s : State) (l : Nat) : State :=
  let x := s.vbl l
  let s := s.setVbl l { x with good := x.good + 1 }
  if 16 ≤ x.good + 1 && !s.linkUp l then s.vbUpNow l else s

/-! ## Echoes (R280, R283, R285 to R288) -/

/-- R267: a pulse whose two edges have been executed completes. -/
def State.endPulse (s : State) (id : Nat) : State :=
  match s.pulse id with
  | none => s
  | some p => if p.onEdge == .executed && p.offEdge == .executed then s.completePulse p else s

/-- R267, R285: an edge of frame `k` was executed. An off edge of a pulse whose on edge was lost ends it unfired; a repeated off
edge beyond the widest pulse ends one that does not complete (log entry 236). -/
def State.edgeDone (s : State) (k : Nat) (e : FrameEdge) : State :=
  match s.pulse e.pulse with
  | none => s
  | some p =>
    if e.on then ((s.noteEdge (p.valve / 64) p.on).modPulse p.id (fun x => { x with onEdge := .executed })).endPulse p.id
    else
      let x := s.valve p.valve
      let s := if e.again then s.setValve p.valve { x with again := x.again.filter (fun i => i != p.id) } else s
      if p.onEdge == .lost then s.removePulse p.id
      else
        let off := if p.offEdge == .lost then 5000 * (k : Int) else p.off
        let s := s.noteEdge (p.valve / 64) off
        if p.offEdge == .lost && decide (p.on + s.rdN Obj.EJ_PULSE_MAX_NS < off) then
          let x := s.valve p.valve
          let s := s.setValve p.valve { x with lastOff := some (max off (x.lastOff.getD off)) }
          (s.noteEdges p (some off)).dropPulse p .uncovered [ofLink, ofEnergised]
        else (s.modPulse p.id (fun x => { x with offEdge := .executed, off := off })).endPulse p.id

/-- R285: an edge of a frame that the driver did not take: a lost on edge drops its pulse, a lost off edge is repeated. A pre-charge
that is lost decides no code (R267). -/
def State.edgeLost (s : State) (e : FrameEdge) : State :=
  match s.pulse e.pulse with
  | none => s
  | some p =>
    if e.on then
      let s := s.flagOrders (s.ordersOf p) ofLink
      let s := if p.pre then s else s.modOrders p.orders (fun x => { x with causes := x.causes ++ [.uncovered] })
      s.modPulse p.id (fun x => { x with onEdge := .lost, orders := [] })
    else if p.onEdge == .lost then s.removePulse p.id
    else
      let x := s.valve p.valve
      let s := if x.again.contains p.id then s else s.setValve p.valve { x with again := x.again ++ [p.id] }
      (s.flagOrders p.orders ofLateOff).modPulse p.id (fun x => { x with offEdge := .lost })

/-- R283: the echo of frame `f`: executed edges, and the rest that waits for its timeout. -/
def State.echoFrame (s : State) (l : Nat) (f : Frame) (executed : Nat) : State :=
  let done := f.edges.filter (fun e => executed.testBit e.channel)
  let rest := f.edges.filter (fun e => !executed.testBit e.channel)
  let x := s.vbl l
  let others := x.sent.filter (fun g => g.k != f.k)
  let sent := if rest.isEmpty then others
    else x.sent.map (fun g => if g.k = f.k then { f with edges := rest, echoed := true } else g)
  done.foldl (fun s e => s.edgeDone f.k e) (s.setVbl l { x with sent := sent })

/-- R280, R283, R284: an ECHO is received; a bad one counts, be its frame's time over. The edges of a bad frame wait for their timeout
as edges of no pulse, to be counted as missing. -/
def execEcho (t : Nat) (link : Fin 32) (frame flags executed : Nat) (crcOk : Bool) (s : State) : Result :=
  let s := s.at t
  let l := link.val
  if !crcOk then
    let s := s.setVbl l { s.vbl l with good := 0 }
    .next ((s.count Obj.EJ_LINK_CRC_ERRORS 0 l 1).vbError l)
  else
    let s := s.setBit Obj.EJ_LINK_STATUS 0 l vbWatchdog (flags.testBit 2)
    let bad := flags.testBit 0
    let s := if bad then (s.setVbl l { s.vbl l with good := 0 }).count Obj.EJ_LINK_BAD_FRAMES 0 l 1 else s
    match (s.vbl l).sent.find? (fun f => f.k % 65536 == frame && !f.echoed) with
    | none => .next (if bad then s.vbError l else s)
    | some f =>
      if bad then
        let x := s.vbl l
        let gone := f.edges.map (fun e => { e with pulse := 0, again := false })
        let s := s.setVbl l { x with
          good := 0, sent := x.sent.map (fun g => if g.k = f.k then { f with edges := gone, echoed := true } else g) }
        let s := f.edges.foldl (fun s e => s.edgeLost e) s
        .next (s.vbError l).settle
      else .next ((s.echoFrame l f executed).vbGood l).settle

/-- R267, R285: the echo of an edge did not come in time: it counts as executed, but for a repeated off edge, which is repeated
until it is echoed. -/
def State.edgeUnechoed (s : State) (k : Nat) (e : FrameEdge) : State :=
  match s.pulse e.pulse with
  | none => s
  | some p =>
    if e.again && (s.valve p.valve).again.contains p.id then s
    else (s.flagOrders (s.ordersOf p) ofUnconfirmed).edgeDone k e

/-- R267, R283, R284: an echo, or the echo of single edges, did not come in time: an entry that stands for two edges (R286) is one
edge that was commanded. Echoes are consecutive by their frames. -/
def State.echoMissed (s : State) (l : Nat) (f : Frame) : State :=
  let x := s.vbl l
  let run := if x.missedAt.any (fun k => k + 1 == f.k) then x.missing + 1 else 1
  let y := { x with sent := x.sent.filter (fun g => g.k != f.k) }
  let s := s.setVbl l (if f.echoed then y else { y with missing := run, missedAt := some f.k, good := 0, late := some s.now })
  let lost := (f.edges.map (fun e => e.channel)).eraseDups.length
  let s := if lost = 0 then s else s.count Obj.EJ_ECHO_MISSING 0 l lost
  let s := f.edges.foldl (fun s e => s.edgeUnechoed f.k e) s
  let s := if !f.echoed && decide (3 ≤ run) then s.vbDownNow l false else s
  s.settle

/-- R267, R283: EJ_ECHO_TIMEOUT_NS after the window of the oldest frame whose echo, or part of it, is missing. -/
def execEchoTimeout (t : Nat) (link : Fin 32) (s : State) : Result :=
  let s := s.at t
  match (s.vbl link).sent with
  | [] => .next s
  | f :: _ =>
    if 5000 * (f.k + 1) + s.rdN Obj.EJ_ECHO_TIMEOUT_NS ≤ s.now then .next (s.echoMissed link f) else .next s

/-- R284: no STATUS for 3 ms. -/
def execStatusTimeout (t : Nat) (link : Fin 32) (s : State) : Result :=
  let s := s.at t
  if s.linkUp link && decide ((s.vbl link).status + 3000000 ≤ s.now) then .next (s.vbDownNow link false) else .next s

/-! ## Status words (R245, R259, R281) -/

/-- R453: the level of source 117: any valve is HOT. -/
def State.hotLevel (s : State) : State := s.setLevel 117 ((List.range 2048).any (fun v => s.valveHot v))

/-- R245, R259: HOT of a valve after a reported temperature. -/
def hotAfter (was : Bool) (temp limit hyst : Int) : Bool :=
  if limit ≤ temp then true else if temp ≤ limit - hyst then false else was

/-- R245: FAULT after a status word, with the runs of words with and without a fault. -/
def State.valveFault (s : State) (v : Nat) (bad : Bool) : State :=
  let x := s.valve v
  let nb := if bad then x.bad + 1 else 0
  let nc := if bad then 0 else x.clean + 1
  let s := s.setValve v { x with bad := min nb 2, clean := min nc 2 }
  let was := s.bit Obj.EJ_VALVE_STATUS 0 v evFault
  let is := if bad then was || decide (2 ≤ nb) else was && decide (nc < 2)
  if was = is then s
  else (s.setBit Obj.EJ_VALVE_STATUS 0 v evFault is).raise .VALVE_FAULT (Obj.EJ_VALVE_STATUS.ident 0 v)

/-- R281: the word of valve `v`: 31 CURRENT_VALID, 30 OPEN_CIRCUIT, 29 SHORT, 23:16 TEMP, 15:0 LATENCY. -/
def State.valveWord (s : State) (v w : Nat) : State :=
  let temp : Int := (fieldOf w 16 8 : Int) - 40
  let s := (s.put Obj.EJ_VALVE_TEMP 0 v temp).setBit Obj.EJ_VALVE_STATUS 0 v evCurrent (w.testBit 31)
  let s := (s.setBit Obj.EJ_VALVE_STATUS 0 v evOpen (w.testBit 30)).setBit Obj.EJ_VALVE_STATUS 0 v evShort (w.testBit 29)
  let hot := hotAfter (s.valveHot v) temp (s.rd Obj.EJ_TEMP_LIMIT) (s.rd Obj.EJ_TEMP_HYST)
  let s := (s.setBit Obj.EJ_VALVE_STATUS 0 v evHot hot).valveFault v (w.testBit 30 || w.testBit 29)
  if w % 65536 = 0 then s else s.putN Obj.EJ_VALVE_LAT_MEASURED 0 v (w % 65536)

/-- R259, R281: a STATUS without error: every valve word and the board word. The words of one STATUS hold together: pulses
move off the valves that it makes unable once all of them are known (log entry 59). -/
def State.valveStatus (s : State) (l : Nat) (words : List Nat) (board : Nat) : State :=
  let s := s.setVbl l { s.vbl l with status := s.now, heard := some s.now }
  let s := s.putN Obj.EJ_LINK_BOARD_WORD 0 l board
  let able := ((List.range words.length).map (fun c => 64 * l + c)).filter (fun v => s.valveAble v)
  let s := words.zipIdx.foldl (fun s p => s.valveWord (64 * l + p.2) p.1) s
  let lost := able.filter (fun v => !s.valveAble v)
  (lost.foldl (fun (s : State) v => s.valveUnable v (s.valveHot v)) s).hotLevel.settle

/-! ## PING (R282) -/

/-- R282: at link-up, and every 1 s after it. -/
def execPing (t : Nat) (link : Fin 32) (s : State) : Result :=
  let s := s.at t
  let x := s.vbl link
  if s.linkUp link && x.ping.all (fun p => decide (p + 1000000000 ≤ s.now)) then
    .next ((s.setVbl link { x with ping := some s.now, pingOut := true }).emit (.ping link))
  else .next s

/-- R282: half the round trip less 100 ns, rounded to the nearest ns. -/
def execPingReturn (t : Nat) (link : Fin 32) (s : State) : Result :=
  let s := s.at t
  let x := s.vbl link
  match x.ping, x.pingOut with
  | some p, true =>
    .next ((s.setVbl link { x with pingOut := false }).putN Obj.EJ_LINK_DELAY_NS 0 link ((s.now - p + 1) / 2 - 100))
  | _, _ => .next s

/-! ## The interlock gate (R261, R262) -/

/-- R292: a source of the gate. -/
def State.ilkOpen (s : State) (i : Nat) : Bool := (s.rdN Obj.EJ_ILK_STATE).testBit i

/-- R453: the level of a loop's own source, and of the gate. -/
def State.ilkLevels (s : State) : State :=
  let s := (List.range 3).foldl (fun s i => s.setLevel (64 + i) (s.ilkOpen i)) s
  s.setLevel 67 s.gated

/-- R261, R262, R588: source `i` opens: the bank is blocked, every enabled link sends KILL, and a unit in RUN enters HOLD. Sources that
open at the same time make one gate event. -/
def State.ilkOpens (s : State) (i : Nat) : State :=
  if s.ilkOpen i then s
  else
    let s := (s.setBit Obj.EJ_ILK_STATE 0 0 i true).count Obj.EJ_ILK_OPEN_COUNT 0 i 1
    let fresh := s.bank.gateEvent != some s.now
    let s := { s with bank := { s.bank with closedAt := none, gateEvent := some s.now } }.setBit Obj.EJ_STATUS 0 0 ejGated true
    let s := s.ilkLevels
    ((if fresh then s.killLinks else s).killPulses .interlock false).enterHold 1

/-- R262: source `i` closes; the time to release runs once every source has closed. -/
def State.ilkCloses (s : State) (i : Nat) : State :=
  if !s.ilkOpen i then s
  else
    let s := s.setBit Obj.EJ_ILK_STATE 0 0 i false
    let s := if s.rdN Obj.EJ_ILK_STATE = 0 then { s with bank := { s.bank with closedAt := some s.now } } else s
    s.ilkLevels

/-- R261: a loop opens; 3 is the pressure comparator of a named process monitor channel. -/
def execInterlockOpen (t : Nat) (source : Fin 4) (s : State) : Result :=
  let s := s.at t
  if source.val = 3 && s.rdN Obj.EJ_ILK_PRESS_SOURCE = 255 then .next s else .next (s.ilkOpens source)

/-- R262: a loop closes. -/
def execIlkLoopClose (t : Nat) (loop : Fin 3) (s : State) : Result := .next ((s.at t).ilkCloses loop)

/-- R262, R444: a cause that keeps the unit in HOLD: an open source, TIME_UNLOCK, the Meridian watchdog. -/
def State.holdCause (s : State) : Bool :=
  s.rdN Obj.EJ_ILK_STATE != 0 || s.gated || s.tim.unlocked || s.bit Obj.MER_PORT_STATUS 0 0 0

/-- R262: every source has been closed for EJ_ILK_CLOSE_MS: the gate releases, and with EJ_AUTO_RESUME a unit that the
interlock put into HOLD returns to RUN. -/
def execInterlockRelease (t : Nat) (s : State) : Result :=
  let s := s.at t
  match s.bank.closedAt with
  | none => .next s
  | some c =>
    if !s.gated || s.now < c + s.rdN Obj.EJ_ILK_CLOSE_MS * 1000000 then .next s
    else
      let s := (s.setBit Obj.EJ_STATUS 0 0 ejGated false).ilkLevels
      .next (if s.flag Obj.EJ_AUTO_RESUME && s.mode == stHold && s.holdBy == 1 && !s.holdCause then s.enterRun else s)

/-! ## Periodic pre-charge (R255) -/

/-- R255: the periodic pre-charge of valve `v` is due: planned into the first frame that has not frozen, unless a pulse of
the valve lies within the idle time. -/
def State.periodicCharge (s : State) (v : Nat) : State :=
  let w := s.chargeWidth v
  let on : Int := 5000 * (s.openFrame (v / 64) : Int)
  let off := on + w.1
  let idle : Int := s.rdN Obj.EJ_PC_IDLE_NS
  let near := (s.pulsesOf v).any (fun q => q.timed && decide (q.on < off + idle) && decide (on - idle < q.off)) ||
    (match (s.valve v).lastOff with
     | some x => decide (on - idle < x)
     | none => false)
  let s := s.setValve v { s.valve v with periodic := some s.now }
  if near || w.1 = 0 then s
  else if 32 ≤ (s.pulsesOf v).length then s.count Obj.EJ_PULSE_STORE_FULL 0 0 1
  else
    let p : Pulse := { id := s.bank.nextId, valve := v, pre := true, on := on, off := off }
    { s with bank := { s.bank with pulses := s.bank.pulses ++ [p], nextId := s.bank.nextId + 1 } }

/-- R255: with mode 2 an idle valve that is not HOT receives a pre-charge every EJ_PC_PERIOD_MS. -/
def execPrechargePeriodic (t : Nat) (valve : Fin 2048) (s : State) : Result :=
  let s := s.at t
  let due := (s.valve valve).periodic.all (fun p => decide (p + s.rdN Obj.EJ_PC_PERIOD_MS * 1000000 ≤ s.now))
  if s.rdN Obj.EJ_VALVE_PC_MODE 0 valve = 2 && s.mode == stRun && !s.gated && s.valveAble valve && due then
    .next (s.periodicCharge valve)
  else .next s

/-! ## Writes with an effect of their own (R259, R287) -/

/-- R259: a write of `EJ_VALVE_STATE`: a valve made dead or unused gives up what it has not begun. -/
def execEjValveStateWrite (t : Nat) (path : Path) (valve : Fin 2048) (value : List Byte) (s : State) : Result :=
  let s := s.at t
  let was := s.valveAble valve
  let s := s.dictWrite path Obj.EJ_VALVE_STATE 0 valve value
  .next (if was && !s.valveAble valve then (s.valveUnable valve (s.valveHot valve)).settle else s)

/-- R287: a write of `EJ_LINK_LEAD_NS`: a frame that has frozen keeps its lead. -/
def execEjLinkLeadWrite (t : Nat) (path : Path) (value : List Byte) (s : State) : Result :=
  .next ((s.at t).dictWrite path Obj.EJ_LINK_LEAD_NS 0 0 value)

/-! ## Remote orders (R271 to R274) -/

/-- R271: the payload of a remote order. -/
def remoteOrder (f : Flight) (station : Nat) (loan : Bool) : List Byte :=
  let x := f.transit
  withCrc (toLe 8 f.seq ++ toLe 8 f.orderId ++ iLe 8 x.lead ++ iLe 8 x.centre ++ iLe 8 x.trail ++ iLe 4 f.west ++ iLe 4 f.east ++
    toLe 4 x.vRow ++ [x.row, (if loan then 2 else 0) + (if x.surface then 1 else 0)] ++ toLe 2 station ++ toLe 4 f.grace)

/-- R271: a received remote order, as an entry of the in-flight queue. -/
def remoteFlight (link : Nat) (b : List Byte) : Flight :=
  let surface := (b.getD 53 0).testBit 0
  { id := 0, kind := .remote link, seq := leAt b 0 8, orderId := leAt b 8 8, port := 0, accepted := 0
    transit := { row := b.getD 52 1, surface := surface, lead := signedOf 8 (leAt b 16 8), centre := signedOf 8 (leAt b 24 8),
                 trail := signedOf 8 (leAt b 32 8), vRow := leAt b 48 4 }
    west := signedOf 4 (leAt b 40 4), east := signedOf 4 (leAt b 44 4), grace := leAt b 56 4, station := leAt b 54 2 }

/-- R271: a payload of the right length whose CRC holds. -/
def payloadOk (n : Nat) (b : List Byte) : Bool := b.length == n && leAt b (n - 4) 4 == crc32c (b.take (n - 4))

/-- R273: a remote order is planned here, or refused for want of a slot. -/
def State.takeRemote (s : State) (link : Nat) (payload : List Byte) : State :=
  let f := remoteFlight link payload
  let r := (s.count Obj.EJ_REMOTE_RECEIVED 0 0 1).enqueueAux f
  if r.2 then r.1
  else r.1.chordSend link 2 1 (subResult { f with causes := [.overflow] })

/-- R273: REMOTE_ORDER is received. -/
def execRemoteOrder (t : Nat) (link : Fin 2) (payload : List Byte) (s : State) : Result :=
  let s := s.at t
  if s.chUp link && payloadOk 64 payload && (payload.getD 52 0 == 1 || payload.getD 52 0 == 2) then
    .next (s.takeRemote link payload)
  else .next s

/-- R267: the cause an outcome code stands for. -/
def causeOfCode (code : Nat) : Option Cause :=
  match code with
  | 2 => some .late
  | 3 => some .interlock
  | 4 => some .thermal
  | 5 => some .uncovered
  | 6 => some .power
  | 7 => some .reset
  | 8 => some .overflow
  | _ => none

/-- R274: a remote result joins the owner's outcome. -/
def Flight.joinResult (f : Flight) (link : Nat) (b : List Byte) : Flight :=
  let code := b.getD 20 0
  let fired := decide (code ≤ 1)
  let on : Int := leAt b 8 8
  let f := { f with remote := f.remote.filter (fun k => k != link), flags := f.flags ||| leAt b 22 2 }
  let f := if on = 0 then f
    else { f with onTime := some (min on (f.onTime.getD on)), offTime := max f.offTime (on + leAt b 16 4) }
  if fired then { f with remoteOk := true, remoteFired := f.remoteFired + b.getD 21 0, advanced := f.advanced || code == 1 }
  else { f with causes := f.causes ++ (causeOfCode code).toList }

/-- R274: SUB_RESULT is received for an order that waits for it. -/
def execSubResult (t : Nat) (link : Fin 2) (payload : List Byte) (s : State) : Result :=
  let s := s.at t
  if s.chUp link && payloadOk 32 payload then
    match s.bank.flights.find? (fun f => f.kind == .own && f.orderId == leAt payload 0 8 && f.remote.contains link.val) with
    | none => .next s
    | some f => .next (s.modFlight f.id (fun x => x.joinResult link payload)).settle
  else .next s

/-- R274: how long the owner waits: EJ_REMOTE_WAIT_NS after T_TRAIL; in surface mode, after the belt has passed P_TRAIL (log
entry 146). -/
def State.remoteOverdue (s : State) (f : Flight) : Bool :=
  let wait := s.rdN Obj.EJ_REMOTE_WAIT_NS
  if f.transit.surface then f.passed.any (fun x => decide (x + wait ≤ s.now))
  else decide (f.transit.trail + wait ≤ (s.now : Int))

/-- R274: no remote result in time. -/
def execRemoteWaitTimeout (t : Nat) (orderId : Nat) (s : State) : Result :=
  let s := s.at t
  match s.bank.flights.find? (fun f => f.kind == .own && f.orderId == orderId && !f.remote.isEmpty) with
  | none => .next s
  | some f =>
    if s.remoteOverdue f then
      let s := s.count Obj.EJ_REMOTE_UNKNOWN 0 0 f.remote.length
      .next (s.modFlight f.id (fun x => { x with
        remote := [], causes := x.causes ++ [.uncovered], flags := withBit x.flags ofUnknown true })).settle
    else .next s

end Sys2Proof.Machine
end

