-- ==== Sys2Proof/Machine/Reticle.lean ====
section
/-! DEFINITION. Buffers in device memory, reticle streams and thumbnails (spec/10_records_streams_and_compression.md, R309 to
R318; R593 of spec/12_cxl_host_and_dma.md). -/

namespace Sys2Proof.Machine

open Sys2Proof

/-! ## Sizes (R83, R115, R310, R312, R316) -/

/-- R314: the bytes of one site of the selected planes at a tap. -/
def siteBytes (tap planes : Nat) : Nat :=
  ((List.range 4).filter (fun b => planes.testBit b)).length * (if tap = 4 then 1 else 2) + (if planes.testBit 4 then 1 else 0)

/-- A size rounded up to a multiple of `n`. -/
def upTo (n v : Nat) : Nat := (v + n - 1) / n * n

/-- R315: P of a stream: the samples per plane. -/
def State.rtSamples (s : State) (p n : Nat) : Nat :=
  let hi := min (s.rdN Obj.RT_COL_END p n) (s.camC p)
  let lo := s.rdN Obj.RT_COL_START p n
  (hi - lo + s.rdN Obj.RT_COL_STEP p n - 1) / s.rdN Obj.RT_COL_STEP p n

/-- R316: RT_SLOT_BYTES of a stream. -/
def State.rtSlotBytes (s : State) (p n : Nat) : Nat :=
  upTo 64 (32 + s.rtSamples p n * siteBytes (s.rdN Obj.RT_TAP p n) (s.rdN Obj.RT_PLANES p n))

/-- R310: the columns of a stored row of a port's thumbnail history. -/
def State.thCols (s : State) (p : Nat) : Nat := (s.camC p + s.rdN Obj.TH_SCALE p - 1) / s.rdN Obj.TH_SCALE p

/-- R310, R318: the bytes of a stored row. -/
def State.thRowBytes (s : State) (p : Nat) : Nat := s.thCols p * siteBytes (s.rdN Obj.TH_TAP p) (s.rdN Obj.TH_PLANES p)

/-- R312: TH_SLOT_BYTES. -/
def State.thSlotBytes (s : State) : Nat :=
  let site := (List.range 12).foldl (fun m p => max m (siteBytes (s.rdN Obj.TH_TAP p) (s.rdN Obj.TH_PLANES p))) 0
  upTo 64 (192 + s.rdN Obj.TH_MAX_COLS * s.rdN Obj.TH_MAX_ROWS * site)

/-- R83: the smallest power of two no smaller than `n`; `fuel` bounds the doublings. -/
def pow2From (fuel k n : Nat) : Nat :=
  match fuel with
  | 0 => k
  | f + 1 => if n ≤ k then k else pow2From f (2 * k) n

/-- R83: N of a port. -/
def State.replaySlots (s : State) (p : Nat) : Nat :=
  pow2From 24 1 ((8000000 + s.rdN Obj.TG_MIN_PERIOD_NS 0 p - 1) / s.rdN Obj.TG_MIN_PERIOD_NS 0 p)

/-- R83: the bytes of a replay slot. -/
def State.replaySlotBytes (s : State) (p : Nat) : Nat := upTo 64 (64 + s.rdN Obj.CAM_WIDTH p * s.rdN Obj.CAM_DEPTH p / 8)

/-- R115: the bytes of a snapshot. -/
def State.snapshotBytes (s : State) (p : Nat) : Nat := 64 + 256 + 20 * s.rdN Obj.CAM_WIDTH p

/-! ## Placement (R398, R593) -/

/-- R593: the buffers of an enabled port. -/
def State.portBuffers (s : State) (p : Nat) : List (Nat × Nat) :=
  [(1 + 16 * p, s.replaySlots p * s.replaySlotBytes p), (2 + 16 * p, 2 * s.snapshotBytes p),
   (3 + 16 * p, s.rdN Obj.TH_HISTORY_LINES p / s.rdN Obj.TH_SCALE p * s.thRowBytes p)] ++
    (List.range 8).map (fun n => (8 + 16 * p + n, s.rdN Obj.RT_SLOTS p n * s.rtSlotBytes p n))

/-- R593: every buffer the unit places: those of the enabled ports and the thumbnail slots. -/
def State.buffers (s : State) : List (Nat × Nat) :=
  (0, s.rdN Obj.TH_SLOTS * s.thSlotBytes) ::
    ((List.range 12).filter (fun p => s.flag Obj.CAM_ENABLE p)).flatMap (fun p => s.portBuffers p)

/-- R165: the DRAM images of the enabled ports: two of an atlas's 2,097,152 entries each, and a CRC-32C of each. -/
def State.imageBytes (s : State) : Nat :=
  ((List.range 12).filter (fun p => s.flag Obj.CAM_ENABLE p)).length * 2 * (atlasEntries + 4)

/-- R398: the bytes of the interleaved region that the settings allocate. -/
def State.allocated (s : State) : Nat :=
  s.rdN Obj.CX_HDM_SIZE + sumNat (s.place.sizes.map (fun b => b.2)) + s.imageBytes + Config.firmwareBytes.val

/-- R593: the places of buffers, in order, from `at_` on, while `slack` units of 4,096 bytes may still be left between them. -/
def placeFrom (exits at_ slack : Nat) (l : List (Nat × Nat)) : List (Nat × Nat × Nat) :=
  match l with
  | [] => []
  | (b, n) :: r =>
    let gap := Config.placeGap exits b % (slack + 1)
    let base := at_ + 4096 * gap
    (b, base, n) :: placeFrom exits (base + upTo 4096 n) (slack - gap) r

/-- R593: where each buffer lies: its number, its base and its size. -/
def State.placed (s : State) : List (Nat × Nat × Nat) :=
  let l := sortBy (fun (a b : Nat × Nat) =>
    decide (Config.placeOrder s.place.exits a.1 ≤ Config.placeOrder s.place.exits b.1)) s.place.sizes
  placeFrom s.place.exits 0 ((s.scratchBase - sumNat (l.map (fun b => upTo 4096 b.2))) / 4096) l

/-- R593: the base of a buffer; 0 while it does not exist. -/
def State.bufferBase (s : State) (b : Nat) : Nat := ((s.placed.find? (fun x => x.1 == b)).map (fun x => x.2.1)).getD 0

/-- R593: the buffer a device address lies in, and the offset in it. -/
def State.bufferAt (s : State) (a : Nat) : Option (Nat × Nat) :=
  (s.placed.find? (fun x => decide (x.2.1 ≤ a) && decide (a < x.2.1 + x.2.2))).map (fun x => (x.1, a - x.2.1))

/-- R83, R312, R316, R593: on leaving PREOP the sizes are fixed and the buffers placed, empty. -/
def State.placeBuffers (s : State) : State :=
  let s := (List.range 12).foldl (fun s p =>
    if s.flag Obj.CAM_ENABLE p then
      let s := (s.putN Obj.CAM_REPLAY_SLOTS p 0 (s.replaySlots p)).putN Obj.CAM_REPLAY_SLOT_BYTES p 0 (s.replaySlotBytes p)
      (List.range 8).foldl (fun s n => s.putN Obj.RT_SLOT_BYTES p n (s.rtSlotBytes p n)) s
    else s) s
  let s := s.putN Obj.TH_SLOT_BYTES 0 0 s.thSlotBytes
  { s with
    place := { exits := s.place.exits + 1, sizes := s.buffers }
    cams := { s.cams with replay := [] }
    slots := [], hist := [], thumbs := [], rt := [] }

/-- R398, R593: the allocations fit the seven-channel map, and the buffers the window below scratch. -/
def State.allocationFits (s : State) : Bool :=
  let l := s.buffers
  decide (s.rdN Obj.CX_HDM_SIZE + sumNat (l.map (fun b => b.2)) + s.imageBytes + Config.firmwareBytes.val ≤ 57780731904) &&
    decide (sumNat (l.map (fun b => upTo 4096 b.2)) ≤ s.scratchBase)

/-- The sum of two fractions. -/
def addFrac (a b : Nat × Nat) : Nat × Nat := (a.1 * b.2 + b.1 * a.2, a.2 * b.2)

/-- R318: the write rate of the streams that will run and of the histories, in bytes per second. -/
def State.reticleRate (s : State) : Nat × Nat :=
  ((List.range 12).filter (fun p => s.flag Obj.CAM_ENABLE p)).foldl (fun r p =>
    let g := s.portGroup p
    let t := s.rdN Obj.TG_MIN_PERIOD_NS 0 p
    let r := (List.range 8).foldl (fun r n =>
      if s.next Obj.RT_ENABLE p n g = 0 then r
      else addFrac r (s.rtSlotBytes p n * 1000000000, t * s.rdN Obj.RT_LINE_STEP p n)) r
    if s.next Obj.TH_SELECT p 0 g = 0 then r
    else addFrac r (s.thRowBytes p * 1000000000, t * s.rdN Obj.TH_SCALE p)) (0, 1)

/-- R318: what keeps the unit in PREOP. -/
def State.reticleRefusals (s : State) : List (Nat × Ev) :=
  let r := s.reticleRate
  if 48000000000 * r.2 < r.1 then [(Obj.RT_ENABLE.ident, .RT_BANDWIDTH)] else []

/-! ## Slots -/

/-- R377: before the device writes `n` bytes from a window address on, it takes back the lines of them that the host holds. -/
def State.invalidate (s : State) (a n : Nat) : State :=
  let hit := fun (l : Nat) => decide (n ≠ 0) && decide (64 * l < a + n) && decide (a < 64 * l + 64)
  if s.cxl.held.any hit then
    (s.cxl.held.filter hit).foldl (fun s l => s.emit (.backInvalidate (64 * l)))
      { s with cxl := { s.cxl with held := s.cxl.held.filter (fun l => !hit l) } }
  else s

/-- R375, R377, R399: the device writes the first `n` bytes of a slot of a buffer whose slots have `size` bytes. -/
def State.invalidateSlot (s : State) (buffer slot size n : Nat) : State :=
  match s.placed.find? (fun x => x.1 == buffer) with
  | none => s
  | some x => (s.invalidate (x.2.1 + slot * size) n).rewritten (x.2.1 + slot * size) n

/-- The bytes of slot `n` of a buffer become `b`; its slots have `size` bytes. -/
def State.writeSlot (s : State) (buffer n size : Nat) (b : List Byte) : State :=
  let s := s.invalidateSlot buffer n size b.length
  { s with slots := store s.slots [] (buffer * 1048576 + n) b }

/-! ## Combining samples (R310, R315) -/

/-- R314: the flags bits. -/
def fpInvalid : Nat := 0
/-- R314. -/
def fpSat : Nat := 1
/-- R314. -/
def fpPlate : Nat := 2
/-- R314. -/
def fpSubst : Nat := 3

/-- The flags byte of a sample. -/
def flagsByte (inv sat plate subst : Bool) : Nat :=
  (if inv then 1 else 0) + (if sat then 2 else 0) + (if plate then 4 else 0) + (if subst then 8 else 0)

/-- R310: SAT and SUBST of any, PLATE and INVALID of all. -/
def combineFlags (l : List Nat) : Nat :=
  flagsByte (l.all (fun f => f.testBit fpInvalid)) (l.any (fun f => f.testBit fpSat)) (l.all (fun f => f.testBit fpPlate))
    (l.any (fun f => f.testBit fpSubst))

/-- R310, R315: the round-half-up mean of the valid samples; `free` where none is valid. -/
def meanSample (l : List RtSample) (free : Nat) : Nat :=
  let v := (l.filter (fun x => !x.flags.testBit fpInvalid)).map (fun x => x.value)
  match v with
  | [] => free % 65536
  | _ => (2 * sumNat v + v.length) / (2 * v.length)

/-! ## Reticle streams (R314 to R317) -/

/-- R314: the planes of a line at taps 0 to 2. -/
def OutPx.tap (x : OutPx) (tap : Nat) : RtSample :=
  { value := match tap with | 0 => x.raw | 1 => x.nr | _ => x.v, flags := flagsByte x.inv x.sat x.plate x.subst }

/-- R314: the flags of a registered site. -/
def RgSite.flagBits (x : RgSite) : Nat := flagsByte x.inv x.sat x.plate x.subst

/-- R314: the planes of a registered line at tap 3 or 4. -/
def rgPlanes (sites : List RgSite) (classes : List Nat) (tap : Nat) : List (List RtSample) :=
  let plane := fun (f : RgSite → Nat) => sites.map (fun x => ({ value := f x, flags := x.flagBits } : RtSample))
  if tap = 3 then [plane (fun x => x.r), plane (fun x => x.g), plane (fun x => x.nir), plane (fun x => x.b)]
  else [(sites.zip classes).map (fun x => { value := x.2, flags := x.1.flagBits })]

/-- R315: the columns a stream picks. -/
def State.rtColumns (s : State) (p n : Nat) : List Nat :=
  (List.range (s.rtSamples p n)).map (fun i => s.rdN Obj.RT_COL_START p n + i * s.rdN Obj.RT_COL_STEP p n)

/-- Sample `c` of plane `b` of a line. -/
def RtLine.sample (l : RtLine) (b c : Nat) : RtSample := (l.planes.getD b []).getD c { value := 0, flags := 1 }

/-- R316: the planes of the emitted line; `draw` gives the value of a mean without a valid sample. -/
def rtData (lines : List RtLine) (cols : List Nat) (tap planes : Nat) (mean : Bool) (draw : Nat → Nat) : List Byte :=
  let bits := (List.range 4).filter (fun b => planes.testBit b)
  let now := lines.take 1
  let taken := if mean then lines else now
  let data := bits.flatMap (fun b => cols.flatMap (fun c =>
    let v := if mean then meanSample (taken.map (fun l => l.sample b c)) (draw (b * 16384 + c))
      else (now.map (fun l => (l.sample b c).value)).getD 0 0
    toLe (if tap = 4 then 1 else 2) v))
  let picked := if bits.isEmpty then List.range ((now.map (fun l => l.planes.length)).getD 0 0) else bits
  let flags := if planes.testBit 4 then
      cols.map (fun c => combineFlags (taken.flatMap (fun l => picked.map (fun b => (l.sample b c).flags))))
    else []
  data ++ flags

/-- R316: the 32 bytes before the data, without the CRC. -/
def rtHeader (cap : CapLine) (samples tap planes port stream flags : Nat) : List Byte :=
  toLe 8 cap.line ++ toLe 8 cap.trig ++ toLe 4 cap.epoch ++ toLe 2 samples ++ [tap, planes, port, stream, flags, 0]

/-- R315 to R317: stream `n` of port `p` takes a line at its tap, and emits on a multiple of k. Of a line that replay produces
again before the lines of its mean are all there, the slot keeps the content it has (R317). -/
def State.rtTake (s : State) (p n : Nat) (cap : CapLine) (planes : List (List RtSample)) : State :=
  let k := s.rdN Obj.RT_LINE_STEP p n
  let mean := s.flag Obj.RT_LINE_MODE p n
  let line : RtLine := { line := cap.line, planes := planes, flags := cap.flags % 16 }
  let held := (line :: (look s.rt [] (8 * p + n)).filter (fun l => l.line != cap.line)).filter
    (fun l => decide (cap.line < l.line + k))
  let lines := held.filter (fun l => decide (l.line ≤ cap.line))
  let s := { s with rt := store s.rt [] (8 * p + n) (if mean then held else []) }
  let short := mean && decide (lines.length < min k (cap.line + 1))
  if cap.line % k ≠ 0 || (short && s.replaying p && decide (cap.line ≤ s.rdN Obj.RT_LAST_LINE p n)) then s
  else
    let tap := s.rdN Obj.RT_TAP p n
    let mask := s.rdN Obj.RT_PLANES p n
    let cols := s.rtColumns p n
    let data := rtData lines cols tap mask mean (fun i => Config.emptyMean (16 * cap.trig + p) (65536 * (n + 1) + i))
    let orFlags := if mean then lines.foldl (fun f l => f ||| l.flags) 0 + 16 else line.flags
    let head := rtHeader cap cols.length tap mask p n orFlags
    let bytes := head ++ toLe 4 (crc32c (head ++ data)) ++ data
    let slot := bytes ++ zeros (s.rdN Obj.RT_SLOT_BYTES p n - bytes.length)
    (s.writeSlot (8 + 16 * p + n) (cap.line / k % s.rdN Obj.RT_SLOTS p n) (s.rdN Obj.RT_SLOT_BYTES p n) slot).putN
      Obj.RT_LAST_LINE p n cap.line

/-- R317: the streams of a port that run in a line's epoch at one of the taps. -/
def State.rtStreams (s : State) (cap : CapLine) (registered : Bool) : List Nat :=
  (List.range 8).filter (fun n =>
    s.rdEpoch cap.group cap.epoch Obj.RT_ENABLE cap.port n != 0 &&
      (decide (3 ≤ s.rdN Obj.RT_TAP cap.port n) == registered))

/-- R314: a port line as it leaves raw correction, at taps 0 to 2. -/
def State.tapPortLine (s : State) (l : RegLine) : State :=
  if 12 ≤ l.cap.port then s
  else (s.rtStreams l.cap false).foldl (fun s n =>
    s.rtTake l.cap.port n l.cap (l.rows.map (fun r => r.map (fun x => x.tap (s.rdN Obj.RT_TAP l.cap.port n))))) s

/-! ## The thumbnail history (R310) -/

/-- R310: the class of highest severity in a box, ties to the lower class. -/
def boxClass (table : List Nat) (l : List Nat) : Nat :=
  match l with
  | [] => 0
  | x :: r => r.foldl (fun a c =>
      let sa := entrySeverity (table.getD a 0)
      let sc := entrySeverity (table.getD c 0)
      if sa < sc || (sa = sc && c < a) then c else a) x

/-- R310: the boxes of a row of the history, scaled by `k`. -/
def boxes {α : Type} (k cols : Nat) (lines : List (List α)) : List (List α) :=
  (List.range cols).map (fun i => lines.flatMap (fun l => (l.drop (i * k)).take k))

/-- R310: the row that lines form, its selected planes in ascending bit order. -/
def State.histRow (s : State) (p row : Nat) (lines : List RgLine) (classes : List (List Nat)) : HistRow :=
  let k := s.rdN Obj.TH_SCALE p
  let tap := s.rdN Obj.TH_TAP p
  let mask := s.rdN Obj.TH_PLANES p
  let cols := s.thCols p
  let planes := (lines.zip classes).map (fun x => rgPlanes x.1.sites x.2 tap)
  let table := match lines with
    | [] => []
    | l :: _ => s.classTable l.cap.group l.cap.epoch
  let bits := (List.range 4).filter (fun b => mask.testBit b)
  let trig := (lines.getLast?.map (fun l => l.cap.trig)).getD 0
  let data := bits.map (fun b =>
    ((boxes k cols (planes.map (fun x => x.getD b []))).zipIdx).map (fun x =>
      if tap = 4 then boxClass table (x.1.map (fun y => y.value))
      else meanSample x.1 (Config.emptyMean (16 * trig + p) (b * 16384 + x.2))))
  let flags := (boxes k cols (planes.map (fun x => x.getD 0 []))).map (fun x => combineFlags (x.map (fun y => y.flags)))
  { row := row, planes := data ++ (if mask.testBit 4 then [flags] else []) }

/-- R310: the thumbnail history of port `p`. -/
def State.history (s : State) (p : Nat) : Hist := look s.hist {} p

/-- R310: the thumbnail history of port `p` becomes `h`. -/
def State.setHist (s : State) (p : Nat) (h : Hist) : State := { s with hist := store s.hist {} p h }

/-- R310, R317: a registered line joins the history; its row is stored with its last line. A replay that restarts inside a row
leaves the row as it was stored. -/
def State.histLine (s : State) (l : RgLine) (classes : List Nat) : State :=
  let p := l.cap.port
  let k := s.rdN Obj.TH_SCALE p
  let h := s.history p
  let same := fun (x : RgLine) => x.cap.line / k == l.cap.line / k
  let keep := (h.lines.zip h.classes).filter (fun x => same x.1 && x.1.cap.line != l.cap.line)
  let lines := keep.map (fun x => x.1) ++ [l]
  let cls := keep.map (fun x => x.2) ++ [classes]
  let stored := h.rows.any (fun r => r.row == l.cap.line / k)
  if l.cap.line % k = k - 1 && stored && decide (lines.length < k) then s.setHist p { h with lines := [], classes := [] }
  else if l.cap.line % k = k - 1 then
    let row := s.histRow p (l.cap.line / k) lines cls
    let rows := (row :: h.rows.filter (fun r => r.row != row.row)).take (s.rdN Obj.TH_HISTORY_LINES p / k)
    let s := s.invalidateSlot (3 + 16 * p) 0 0 (s.rdN Obj.TH_HISTORY_LINES p / k * s.thRowBytes p)
    s.setHist p { rows := rows, lines := [], classes := [] }
  else s.setHist p { h with lines := lines, classes := cls }

/-- R310, R314: a registered line with its classes, at taps 3 and 4 and in the history. A lent port has a history, since its
objects may receive thumbnails (R309), and no streams: R593 places slots for the unit's own ports only. -/
def State.tapRegLine (s : State) (l : RgLine) (classes : List Nat) : State :=
  let streams := if 12 ≤ l.cap.port then [] else s.rtStreams l.cap true
  let s := streams.foldl (fun s n =>
    s.rtTake l.cap.port n l.cap (rgPlanes l.sites classes (s.rdN Obj.RT_TAP l.cap.port n))) s
  if s.rdEpoch l.cap.group l.cap.epoch Obj.TH_SELECT l.cap.port = 0 then s else s.histLine l classes

/-! ## Thumbnails (R309, R311, R312) -/


/-- R311: the first scaled line or column and the number of them that a crop keeps: all, or `limit` of them about `mid`. -/
def cropTo (first count limit mid : Nat) : Nat × Nat :=
  if count ≤ limit then (first, count)
  else (min (max first (mid - limit / 2)) (first + count - limit), limit)

/-- R311: the crop of an object that is accepted with `seq`. -/
def State.thumbJob (s : State) (j : Judged) (seq : Nat) : ThumbJob :=
  let p := j.port
  let k := s.rdN Obj.TH_SCALE p
  let m := s.rdEpochN j.group j.epoch Obj.TH_MARGIN p
  let lo := j.first - m
  let hi := min (j.last + m) j.closeLine
  let cmax := s.camC p - 1
  let c0 := min ((j.acc.minCol.getD 0) - m) cmax
  let c1 := min (j.acc.maxCol + m) cmax
  let area := max 1 j.acc.area
  let cc := (j.acc.sc / (area : Int)).toNat
  let cl := j.first + (j.acc.sl / (area : Int)).toNat
  let r := cropTo (lo / k) (hi / k + 1 - lo / k) (s.rdN Obj.TH_MAX_ROWS) (cl / k)
  let c := cropTo (c0 / k) (c1 / k + 1 - c0 / k) (s.rdN Obj.TH_MAX_COLS) (cc / k)
  { seq := seq, port := p, home := s.homePort p, facets := j.facets, row0 := r.1, rows := r.2, col0 := c.1, cols := c.2
    clipped := decide (r.2 < hi / k + 1 - lo / k) || decide (c.2 < c1 / k + 1 - c0 / k)
    partial_ := decide (j.mask ≠ if p < 12 then 2 ^ p else 2 ^ 14) || j.parts.any (fun k => k.port != p), since := s.now }

/-- R309: whether the object gets a thumbnail. -/
def State.thumbWanted (s : State) (j : Judged) : Bool :=
  let sel := s.rdEpoch j.group j.epoch Obj.TH_SELECT j.port
  sel == 2 || (sel == 1 && j.outcome != 0)

/-- R312: DATA_BYTES of a thumbnail. -/
def State.thumbBytes (s : State) (t : ThumbJob) : Nat :=
  t.rows * t.cols * siteBytes (s.rdN Obj.TH_TAP t.port) (s.rdN Obj.TH_PLANES t.port)

/-- R311: the last row of a crop has been stored. -/
def State.thumbReady (s : State) (t : ThumbJob) : Bool :=
  match (s.history t.port).rows with
  | [] => false
  | r :: _ => decide (t.row0 + t.rows ≤ r.row + 1)

/-- R312: the width of each selected plane's values. -/
def planeWidths (tap planes : Nat) : List Nat :=
  ((List.range 4).filter (fun b => planes.testBit b)).map (fun _ => if tap = 4 then 1 else 2) ++
    (if planes.testBit 4 then [1] else [])

/-- R311, R312: a thumbnail is cut from the history and written to its slot. -/
def State.writeThumb (s : State) (t : ThumbJob) : State :=
  let p := t.port
  let k := s.rdN Obj.TH_SCALE p
  let tap := s.rdN Obj.TH_TAP p
  let mask := s.rdN Obj.TH_PLANES p
  let rows := (List.range t.rows).map (fun i => (s.history p).rows.find? (fun r => r.row == t.row0 + i))
  let miss := rows.any (fun r => r.isNone)
  let data := ((planeWidths tap mask).zipIdx).flatMap (fun w => rows.flatMap (fun r =>
    match r with
    | none => zeros (t.cols * w.1)
    | some r => ((List.range t.cols).map (fun i => (r.planes.getD w.2 []).getD (t.col0 + i) 0)).flatMap (fun v => toLe w.1 v)))
  let flags := (if t.clipped then 1 else 0) + (if miss then 2 else 0) + (if t.partial_ then 4 else 0)
  let head := toLe 8 t.seq ++ toLe 8 (t.row0 * k) ++ toLe 2 (t.col0 * k) ++ toLe 2 t.cols ++ toLe 2 t.rows ++
    [tap, mask, k, t.home, flags, 0] ++ toLe 4 data.length ++ zeros 28
  let facets := t.facets.flatMap (fun v => iLe 4 v)
  let bytes := head ++ toLe 4 (crc32c (head ++ facets ++ data)) ++ facets ++ data
  let s := s.writeSlot 0 (t.seq % s.rdN Obj.TH_SLOTS) (s.rdN Obj.TH_SLOT_BYTES) bytes
  let s := if miss then s.count Obj.TH_HISTORY_MISS 0 0 1 else s
  let s := if t.clipped then s.count Obj.TH_CLIPPED 0 0 1 else s
  s.count Obj.TH_WRITTEN 0 0 1

end Sys2Proof.Machine
end

