-- ==== Sys2Proof/Machine/DramPorts.lean ====
section
/-! DEFINITION. The requests that wait for DRAM channels and the order in which a channel serves them (spec/13_dram.md, R397,
R404), and the commands that say that a waiting write has been served (R83, R312, R340). -/

namespace Sys2Proof.Machine

open Sys2Proof

/-! ## Requests (R397, R404) -/

/-- R404: a request: its rank, when it was made, and the channels it touches. -/
structure DramRequest where
  rank     : Nat
  since    : Nat
  channels : List Nat
deriving DecidableEq, Repr

/-- R404: the ranks of the requesters whose requests State holds: the capture port in panic and out of it, the replay port in
panic, ledger writes, and pipeline writes. -/
def rankCapturePanic : Nat := 2
/-- R404. -/
def rankReplayPanic : Nat := 3
/-- R404. -/
def rankCapture : Nat := 4
/-- R404. -/
def rankLedger : Nat := 6
/-- R404. -/
def rankPipeline : Nat := 7

/-- R397, R406: the channels of the present map, ascending. -/
def State.channelMap (s : State) : List Nat :=
  (List.range 8).filter (fun c => s.rdN Obj.DR_CAPACITY == 66035122176 || s.rdN Obj.DR_CH_STATE 0 c != 4)

/-- R397: the channel of a device address of the interleaved region, and the offset in it. -/
def State.dramPlace (s : State) (a : Nat) : Nat × Nat :=
  let l := s.channelMap
  (l.getD (a / 256 % l.length) 0, a / 256 / l.length * 256 + a % 256)

/-- R397: the channels that hold `n` bytes from a device address on. -/
def State.channelsOf (s : State) (a n : Nat) : List Nat :=
  if n = 0 then []
  else (List.range (min s.channelMap.length ((a + n - 1) / 256 - a / 256 + 1))).map (fun i => (s.dramPlace (a + 256 * i)).1)

/-- R83, R404, R405: the write of a closed line of port `p` to its replay slot. -/
def State.captureRequest (s : State) (p : Nat) (l : CapLine) : DramRequest :=
  let n := s.rdN Obj.CAM_REPLAY_SLOTS p
  let b := s.rdN Obj.CAM_REPLAY_SLOT_BYTES p
  { rank := if (s.cam p).panic then rankCapturePanic else rankCapture, since := l.arrival
    channels := if n = 0 then [] else s.channelsOf (s.bufferBase (1 + 16 * p) + l.line % n * b) b }

/-- R404, R405: the read of the next line that a replay of port `p` in panic waits for. -/
def State.replayRequest (s : State) (p : Nat) (l : CapLine) : DramRequest :=
  let n := s.rdN Obj.CAM_REPLAY_SLOTS p
  let b := s.rdN Obj.CAM_REPLAY_SLOT_BYTES p
  { rank := rankReplayPanic, since := (s.cam p).readFrom
    channels := if n = 0 then [] else s.channelsOf (s.bufferBase (1 + 16 * p) + l.line % n * b) b }

/-- R338, R343: the channels that a ledger entry is written to: those of the copies, and the one that a copy is being made on. -/
def State.ledgerChannels (s : State) : List Nat :=
  [s.rdN Obj.LG_COPY_CHANNEL 0 0, s.rdN Obj.LG_COPY_CHANNEL 0 1] ++ (s.cont.copying.map (fun x => x.2)).toList

/-- R397, R404: a write to both copies of the ledger. -/
def State.ledgerRequest (s : State) (since : Nat) : DramRequest :=
  { rank := rankLedger, since := since
    channels := s.ledgerChannels.filter (fun c => s.rdN Obj.DR_CH_STATE 0 c != 4) }

/-- R312, R404: the write of a thumbnail. -/
def State.thumbRequest (s : State) (t : ThumbJob) : DramRequest :=
  let b := s.rdN Obj.TH_SLOT_BYTES
  { rank := rankPipeline, since := t.since
    channels := s.channelsOf (s.bufferBase 0 + t.seq % s.rdN Obj.TH_SLOTS * b) (192 + s.thumbBytes t) }

/-- R404: every request that waits. -/
def State.dramRequests (s : State) : List DramRequest :=
  (List.range 12).flatMap (fun p => (s.cam p).waiting.map (fun l => s.captureRequest p l)) ++
    (List.range 12).flatMap (fun p =>
      if (s.cam p).reading then ((s.cam p).toPipe.take 1).map (fun l => s.replayRequest p l) else []) ++
    (s.lg.records.filter (fun e => !e.stored)).map (fun e => s.ledgerRequest e.since) ++
    (s.lg.orders.filter (fun o => !o.stored)).map (fun o => s.ledgerRequest o.since) ++
    (s.thumbs.filter (fun t => s.thumbReady t)).map (fun t => s.thumbRequest t)

/-- R404: request `y` is served before `x`: it was made earlier, on a channel of `x`, with a rank no lower in the order. A
request made later may stand before `x` only while the channel has not begun `x`, which nothing tells (log entry 241). -/
def DramRequest.before (y x : DramRequest) : Bool :=
  decide (y.rank ≤ x.rank) && decide (y.since < x.since) && y.channels.any (fun c => x.channels.contains c)

/-- R335, R404: the channels of a request are not in reset, and serve no other request before it. -/
def State.dramServes (s : State) (x : DramRequest) : Bool :=
  x.channels.all (fun c => s.islandRuns (27 + c)) && s.dramRequests.all (fun y => !y.before x)

/-! ## Writes that a channel serves -/

/-- R83, R404: the write of a closed line to the replay buffer commits once its channels serve it, and the lines it frees go to
the pipeline in order. -/
def execReplayCommit (t : Nat) (p : Fin 12) (line : Nat) (s : State) : Result :=
  let s := s.at t
  let c := s.cam p
  match c.waiting.find? (fun l => l.line == line) with
  | none => .next s
  | some l =>
    if !s.dramServes (s.captureRequest p l) then .next s
    else
      let s := s.setCam p { c with waiting := c.waiting.filter (fun y => y.line != line), committed := c.committed ++ [l] }
      let s := s.capturePanic p
      let n := s.rdN Obj.CAM_REPLAY_SLOTS p
      let b := s.rdN Obj.CAM_REPLAY_SLOT_BYTES p
      let s := if n = 0 then s
        else { s.invalidateSlot (1 + 16 * p) (line % n) b b with cams := { s.cams with replay := store s.cams.replay none (replayKey p (line % n)) (some l) } }
      .next (handOn (c.committed.length + 1) s p)

/-- R335, R343: the ledger's copies can be written: the channels that hold them are not in reset; a channel that failed holds
none. -/
def State.copiesRun (s : State) : Bool :=
  s.ledgerChannels.all (fun c => s.rdN Obj.DR_CH_STATE 0 c == 4 || s.islandRuns (27 + c))

/-- R404: of order entries, the one whose write was asked for first. -/
def oldestOrder (l : List LedgerOrder) : Option LedgerOrder :=
  match l with
  | [] => none
  | o :: r => some (r.foldl (fun a b => if b.since < a.since then b else a) o)

/-- R335, R340, R404: both copies have written the oldest record, summary or order entry that waits; a sender holds
what an island in reset refuses, and what its channels do not serve yet (R404). -/
def execLedgerCommit (t : Nat) (s : State) : Result :=
  let s := s.at t
  let record := s.lg.records.find? (fun e => !e.stored)
  let order := oldestOrder (s.lg.orders.filter (fun o => !o.stored))
  let first := match record, order with
    | some e, some o => decide (e.since ≤ o.since)
    | e, _ => e.isSome
  let since := if first then (record.map (fun e => e.since)).getD 0 else (order.map (fun o => o.since)).getD 0
  if !s.copiesRun || !s.dramServes (s.ledgerRequest since) then .next s
  else if first then
    match record with
    | none => .next s
    | some e =>
      let e' := { e with stored := true }
      .next ((s.modRecord e.seq (fun _ => e')).mirrorRecord e')
  else
    match order with
    | none => .next s
    | some o =>
      let o' := { o with stored := true }
      .next ((s.modOrder o.orderId (fun _ => o')).mirrorOrder o')

/-- R311, R312: the oldest thumbnail whose last row is stored is written, once its channels serve it (R404). -/
def execThumbWrite (t : Nat) (s : State) : Result :=
  let s := s.at t
  match s.thumbs.find? (fun j => s.thumbReady j) with
  | none => .next s
  | some j =>
    if s.dramServes (s.thumbRequest j) then .next ({ s with thumbs := s.thumbs.filter (fun x => x != j) }.writeThumb j)
    else .next s

end Sys2Proof.Machine
end

