-- ==== Sys2Proof/Machine/Accept.lean ====
section
/-! DEFINITION. The acceptor: sequence numbers, records and orders for judged objects, what finds no room, and the seam's
TAKEN messages (spec/08_trajectory_and_verdict.md, R230 to R236; R203 of spec/07_stitching.md; R271 to R274; R309, R358). -/

namespace Sys2Proof.Machine

open Sys2Proof

/-! ## FLAGS and FAILSAFE (R298, R358) -/

/-- R298: bits of FLAGS. -/
def rfReplayed : Nat := 6
/-- R298. -/
def rfFailsafe : Nat := 11
/-- R298. -/
def rfThumb : Nat := 12
/-- R298. -/
def rfPartial : Nat := 2

/-- R358: a zone object with REPLAYED whose row-1 transit lies in the blind window of a port that a part of it comes from. -/
def State.failsafe (s : State) (j : Judged) : Bool :=
  j.flags.testBit rfReplayed && !s.surface &&
    (let c := (s.transit j 1).2.centre
     (j.port :: j.parts.map (fun k => k.port)).any (fun p => s.blindAt p c))

/-! ## The order of an object (R227, R248, R257, R271) -/


/-- R257: G of an object's port and row. -/
def State.graceOf (s : State) (p row : Nat) : Nat :=
  s.rdN Obj.EJ_GRACE_UM 0 (row - 1) * 1000 / s.rdN Obj.RG_BELT_NM_PER_COUNT p

/-- R205: the span of an object's order; under policy 3 a reject outcome widens it. -/
def Judged.span (j : Judged) : Int × Int := if j.outcome = 0 then (j.west, j.east) else j.widen.getD (j.west, j.east)

/-- An object's order, as an entry of the in-flight queue. -/
def State.orderOf (s : State) (j : Judged) (kind : FlightKind) (seq orderId : Nat) (x : Transit) : Flight :=
  { id := 0, kind := kind, seq := seq, orderId := orderId, port := j.port, accepted := 0, transit := x,
    west := j.span.1, east := j.span.2, grace := if x.surface then s.graceOf j.port x.row else 0 }

/-- R271: an order reaches the neighbour over chord port `k`. -/
def State.reaches (s : State) (f : Flight) (k : Nat) : Bool :=
  let m : Int := s.rdN Obj.EJ_MARGIN_X_UM 0 (f.transit.row - 1)
  let r : Int := s.rdN Obj.EJ_SEAM_REACH_UM
  s.connected k && (if k = 0 then decide (f.west - m ≤ s.rd Obj.ST_WEST_SEAM_X + r)
    else decide (s.rd Obj.ST_EAST_SEAM_X - r ≤ f.east + m))

/-- R271: the chord ports an order goes to as a remote order: the loan order of a lent port goes home; no order of a
SEAM_PARTIAL object goes to a neighbour (R206). -/
def State.remoteLinks (s : State) (j : Judged) (f : Flight) : List Nat :=
  if 12 ≤ j.port then [j.port - 12]
  else if j.flags.testBit rfPartial || !s.flag Obj.ST_ENABLE then []
  else [0, 1].filter (fun k => s.chUp k && s.seamTraffic k && s.reaches f k)

/-- R201: TAKEN: the SEQ, the PART_IDs and the sub-orders for the receiver's valves. -/
def takenPayload (seq : Nat) (ids : List Nat) (orders : List (List Byte)) : List Byte :=
  toLe 8 seq ++ ids.flatMap (toLe 8) ++ orders.flatten

/-- R203, R271: the seam's messages of an accepted object: TAKEN to every unit whose halves it holds, with the sub-order where
the order reaches it, and a remote order of its own to any other unit. -/
def State.seamMessages (s : State) (j : Judged) (seq : Nat) (order : Option Flight) : State :=
  let links := match order with
    | some f => s.remoteLinks j f
    | none => []
  let payload := fun (f : Flight) => remoteOrder f (s.rdN Obj.MER_STATION) (decide (12 ≤ j.port))
  let s := j.taken.foldl (fun s x =>
    let sub := if links.contains x.1 then (order.map payload).toList else []
    s.chordSend x.1 1 2 (takenPayload seq x.2 sub)) s
  let s := links.foldl (fun s k =>
    if j.taken.any (fun x => x.1 == k) then s
    else match order with
      | some f => s.chordSend k 2 0 (payload f)
      | none => s) s
  if links.isEmpty then s else s.count Obj.EJ_REMOTE_SENT 0 0 links.length

/-! ## Acceptance (R230 to R235) -/

/-- R231: an object finds room in the windows. -/
def State.roomFor (s : State) (j : Judged) : Bool := s.recRoom && (j.outcome == 0 || decide (0 < s.orderRoom))

/-- R235: the verdict latency now. -/
def State.latencyOf (s : State) (j : Judged) : Nat := s.now - j.closeTime - j.wait

/-- R236: the latency counters. -/
def State.noteLatency (s : State) (j : Judged) : State :=
  let l := s.latencyOf j
  let s := s.putN Obj.VD_LATENCY_MAX_SEEN 0 0 (min 4294967295 (max l (s.rdN Obj.VD_LATENCY_MAX_SEEN)))
  if 250000 < l then (s.count Obj.VD_LATE_VERDICTS 0 0 1).setBit Obj.VD_STATUS 0 0 vdLate true else s

/-- R233: VD_WINDOW_FULL. -/
def State.windowFull (s : State) (on : Bool) : State :=
  if s.bit Obj.VD_STATUS 0 0 vdWindowFull == on then s
  else
    let s := (s.setBit Obj.VD_STATUS 0 0 vdWindowFull on).setLevel 109 on
    if on then s.raise .VD_WINDOW_FULL (Obj.VD_STATUS.ident) else s

/-- R234: what the next summary covers, with one object more. -/
def State.missedWith (s : State) (j : Judged) (ejected : Bool) : Missed :=
  let m := s.lg.missed.getD { first := s.now, last := s.now }
  { m with
    verdicts := (List.range 3).map (fun i => m.verdicts.getD i 0 + (if i = j.outcome then 1 else 0))
    ejected := m.ejected + (if ejected then 1 else 0), notEjected := m.notEjected + (if ejected then 0 else 1)
    mask := m.mask ||| j.mask, last := s.now }

/-- R233: an object that finds no room: VD_OVERFLOW_POLICY decides whether it is ejected. -/
def State.notAccepted (s : State) (j : Judged) : State :=
  let s := (s.count Obj.VD_NOT_ACCEPTED 0 0 1).windowFull true
  let policy := s.rdN Obj.VD_OVERFLOW_POLICY
  let row := if policy = 0 then 1 else if policy = 1 then j.outcome else 0
  let r := if row = 0 then (s, false)
    else
      let q := s.transit j row
      q.1.enqueueAux (s.orderOf j .overflow 0 0 q.2)
  let s := if r.2 then r.1.count Obj.VD_OVERFLOW_FIRED 0 0 1 else r.1
  { s with lg := { s.lg with missed := some (s.missedWith j r.2) } }

/-- R234: the summary is accepted. -/
def State.acceptSummary (s : State) : State :=
  match s.lg.missed with
  | none => s
  | some m =>
    let seq := s.rdN Obj.LG_NEXT_SEQ
    ({ s with lg := { s.lg with missed := none } }).lgPush (summaryRecord m seq s.now (s.rdN Obj.MER_STATION))
      (summaryExtended seq)

/-- R354: the parts of an accepted object are kept for the last CAM_REPLAY_SLOTS lines of their port. -/
def State.keepParts (s : State) (l : List PartId) : State :=
  let old := s.cont.kept.filter (fun k => decide (s.rdN Obj.CAM_LINE_NOW k.port ≤ k.last + s.rdN Obj.CAM_REPLAY_SLOTS k.port))
  { s with cont := { s.cont with kept := old ++ l } }

/-- R523: an accepted object and where it crosses the ejector rows is kept while forced test pulses may be about, and the lines
of one that meets such a pulse are marked; objects that have passed are forgotten. -/
def State.notePassing (s : State) (j : Judged) : State :=
  if s.surface || (!s.cal.queue.any (fun r => r.task == 5) && s.cal.tests.isEmpty) then s
  else
    let pos := (s.epPositions j.group j.epoch).1
    let rows := (List.range (s.rdN Obj.EP_ROWS)).map (fun r => (s.fallTransit j (r + 1) pos).centre)
    let d : Int := s.rdN Obj.CAL_THRESH_CLEAR_NS
    let near := fun (x : Int) => rows.any (fun r => decide (r - d ≤ x) && decide (x ≤ r + d))
    let s := ((s.cal.tests.filter (fun x => near x.2)).map (fun x => x.1)).eraseDups.foldl (fun (s : State) target =>
      s.calMark 5 target j.first j.last j.port) s
    let old := s.cal.passing.filter (fun x => x.rows.any (fun r => decide ((s.now : Int) < r + 1000000000)))
    { s with cal := { s.cal with
        passing := old ++ [{ port := j.port, first := j.first, last := j.last, rows := rows }] } }

/-- R230, R231, R309: a judged object is accepted: its SEQ, its record, its order and its thumbnail. -/
def State.accept (s : State) (j : Judged) : State :=
  let seq := s.rdN Obj.LG_NEXT_SEQ
  let orderId := if j.outcome = 0 then 0 else s.rdN Obj.LG_NEXT_ORDER
  let fail := s.failsafe j
  let job := s.thumbJob j seq
  let wanted := s.thumbWanted j
  let tag : RecordTag := {
    seq := seq, orderId := orderId, time := s.now,
    flags := withBit (withBit j.flags rfFailsafe fail) rfThumb wanted,
    pipeline := j.pipe, port := s.homePort j.port, station := s.rdN Obj.MER_STATION,
    latency := s.latencyOf j, thumb := if wanted then s.thumbBytes job else 0 }
  let s := (s.lgPush (objectRecord j tag) (extendedRecord j tag)).noteLatency j
  let s := ((s.count Obj.VD_OUTCOME_COUNT 0 j.outcome 1).count Obj.ALM_OBJECTS 0 0 1).windowFull false
  let s := if fail then s.count Obj.RV_FAILSAFE_OBJECTS 0 0 1 else s
  let s := if wanted then { s with thumbs := s.thumbs ++ [job] } else s
  let s := (s.keepParts j.parts).notePassing j
  if j.outcome = 0 then s.seamMessages j seq none
  else
    let q := s.transit j j.outcome
    let s := (q.1.epResult q.2).lgPushOrder seq q.2.row
    let f := s.orderOf j .own seq orderId q.2
    let links := s.remoteLinks j f
    let f := { f with
      remote := links, flags := if links.isEmpty then 0 else 2 ^ ofRemote,
      named := j.taken.flatMap (fun x => x.2.map (fun i => (x.1, i))) }
    (s.seamMessages j seq (some f)).enqueue f

/-- R214, R298, R358: the record's flags as the verdict reads them: FAILSAFE, which no verdict decides, and THUMB where every object
gets a thumbnail; where the verdict decides about the thumbnail THUMB reads 0 (log entry 125). -/
def State.flagsBefore (s : State) (j : Judged) : Nat :=
  withBit (withBit j.flags rfFailsafe (s.failsafe j)) rfThumb (s.thumbWanted { j with outcome := 0 })

/-- R230 to R235: the object that reached the acceptor first is judged and accepted, or handled as one that finds no room.
While records are re-issued none is taken (R344). -/
def execObjectAccept (t : Nat) (s : State) : Result :=
  let s := s.at t
  match s.judged with
  | [] => .next s
  | j :: rest =>
    if s.bit Obj.LG_STATUS 0 0 lgReissuing then .next s
    else
      let s := { s with judged := rest }
      let q := s.judge { j with flags := s.flagsBefore j }
      let s := q.1
      let j := q.2
      if s.mode = stArmed then .next (s.count Obj.VD_ARMED_OBJECTS 0 0 1)
      else if s.mode != stRun && s.mode != stHold then .next s
      else if !s.roomFor j then .next (s.notAccepted j)
      else
        let s := s.acceptSummary
        if s.roomFor j then .next (s.accept j) else .next (s.notAccepted j)

/-! ## TAKEN and its answer (R201, R203, R274) -/

/-- R203: a half of this unit is named by one of the PART_IDs of chord port `k`. -/
def Half.named (h : Half) (k : Nat) (parts : List Nat) : Bool :=
  h.link.isNone && h.ids.any (fun i => i.1 == k && parts.contains i.2)

/-- R203: the group that holds a half named by TAKEN. -/
def State.namedGroup (s : State) (k : Nat) (parts : List Nat) : Option SeamGroup :=
  s.st.groups.find? (fun g => g.halves.any (fun h => h.named k parts))

/-- R203, R206: the unit yields the halves that TAKEN names and takes the sub-orders; the group is resolved, and SEAM_SPLIT clears.
Halves of this unit that were never summarised go on waiting, until R204 makes them objects of their own. -/
def State.yieldGroup (s : State) (k : Nat) (g : SeamGroup) (parts : List Nat) (orders : List (List Byte)) : State :=
  let own := g.halves.filter (fun h => h.link.isNone)
  let named := own.filter (fun h => h.named k parts)
  let rest := own.filter (fun h => !h.named k parts)
  let left := named.map (fun h => h.left)
  let s := if g.waiting.isNone then s.noteWait (s.now - left.foldl min (left.headD 0)) else s
  let s := (s.dropGroup g).count Obj.ST_YIELDED 0 0 1
  let s := if rest.isEmpty then s
    else { s with st := { s.st with
      groups := s.st.groups ++ [{ g with halves := rest, waiting := some (g.waiting.getD s.now) }] } }
  let s := (s.markSplit (g.seams.filter (fun j => s.seamLink j == some k)) false).keepParts (named.map (fun h => h.whole))
  orders.foldl (fun s b => if payloadOk 64 b then s.takeRemote k b else s) s

/-- R203: TAKEN: known halves yield, others are answered refused. -/
def execTaken (t : Nat) (link : Fin 2) (_seq : Nat) (parts : List Nat) (orders : List (List Byte)) (s : State) : Result :=
  let s := s.at t
  if !s.chUp link then .next s
  else
    match s.namedGroup link parts with
    | some g => .next ((s.yieldGroup link g parts orders).chordSend link 1 3 (toLe 8 (parts.headD 0) ++ [0]))
    | none => .next (s.chordSend link 1 3 (toLe 8 (parts.headD 0) ++ [1]))

/-- R203, R274: TAKEN_ACK: a refusal is counted, and the order that waits for the refused sub-order loses it. -/
def execTakenAck (t : Nat) (link : Fin 2) (part : Nat) (refused : Bool) (s : State) : Result :=
  let s := s.at t
  if !s.chUp link || !refused then .next s
  else
    let s := s.count Obj.ST_TAKEN_REFUSED 0 0 1
    match s.bank.flights.find? (fun f => f.named.contains (link.val, part) && f.remote.contains link.val) with
    | none => .next s
    | some f =>
      .next (s.modFlight f.id (fun x => { x with
        remote := x.remote.filter (fun k => k != link.val), causes := x.causes ++ [.uncovered],
        flags := withBit x.flags ofRefused true })).settle

end Sys2Proof.Machine
end

