-- ==== Sys2Proof/Machine/Deflate.lean ====
section
/-! DEFINITION. Raw DEFLATE streams (RFC 1951), which spec/10 R320 and R322 name and do not write out (log entry 28): what a
stream inflates to, the stored form, and the stream an engine gives for a block. -/

namespace Sys2Proof.Machine

open Sys2Proof

/-! ## Bits and codes -/

/-- RFC 1951: the bits of a stream: of each byte the least significant first. -/
def streamBits (b : List Byte) : List Bool := b.flatMap (fun x => (List.range 8).map (fun i => x.testBit i))

/-- The number that the next `n` bits give, the first bit least significant, and the rest. -/
def takeBits (n : Nat) (bits : List Bool) : Option (Nat × List Bool) :=
  if bits.length < n then none
  else some ((bits.take n).foldr (fun b a => 2 * a + boolNat b) 0, bits.drop n)

/-- RFC 1951: the symbols of a code in the order of their code words: by length, then by value. -/
def codeOrder (lens : List Nat) : List Nat :=
  (List.range 15).flatMap (fun i => ((lens.zipIdx).filter (fun x => x.1 == i + 1)).map (fun x => x.2))

/-- RFC 1951: one symbol read with a canonical code, the words of length `len` and more still to be tried: `code` the bits so
far, `first` the first word of this length, `index` its place in the order. -/
def decodeFrom (fuel len code first index : Nat) (lens order : List Nat) (bits : List Bool) : Option (Nat × List Bool) :=
  match fuel, bits with
  | 0, _ => none
  | _, [] => none
  | k + 1, b :: rest =>
    let code := 2 * code + boolNat b
    let n := (lens.filter (fun l => l == len)).length
    if code < first + n then (order[index + (code - first)]?).map (fun x => (x, rest))
    else decodeFrom k (len + 1) code (2 * (first + n)) (index + n) lens order rest

/-- RFC 1951: one symbol read with the code that has these lengths. -/
def decodeSym (lens : List Nat) (bits : List Bool) : Option (Nat × List Bool) :=
  decodeFrom 15 1 0 0 0 lens (codeOrder lens) bits

/-- RFC 1951: a code's words do not overlap. -/
def codeFits (lens : List Nat) : Bool :=
  decide ((lens.map (fun l => if l = 0 then 0 else 2 ^ (15 - l))).foldl (fun a x => a + x) 0 ≤ 2 ^ 15)

/-! ## Blocks -/

/-- RFC 1951: the extra bits of length symbol 257 + `i`, and the smallest length it stands for. -/
def lengthOf (i : Nat) : Nat × Nat :=
  if i < 8 then (0, i + 3)
  else if i = 28 then (0, 258)
  else (i / 4 - 1, (4 + i % 4) * 2 ^ (i / 4 - 1) + 3)

/-- RFC 1951: the extra bits of distance symbol `i`, and the smallest distance. -/
def distanceOf (i : Nat) : Nat × Nat :=
  if i < 4 then (0, i + 1) else (i / 2 - 1, (2 + i % 2) * 2 ^ (i / 2 - 1) + 1)

/-- RFC 1951: `n` bytes copied from `d` back; `out` newest first. -/
def copyBack (n d : Nat) (out : List Byte) : List Byte :=
  match n with
  | 0 => out
  | k + 1 => copyBack k d (out.getD (d - 1) 0 :: out)

/-- RFC 1951: the symbols of a block up to its end; `out` newest first. No match reaches before the stream (R320). -/
def inflateSyms (fuel : Nat) (lit dist : List Nat) (out : List Byte) (bits : List Bool) :
    Option (List Byte × List Bool) :=
  match fuel with
  | 0 => none
  | k + 1 =>
    match decodeSym lit bits with
    | none => none
    | some (x, bits) =>
      if x < 256 then inflateSyms k lit dist (x :: out) bits
      else if x = 256 then some (out, bits)
      else if 285 < x then none
      else
        let le := lengthOf (x - 257)
        match takeBits le.1 bits with
        | none => none
        | some (n, bits) =>
          match decodeSym dist bits with
          | none => none
          | some (y, bits) =>
            let de := distanceOf y
            match (if 29 < y then none else takeBits de.1 bits) with
            | none => none
            | some (d, bits) =>
              if out.length < de.2 + d then none else inflateSyms k lit dist (copyBack (le.2 + n) (de.2 + d) out) bits

/-- RFC 1951: the code lengths of a dynamic block; `acc` newest first. -/
def readLengths (fuel n : Nat) (code acc : List Nat) (bits : List Bool) : Option (List Nat × List Bool) :=
  match fuel with
  | 0 => none
  | k + 1 =>
    if n ≤ acc.length then (if acc.length = n then some (acc.reverse, bits) else none)
    else
      match decodeSym code bits with
      | none => none
      | some (x, bits) =>
        if x < 16 then readLengths k n code (x :: acc) bits
        else if x = 16 && acc.isEmpty then none
        else
          match takeBits (if x = 16 then 2 else if x = 17 then 3 else 7) bits with
          | none => none
          | some (r, bits) =>
            readLengths k n code (List.replicate (r + (if x = 18 then 11 else 3)) (if x = 16 then acc.headD 0 else 0) ++ acc) bits

/-- RFC 1951: the order in which the lengths of the code length code stand. -/
def lengthOrder : List Nat := [16, 17, 18, 0, 8, 7, 9, 6, 10, 5, 11, 4, 12, 3, 13, 2, 14, 1, 15]

/-- RFC 1951: the two codes of a dynamic block. -/
def dynamicCodes (bits : List Bool) : Option ((List Nat × List Nat) × List Bool) :=
  match takeBits 14 bits with
  | none => none
  | some (h, bits) =>
    let nl := h % 32 + 257
    let nd := h / 32 % 32 + 1
    let nc := h / 1024 + 4
    match takeBits (3 * nc) bits with
    | none => none
    | some (c, bits) =>
      let code := (List.range 19).map (fun x => match lengthOrder.idxOf? x with
        | some i => if i < nc then c / 8 ^ i % 8 else 0
        | none => 0)
      match readLengths (bits.length + 1) (nl + nd) code [] bits with
      | none => none
      | some (l, bits) =>
        if codeFits code && codeFits (l.take nl) && codeFits (l.drop nl) then some ((l.take nl, l.drop nl), bits) else none

/-- RFC 1951: the lengths of the fixed code. -/
def fixedCode : List Nat :=
  List.replicate 144 8 ++ List.replicate 112 9 ++ List.replicate 24 7 ++ List.replicate 8 8

/-- RFC 1951: one block behind its header of 3 bits; `kind` is BTYPE. -/
def inflateBlock (kind : Nat) (out : List Byte) (bits : List Bool) : Option (List Byte × List Bool) :=
  match kind with
  | 0 =>
    let bits := bits.drop (bits.length % 8)
    match takeBits 32 bits with
    | none => none
    | some (h, bits) =>
      let n := h % 65536
      if n + h / 65536 ≠ 65535 || bits.length < 8 * n then none
      else
        some (((List.range n).map (fun i => ((bits.drop (8 * i)).take 8).foldr (fun b a => 2 * a + boolNat b) 0)).reverse ++ out,
          bits.drop (8 * n))
  | 1 => inflateSyms (bits.length + 1) fixedCode (List.replicate 30 5) out bits
  | 2 =>
    match dynamicCodes bits with
    | none => none
    | some (c, bits) => inflateSyms (bits.length + 1) c.1 c.2 out bits
  | _ => none

/-- RFC 1951: the blocks of a stream up to the one that carries BFINAL, which must end it. -/
def inflateBlocks (fuel : Nat) (out : List Byte) (bits : List Bool) : Option (List Byte) :=
  match fuel with
  | 0 => none
  | k + 1 =>
    match takeBits 3 bits with
    | none => none
    | some (h, bits) =>
      match inflateBlock (h / 2) out bits with
      | none => none
      | some (out, bits) =>
        if h % 2 = 1 then (if bits.length < 8 then some out.reverse else none) else inflateBlocks k out bits

/-- R320: what a complete raw DEFLATE stream inflates to; none where the bytes are no such stream. -/
@[irreducible] def inflate (b : List Byte) : Option (List Byte) := inflateBlocks (8 * b.length + 1) [] (streamBits b)

/-- R322: DEFLATE stored form, in blocks of at most 65,535 bytes, the last with BFINAL; `n` blocks are still to come. -/
def storedForm (n : Nat) (b : List Byte) : List Byte :=
  match n with
  | 0 => []
  | k + 1 =>
    let x := b.take 65535
    [if k = 0 then 1 else 0, x.length % 256, x.length / 256, 255 - x.length % 256, 255 - x.length / 256] ++ x ++
      storedForm k (b.drop 65535)

/-- R320, R321: the stream an engine gives for a block: free among the streams that inflate to the block (log entry 28); stored
at level 0, which does not compress. -/
def deflated (level bsize : Nat) (b : List Byte) : List Byte :=
  let d := Config.deflate level bsize b
  if level ≠ 0 && inflate d == some b then d else storedForm ((b.length + 65534) / 65535) b

end Sys2Proof.Machine
end

