-- ==== Sys2Proof/Machine/DramFaults.lean ====
section
/-! DEFINITION. DRAM channels as every reader of DRAM needs them: their states, the loss of a channel, and the errors that reads
meet (spec/13_dram.md, R396 to R399, R406, R407, R410, R411). -/

namespace Sys2Proof.Machine

open Sys2Proof

/-- DRAM channel `c`. -/
def State.dramCh (s : State) (c : Nat) : DramChannel := look s.dram {} c

/-- DRAM channel `c` becomes `v`. -/
def State.setDram (s : State) (c : Nat) (v : DramChannel) : State := { s with dram := store s.dram {} c v }

/-- R410: DR_CH_STATE of a channel that is being trained. -/
def drTraining : Nat := 1
/-- R410: DR_CH_STATE of a channel that is ready. -/
def drReady : Nat := 2
/-- R410. -/
def drSelfRefresh : Nat := 3
/-- R410. -/
def drFaulty : Nat := 4

/-- R411: bits of DR_STATUS. -/
def dsReady : Nat := 0
/-- R411. -/
def dsSelfRefresh : Nat := 1
/-- R411. -/
def dsRemapping : Nat := 2
/-- R411. -/
def dsRemapped : Nat := 3
/-- R411. -/
def dsHot : Nat := 6
/-- R411. -/
def dsScrubLate : Nat := 7

/-- R396: DR_CAPACITY of the eight-channel map and of the seven-channel map. -/
def capacity8 : Nat := 66035122176
/-- R396. -/
def capacity7 : Nat := 57780731904

/-- R411: READY and SELF_REFRESH follow the channels. -/
def State.dramPublish (s : State) : State :=
  let st := fun c => s.rdN Obj.DR_CH_STATE 0 c
  let l := (List.range 8).filter (fun c => st c != drFaulty)
  (s.setBit Obj.DR_STATUS 0 0 dsReady (l.all (fun c => st c == drReady))).setBit Obj.DR_STATUS 0 0 dsSelfRefresh
    (l.all (fun c => st c == drSelfRefresh))

/-! ## Channel faults (R406, R407) -/

/-- R343: the lowest healthy channel that the ledger does not use. -/
def State.ledgerTarget (s : State) : Option Nat :=
  (List.range 8).find? (fun c =>
    s.rdN Obj.DR_CH_STATE 0 c == drReady && s.rdN Obj.LG_COPY_CHANNEL 0 0 != c && s.rdN Obj.LG_COPY_CHANNEL 0 1 != c)

/-- R338, R343: the ledger goes on with its surviving copy, and is copied; a copy that was being made on the failed channel goes to
another one, and a channel that was to return no longer does. -/
def State.ledgerLoses (s : State) (c : Nat) : State :=
  let s := { s with cont := { s.cont with returning := s.cont.returning.filter (fun x => x != c) } }
  match [0, 1].find? (fun i => s.rdN Obj.LG_COPY_CHANNEL 0 i == c) with
  | none =>
    match s.cont.copying with
    | some (i, x) =>
      if x = c then { s with cont := { s.cont with copying := s.ledgerTarget.map (fun y => (i, y)) } } else s
    | none => s
  | some i =>
    let target := s.ledgerTarget
    { s with cont := { s.cont with copying := target.map (fun x => (i, x)) } }.setBit Obj.LG_STATUS 0 0 lgSingle true

/-- R406: the buffers of the interleaved region start empty, scratch and the atlas images are lost, and loads from scratch end
with code 7. -/
def State.interleavedLost (s : State) : State :=
  let s := { s with cams := { s.cams with replay := [] }, slots := [], hist := [], rt := [] }.memLose
  let s := (List.range 14).foldl (fun s p =>
    let s := (s.snapshotDrop p 0).snapshotDrop p 1
    let a := s.atp p
    if a.loading.isSome && a.fromScratch then ((s.setAt p { a with loading := none }).atRefuse p 7).atPublish p else s)
    s.imagesLost
  (List.range 12).foldl (fun s p =>
    if s.flag Obj.CAM_ENABLE p && s.lining then
      { s with cont := { s.cont with
          refill := enlist s.cont.refill p (s.rdN Obj.CAM_LINE_CLOSED p + s.rdN Obj.CAM_REPLAY_SLOTS p) } }
    else s) s

/-- R406: channel `c` is faulty. -/
def State.channelFault (s : State) (c : Nat) : State :=
  if s.rdN Obj.DR_CH_STATE 0 c = drFaulty then s
  else
    let s := (s.partFault 1 c).raise .DR_CHANNEL_FAULT (Obj.DR_CH_STATE.ident 0 c)
    let s := (s.putN Obj.DR_CH_STATE 0 c drFaulty).setBit Obj.DR_STATUS 0 0 dsRemapping true
    let s := (s.putN Obj.DR_CAPACITY 0 0 capacity7).setDram c { s.dramCh c with retrained := false }
    ((s.ledgerLoses c).interleavedLost).dramPublish

/-! ## Errors (R399) -/

/-- The order of `l` that a code below the factorial of its length stands for; `fuel` is its length. -/
def orderOf (fuel code : Nat) (l : List Nat) : List Nat :=
  match fuel with
  | 0 => []
  | f + 1 =>
    let x := l.getD (code % l.length) 0
    x :: orderOf f (code / l.length) (l.filter (fun y => y != x))

/-- R397: the bank of an in-channel offset: the 16 granules of an aligned 4 KiB run stand on 16 different banks. -/
def bankOf (off : Nat) : Nat := (orderOf 16 (Config.bankHash (off / 4096)) (List.range 16)).getD (off / 256 % 16) 0

/-- R396, R397: the channel of a place, and the offset in it. -/
def State.sitePlace (s : State) (x : DramSite) : Nat × Nat :=
  match x with
  | .shared a => s.dramPlace a
  | .own c o => (c.val, o)

/-- R410: `DR_LAST_ERROR`. -/
def State.dramLast (s : State) (x : DramSite) (kind : Nat) : State :=
  let p := s.sitePlace x
  let address := match x with
    | .shared a => a
    | .own c o => Config.localAddress c o
  s.putList Obj.DR_LAST_ERROR 0
    [(p.1 : Int), (bankOf p.2 : Int), (Config.dramRow p.2 % 2 ^ 32 : Nat), (address % 2 ^ 64 : Nat), (kind : Int)]

/-- R399: the block of a place of the interleaved region holds one of the `n` bytes from `a` on. -/
def siteMeets (x : DramSite) (a n : Nat) : Bool :=
  match x with
  | .shared b => blockMeets (b / 64) a n
  | .own _ _ => false

/-- R399: the block of a place of the interleaved region reads uncorrectable until it is written again (log entry 268). -/
def State.dramSpoil (s : State) (x : DramSite) : State :=
  match x with
  | .shared a => if s.dramBad.contains (a / 64) then s else { s with dramBad := s.dramBad ++ [a / 64] }
  | .own _ _ => s

/-- R399, R406: an error of a read is counted; the uncorrectable one that passes the limit within 1 s makes its channel
faulty. -/
def State.dramError (s : State) (e : DramError) : State :=
  let p := s.sitePlace e.site
  if !e.uncorrectable then
    ((s.count Obj.DR_CORRECTED 0 p.1 1).count Obj.ALM_ECC_CORR 0 (16 * p.1 + bankOf p.2) 1).dramLast e.site 0
  else
    let d := s.dramCh p.1
    let l := s.now :: d.errors.filter (fun x => decide (s.now < x + 1000000000))
    let s := ((s.setDram p.1 { d with errors := l }).count Obj.DR_UNCORRECTED 0 p.1 1).dramLast e.site 1
    let s := s.dramSpoil e.site
    if s.rdN Obj.DR_UNCORR_LIMIT < l.length then s.channelFault p.1 else s

/-- R399: the errors of reads. -/
def State.dramErrors (s : State) (l : List DramError) : State := l.foldl (fun s e => s.dramError e) s

/-- R399: the blocks known to be uncorrectable in these ranges of the interleaved region, as address and length, but those that
`errors` reports. -/
def State.knownBad (s : State) (ranges : List (Nat × Nat)) (errors : List DramError) : List DramError :=
  let seen := errors.filterMap (fun e => match e.site with
    | .shared a => if e.uncorrectable then some (a / 64) else none
    | .own _ _ => none)
  (s.dramBad.filter (fun b => ranges.any (fun r => blockMeets b r.1 r.2) && !seen.contains b)).map (fun b =>
    { site := .shared (64 * b), uncorrectable := true })

/-- R399: a read of these ranges meets the errors that the command reports, and the blocks known to be uncorrectable. -/
def State.dramMeet (s : State) (ranges : List (Nat × Nat)) (errors : List DramError) : State :=
  s.dramErrors (s.knownBad ranges errors ++ errors)

end Sys2Proof.Machine
end

