-- ==== Sys2Proof/Machine/Continuity.lean ====
section
/-! DEFINITION. Pipeline faults, failover, rotation, the ledger's re-issue and its mirror
(spec/11_islands_crossings_and_continuity.md, R337 to R358). -/

namespace Sys2Proof.Machine

open Sys2Proof

/-! ## Pipelines (R348, R351, R362) -/

/-- R361: RV_PIPE_STATE values. -/
def psServing : Nat := 0
/-- R361. -/
def psSpare : Nat := 1
/-- R361. -/
def psComparing : Nat := 2
/-- R361. -/
def psTesting : Nat := 3
/-- R361. -/
def psFaulty : Nat := 4
/-- R361. -/
def psReplaying : Nat := 5

/-- R361: the state of pipeline `q`. -/
def State.pipeState (s : State) (q : Nat) : Nat := s.rdN Obj.RV_PIPE_STATE 0 q

/-- R361: pipeline `q` enters a state. -/
def State.setPipe (s : State) (q v : Nat) : State := s.putN Obj.RV_PIPE_STATE 0 q v

/-- R361: RV_SPARE names none. -/
def noPipe : Nat := 255

/-- R351: a failover is running: a fault whose failover is still to come, or a spare that has not caught up. -/
def State.failingOver (s : State) : Bool :=
  !s.cont.faults.isEmpty || (List.range 13).any (fun q => s.pipeState q == psReplaying)

/-- R351, R406: rotation is suspended. -/
def State.suspended (s : State) : Bool :=
  s.rdN Obj.RV_SPARE == noPipe || s.failingOver || s.bit Obj.LG_STATUS 0 0 9 || s.rdN Obj.RV_ROTATE_MS == 0

/-- R363: RV_STATUS. While the unit boots no pipeline is a spare yet, as its reset value has it (log entry 269). -/
def State.rvStatus (s : State) : Nat :=
  let b := fun (i : Nat) (v : Bool) => if v then 2 ^ i else 0
  b 0 (s.rdN Obj.RV_SPARE != noPipe && s.mode != stBoot) + b 1 s.suspended + b 2 (s.cont.rotation.any (fun r => !r.mismatch)) +
    b 3 ((List.range 13).any (fun q => s.pipeState q == psReplaying)) + b 4 (s.rd Obj.RV_LAST_FAILOVER 0 8 != 0) +
    b 5 (s.bank.flights.any (fun f => f.kind == .blanket))

/-- R165, R348: at ARMED entry pipeline Pk serves port k and P12 is the spare, where they are not faulty, and each holds the atlas
of its port. -/
def State.rvArm (s : State) : State :=
  let s := (List.range 12).foldl (fun s p => if s.pipeState p = psFaulty then s
    else (s.putN Obj.RV_PORT_PIPELINE 0 p p).setPipe p psServing) s
  let spare := s.pipeState 12 != psFaulty
  let s := if spare then (s.putN Obj.RV_SPARE 0 0 12).setPipe 12 psSpare else s.putN Obj.RV_SPARE 0 0 noPipe
  let s := (List.range 12).foldl (fun s p =>
    if s.pipeState p != psFaulty then s
    else
      let q := s.rdN Obj.RV_SPARE
      if q = noPipe then s.putN Obj.RV_PORT_PIPELINE 0 p 255
      else ((s.putN Obj.RV_PORT_PIPELINE 0 p q).setPipe q psServing).putN Obj.RV_SPARE 0 0 noPipe) s
  let s := (List.range 12).foldl (fun (s : State) p =>
    let s := s.setAt p { s.atp p with swapLine := 0 }
    if s.imageMissing p then s else s.atLoadPipe (s.pipelineOf p) p 0) s
  let s := (s.putN Obj.RV_INTERRUPTION_MAX_SEEN 0 0 0).putN Obj.RV_NEXT_PORT 0 0
    (((List.range 12).find? (fun p => s.flag Obj.CAM_ENABLE p)).getD 0)
  { s with cont := { s.cont with
      kept := [], faults := [], failover := [], rotation := none, rotated := s.now, accuses := none, refill := [] } }

/-! ## The committed line (R352) -/

/-- R352: the line before the first one of every part that segmentation of port `p` holds; the last processed line where it holds
none. -/
def State.heldLine (s : State) (p : Nat) : Nat :=
  let g := s.sgp p
  (g.objs ++ g.done).foldl (fun m o => min m (o.first - 1)) g.line

/-- R352: the committed line of port `p`: before the first line of every part that is still under way; the last processed
line where none is. -/
def State.committedLine (s : State) (p : Nat) : Nat :=
  let halves := (s.st.groups.flatMap (fun g => g.halves)).filter (fun h => h.link.isNone && h.port == p)
  let judged := (s.judged.flatMap (fun j => j.parts)).filter (fun k => k.port == p)
  (halves.map (fun h => h.whole.first) ++ judged.map (fun k => k.first)).foldl (fun m f => min m (f - 1)) (s.heldLine p)

/-- R117: what is left of `RC_STATUS` of port `p`: that a snapshot is valid and a reference loaded. -/
def State.rcStatusReset (s : State) (p : Nat) : State :=
  s.putN Obj.RC_STATUS p 0 (withBit (withBit 0 rsRefLoaded (s.bit Obj.RC_STATUS p 0 rsRefLoaded)) rsSnapshot
    (s.bit Obj.RC_STATUS p 0 rsSnapshot))

/-- R117, R147, R183: the state that a pipeline in reset held of port `p` is gone; snapshots in DRAM survive, what the first lines
of epochs change is read again with those lines (R116), and how far the port had come stays known (R352). -/
def State.pipeEmpty (s : State) (p : Nat) : State :=
  let s := s.setRcp p { snaps := (s.rcp p).snaps, changes := (s.rcp p).changes }
  let now := min (s.sideProgress p true) (s.sideProgress p false)
  let s := (s.setRg p {}).setSg p { nextId := (s.sgp p).nextId, line := s.heldLine p, time := now }
  let s := ((s.putN Obj.RC_PLATE_STALE_COUNT p 0 0).putN Obj.RC_FF_CLIPPED_SITES p 0 0)
  let s := (s.putList Obj.RC_BLACK_LIVE p [0, 0, 0, 0]).putList Obj.RC_PLATE_MEAN p [0, 0, 0, 0]
  let s := (s.setBit Obj.SG_STATUS p 0 sgActive false).segPublish p
  ((s.rcStatusReset p).onlinePublish p).publishTracks p

/-! ## Pipeline faults (R337, R353) -/

/-- R552: the islands of the VDD_CORE domain, every one but AON (log entry 47), have a voltage of their own while they are not
gated; what the path monitors choose is free. VDD_CORE's setpoint follows the highest, and is sent to its regulator. -/
def State.coreVolts (s : State) : State :=
  let s := (List.range 39).foldl (fun (s : State) i =>
    let st := s.rdN Obj.ISLAND_STATE 0 i
    if st = 0 || st = 3 then s.putN Obj.PW_ISLAND_MV 0 i 0
    else if s.rdN Obj.PW_ISLAND_MV 0 i = 0 then (s.putN Obj.PW_ISLAND_MV 0 i (700 + 5 * (s.free % 21))).drawn
    else s) s
  let top := (List.range 39).foldl (fun a i => max a (s.rdN Obj.PW_ISLAND_MV 0 i)) 700
  let v := min 800 ((top + 29) / 5 * 5)
  if s.rdN Obj.PW_CORE_SETPOINT_MV = v then s
  else (s.putN Obj.PW_CORE_SETPOINT_MV 0 0 v).emit (.railVoltage (s.rdN Obj.PW_RAIL_ADDR 0 8) (s.rdN Obj.PW_RAIL_PAGE 0 8) v)

/-- R553: with no spare left, the lowest-numbered gated pipeline is woken for its self-test. -/
def State.wakeGated (s : State) : State :=
  if !s.lining || s.rdN Obj.RV_SPARE != noPipe || !s.cont.testing.isEmpty then s
  else
    match (List.range 13).find? (fun q => s.rdN Obj.ISLAND_STATE 0 (2 + q) == 3) with
    | none => s
    | some q =>
      { ((s.setPipe q psTesting).putN Obj.ISLAND_STATE 0 (2 + q) 2).coreVolts with
        cont := { s.cont with testing := s.cont.testing ++ [(q, s.now)] } }

/-- R355: the spare of a rotation holds the port's state from line m + 97 on. -/
def State.spareHolds (s : State) (r : Rotation) : Bool := decide (r.snapshot + 97 ≤ (s.sgp r.port).line)

/-- R147, R183, R335, R355: a pipeline that served port `p` is in reset: its state of the port is gone, but where the spare of a
rotation holds it too. -/
def State.pipeGone (s : State) (p : Nat) : State :=
  if s.cont.rotation.any (fun (r : Rotation) => r.port == p && !r.mismatch && s.spareHolds r) then s else s.pipeEmpty p

/-- R337, R353: a fault of pipeline `q`, present since `since`, is detected now: 0 heartbeat, 1 ECC, 2 compare. The faulty island
is in reset, which `ISLAND_STATE` shows as 4 (log entry 232), and holds nothing. Outside ARMED, RUN and HOLD no line runs that a
failover would keep. -/
def State.pipeFault (s : State) (q cause since : Nat) : State :=
  if s.pipeState q = psFaulty then s
  else
    let port := (List.range 12).find? (fun p => s.rdN Obj.RV_PORT_PIPELINE 0 p == q)
    let served := s.portOf q
    let s := ((s.setPipe q psFaulty).putN Obj.ISLAND_STATE 0 (2 + q) 4).partFault 0 q
    let s := if s.rdN Obj.RV_SPARE = q then s.putN Obj.RV_SPARE 0 0 noPipe else s
    let c := s.cont
    let s := { s with cont := { c with
      rotation := if c.rotation.any (fun (r : Rotation) => r.spare == q) then none else c.rotation
      testing := c.testing.filter (fun x => x.1 != q)
      accuses := if c.accuses.any (fun (x : Nat × Nat) => x.2 == q) then none else c.accuses } }
    let s := s.wakeGated
    let s := match served with
      | some p => s.pipeGone p
      | none => s
    match port with
    | none => s
    | some p =>
      if !s.lining then s
      else { s with cont := { s.cont with
          faults := s.cont.faults ++ [{ port := p, pipeline := q, detected := s.now, since := since, cause := cause }] } }

/-- R337: no heartbeat for 150 µs. -/
def execPipeHeartbeatTimeout (t : Nat) (pipeline : Fin 13) (last : Nat) (s : State) : Result :=
  let s := s.at t
  if s.islandRuns (2 + pipeline.val) && decide (last + 150000 ≤ s.now) then
    .next (s.pipeFault pipeline 0 last)
  else .next s

/-! ## Failover (R353 to R355) -/

/-- R353: the snapshot a failover of port `p` loads: the oldest valid one within the span, or the newest. -/
def State.pickSnapshot (s : State) (p det : Nat) : Option RcSnapshot :=
  let g := markGroup p (s.portGroup p)
  let all := ([0, 1].filterMap (fun i => look (s.rcp p).snaps none i)).filter (fun x =>
    decide (x.line ≤ s.rdN Obj.CAM_LINE_CLOSED p) && (s.trigTime g x.line).isSome)
  let asc := sortBy (fun (a b : RcSnapshot) => decide (a.line ≤ b.line)) all
  match asc.find? (fun x => decide (det ≤ (s.trigTime g x.line).getD 0 + s.rdN Obj.RV_REPLAY_SPAN_US * 1000)) with
  | some x => some x
  | none => asc.getLast?

/-- R119: the bits of `RC_STATUS` that the pipeline's own state gives; the others speak of the last written map, of the live
reference and of the snapshots in DRAM. -/
def rcStateBits : List Nat := [rsWarmup, rsReady, rsOnlineFull, rsStale, rsBlackLost, rsDrift]

/-- R116: raw correction continues from a snapshot. -/
def State.rcLoad (s : State) (p : Nat) (x : RcSnapshot) : State :=
  let r := s.rcp p
  let s := s.setRcp p { r with
    black := x.black, first := x.first, discard := x.discard, okRun := x.okRun, driftRun := x.driftRun, online := x.online
    sites := x.sites, before := x.before, center := x.center, out := [], table := true }
  let s := s.putN Obj.RC_STATUS p 0
    (rcStateBits.foldl (fun w i => withBit w i (x.status.testBit i)) (s.rdN Obj.RC_STATUS p))
  (s.putN Obj.RC_PLATE_STALE_COUNT p 0 (x.sites.filter (fun st => st.stale)).length).onlinePublish p

/-- R77, R399: a line with every sample INVALID and LOST. -/
def lostLine (l : CapLine) : CapLine :=
  { l with flags := l.flags ||| lfLost, spans := l.spans.map (fun _ => (0, 0)) }

/-- R83: the bytes of the replay slot of line `n` of port `p`, as address and length. -/
def State.replaySlot (s : State) (p n : Nat) : Nat × Nat :=
  let b := s.rdN Obj.CAM_REPLAY_SLOT_BYTES p
  (s.bufferBase (1 + 16 * p) + n % s.rdN Obj.CAM_REPLAY_SLOTS p * b, b)

/-- R115: the bytes of snapshot slot `i` of port `p`. -/
def State.snapshotSlot (s : State) (p i : Nat) : Nat × Nat :=
  (s.bufferBase (2 + 16 * p) + i * s.snapshotBytes p, s.snapshotBytes p)

/-- R115, R399: the spare reads the snapshots of port `p`: one whose slot does not read has a wrong CRC, and is not valid. -/
def State.snapshotsRead (s : State) (p : Nat) : State :=
  [0, 1].foldl (fun (s : State) i =>
    if s.unreadable (s.snapshotSlot p i).1 (s.snapshotSlot p i).2 && (look (s.rcp p).snaps none i).isSome then
      s.snapshotDrop p i
    else s) s

/-- R399: the replay slot of line `n` of port `p` does not read. -/
def State.slotUnreadable (s : State) (p n : Nat) : Bool := s.unreadable (s.replaySlot p n).1 (s.replaySlot p n).2

/-- R399: the spare reads the replay slots of port `p` from line `a` on; what the command reports has been counted. -/
def State.replayRead (s : State) (p a : Nat) (errors : List DramError) : State :=
  s.dramErrors (s.knownBad ((List.range (s.rdN Obj.CAM_LINE_CLOSED p + 1 - a)).map (fun i => s.replaySlot p (a + i))) errors)

/-- R83, R399: the lines of port `p` from `a` to `b` in its replay buffer; those whose slot does not read as lost lines. -/
def State.replayLines (s : State) (p a b : Nat) : List CapLine :=
  let n := s.rdN Obj.CAM_REPLAY_SLOTS p
  (List.range (b + 1 - a)).filterMap (fun i =>
    match look s.cams.replay none (replayKey p ((a + i) % n)) with
    | some l => if l.line = a + i then some (if s.slotUnreadable p (a + i) then lostLine l else l) else none
    | none => none)

/-- R208, R239, R354: what the failed pipeline held and nothing has accepted is dropped; parts that have gone into a merged
object are kept as merged. -/
def State.dropParts (s : State) (p : Nat) : State :=
  let alone := fun (j : Judged) => j.taken.isEmpty && j.parts.length == 1 && j.parts.all (fun k => k.port == p)
  let merged := ((s.judged.filter (fun j => !alone j)).flatMap (fun j => j.parts)).filter (fun k => k.port == p)
  let groups := (s.st.groups.map (fun g => { g with halves := g.halves.filter (fun h => !(h.link.isNone && h.port == p)) })).filter
    (fun g => !g.halves.isEmpty)
  { s with judged := s.judged.filter (fun j => !alone j), st := { s.st with groups := groups } }.keepParts merged

/-- R361: RV_LAST_FAILOVER. -/
def State.publishFailover (s : State) (f : PipeFault) (to_ m : Nat) (x : Failover) (interruption : Nat) : State :=
  s.putList Obj.RV_LAST_FAILOVER 0 [f.port, f.pipeline, to_, f.cause, f.detected, x.committed, m, x.restart,
    if x.cut then 1 else 0, min 4294967295 interruption]

/-- R355: an interruption has ended. -/
def State.noteInterruption (s : State) (i : Nat) : State :=
  s.putN Obj.RV_INTERRUPTION_MAX_SEEN 0 0 (min 4294967295 (max i (s.rdN Obj.RV_INTERRUPTION_MAX_SEEN)))

/-- R353, R356: the restart of a failed port from the snapshot of line `m`: the restart line, the cut, B1 and the start of B2. -/
def State.restartOf (s : State) (f : PipeFault) (m : Nat) : Failover :=
  let g := markGroup f.port (s.portGroup f.port)
  let lc := s.committedLine f.port
  let r := max (lc + 1) (m + 97)
  let cut := decide (lc + 1 < r)
  let time := fun (n : Nat) => ((s.trigTime g n).getD s.now : Int)
  { detected := f.detected, since := f.since, committed := lc, restart := r, start := m + 2, cut := cut
    b1 := if cut then some (time (lc + 1) + s.rdN Obj.RV_FLIGHT_MIN_NS, time (r - 1) + s.rdN Obj.RV_FLIGHT_MAX_NS) else none
    b2 := time (lc + 1) + s.rdN Obj.RV_FLIGHT_MIN_NS }

/-- R353: a failover with a cut, and its cut lines, are counted. -/
def State.countCut (s : State) (x : Failover) : State :=
  if x.cut then (s.count Obj.RV_CUTS 0 0 1).count Obj.RV_LINES_CUT 0 0 (x.restart - (x.committed + 1)) else s

/-- R353 to R357: pipeline `q` takes over port `p`: snapshot, restart line, replay, cut and failsafe. -/
def State.takeOver (s : State) (f : PipeFault) (q : Nat) (errors : List DramError) : State :=
  let p := f.port
  let live := s.rdN Obj.CAM_LINE_CLOSED p
  let s := (s.dramMeet [s.snapshotSlot p 0, s.snapshotSlot p 1] errors).snapshotsRead p
  let g := markGroup p (s.portGroup p)
  let snap := s.pickSnapshot p f.detected
  let m := (snap.map (fun x => x.line)).getD (s.rdN Obj.CAM_LINE_CLOSED p)
  let x := s.restartOf f m
  let r := x.restart
  let s := s.replayRead p (m + 2) errors
  let bad := s.replayLines p (m + 2) live
  let lost := bad.filter (fun l => s.slotUnreadable p l.line)
  let before := ((s.trigTime g (r - 1)).getD s.now)
  let s := s.dropParts p
  let s := match snap with
    | some c => s.rcLoad p c
    | none => s.rcStart p (m + 1)
  let s := (s.setCam p { s.cam p with toPipe := bad }).replayPanic p (!bad.isEmpty)
  let s := if lost.isEmpty then s else s.count Obj.DR_REPLAY_LINES_BAD 0 0 lost.length
  let s := (s.setRg p {}).setSg p { nextId := (s.sgp p).nextId, line := r - 1, time := before }
  let s := (s.setBit Obj.SG_STATUS p 0 sgActive true).segPublish p
  let s := (if p < 12 then s.putN Obj.RV_PORT_PIPELINE 0 p q else s).setPipe q psReplaying
  let s := if s.rdN Obj.RV_SPARE = q then s.putN Obj.RV_SPARE 0 0 noPipe else s
  let s := s.atLoadPipe q p (m + 2)
  let s := { s with cont := { s.cont with testing := s.cont.testing.filter (fun y => y.1 != q) } }.wakeGated
  let s := ((s.countCut x).setFailover p (some x)).publishFailover f q m x 0
  match x.b1 with
  | some b => if s.rdN Obj.RV_FAILSAFE_POLICY = 0 then s.blanket p (max b.1 f.detected) b.2 else s
  | none => s

/-- R338, R355: a port is served by nobody: CONTINUITY_DEGRADED is raised. -/
def State.noService (s : State) : State :=
  (s.setBit Obj.LG_STATUS 0 0 9 true).raise .CONTINUITY_DEGRADED (Obj.LG_STATUS.ident)

/-- R207, R355: a camera loan is possible over a chord port: LOAN_START follows. Whether the neighbour's spare is free nothing
tells to this unit (log entry 231). -/
def State.loanPossible (s : State) : Bool :=
  s.flag Obj.ST_LOAN_ENABLE &&
    [0, 1].any (fun k => s.chUp k && s.seamTraffic k && (look s.st.lent none k).isNone)

/-- R355: no pipeline is free: the port is unserved. With a camera loan possible (R207) LOAN_START follows, which lends the port
or raises CONTINUITY_DEGRADED; else it is raised at once. -/
def State.unserved (s : State) (f : PipeFault) : State :=
  let p := f.port
  let lc := s.committedLine p
  let t : Int := (s.trigTime (s.portGroup p) (lc + 1)).getD s.now
  let x : Failover := { detected := f.detected, since := f.since, committed := lc, restart := 0, start := 0, cut := false,
                        b2 := t + s.rdN Obj.RV_FLIGHT_MIN_NS }
  let s := (((s.dropParts p).pipeEmpty p).putN Obj.RV_PORT_PIPELINE 0 p 255).setFailover p (some x)
  let s := s.publishFailover f noPipe 0 x 0
  if s.loanPossible then s else s.noService

/-- R355: the spare was comparing with the failed pipeline: it becomes live at once, without a replay. -/
def State.liveAtOnce (s : State) (f : PipeFault) (r : Rotation) : State :=
  let lc := s.committedLine f.port
  let t : Int := (s.trigTime (s.portGroup f.port) (lc + 1)).getD s.now
  let x : Failover := { detected := f.detected, since := f.since, committed := lc, restart := r.snapshot + 97,
                        start := r.snapshot + 2, cut := false, reached := true, b2 := t + s.rdN Obj.RV_FLIGHT_MIN_NS,
                        caught := some s.now }
  let s := ((s.putN Obj.RV_PORT_PIPELINE 0 f.port r.spare).setPipe r.spare psServing).putN Obj.RV_SPARE 0 0 noPipe
  let s := { s with cont := { s.cont with rotation := none } }.wakeGated
  let s := (s.setFailover f.port (some x)).publishFailover f r.spare r.snapshot x (s.now - f.since)
  (s.noteInterruption (s.now - f.since)).growBlanket f.port

/-- R349, R353: the pipeline that takes a failed port: the spare, or the displaced one, whose self-test is abandoned. -/
def State.freeSpare (s : State) : Option Nat :=
  let q := s.rdN Obj.RV_SPARE
  if q != noPipe then some q
  else (s.cont.testing.find? (fun x => s.pipeState x.1 == psTesting && !s.cont.accuses.isSome)).map (fun x => x.1)

/-- R349: the self-test of a displaced pipeline is abandoned for a failover: it is the spare, and takes the port once its island
has left reset. -/
def State.abandonTest (s : State) (q : Nat) : State :=
  ({ s with cont := { s.cont with testing := s.cont.testing.filter (fun x => x.1 != q) } }.setPipe q psSpare).putN
    Obj.RV_SPARE 0 0 q

/-- R165, R353: the failover of the oldest pipeline fault: the spare takes the port; an atlas image whose CRC fails makes it a
failed spare. A failover to a pipeline whose island is still in reset waits for it (R349). -/
def execFailover (t : Nat) (errors : List DramError) (imageBad : Bool) (s : State) : Result :=
  let s := s.at t
  match s.cont.faults with
  | [] => .next s
  | f :: rest =>
    let spare := match s.cont.rotation with
      | some r => some r.spare
      | none => s.freeSpare
    let s' := ({ s with cont := { s.cont with faults := rest } }.fire 108).count Obj.RV_FAILOVERS 0 0 1
    let s' := s'.count Obj.ALM_FAILOVERS 0 0 1
    match spare with
    | none => .next (s'.unserved f)
    | some q =>
      if !s.islandRuns (2 + q) then .next (s.abandonTest q)
      else if s.cont.rotation.any (fun (r : Rotation) => r.port == f.port && !r.mismatch && s.spareHolds r) then
        match s.cont.rotation with
        | some r => .next (s'.liveAtOnce f r)
        | none => .next s'
      else
        let s := { s' with cont := { s'.cont with rotation := none } }
        if imageBad || s.imageMissing f.port then
          .next (((s.raise .ATLAS_IMAGE_BAD (Obj.AT_STATE.ident f.port)).pipeFault q 1 s.now).unserved f)
        else .next (s.takeOver f q errors)

/-- R354: the spare has caught up with the live lines. -/
def execSpareCaughtUp (t : Nat) (p : Fin 14) (s : State) : Result :=
  let s := s.at t
  if !s.replaying p || !(s.cam p).toPipe.isEmpty || !(s.rcp p).out.isEmpty then .next s
  else
    let s := s.setPipe (s.pipelineOf p) psServing
    match s.failoverOf p with
    | none => .next s
    | some f => .next ((s.setFailover p (some { f with caught := some s.now })).growBlanket p)

/-- R146, R353: a line that leaves raw correction after a failover, and whether it enters registration: lines before the restart
line are history of the leading row alone, and the line before a cut's restart line is processed all-invalid. -/
def State.afterCut (s : State) (l : RegLine) : RegLine × Bool :=
  match s.failoverOf l.cap.port with
  | none => (l, true)
  | some f =>
    if f.restart ≤ l.cap.line then (l, true)
    else if f.cut && l.cap.line + 1 = f.restart then ({ l with rows := l.rows.map (fun r => r.map (fun _ => {})) }, true)
    else (l, false)

/-- R355: the projection output of port `p` has reached line `n`; `RV_LAST_FAILOVER` speaks of the unit's own ports. -/
def State.outputAt (s : State) (p n : Nat) : State :=
  match s.failoverOf p with
  | none => s
  | some f =>
    if f.reached || n < f.restart || f.restart = 0 then s
    else
      let i := s.now - f.since
      let s := (s.setFailover p (some { f with reached := true })).noteInterruption i
      if 12 ≤ p then s else s.putN Obj.RV_LAST_FAILOVER 0 9 (min 4294967295 i)

/-! ## Rotation (R349 to R351) -/

/-- R349: the next enabled port from `p` on, wrapping after port 11. -/
def State.nextEnabled (s : State) (p : Nat) : Option Nat :=
  ((List.range 12).map (fun i => (p + i) % 12)).find? (fun k => s.flag Obj.CAM_ENABLE k)

/-- R406: every enabled port's replay buffer has refilled. -/
def State.refilled (s : State) : Bool :=
  (List.range 12).all (fun p => !s.flag Obj.CAM_ENABLE p || decide (look s.cont.refill 0 p ≤ s.rdN Obj.CAM_LINE_CLOSED p))

/-- R349, R399: the spare begins to take over port `p`, and its reads meet errors. -/
def State.startRotation (s : State) (p : Nat) (errors : List DramError) : State :=
  let q := s.rdN Obj.RV_SPARE
  let s := (s.dramMeet [s.snapshotSlot p 0, s.snapshotSlot p 1] errors).snapshotsRead p
  let m := s.rdN Obj.RC_SNAPSHOT_LAST p
  let s := (s.setPipe q psComparing).putN Obj.RV_NEXT_PORT 0 0 ((s.nextEnabled (p + 1)).getD p)
  let s := s.replayRead p (m + 2) errors
  let lost := (s.replayLines p (m + 2) (s.rdN Obj.CAM_LINE_CLOSED p)).filter (fun l => s.slotUnreadable p l.line)
  let s := if lost.isEmpty then s else s.count Obj.DR_REPLAY_LINES_BAD 0 0 lost.length
  let s := (s.replayPanic p (decide (m + 2 ≤ s.rdN Obj.CAM_LINE_CLOSED p))).atLoadPipe q p (m + 2)
  { s with cont := { s.cont with rotation := some { port := p, spare := q, snapshot := m }, rotated := s.now } }

/-- R349: line `n` of port `p` has been segmented: r′ is the first from line m + 97 on at which the live pipeline holds no track
and no object that was open at line m + 97 or merged with one. -/
def State.rotationLine (s : State) (p n : Nat) : State :=
  match s.cont.rotation with
  | none => s
  | some r =>
    let open97 := r.snapshot + 97
    let held := (s.rgp p).tracks.any (fun k => k.last.isNone && decide (k.first ≤ open97)) ||
      (s.sgp p).objs.any (fun o => decide (o.first ≤ open97))
    if r.port ≠ p || r.begun.isSome || decide (n < open97) || held then s
    else { s with cont := { s.cont with rotation := some { r with begun := some n } } }

/-- R165, R349: RV_ROTATE_MS has passed: the spare loads the port's atlas images, which may be bad, and begins. -/
def execRotate (t : RotationStart) (s : State) : Result :=
  let s := s.at t.time
  let due := decide (s.cont.rotated + s.rdN Obj.RV_ROTATE_MS * 1000000 ≤ s.now)
  if !s.lining || s.suspended || s.cont.rotation.isSome || !s.refilled || !due then .next s
  else
    match s.nextEnabled (s.rdN Obj.RV_NEXT_PORT) with
    | none => .next s
    | some p =>
      if t.imageBad || s.imageMissing p then
        .next ((s.raise .ATLAS_IMAGE_BAD (Obj.AT_STATE.ident p)).pipeFault (s.rdN Obj.RV_SPARE) 1 s.now)
      else .next (s.startRotation p t.errors)

/-- R349: what is compared has reached `RV_COMPARE_LINES` lines. -/
def State.comparedAll (s : State) (r : Rotation) : Bool :=
  r.begun.any (fun n => decide (n + s.rdN Obj.RV_COMPARE_LINES ≤ (s.sgp r.port).line + 1))

/-- R349, R350: from r′ on outputs and facets are compared: they were equal for `RV_COMPARE_LINES` lines, or differ, then or while
the epoch boundary is awaited. A mismatch sends the spare into self-test; a pass there will accuse the live pipeline. -/
def execRotationCompareDone (t : Nat) (equal : Bool) (s : State) : Result :=
  let s := s.at t
  match s.cont.rotation with
  | none => .next s
  | some r =>
    if r.mismatch || r.begun.isNone then .next s
    else if equal then
      if r.compared.isSome || !s.comparedAll r then .next s
      else .next { s with cont := { s.cont with rotation := some { r with compared := some s.now } } }
    else
      let s := ((s.count Obj.RV_COMPARE_MISMATCH 0 0 1).setPipe r.spare psTesting).putN Obj.RV_SPARE 0 0 noPipe
      .next { s with cont := { s.cont with
        rotation := none, testing := s.cont.testing ++ [(r.spare, s.now)]
        accuses := some (r.spare, s.rdN Obj.RV_PORT_PIPELINE 0 r.port) } }

/-- R349: at an epoch boundary of the port's group the compared spare becomes live, and the displaced pipeline is tested. -/
def State.rotateAt (s : State) (g : Nat) : State :=
  match s.cont.rotation with
  | none => s
  | some r =>
    if r.compared.isNone || r.mismatch || s.portGroup r.port != g then s
    else
      let old := s.rdN Obj.RV_PORT_PIPELINE 0 r.port
      let s := ((s.putN Obj.RV_PORT_PIPELINE 0 r.port r.spare).setPipe r.spare psServing).setPipe old psTesting
      let s := ((s.putN Obj.RV_SPARE 0 0 noPipe).count Obj.RV_ROTATIONS 0 0 1).putN Obj.ISLAND_STATE 0 (2 + old) 2
      { s with cont := { s.cont with rotation := none, testing := s.cont.testing ++ [(old, s.now)] } }

/-- R349: no epoch boundary within RV_EPOCH_WAIT_MS: the device declares one. -/
def execRotateEpochWaitTimeout (t : Nat) (s : State) : Result :=
  let s := s.at t
  match s.cont.rotation with
  | none => .next s
  | some r =>
    match r.compared with
    | none => .next s
    | some c =>
      if c + s.rdN Obj.RV_EPOCH_WAIT_MS * 1000000 ≤ s.now then .next (s.declareOwn (s.portGroup r.port)) else .next s

/-- R349, R350, R535: the self-test of pipeline `q` has passed. -/
def State.bistPass (s : State) (q : Nat) : State :=
  let s := ((((s.setPipe q psSpare).putN Obj.RV_SPARE 0 0 q).putN Obj.ISLAND_STATE 0 (2 + q) 1).partBack 0 q).atReload q
  match s.cont.accuses with
  | some (a, live) =>
    if a = q then { s with cont := { s.cont with accuses := none } }.pipeFault live 2 s.now else s
  | none => s

/-- R349, R350, R535: the self-test of a displaced, accusing or faulty pipeline ends: 1 pass, 2 to 4 the part that failed. One
that passes has run for `RV_BIST_MS` (log entry 233). -/
def execPipeBistDone (t : Nat) (pipeline : Fin 13) (result : Nat) (s : State) : Result :=
  let s := s.at t
  let q := pipeline.val
  let early := s.cont.testing.any (fun x => x.1 == q && decide (s.now < x.2 + s.rdN Obj.RV_BIST_MS * 1000000))
  if (s.pipeState q != psTesting && s.pipeState q != psFaulty) || (result == 1 && early) then .next s
  else
    let s := { s with cont := { s.cont with testing := s.cont.testing.filter (fun x => x.1 != q) } }.putN
      Obj.BIST_PIPE_RESULT 0 q result
    let s := if (s.calRunning 6 q).isSome then { s with cal := { s.cal with bist := enlist s.cal.bist q result } } else s
    if result = 1 then .next (s.bistPass q)
    else .next ((s.count Obj.RV_BIST_FAILS 0 0 1).pipeFault q 1 s.now)

/-! ## The ledger (R343 to R347) -/

/-- R338, R343: the ledger has been copied onto its new channel, or onto a retrained channel that returns with it. -/
def execLedgerCopyDone (t : Nat) (s : State) : Result :=
  let s := s.at t
  match s.cont.copying with
  | some (i, c) =>
    let back := s.cont.returning.contains c
    let s := { s with cont := { s.cont with copying := none, returning := s.cont.returning.filter (fun x => x != c) } }
    let s := (s.putN Obj.LG_COPY_CHANNEL 0 i c).setBit Obj.LG_STATUS 0 0 lgSingle false
    .next (if back then s.partBack 1 c else s)
  | none =>
    match s.cont.returning with
    | [] => .next s
    | c :: rest => .next ({ s with cont := { s.cont with returning := rest } }.partBack 1 c)

/-- R265, R344: every open order closes, with cause RESET where no pulse of it completed. -/
def State.closeOrders (s : State) : State :=
  s.bank.flights.foldl (fun s f => s.closeFlight { f with causes := f.causes ++ [.reset] }) s

/-- R344: the records of the window and then the closed outcomes are written again, and then the heads. -/
def State.rewriteWindows (s : State) : State :=
  let recs := s.lg.records
  let s := if s.rdN Obj.REC_RING_BASE = 0 then s
    else
      let s := recs.foldl (fun s e => s.writeRecord e) s
      (s.count Obj.LG_REISSUED_RECORDS 0 0 recs.length).putN Obj.REC_HEAD_SEQ 0 0 (s.rdN Obj.LG_NEXT_SEQ - 1)
  let outs := s.lg.orders.filter (fun o => !o.outcome.isEmpty)
  let s := if s.rdN Obj.OUT_RING_BASE = 0 then s
    else
      let s := outs.foldl (fun s o => s.writeOutcome o) s
      let s := s.count Obj.LG_REISSUED_OUTCOMES 0 0 outs.length
      s.putN Obj.OUT_LOW_ORDER 0 0 s.lowOrder
  let s := if s.rdN Obj.REC_RING_BASE = 0 then s else s.headWrite Obj.REC_HEAD_ADDR (s.rdN Obj.REC_HEAD_SEQ) 106
  if s.rdN Obj.OUT_RING_BASE = 0 then s else s.headWrite Obj.OUT_HEAD_ADDR (s.rdN Obj.OUT_LOW_ORDER) 107

/-- R344: once the CXL island is ready, the re-issue after a reset runs. -/
def execReissue (t : Nat) (s : State) : Result :=
  let s := s.at t
  if !s.bit Obj.LG_STATUS 0 0 lgReissuing || !s.islandRuns 35 || !s.cxl.linkUp then .next s
  else .next (s.closeOrders.rewriteWindows.setBit Obj.LG_STATUS 0 0 lgReissuing false)

/-- R342, R346: the next SEQ and ORDER_ID after a discard: the larger of their values and the watermarks. -/
def State.discardLedger (s : State) : State :=
  let seq := max (s.rdN Obj.LG_NEXT_SEQ) s.vault.seqMark
  let ord := max (s.rdN Obj.LG_NEXT_ORDER) s.vault.orderMark
  let s := { s with lg := { s.lg with records := [], orders := [], closed := [], missed := none } }
  let s := ((s.putN Obj.LG_NEXT_SEQ 0 0 seq).putN Obj.REC_HEAD_SEQ 0 0 (seq - 1)).putN Obj.REC_ACK_SEQ 0 0 (seq - 1)
  let s := ((s.putN Obj.LG_NEXT_ORDER 0 0 ord).putN Obj.OUT_LOW_ORDER 0 0 ord).putN Obj.OUT_ACK_ORDER 0 0 (ord - 1)
  ((s.setBit Obj.LG_STATUS 0 0 8 false).setBit Obj.LG_STATUS 0 0 lgValid true).lgPublish

/-- R346: LG_DISCARD = 1, in INIT. -/
def execLgDiscard (t : Nat) (path : Path) (value : List Byte) (s : State) : Result :=
  let s := (s.at t).touch path
  let k := Obj.LG_DISCARD.key 0 0
  match s.checkWrite path Obj.LG_DISCARD 0 0 value with
  | 0 => if s.mode = stInit then .next (s.discardLedger.answer path k 0) else .next (s.answer path k 4)
  | r => .next (s.answer path k r)

/-! ### The mirror (R347) -/

/-- R347: the partner's window with an entry more, or with what an acknowledgement leaves of it. -/
def MirrorWindow.take (w : MirrorWindow) (acks : Bool) (b : List Byte) : MirrorWindow :=
  if acks then
    let r := leAt b 0 8
    let o := leAt b 8 8
    { w with
      recordAck := r, orderAck := o, records := w.records.filter (fun x => decide (r < x.1))
      outcomes := w.outcomes.filter (fun x => decide (o < x.1)) }
  else if b.length < 128 then { w with outcomes := enlist w.outcomes (leAt b 0 8) (b.drop 8) }
  else { w with records := enlist w.records (leAt b 0 8) b }

/-- R347: the highest SEQ a mirrored window holds. -/
def MirrorWindow.highest (w : MirrorWindow) : Nat := (w.records.getLast?.map (fun x => x.1)).getD w.recordAck

/-- R347: an entry or an acknowledgement of the neighbour arrives: it is kept and confirmed. -/
def execMirrorEntry (t : Nat) (link : Fin 2) (acks : Bool) (payload : List Byte) (s : State) : Result :=
  let s := s.at t
  if !s.chUp link then .next s
  else
    let w := (s.lg.mirrored.getD {}).take acks payload
    .next ({ s with lg := { s.lg with mirrored := some w } }.chordSend link 3 2 (toLe 8 w.highest))

/-- R347: an entry that went to the mirror has waited 50 µs for its confirmation. -/
def State.mirrorOverdue (s : State) : Bool :=
  let late := fun (m : Option Nat) => m.any (fun x => decide (x + 50000 ≤ s.now))
  s.lg.records.any (fun e => late e.mirror) || s.lg.orders.any (fun o => late o.mirror)

/-- R347: the partner confirms up to `seq`: the records up to it and the order entries of those objects. -/
def execMirrorConfirm (t : Nat) (link : Fin 2) (seq : Nat) (s : State) : Result :=
  let s := s.at t
  if !s.chUp link || link.val != s.mirrorLink || !s.flag Obj.LG_MIRROR_ENABLE then .next s
  else
    let s := { s with lg := { s.lg with
      records := s.lg.records.map (fun (e : LedgerRecord) =>
        if e.seq ≤ seq then { e with mirror := none } else e)
      orders := s.lg.orders.map (fun (o : LedgerOrder) =>
        if o.seq ≤ seq then { o with mirror := none } else o) } }
    .next (if s.mirrorOverdue then s else s.setBit Obj.LG_STATUS 0 0 lgMirrorActive true)

/-- R347: an entry has waited 50 µs for its confirmation. -/
def execMirrorConfirmTimeout (t : Nat) (s : State) : Result :=
  let s := s.at t
  .next (if s.mirrorOverdue then s.setBit Obj.LG_STATUS 0 0 lgMirrorActive false else s)

end Sys2Proof.Machine
end

