-- ==== Sys2Proof/Machine/Host.lean ====
section
/-! DEFINITION. The CXL link, its interrupts and the device memory window (spec/12_cxl_host_and_dma.md, R365 to R379). The
mailbox stands in Dictionary.lean, the DMA channels in Dma.lean. -/

namespace Sys2Proof.Machine

open Sys2Proof

/-! ## Status -/

/-- R393: bits of CX_LINK_STATUS. -/
def clDown : Nat := 9
/-- R393. -/
def clHdm : Nat := 10
/-- R393. -/
def clIde : Nat := 11
/-- R393. -/
def clFlit256 : Nat := 8

/-- The number of the CXL island (R329). -/
def islandCxl : Nat := 35

/-- R365, R393: IDE is active on these protocols; one on which it is not has no stream and no mode. -/
def State.setIde (s : State) (l : List Bool) : State :=
  ({ s with
    cxl := { s.cxl with
      ide := l, ideStream := if l.getD 0 false then s.cxl.ideStream else none
      ideModes := [if l.getD 1 false then s.cxl.ideModes.getD 0 none else none,
        if l.getD 2 false then s.cxl.ideModes.getD 1 none else none] } }).setBit Obj.CX_LINK_STATUS 0 0 clIde (l.all (fun x => x))

/-- R328: `RING_STATUS`; bit 4 is kept, the others follow the rings and the link. -/
def State.ringStatus (s : State) : Nat :=
  (if s.rdN Obj.REC_RING_BASE = 0 then 0 else 1) + (if s.rdN Obj.OUT_RING_BASE = 0 then 0 else 2) +
    (if s.flag Obj.EXT_ENABLE then 4 else 0) + (if s.bit Obj.CX_LINK_STATUS 0 0 clDown then 8 else 0) +
    (if s.bit Obj.RING_STATUS 0 0 4 then 16 else 0)

/-! ## The link (R365 to R368, R576) -/

/-- R379: pending messages of unmasked vectors go out. -/
def State.flushVectors (s : State) : State :=
  let send := s.cxl.pendingVec.filter (fun v => s.cxl.unmasked.contains v)
  let keep := s.cxl.pendingVec.filter (fun v => !s.cxl.unmasked.contains v)
  send.foldl (fun s v => s.emit (.msix v)) { s with cxl := { s.cxl with pendingVec := keep } }

/-- R367: the widths and rates the link trains at. -/
def State.linkAllowed (s : State) (width rate : Nat) : Bool :=
  (width == 4 || width == 8 || width == 16) && decide (rate ≤ s.rdN Obj.CX_RATE_MAX)

/-- R393: WIDTH as it shows a link's width. The field has four bits and lists 16: what it holds then is not stated (log entry
273). -/
def shownWidth (width : Fin 17) : Nat := if width.val = 16 then Config.width16 % 16 else width.val

/-- R308, R367, R379: the link trains or returns: pending messages go out; held ring writes are issued by the RECORD_WRITE and
OUTCOME_WRITE commands that follow. -/
def execCxlLinkUp (t : Nat) (width : Fin 17) (rate : Fin 5) (report : LinkReport) (s : State) : Result :=
  let s := s.at t
  if s.cxl.linkUp || !s.islandRuns islandCxl || !s.linkAllowed width rate then .next s
  else
    let s := { s with cxl := { s.cxl with linkUp := true, width := width.val, recovery := none } }
    let s := (s.setField Obj.CX_LINK_STATUS 0 0 0 3 rate).setField Obj.CX_LINK_STATUS 0 0 4 4 (shownWidth width)
    let s := (s.setBit Obj.CX_LINK_STATUS 0 0 clFlit256 (rate.val == 4)).setBit Obj.CX_LINK_STATUS 0 0 clDown false
    let s := (s.setBit Obj.CX_LINK_STATUS 0 0 clHdm report.hdm).partBack 6 0
    .next ((s.count Obj.CX_FEC_CORRECTED 0 0 report.corrected).flushVectors)

/-- R367: the link leaves L0. -/
def execCxlLinkRecovery (t : Nat) (s : State) : Result :=
  let s := s.at t
  if !s.cxl.linkUp then .next s
  else .next (({ s with cxl := { s.cxl with linkUp := false, recovery := some s.now } }).count Obj.CX_RECOVERIES 0 0 1)

/-- R308, R337, R367: the link is down: the part is faulty, ring writes are held, and the link's width reads none. IDE has
ended with it, as the standard has it (log entry 31), and the host holds no line of the window any more (log entry 243). -/
def State.linkLost (s : State) : State :=
  let s := { s with cxl := { s.cxl with linkUp := false, recovery := none } }
  let s := (s.setBit Obj.CX_LINK_STATUS 0 0 clDown true).setField Obj.CX_LINK_STATUS 0 0 4 4 0
  let s := ((s.count Obj.CX_LINK_DOWN_COUNT 0 0 1).partFault 6 0).setIde [false, false, false]
  { s with cxl := { s.cxl with held := [] } }

/-- R365: an IDE_KM message in the DOE mailbox programs keys and activates IDE on the protocols it names: on CXL.io in one
selective stream, on CXL.cache and CXL.mem in a mode. -/
def execIdeKeyProgram (t : Nat) (io : Option Nat) (cache mem : Option IdeMode) (s : State) : Result :=
  let s := s.at t
  if !s.cxl.linkUp then .next s
  else
    let s := { s with
      cxl := { s.cxl with
        ideStream := io.or s.cxl.ideStream
        ideModes := List.zipWith (fun (a b : Option IdeMode) => b.or a) s.cxl.ideModes [cache, mem] } }
    .next (s.setIde (List.zipWith (fun a b => a || b) s.cxl.ide [io.isSome, cache.isSome, mem.isSome]))

/-! ## Interrupts (R369, R379) -/

/-- R369: CAUSE is write-1-to-clear. -/
def execCauseClear (t : Nat) (mask : Nat) (s : State) : Result :=
  let s := s.at t
  .next { s with cxl := { s.cxl with cause := s.cxl.cause - (s.cxl.cause &&& mask) } }

/-- R369, R379: a host write of an entry of the MSI-X table. The pending message of a vector it unmasks goes out. -/
def execMsixUnmask (t : Nat) (entry : MsixEntry) (s : State) : Result :=
  let s := s.at t
  let v := entry.vector.val
  let others := s.cxl.unmasked.filter (fun x => x != v)
  let s := { s with
    cxl := { s.cxl with
      unmasked := if entry.masked then others else others ++ [v]
      msixTable := store s.cxl.msixTable (0, 0) v (entry.address, entry.data) } }
  .next (if s.cxl.linkUp then s.flushVectors else s)

/-! ## The window (R375 to R377) -/

/-- R101: the map entry of an online defect, but for its KIND. -/
def onlineWord (o : OnlineSite) : Nat := o.row * 2 ^ 30 + o.col * 2 ^ 16 + 2 * 2 ^ 14

/-- R115: the bytes of a snapshot of port `p`, its CRC over all but itself. BLACK_RUN is the longest run of a plane (log entry
32), BLACK_OK_RUN the low 16 bits of its run (log entry 255), and the KIND of an online defect is free (log entry 57). -/
def snapshotImage (p : Nat) (x : RcSnapshot) : List Byte :=
  let live := (x.online.filter (fun o => o.stop.isNone)).map (fun o => onlineWord o + (Config.onlineKind % 4) * 4096)
  let ym := (x.before.map (fun l => l.rows.flatten)).getD []
  let y1 := (x.center.map (fun l => l.rows.flatten)).getD []
  let run := x.discard.foldl (fun m e => max m e.2) 0
  let head := toLe 8 x.line ++ toLe 4 x.epoch ++ toLe 2 x.width ++ [p, live.length] ++
    (List.range 4).flatMap (fun i => iLe 4 (look x.black 0 i)) ++ toLe 2 run ++ toLe 2 x.okRun ++ toLe 2 x.driftRun ++
    toLe 2 x.status ++ zeros 20
  let body := (List.range 64).flatMap (fun i => toLe 4 (live.getD i 0)) ++
    (List.range x.width).flatMap (fun i =>
      let st := x.sites.getD i {}
      let a := ym.getD i {}
      let b := y1.getD i {}
      iLe 4 st.p ++ iLe 4 a.y ++ iLe 4 b.y ++ toLe 2 st.age ++ toLe 2 st.drun ++
        [boolNat a.cand * 128 + boolNat b.cand * 64 + boolNat st.stale * 32 + st.reacq % 32, 0, 0, 0])
  head ++ toLe 4 (crc32c (head ++ body)) ++ body

/-- R83, R84, R115, R312, R316: the byte at an offset of a buffer; bytes nothing has written read as zero. -/
def State.bufferByte (s : State) (b off : Nat) : Byte :=
  let p := b / 16
  let slot := fun (size : Nat) => (look s.slots [] (b * 1048576 + off / size)).getD (off % size) 0
  if b = 0 then slot (s.rdN Obj.TH_SLOT_BYTES)
  else match b % 16 with
    | 1 =>
      let n := s.rdN Obj.CAM_REPLAY_SLOT_BYTES p
      match look s.cams.replay none (replayKey p (off / n)) with
      | none => 0
      | some l => (capBytes (s.rdN Obj.CAM_DEPTH p) l).getD (off % n) 0
    | 2 =>
      match look (s.rcp p).snaps none (off / s.snapshotBytes p) with
      | none => 0
      | some x => (snapshotImage p x).getD (off % s.snapshotBytes p) 0
    | 3 => Config.historyByte ((look s.hist {} p).rows.map (fun r => (r.row, r.planes))) off % 256
    | n => slot (s.rdN Obj.RT_SLOT_BYTES p (n - 8))

/-- R375, R377: what a host or DMA read of a window address returns: scratch, a buffer, or zero. -/
def State.windowByte (s : State) (a : Nat) : Byte :=
  if s.inScratch a 1 then s.memByte a
  else
    match s.bufferAt a with
    | some (b, off) => s.bufferByte b off
    | none => 0

/-- R375: `n` bytes of the window. -/
def State.windowBytes (s : State) (a n : Nat) : List Byte := (List.range n).map (fun i => s.windowByte (a + i))

/-- R365, R375: the host reaches the window: the link is in L0 and the host has committed the HDM decoder (log entry 272). -/
def State.windowOpen (s : State) : Bool := s.cxl.linkUp && s.bit Obj.CX_LINK_STATUS 0 0 clHdm

/-- R376: a host write into the window. -/
def execWindowWrite (t : Nat) (address : Nat) (data : List Byte) (s : State) : Result :=
  let s := s.at t
  if !s.windowOpen then .next s
  else if s.rdN Obj.CX_HDM_SIZE < address + data.length then .fault (.outsideWindow address)
  else if s.inScratch address data.length then .next (s.memStore address data)
  else .next (s.count Obj.CX_MEM_WRITE_REFUSED 0 0 1)

/-- R377: the host holds line `l`, tracked newest; a full tracker gives up the line it has tracked longest. -/
def State.track (s : State) (l : Nat) : State :=
  let held := s.cxl.held.filter (fun x => x != l) ++ [l]
  match held with
  | [] => s
  | o :: r =>
    if 1048576 < held.length then { s with cxl := { s.cxl with held := r } }.emit (.backInvalidate (64 * o))
    else { s with cxl := { s.cxl with held := held } }

/-- R377: the host holds the lines of `n` bytes from an address on. -/
def State.trackLines (s : State) (a n : Nat) : State :=
  (List.range ((a + n + 63) / 64 - a / 64)).foldl (fun s i => s.track (a / 64 + i)) s

/-- R377, R399: a host read of the window, poisoned where it meets an uncorrectable error: the host may hold the lines it read (log entry 243). -/
def execWindowRead (t : Nat) (address length : Nat) (errors : List DramError) (s : State) : Result :=
  let s := s.at t
  if !s.windowOpen then .next s
  else if s.rdN Obj.CX_HDM_SIZE < address + length then .fault (.outsideWindow address)
  else
    let bad := s.unreadable address length || errors.any (fun e => e.uncorrectable && siteMeets e.site address length)
    let data := s.windowBytes address length
    let s := s.dramMeet [(address, length)] errors
    if bad then .next ((s.count Obj.CX_POISON_RETURNED 0 0 1).emit (.windowData address [] true))
    else .next ((s.trackLines address length).emit (.windowData address data false))

end Sys2Proof.Machine
end

