-- ==== Sys2Proof/Machine/Dma.lean ====
section
/-! DEFINITION. The DMA engine and block compression (spec/12_cxl_host_and_dma.md, R380 to R394;
spec/10_records_streams_and_compression.md, R319 to R325). -/

namespace Sys2Proof.Machine

open Sys2Proof

/-! ## Channels -/

/-- R390: DMA channel `n`. -/
def State.dma (s : State) (n : Nat) : DmaChannel := look s.cxl.dma {} n

/-- DMA channel `n` becomes `v`. -/
def State.setDma (s : State) (n : Nat) (v : DmaChannel) : State :=
  { s with cxl := { s.cxl with dma := store s.cxl.dma {} n v } }

/-- R394: STATE of a channel. -/
def dsIdle : Nat := 0
/-- R394. -/
def dsValidating : Nat := 1
/-- R394. -/
def dsFetching : Nat := 2
/-- R394. -/
def dsWaiting : Nat := 3
/-- R394. -/
def dsRunning : Nat := 4
/-- R394. -/
def dsPreempted : Nat := 5

/-- R382: FORM of a descriptor. -/
def dsForm (d : List Byte) : Nat := leAt d 60 4 % 4

/-- R381: the bytes of a job's pieces. -/
def DmaJob.total (j : DmaJob) : Nat := sumNat (j.pieces.map (fun p => p.2.2))

/-- R319, R381: the job compresses. LEVEL 0 is no compression (log entry 33). -/
def DmaJob.compresses (j : DmaJob) : Bool := j.czCtrl % 16 != 0

/-- R319: the block size of a compression job. -/
def DmaJob.blockBytes (j : DmaJob) : Nat := 4096 * 2 ^ fieldOf j.czCtrl 4 4

/-- R381, R382: the pieces of a job: one, one for each row, or one for each element of its list. -/
def dmaPieces (d : List Byte) (elements : List (List Byte)) : List (Nat × Nat × Nat) :=
  match dsForm d with
  | 1 => (List.range (leAt d 20 2)).map (fun r => (leAt d 0 8 + r * leAt d 24 4, leAt d 8 8 + r * leAt d 28 4, leAt d 16 4))
  | 2 => (d :: elements).map (fun e => (leAt e 0 8, leAt e 8 8, leAt e 16 4))
  | _ => [(leAt d 0 8, leAt d 8 8, leAt d 16 4)]

/-- R381, R382: the job of a descriptor and its list. -/
def dmaJob (gen : Nat) (d : List Byte) (elements : List (List Byte)) : DmaJob :=
  let c := leAt d 60 4
  { gen := gen, srcDev := c.testBit 11, dstDev := c.testBit 12, pieces := dmaPieces d elements, form := c % 4
    check := fieldOf c 6 2, prio := fieldOf c 4 2, compl := c.testBit 8, irqHalf := c.testBit 9, irqFull := c.testBit 10
    tag := leAt d 56 4, czCtrl := leAt d 40 4, outLimit := leAt d 44 4, indexAddr := leAt d 48 8 }

/-! ## Validation (R383, R384) -/

/-- The byte ranges, as base and length, meet. -/
def rangesMeet (a b : Nat × Nat) : Bool := decide (a.1 < b.1 + b.2) && decide (b.1 < a.1 + a.2)

/-- R384: the span of a 2D job's rows, or each piece of the others. -/
def DmaJob.ranges (j : DmaJob) (dst : Bool) : List (Nat × Nat) :=
  let l := j.pieces.map (fun p => ((if dst then p.2.1 else p.1), p.2.2))
  if j.form = 1 then
    match l.head?, l.getLast? with
    | some a, some b => [(a.1, b.1 + b.2 - a.1)]
    | _, _ => []
  else l

/-- R386: where the check bytes go. -/
def DmaJob.checkAt (j : DmaJob) : Nat := (j.pieces.getLast?.map (fun p => p.2.1 + p.2.2)).getD 0

/-- R320: the blocks of a compression job. -/
def DmaJob.blockCount (j : DmaJob) : Nat := (j.total + j.blockBytes - 1) / j.blockBytes

/-- R320, R383: what the job writes: its output or destination, its index table and its check. The index table lies in the
space of the destination (log entry 34). -/
def DmaJob.writes (j : DmaJob) : List (Nat × Nat) :=
  let out := if j.compresses then [((j.pieces.head?.map (fun p => p.2.1)).getD 0, j.outLimit)] else j.ranges true
  let index := if j.compresses && j.czCtrl.testBit 10 then [(j.indexAddr, 8 * j.blockCount)] else []
  let check := if j.check = 0 then [] else [(j.checkAt, 4)]
  out ++ index ++ check

/-- R383: code 10. -/
def DmaJob.descBad (j : DmaJob) (d : List Byte) : Bool :=
  let c := leAt d 60 4
  decide (16384 ≤ c) || fieldOf c 2 2 != 0 || leAt d 22 2 != 0 || j.form == 3 || j.check == 3 || (!j.srcDev && !j.dstDev) ||
    (j.form == 1 && (leAt d 20 2 == 0 || decide (leAt d 28 4 < leAt d 16 4))) || decide (256 < j.pieces.length && j.form = 2) ||
    (j.compresses && (j.form != 0 || j.check != 0))

/-- R383: code 5. -/
def DmaJob.czBad (j : DmaJob) : Bool :=
  decide (4096 ≤ j.czCtrl) || j.czCtrl.testBit 8 || decide (9 < j.czCtrl % 16) || decide (6 < fieldOf j.czCtrl 4 4) ||
    (j.compresses && j.srcDev == j.dstDev && j.writes.any (fun w => (j.ranges false).any (rangesMeet w)))

/-- R376, R383: code 9. -/
def State.dmaAddressBad (s : State) (j : DmaJob) : Bool :=
  (j.ranges false).any (fun r => decide (2 ^ 64 < r.1 + r.2) || (j.srcDev && decide (s.rdN Obj.CX_HDM_SIZE < r.1 + r.2))) ||
    j.writes.any (fun r => decide (2 ^ 64 < r.1 + r.2) || (j.dstDev && !s.inScratch r.1 r.2))

/-- R384: source and destination meet. -/
def DmaJob.overlaps (j : DmaJob) : Bool :=
  j.srcDev == j.dstDev && (j.ranges false).any (fun a => (j.ranges true).any (rangesMeet a))

/-- R384: code 8. -/
def DmaJob.overlapBad (j : DmaJob) : Bool :=
  (j.form != 0 && j.overlaps) ||
    (j.check != 0 && j.srcDev == j.dstDev && (j.ranges false).any (rangesMeet (j.checkAt, 4)))

/-- R383: the first code that refuses the job, whose list could not be fetched whole where `cut`; 0 where none does. -/
def State.dmaRefusal (s : State) (j : DmaJob) (d : List Byte) (cut : Bool := false) : Nat :=
  if j.descBad d then 10 else if j.czBad then 5 else if s.dmaAddressBad j || cut then 9 else if j.overlapBad then 8 else 0

/-! ## The compression engines (R324) -/

/-- R324: the engines at work, and `CZ_ENGINE_BUSY` after them. -/
def State.setEngines (s : State) (l : List (Nat × Nat × Nat)) : State :=
  { s with cxl := { s.cxl with engines := l } }.putList Obj.CZ_ENGINE_BUSY 0
    ((List.range 4).map (fun e => boolInt (l.any (fun x => x.1 == e))))

/-- R324: the channel whose job the next idle engine serves: of the running compression jobs with a block left, the one of
highest priority, and of equals the lowest channel. -/
def State.engineJob (s : State) : Option Nat :=
  let l := (List.range 32).filterMap (fun n =>
    let c := s.dma n
    match c.job with
    | some j => if j.compresses && c.state == dsRunning && decide (j.issued < j.blockCount) then some (j.prio, n) else none
    | none => none)
  match l with
  | [] => none
  | x :: r => some (r.foldl (fun a b => if a.1 < b.1 then b else a) x).2

/-- R324: an idle engine takes the next block of the job it serves. -/
def State.feedEngine (s : State) (e : Nat) : State :=
  if s.cxl.engines.any (fun x => x.1 == e) then s
  else
    match s.engineJob with
    | none => s
    | some n =>
      match (s.dma n).job with
      | none => s
      | some j =>
        (s.setDma n { s.dma n with job := some { j with issued := j.issued + 1 } }).setEngines
          (s.cxl.engines ++ [(e, n, j.issued)])

/-- R324: every idle engine, in ascending order, takes a block. -/
def State.feedEngines (s : State) : State := [0, 1, 2, 3].foldl State.feedEngine s

/-! ## Completion and hand-over (R387 to R391) -/

/-- R379: vector 8 + n. -/
def State.dmaVector (s : State) (n : Nat) (on : Bool) : State := if on then s.vector (8 + n) else s

/-- R388: the completion record. -/
def dmaRecord (j : DmaJob) (code bytes : Nat) : List Byte :=
  withCrc (toLe 4 j.tag ++ toLe 4 j.gen ++ [code, j.form, 0, 0] ++ toLe 4 (if j.compresses then j.endBlock else 0) ++
    toLe 4 (if j.compresses then j.blocks else 0) ++ toLe 8 bytes)

/-- R388, R389: job `j` of channel `n` ends with a code; `full` says that HALF arises with DONE. The channel is idle then. -/
def State.dmaEnd (s : State) (n : Nat) (j : DmaJob) (code : Nat) (full : Bool := false) : State :=
  let bytes := if j.compresses then j.outBytes else j.moved
  let c := s.dma n
  let s := s.setDma n { c with
    code := code, state := dsIdle, done := true, half := c.half || full, taken := [], job := none, bytesDone := bytes
    blocksDone := j.blocks }
  let s := (s.count Obj.DMA_JOBS 0 n 1).count Obj.DMA_BYTES 0 n bytes
  let s := if code = 0 then s else s.count Obj.DMA_ERRORS 0 n 1
  let a := s.rdN Obj.DMA_COMPL_ADDR 0 n
  let s := if j.compl && a != 0 then s.hostWrite a (dmaRecord j code bytes) else s
  let s := s.dmaVector n (j.irqFull || (full && j.irqHalf))
  let s := s.setEngines (s.cxl.engines.filter (fun e => e.2.1 != n))
  s.fire (74 + n)

/-- R383, R385: the job of channel `n` with its whole list: it waits for a mover, or completes refused. The
list ends at an address outside the window where `cut`. -/
def State.dmaValidate (s : State) (n : Nat) (elements : List (List Byte)) (cut : Bool := false) : State :=
  let c := s.dma n
  let j := dmaJob c.genTaken c.taken elements
  let j := { j with down := j.overlaps && decide ((j.ranges false).any (fun a => (j.ranges true).any (fun b => a.1 < b.1))) }
  match s.dmaRefusal j c.taken cut with
  | 0 => s.setDma n { c with state := dsWaiting, job := some j }
  | code => s.dmaEnd n { j with pieces := [] } code

/-- R390: an idle channel takes the last committed set. A set of R383's one-piece forms, or a list of one element, is
validated at once; the others wait for their list. -/
def State.dmaTakeOne (s : State) (n : Nat) : State :=
  let c := s.dma n
  match c.committed with
  | none => s
  | some d =>
    if c.state ≠ dsIdle then s
    else
      let list := dsForm d == 2 && leAt d 32 8 != 0
      let s := s.setDma n { c with
        committed := none, genTaken := c.genCommitted, state := if list then dsFetching else dsValidating
        done := false, half := false, taken := d, bytesDone := 0, blocksDone := 0 }
      if list then s else s.dmaValidate n []

/-- R390: a COMMIT of channel `n`. -/
def State.dmaCommit (s : State) (n : Nat) : State :=
  let c := s.dma n
  let s := if c.committed.isSome then s.count Obj.DMA_COMMITS_SKIPPED 0 n 1 else s
  (s.setDma n { c with committed := some c.shadow, genCommitted := (c.genCommitted + 1) % 2 ^ 32 }).dmaTakeOne n

/-- R388, R390: a job ends and the channel takes its next set. -/
def State.dmaFinish (s : State) (n : Nat) (j : DmaJob) (code : Nat) (full : Bool := false) : State :=
  ((s.dmaEnd n j code full).dmaTakeOne n).feedEngines

/-- R390: a write of COMMIT, of SHADOW alone, or of SHADOW and then of COMMIT (log entry 35). -/
def execDmaCommit (t : Nat) (channel : Fin 32) (block : DmaBlockWrite) (s : State) : Result :=
  let s := s.at t
  let s := match block.shadow with
    | some d => s.setDma channel { s.dma channel with shadow := d }
    | none => s
  .next (if block.commit then s.dmaCommit channel else s)

/-- R381, R383: a list in device memory, from an address on: at most one element over the limit, none outside the window. -/
def State.dmaChain (s : State) (fuel a : Nat) : List (List Byte) :=
  match fuel with
  | 0 => []
  | f + 1 =>
    if a = 0 || decide (s.rdN Obj.CX_HDM_SIZE < a + 64) then []
    else
      let e := s.windowBytes a 64
      e :: s.dmaChain f (leAt e 32 8)

/-- R383: the list of a descriptor in device memory leaves the window: the NEXT of its last element lies outside. -/
def State.dmaChainCut (s : State) (d : List Byte) (elements : List (List Byte)) : Bool :=
  let next := leAt (elements.getLast?.getD d) 32 8
  next != 0 && decide (s.rdN Obj.CX_HDM_SIZE < next + 64)

/-- R383: the list of channel `n` has come: from host memory as the command carries it, or from device memory. -/
def execDmaListFetched (t : Nat) (channel : Fin 32) (elements : List (List Byte)) (s : State) : Result :=
  let s := s.at t
  let c := s.dma channel
  if c.state ≠ dsFetching then .next s
  else
    let device := (leAt c.taken 60 4).testBit 13
    let list := s.dmaChain 256 (leAt c.taken 32 8)
    let s := if device then s.dmaValidate channel list (s.dmaChainCut c.taken list) else s.dmaValidate channel elements
    .next (s.dmaTakeOne channel)

/-! ## Moving bytes (R384, R387) -/

/-- Bytes `a` to `a + n - 1` of a job's pieces. -/
def pieceSlice (l : List (Nat × Nat × Nat)) (a n : Nat) : List (Nat × Nat × Nat) :=
  match l with
  | [] => []
  | (src, dst, len) :: r =>
    if n = 0 then []
    else if len ≤ a then pieceSlice r (a - len) n
    else
      let k := min (len - a) n
      (src + a, dst + a, k) :: pieceSlice r 0 (n - k)

/-- The bytes go to an address of the destination's space. -/
def State.dmaWrite (s : State) (device : Bool) (a : Nat) (b : List Byte) : State :=
  if device then (s.invalidate a b.length).memStore a b else s.hostWrite a b

/-- The source bytes of pieces: from the window, or from what the host returned. -/
def State.dmaRead (s : State) (device : Bool) (l : List (Nat × Nat × Nat)) (data : List Byte) : List Byte :=
  if device then l.flatMap (fun p => s.windowBytes p.1 p.2.2) else data

/-- R389, R399: the bytes that a plain job from device memory moves, in its direction, before the first beat that does not read. -/
def State.dmaReadable (s : State) (j : DmaJob) : Nat :=
  let hit := fun (p : Nat × Nat × Nat) => (s.dramBad.filter (fun b => blockMeets b p.1 p.2.2)).map (fun b =>
    if j.down then p.1 + p.2.2 - (64 * b + 64) else 64 * b - p.1)
  (j.pieces.foldl (fun (a : Nat × Nat) p => (a.1 + p.2.2, (hit p).foldl (fun m x => min m (a.1 + x)) a.2)) (0, j.total)).2

/-- R378: the reads of a job's pieces in host memory are made. -/
def State.dmaAsk (s : State) (device : Bool) (l : List (Nat × Nat × Nat)) : State :=
  if device then s else { s with out := s.out ++ l.map (fun p => .hostRead p.1 p.2.2) }

/-- The pieces are written with the bytes in order. -/
def State.dmaPut (s : State) (device : Bool) (l : List (Nat × Nat × Nat)) (data : List Byte) : State :=
  match l with
  | [] => s
  | (_, dst, n) :: r => (s.dmaWrite device dst (data.take n)).dmaPut device r (data.drop n)

/-- R384, R385, R387: a plain job has written `moved` bytes in all: first those that were staged, then those it reads now. -/
def State.dmaAdvance (s : State) (n moved : Nat) (data : List Byte) : State :=
  match (s.dma n).job with
  | none => s
  | some j =>
    let st := j.staged.length
    let want := min moved (if j.srcDev then s.dmaReadable j else j.total) - j.moved
    let k := if j.srcDev then want else min want (st + data.length)
    let first := if j.down then j.total - j.moved - k else j.moved
    let src := pieceSlice j.pieces (if j.down then first else first + st) (k - st)
    let new := s.dmaRead j.srcDev src (data.take (k - st))
    let s := s.dmaAsk j.srcDev src
    let b := if j.down then new ++ j.staged.drop (st - k) else j.staged.take k ++ new
    let s := s.dmaPut j.dstDev (pieceSlice j.pieces first k) b
    let j' := { j with
      moved := j.moved + k, read := if j.down then b ++ j.read else j.read ++ b
      staged := if j.down then j.staged.take (st - k) else j.staged.drop k }
    s.setDma n { s.dma n with job := some j', bytesDone := j'.moved }

/-- R385: at its pre-emption a plain job keeps what it has read and not yet written: `count` bytes in all. -/
def State.dmaStage (s : State) (n count : Nat) (data : List Byte) : State :=
  match (s.dma n).job with
  | none => s
  | some j =>
    let st := j.staged.length
    let k := min count (j.total - j.moved)
    if j.compresses || k ≤ st then s
    else
      let first := if j.down then j.total - j.moved - k else j.moved + st
      let src := pieceSlice j.pieces first (k - st)
      let new := s.dmaRead j.srcDev src (data.drop (data.length - (k - st)))
      let s := s.dmaAsk j.srcDev src
      s.setDma n { s.dma n with job := some { j with staged := if j.down then new ++ j.staged else j.staged ++ new } }

/-- R387: HALF. -/
def State.dmaHalf (s : State) (n : Nat) : State :=
  let c := s.dma n
  match c.job with
  | none => s
  | some j =>
    if !c.half && decide ((j.total + 1) / 2 ≤ j.moved) && decide (j.moved < j.total) then
      (s.setDma n { c with half := true }).dmaVector n j.irqHalf
    else s

/-- R385, R389: a job's progress as a command reports it; compression reports its own. -/
def State.dmaProgress (s : State) (p : DmaProgress) : State :=
  let c := s.dma p.channel
  match c.job with
  | none => s
  | some j => if j.compresses || c.state ≠ dsRunning then s else (s.dmaAdvance p.channel p.moved p.data).dmaHalf p.channel

/-- R385: of the channels in the states `f` allows with jobs of a destination, the one that stands first by `better`. -/
def State.dmaPick (s : State) (toHost : Bool) (f : Nat → Bool) (better : Nat × Nat → Nat × Nat → Bool) : Option Nat :=
  let l := (List.range 32).filterMap (fun n =>
    let c := s.dma n
    match c.job with
    | some j => if f c.state && (!j.dstDev) == toHost then some (j.prio, n) else none
    | none => none)
  match l with
  | [] => none
  | x :: r => some (r.foldl (fun a b => if better b a then b else a) x).2

/-- R385: channel `n` runs on a mover. -/
def State.dmaRun (s : State) (n mover : Nat) : State :=
  let c := s.dma n
  s.setDma n { c with state := dsRunning, job := c.job.map (fun j => { j with mover := mover }) }

/-- R385: the priority of a channel's job. -/
def State.dmaPrio (s : State) (n : Nat) : Nat := ((s.dma n).job.map (fun j => j.prio)).getD 0

/-! ## Compression (R320 to R324) -/


/-- R320: the header of a block and its payload, padded to a multiple of 8 bytes. -/
def czBlock (level flags ulen index ucrc : Nat) (payload : List Byte) : List Byte :=
  let b := toLe 2 0x5a44 ++ [level, flags] ++ toLe 3 payload.length ++ toLe 3 ulen ++ toLe 2 index ++ toLe 4 ucrc ++ payload
  b ++ zeros (upTo 8 b.length - b.length)

/-- R320 to R323: a block of job `j` from its source bytes: its bytes, or the status that ends the job. `stored` says that it
did not shrink. -/
def czResult (j : DmaJob) (src : List Byte) (verifyFail : Bool) : Bool × Sum Nat (List Byte) :=
  let last := decide (j.total ≤ j.moved + src.length)
  let small := deflated (j.czCtrl % 16) (fieldOf j.czCtrl 4 4) src
  let grows := decide (src.length ≤ 16 + small.length)
  let verify := j.czCtrl.testBit 11
  let flags := boolNat last + 2 * boolNat grows + 4 * boolNat verify
  if grows && !j.czCtrl.testBit 9 then (false, .inl 1)
  else if verify && verifyFail then (grows, .inl 4)
  else
    let b := czBlock (if grows then 0 else j.czCtrl % 16) flags src.length (j.blocks % 65536) (crc32c src)
      (if grows then storedForm ((src.length + 65534) / 65535) src else small)
    if j.outLimit < j.outBytes + b.length then (grows, .inl 2) else (grows, .inr b)

/-- R320: a block is written behind the last one, and indexed. -/
def State.czWrite (s : State) (n engine : Nat) (j : DmaJob) (src b : List Byte) (stored : Bool) : State :=
  let base := (j.pieces.head?.map (fun p => p.2.1)).getD 0
  let s := s.dmaWrite j.dstDev (base + j.outBytes) b
  let s := if j.czCtrl.testBit 10 then s.dmaWrite j.dstDev (j.indexAddr + 8 * j.blocks) (toLe 8 j.outBytes) else s
  let s := ((s.count Obj.CZ_BLOCKS 0 engine 1).count Obj.CZ_BYTES_IN 0 engine src.length).count Obj.CZ_BYTES_OUT 0 engine b.length
  let s := if stored then s.count Obj.CZ_STORED 0 0 1 else s
  let j := { j with
    moved := j.moved + src.length, blocks := j.blocks + 1, outBytes := j.outBytes + b.length, endBlock := j.blocks
    early := j.early.filter (fun x => x.index != j.blocks) }
  s.setDma n { s.dma n with job := some j, bytesDone := j.outBytes, blocksDone := j.blocks }

/-- R320 to R324: block `x`, the next of job `j` of channel `n`, is written, or it ends the job. -/
def State.czTake (s : State) (n : Nat) (j : DmaJob) (x : CzBlock) : State :=
  let ended := { j with endBlock := j.blocks }
  if x.sourceError then s.dmaFinish n ended 3
  else
    match czResult j x.src x.verifyFail with
    | (stored, .inr b) => (s.czWrite n x.engine j x.src b stored).dmaHalf n
    | (_, .inl code) =>
      let s := if code = 1 then s.count Obj.CZ_NOT_SHRUNK 0 0 1
        else if code = 4 then s.count Obj.CZ_VERIFY_FAIL 0 0 1 else s
      s.dmaFinish n ended code

/-- R324: the compressed blocks of a running job that stand next in index order are written; `fuel` bounds them. -/
def State.czFlush (s : State) (fuel n : Nat) : State :=
  match fuel with
  | 0 => s
  | f + 1 =>
    match (s.dma n).job with
    | none => s
    | some j =>
      if (s.dma n).state ≠ dsRunning then s
      else
        match j.early.find? (fun x => x.index == j.blocks) with
        | none => s
        | some x => (s.czTake n j x).czFlush f n

/-! ## Movers (R380, R385) -/

/-- R324, R385: channel `n` runs on a mover; a compression job's blocks go to the engines, and those already compressed are
written. -/
def State.dmaStart (s : State) (n mover : Nat) : State :=
  let s := s.dmaRun n mover
  (s.czFlush ((((s.dma n).job.map (fun j => j.early)).getD []).length) n).feedEngines

/-- R380, R385: a waiting job takes a free mover of its destination, or that of a running job of lower priority. -/
def execDmaMoverGrant (t : Nat) (toHost : Bool) (victim : Option DmaProgress) (s : State) : Result :=
  let s := s.at t
  match s.dmaPick toHost (fun x => x == dsWaiting || x == dsPreempted) (fun b a => decide (a.1 < b.1)) with
  | none => .next s
  | some n =>
    let movers := if toHost then [0, 1] else [2, 3]
    let busy := (List.range 32).filterMap (fun k =>
      if (s.dma k).state = dsRunning then (s.dma k).job.map (fun j => j.mover) else none)
    match movers.find? (fun m => !busy.contains m) with
    | some m => .next (s.dmaStart n m)
    | none =>
      match s.dmaPick toHost (fun x => x == dsRunning) (fun b a => decide (b.1 ≤ a.1)) with
      | none => .next s
      | some v =>
        if s.dmaPrio n ≤ s.dmaPrio v then .next s
        else
          let s := match victim with
            | some p => if p.channel.val = v then (s.dmaProgress p).dmaStage v p.staged p.data else s
            | none => s
          let m := ((s.dma v).job.map (fun j => j.mover)).getD 0
          let s := (s.setDma v { s.dma v with state := dsPreempted }).count Obj.DMA_PREEMPTIONS 0 v 1
          .next (s.dmaStart n m)

/-- R387: half of a plain job is written. -/
def execDmaHalf (t : Nat) (channel : Fin 32) (data : List Byte) (s : State) : Result :=
  let s := s.at t
  match (s.dma channel).job with
  | none => .next s
  | some j =>
    if j.compresses || (s.dma channel).state ≠ dsRunning then .next s
    else .next ((s.dmaAdvance channel ((j.total + 1) / 2) data).dmaHalf channel)

/-! ## Checks (R386) -/

/-- R386: Adler-32 as RFC 1950 defines it. -/
def adler32 (l : List Byte) : Nat :=
  let r := l.foldl (fun (a : Nat × Nat) b => ((a.1 + b) % 65521, (a.2 + a.1 + b) % 65521)) (1, 0)
  r.2 * 65536 + r.1

/-- R386: the check of the moved bytes is stored. -/
def State.dmaCheck (s : State) (j : DmaJob) : State :=
  match j.check with
  | 1 => s.dmaWrite j.dstDev j.checkAt (toLe 4 (crc32c j.read))
  | 2 => s.dmaWrite j.dstDev j.checkAt (toLe 4 (adler32 j.read))
  | _ => s

/-- R399: a read of a job's source has failed: DRAM's error is counted, the one reported or that of the first block known to be
uncorrectable. -/
def State.dmaMeet (s : State) (j : DmaJob) (fault : Option ReadFault) : State :=
  match fault with
  | some (.dram e) => s.dramError e
  | some .host => s
  | none => s.dramErrors ((s.knownBad (j.pieces.map (fun p => (p.1, p.2.2))) []).take 1)

/-- R388, R389: the running job completes: every byte, the check and the completion; or its source read failed after as many
bytes as the command names. -/
def execDmaJobDone (t : Nat) (channel : Fin 32) (data : List Byte) (sourceError : Option (Nat × ReadFault)) (s : State) : Result :=
  let s := s.at t
  let n := channel.val
  match (s.dma n).job with
  | none => .next s
  | some j =>
    if (s.dma n).state ≠ dsRunning then .next s
    else
      let half := (s.dma n).half
      let bad := !j.compresses && (sourceError.isSome || (j.srcDev && decide (s.dmaReadable j < j.total)))
      let s := if j.compresses then s else s.dmaAdvance n ((sourceError.map (fun x => x.1)).getD j.total) data
      match (s.dma n).job with
      | none => .next s
      | some j =>
        if bad then .next (((s.dmaMeet j (sourceError.map (fun x => x.2))).dmaHalf n).dmaFinish n j 3)
        else if j.moved < j.total then .next (s.dmaHalf n)
        else .next ((s.dmaCheck j).dmaFinish n j 0 (!half))

/-- R389: the host returned an error for a write. -/
def execDmaDestError (t : Nat) (channel : Fin 32) (progress : Option DmaProgress) (s : State) : Result :=
  let s := s.at t
  let n := channel.val
  let s := match progress with
    | some p => if p.channel = channel then s.dmaProgress p else s
    | none => s
  match (s.dma n).job with
  | none => .next s
  | some j => if (s.dma n).state = dsRunning && !j.dstDev then .next (s.dmaFinish n j 13) else .next s

/-- R391: an ABORT discards the committed set and ends the job. -/
def execDmaAbort (t : Nat) (channel : Fin 32) (progress : Option DmaProgress) (s : State) : Result :=
  let s := s.at t
  let n := channel.val
  let s := match progress with
    | some p => if p.channel = channel then s.dmaProgress p else s
    | none => s
  let s := s.setDma n { s.dma n with committed := none }
  let c := s.dma n
  if c.state = dsIdle then .next s
  else .next (s.dmaFinish n (c.job.getD { dmaJob c.genTaken c.taken [] with pieces := [] }) 11)

/-- R391: a reset aborts every channel without completion records and clears SHADOW, the committed sets and both generation
counts. A job that was aborted leaves ABORTED in its status. -/
def State.dmaReset (s : State) : State :=
  let s := (List.range 32).foldl (fun s n =>
    let c := s.dma n
    if c.state = dsIdle then s.setDma n { code := c.code, done := c.done, half := c.half, bytesDone := c.bytesDone, blocksDone := c.blocksDone }
    else
      ((s.setDma n { code := 11, done := true, half := c.half, bytesDone := c.bytesDone, blocksDone := c.blocksDone }).count
        Obj.DMA_JOBS 0 n 1).count Obj.DMA_ERRORS 0 n 1) s
  s.setEngines []

/-- R391: a function level reset. -/
def execFunctionLevelReset (t : Nat) (s : State) : Result := .next (s.at t).dmaReset

/-- R389: the jobs that touch host memory end with LINK_DOWN. -/
def State.dmaLinkDown (s : State) : State :=
  (List.range 32).foldl (fun s n =>
    let c := s.dma n
    let j := c.job.getD (dmaJob c.genTaken c.taken [])
    let list := c.state = dsFetching && !(leAt c.taken 60 4).testBit 13
    if c.state ≠ dsIdle && (!j.srcDev || !j.dstDev || list) then
      s.dmaFinish n (if c.job.isSome then j else { j with pieces := [] }) 12
    else s) s

/-- R308, R337, R367: the link did not return within `CX_LINK_DOWN_US`. -/
def execCxlLinkDown (t : Nat) (progress : List DmaProgress) (s : State) : Result :=
  let s := s.at t
  match s.cxl.recovery with
  | none => .next s
  | some r =>
    if s.now < r + 1000 * s.rdN Obj.CX_LINK_DOWN_US then .next s
    else .next (progress.foldl (fun s p => s.dmaProgress p) s).linkLost.dmaLinkDown

/-- R368: an IDE integrity check failed: the link goes down. -/
def execIdeCheckFail (t : Nat) (s : State) : Result :=
  let s := s.at t
  if s.cxl.linkUp then .next ((s.count Obj.CX_IDE_ERRORS 0 0 1).linkLost.dmaLinkDown) else .next s

/-! ## Engines at work (R324) -/

/-- R320 to R324: an engine has compressed its block: it is written in its turn, and the engine takes another. -/
def execCzBlockDone (t : Nat) (channel : Fin 32) (engine : Fin 4) (data : List Byte) (sourceError : Option ReadFault)
    (verifyFail : Bool) (s : State) : Result :=
  let s := s.at t
  let n := channel.val
  match (s.dma n).job, s.cxl.engines.find? (fun e => e.1 == engine.val && e.2.1 == n) with
  | some j, some e =>
    let first := e.2.2 * j.blockBytes
    let u := min j.blockBytes (j.total - first)
    let src := s.dmaRead j.srcDev (pieceSlice j.pieces first u) (data.take u)
    let slice := pieceSlice j.pieces first u
    let bad := sourceError.isSome || (j.srcDev && slice.any (fun p => s.unreadable p.1 p.2.2))
    if src.length ≠ u && !bad then .next s
    else
      let x : CzBlock := { index := e.2.2, engine := engine, src := src, sourceError := bad, verifyFail := verifyFail }
      let s := if bad then s.dmaMeet { j with pieces := slice } sourceError else s
      let s := s.dmaAsk j.srcDev slice
      let s := s.setEngines (s.cxl.engines.filter (fun y => y.1 != engine.val))
      let s := s.setDma n { s.dma n with job := some { j with early := j.early ++ [x] } }
      .next (s.czFlush (j.early.length + 1) n).feedEngines
  | _, _ => .next s

/-! ## The CXL island's reset (R374, R391, R576) -/

/-- R374, R391, R467, R576: the CXL island is in reset: the link is down, no interrupt is on its way to it, channels are aborted, MB_STATUS will read link reset. Its
MSI-X table, CAUSE, mailbox registers and held doorbell halves are cleared with it (log entry 36). -/
def State.cxlReset (s : State) : State :=
  let s := if s.cxl.linkUp || s.cxl.recovery.isSome then s.linkLost else s
  let s := s.dmaReset
  { s with
    cxl := { s.cxl with
      cause := 0, unmasked := [], msixTable := [], pendingVec := []
      mb := { request := s.cxl.mb.request, state := 4 } }
    lg := { s.lg with recLow := none, outLow := none }
    lattice := { s.lattice with
      activations := s.lattice.activations.filter (fun (a : Activation) => a.task < 32 || decide (48 ≤ a.task)) } }

/-- R576: CXL_PERST_N holds the island in reset while it is low. -/
def execCxlPerst (t : Nat) (high : Bool) (s : State) : Result :=
  let s := s.at t
  if high then .next ((({ s with cxl := { s.cxl with perst := true } }).putN Obj.ISLAND_STATE 0 islandCxl 1))
  else .next (({ s with cxl := { s.cxl with perst := false } }.putN Obj.ISLAND_STATE 0 islandCxl 2).cxlReset)

end Sys2Proof.Machine
end

