-- ==== Sys2Proof/Machine/Bar.lean ====
section
/-! DEFINITION. What the registers of BAR0 read as (spec/12_cxl_host_and_dma.md, R369, R371, R390, R394). No command of the
table reads them, so no command emits what stands here: it says how State shows in BAR0. -/

namespace Sys2Proof.Machine

open Sys2Proof

/-- R394: the STATUS register of DMA channel `n`. -/
def State.dmaStatus (s : State) (n : Nat) : Nat :=
  let c := s.dma n
  boolNat (c.state != dsIdle) + 2 * boolNat c.done + 4 * boolNat c.half + 8 * boolNat (c.code != 0) + 65536 * c.state +
    16777216 * c.code

/-- R390: the word at an offset of the block of channel `n`; COMMIT is write-only. -/
def State.dmaWord (s : State) (n off : Nat) : Option Nat :=
  let c := s.dma n
  if off < 0x40 then some (leAt c.shadow off 4)
  else match off with
    | 0x40 => none
    | 0x44 => some (s.dmaStatus n)
    | 0x48 => some c.genCommitted
    | 0x4c => some c.genTaken
    | 0x50 => some (c.bytesDone % 2 ^ 32)
    | 0x54 => some (c.bytesDone / 2 ^ 32)
    | 0x58 => some c.blocksDone
    | _ => some 0

/-- R371: `MB_STATUS`. -/
def State.mbStatus (s : State) : Nat := 65536 * s.cxl.mb.tag + 256 * s.cxl.mb.result + s.cxl.mb.state

/-- R371: the registers from MB_CMD to MB_GO. -/
def State.mbWord (s : State) (off : Nat) : Nat :=
  let m := s.cxl.mb
  match off with
  | 0 => m.cmd
  | 4 => m.object
  | 8 => m.offset
  | 12 => m.length
  | 16 => m.flags
  | _ => 0

/-- R369: the entry of vector `v` in the MSI-X table as its standard lays it out: address, upper address, data, mask. -/
def State.msixWord (s : State) (v off : Nat) : Nat :=
  let e := look s.cxl.msixTable (0, 0) v
  match off with
  | 0 => e.1 % 2 ^ 32
  | 4 => e.1 / 2 ^ 32
  | 8 => e.2
  | _ => boolNat (!s.cxl.unmasked.contains v)

/-- R379: the pending bits of the MSI-X vectors. -/
def State.pendingBits (s : State) : Nat :=
  (List.range 64).foldl (fun a v => if s.cxl.pendingVec.contains v then a + 2 ^ v else a) 0

/-- R369: the 32-bit word that a read of BAR0 returns at an offset that is a multiple of four: none for the write-only doorbells
and COMMIT, and for the CXL component registers, which CXL 3.1 defines; zero where nothing is listed, and for MB_GO. -/
def State.bar0 (s : State) (off : Nat) : Option Nat :=
  if off = 0 then some 0x1213b001
  else if off = 4 then some s.mode
  else if off = 8 then some (s.cxl.cause % 2 ^ 32)
  else if off = 0xc then some (s.cxl.cause / 2 ^ 32)
  else if 0x1000 ≤ off && off < 0x1010 then none
  else if off = 0x2018 then some s.mbStatus
  else if 0x2000 ≤ off && off < 0x2018 then some (s.mbWord (off - 0x2000))
  else if 0x3000 ≤ off && off < 0x4000 then some (leAt s.cxl.mb.data (off - 0x3000) 4)
  else if 0x10000 ≤ off && off < 0x12000 then s.dmaWord ((off - 0x10000) / 256) (off % 256)
  else if 0x20000 ≤ off && off < 0x20400 then some (s.msixWord ((off - 0x20000) / 16) (off % 16))
  else if off = 0x21000 then some (s.pendingBits % 2 ^ 32)
  else if off = 0x21004 then some (s.pendingBits / 2 ^ 32)
  else if 0x80000 ≤ off && off < 0x90000 then none
  else some 0

end Sys2Proof.Machine
end

