-- ==== Sys2Proof/Machine/Dram.lean ====
section
/-! DEFINITION. On-package DRAM: refresh, scrub, calibration and channel faults (spec/13_dram.md, R395 to R411). -/

namespace Sys2Proof.Machine

open Sys2Proof

/-! ## Refresh (R401 to R403) -/

/-- R401, R403: an idle bank takes the refresh it owes, and else the oldest neighbour refresh queued for it. -/
def DramChannel.idle (d : DramChannel) (bank : Nat) : DramChannel × Nat :=
  if d.owed.contains bank then ({ d with owed := d.owed.erase bank }, 0)
  else
    match d.near.find? (fun x => x.1 == bank) with
    | some x => ({ d with near := d.near.erase x }, 1)
    | none => (d, 0)

/-- R403: an activate draws from the LFSR, and may queue its row; with 16 entries queued the oldest is issued at once. -/
def DramChannel.activate (d : DramChannel) (k bank row : Nat) : DramChannel × Nat :=
  let d := { d with lfsr := Config.lfsrStep d.lfsr % 2 ^ 32 }
  if !Config.rowDraw d.lfsr k then (d, 0)
  else if d.near.length < 16 then ({ d with near := d.near ++ [(bank, row)] }, 0)
  else ({ d with near := d.near.drop 1 ++ [(bank, row)] }, 1)

/-- R401, R403: what happened on a channel's banks, in order, and the neighbour refreshes issued. -/
def DramChannel.run (d : DramChannel) (k : Nat) (events : List BankEvent) : DramChannel × Nat :=
  events.foldl (fun (a : DramChannel × Nat) e =>
    let r := match e with
      | .idle b => a.1.idle b
      | .activate b row => a.1.activate k b row
    (r.1, a.2 + r.2)) (d, 0)

/-- R401, R402: a refresh falls due: the bank whose turn it is owes it. With eight owed the oldest is forced, into the first bank
from the rotation on that the burst does not use (log entry 276), from where the rotation goes on, or, where the burst covers every
bank, into its own; seven stay owed then (log entry 39). -/
def DramChannel.owe (d : DramChannel) (burst : List Nat) : DramChannel :=
  if d.owed.length < 8 then { d with owed := d.owed ++ [d.bank], bank := (d.bank + 1) % 16 }
  else
    let d := { d with owed := d.owed.drop 1 }
    match ((List.range 16).map (fun i => (d.bank + i) % 16)).find? (fun b => !burst.contains b) with
    | some b => { d with bank := (b + 1) % 16 }
    | none => d

/-- R401 to R403: a refresh falls due, every 488 ns, or 244 ns above 85 °C, after what happened on the channel's banks since the
last one; a running burst uses the banks `burst`. -/
def execRefreshDue (t : Nat) (channel : Fin 8) (events : List BankEvent) (running : Bool) (burst : List (Fin 16)) (hot : Bool)
    (s : State) : Result :=
  let s := s.at t
  let c := channel.val
  if s.rdN Obj.DR_CH_STATE 0 c ≠ drReady || decide (s.now < (s.dramCh c).due) then .next s
  else
    let d := s.dramCh c
    let run := d.run (s.rdN Obj.DR_RH_K) events
    let forced := decide (8 ≤ run.1.owed.length)
    let banks := if running then burst.map (fun b => b.val) else []
    let d' := { run.1.owe banks with hot := hot, due := (if d.due = 0 then s.now else d.due) + (if hot then 244 else 488) }
    let s := (s.setDram c d').count Obj.DR_NEIGHBOUR_REFRESH 0 c run.2
    let s := s.putN Obj.DR_DEBT_MAX_SEEN 0 c (max (s.rdN Obj.DR_DEBT_MAX_SEEN 0 c) (if forced then 8 else d'.owed.length))
    let s := if forced then s.count Obj.DR_REFRESH_FORCED 0 c 1 else s
    let s := if forced && (List.range 16).all (fun b => banks.contains b) then s.count Obj.DR_BURST_SPLITS 0 c 1 else s
    .next (s.setBit Obj.DR_STATUS 0 0 dsHot ((List.range 8).any (fun k => (s.dramCh k).hot)))

/-! ## Channel faults (R406, R407) -/

/-- R406: a channel is detected as faulty: a ledger copy on it reads uncorrectable, or its retraining fails. -/
def execDrChannelFault (t : Nat) (loss : ChannelLoss) (s : State) : Result :=
  let s := s.at t
  let s := match loss.ledger with
    | some o => s.dramError { site := .own loss.channel o, uncorrectable := true }
    | none => s
  .next (s.channelFault loss.channel)

/-- R406: the rebuild of the atlas images is complete. -/
def execDramRemapDone (t : Nat) (s : State) : Result :=
  let s := s.at t
  if s.bit Obj.DR_STATUS 0 0 dsRemapping then
    .next ((s.imagesRebuilt.setBit Obj.DR_STATUS 0 0 dsRemapping false).setBit Obj.DR_STATUS 0 0 dsRemapped true)
  else .next s

/-- R407: entry to PREOP: with every channel retrained the eight-channel map is in use again. -/
def State.dramPreop (s : State) : State :=
  let ready := (List.range 8).all (fun c => s.rdN Obj.DR_CH_STATE 0 c != drFaulty || (s.dramCh c).retrained)
  if s.rdN Obj.DR_CAPACITY = capacity8 || !ready then s
  else
    let s := (List.range 8).foldl (fun s c =>
      if (s.dramCh c).retrained then
        let s := (s.putN Obj.DR_CH_STATE 0 c drReady).setDram c {}
        { s with cont := { s.cont with returning := s.cont.returning ++ [c] } }
      else s) s
    let s := (s.putN Obj.DR_CAPACITY 0 0 capacity8).setBit Obj.DR_STATUS 0 0 dsRemapped false
    (s.setBit Obj.DR_STATUS 0 0 dsRemapping false).interleavedLost.imagesRebuilt.dramPublish

/-! ## Errors, scrub and calibration (R399, R400, R408) -/

/-- R399, R400: a scrub pass completes, with the errors it met, or has not completed in its period; the next one begins a period
after it began, or at once after a late one. -/
def execDramScrubPass (t : Nat) (late : Bool) (errors : List DramError) (s : State) : Result :=
  let s := s.at t
  let due := s.scrubFrom + 1000000000 * s.rdN Obj.DR_SCRUB_PERIOD_S
  if s.now < (if late then due else s.scrubFrom) then .next s
  else
    let s := s.dramErrors errors
    let s := s.setBit Obj.DR_STATUS 0 0 dsScrubLate late
    .next (if late then s else { s.count Obj.DR_SCRUB_PASSES 0 0 1 with scrubFrom := max s.now due })

/-- R406: a request has waited 10 µs. -/
def execDramRequestTimeout (t : Nat) (error : DramError) (s : State) : Result :=
  let s := s.at t
  let c := (s.sitePlace error.site).1
  .next (((s.count Obj.DR_TIMEOUTS 0 c 1).dramLast error.site 2).channelFault c)

/-- R407, R408: the periodic calibration of a channel, every 64 ms: no update, an update, or a drift beyond its range. A faulty channel
has its full retrain in PREOP. -/
def execDramCalibrate (t : Nat) (channel : Fin 8) (drift : Fin 3) (s : State) : Result :=
  let s := s.at t
  let c := channel.val
  let st := s.rdN Obj.DR_CH_STATE 0 c
  if st = drFaulty then
    .next (if s.mode = stPreop && drift.val < 2 then s.setDram c { s.dramCh c with retrained := true } else s)
  else if st ≠ drReady || decide (s.now < (s.dramCh c).calDue) then .next s
  else
    let s := s.setDram c { s.dramCh c with calDue := s.now + 64000000 }
    match drift.val with
    | 0 => .next s
    | 1 => .next ((s.count Obj.DR_RETRAINS 0 c 1).count Obj.ALM_RETRAINS 0 c 1)
    | _ => .next (s.channelFault c)

/-- R410: at ARMED entry the largest debts are measured anew. -/
def State.dramArm (s : State) : State := s.putList Obj.DR_DEBT_MAX_SEEN 0 (List.replicate 8 0)

end Sys2Proof.Machine
end

