-- ==== Sys2Proof/Machine/Meridian.lean ====
section
/-! DEFINITION. The Meridian ports and distributed time (spec/14_meridian_chain_and_dictionary.md, R412 to R433). The datagrams
that reach the dictionary stand in Chain.lean. -/

namespace Sys2Proof.Machine

open Sys2Proof

/-- R450: bits of MER_PORT_STATUS. -/
def mpWatchdog : Nat := 0
/-- R450: link of port 0 (MER_A) and 1 (MER_B) at bits 1 and 2. -/
def mpLink (port : Nat) : Nat := 1 + port
/-- R450: medium of a port at bits 3 and 4. -/
def mpFibre (port : Nat) : Nat := 3 + port
/-- R450. -/
def mpSplit : Nat := 5
/-- R450. -/
def mpMixed : Nat := 6
/-- R450. -/
def mpCyclic : Nat := 7

/-- The number of the MER island (R329). -/
def islandMer : Nat := 37

/-- R413: a port has link. -/
def State.merLink (s : State) (port : Nat) : Bool := s.bit Obj.MER_PORT_STATUS 0 0 (mpLink port)

/-- R426: this unit is the time reference. -/
def State.timeReference (s : State) : Bool := s.flag Obj.MER_TIME_REFERENCE

/-- R60: bits of TIME_STATUS. -/
def tsLock : Nat := 0
/-- R60. -/
def tsAligned : Nat := 1
/-- R60. -/
def tsReference : Nat := 2

/-! ## Links (R412, R424, R429) -/

/-- R429: SPLIT clears once every expected port has link. -/
def State.merExpected (s : State) : Bool :=
  [0, 1].all (fun p => !(s.rdN Obj.MER_PORT_EXPECTED).testBit p || s.merLink p)

/-- R412: linked ports of different media, and the delay of both directions. -/
def State.merMedium (s : State) : State :=
  let f := fun p => s.bit Obj.MER_PORT_STATUS 0 0 (mpFibre p)
  let mixed := s.merLink 0 && s.merLink 1 && f 0 != f 1
  let s := if mixed && !s.bit Obj.MER_PORT_STATUS 0 0 mpMixed then s.raise .MER_MEDIUM_MIXED (Obj.MER_PORT_STATUS.ident) else s
  (s.setBit Obj.MER_PORT_STATUS 0 0 mpMixed mixed).putN Obj.MER_FWD_DELAY_NS 0 0 (if f 0 && f 1 then 232 else 600)

/-- R337, R424, R429: a port loses link. -/
def execMerLinkLoss (t : Nat) (port : Fin 2) (s : State) : Result :=
  let s := s.at t
  if !s.merLink port then .next s
  else
    let s := (s.setBit Obj.MER_PORT_STATUS 0 0 (mpLink port) false).count Obj.MER_LINK_LOSS 0 port 1
    let s := s.partFault 4 port
    let split := (s.rdN Obj.MER_PORT_EXPECTED).testBit port && decide (stInit ≤ s.mode)
    .next (if split then (s.setBit Obj.MER_PORT_STATUS 0 0 mpSplit true).raise .CHAIN_SPLIT (Obj.MER_PORT_STATUS.ident)
      else s).merMedium

/-- R412: at power-on each port chooses 1000BASE-X where its cage holds a module, and 100BASE-TX otherwise. -/
def State.merPowerOn (s : State) (cages : List Nat) : State :=
  [0, 1].foldl (fun (s : State) p =>
    if (look s.mer.media none p).isSome then s
    else { s with mer := { s.mer with media := store s.mer.media none p (some (cages.contains p)) } }.setBit
      Obj.MER_PORT_STATUS 0 0 (mpFibre p) (cages.contains p)) s

/-- R412, R429: a port has link, on the medium it chose at power-on, which its first link tells where start-up has not. -/
def execMerLinkUp (t : Nat) (port : Fin 2) (fibre : Bool) (s : State) : Result :=
  let s := s.at t
  if s.merLink port then .next s
  else
    let fibre := (look s.mer.media none port).getD fibre
    let s := { s with mer := { s.mer with media := store s.mer.media none port (some fibre) } }
    let s := (s.setBit Obj.MER_PORT_STATUS 0 0 (mpLink port) true).setBit Obj.MER_PORT_STATUS 0 0 (mpFibre port) fibre
    let s := s.partBack 4 port
    .next (if s.merExpected then s.setBit Obj.MER_PORT_STATUS 0 0 mpSplit false else s).merMedium

/-! ## Frames and receipts (R413 to R420) -/

/-- R413: where a frame leaves that entered at a port: the other port, or its own where the other has no link. -/
def State.merExit (s : State) (port : Nat) : Nat := if s.merLink (1 - port) then 1 - port else port

/-- R413: a frame crosses the processing path: it entered at MER_A, or turned at a MER_A without link. -/
def State.merProcessed (s : State) (port : Nat) : Bool := port == 0 || !s.merLink 0

/-- R415: the unit serves frames: its MER island runs and start-up has come to INIT. -/
def State.merServes (s : State) : Bool := s.islandRuns islandMer && decide (stInit ≤ s.mode)

/-- R418: the receipt of a unit that carried out its part, or refused some of it. -/
def State.receipt (s : State) (d : Datagram) (ok : Bool) : Datagram :=
  if ok then { d with served := min 255 (d.served + 1) }
  else { d with refused := min 255 (d.refused + 1), first := if d.first = 0 then s.rdN Obj.MER_STATION else d.first }

/-- R430: the bytes of a mapped element. -/
def mapBytes (w : Nat) : Nat := match objAt (w / 256) with | none => 0 | some (o, _, e) => o.size e

/-- R430: the entries of a mapping in use. -/
def State.mapping (s : State) (o : ObjRow) : List Nat := ((s.rdList o 0 32).map Int.toNat).takeWhile (fun w => w != 0)

/-- R430: the base and the length of a window. -/
def State.mapWindow (s : State) (o base : ObjRow) : Nat × Nat := (s.rdN base, sumNat ((s.mapping o).map mapBytes))

/-- R418, R422, R423: the unit is addressed. Station 0 means unassigned. -/
def State.addressed (s : State) (d : Datagram) : Bool :=
  match d.scope.val with
  | 0 => d.hops == d.select
  | 1 => d.select != 0 &&
      (s.rdN Obj.MER_STATION == d.select || (s.flag Obj.MER_ALIAS_ENABLE && s.rdN Obj.MER_ALIAS == d.select))
  | 2 => true
  | _ => [s.mapWindow Obj.MAP_OUT Obj.MAP_OUT_BASE, s.mapWindow Obj.MAP_IN Obj.MAP_IN_BASE].any
      (rangesMeet (d.address, d.data.length))

/-! ## Distributed time (R425, R426) -/

/-- R39, R426, R453: ALIGNED changes. A unit that TIME_UNLOCK put into HOLD returns to RUN when no cause is left. -/
def State.setAligned (s : State) (v : Bool) : State :=
  let v := v || s.timeReference
  let s := (s.setBit Obj.TIME_STATUS 0 0 tsAligned v).setLevel 111 v
  if v && s.tim.unlocked && !s.tim.oscillator then
    let s := { s with tim := { s.tim with unlocked := false } }.setLevel 110 false
    if s.mode = stHold && s.holdBy = 2 && !s.holdCause then s.enterRun else s
  else s

/-- R426: the trim a correction by rate sets; with no SPREAD before, dt is not defined and the proportional part is free (log
entry 41). -/
def State.rateTrim (s : State) (integ e : Int) : State :=
  match s.mer.spread with
  | some t0 =>
    let dt := s.now - t0
    if dt = 0 then (s.put Obj.TIME_RATE_TRIM 0 0 (clampInt (-100000) 100000 ((s.free : Int) - 100000))).drawn
    else s.put Obj.TIME_RATE_TRIM 0 0 (clampInt (-100000) 100000 (integ - Int.tdiv (e * 250000000) dt))
  | none => (s.put Obj.TIME_RATE_TRIM 0 0 (clampInt (-100000) 100000 ((s.free : Int) - 100000))).drawn

/-- R23, R426: the unit corrects itself by the error e: by a step forward, or a count that holds until the reference has
caught up, before the first ARMED entry; and else by rate. -/
def State.correct (s : State) (e : Int) : State :=
  if !s.tim.armedSinceReset && decide (1000 < absNat e) then
    let s := { s with mer := { s.mer with integ := 0 } }
    if e < 0 then { s with now := s.now + absNat e } else s
  else
    let integ := clampInt (-100000) 100000 (s.mer.integ - e * 64)
    { s.rateTrim integ e with mer := { s.mer with integ := integ } }

/-- R426: the runs of SPREADs within and beyond 20 ns, and ALIGNED. -/
def State.alignRun (s : State) (e : Int) : State :=
  let good := decide (absNat e ≤ 20)
  let g := if good then s.mer.goodRun + 1 else 0
  let b := if good then 0 else s.mer.badRun + 1
  let s := { s with mer := { s.mer with goodRun := g, badRun := b } }
  if 8 ≤ g then s.setAligned true else if 2 ≤ b then s.setAligned false else s

/-- R426: no SPREAD within MER_TIME_TIMEOUT_MS. -/
def execMerTimeTimeout (t : Nat) (s : State) : Result :=
  let s := s.at t
  let last := s.mer.spread.getD 0
  if s.timeReference || s.now < last + s.rdN Obj.MER_TIME_TIMEOUT_MS * 1000000 then .next s
  else .next ({ s with mer := { s.mer with goodRun := 0 } }.setAligned false)

/-- R433: no valid cyclic output write within MER_WATCHDOG_US. -/
def execMerWatchdog (t : Nat) (s : State) : Result :=
  let s := s.at t
  let w := s.rdN Obj.MER_WATCHDOG_US
  if w = 0 || s.mode ≠ stRun || s.now < s.mer.cyclic + w * 1000 then .next s
  else .next (((s.setBit Obj.MER_PORT_STATUS 0 0 mpWatchdog true).raise .MER_WATCHDOG (Obj.MER_PORT_STATUS.ident)).enterHold 3)

end Sys2Proof.Machine
end

