-- ==== Sys2Proof/Machine/Monitors.lean ====
section
/-! DEFINITION. Analogue monitor inputs and their filters (spec/16_monitor_inputs.md, R482 to R500). -/

namespace Sys2Proof.Machine

open Sys2Proof

/-- Monitor channel `n`. -/
def State.amCh (s : State) (n : Nat) : AmChannel := look s.am {} n

/-- Monitor channel `n` becomes `v`. -/
def State.setAm (s : State) (n : Nat) (v : AmChannel) : State := { s with am := store s.am {} n v }

/-- R500: bits of AM_STATUS. -/
def amEnabled : Nat := 0
/-- R500. -/
def amSettled : Nat := 1
/-- R500. -/
def amOverLow : Nat := 2
/-- R500. -/
def amOverHigh : Nat := 3
/-- R500. -/
def amFrozen : Nat := 4
/-- R500. -/
def amForced : Nat := 5
/-- R500. -/
def amSource : Nat := 6
/-- R500. -/
def amPressLow : Nat := 7

/-- Bit `i` of channel `n`'s status. -/
def State.amBit (s : State) (n i : Nat) : Bool := s.bit Obj.AM_STATUS 0 n i

/-! ## Rank filter, decimator and FIR (R484 to R487) -/

/-- R484: the median of codes. -/
def median (l : List Nat) : Nat := (sortBy (fun a b => decide (a ≤ b)) l).getD (l.length / 2) 0

/-- R485: a value modulo 2⁵⁶, as a signed number. -/
def wrap56 (v : Int) : Int :=
  let m := v % (2 ^ 56)
  if m < 2 ^ 55 then m else m - 2 ^ 56

/-- R485: one modulator sample through the integrators: stage 0 takes m, each later one the stage before it as it now is. -/
def integrate (l : List Int) (m : Int) : List Int :=
  match l with
  | [] => []
  | x :: r =>
    let y := wrap56 (x + m)
    y :: integrate r y

/-- R485: the combs: what they hold and what leaves the last. -/
def comb (l : List Int) (x : Int) : List Int × Int :=
  match l with
  | [] => ([], x)
  | c :: r =>
    let p := comb r (wrap56 (x - c))
    (x :: p.1, p.2)

/-- R485: the output in 2⁻²⁰ modulator unit. -/
def cicScale (n k : Nat) (x : Int) : Int :=
  if 20 < n * k then (x + 2 ^ (n * k - 21)) / 2 ^ (n * k - 20) else x * 2 ^ (20 - n * k)

/-- R484, R485: one code through the rank filter and the integrators. -/
def amCode (w : Nat) (c : AmChannel) (code : Nat) : AmChannel :=
  let codes := (code :: c.codes).take w
  { c with codes := codes, integ := integrate c.integ (2 * (median codes : Int) - 7) }

/-- A value limited to 32 bits. -/
def sat32 (v : Int) : Int := clampInt (-2147483648) 2147483647 v

/-- R486: the FIR. -/
def firOut (h x : List Int) : Int := sat32 ((sumInt (List.zipWith (fun a b => a * b) (h.take 63) x) + 2 ^ 19) / 2 ^ 20)

/-- R486: a free coefficient of a built-in set. A filter of unity DC gain whose response stays within 0.05 dB of the inverse of the
CIC droop has no tap of 2²¹ or more, so the limits shut no such set out (log entry 42). -/
def firTap (mode n k i : Nat) : Int := clampInt (-2097152) 2097152 (Config.firTap mode n k i)

/-- R486: a built-in set of 63 taps: any set of unity DC gain; the linear phase of mode 1 mirrors it about its centre, which completes
the gain, and in mode 2 the last tap completes it (log entry 42). -/
def firSet (mode n k : Nat) : List Int :=
  if mode = 1 then
    let half := (List.range 31).map (firTap mode n k)
    half ++ (1048576 - 2 * sumInt half) :: half.reverse
  else
    let taps := (List.range 62).map (firTap mode n k)
    taps ++ [1048576 - sumInt taps]

/-- R486: the coefficients of a channel; none in bypass. -/
def State.amSet (s : State) (n : Nat) : Option (List Int) :=
  match s.rdN Obj.AM_FIR_MODE 0 n with
  | 0 => none
  | 3 => some (s.rdList Obj.AM_FIR_USER n 63)
  | m => some (firSet m (s.rdN Obj.AM_CIC_ORDER 0 n) (s.rdN Obj.AM_CIC_LOG2R 0 n))

/-- R487: AM_DELAY_NS of a channel: the delays in twentieths of a modulator sample of 48.828125 ns, rounded up. -/
def State.amDelay (s : State) (n : Nat) : Nat :=
  let r := 2 ^ s.rdN Obj.AM_CIC_LOG2R 0 n
  let fir := match s.rdN Obj.AM_FIR_MODE 0 n with
    | 0 => 0
    | 2 => 38 * r
    | _ => 620 * r
  let d := 10 * (s.rdN Obj.AM_RANK 0 n - 1) + 10 * s.rdN Obj.AM_CIC_ORDER 0 n * (r - 1) + fir
  (d * 3125 + 1279) / 1280

/-- R485: the output rate. -/
def State.amRate (s : State) (n : Nat) : Nat := 20480000 / 2 ^ s.rdN Obj.AM_CIC_LOG2R 0 n

/-- A result that an I32 object shows: one beyond its range is a free value (log entry 43). -/
def State.i32 (s : State) (v : Int) : State × Int :=
  if decide (-2147483648 ≤ v) && decide (v ≤ 2147483647) then (s, v) else (s.drawn, signedOf 4 s.free)

/-- R489: a sum that is taken as a U64: the spec does not say what a sum of squares beyond it leaves (log entry 278). -/
def State.u64 (s : State) (v : Nat) : State × Nat :=
  if decide (v < 2 ^ 64) then (s, v) else (s.drawn, s.free % 2 ^ 64)

/-! ## The pressure comparator (R492, R494) -/

/-- R492: channel `n` feeds the comparator. -/
def State.amPress (s : State) (n : Nat) : Bool := s.rdN Obj.EJ_ILK_PRESS_SOURCE == n

/-- R494: what the comparator reports of channel `n`, and its crossing into the gate. -/
def State.amReport (s : State) (n : Nat) : State :=
  if !s.amPress n then s
  else
    let low := (s.amCh n).low || !s.amBit n amSettled || s.amBit n amOverLow || s.amBit n amOverHigh || s.mode == stSave
    let s := s.setBit Obj.AM_STATUS 0 n amPressLow low
    if low then s.ilkOpens 3 else s.ilkCloses 3

/-- R492: the comparator settings as they now stand. -/
def State.pressNow (s : State) : Pressure :=
  { low := s.rd Obj.AM_PRESS_LOW, hyst := s.rd Obj.AM_PRESS_HYST, count := s.rdN Obj.AM_PRESS_COUNT }

/-- R492: an output sample of channel `n` ends: a setting written in it applies from the next value. -/
def State.pressTake (s : State) (n : Nat) : State := s.setAm n { s.amCh n with press := s.pressNow }

/-- R492: a value of the comparator's channel: it meets the settings that stood when its output sample began. -/
def State.amCompare (s : State) (n : Nat) (v : Int) : State :=
  if !s.amPress n then s
  else
    let c := s.amCh n
    let lo := if v < c.press.low then c.lowRun + 1 else 0
    let hi := if c.press.low + c.press.hyst ≤ v then c.highRun + 1 else 0
    let k := c.press.count
    (s.setAm n { c with lowRun := lo, highRun := hi, low := if c.low then !decide (k ≤ hi) else decide (k ≤ lo) }).amReport n

/-! ## Detectors, statistics and the DC block (R488 to R491) -/

/-- R488: envelope and peak holds. -/
def State.amDetect (s : State) (n : Nat) (v : Int) : State :=
  let p := s.i32 (absNat v)
  let s := p.1
  let e := s.rd Obj.AM_ENV 0 n
  let s := s.put Obj.AM_ENV 0 n (if e < p.2 then p.2 else e - e / 2 ^ s.rdN Obj.AM_ENV_RELEASE_SHIFT 0 n)
  let s := s.put Obj.AM_PEAK_HOLD_MAX 0 n (max (s.rd Obj.AM_PEAK_HOLD_MAX 0 n) v)
  s.put Obj.AM_PEAK_HOLD_MIN 0 n (min (s.rd Obj.AM_PEAK_HOLD_MIN 0 n) v)

/-- R489: a block completes: its four results and its index. -/
def State.amPublish (s : State) (n : Nat) (c : AmChannel) : State :=
  let hi := s.i32 c.hi
  let lo := hi.1.i32 c.lo
  let mean := lo.1.i32 (rnd c.sum c.block)
  let sq := mean.1.u64 c.squares
  let s := ((sq.1.put Obj.AM_BLK_MAX 0 n hi.2).put Obj.AM_BLK_MIN 0 n lo.2).put Obj.AM_BLK_MEAN 0 n mean.2
  let s := s.putN Obj.AM_BLK_RMS 0 n (isqrt (rnd sq.2 c.block).toNat)
  s.putN Obj.AM_BLK_INDEX 0 n (s.rdN Obj.AM_BLK_INDEX 0 n + 1)

/-- R489: a value enters the block. -/
def State.amBlock (s : State) (n : Nat) (v : Int) : State :=
  let c := s.amCh n
  let b := if c.count = 0 then s.rdN Obj.AM_BLOCK_SAMPLES 0 n else c.block
  let c := { c with
    block := b, count := c.count + 1, sum := c.sum + v, squares := c.squares + absNat v * absNat v
    hi := if c.count = 0 then v else max c.hi v, lo := if c.count = 0 then v else min c.lo v }
  if c.count < b then s.setAm n c
  else (s.setAm n { c with count := 0, sum := 0, squares := 0 }).amPublish n c

/-- R491: a valve edge that freezes the value whose input time is `t`: one that was executed, or one that is planned. -/
def State.amFrozenAt (s : State) (t : Int) : Bool :=
  let links := s.rdN Obj.AM_FREEZE_LINKS
  let hits := fun (e : Int) => decide (e - 20000 ≤ t) && decide (t ≤ e + s.rd Obj.AM_FREEZE_US * 1000)
  s.bank.edges.any (fun e => links.testBit e.1 && hits e.2) ||
    s.bank.pulses.any (fun p => links.testBit (p.valve / 64) && p.timed &&
      ((p.onEdge != .lost && hits p.on) || (p.offEdge != .lost && hits p.off)))

/-- R490, R491: a value of a vibration channel. -/
def State.amDcBlock (s : State) (n : Nat) (v : Int) : State × Int :=
  let c := s.amCh n
  let frozen := s.amFrozenAt ((s.now : Int) - s.amDelay n)
  let forced := frozen && s.amBit n amForced
  let k := s.rdN Obj.AM_DC_SHIFT 0 (n - 8)
  let d := if !frozen then c.dc + (v * 65536 - c.dc) / 2 ^ k
    else if forced then c.dc + (v * 65536 - c.dc) / 2 ^ (k + 4) else c.dc
  let s := s.setAm n { c with dc := d, frozen := if frozen then (c.frozen.orElse (fun _ => some s.now)) else none }
  let s := (s.setBit Obj.AM_STATUS 0 n amFrozen frozen).setBit Obj.AM_STATUS 0 n amForced forced
  let est := (d + 32768) / 65536
  let q := s.i32 est
  (q.1.put Obj.AM_DC 0 (n - 8) q.2, v - est)

/-- R483, R487 to R492: a settled channel's new value. -/
def State.amValue (s : State) (n : Nat) (raw : Int) : State :=
  let q := s.i32 (s.rd Obj.AM_OFFSET 0 n + (raw * s.rd Obj.AM_SCALE 0 n + 2 ^ 35) / 2 ^ 36)
  let v := q.2
  let s := q.1.put Obj.AM_VALUE 0 n v
  if n < 8 then ((s.amDetect n v).amCompare n v).amBlock n v
  else
    let r := s.amDcBlock n v
    r.1.amBlock n r.2

/-- R484 to R486, R496: the codes of one output period through the filters: the decimated and filtered value. -/
def State.amFilter (s : State) (n : Nat) (codes : List Nat) : State × Int :=
  let order := s.rdN Obj.AM_CIC_ORDER 0 n
  let c := s.amCh n
  let c := if c.integ.isEmpty then { c with integ := List.replicate order 0, comb := List.replicate order 0 } else c
  let c := codes.foldl (amCode (s.rdN Obj.AM_RANK 0 n)) c
  let q := comb c.comb (c.integ.getLastD 0)
  let x := cicScale order (s.rdN Obj.AM_CIC_LOG2R 0 n) q.2
  let fir := (x :: c.fir).take 63
  let y := match s.amSet n with
    | none => x
    | some h => firOut h fir
  (s.setAm n { c with comb := q.1, fir := fir }, y)

/-- R485 to R496: the codes of one output period. A channel that has not settled discards its value. -/
def execAmOutputSample (t : Nat) (channel : Fin 16) (codes : List Nat) (s : State) : Result :=
  let s := s.at t
  let n := channel.val
  if !s.amBit n amEnabled || codes.length ≠ 2 ^ s.rdN Obj.AM_CIC_LOG2R 0 n || s.mode = stSave then .next s
  else
    let q := s.amFilter n codes
    let s := q.1.put Obj.AM_RAW 0 n q.2
    if s.amBit n amSettled then .next ((s.amValue n q.2).pressTake n)
    else .next ((s.setAm n { s.amCh n with dropped := (s.amCh n).dropped + 1 }).pressTake n)

/-- R496: the first N + 63 values are discarded. -/
def execAmSettled (t : Nat) (channel : Fin 16) (s : State) : Result :=
  let s := s.at t
  let n := channel.val
  if !s.amBit n amEnabled || (s.amCh n).dropped < s.rdN Obj.AM_CIC_ORDER 0 n + 63 then .next s
  else .next ((s.setBit Obj.AM_STATUS 0 n amSettled true).amReport n)

/-- R497: 64 codes of full scale in a row. -/
def execAmOverload (t : Nat) (channel : Fin 16) (high : Bool) (s : State) : Result :=
  let s := s.at t
  let n := channel.val
  let b := if high then amOverHigh else amOverLow
  if !s.amBit n amEnabled then .next s
  else
    let now := s.now
    let s := s.setAm n { s.amCh n with overAt := now }
    if s.amBit n b then .next s
    else
      let s := (s.setBit Obj.AM_STATUS 0 n b true).count Obj.AM_OVERLOADS 0 n 1
      .next ((s.raise .AM_OVERLOAD (Obj.AM_STATUS.ident 0 n)).amReport n)

/-- R497: 1 ms without such a run. -/
def execAmOverloadClear (t : Nat) (channel : Fin 16) (s : State) : Result :=
  let s := s.at t
  let n := channel.val
  if s.now < (s.amCh n).overAt + 1000000 then .next s
  else .next (((s.setBit Obj.AM_STATUS 0 n amOverLow false).setBit Obj.AM_STATUS 0 n amOverHigh false).amReport n)

/-- R491: values have been frozen for AM_FREEZE_MAX_MS without a break. -/
def execAmFreezeMax (t : Nat) (channel : Fin 16) (s : State) : Result :=
  let s := s.at t
  let n := channel.val
  match (s.amCh n).frozen with
  | none => .next s
  | some f =>
    if n < 8 || s.amBit n amForced || s.now < f + s.rdN Obj.AM_FREEZE_MAX_MS * 1000000 then .next s
    else .next ((s.setBit Obj.AM_STATUS 0 n amForced true).count Obj.AM_DC_FORCED 0 (n - 8) 1)

/-- R488: a write of `AM_PEAK_CLEAR`. -/
def execAmPeakClear (t : Nat) (path : Path) (value : List Byte) (s : State) : Result :=
  let s := (s.at t).touch path
  let k := Obj.AM_PEAK_CLEAR.key 0 0
  match s.checkWrite path Obj.AM_PEAK_CLEAR 0 0 value with
  | 0 =>
    let s := (List.range 8).foldl (fun s n =>
      if (leNat value).testBit n then
        (s.put Obj.AM_PEAK_HOLD_MAX 0 n (s.rd Obj.AM_VALUE 0 n)).put Obj.AM_PEAK_HOLD_MIN 0 n (s.rd Obj.AM_VALUE 0 n)
      else s) s
    .next (s.answer path k 0)
  | r => .next (s.answer path k r)

/-! ## Leaving PREOP (R493, R496) -/

/-- R493: what keeps the unit in PREOP. -/
def State.amRefusals (s : State) : List (Nat × Ev) :=
  let p := s.rdN Obj.EJ_ILK_PRESS_SOURCE
  let source := decide (p < 8) &&
    (!s.flag Obj.AM_ENABLE 0 p || s.rdN Obj.AM_FIR_MODE 0 p == 1 || s.rdN Obj.AM_FIR_MODE 0 p == 3)
  let user := (List.range 16).any (fun n => s.rdN Obj.AM_FIR_MODE 0 n == 3 && (s.rdList Obj.AM_FIR_USER n 63).all (fun h => h == 0))
  if source || user then [(Obj.AM_FIR_MODE.ident 0 (if source then p else 0), .AM_CONFIG_REFUSED)] else []

/-- R494: the comparator's report, where the unit's mode or a channel's state has changed. -/
def State.amReports (s : State) : State := (List.range 8).foldl (fun s n => s.amReport n) s

/-- R485, R487, R490, R494, R496: the enabled channels start. -/
def State.amArm (s : State) : State :=
  let s := (List.range 16).foldl (fun s n =>
    let on := s.flag Obj.AM_ENABLE 0 n
    let s := (s.setAm n { press := s.pressNow }).putN Obj.AM_STATUS 0 n ((if on then 1 else 0) + (if s.amPress n then 64 else 0))
    let s := (s.put Obj.AM_VALUE 0 n 0).putN Obj.AM_BLK_INDEX 0 n 0
    let s := if n < 8 then s else s.put Obj.AM_DC 0 (n - 8) 0
    if on then (s.putN Obj.AM_OUT_RATE 0 n (s.amRate n)).putN Obj.AM_DELAY_NS 0 n (s.amDelay n) else s) s
  let s := if s.rdN Obj.EJ_ILK_PRESS_SOURCE = 255 then s.ilkCloses 3 else s
  s.amReports

end Sys2Proof.Machine
end

