-- ==== Sys2Proof/Machine/Links.lean ====
section
/-! DEFINITION. Chord links, the camera loan and lane diagnostics (spec/17_chord_links_and_lanes.md, R501 to R518;
spec/07_stitching.md, R200, R207). -/

namespace Sys2Proof.Machine

open Sys2Proof

/-- R518: bits of CH_STATUS. -/
def csUp : Nat := 0
/-- R518. -/
def csTraining : Nat := 1
/-- R518. -/
def csRate16 : Nat := 4
/-- R518. -/
def csDegraded : Nat := 5
/-- R518. -/
def csPairing : Nat := 6
/-- R518. -/
def csLoanRefused : Nat := 7
/-- R518. -/
def csTest : Nat := 8

/-- The number of the CHD island (R329). -/
def islandChd : Nat := 36

/-- R518: WIDTH of chord port `k`. -/
def State.chWidth (s : State) (k : Nat) : Nat := fieldOf (s.rdN Obj.CH_STATUS 0 k) 2 2

/-- R518: bit `i` of chord port `k`. -/
def State.chBit (s : State) (k i : Nat) : Bool := s.bit Obj.CH_STATUS 0 k i

/-- R518: bit `i` of chord port `k` becomes `v`. -/
def State.setChBit (s : State) (k i : Nat) (v : Bool) : State := s.setBit Obj.CH_STATUS 0 k i v

/-! ## The loan's end (R207) -/

/-- R207, R355: a lent port's loan over link `k` ends at home: the port is unserved again, and its zone follows the failsafe
policy from the line after the last one that has closed (log entry 231). -/
def State.loanEndsHome (s : State) (k : Nat) : State :=
  match look s.st.lent none k with
  | none => s
  | some p =>
    let cut := fun (g : SeamGroup) => g.seams.any (fun j => [true, false].any (fun w => s.orderSide j w == some p))
    let groups := s.st.groups.map (fun (g : SeamGroup) => if cut g then { g with cutOff := true } else g)
    let s := { s with st := { s.st with lent := store s.st.lent none k none, groups := groups } }.putN Obj.RV_PORT_PIPELINE 0 p 255
    let t : Int := (s.trigTime (s.portGroup p) (s.rdN Obj.CAM_LINE_CLOSED p + 1)).getD s.now
    match s.failoverOf p with
    | none => s.noService
    | some f =>
      (s.setFailover p (some { f with detected := s.now, b1 := none, b2 := t + s.rdN Obj.RV_FLIGHT_MIN_NS, caught := none
                                      planned := 0 })).noService

/-- R207: the loan that is served over link `k` ends: its pipeline is the spare again. -/
def State.loanEndsServed (s : State) (k : Nat) : State :=
  match look s.st.served none k with
  | none => s
  | some _ =>
    let p := 12 + k
    let q := s.pipelineOf p
    let s := { s with st := { s.st with served := store s.st.served none k none } }
    let s := (((s.setRcp p {}).setRg p {}).setSg p {}).setTg p {}
    let s := { s with cont := { s.cont with kept := s.cont.kept.filter (fun x => x.port != p) } }
    ((((s.setCam p {}).dropParts p).setFailover p none).setPipe q psSpare).putN Obj.RV_SPARE 0 0 q

/-- R207, R210: the loans over link `k` end. -/
def State.loanEnds (s : State) (k : Nat) : State :=
  let s := (s.loanEndsHome k).loanEndsServed k
  let active := [0, 1].any (fun j => (look s.st.lent none j).isSome || (look s.st.served none j).isSome)
  s.setBit Obj.ST_STATUS 0 0 7 active

/-! ## Training and HELLO (R501 to R505, R200) -/

/-- R21: the mode HELLO names: 0 free fall, 1 surface (log entry 46). -/
def State.modeCode (s : State) : Nat := boolNat s.surface

/-- R200: the port that touches the unit seam of link `k`. -/
def State.seamPort (s : State) (k : Nat) : Option Nat := if k = 0 then s.order.head? else s.order.getLast?

/-- R200: the unit seam line of link `k`. -/
def State.unitSeam (s : State) (k : Nat) : Int := if k = 0 then s.rd Obj.ST_WEST_SEAM_X else s.rd Obj.ST_EAST_SEAM_X

/-- R502, R505: HELLO goes out. -/
def State.sendHello (s : State) (k : Nat) : State :=
  let ports := (s.seamPort k).toList
  let items := Config.helloItems (s.unitSeam k) (s.order.map (fun p => s.rdN Obj.ST_MAP_CAL_ID 0 p))
    (ports.map (fun p => s.rdN Obj.TG_PERIOD 0 p)) (ports.map (fun p => s.rdN Obj.TG_PHASE 0 p))
  s.chPush k 0 0 ([k] ++ toLe 2 (s.rdN Obj.MER_STATION) ++ [s.modeCode] ++ items)

/-- R501, R503: chord port `k` trains: it is in service and has no width yet. -/
def State.chTrains (s : State) (k : Nat) : Bool :=
  s.flag Obj.CH_ENABLE 0 k && s.islandRuns islandChd && !s.chBit k csTest && s.chWidth k == 0

/-- R503: a lane passes at a rate: both of its receivers reached their margin, this unit's within 256 requests. -/
def State.lanePasses (s : State) (l : List LaneTraining) (far : List Nat) (lane : Nat) : Bool :=
  far.contains lane &&
    l.any (fun x => x.lane.val == lane && decide (x.requests.length ≤ 256) && decide (s.rdN Obj.CH_EYE_MIN ≤ x.margin))

/-- R503: the lanes whose far receivers passed at a rate. -/
def farLanes (far : List (Fin 8 × Bool)) (rate16 : Bool) : List Nat :=
  (far.filter (fun x => x.2 == rate16)).map (fun x => x.1.val)

/-- R501: the widths and rates in the order in which training tries them: WIDTH as R518 codes it, RATE16 and the lanes. Of the two
halves at one rate lanes 0 to 3 come first (log entry 280). -/
def trainOrder : List (Nat × Bool × List Nat) :=
  [(3, false, List.range 8), (3, true, List.range 8), (1, false, [0, 1, 2, 3]), (2, false, [4, 5, 6, 7]),
    (1, true, [0, 1, 2, 3]), (2, true, [4, 5, 6, 7])]

/-- R501, R516: the first width and rate, up to `CH_RATE_MAX`, whose lanes all pass. -/
def State.trainResult (s : State) (k : Nat) (full half : List LaneTraining) (far : List (Fin 8 × Bool)) :
    Option (Nat × Bool × List Nat) :=
  trainOrder.find? (fun x => (x.2.1 || s.rdN Obj.CH_RATE_MAX 0 k != 16) &&
    x.2.2.all (s.lanePasses (if x.2.1 then half else full) (farLanes far x.2.1)))

/-- R501 to R503: training of a port ends: the requests its receivers made, and the first width and rate that passed; where none did
it goes on. `full` and `half` are what the lanes came to at the two rates, `far` the lanes and rates (true the lower) at which the
far receivers passed. -/
def execChTrainDone (t : Nat) (link : Fin 2) (full half : List LaneTraining) (far : List (Fin 8 × Bool)) (s : State) : Result :=
  let s := s.at t
  let k := link.val
  if !s.chTrains k then .next s
  else
    let s := (full ++ half).foldl (fun s x => (x.requests.take 256).foldl (fun s r => s.emit (.tapRequest k x.lane r)) s) s
    match s.trainResult k full half far with
    | none => .next (s.setChBit k csTraining true)
    | some (width, rate16, _) =>
      let s := s.setField Obj.CH_STATUS 0 k 2 2 width
      let s := ((s.setChBit k csTraining false).setChBit k csRate16 rate16).setChBit k csDegraded (width != 3 || rate16)
      let now := s.now
      let s := s.setCh k { s.chp k with
        nextSeq := 0, expect := 0, ackDue := false, replay := [], stalled := [], l1Asked := false, lastHeard := now
        lastSend := now, lastTraffic := now }
      .next (s.sendHello k)

/-- R503: tap `i` (0 post-cursor, 1 main, 2 pre-cursor) after a move; none where it would leave its range. Its step and its range
are free (log entry 44). -/
def tapMoved (i v : Nat) (m : TapMove) : Option Nat :=
  match m with
  | .hold => some v
  | .inc => if v + 1 + Config.tapStep i v ≤ min 255 (Config.tapHigh i) then some (v + 1 + Config.tapStep i v) else none
  | .dec => if Config.tapLow i + 1 + Config.tapStep i v ≤ v then some (v - 1 - Config.tapStep i v) else none

/-- R503, R516: the taps of a lane after a request, as CH_TAPS packs them; none where one would leave its range. -/
def tapAnswer (now : Nat) (r : TapRequest) : Option Nat :=
  match r with
  | .preset n => some (Config.tapPreset n % 2 ^ 24)
  | .move a b c =>
    match tapMoved 2 (fieldOf now 16 8) a, tapMoved 1 (fieldOf now 8 8) b, tapMoved 0 (fieldOf now 0 8) c with
    | some x, some y, some z => some (65536 * x + 256 * y + z)
    | _, _, _ => none

/-- R503: while the port trains, the far receiver of a lane asks this transmitter for other taps; it answers with the values, or with
LIMIT. The values of the last request are the final ones. -/
def execTapRequest (t : Nat) (link : Fin 2) (lane : Fin 8) (request : TapRequest) (s : State) : Result :=
  let s := s.at t
  let e := 8 * link.val + lane.val
  let now := s.rdN Obj.CH_TAPS 0 e
  if !s.chTrains link then .next s
  else
  match tapAnswer now request with
  | none => .next (s.emit (.taps link lane now true))
  | some v => .next ((s.putN Obj.CH_TAPS 0 e v).emit (.taps link lane v false))

/-- R21, R200: the exchange of HELLO lets seam traffic run. -/
def State.seamAgrees (s : State) (k : Nat) (h : Hello) : Bool :=
  let ports := (s.seamPort k).toList
  let same := fun (o : ObjRow) (l : List Nat) => ports.all (fun p => l.all (fun v => v == s.rdN o 0 p))
  h.seamX == s.unitSeam k && h.mode == s.modeCode &&
    (s.surface || (same Obj.TG_PERIOD h.periods && same Obj.TG_PHASE h.phases))

/-- R192, R200: the checks of a seam whose link is up; the mirror's window is sent again where its traffic now runs (R347).
With `ST_ENABLE` false nothing is checked and no seam traffic runs. -/
def State.seamCheck (s : State) (k : Nat) (h : Hello) : State :=
  if !s.flag Obj.ST_ENABLE then
    let s := (s.setBit Obj.ST_STATUS 0 0 (1 + k) false).setBit Obj.ST_STATUS 0 0 (5 + k) false
    if s.mirrorLink = k && s.flag Obj.LG_MIRROR_ENABLE && !s.bit Obj.LG_STATUS 0 0 lgMirrorActive then s.mirrorWindow else s
  else
  let was := s.seamTraffic k
  let ok := s.seamAgrees k h
  let s := s.setBit Obj.ST_STATUS 0 0 (1 + k) ok
  let s := if ok then s else s.raise .ST_SEAM_MISMATCH (Obj.ST_STATUS.ident)
  let ids := (s.seamPort k).toList.map (fun p => s.rdN Obj.ST_MAP_CAL_ID 0 p)
  let differ := ids.any (fun i => h.calIds.any (fun j => i != j))
  let s := s.setBit Obj.ST_STATUS 0 0 (5 + k) differ
  let s := if differ then s.raise .ST_CAL_MISMATCH (Obj.ST_STATUS.ident) else s
  if s.mirrorLink = k && s.flag Obj.LG_MIRROR_ENABLE then
    (if ok && !was then s.mirrorWindow else if ok then s else s.mirrorLost)
  else s

/-- R20, R21, R200, R502: HELLO arrives: the pairing, mode and seam checks. -/
def execHello (t : Nat) (link : Fin 2) (hello : Hello) (s : State) : Result :=
  let s := s.at t
  let k := link.val
  if s.chWidth k = 0 || s.chBit k csTest then .next s
  else
    let now := s.now
    let c := s.chp k
    let s := s.setCh k { c with peer := some hello, expect := (c.expect + 1) % 16777216, ackDue := true, lastHeard := now }
    let bad := hello.east == (k == 1) || hello.station == s.rdN Obj.MER_STATION
    let s := (s.setChBit k csUp (!bad)).setChBit k csPairing bad
    if bad then .next (s.raise .CH_PAIRING (Obj.CH_STATUS.ident 0 k))
    else .next ((s.partBack 3 k).seamCheck k hello)

/-! ## Link loss (R508) -/

/-- R207, R347, R508: chord port `k` loses link: its replay buffer is discarded, seam traffic stops, loans end, the mirror is
lost, and it retrains. -/
def State.chLoss (s : State) (k : Nat) : State :=
  if s.chWidth k = 0 then s
  else
    let s := (s.count Obj.CH_LINK_LOSS 0 k 1).raise .CH_LINK_LOSS (Obj.CH_STATUS.ident 0 k)
    let s := (s.setField Obj.CH_STATUS 0 k 9 2 0).setField Obj.CH_STATUS 0 k 2 2 0
    let s := (s.setChBit k csUp false).setChBit k csTraining true
    let s := s.setCh k { s.chp k with replay := [], stalled := [], ackDue := false, l1Asked := false }
    let s := ((s.partFault 3 k).setBit Obj.ST_STATUS 0 0 (1 + k) false).loanEnds k
    if s.mirrorLink = k then s.mirrorLost else s

/-- R508: an active lane lost block lock for 1 µs, or nothing came for 10 µs in L0 or L0s; in L1 no lane is active (R510). -/
def execChLinkLoss (t : LinkSilence) (link : Fin 2) (s : State) : Result :=
  let s := s.at t.time
  let k := link.val
  .next (if s.chPower k ≠ 2 && (t.unlocked || decide ((s.chp k).lastHeard + 10000 ≤ s.now)) then s.chLoss k else s)

/-! ## Packets (R504 to R507) -/

/-- R506, R510: something came over chord port `k`. -/
def State.chHeard (s : State) (k : Nat) : State :=
  let now := s.now
  s.setCh k { s.chp k with lastHeard := now }

/-- R506, R510: a packet is delivered; one of SEAM, ORDER, MIRROR or LOAN counts as traffic. -/
def State.chTaken (s : State) (k cls : Nat) : State :=
  let now := s.now
  let c := s.chp k
  s.setCh k { c with
    expect := (c.expect + 1) % 16777216, ackDue := true
    lastTraffic := if 1 ≤ cls && cls ≤ 4 then now else c.lastTraffic }

/-- R506: every packet up to `seq` is acknowledged, and packets that waited for room go out. -/
def State.chAcked (s : State) (k seq : Nat) : State :=
  let c := s.chp k
  let s := s.setCh k { c with replay := c.replay.filter (fun x => !seqUpTo x.seq (seq % 16777216)) }
  s.chDrain k c.stalled.length

/-- R506: a packet is sent again as it was. -/
def State.chResend (s : State) (k : Nat) (x : ChPacket) : State :=
  ((s.count Obj.CH_RETRIES 0 k 1).count Obj.CH_BYTES_SENT 0 (5 * k + x.cls) (packetBytes x.payload)).emit
    (.chord k (chordPacket x.cls x.typ x.seq x.payload) false)

/-- R506, R508: packets from `seq` on are sent again; one that has been resent too often is link loss. -/
def State.chNaked (s : State) (k seq : Nat) : State :=
  let c := s.chp k
  let kept := (c.replay.filter (fun x => seqUpTo (seq % 16777216) x.seq)).map (fun x => { x with tries := x.tries + 1 })
  let now := s.now
  let s := s.setCh k { c with replay := kept, lastSend := now }
  if kept.any (fun x => decide (s.rdN Obj.CH_RETRY_LIMIT < x.tries)) then s.chLoss k
  else (kept.foldl (fun s x => s.chResend k x) s).chDrain k c.stalled.length

/-! ## L1 (R510) -/

/-- R510: SEAM, ORDER, MIRROR or LOAN traffic is enabled on link `k`. -/
def State.trafficOn (s : State) (k : Nat) : Bool :=
  s.seamTraffic k || (look s.st.lent none k).isSome || (look s.st.served none k).isSome ||
    (s.flag Obj.LG_MIRROR_ENABLE && s.mirrorLink == k)

/-- R510: link `k` may enter L1. -/
def State.l1Allowed (s : State) (k : Nat) : Bool :=
  s.chUp k && !s.trafficOn k && s.rdN Obj.CH_L1_MS != 0 &&
    decide ((s.chp k).lastTraffic + s.rdN Obj.CH_L1_MS * 1000000 ≤ s.now) && (s.chp k).stalled.isEmpty && (s.chp k).replay.isEmpty

/-- R505, R506, R510: L1_REQ is delivered: where the link may enter L1 it is answered, and this end enters it. -/
def State.l1Request (s : State) (k : Nat) : State :=
  let ok := s.l1Allowed k
  let s := s.chTaken k 0
  if ok then (s.chPush k 0 4 []).setField Obj.CH_STATUS 0 k 9 2 2 else s

/-- R510: L1_ACK is delivered: the link enters L1, but for a packet of traffic that became ready meanwhile. -/
def State.l1Agree (s : State) (k : Nat) : State :=
  let s := s.chTaken k 0
  let c := s.chp k
  let s := s.setCh k { c with l1Asked := false }
  if c.l1Asked && c.stalled.isEmpty && c.replay.all (fun x => x.cls == 0) then s.setField Obj.CH_STATUS 0 k 9 2 2 else s

/-- R504 to R506: a packet arrives: delivered, or discarded and asked for again, which counts where its CRC fails. A packet of class
5 to 15 is refused: it is discarded and asked for like one that may not be delivered (log entry 279). ACK, NAK, L1_REQ and L1_ACK
take their effect; HELLO, whose layout is open, comes as the command of its own name, as the contents of the other classes do (log
entry 281). -/
def execChPacket (t : Nat) (link : Fin 2) (cls typ seq : Nat) (payload : List Byte) (crc : Nat) (s : State) : Result :=
  let s := s.at t
  let k := link.val
  if s.chWidth k = 0 then .next s
  else
    let s := (s.chHeard k).setField Obj.CH_STATUS 0 k 9 2 0
    let c := s.chp k
    if !chordCrcOk (chordBytes cls typ seq payload crc) then .next ((s.count Obj.CH_CRC_ERRORS 0 k 1).chControl k 2 c.expect)
    else
      match cls, typ with
      | 0, 1 => .next (s.chAcked k (leAt payload 0 4))
      | 0, 2 => .next (s.chNaked k (leAt payload 0 4))
      | cls, typ =>
        if seq ≠ c.expect || decide (4 < cls) then .next (s.chControl k 2 c.expect)
        else if cls = 0 && typ = 0 then .next s
        else if cls = 0 && typ = 3 then .next (s.l1Request k)
        else if cls = 0 && typ = 4 then .next (s.l1Agree k)
        else .next (s.chTaken k cls)

/-- R506: ACK: every packet up to `seq` is acknowledged, and packets that waited for room go out. -/
def execChAck (t : Nat) (link : Fin 2) (seq : Nat) (s : State) : Result := .next (((s.at t).chHeard link).chAcked link seq)

/-- R506, R508: NAK: packets from `seq` on are sent again; one that has been resent too often is link loss. -/
def execChNak (t : Nat) (link : Fin 2) (seq : Nat) (s : State) : Result := .next (((s.at t).chHeard link).chNaked link seq)

/-- R506, R510: an ACK goes out: at least every 256 ns while packets arrive, and at least every 8 µs in L0s. -/
def execChAckSend (t : Nat) (link : Fin 2) (s : State) : Result :=
  let s := s.at t
  let k := link.val
  let c := s.chp k
  if s.chWidth k = 0 || s.chPower k = 2 || !(c.ackDue || s.chPower k == 1) then .next s
  else .next ((s.setCh k { c with ackDue := false }).chControl k 1 ((c.expect + 16777215) % 16777216))

/-! ## Power states (R510) -/

/-- R510: the far end asks for L1. -/
def execL1Req (t : Nat) (link : Fin 2) (s : State) : Result := .next (((s.at t).chHeard link).l1Request link)

/-- R510: the far end agrees; a packet that became ready meanwhile keeps the link in L0. -/
def execL1Ack (t : Nat) (link : Fin 2) (s : State) : Result := .next (((s.at t).chHeard link).l1Agree link)

/-- R510: CH_L1_MS without traffic: L1 is asked for. -/
def execChL1Idle (t : Nat) (link : Fin 2) (s : State) : Result :=
  let s := s.at t
  if s.l1Allowed link && s.chPower link ≠ 2 then
    .next ((s.setCh link { s.chp link with l1Asked := true }).chPush link 0 3 [])
  else .next s

/-- R510: CH_L0S_NS with nothing to send. -/
def execChL0sEntry (t : Nat) (link : Fin 2) (s : State) : Result :=
  let s := s.at t
  let c := s.chp link
  if s.chUp link && s.chPower link = 0 && c.stalled.isEmpty && !c.ackDue && decide (c.lastSend + s.rdN Obj.CH_L0S_NS ≤ s.now) then
    .next (s.setField Obj.CH_STATUS 0 link 9 2 1)
  else .next s

/-- R510: in L1 a wake probe goes out every 1 ms; one that is not answered is link loss. -/
def execChWakeProbe (t : Nat) (link : Fin 2) (answered : Bool) (s : State) : Result :=
  let s := s.at t
  let c := s.chp link
  if s.chPower link ≠ 2 || s.now < c.lastSend + 1000000 then .next s
  else
    let now := s.now
    let s := (s.setCh link { c with lastSend := now }).emit (.wakeProbe link)
    if answered then .next (s.chHeard link) else .next (s.chLoss link)

/-! ## The camera loan (R207, R509) -/

/-- R501: the payload rate of link `k`, in Mb/s × 100. -/
def State.payloadRate (s : State) (k : Nat) : Nat :=
  match s.chWidth k, s.chBit k csRate16 with
  | 0, _ => 0
  | 3, false => 25206
  | 3, true => 12603
  | _, false => 12603
  | _, true => 6302

/-- R509: the link carries more than 1.25 times the port's line data rate; both in 10 Mb/s × periods. -/
def State.loanFits (s : State) (k p : Nat) : Bool :=
  decide (5 * s.rdN Obj.CAM_WIDTH p * s.rdN Obj.CAM_DEPTH p * 100 <
    4 * s.payloadRate k * s.rdN Obj.TG_MIN_PERIOD_NS 0 p)

/-- R207: whether a port may be lent over link `k`, but for the link's rate. -/
def State.loanOver (s : State) (k : Nat) : Bool :=
  s.flag Obj.ST_LOAN_ENABLE && s.chUp k && s.seamTraffic k && (look s.st.lent none k).isNone

/-- R505: a list of bytes in pieces of at most `n`. -/
def cutBytes (fuel n : Nat) (b : List Byte) : List (List Byte) :=
  match fuel with
  | 0 => []
  | f + 1 => if b.isEmpty then [] else b.take n :: cutBytes f n (b.drop n)

/-- R505: a raw line of the lent port goes out in LINE packets. -/
def State.sendLoanLine (s : State) (k : Nat) (l : CapLine) : State :=
  let b := capBytes (s.rdN Obj.CAM_DEPTH l.port) l
  (cutBytes (b.length / 2036 + 1) 2036 b).zipIdx.foldl (fun s x =>
    s.chordSend k 4 0 (toLe 8 l.line ++ toLe 4 (2036 * x.2) ++ x.1)) s

/-- R207: whether a row describes port `p`: in its repetition `p`, or in its element `p`. -/
def ObjRow.portKey (o : ObjRow) (p : Nat) : List Nat :=
  if o.stride = 0x100 && o.blocks = 12 then (List.range o.count).map (fun e => o.key p e)
  else if o.stride = 0 && o.count = 12 &&
      (o.index = Obj.ST_SEAM_COL_W.index || o.index = Obj.ST_SEAM_COL_E.index || o.index = Obj.TG_MIN_PERIOD_NS.index ||
        o.index = Obj.PORT_GROUP.index) then [o.key 0 p]
  else if o.index = Obj.ST_MAP.index then [o.key p 0]
  else []

/-- R207: the seam lines of port `p`, under the keys of the unit's own. -/
def State.loanSeams (s : State) (p : Nat) : List (Nat × Int) :=
  let order := s.order
  let k := order.idxOf p
  [(Obj.ST_WEST_SEAM_X.key 0 0, if k = 0 then s.rd Obj.ST_WEST_SEAM_X else s.rd Obj.ST_SEAM_X 0 (k - 1)),
   (Obj.ST_EAST_SEAM_X.key 0 0, if k + 1 = order.length then s.rd Obj.ST_EAST_SEAM_X else s.rd Obj.ST_SEAM_X 0 k)]

/-- R207, R505: the settings of the lent port go out, with what the restart needs of this unit (log entry 231). -/
def State.sendSettings (s : State) (k p : Nat) (f : Failover) (snap : Option RcSnapshot) : State :=
  let keys := objectTable.flatMap (fun o => if o.isBytes then [] else o.portKey p)
  let blobs := objectTable.flatMap (fun o => if o.isBytes then o.portKey p else [])
  let values := keys.filterMap (fun x => (objAt x).map (fun q => (x, s.rd q.1 q.2.1 q.2.2)))
  let data := blobs.filterMap (fun x => (objAt x).map (fun q => (x, s.rdBlob q.1 q.2.1 q.2.2)))
  let kept := (s.cont.kept.filter (fun x => x.port == p)).map (fun x => [x.first, x.anchor, x.index, x.last, x.lo, x.hi])
  let image := match snap with
    | some x => snapshotImage p x
    | none => []
  let b := Config.settingsBytes (values ++ s.loanSeams p) data (f.start, f.since) f.restart f.cut kept image
  (cutBytes (b.length / 2048 + 1) 2048 b).foldl (fun s x => s.chordSend k 4 1 x) s

/-- R207, R353, R355: port `p` is lent over link `k`: its settings, the snapshot, and its lines after it go out. What the home unit
knows of the neighbour's catching up is the start of the loan (log entry 231). -/
def State.lend (s : State) (k p : Nat) : State :=
  let s := { s with st := { s.st with lent := store s.st.lent none k (some p) } }
  let s := ((s.putN Obj.RV_PORT_PIPELINE 0 p 254).setBit Obj.ST_STATUS 0 0 7 true).setChBit k csLoanRefused false
  let f0 : PipeFault := match s.failoverOf p with
    | some f => { port := p, pipeline := noPipe, detected := f.detected, since := f.since, cause := 0 }
    | none => { port := p, pipeline := noPipe, detected := s.now, since := s.now, cause := 0 }
  let s := (s.dramMeet [s.snapshotSlot p 0, s.snapshotSlot p 1] []).snapshotsRead p
  let snap := s.pickSnapshot p f0.detected
  let m := (snap.map (fun x => x.line)).getD (s.rdN Obj.CAM_LINE_CLOSED p)
  let s := s.replayRead p (m + 2) []
  let f := { s.restartOf f0 m with caught := some s.now }
  let s := (s.countCut f).setFailover p (some f)
  let s := s.sendSettings k p f snap
  let lines := s.replayLines p (m + 2) (s.rdN Obj.CAM_LINE_CLOSED p)
  let s := (s.setCam p { s.cam p with toPipe := [] }).growBlanket p
  let s := match f.b1 with
    | some b => if s.rdN Obj.RV_FAILSAFE_POLICY = 0 then s.blanket p (max b.1 f.detected) b.2 else s
    | none => s
  lines.foldl (fun s l => s.sendLoanLine k l) s

/-- R207, R353, R355, R509: an unserved port is lent to the neighbour over link `k`: its settings, the snapshot, and its lines
after it. A port that cannot be lent stays unserved, and CONTINUITY_DEGRADED is raised. -/
def execLoanStart (t : Nat) (link : Fin 2) (p : Fin 12) (s : State) : Result :=
  let s := s.at t
  let k := link.val
  if s.rdN Obj.RV_PORT_PIPELINE 0 p ≠ 255 || !s.lining || !s.flag Obj.CAM_ENABLE p then .next s
  else if !s.loanOver k then .next (if s.loanPossible then s else s.noService)
  else if !s.loanFits k p then
    let s := (s.setChBit k csLoanRefused true).raise .CH_LOAN_REFUSED (Obj.CH_STATUS.ident 0 k)
    .next (if s.loanOver (1 - k) && s.loanFits (1 - k) p then s else s.noService)
  else
    .next (s.lend k p)

/-- R207: where a value of the lent port is kept here: under element or repetition 12 + link. -/
def loanKey (home link : Nat) (key : Nat) : Nat :=
  match objAt key with
  | none => key
  | some (o, b, e) =>
    if o.stride = 0x100 && b = home then o.key (12 + link) e
    else if o.stride = 0 && (e = home || o.index = Obj.ST_WEST_SEAM_X.index || o.index = Obj.ST_EAST_SEAM_X.index) then
      o.key 0 (12 + link)
    else if b = home then o.key (12 + link) e else key

/-- R207: the settings of the neighbour's port arrive: a free spare serves it. -/
def execLoanSettings (t : Nat) (link : Fin 2) (settings : LoanSettings) (s : State) : Result :=
  let s := s.at t
  let k := link.val
  let q := s.rdN Obj.RV_SPARE
  if !s.flag Obj.ST_LOAN_ENABLE || !s.chUp k || !s.seamTraffic k || q = noPipe || !s.lining || (look s.st.served none k).isSome then .next s
  else
    let p := 12 + k
    let home := settings.homePort.val
    let s := settings.values.foldl (fun s v =>
      { s with dict := enlist s.dict (loanKey home k v.1) v.2 }) s
    let s := settings.blobs.foldl (fun s v =>
      { s with blobs := enlist s.blobs (loanKey home k v.1) v.2 }) s
    let s := { s with st := { s.st with served := store s.st.served none k (some home) } }
    let s := ((s.setPipe q psReplaying).putN Obj.RV_SPARE 0 0 noPipe).setBit Obj.ST_STATUS 0 0 7 true
    let s := ((((s.setRcp p {}).setCam p {}).setAt p { image := atlasImage (s.rdBlob Obj.AT_BLOB p) }).setTg p {}).setHist p {}
    let s := s.atLoadPipe q p (settings.line + 1)
    let s := { s with cams := { s.cams with replay := s.cams.replay.filter (fun x => x.1 / 2 ^ 20 != p) } }
    let s := match settings.snapshot with
      | some x => s.rcLoad p x
      | none => s.rcStart p (settings.line + 1)
    let x : Failover := { detected := s.now, since := settings.since, committed := settings.restart - 1, restart := settings.restart
                          start := settings.line + 2, cut := settings.cut, b2 := 2 ^ 64 }
    let kept := settings.kept.map (fun (y : LoanPart) => ({ port := p, first := y.first, anchor := y.anchor, index := y.index
                                                            last := y.last, lo := y.lo, hi := y.hi } : PartId))
    let s := (s.setFailover p (some x)).keepParts kept
    let s := (s.rgArm p).segArm p
    .next (s.setSg p { s.sgp p with line := settings.restart - 1 })

/-- R207, R505: a raw line of the port that is served for the neighbour. The line brings no encoder speed: that of the serving unit's
own encoders at its trigger time stands for it, as they are known when it arrives (R225, log entry 265). The serving
unit keeps the port's last lines, from which a reset of its pipeline produces again (R208, log entry 264). -/
def execLoanLine (t : Nat) (link : Fin 2) (line : LoanLine) (s : State) : Result :=
  let s := s.at t
  let k := link.val
  if (look s.st.served none k).isNone then .next s
  else
    let p := 12 + k
    let l : CapLine := {
      line := line.line, trig := line.trig, belt := line.belt, epoch := line.epoch, flags := line.flags, port := p
      group := s.portGroup p, spans := line.spans, arrival := s.now, rows := line.rows }
    let mark : TrigMark := {
      line := line.line, epoch := line.epoch, time := line.trig, belt := line.belt
      speeds := (List.range 4).map (fun q => s.qeSpeed q line.trig) }
    let s := s.setTg p { s.tg p with marks := (mark :: (s.tg p).marks).take 32768 }
    let s := s.setCam p { s.cam p with toPipe := (s.cam p).toPipe ++ [l] }
    let slot := l.line % max 1 (s.rdN Obj.CAM_REPLAY_SLOTS p)
    let s := { s with cams := { s.cams with replay := store s.cams.replay none (replayKey p slot) (some l) } }
    .next ((s.putN Obj.CAM_LINE_CLOSED p 0 line.line).putN Obj.CAM_LINE_NOW p 0 line.line)

/-! ## Lane diagnostics (R511 to R515) -/

/-- R511: a start is allowed on a lane. -/
def State.laneTestAllowed (s : State) (lane : Nat) : Bool :=
  if lane < 16 then s.mode == stPreop
  else if lane < 64 then s.mode == stPreop || !s.flag Obj.CAM_ENABLE ((lane - 16) / 4)
  else s.mode == stPreop && !s.cxl.linkUp

/-- R511, R516: a chord port is out of service: its traffic stops, its loans end, and the mirror over it is lost. -/
def State.chordOff (s : State) (k : Nat) : State :=
  let s := (s.setChBit k csUp false).setField Obj.CH_STATUS 0 k 2 2 0
  let s := ((s.setBit Obj.ST_STATUS 0 0 (1 + k) false).setChBit k csTraining false).setCh k
    { s.chp k with replay := [], stalled := [] }
  (if s.mirrorLink = k then s.mirrorLost else s).loanEnds k

/-- R17, R516: `CH_ENABLE` as it is live: a port that is not enabled is out of service, one that is trains. -/
def State.chordArm (s : State) (k : Nat) : State :=
  if s.chBit k csTest then s
  else if !s.flag Obj.CH_ENABLE 0 k then (if s.chWidth k = 0 then s.setChBit k csTraining false else s.chordOff k)
  else if s.chWidth k = 0 then s.setChBit k csTraining true
  else s

/-- R511: a chord port with a lane in test is out of service and shows TEST; without one it trains again. -/
def State.chordTest (s : State) (k : Nat) : State :=
  let on := (List.range 8).any (fun i => s.rdN Obj.LN_PATTERN 0 (8 * k + i) != 0)
  if on == s.chBit k csTest then s
  else
    let s := s.setChBit k csTest on
    if on then s.chordOff k
    else s.setChBit k csTraining (s.flag Obj.CH_ENABLE 0 k)

/-- R511, R512: a write of `LN_PATTERN`. -/
def execLnPatternWrite (t : Nat) (path : Path) (lane : Fin 80) (value : List Byte) (s : State) : Result :=
  let s := (s.at t).touch path
  let n := lane.val
  let k := Obj.LN_PATTERN.key 0 n
  match s.checkAccess path Obj.LN_PATTERN 0 n value.length with
  | 0 =>
    let v := leNat value
    if v ≠ 0 && !s.laneTestAllowed n then .next (s.answer path k 4)
    else if 6 < v then .next (s.answer path k 5)
    else
      let s := { (s.putN Obj.LN_PATTERN 0 n v).putN Obj.LN_LOCKED 0 n 0 with lanes := store s.lanes 0 n 0 }
      let s := if n < 16 then s.chordTest (n / 8) else s
      .next (s.answer path k 0)
  | r => .next (s.answer path k r)

/-- R513: of `sent` more bits of a lane's generator, those that `LN_INJECT` inverts, one in every 2ⁿ, and the lane as they leave it. -/
def State.laneInject (s : State) (n sent : Nat) : Nat × State :=
  let e := s.rdN Obj.LN_INJECT 0 n
  if e = 0 || s.rdN Obj.LN_PATTERN 0 n = 0 then (0, s)
  else
    let x := look s.lanes 0 n + sent
    (x / 2 ^ e, ({ s with lanes := store s.lanes 0 n (x % 2 ^ e) }).count Obj.LN_INJECTED 0 n (x / 2 ^ e))

/-- R512, R513, R515: what a lane has measured since the last update. A lane of the chord or of CXL in loopback checks what it
sends: every bit is right but the injected ones. -/
def execLnEyeUpdate (t : Nat) (lane : Fin 80) (height width bits errors sent : Nat) (s : State) : Result :=
  let s := s.at t
  let n := lane.val
  let loop := s.flag Obj.LN_LOOPBACK 0 n && (decide (n < 16) || decide (64 ≤ n))
  let i := s.laneInject n sent
  let errors := if loop then i.1 else errors
  let s := i.2.putN Obj.LN_EYE 0 n (height * 65536 + width)
  .next (if s.flag Obj.LN_LOCKED 0 n then (s.count Obj.LN_BITS 0 n bits).count Obj.LN_ERRORS 0 n errors else s)

/-- R512: a checker has seen 64 correct bits in a row. -/
def execLnLockGained (t : Nat) (lane : Fin 80) (s : State) : Result :=
  let s := s.at t
  .next (if s.rdN Obj.LN_PATTERN 0 lane ≠ 0 then s.putN Obj.LN_LOCKED 0 lane 1 else s)

/-- R512: more than 16 of 256 bits were wrong. -/
def execLnLockLost (t : Nat) (lane : Fin 80) (s : State) : Result :=
  let s := s.at t
  .next (if s.flag Obj.LN_LOCKED 0 lane then (s.putN Obj.LN_LOCKED 0 lane 0).count Obj.LN_RESYNC 0 lane 1 else s)

end Sys2Proof.Machine
end

