-- ==== Sys2Proof/Machine/Calibration.lean ====
section
/-! DEFINITION. Calibration tasks, the settings store and the Almanac (spec/18_calibration_and_almanac.md, R519 to R543). -/

namespace Sys2Proof.Machine

open Sys2Proof

/-! ## Requests (R519 to R523) -/

/-- R522: what a task's targets are: 0 ports, 1 the unit, 2 valves, 3 pipelines, 4 valve bank links. -/
def calKind (task : Nat) : Nat := match task with | 1 => 0 | 2 => 0 | 3 => 1 | 4 => 2 | 5 => 2 | 6 => 3 | _ => 4

/-- R520, R521: a valve group. -/
def isGroup (task target : Nat) : Bool := (task == 4 || task == 5) && decide (0xffd ≤ target) && decide (target ≤ 0xfff)

/-- R520: the target exists. -/
def calTargetExists (task target : Nat) : Bool :=
  isGroup task target ||
    (match calKind task with
     | 0 => decide (target < 12)
     | 1 => target == 0
     | 2 => decide (target < 2048)
     | 3 => decide (target < 13)
     | _ => decide (target < 32))

/-- R520, R523: the tasks that may be forced. -/
def calForcible (task : Nat) : Bool := task == 1 || task == 5 || task == 6

/-- R521: what a target stands for: itself, or the in-service valves of the rows its group names. -/
def State.calTargets (s : State) (task target : Nat) : List Nat :=
  if isGroup task target then
    (List.range 2048).filter (fun v => s.valveState v == 1 &&
      (target == 0xffd || s.rdN Obj.EJ_VALVE_ROW 0 v == target - 0xffd))
  else [target]

/-- R519: the gap of a request is open. -/
def State.calGap (s : State) (r : CalRequest) : Bool :=
  match r.task with
  | 1 => s.lining && s.flag Obj.CAM_ENABLE r.target
  | 2 => true
  | 3 => s.mode == stArmed
  | 4 => s.lining
  | 5 => s.mode == stRun && !s.gated
  | 6 => s.pipeState r.target == psTesting ||
      (s.lining && s.pipeState r.target == psSpare && s.cont.rotation.isNone && !s.failingOver)
  | _ => s.linkUp r.target

/-- R522: a request on the same target runs. -/
def State.calBusy (s : State) (r : CalRequest) : Bool :=
  s.cal.queue.any (fun x => x.started && calKind x.task == calKind r.task && x.target == r.target)

/-- R522, R526 to R535: the engine starts a request. -/
def State.calBegin (s : State) (r : CalRequest) : State :=
  let s := s.setQueue (s.cal.queue.map (fun (x : CalRequest) =>
    if x.task = r.task && x.target = r.target then { x with started := true } else x))
  match r.task with
  | 1 => { s.calWatch (Obj.RC_FF_PLATE_REF.key r.target 0) with cal := {
      (s.calWatch (Obj.RC_FF_PLATE_REF.key r.target 0)).cal with plate := unlist s.cal.plate r.target } }
  | 2 => s.calWatch (Obj.RC_DEFECT_MAP.key r.target 0)
  | 3 => s.calStart
  | 4 => r.left.foldl (fun s v =>
      let s := s.calWatch (Obj.EJ_VALVE_OPEN_LAT_NS.key 0 v)
      { s with cal := { s.cal with latency := unlist s.cal.latency v } }) s
  | 5 => r.left.foldl (fun s v =>
      let s := s.calWatch (Obj.EJ_VALVE_OPEN_THRESH_NS.key 0 v)
      { s with cal := { s.cal with sweeps := unlist s.cal.sweeps v } }) s
  | 6 =>
    let s := { s with cal := { s.cal with bist := unlist s.cal.bist r.target } }
    if s.pipeState r.target = psSpare then
      let s := ((s.setPipe r.target psTesting).putN Obj.RV_SPARE 0 0 noPipe).putN Obj.ISLAND_STATE 0 (2 + r.target) 2
      { s with cont := { s.cont with testing := s.cont.testing ++ [(r.target, s.now)] } }
    else s
  | _ => s

/-- R522: at each gap the engine starts the oldest queued request that the gap serves; requests on one target run one after
another. -/
def State.calServe (s : State) : State :=
  s.cal.queue.foldl (fun s r => if r.started || !s.calGap r || s.calBusy r then s else s.calBegin r) s

/-- R520 to R522: a write of `CAL_REQUEST`. A group without a valve in service has nothing to do. -/
def State.calWrite (s : State) (path : Path) (task : Nat) (forced : Bool) (target deadline : Nat) : State :=
  let s := s.touch path
  let k := Obj.CAL_REQUEST.key 0 0
  match s.checkAccess path Obj.CAL_REQUEST 0 0 4 with
  | 0 =>
    if !calTargetExists task target || (forced && !calForcible task) then s.answer path k 5
    else
      let l := s.calTargets task target
      if l.isEmpty then s.answer path k 0
      else
        match s.calEnqueue { task := task, target := target, forced := forced, due := s.calDue deadline, left := l } with
        | none => s.answer path k 8
        | some s => s.calServe.answer path k 0
  | r => s.answer path k r

/-- R526: a request for task 1. -/
def execPlateRef (t : Nat) (path : Path) (forced : Bool) (target deadline : Nat) (s : State) : Result :=
  .next ((s.at t).calWrite path 1 forced target deadline)

/-- R527: a request for task 2. -/
def execDefectMerge (t : Nat) (path : Path) (forced : Bool) (target deadline : Nat) (s : State) : Result :=
  .next ((s.at t).calWrite path 2 forced target deadline)

/-- R519: a request for task 3. -/
def execStitch (t : Nat) (path : Path) (forced : Bool) (target deadline : Nat) (s : State) : Result :=
  .next ((s.at t).calWrite path 3 forced target deadline)

/-- R528: a request for task 4. -/
def execValveLatency (t : Nat) (path : Path) (forced : Bool) (target deadline : Nat) (s : State) : Result :=
  .next ((s.at t).calWrite path 4 forced target deadline)

/-- R529: a request for task 5. -/
def execValveThreshold (t : Nat) (path : Path) (forced : Bool) (target deadline : Nat) (s : State) : Result :=
  .next ((s.at t).calWrite path 5 forced target deadline)

/-- R535: a request for task 6. -/
def execPipeBist (t : Nat) (path : Path) (forced : Bool) (target deadline : Nat) (s : State) : Result :=
  .next ((s.at t).calWrite path 6 forced target deadline)

/-- R530: a request for task 7. -/
def execVernier (t : Nat) (path : Path) (forced : Bool) (target deadline : Nat) (s : State) : Result :=
  .next ((s.at t).calWrite path 7 forced target deadline)

/-- R523: a request leaves the queue at its deadline without a result. -/
def State.calStarve (s : State) (r : CalRequest) : State :=
  let s := s.setQueue (s.cal.queue.filter (fun x => !(x.task == r.task && x.target == r.target)))
  let s := r.left.foldl (fun s x => s.calLast r.task x 5 r.marked) (s.count Obj.CAL_STARVED_COUNT 0 r.task 1)
  let s := if r.task = 3 && s.rdN Obj.ST_CAL_STATE = 1 then s.putN Obj.ST_CAL_STATE 0 0 0 else s
  (s.setBit Obj.CAL_STATUS 0 0 calStarved true).raise .CAL_STARVED (Obj.CAL_LAST.ident)

/-- R523: a request's forced run begins: lines are marked from now on, or the next rotation displaces the target at once. -/
def State.calForce (s : State) (r : CalRequest) : State :=
  let s := s.setQueue (s.cal.queue.map (fun (x : CalRequest) =>
    if x.task = r.task && x.target = r.target then { x with forcing := true } else x))
  if r.task ≠ 6 || r.started || !s.lining || s.suspended || s.cont.rotation.isSome || !s.refilled then s
  else
    match (List.range 12).find? (fun p => s.flag Obj.CAM_ENABLE p && s.rdN Obj.RV_PORT_PIPELINE 0 p == r.target) with
    | some p => s.startRotation p []
    | none => s

/-- R523: what becomes of a request that is past its deadline. -/
def State.calExpire (s : State) (r : CalRequest) : State :=
  if s.now < r.due || r.task = 2 || (r.task = 7 && s.linkUp r.target) then s
  else if r.forced then s.calForce r else s.calStarve r

/-- R523: deadlines have passed. -/
def execCalDeadline (t : Nat) (s : State) : Result :=
  let s := s.at t
  .next ((s.cal.queue.foldl (fun s r => s.calExpire r) s).calServe)

/-- R532: a request that runs ends with cause 6. -/
def State.calAbortOne (s : State) (r : CalRequest) : State :=
  let s := s.setQueue (s.cal.queue.filter (fun x => !(x.task == r.task && x.target == r.target)))
  let s := if r.task = 3 && s.rdN Obj.ST_CAL_STATE = 1 then s.putN Obj.ST_CAL_STATE 0 0 0 else s
  s.calReject r.task r.target 6 r.marked

/-- R532: the tasks that use lines, pulses or links are aborted; queued requests stay. -/
def State.calAbort (s : State) : State :=
  (s.cal.queue.filter (fun r => r.started && r.task != 2 && r.task != 6)).foldl (fun s r => s.calAbortOne r) s

/-- R532: a warm reset aborts every task and empties the queue. -/
def State.calReset (s : State) : State :=
  ((s.cal.queue.filter (fun r => r.started)).foldl (fun s r => s.calAbortOne r) s).setQueue []

/-! ## Samples (R526, R528, R529) -/

/-- R526: the samples of a site with one more of estimate `v`, unless it has its `n`. -/
def plateTake (x : Nat × Int) (n : Nat) (v : Int) : Nat × Int := if x.1 < n then (x.1 + 1, x.2 + v) else x

/-- R523, R526: a line of port `p` that has completed raw correction gives its sites' estimates to a running PLATE_REF: those
with PLATE that are not stale, and in a forced run every valid one that is not SAT. -/
def State.calPlate (s : State) (p : Nat) (l : RegLine) : State :=
  match s.calRunning 1 p with
  | none => s
  | some r =>
    let n := s.rdN Obj.CAL_PLATE_LINES
    let sites := (s.rcp p).sites
    let px := l.rows.flatten
    let old := look s.cal.plate [] p
    let takes := fun (i : Nat) (x : OutPx) => x.plate && !(sites.getD i {}).stale
    let marks := fun (i : Nat) (x : OutPx) => r.forcing && !x.inv && !x.sat && !takes i x && decide ((old.getD i (0, 0)).1 < n)
    let new := (px.zipIdx).map (fun x =>
      if takes x.2 x.1 || marks x.2 x.1 then plateTake (old.getD x.2 (0, 0)) n (sites.getD x.2 {}).p
      else old.getD x.2 (0, 0))
    let s := { s with cal := { s.cal with plate := enlist s.cal.plate p new } }
    if (px.zipIdx).any (fun x => marks x.2 x.1) then s.calMark 1 p l.cap.line l.cap.line p else s

/-- R528: a status word whose LATENCY follows a completed main pulse of valve `v` gives a sample. -/
def State.calLatency (s : State) (v w : Nat) : State :=
  let x := s.valve v
  let wanted := (s.calRunning 4 v).isSome || (s.flag Obj.CAL_LAT_AUTO && s.valveState v == 1)
  match x.ran with
  | none => s
  | some charged =>
    if !wanted || !w.testBit 31 || w % 65536 = 0 || (s.rdN Obj.EJ_VALVE_PC_MODE 0 v ≠ 0 && !charged) then s
    else
      let a := look s.cal.latency (0, 0) v
      if s.rdN Obj.CAL_LAT_SAMPLES ≤ a.1 then s
      else
        let s := if a.1 = 0 && (s.calRunning 4 v).isNone then s.calWatch (Obj.EJ_VALVE_OPEN_LAT_NS.key 0 v) else s
        { s with cal := { s.cal with latency := enlist s.cal.latency v (a.1 + 1, a.2 + w % 65536) } }

/-- R529: the sweep of a valve after the status word that follows its test pulse: the width is recorded where the armature moved; a
sweep whose next width passes 1,000,000 ns ends without movement. -/
def Sweep.after (x : Sweep) (moved : Bool) (step : Nat) : Sweep :=
  if moved then { x with waits := false, found := x.found ++ [x.width], width := 10000 }
  else if 1000000 < x.width + step then { x with waits := false, still := true }
  else { x with waits := false, width := x.width + step }

/-- R529: a status word follows a test pulse of valve `v`. -/
def State.calThreshold (s : State) (v w : Nat) : State :=
  let x := look s.cal.sweeps {} v
  if (s.valve v).tested && x.waits && (s.calRunning 5 v).isSome then
    { s with cal := { s.cal with
        sweeps := enlist s.cal.sweeps v (x.after (w % 65536 != 0) (s.rdN Obj.CAL_THRESH_STEP_NS)) } }
  else s

/-- R281, R284, R528, R529: a STATUS is received. -/
def execValveStatus (t : Nat) (link : Fin 32) (words : List Nat) (board : Nat) (crcOk : Bool) (s : State) : Result :=
  let s := s.at t
  if !s.linkEnabled link then .next s
  else if !crcOk then .next ((s.count Obj.EJ_LINK_CRC_ERRORS 0 link 1).vbError link)
  else
    let s := words.zipIdx.foldl (fun s x =>
      let v := 64 * link.val + x.2
      let s := (s.calLatency v x.1).calThreshold v x.1
      s.setValve v { s.valve v with ran := none, tested := false }) s
    .next (s.valveStatus link words board)

/-! ## Test pulses (R523, R529) -/

/-- The times `a` to `b` come within `d` of `c` to `e`. -/
def within (a b c e d : Int) : Bool := decide (a - d ≤ e) && decide (c ≤ b + d)

/-- R529: the times from lead to trail of an order in the queue; in surface mode the predicted ones. -/
def State.flightTimes (s : State) (f : Flight) : Int × Int :=
  if f.transit.surface then (s.beltTime f.transit.lead, s.beltTime f.transit.trail)
  else (f.transit.lead, f.transit.trail)

/-- R529: no pulse of valve `v` comes within `d` of the times `on` to `off`. -/
def State.pulseFree (s : State) (v : Nat) (on off d : Int) : Bool :=
  (s.pulsesOf v).all (fun q => !q.timed || !within on off q.on q.off d) &&
    (match (s.valve v).lastOff with
     | some x => decide (x + d < on)
     | none => true)

/-- R529: a frame with a test pulse from `on` to `off` is a test moment of valve `v`. -/
def State.testMoment (s : State) (v : Nat) (on off : Int) : Bool :=
  let idle : Int := s.rdN Obj.EJ_PC_IDLE_NS
  let clear : Int := s.rdN Obj.CAL_THRESH_CLEAR_NS
  (v :: s.neighbours v).all (fun u => s.pulseFree u on off idle) &&
    s.bank.flights.all (fun f =>
      let x := s.flightTimes f
      !(f.transit.row == s.rdN Obj.EJ_VALVE_ROW 0 v && decide (f.west ≤ s.rd Obj.EJ_VALVE_EAST_UM 0 v) &&
        decide (s.rd Obj.EJ_VALVE_WEST_UM 0 v ≤ f.east) && within on off x.1 x.2 clear))

/-- R523: the objects that a forced test pulse meets are marked. -/
def State.markTests (s : State) (target : Nat) (time : Int) : State :=
  let d : Int := s.rdN Obj.CAL_THRESH_CLEAR_NS
  s.cal.passing.foldl (fun s x =>
    if x.rows.any (fun r => within r r time time d) then s.calMark 5 target x.first x.last x.port else s) s

/-- R523, R529: the test pulse of valve `v` goes into frame `k`, if the frame is a test moment or the run is forced. -/
def State.planTest (s : State) (r : CalRequest) (v k : Nat) : State :=
  let x := look s.cal.sweeps {} v
  let on : Int := 5000 * (k : Int)
  let off := on + x.width
  let ok := if r.forcing then s.pulseFree v on off 0 else s.testMoment v on off
  if x.waits || x.still || 3 ≤ x.found.length || !ok || 32 ≤ (s.pulsesOf v).length || !(s.valve v).again.isEmpty then s
  else
    let p : Pulse := { id := s.bank.nextId, valve := v, pre := true, test := true, on := on, off := off }
    let s := { s with
      bank := { s.bank with pulses := s.bank.pulses ++ [p], nextId := s.bank.nextId + 1 }
      cal := { s.cal with sweeps := enlist s.cal.sweeps v { x with waits := true } } }
    if r.forcing then
      let old := s.cal.tests.filter (fun y => decide (on < y.2 + 1000000000))
      { s with cal := { s.cal with tests := old ++ [(r.target, on)] } }.markTests r.target on
    else s

/-- R529: the test pulses that go into frame `k` of a link: in RUN, with the bank not blocked. -/
def State.planTests (s : State) (link k : Nat) : State :=
  if s.mode ≠ stRun || s.gated || !s.linkUp link then s
  else
    (s.cal.queue.filter (fun r => r.task == 5 && r.started)).foldl (fun s r =>
      (r.left.filter (fun v => v / 64 == link && s.valveAble v)).foldl (fun s v => s.planTest r v k) s) s

/-- R529: a test pulse that was dropped before it was sent is sent again at the next test moment. -/
def State.retest (s : State) : State :=
  { s with cal := { s.cal with sweeps := s.cal.sweeps.map (fun (x : Nat × Sweep) =>
      if x.2.waits && !(s.valve x.1).tested && !s.bank.pulses.any (fun p => p.valve == x.1 && p.test) then
        (x.1, { x.2 with waits := false })
      else x) } }

/-- R251: a frame freezes, with the test pulses of R529. Frames before it freeze before it where they hold an edge. -/
def execFrameFreeze (t : Nat) (link : Fin 32) (k : Nat) (s : State) : Result :=
  let s := s.at t
  let open_ := fun (x : Int) => decide (((s.vbl link).next : Int) ≤ frameOf x) && decide (frameOf x < k)
  let due := fun (p : Pulse) =>
    p.valve / 64 == link.val &&
      ((p.timed && p.onEdge == .planned && open_ p.on) || (p.onEdge != .planned && p.offEdge == .planned && open_ p.off))
  if s.linkEnabled link && decide ((s.vbl link).next ≤ k) && decide (s.freezeTime link k ≤ s.now) &&
      !s.bank.pulses.any due then
    .next ((s.retest.planTests link k).freezeFrame link k)
  else .next s

/-! ## Results (R524 to R531, R535) -/

/-- R526: whether a site of port `p` is valid: in the span of the line that entered last, and not masked. -/
def State.siteValid (s : State) (p : Nat) (row col : Nat) : Bool :=
  let sp := match (s.rcp p).center with
    | some x => x.cap.spans.getD row (0, s.camC p)
    | none => (0, s.camC p)
  decide (sp.1 ≤ col) && decide (col < sp.2) && !s.masked p col

/-- R526: the new reference of a site, from its samples. -/
def plateRefOf (x : Nat × Int) : Nat := min 65535 (rnd x.2 (x.1 * 16384)).toNat

/-- R526: a site's new reference deviates from its old one by more than the tolerance. -/
def plateDeviates (new old tol : Nat) : Bool := decide (tol * old < 1024 * natDist new old)

/-- R526: PLATE_REF of port `p` completes. -/
def State.resultPlate (s : State) (p : Nat) : State :=
  match s.calRunning 1 p with
  | none => s
  | some r =>
    let c := s.camC p
    let rows := layoutRows (s.rdN Obj.CAM_LAYOUT p)
    let got := look s.cal.plate [] p
    let n := s.rdN Obj.CAL_PLATE_LINES
    let idx := (List.range rows).flatMap (fun y => (List.range c).map (fun x => (y, x)))
    let old := s.rdBlob Obj.RC_FF_PLATE_REF p
    let refs := idx.map (fun q =>
      let i := q.1 * c + q.2
      let new := plateRefOf (got.getD i (0, 0))
      let was := leAt old (2 * i) 2
      if !s.siteValid p q.1 q.2 then (0, false)
      else if !old.isEmpty && plateDeviates new was (s.rdN Obj.CAL_PLATE_TOL) then (was, true)
      else (new, false))
    if s.flag Obj.CAM_ENABLE p && idx.any (fun q =>
        s.siteValid p q.1 q.2 && decide ((got.getD (q.1 * c + q.2) (0, 0)).1 < n)) then s
    else if !s.flag Obj.CAM_ENABLE p then (s.calReject 1 p 4 r.marked).calDone 1 p
    else if s.calBeaten (Obj.RC_FF_PLATE_REF.key p 0) then (s.calReject 1 p 3 r.marked).calDone 1 p
    else if idx.any (fun q => s.siteValid p q.1 q.2 && (siteAt (s.rcp p).sites c q.1 q.2).stale) then
      (s.calReject 1 p 2 r.marked).calDone 1 p
    else if s.rdN Obj.CAL_PLATE_BAD_MAX < (refs.filter (fun x => x.2)).length then
      (s.calReject 1 p 1 r.marked).calDone 1 p
    else ((s.stageEpochBlob Obj.RC_FF_PLATE_REF p 0 (refs.flatMap (fun x => toLe 2 x.1))).calAccept 1 p r.marked).calDone 1 p

/-- R527: the live map of port `p` with the online list, SIDE 2 and KIND 3, sorted. -/
def State.mergedMap (s : State) (p : Nat) : List Nat :=
  let live := mapEntries (s.rdBlob Obj.RC_DEFECT_MAP p)
  let more := ((s.rcp p).online.filter (fun o => o.stop.isNone)).map (fun o => onlineWord o + 3 * 4096)
  sortBy (fun (a b : Nat) => decide (a ≤ b))
    (live ++ more.filter (fun w => !live.any (fun e => e / 65536 == w / 65536)))

/-- R100: a map blob of these entries; none for no entry. -/
def mapBlob (c : Nat) (ws : List Nat) : List Byte :=
  let body := ws.flatMap (toLe 4)
  if ws.isEmpty then [] else toLe 4 0x314d4644 ++ toLe 2 ws.length ++ toLe 2 c ++ toLe 4 0 ++ toLe 4 (crc32c body) ++ body

/-- R527: DEFECT_MERGE of port `p` completes. -/
def State.resultMerge (s : State) (p : Nat) : State :=
  match s.calRunning 2 p with
  | none => s
  | some _ =>
    let ws := s.mergedMap p
    let blob := mapBlob (s.camC p) ws
    if !s.flag Obj.CAM_ENABLE p then (s.calReject 2 p 4).calDone 2 p
    else if s.calBeaten (Obj.RC_DEFECT_MAP.key p 0) then (s.calReject 2 p 3).calDone 2 p
    else if 1024 < ws.length || !mapFits blob (s.rdN Obj.CAM_LAYOUT p) (s.rdN Obj.CAM_WIDTH p) then
      (s.calReject 2 p 1).calDone 2 p
    else (((s.stageEpochBlob Obj.RC_DEFECT_MAP p 0 blob).putN Obj.RC_DEFECT_MAP_STATE p 0 2).calAccept 2 p).calDone 2 p

/-- R524: a valve's target is unavailable: dead, unused, or on a link that is down. -/
def State.valveGone (s : State) (v : Nat) : Bool := s.valveState v == 0 || s.valveState v == 3 || !s.linkUp (v / 64)

/-- R528: the bin of a latency step. -/
def driftBin (new old : Int) : Nat := (clampInt 0 31 (16 + (new - old) / 5000)).toNat

/-- R528: the latency of valve `v` has its samples, or its valve is gone. Samples restart after each result. -/
def State.resultLatency (s : State) (v : Nat) : State :=
  let a := look s.cal.latency (0, 0) v
  let n := s.rdN Obj.CAL_LAT_SAMPLES
  let gone := (s.calRunning 4 v).isSome && s.valveGone v
  if a.1 < n && !gone then s
  else
    let old := s.rd Obj.EJ_VALVE_OPEN_LAT_NS 0 v
    let l := rnd (100 * (a.2 : Int)) n
    let cause :=
      if gone then 4
      else if s.calBeaten (Obj.EJ_VALVE_OPEN_LAT_NS.key 0 v) then 3
      else if s.rdN Obj.CAL_LAT_STEP_MAX < absNat (l - old) || l < 100000 || 6553500 < l then 1
      else 0
    let s :=
      if cause = 0 then
        let s := (s.put Obj.EJ_VALVE_OPEN_LAT_NS 0 v l).calAccept 4 v
        s.bin Obj.ALM_HIST_LAT_DRIFT 0 (driftBin l old) 1 Obj.ALM_HIST_SAT 0 6 (driftBin l old)
      else s.calReject 4 v cause
    let s := { s with cal := { s.cal with latency := unlist s.cal.latency v } }
    (s.calWatch (Obj.EJ_VALVE_OPEN_LAT_NS.key 0 v)).calDone 4 v

/-- R529: the sweeps of valve `v` have ended, or its valve is gone. -/
def State.resultThreshold (s : State) (v : Nat) : State :=
  match s.calRunning 5 v with
  | none => s
  | some r =>
    let x := look s.cal.sweeps {} v
    let least := x.found.foldl (fun a w => min a w) (x.found.headD 0)
    if !s.valveGone v && !x.still && x.found.length < 3 then s
    else
      let cause :=
        if s.valveGone v then 4
        else if s.calBeaten (Obj.EJ_VALVE_OPEN_THRESH_NS.key 0 v) then 3
        else if x.still then 2
        else if least < 10000 || 1000000 < least then 1
        else 0
      let s :=
        if cause = 0 then (s.putN Obj.EJ_VALVE_OPEN_THRESH_NS 0 v least).calAccept 5 v r.marked
        else s.calReject 5 v cause r.marked
      { s with cal := { s.cal with sweeps := unlist s.cal.sweeps v } }.calDone 5 v

/-- R535: the self-test of pipeline `q` that a request asked for has ended; its result stands in `BIST_PIPE_RESULT`. -/
def State.resultBist (s : State) (q : Nat) : State :=
  if (s.calRunning 6 q).isNone || look s.cal.bist 0 q = 0 then s
  else
    let s := { s with cal := { s.cal with bist := unlist s.cal.bist q } }
    (s.calAccept 6 q).calDone 6 q

/-- R530: 20 cells that qualify and make one bit period, in ps. -/
def vernierOk (delays : List Nat) (cells : Nat) : Bool :=
  let chosen := (delays.zipIdx.filter (fun x => cells.testBit x.2)).map (fun x => x.1)
  chosen.length == 20 && chosen.all (fun d => decide (150 ≤ d) && decide (d ≤ 350)) &&
    decide (4750 ≤ sumNat chosen) && decide (sumNat chosen ≤ 5250)

/-- R530: the cells of link `l` have been measured: the selection is switched in, or refused. -/
def State.vernier (s : State) (l : Nat) (delays : List Nat) (cells : Nat) : State :=
  let s := { s with cal := { s.cal with vernierAt := enlist s.cal.vernierAt l s.now } }
  if vernierOk delays cells then (s.putN Obj.CAL_VERNIER_CELLS 0 l cells).calAccept 7 l else s.calReject 7 l 1

/-- R530: the VERNIER that a request asked for completes. -/
def State.resultVernier (s : State) (l : Nat) (delays : List Nat) (cells : Nat) : State :=
  if (s.calRunning 7 l).isNone then s
  else if s.linkUp l then (s.vernier l delays cells).calDone 7 l
  else (s.calReject 7 l 4).calDone 7 l

/-- R524: a task completes. The maps of task 3 come port by port (R191); its request is complete once every enabled port has
finished. -/
def execCalResult (t : Nat) (outcome : CalOutcome) (s : State) : Result :=
  let s := s.at t
  let s :=
    match outcome with
    | .plateRef p => s.resultPlate p
    | .defectMerge p => s.resultMerge p
    | .stitch =>
      if s.rdN Obj.ST_CAL_STATE = 1 &&
          (List.range 12).all (fun k => !s.flag Obj.CAM_ENABLE k || s.st.calDone.contains k) then
        (s.putN Obj.ST_CAL_STATE 0 0 (if s.st.calBad then 3 else 2)).calDone 3 0
      else s
    | .latency v => s.resultLatency v
    | .threshold v => s.resultThreshold v
    | .bist q => s.resultBist q
    | .vernier l delays cells => s.resultVernier l delays cells
  .next s.calServe

/-- R530: VERNIER runs on every up link every 10 s. -/
def execVernierPeriodic (t : Nat) (link : Fin 32) (delays : List Nat) (cells : Nat) (s : State) : Result :=
  let s := s.at t
  let due := match find? s.cal.vernierAt link.val with
    | none => true
    | some x => decide (x + 10000000000 ≤ s.now)
  .next (if s.linkUp link && due && (s.calRunning 7 link).isNone then s.vernier link delays cells else s)

/-- R531: an element lies within 0.5 % of the mean of `n` elements that sum to `sum`. -/
def elementOk (n sum e : Nat) : Bool := decide (200 * natDist (n * e) sum ≤ sum)

/-- R531: the set of DAC elements in use after a rotation; none where fewer than 7 qualify. The mean is that of all nine
elements. -/
def rotateSet (elements : List Nat) (used : List Nat) : Option (List Nat) :=
  let sum := sumNat elements
  let ok := fun (i : Nat) => elementOk 9 sum (elements.getD i 0)
  let far := fun (i : Nat) => natDist (9 * elements.getD i 0) sum
  if ((List.range 9).filter ok).length < 7 then none
  else
    match (List.range 9).find? (fun i => !used.contains i && ok i),
        bestValve (fun a b => decide (far b < far a)) used with
    | some new, some worst => some (used.map (fun i => if i = worst then new else i))
    | _, _ => some used

/-- R531: MODULATOR measures the elements of an enabled channel and swaps one. -/
def execModulatorRotate (t : Nat) (channel : Fin 16) (elements : List Nat) (s : State) : Result :=
  let s := s.at t
  let due := match find? s.cal.rotatedAt channel.val with
    | none => true
    | some x => decide (x + s.rdN Obj.CAL_AM_ROTATE_MS * 1000000 ≤ s.now)
  if !s.amBit channel amEnabled || !due then .next s
  else
    let s := { s with cal := { s.cal with rotatedAt := enlist s.cal.rotatedAt channel.val s.now } }
    match rotateSet elements (look s.cal.dac [0, 1, 2, 3, 4, 5, 6] channel) with
    | none => .next (s.calReject 0 channel 1)
    | some l => .next ({ s with cal := { s.cal with dac := enlist s.cal.dac channel.val l } }.calAccept 0 channel)

/-- R533: the settings store is being written: a copy of 1 MiB at the 800 MB/s of the Vault (R538, R557; log entry 284). -/
def State.storeRuns (s : State) : Bool := s.cal.storing.any (fun x => decide (s.now < x + 1310720))

/-- R533, R540, R559: `CAL_STORE_STATE` as it reads. -/
def State.storeState (s : State) : Nat :=
  if s.storeRuns then 2 else if s.vault.storeBad then 3 else boolNat s.vault.store.isSome

/-- R559: a write of the settings store that runs is abandoned: its copy fails its CRC, and the other stays in use. -/
def State.storeAbandon (s : State) : State :=
  if !s.storeRuns then s
  else { s with
    vault := { s.vault with store := s.vault.storeOld, storeOld := none, storeBad := true }
    cal := { s.cal with storing := none } }

/-- R542: `CAL_STATUS` as it reads: STARVED and REJECTED are kept, the rest follows the engine. -/
def State.calStatus (s : State) : Nat :=
  let q := s.cal.queue
  let w := s.rdN Obj.CAL_STATUS
  let w := withBit w 7 (s.vault.storeOld.isSome || (s.vault.store.isSome && !s.storeRuns))
  let w := withBit w 6 (q.any (fun r => r.forcing))
  let w := withBit w 3 (s.flag Obj.CAL_LAT_AUTO)
  let w := withBit w 2 (q.length == 16)
  let w := withBit w 1 (q.any (fun r => r.started))
  withBit w 0 (decide (s.mode ≠ stBoot))

/-- R542: a read of `CAL_STATUS` clears STARVED and REJECTED. -/
def execCalStatusRead (t : Nat) (path : Path) (s : State) : Result :=
  let s := (s.at t).touch path
  let k := Obj.CAL_STATUS.key 0 0
  let s := (s.emit (.value path k s.calStatus)).answer path k 0
  .next ((s.setBit Obj.CAL_STATUS 0 0 calStarved false).setBit Obj.CAL_STATUS 0 0 calRejected false)

/-! ## The settings store (R533) -/

/-- R533: what the store holds. -/
def storeRows : List ObjRow := [
  Obj.RC_DEFECT_MAP, Obj.RC_FF_PLATE_REF, Obj.ST_MAP, Obj.ST_ORDER, Obj.ST_SEAM_X, Obj.ST_WEST_SEAM_X,
  Obj.ST_EAST_SEAM_X, Obj.ST_CAL_TARGET, Obj.VD_PROGRAM, Obj.CLASS_TABLE, Obj.EP_ACCEL, Obj.EP_SCAN_FALL_UM,
  Obj.EP_ROW_FALL_UM, Obj.EP_ROW_COUNTS, Obj.EJ_VALVE_OPEN_LAT_NS, Obj.EJ_VALVE_OPEN_THRESH_NS]

/-- The repetitions and elements of an object. -/
def ObjRow.cells (o : ObjRow) : List (Nat × Nat) :=
  (List.range o.blocks).flatMap (fun b => (List.range o.count).map (fun e => (b, e)))

/-- R533: the present value of an object, the staged one first. -/
def State.storeValue (s : State) (o : ObjRow) (b e : Nat) : Int :=
  match find? s.staged (o.key b e) with
  | some v => v
  | none =>
    match (s.stageGroups o b e).findSome? (fun g => find? s.epochs.staged (epochKey o b e g)) with
    | some v => v
    | none => s.rd o b e

/-- R533: the present blob of an object, the staged one first. -/
def State.storeBlob (s : State) (o : ObjRow) (b e : Nat) : List Byte :=
  match find? s.stagedBlobs (o.key b e) with
  | some v => v
  | none =>
    match (s.stageGroups o b e).findSome? (fun g => find? s.epochs.stagedBlobs (epochKey o b e g)) with
    | some v => v
    | none => s.rdBlob o b e

/-- R533: the settings as the store takes them; a value that is still its object's default takes no place. -/
def State.storeTake (s : State) : Tab Int × Tab (List Byte) :=
  let ints := (storeRows.filter (fun o => !o.isBytes)).flatMap (fun o => (o.cells.map (fun x =>
    (o.key x.1 x.2, s.storeValue o x.1 x.2, o.dfltAt x.2))).filter (fun x => x.2.1 != x.2.2))
  let blobs := (storeRows.filter (fun o => o.isBytes)).flatMap (fun o => (o.cells.map (fun x =>
    (o.key x.1 x.2, s.storeBlob o x.1 x.2))).filter (fun x => x.2 != o.blob))
  (ints.map (fun x => (x.1, x.2.1)), blobs)

/-- R533: a write of `CAL_STORE_CMD`: PREOP only. -/
def State.storeCmd (s : State) (path : Path) (f : State → State) : State :=
  let s := s.touch path
  let k := Obj.CAL_STORE_CMD.key 0 0
  match s.checkAccess path Obj.CAL_STORE_CMD 0 0 1 with
  | 0 => if s.mode = stPreop then (f s).answer path k 0 else s.answer path k 4
  | r => s.answer path k r

/-- R533: `CAL_STORE_CMD` = 1: the copy that is not in use is written. -/
def execCalStore (t : Nat) (path : Path) (s : State) : Result :=
  .next ((s.at t).storeCmd path (fun s => { s with
    vault := { s.vault with store := some s.storeTake, storeOld := s.vault.store, storeBad := false }
    cal := { s.cal with storing := some s.now } }))

/-- R533: `CAL_STORE_CMD` = 2. -/
def execCalStoreClear (t : Nat) (path : Path) (s : State) : Result :=
  .next ((s.at t).storeCmd path (fun s =>
    { s with vault := { s.vault with store := none, storeOld := none, storeBad := false }, cal := { s.cal with storing := none } }))

/-- R533: a stored value is written as its owner would; none where a check refuses it. -/
def State.storeInt (s : State) (k : Nat) (v : Int) : Option State :=
  match objAt k with
  | none => none
  | some (o, b, e) =>
    if !o.rangeOk v || !s.relationOk o b e v || (o.index == Obj.CLASS_TABLE.index && !classEntryOk e v.toNat) then none
    else
      match o.effect with
      | .preop => some (s.stage o b e v)
      | .epoch => some (s.stageEpoch o b e v)
      | _ => some (s.put o b e v)

/-- R533: a stored blob is written as its owner would; none where a check refuses it. -/
def State.storeBytes (s : State) (k : Nat) (v : List Byte) : Option State :=
  match objAt k with
  | none => none
  | some (o, b, e) =>
    if o.name = Obj.RC_DEFECT_MAP.name then
      if mapFits v (s.lastN Obj.CAM_LAYOUT b) (s.lastN Obj.CAM_WIDTH b) then
        some ((s.stageEpochBlob o b 0 v).putN Obj.RC_DEFECT_MAP_STATE b 0 2)
      else none
    else if o.name = Obj.RC_FF_PLATE_REF.name then
      if v.length = 2 * s.lastN Obj.CAM_WIDTH b then some (s.stageEpochBlob o b 0 v) else none
    else if o.name = Obj.ST_MAP.name then
      if mapOk v (rowWidth (s.lastN Obj.CAM_LAYOUT b) (s.lastN Obj.CAM_WIDTH b)) then some (s.stageBlob o b 0 v) else none
    else if o.name = Obj.VD_PROGRAM.name then
      if s.vdCheck e v = 0 then some ((s.putN Obj.VD_STATE 0 e 2).stageEpochBlob o b e v) else none
    else if targetOk v then some (s.putBlob o b e v) else none

/-- R533: entry to PREOP after a power loss writes every stored value; one that is refused is skipped and counted. -/
def State.storeRestore (s : State) : State :=
  match s.vault.store with
  | none => s
  | some (ints, blobs) =>
    let keep := fun (s : State) (x : Option State) => x.getD (s.count Obj.CAL_STORE_SKIPPED 0 0 1)
    let s := ints.foldl (fun s x => keep s (s.storeInt x.1 x.2)) s
    blobs.foldl (fun s x => keep s (s.storeBytes x.1 x.2)) s

/-! ## The Almanac (R536 to R539) -/

/-- R536, R541: the keys of what the image holds. -/
def almanacKey (k : Nat) : Bool :=
  (decide (Obj.ALM_POWER_ON_HOURS.index * 256 ≤ k) && decide (k < Obj.ALM_GENERATION.index * 256)) ||
    (decide (Obj.ALM_HIST_TEMP.index * 256 ≤ k) && decide (k < (Obj.ALM_HIST_SAT.index + 1) * 256)) ||
    (decide (Obj.EJ_VALVE_PULSES.key 0 0 ≤ k) && decide (k < Obj.EJ_VALVE_PULSES.key 0 0 + 2048))

/-- The cells of an object's repetition 0, `n` of them. -/
def firstCells (o : ObjRow) (n : Nat) : List (ObjRow × Nat × Nat) := (List.range n).map (fun e => (o, 0, e))

/-- R536, R538: the counters of the image, before and after the hour residue. -/
def almCounters : List (ObjRow × Nat × Nat) :=
  [(Obj.ALM_POWER_ON_HOURS, 0, 0), (Obj.ALM_SAVES, 0, 0), (Obj.ALM_OBJECTS, 0, 0), (Obj.ALM_FAILOVERS, 0, 0)]

/-- R538. -/
def almTotals : List (ObjRow × Nat × Nat) :=
  firstCells Obj.EJ_VALVE_PULSES 2048 ++ firstCells Obj.ALM_ECC_CORR 128 ++ firstCells Obj.ALM_RETRAINS 8

/-- R537, R538: the histograms of the image in the order of R537, and the SAT masks. -/
def almBins : List (ObjRow × Nat × Nat) :=
  ([(Obj.ALM_HIST_TEMP, 4), (Obj.ALM_HIST_SAG, 1), (Obj.ALM_HIST_ENERGY, 1), (Obj.ALM_HIST_LAT_DRIFT, 1), (Obj.ALM_HIST_LINK, 3),
      (Obj.ALM_HIST_LINE_RATE, 12)].flatMap (fun x =>
    (List.range x.2).flatMap (fun b => (List.range 32).map (fun e => (x.1, b, e))))) ++
  firstCells Obj.ALM_HIST_SAT 22

/-- R538: the bytes of the image of generation `gen`; VERSION is read as four bytes behind MAGIC (log entry 283). -/
def State.almImage (s : State) (gen : Nat) : List Byte :=
  let nums := fun (n : Nat) (l : List (ObjRow × Nat × Nat)) => l.flatMap (fun x => toLe n (s.rdN x.1 x.2.1 x.2.2))
  let body := nums 8 almCounters ++ toLe 8 s.cal.residue ++ nums 8 almTotals ++ nums 4 almBins
  toLe 4 0x4e4d4c41 ++ toLe 4 1 ++ toLe 8 gen ++ toLe 8 s.now ++ List.replicate 36 0 ++ toLe 4 (crc32c body) ++ body

/-- R538: a copy of the image is valid. -/
def almOk (b : List Byte) : Bool :=
  b.length == 20480 && leAt b 0 4 == 0x4e4d4c41 && leAt b 4 4 == 1 && leAt b 60 4 == crc32c (b.drop 64)

/-- R538: the counters and histograms are taken from an image. -/
def State.almLoad (s : State) (b : List Byte) : State :=
  let load := fun (s : State) (from_ n : Nat) (l : List (ObjRow × Nat × Nat)) => l.zipIdx.foldl (fun s x =>
    let v := leAt b (from_ + n * x.2) n
    if v = 0 then s else s.putN x.1.1 x.1.2.1 x.1.2.2 v) s
  let s := { s with cal := { s.cal with residue := leAt b 96 8 } }
  load (load (load s 64 8 almCounters) 104 8 almTotals) 17576 4 almBins

/-- R342, R538: the Almanac image and the watermarks are written to the Vault: the two copies alternate. -/
def State.almanacWrite (s : State) : State :=
  let gen := s.rdN Obj.ALM_GENERATION + 1
  let img := s.almImage gen
  let v := { s.vault with
    seqMark := s.rdN Obj.LG_NEXT_SEQ + 244000000, orderMark := s.rdN Obj.LG_NEXT_ORDER + 244000000 }
  let v := if gen % 2 = 0 then { v with almA := some img } else { v with almB := some img }
  ({ s with vault := v, cal := { s.cal with written := s.now, writing := none } }.putN Obj.ALM_GENERATION 0 0 gen).putN
    Obj.ALM_LAST_WRITE 0 0 s.now

/-- R538, R543: a periodic write of the image runs: 25.6 µs. -/
def State.almRuns (s : State) : Bool := s.cal.writing.any (fun x => decide (s.now < x + 25600))

/-- R538, R559: a periodic write that runs is abandoned: its copy holds no image, and the next write goes to the same copy. -/
def State.almAbandon (s : State) : State :=
  if !s.almRuns then s
  else
    let gen := s.rdN Obj.ALM_GENERATION
    let v := if gen % 2 = 0 then { s.vault with almA := none } else { s.vault with almB := none }
    { s with vault := v, cal := { s.cal with writing := none } }.putN Obj.ALM_GENERATION 0 0 (gen - 1)

/-- R538: the image is written every 60 s. -/
def execAlmanacWrite (t : Nat) (s : State) : Result :=
  let s := s.at t
  .next (if s.mode ≠ stBoot && s.cal.written + 60000000000 ≤ s.now then
    let now := s.now
    let s := s.almanacWrite
    { s with cal := { s.cal with writing := some now } }
  else s)

/-- R537: a sample joins histogram `h` in the order of R537: bin `i` of object `o`. -/
def State.almBin (s : State) (o : ObjRow) (b h i : Nat) : State := s.bin o b i 1 Obj.ALM_HIST_SAT 0 h i

/-- R537: the bin of a temperature in °C. -/
def tempBin (c : Int) : Nat := (clampInt 0 31 ((c + 40) / 5)).toNat

/-- R537: the bin of the CXL link. -/
def State.cxlBin (s : State) : Nat :=
  let w := s.rdN Obj.CX_LINK_STATUS
  if !s.cxl.linkUp then 0
  else 1 + 3 * fieldOf w 0 3 + (match s.cxl.width with | 4 => 0 | 8 => 1 | _ => 2)

/-- R537: the bin of a chord link. -/
def State.chordBin (s : State) (k : Nat) : Nat :=
  if !s.chBit k csUp then 0
  else
    match fieldOf (s.rdN Obj.CH_STATUS 0 k) 9 2 with
    | 1 => 16
    | 2 => 17
    | _ => 1 + 3 * boolNat (!s.chBit k csRate16) + (match s.chWidth k with | 3 => 0 | 1 => 1 | _ => 2)

/-- R537: the bin of a port's lines of one second. -/
def State.lineBin (s : State) (p : Nat) : Nat :=
  min 31 (32 * (s.cam p).second * s.rdN Obj.TG_MIN_PERIOD_NS 0 p / 1000000000)

/-- R536: one more second out of BOOT. -/
def State.almSecond (s : State) : State :=
  if s.cal.residue + 1 < 3600 then { s with cal := { s.cal with residue := s.cal.residue + 1 } }
  else { s with cal := { s.cal with residue := 0 } }.count Obj.ALM_POWER_ON_HOURS 0 0 1

/-- R537: the samples of one second. -/
def State.almSample (s : State) : State :=
  let s :=
    if s.mode = stSave then s
    else (List.range 4).foldl (fun s g => s.almBin Obj.ALM_HIST_TEMP g g (tempBin (s.rd Obj.PW_TEMP 0 g))) s
  let s := s.almBin Obj.ALM_HIST_LINK 0 7 s.cxlBin
  let s := (List.range 2).foldl (fun s k => s.almBin Obj.ALM_HIST_LINK (1 + k) (8 + k) (s.chordBin k)) s
  let s :=
    if !s.lining then s
    else ((List.range 12).filter (fun p => s.flag Obj.CAM_ENABLE p)).foldl (fun s p =>
      s.almBin Obj.ALM_HIST_LINE_RATE p (10 + p) (s.lineBin p)) s
  (List.range 12).foldl (fun s p => s.setCam p { s.cam p with second := 0 }) s

/-- R536, R537: every 1 s outside BOOT. -/
def execAlmanacSample (t : Nat) (s : State) : Result :=
  let s := s.at t
  if s.mode = stBoot || s.now < s.cal.sampled + 1000000000 then .next s
  else .next ({ s with cal := { s.cal with sampled := s.now } }.almSecond.almSample)

/-- R8, R543: bit 63 of a counter, or a full bin, says that it has saturated. -/
def State.almSaturated (s : State) : Bool :=
  s.dict.any (fun x => almanacKey x.1 &&
    (if Obj.ALM_HIST_TEMP.index * 256 ≤ x.1 then x.1 / 256 == Obj.ALM_HIST_SAT.index else decide ((2 ^ 63 : Int) ≤ x.2)))

/-- R543: `ALM_STATUS` as it reads. -/
def State.almStatus (s : State) : Nat := withBit (withBit (s.rdN Obj.ALM_STATUS) 3 s.almSaturated) 1 s.almRuns

end Sys2Proof.Machine
end

