-- ==== Sys2Proof/Machine/Lines.lean ====
section
/-! DEFINITION. Line triggers, the opening of epochs at them, and the way of a line through its pipeline
(spec/02_timebase_and_position.md, R41, R53 to R57; spec/01_curtain_and_coordinates.md, R24 to R34; R72, R79, R113, R147). -/

namespace Sys2Proof.Machine

open Sys2Proof

/-! ## Epochs (R30 to R34, R79, R80) -/

/-- R99: exposure or gain of port `p` differ from what its last epoch had. -/
def State.exposureChanged (s : State) (p : Nat) : Bool :=
  s.rd Obj.CAM_EXPOSURE p != s.rd Obj.CAM_EXPOSURE_LIVE p || s.rd Obj.CAM_GAIN p != s.rd Obj.CAM_GAIN_LIVE p

/-- R18: what a port of a group has, before its epoch opens, of the blobs whose going live is an event of its own. -/
structure PortBlobs where
  port        : Nat
  /-- The defect map, and whether one is staged. -/
  map         : List Byte
  mapStaged   : Bool
  /-- The atlas, and whether one is staged that this epoch takes. -/
  atlas       : List Byte
  atlasStaged : Bool
deriving DecidableEq, Repr

/-- R18: the blobs of port `p`. -/
def State.portBlobs (s : State) (p : Nat) : PortBlobs :=
  { port := p, map := s.rdBlob Obj.RC_DEFECT_MAP p
    mapStaged := (find? s.epochs.stagedBlobs (Obj.RC_DEFECT_MAP.key p 0)).isSome
    atlas := s.rdBlob Obj.AT_BLOB p, atlasStaged := (s.atStaged p).isSome }

/-- R18, R163: what one enabled port of a group does at the first line `f` of epoch `ep`. A staged atlas swaps whatever it
holds. -/
def State.portEpoch (s : State) (g ep f : Nat) (x : PortBlobs) : State :=
  let p := x.port
  let s := s.rcEpoch p f (s.exposureChanged p) (s.rdBlob Obj.RC_DEFECT_MAP p != x.map) x.mapStaged
  let s := (s.put Obj.CAM_EXPOSURE_LIVE p 0 (s.rd Obj.CAM_EXPOSURE p)).put Obj.CAM_GAIN_LIVE p 0 (s.rd Obj.CAM_GAIN p)
  let s := s.rgEpoch p ep
  let s := if x.atlasStaged then s.atSwap p f x.atlas else s
  let s := s.atChecks p (classTableCrc (s.classTable g ep))
  s.camBit p camSkewBit ((s.cam p).skewed.contains ep)

/-- R32: epoch `ep` of group `g` opens at line `f`: what is staged for it becomes live, but for atlases whose shadows are being
reloaded (R156). -/
def State.openEpoch (s : State) (g ep f : Nat) : State :=
  let ports := s.groupPorts g
  let d := s.atDefer ports
  let before := ports.map d.1.portBlobs
  let s := (d.1.takeStaged g ep).atRestage d.2
  let s := ((s.putN Obj.EPOCH_ID 0 g ep).putN Obj.EPOCH_FIRST_LINE 0 g f).putN Obj.EPOCH_PENDING 0 g 0
  let s := before.foldl (fun s x => s.portEpoch g ep f x) s
  (((s.vdEpoch g ep f).epEpoch g ep (f == 1)).rotateAt g).calServe

/-- R79: port `p` writes each setting of epoch `ep`, whose first line is `f`, that the camera was not sent last: `v` gives the
settings of that epoch as they stand now. -/
def State.camEpochWrites (s : State) (p ep f : Nat) (v : ObjRow → Int) : State :=
  [false, true].foldl (fun (s : State) gain =>
    let x := v (if gain then Obj.CAM_GAIN else Obj.CAM_EXPOSURE)
    if s.camRegAddr p gain = 0 || x = look (s.cam p).sent 0 (boolNat gain) then s
    else s.issueWrite p (s.camWrite p gain x.toNat ep f) x) s

/-- R80: after the trigger of an epoch's first line, each register written for it is read back where `CAM_SKEW_SOURCE` is 1. -/
def State.camReadbacks (s : State) (p : Nat) : State :=
  let ws := (s.cam p).issued
  let s := s.setCam p { s.cam p with issued := [] }
  if s.rdN Obj.CAM_SKEW_SOURCE p = 1 then ws.foldl (fun s w => s.pushWrite p { w with readback := true }) s else s

/-! ## The trigger of a line (R24, R25, R53 to R57, R72, R75) -/

/-- The port whose trigger settings the group's generator reads: R30 makes those of its enabled ports equal. -/
def State.leadPort (s : State) (g : Nat) : Nat := (s.groupPorts g).headD 0

/-- A counter of every enabled port of group `g` counts `n` times: R57's counters are read on each. -/
def State.countGroup (s : State) (g : Nat) (o : ObjRow) (n : Nat) : State :=
  (s.groupPorts g).foldl (fun s p => s.count o 0 p n) s

/-- R54, R57: the period the generator of group `g` counts with from the first line of an epoch on, that line being due at `due`.
Where the line was held, the triggers that the new period puts into the hold are dropped, but for those already counted. -/
def State.tgRephase (s : State) (g due : Nat) : State :=
  let p := s.leadPort g
  let per := (s.next Obj.TG_PERIOD 0 p g).toNat
  let x := s.tg g
  if x.period = per then s
  else
    let fixed := s.rdN Obj.TG_SOURCE 0 p = 0
    let past := if x.held.isSome && fixed then (s.now * 4294967296 - 2147483648 - due - 1) / per else 0
    let seen := if x.origin = due then x.next - 1 else 0
    (s.setTg g { x with origin := due, next := 1 + past, period := per }).countGroup g Obj.TG_OVERRUN (past - seen)

/-- R72, R75, R79, R80, R82, R84: what one port does at the trigger of line `line`: its packet, its slot, and the camera's writes
and readbacks of an epoch. A setting that is staged past line F − L is written after the next trigger (log entry 121). -/
def State.portTrigger (s : State) (g p line : Nat) (belt : Int) (opens : Bool) : State :=
  let ep := s.rdN Obj.EPOCH_ID 0 g
  let c := s.cam p
  let slot : Slot := {
    line := line, trig := s.now, belt := if s.surface then belt else 0, epoch := ep, skew := c.relinking }
  let s := (s.setCam p { c with slots := c.slots ++ [slot], second := c.second + 1 }).putN Obj.CAM_LINE_NOW p 0 line
  let s := (s.putN Obj.TG_LAST_TIME 0 p s.now).put Obj.TG_LAST_COUNT 0 p belt
  let s := s.emit (.trigger p line (s.now + s.rdN Obj.CAM_TRIG_LATENCY_NS p))
  let s :=
    if opens then
      let s := (s.setCam p { s.cam p with epochTrig := s.now }).statSwitch p ep line
      let s := if (s.cam p).skewed.contains ep || (s.cam p).relinking then s.put Obj.CAM_STATS_CUR p 3 1 else s
      (s.camEpochWrites p ep line (fun o => s.rd o p)).camReadbacks p
    else s
  let f := s.rdN Obj.EPOCH_PENDING 0 g
  if f ≠ 0 && f ≤ line + s.rdN Obj.CAM_EXPOSURE_LEAD p then
    s.camEpochWrites p (ep + 1) f (fun o => s.next o p 0 g)
  else s

/-- R24, R25: the generator of group `g` issues a trigger now: the next line of its ports, whose exact due time was `due` and
whose belt count is `belt`. -/
def State.issueTrigger (s : State) (g : Nat) (belt : Int) (due : Nat) : State :=
  let line := s.presentLine g + 1
  let pend := s.rdN Obj.EPOCH_PENDING 0 g
  let declared := pend ≠ 0 && pend ≤ line
  let s := if declared then (s.openEpoch g (s.rdN Obj.EPOCH_ID 0 g + 1) line).tgRephase g due else s
  let opens := declared || line = 1
  let s := if line = 1 && !declared then s.epEpoch g (s.rdN Obj.EPOCH_ID 0 g) false else s
  let mark : TrigMark := {
    line := line, epoch := s.rdN Obj.EPOCH_ID 0 g, time := s.now, belt := belt,
    speeds := (List.range 4).map (fun q => s.qeSpeed q s.now) }
  let x := s.tg g
  let s := s.setTg g { x with held := none, last := some s.now, marks := (mark :: x.marks).take 32768 }
  let s := (s.groupPorts g).foldl (fun s p => s.portTrigger g p line belt opens) s
  let s := s.fire g
  if opens then s.fire (24 + g) else s

/-- R57: a held trigger of group `g` can be issued. -/
def TgGroup.free (x : TgGroup) (now gap : Nat) : Bool :=
  match x.last with
  | none => true
  | some t => decide (t + gap ≤ now)

/-- R57: the trigger that group `g` holds is issued once the spacing has passed. -/
def State.releaseTrigger (s : State) (g : Nat) : State :=
  let x := s.tg g
  match x.held with
  | none => s
  | some (belt, due) =>
    if x.running && x.free s.now (s.rdN Obj.TG_MIN_PERIOD_NS 0 (s.leadPort g)) then s.issueTrigger g belt due else s

/-- R57: a trigger of group `g` falls due now: it is issued, held for the spacing, or dropped behind one that is held. A held
one that can go goes first. -/
def State.dueTrigger (s : State) (g : Nat) (belt : Int) (due : Nat) : State :=
  let s := s.releaseTrigger g
  let x := s.tg g
  if x.held.isSome then s.countGroup g Obj.TG_OVERRUN 1
  else if x.free s.now (s.rdN Obj.TG_MIN_PERIOD_NS 0 (s.leadPort g)) then s.issueTrigger g belt due
  else
    let s := (s.setTg g { x with held := some (belt, due) }).countGroup g Obj.TG_DEFERRED 1
    let pend := s.rdN Obj.EPOCH_PENDING 0 g
    if pend ≠ 0 && pend ≤ s.presentLine g + 1 then s.tgRephase g due else s

/-- R53: a time in 2⁻³² ns as the nearest ns, halves rounding up. -/
def nearestNs (x : Nat) : Nat := (x + 2147483648) / 4294967296

/-- R53: the exact time at which the next trigger of a fixed-rate generator is due. -/
def TgGroup.due (x : TgGroup) : Nat := x.origin + x.next * x.period

/-- R53, R84: a fixed-rate trigger falls due; no count made it, and its belt count is 0 (log entry 253). -/
def execLineTrigger (t : Nat) (g : Fin 12) (s : State) : Result :=
  let s := s.at t
  let x := s.tg g
  if !x.running || s.rdN Obj.TG_SOURCE 0 (s.leadPort g) != 0 || s.now < nearestNs x.due then .next s
  else
    let s := s.setTg g { x with next := x.next + 1 }
    .next (s.dueTrigger g 0 x.due)

/-- R57: the spacing has passed. -/
def execTriggerDeferredIssue (t : Nat) (g : Fin 12) (s : State) : Result := .next ((s.at t).releaseTrigger g)

/-! ## Triggers from an encoder (R41, R56) -/

/-- R56: a count of the encoder that group `g` follows: past the high-water mark it moves the accumulator, and a full
accumulator makes a trigger. -/
def State.countTrigger (s : State) (g q : Nat) : State :=
  let x := s.tg g
  let p := s.leadPort g
  let belt := s.rd Obj.QE_POSITION 0 q
  let sense : Int := if s.rdN Obj.TG_DIR 0 p = 0 then 1 else -1
  if wrap48 (belt - x.high) * sense ≤ 0 then s
  else
    let a := x.acc + 65536
    let d := s.rdN Obj.TG_DIVIDER 0 p
    if d ≤ a then (s.setTg g { x with high := belt, acc := a - d }).dueTrigger g belt (s.now * 4294967296)
    else s.setTg g { x with high := belt, acc := a }

/-- R40, R41, R56: new levels of A and B: once the filter accepts them, the count steps, and the generators that follow it take
the step. -/
def execQeCount (t : QeSample) (q : Fin 4) (a b : Bool) (s : State) : Result :=
  let s := s.at t.time
  let pt := s.qe q
  let mode := s.rdN Obj.QE_MODE 0 q
  if !s.qeAccepts q t.stable then .next s
  else
  let s := s.setQe q { pt with a := a, b := b }
  if mode = 0 then .next s
  else
    match qeStep mode pt.a pt.b a b with
    | none => .next (s.count Obj.QE_PHASE_ERRORS 0 q 1)
    | some d =>
      if d = 0 then .next s
      else
        let s := s.qeCount q d s.now
        let s := if s.beltEncoder = some q.val then s.beltPassed else s
        .next ((List.range 12).foldl (fun s g =>
          if (s.tg g).running && s.rdN Obj.TG_SOURCE 0 (s.leadPort g) = q + 1 then s.countTrigger g q else s) s)

/-- R53, R56: the generator of group `g` at ARMED entry. -/
def State.tgArm (s : State) (g : Nat) : State :=
  if (s.groupPorts g).isEmpty then s.setTg g {}
  else
    let p := s.leadPort g
    let per := s.rdN Obj.TG_PERIOD 0 p
    let phase : Int := s.rd Obj.TG_PHASE 0 p * 4294967296
    let least : Int := ((s.now + 10000) * 4294967296 : Nat) - 2147483648 - phase
    let j : Int := -(-least / (per : Int))
    let src := s.rdN Obj.TG_SOURCE 0 p
    s.setTg g {
      running := true, origin := (phase + j * per).toNat, next := 0, period := per,
      high := if src = 0 then 0 else s.rd Obj.QE_POSITION 0 (src - 1) }

/-- R53: no generator runs outside ARMED, RUN and HOLD; a trigger that is held is not issued. -/
def State.stopTriggers (s : State) : State :=
  (List.range 12).foldl (fun (s : State) g => s.setTg g { s.tg g with running := false, held := none }) s

/-! ## A line in its pipeline (R83, R92, R113, R121, R147, R154) -/

/-- R75, R443, R445: the unit is on its way out of ARMED, RUN or HOLD, or has left it for FAULT: lines have stopped. -/
def State.stopping (s : State) : Bool :=
  (s.lining && s.trans.any (fun (x : Transition) => x.target == stPreop)) || s.mode == stFault

/-- R75, R83: every line of port `p` has gone into its pipeline. -/
def CamPort.drained (c : CamPort) : Bool := c.slots.isEmpty && c.waiting.isEmpty && c.committed.isEmpty && c.toPipe.isEmpty

/-- R180, R182: the line before a restart without a cut holds no object site, but its INVALID sites stand beside those of the restart
line. -/
def State.cutHistory (s : State) (l : RegLine) : State :=
  let p := l.cap.port
  if (s.failoverOf p).any (fun (f : Failover) => l.cap.line + 1 == f.restart) then
    s.setSg p { s.sgp p with inv := (s.register l).1.sites.map (fun x => x.inv) }
  else s

/-- R92, R314, R353: the lines that have left raw correction of port `p` pass the taps and enter registration. -/
def State.rcOut (s : State) (p : Nat) : State :=
  let ls := (s.rcp p).out
  let s := s.setRcp p { s.rcp p with out := [] }
  ls.foldl (fun s l =>
    let s := (s.calPlate p l).tapPortLine l
    match s.afterCut l with
    | (l, true) => s.rgEnter l
    | (l, false) => (s.rgHistory l).cutHistory l) s

/-- R113, R147, R173: with lines stopped and every line of port `p` in the pipeline, its last line completes, its windows are
decided, and once every held line is released its open objects close. -/
def State.drainPort (s : State) (p : Nat) : State :=
  if !s.stopping || !(s.cam p).drained then s
  else
    let s := if (s.rcp p).center.isSome then ((s.rcFlush p).rcOut p).rgFlush p else s
    if (s.rgp p).queue.isEmpty then s.segFlush p else s


/-- R115, R377: where the last snapshot of a port is no longer that of line `m`, the lines of its slot are taken back from the
host. -/
def State.snapshotHeld (s : State) (p m : Nat) : State :=
  let last := s.rdN Obj.RC_SNAPSHOT_LAST p
  if last = m then s
  else s.invalidateSlot (2 + 16 * p) ((last / s.rdN Obj.RC_SNAPSHOT_LINES p) % 2) (s.snapshotBytes p) (s.snapshotBytes p)

/-- R405: with `ahead` bytes in its read-ahead buffer a replay is in panic: the buffer is below its threshold, and lines `rest` of
port `p`, or those a rotation's spare has yet to read, remain. -/
def State.replayLow (s : State) (p : Nat) (rest : List CapLine) (ahead : Nat) : Bool :=
  decide (ahead < 1024 * s.rdN Obj.DR_REPLAY_PANIC) &&
    ((s.replaying p && !rest.isEmpty) || s.cont.rotation.any (fun (r : Rotation) => r.port == p && r.begun.isNone))

/-- R92: a line that was handed on enters raw correction; of a port that is lent it goes over the link (R207), and of a port
without a pipeline nothing takes it (R355). `t.ahead` bytes stand in the replay read-ahead buffer of the spare (R405). -/
def execRcLine (t : LineTake) (p : Fin 14) (s : State) : Result :=
  let s := s.at t.time
  let c := s.cam p
  match c.toPipe with
  | [] => .next (s.drainPort p)
  | l :: r =>
    let q := s.pipelineOf p
    if q < 13 && !s.islandRuns (2 + q) then .next s
    else
      let s := (s.setCam p { c with toPipe := r }).replayPanic p (s.replayLow p r t.ahead)
      if q = 254 then
        match s.lentOver p with
        | some k => .next ((s.sendLoanLine k l).drainPort p)
        | none => .next (s.drainPort p)
      else if 13 ≤ q then .next (s.drainPort p)
      else .next ((((s.rcLine l).snapshotHeld p (s.rdN Obj.RC_SNAPSHOT_LAST p)).rcOut p).drainPort p)

/-- R121, R154, R155, R337: the oldest waiting line is registered, when no track holds it, looked up and segmented. A word that
both live copies lost is a pipeline fault, and so is another uncorrectable error in pipeline SRAM. -/
def execRgLine (t : Nat) (p : Fin 14) (errors : SramErrors) (s : State) : Result :=
  let s := s.at t
  if s.pipelineOf p < 13 && !s.islandRuns (2 + s.pipelineOf p) then .next s
  else
    let r := s.rgRelease p
    match r.2 with
    | none => .next (r.1.drainPort p)
    | some l =>
      let s := r.1.outputAt p l.cap.line
      let c := s.classify l errors.atlas
      let s := if c.2.2 || errors.other then c.1.pipeFault (c.1.pipelineOf p) 1 c.1.now else c.1
      let gone := s.pipelineOf p < 13 && !s.islandRuns (2 + s.pipelineOf p) && !s.bit Obj.SG_STATUS p 0 sgActive
      if gone then .next s
      else .next ((((s.tapRegLine l c.2.1).segLine l c.2.1).rotationLine p l.cap.line).drainPort p)

/-- R156: a scrub pass of the atlas copies of a pipeline ends, a period after it began. -/
def execAtlasScrubPass (t : Nat) (pipeline : Fin 13) (upsets : List AtlasUpset) (s : State) : Result :=
  let s := s.at t
  let q := pipeline.val
  let due := decide ((s.atPipe q).scrubFrom + s.scrubPeriod q ≤ s.now)
  if !s.scrubbing || !due || !s.islandRuns (2 + q) then .next s
  else
    let r := s.scrubPass q upsets
    .next (if r.2 then r.1.pipeFault q 1 r.1.now else r.1)

end Sys2Proof.Machine
end

