-- ==== Sys2Proof/Machine/Reset.lean ====
section
/-! DEFINITION. Resets of single islands and of the device, the entry to PREOP, and what power loss leaves
(spec/11_islands_crossings_and_continuity.md, R334 to R336; R549, R553, R564; the reset rules of the other chapters). -/

namespace Sys2Proof.Machine

open Sys2Proof

/-! ## Counters -/

/-- Every counter of these rows at the places `f` selects reads 0 again. -/
def State.clearCounters (s : State) (rows : List ObjRow) (f : Nat → Nat → Bool := fun _ _ => true) : State :=
  { s with dict := s.dict.filter (fun x => !rows.any (fun o => o.counter &&
      (match o.locate x.1 with
       | some (b, e) => f b e
       | none => false))) }

/-- Every object of these rows reads its default again at the places `f` selects. -/
def State.clearObjects (s : State) (rows : List ObjRow) (f : Nat → Nat → Bool := fun _ _ => true) : State :=
  let at_ := fun (k : Nat) => rows.any (fun o =>
    match o.locate k with
    | some (b, e) => f b e
    | none => false)
  { s with dict := s.dict.filter (fun x => !at_ x.1), blobs := s.blobs.filter (fun x => !at_ x.1) }

/-- The rows of the chapters of one port's pipeline: raw correction, registration, atlas and segmentation. -/
def pipeRows : List ObjRow := objectsRaw0 ++ objectsRaw1 ++ objectsRegistration0 ++ objectsAtlas0 ++ objectsAtlas1

/-- Every element of these rows that describes port `p`: of its block, or of its element where a row has one block. -/
def State.clearPort (s : State) (rows : List ObjRow) (p : Nat) : State :=
  (s.clearCounters (rows.filter (fun o => decide (1 < o.blocks))) (fun b _ => b == p)).clearCounters
    (rows.filter (fun o => o.blocks == 1 && o.count == 12)) (fun _ e => e == p)

/-! ## Islands (R88, R117, R147, R183, R208, R239, R334 to R336) -/

/-- R329: the islands by kind: 2 to 14 the pipelines, 15 to 26 the CXP islands, 27 to 34 the DRAM channels. -/
def isPipe (i : Nat) : Bool := decide (2 ≤ i) && decide (i ≤ 14)

/-- R334: the islands that may reset alone. -/
def resetsAlone (i : Nat) : Bool := decide (2 ≤ i) && decide (i ≤ 37)

/-- R117, R147, R183: the state and the counters that a reset pipeline held of port `p`. -/
def State.pipeClear (s : State) (p : Nat) : State := (s.clearPort pipeRows p).pipeEmpty p

/-- R82, R88: the statistics banks of port `p` are cleared; while lines are taken the current one goes on as that of the epoch
it belongs to. -/
def State.statClear (s : State) (p : Nat) : State :=
  let ep := s.rdN Obj.CAM_STATS_CUR p 0
  let first := s.rdN Obj.CAM_STATS_CUR p 1
  let c := s.cam p
  let s := s.clearObjects [
    Obj.CAM_STATS_CUR, Obj.CAM_STATS_LAST, Obj.CAM_HIST_CUR, Obj.CAM_HIST_LAST, Obj.CAM_HIST_SAT_CUR,
    Obj.CAM_HIST_SAT_LAST] (fun b _ => b == p)
  if s.lining then
    ((s.putN Obj.CAM_STATS_CUR p 0 ep).putN Obj.CAM_STATS_CUR p 1 first).put Obj.CAM_STATS_CUR p 3
      (boolInt (c.relinking || c.skewed.contains ep))
  else s

/-- R86, R87, R88: what a reset CXP island held: the link, the window transaction, slots, statistics and counters of its port.
Lines that were triggered close with the link down. -/
def State.cxpClear (s : State) (p : Nat) : State :=
  let s := (s.camDrop p).setLevel (36 + p) (s.lining && s.camIsUp p)
  let s := (s.cam p).slots.foldl (fun s x => s.closeSlot p x none) s
  let c := s.cam p
  let s := s.setCam p {
    waiting := c.waiting, committed := c.committed, toPipe := c.toPipe, panic := c.panic, attemptEnd := s.now
    sent := c.sent, skewed := c.skewed, relinking := c.relinking, epochTrig := c.epochTrig, second := c.second }
  (s.clearPort ((objectsCamera0 ++ objectsCamera1).filter (fun o => o.index != Obj.EPOCH_LATE_COUNT.index)) p).statClear p

/-- R334, R335: island `i` enters reset. -/
def State.islandDown (s : State) (i : Nat) : State :=
  let s := s.putN Obj.ISLAND_STATE 0 i 2
  if isPipe i then
    let q := i - 2
    let s := { s with cont := { s.cont with
      rotation := if s.cont.rotation.any (fun (r : Rotation) => r.spare == q) then none else s.cont.rotation } }
    let s := if s.pipeState q = psComparing then s.setPipe q psSpare else s
    match s.portOf q with
    | some p =>
      let lc := s.committedLine p
      let s := (s.dropParts p).pipeClear p
      s.setSg p { s.sgp p with line := min lc (s.sgp p).line }
    | none => s
  else if i < 27 then s.cxpClear (i - 15)
  else if i < 35 then
    (if s.rdN Obj.DR_CH_STATE 0 (i - 27) = drReady then s.putN Obj.DR_CH_STATE 0 (i - 27) drSelfRefresh else s).dramPublish
  else if i = 35 then s.cxlReset
  else if i = 36 then (s.chLoss 0).chLoss 1
  else if i = islandMer then { s with mer := { s.mer with held := [] } }
  else s

/-- R335, R336: island `i` is ready. A pipeline that serves a port produces again from a snapshot what was lost, as after a
failover to itself; a camera port repeats discovery, and chord
ports train (R515). -/
def State.islandUp (s : State) (i : Nat) : State :=
  let s := s.putN Obj.ISLAND_STATE 0 i 1
  if isPipe i then
    let q := i - 2
    if s.pipeState q = psFaulty then s.putN Obj.ISLAND_STATE 0 i 4
    else
      match s.portOf q with
      | some p =>
        let s := s.atReload q
        if s.lining && (decide (12 ≤ p) || s.flag Obj.CAM_ENABLE p) then
          s.takeOver { port := p, pipeline := q, detected := s.now, since := s.now, cause := 0 } q []
        else s
      | none => s.atReload q
  else if i < 27 then (if s.flag Obj.CAM_ENABLE (i - 15) then s.discover (i - 15) else s)
  else if i < 35 then
    (if s.rdN Obj.DR_CH_STATE 0 (i - 27) = drSelfRefresh then s.putN Obj.DR_CH_STATE 0 (i - 27) drReady else s).dramPublish
  else if i = islandChd then (s.chordArm 0).chordArm 1
  else s

/-- R334, R362: a write of `ISLAND_RESET`. -/
def execIslandReset (t : Nat) (path : Path) (value : List Byte) (s : State) : Result :=
  let s := (s.at t).touch path
  let k := Obj.ISLAND_RESET.key 0 0
  match s.checkWrite path Obj.ISLAND_RESET 0 0 value with
  | 0 => if resetsAlone (leNat value) then .next ((s.islandDown (leNat value)).answer path k 0) else .next (s.answer path k 5)
  | r => .next (s.answer path k r)

/-- R335, R353: the peers of an island in reset flush their pending transfers, `flushed` of them; a faulty pipeline island is in
reset too. -/
def execIslandResetEnter (t : Nat) (island : Fin 40) (flushed : Nat) (s : State) : Result :=
  let s := s.at t
  let st := s.rdN Obj.ISLAND_STATE 0 island
  .next (if st = 2 || st = 4 then s.count Obj.CROSS_FLUSHED 0 island flushed else s)

/-- R335: an island signals ready. A pipeline in self-test, and the CXL island while CXL_PERST_N is low, stay in reset. -/
def execIslandReady (t : Nat) (island : Fin 40) (s : State) : Result :=
  let s := s.at t
  let i := island.val
  let held := (isPipe i && s.pipeState (i - 2) == psTesting) || (i == 35 && !s.cxl.perst) || s.power.nreset
  .next (if s.rdN Obj.ISLAND_STATE 0 i = 2 && !held then s.islandUp i else s)

/-! ## Gating (R553) -/

/-- R553: at ARMED entry the islands that nothing needs are gated (log entry 285). -/
def State.gateIslands (s : State) : State :=
  if !s.flag Obj.PW_GATING_ENABLE then s
  else
    let serves := fun (q : Nat) => (List.range 12).any (fun p =>
      s.flag Obj.CAM_ENABLE p && s.rdN Obj.RV_PORT_PIPELINE 0 p == q)
    let s := (List.range 13).foldl (fun (s : State) q =>
      if serves q || s.rdN Obj.RV_SPARE = q || s.rdN Obj.ISLAND_STATE 0 (2 + q) ≠ 1 then s
      else s.putN Obj.ISLAND_STATE 0 (2 + q) 3) s
    ((List.range 12).foldl (fun (s : State) p =>
      if s.flag Obj.CAM_ENABLE p || s.rdN Obj.ISLAND_STATE 0 (15 + p) ≠ 1 then s
      else s.putN Obj.ISLAND_STATE 0 (15 + p) 3) s).coreVolts

/-- R553: every gated island is woken on entry to PREOP. -/
def State.wakeIslands (s : State) : State :=
  let s := (List.range 13).foldl (fun (s : State) q => if s.rdN Obj.ISLAND_STATE 0 (2 + q) = 3 then s.atReload q else s) s
  ((List.range 40).foldl (fun s i => if s.rdN Obj.ISLAND_STATE 0 i = 3 then s.putN Obj.ISLAND_STATE 0 i 1 else s) s).coreVolts

/-- R407, R443, R553: the unit enters PREOP. -/
def State.preopEntry (s : State) : State := s.dramPreop.wakeIslands.setMode stPreop

/-! ## The warm reset of the device (R344, R549) -/

/-- R62: what a warm reset clears in TIM. -/
def State.timReset (s : State) : State :=
  let s := (List.range 4).foldl (fun s q => s.qeStandstill q) s
  let s := (List.range 4).foldl (fun s n =>
    let s := s.setSp n { s.sp n with badRun := 0, goodRun := 0 }
    (s.setBit Obj.SP_STATUS 0 n 2 false).setLevel (52 + n) false) s
  { s with tim := { s.tim with tg := [], armedSinceReset := false } }

/-- R465, R467: what a warm reset clears of the lattice: its counters but for those of the asynchronous channels, the captured
time, what is on its way through a resynchronised channel, and what such channels drive. -/
def State.latticeReset (s : State) : State :=
  let perChannel := [Obj.EV_CH_FIRED, Obj.EV_CH_LIMITED, Obj.EV_CH_GATED, Obj.EV_CH_LOOP]
  let s := s.clearCounters perChannel (fun _ e => decide (e < 56))
  let s := s.clearCounters ((objectsLattice0 ++ objectsLattice1).filter (fun o => !perChannel.any (fun x => x.index == o.index)))
  let s := s.clearObjects [Obj.EV_CAPTURE_TIME]
  { s with lattice := { s.lattice with
      activations := s.lattice.activations.filter (fun a => a.tags.all (fun n => decide (56 ≤ n))), recent := []
      pins := s.lattice.pins.map (fun (x : Nat × EvtPin) => (x.1, { x.2 with drive := false, until_ := 0 })) } }

/-- R498: what a warm reset clears of the monitors: counters, peak holds and block results. -/
def State.amReset (s : State) : State :=
  (s.clearCounters (objectsMonitor0 ++ objectsMonitor1)).clearObjects [
    Obj.AM_PEAK_HOLD_MAX, Obj.AM_PEAK_HOLD_MIN, Obj.AM_BLK_MAX, Obj.AM_BLK_MIN, Obj.AM_BLK_MEAN, Obj.AM_BLK_RMS,
    Obj.AM_BLK_INDEX]

/-- R515: a warm reset stops every generator and checker and clears the chapter's counters; both chord links end. -/
def State.linksReset (s : State) : State :=
  let s := (List.range 80).foldl (fun s n => if s.rdN Obj.LN_PATTERN 0 n = 0 then s else s.putN Obj.LN_PATTERN 0 n 0) s
  let s := { ((((s.chordTest 0).chordTest 1).chLoss 0).chLoss 1).clearCounters objectsChord0 with lanes := [] }
  s.clearObjects [Obj.LN_LOCKED]

/-- R440: every path is at operator level. -/
def State.accessReset (s : State) : State :=
  { (s.putN Obj.ACCESS_LEVEL_CHAIN 0 0 0).putN Obj.ACCESS_LEVEL_HOST 0 0 0 with
    access := { nonceTime := s.access.nonceTime }, latches := {} }

/-- R409: before any island resets, every channel that works goes into self-refresh. -/
def State.dramSleep (s : State) : State :=
  ((List.range 8).foldl (fun s c =>
    if s.rdN Obj.DR_CH_STATE 0 c = drReady then s.putN Obj.DR_CH_STATE 0 c drSelfRefresh else s) s).dramPublish

/-- R264, R265: KILL on every link, and every pulse that has not completed is dropped with a cause; `sent` says whether an
order with an edge sent and not echoed shows it. -/
def State.bankStop (s : State) (cause : Cause) (sent : Bool) : State :=
  let out := (s.bank.links.flatMap (fun x => x.2.sent)).flatMap (fun f => f.edges.map (fun e => e.pulse))
  let s := if sent then
      s.bank.pulses.foldl (fun s p => if out.contains p.id then s.flagOrders (s.ordersOf p) ofUnconfirmed else s) s
    else s
  let own := s.bank.flights
  let s := { s with bank := { s.bank with
    flights := own.map (fun (f : Flight) => { f with causes := f.causes ++ [cause] }) } }
  s.killLinks.killPulses cause true

/-- R88, R117, R147, R183, R208, R239: the camera ports, pipelines and stitching start empty; what DRAM holds survives. -/
def State.portsReset (s : State) : State :=
  let s := (List.range 12).foldl (fun s p =>
    let s := if (s.atp p).loading.isSome then ((s.setAt p { s.atp p with loading := none }).atRefuse p 7).atPublish p else s
    let s := s.setCam p { s.cam p with slots := [] }
    let s := if (s.atp p).holdLine.isSome then s.atRelease p else s
    ((s.cxpClear p).pipeClear p).setCam p { attemptEnd := s.now }) s
  let s := { s with
    judged := [], st := { nextId := s.st.nextId }, thumbs := [], rt := []
    cont := { s.cont with kept := [], faults := [], failover := [], rotation := none, testing := [], accuses := none, refill := [] } }
  s.clearCounters (objectsVerdict0 ++ objectsVerdict1)

/-- R549: a warm reset: the Almanac is written, DRAM goes into self-refresh, every island but TIM and AON resets, and start-up
runs from step 4, or from step 3 for a slot marked trial. A unit that saves or has no power is not reset. -/
def State.warmReset (s : State) : State :=
  if s.mode = stSave || s.power.step < 2 then s
  else
    let s := s.almanacWrite.dramSleep
    let s := (s.bankStop .reset true).setMode stBoot
    let s := { s with trans := none, holdBy := 0 }
    let s := (s.timReset.portsReset).linksReset
    let s := s.cxlReset.latticeReset.amReset.calReset.accessReset
    let s := { s with mer := { s.mer with request := none, response := [], ready := false, held := [], partials := [] } }
    let s := (List.range 12).foldl (fun s g => s.putN Obj.EPOCH_PENDING 0 g 0) s
    let s := (List.range 38).foldl (fun s i =>
      if s.rdN Obj.ISLAND_STATE 0 i = 4 then s else s.putN Obj.ISLAND_STATE 0 i 2) s
    let s := (s.setBit Obj.LG_STATUS 0 0 lgReissuing true).setBit Obj.PW_STATUS 0 0 7 false
    let s := { s with fw := { s.fw with writing := none } }.setBit Obj.FW_STATUS 0 0 3 false
    let choose := s.fw.trial.isSome || s.fw.abandoned
    let s := if choose then s else s.setBit Obj.FW_STATUS 0 0 5 false
    { s with power := { s.power with
        step := if choose then 3 else 4, warm := true, start := s.now, coldAt := none } }

/-- R448: a running trial image that resets before it is confirmed is abandoned. -/
def Firmware.drop (f : Firmware) : Firmware :=
  if f.running.isSome && f.trial == f.running then { f with trial := none, abandoned := true } else f

/-- R448, R549: a reset of the device that is not the one `FW_ACTIVATE` asks for. -/
def State.resetNow (s : State) : State := { s with fw := s.fw.drop }.warmReset

/-- R449, R549: a write of `DEVICE_RESET`. -/
def execDeviceReset (t : Nat) (path : Path) (value : List Byte) (s : State) : Result :=
  let s := (s.at t).touch path
  let k := Obj.DEVICE_RESET.key 0 0
  match s.checkWrite path Obj.DEVICE_RESET 0 0 value with
  | 0 => .next ((s.answer path k 0).resetNow)
  | r => .next (s.answer path k r)

/-- R549: NRESET has been low for 1 µs: a warm reset, and the device holds while it stays low. -/
def execNreset (t : Nat) (s : State) : Result :=
  let s := s.at t
  let s := if s.power.nreset then s else s.resetNow
  .next { s with power := { s.power with nreset := true } }

/-- R549: NRESET rises: start-up goes on. -/
def execNresetRelease (t : Nat) (s : State) : Result :=
  let s := s.at t
  .next { s with power := { s.power with nreset := false } }

/-! ## Loss of power (R62, R117, R166, R208, R239, R325, R409, R498, R559, R564) -/

/-- R446, R448, R534, R564, R570: what the Vault and the flash keep of the dictionary: the persistent block, the repair map,
the keys and hashes, and the lowest security version. -/
def persistentRows : List ObjRow := [
  Obj.MER_ALIAS, Obj.MER_ALIAS_ENABLE, Obj.TW2_ADDR, Obj.PW_VIN_RATIO, Obj.PW_HOLDUP_CAP_UF, Obj.PW_RAIL_ADDR,
  Obj.PW_RAIL_PAGE, Obj.PW_PG_TIMEOUT_MS, Obj.PW_WARMUP_MAX_S, Obj.BIST_REPAIRS, Obj.FW_ROLLBACK_MIN, Obj.FW_SLOT_VERSION,
  Obj.SEC_UNSIGNED_POLICY, Obj.SEC_KEY, Obj.SEC_ACCESS_HASH]

/-- R568: what AON keeps on standby power: the configuration of the asynchronous channels and of the pins. -/
def standbyRows : List ObjRow := [
  Obj.EV_CH_CONFIG, Obj.EV_CH_OWNER, Obj.EV_CH_SECURE, Obj.EV_CH_STATE, Obj.EV_PIN_MODE, Obj.EV_PIN_FILTER_NS, Obj.EV_PIN_PULSE_NS, Obj.EV_PIN_WAKE,
  Obj.EV_CH_FIRED, Obj.EV_CH_LIMITED, Obj.EV_CH_GATED, Obj.EV_CH_LOOP]

/-- A key names an object of these rows. -/
def inRows (rows : List ObjRow) (k : Nat) : Bool := rows.any (fun o => (o.locate k).isSome)

/-- R568: a key of the standby rows that belongs to an asynchronous channel or to a pin. -/
def isStandby (k : Nat) : Bool :=
  standbyRows.any (fun o =>
    match o.locate k with
    | some (b, e) =>
      if o.index = Obj.EV_CH_CONFIG.index then decide (56 ≤ b)
      else if [Obj.EV_CH_OWNER.index, Obj.EV_CH_SECURE.index, Obj.EV_CH_STATE.index].contains o.index || o.counter then decide (56 ≤ e) else true
    | none => false)

/-- R453: of the words of `EV_SOURCE_LEVEL`, the levels that arise in AON: 56 to 68. -/
def aonLevels (k : Nat) (v : Int) : Int :=
  if k = Obj.EV_SOURCE_LEVEL.key 0 1 then ((v.toNat / 2 ^ 24 * 2 ^ 24 : Nat) : Int)
  else if k = Obj.EV_SOURCE_LEVEL.key 0 2 then ((v.toNat % 32 : Nat) : Int)
  else v

/-- The rails are gone: everything is at its default but what the Vault and the flash keep; on standby power AON goes on. The
contents of DRAM are lost (R409), and a write of the Vault that runs is abandoned. -/
def State.powerLost (s : State) (standby : Bool) : State :=
  let s := s.almAbandon.storeAbandon
  let keep := fun (k : Nat) => inRows persistentRows k || (standby && isStandby k) ||
    (standby && (k / 256 == Obj.PW_LAST_SAVE.index || k / 256 == Obj.TW2_WAKES.index ||
      k == Obj.EV_SOURCE_LEVEL.key 0 1 || k == Obj.EV_SOURCE_LEVEL.key 0 2))
  let off : State := {
    pending := s.pending, now := s.now, out := s.out, draws := s.draws, lost := s.lost + 1, vault := s.vault
    dict := (s.dict.filter (fun x => keep x.1)).map (fun x => if standby then (x.1, aonLevels x.1 x.2) else x), blobs := s.blobs.filter (fun x => keep x.1)
    fw := { s.fw.drop with
      running := none, writing := none } }
  let off := { off with
    lattice := if standby then { s.lattice with
      activations := [], recent := [], lastMerge := 0, timers := [], ports := [], tw := { pointer := s.lattice.tw.pointer }
      pins := s.lattice.pins.map (fun (x : Nat × EvtPin) => (x.1, { x.2 with drive := false, until_ := 0 })) } else {} }
  (List.range 39).foldl (fun s i => s.putN Obj.ISLAND_STATE 0 i 0) off

/-- R544: the step of rails that a rail belongs to. -/
def railStep (r : Nat) : Nat := [1, 1, 1, 2, 2, 3, 3, 3, 4, 5].getD r 0

/-- R546, R547: OPERATION goes to each rail of a step. -/
def State.railsSend (s : State) (step : Nat) (on : Bool) : State :=
  ((List.range 10).filter (fun r => railStep r == step)).foldl (fun s r =>
    s.emit (.railOperation r (s.rdN Obj.PW_RAIL_ADDR 0 r) (s.rdN Obj.PW_RAIL_PAGE 0 r) on)) s

/-- R546: the step `n` of rails is enabled. -/
def State.railsOn (s : State) (n : Nat) : State :=
  { s.railsSend n true with power := { s.power with rail := n, railAt := s.now } }

/-- R547: power-down: the steps of rails from `n` down, in descending order. -/
def State.railsOff (s : State) (n : Nat) : State :=
  match n with
  | 0 => s
  | k + 1 => (s.railsSend (k + 1) false).railsOff k

/-- R550: start-up begins at step 1: every island has its default, after a power loss the asynchronous configuration too
(R467), and HOLD_OK is deasserted (R559). After deep sleep AON goes on with what it kept (R464, R568). -/
def State.startUp (s : State) : State :=
  let p := s.power
  let s := if p.asleep then s.clearObjects [Obj.ISLAND_STATE]
    else
      { s with
        dict := s.dict.filter (fun x => inRows persistentRows x.1 || x.1 / 256 == Obj.PW_LAST_SAVE.index ||
          x.1 / 256 == Obj.TW2_WAKES.index)
        lattice := {} }
  let s := { s with power := {
    step := 1, start := s.now, nreset := p.nreset, below := p.below, sagged := p.sagged, risen := p.risen } }
  let s := s.setBit Obj.EV_SOURCE_LEVEL 0 2 4 p.sagged
  (((s.setBit Obj.PW_STATUS 0 0 1 p.below.isSome).setBit Obj.PW_STATUS 0 0 3 false).newNonce).railsOn 1

end Sys2Proof.Machine
end

