-- ==== Sys2Proof/Machine/Power.lean ====
section
/-! DEFINITION. Rails, start-up, temperature, sag detection, the SAVE sequence and what start-up restores
(spec/19_power_and_holdup.md, R544 to R571; R446, R534, R538, R566, R567). -/

namespace Sys2Proof.Machine

open Sys2Proof

/-- R571: bits of `PW_STATUS`. -/
def pwRailsOk : Nat := 0
/-- R571. -/
def pwSag : Nat := 1
/-- R571. -/
def pwSaving : Nat := 2
/-- R571. -/
def pwHoldOk : Nat := 3
/-- R571. -/
def pwHoldupShort : Nat := 4
/-- R571. -/
def pwThermalWarn : Nat := 5
/-- R571. -/
def pwRailWarn : Nat := 6
/-- R571. -/
def pwWarmup : Nat := 7
/-- R571. -/
def pwSaveTorn : Nat := 8
/-- R571. -/
def pwRestored : Nat := 9

/-- R571: a bit of `PW_STATUS` becomes `v`. -/
def State.pwBit (s : State) (i : Nat) (v : Bool) : State := s.setBit Obj.PW_STATUS 0 0 i v

/-! ## Entering SAVE (R556, R557) -/

/-- R344, R556, R559: a SAVE can begin: in every state but BOOT, and in BOOT while a warm reset is in progress. -/
def State.canSave (s : State) : Bool := s.mode != stSave && (s.mode != stBoot || s.power.warm)

/-- R565: GENERATION of a save area. -/
def SaveArea.generation (x : SaveArea) : Nat := leAt x.image 8 8

/-- R565, R566: a save area is complete: its three CRCs match, and its completion record agrees with its header. -/
def SaveArea.complete (x : SaveArea) : Bool :=
  let b := x.image
  let c := x.completion
  decide (4096 ≤ b.length) && leAt b 60 4 == crc32c (b.take 60) && leAt b 4092 4 == crc32c ((b.drop 64).take 4028) &&
    c.length == 64 && leAt c 0 4 == 0x454e4f44 && leAt c 4 8 == x.generation && leAt c 12 4 == 4096 + leAt b 24 4 &&
    leAt c 12 4 == b.length && leAt c 60 4 == crc32c (b ++ c.take 60)

/-- R565: the completion record is written behind a save area. -/
def SaveArea.close (x : SaveArea) : SaveArea :=
  let c := toLe 4 0x454e4f44 ++ toLe 8 x.generation ++ toLe 4 x.image.length ++ zeros 44
  { x with completion := c ++ toLe 4 (crc32c (x.image ++ c)) }

/-- R556, R565: CAUSE of a save area becomes `cause`, and its header CRC follows. -/
def SaveArea.withCause (x : SaveArea) (cause : Nat) : SaveArea :=
  let h := x.image.take 5 ++ [cause] ++ (x.image.drop 6).take 54
  { x with image := h ++ toLe 4 (crc32c h) ++ x.image.drop 64 }

/-- R565: the save area that is not the one with the highest valid generation: 0 is A, 1 is B. -/
def Vault.saveTarget (v : Vault) : Nat :=
  let gen := fun (a : Option SaveArea) => match a with
    | some x => if x.complete then x.generation + 1 else 0
    | none => 0
  if gen v.saveB ≤ gen v.saveA then (if gen v.saveA = 0 then 0 else 1) else 0

/-- R565: the generation of the previous save; 0 where there was none. -/
def Vault.saveGeneration (v : Vault) : Nat :=
  let gen := fun (a : Option SaveArea) => match a with
    | some x => x.generation
    | none => 0
  max (gen v.saveA) (gen v.saveB)

/-- R343: the 64-byte header of the ledger part: the next SEQ and ORDER_ID, the acknowledged ones, the entry counts and its CRC
(log entry 235). -/
def ledgerHeader (seq order recAck outAck records orders : Nat) : List Byte :=
  let b := toLe 8 seq ++ toLe 8 order ++ toLe 8 recAck ++ toLe 8 outAck ++ toLe 4 records ++ toLe 4 orders ++ zeros 20
  b ++ toLe 4 (crc32c b)

/-- R343: the ledger part of a save: its header, the records and bytes 0 to 27 of the outcomes. -/
def State.ledgerPart (s : State) : List Byte :=
  ledgerHeader (s.rdN Obj.LG_NEXT_SEQ) (s.rdN Obj.LG_NEXT_ORDER) (s.rdN Obj.REC_ACK_SEQ) (s.rdN Obj.OUT_ACK_ORDER)
      s.lg.records.length s.lg.orders.length ++
    s.lg.records.flatMap (fun x => x.record) ++ s.lg.orders.flatMap (fun x => x.outcome.take 28)

/-- R565: the header of a save area of generation `gen` whose ledger part has `n` bytes. -/
def State.saveHeader (s : State) (gen cause n : Nat) : List Byte :=
  let b := toLe 4 0x56544c56 ++ [1, cause] ++ zeros 2 ++ toLe 8 gen ++ toLe 8 s.now ++ toLe 4 n ++ zeros 32
  b ++ toLe 4 (crc32c b)

/-- R565: the summary of a save area: bytes 64 to 4,095. -/
def State.saveSummary (s : State) (mode : Nat) : List Byte :=
  let b := (List.range 12).flatMap (fun g => toLe 4 (s.rdN Obj.EPOCH_ID 0 g)) ++ [mode, 0] ++ toLe 2 (s.rdN Obj.MER_STATION) ++
    iLe 4 (s.rd Obj.TIME_RATE_TRIM) ++ (List.range 4).flatMap (fun g => iLe 2 (s.rd Obj.PW_TEMP 0 g)) ++ zeros 3964
  b ++ toLe 4 (crc32c b)

/-- R343, R565: what a save writes, from the state at its entry with every order closed. -/
def State.saveArea (s : State) (cause mode : Nat) : SaveArea :=
  let l := s.ledgerPart
  { image := s.saveHeader (s.vault.saveGeneration + 1) cause l.length ++ s.saveSummary mode ++ l
    extended := (s.lg.records.filter (fun e => !e.ext.isEmpty)).length }

/-- R563: save area `a` becomes `x`. -/
def Vault.setSave (v : Vault) (a : Nat) (x : SaveArea) : Vault :=
  if a = 0 then { v with saveA := some x } else { v with saveB := some x }

/-- R563: save area `a`. -/
def Vault.save (v : Vault) (a : Nat) : Option SaveArea := if a = 0 then v.saveA else v.saveB

/-- R557 step 3: islands 2 to 26 and 35 to 37 are gated, and with them their links are gone. -/
def State.saveGate (s : State) : State :=
  let s := (List.range 38).foldl (fun s i =>
    if 2 ≤ i && !(decide (27 ≤ i) && decide (i ≤ 34)) && s.rdN Obj.ISLAND_STATE 0 i == 1 then s.putN Obj.ISLAND_STATE 0 i 3
    else s) s
  let s := (List.range 14).foldl (fun (s : State) p => s.setBit Obj.SG_STATUS p 0 sgActive false) s
  let s := { s with cxl := { s.cxl with linkUp := false, recovery := none } }
  let s := (s.setBit Obj.CX_LINK_STATUS 0 0 clDown true).setField Obj.CX_LINK_STATUS 0 0 4 4 0
  let s := (List.range 2).foldl (fun s k => s.setChBit k csUp false) s
  let s := (List.range 12).foldl (fun (s : State) p =>
    if s.camIsUp p || s.bit Obj.CAM_LINK_STATUS p 0 camDiscovering then s.camDrop p else s) s
  ((s.setBit Obj.MER_PORT_STATUS 0 0 (mpLink 0) false).setBit Obj.MER_PORT_STATUS 0 0 (mpLink 1) false).coreVolts

/-- R264, R557: the unit enters SAVE: KILL and every pulse dropped, judged objects discarded, every open order closed, the
islands gated, and the save area begun with its completion record still to come; the comparator reports low (R494). In a warm reset the orders have cause RESET
already (R265). -/
def State.enterSave (s : State) (cause : Nat) : State :=
  if !s.canSave then s
  else
    let mode := s.mode
    let s := (s.almAbandon.storeAbandon.calAbort.count Obj.ALM_SAVES 0 0 1).bankStop (if mode = stBoot then .reset else .power) false
    let s := (s.stopTriggers.gateBank.setMode stSave).amReports
    let s := { s with judged := [], st := { s.st with groups := [] }, trans := none }
    let s := s.bank.flights.foldl (fun s f => s.closeFlight f) s
    let s := (s.pwBit pwSaving true).saveGate
    let a := s.vault.saveTarget
    { s with vault := s.vault.setSave a (s.saveArea cause mode)
             power := { s.power with save := some { cause := cause, since := s.now, area := a } } }

/-! ## Rails down and start-up's beginning (R546, R547, R559) -/

/-- R547, R559: the rails go down. AON goes on from standby power: it keeps HOLD_OK, the sag detector and the wait for what
ends it. -/
def State.railsDown (s : State) : State :=
  let hold := s.bit Obj.PW_STATUS 0 0 pwHoldOk
  let p := s.power
  let s := s.powerLost true
  let s := { s with power := { below := p.below, sagged := p.sagged, risen := p.risen, tripped := p.tripped, asleep := p.asleep } }
  let s := if p.sagged then s.putN Obj.EV_SOURCE_LEVEL 0 2 (s.rdN Obj.EV_SOURCE_LEVEL 0 2 ||| 2 ^ 4) else s
  (s.pwBit pwHoldOk hold).pwBit pwSag p.below.isSome

/-- R547: power-down: the steps of rails in descending order, and with the last of them what the rails held is gone. -/
def State.powerDown (s : State) : State := (s.railsOff 5).railsDown

/-- R550: VDD_STBY3V3 rises. A part whose rails are down waits for nothing else. -/
def execPowerOn (t : Nat) (s : State) : Result :=
  let s := s.at t
  let p := s.power
  .next (if p.step = 0 && !p.asleep && p.tripped.isNone && p.tries < 3 then s.startUp else s)

/-- R546: every power-good input of the step of rails is high, and 0.5 ms have passed: the next step is enabled, or the rails
are up. -/
def execRailStepGood (t : Nat) (s : State) : Result :=
  let s := s.at t
  let p := s.power
  if p.step ≠ 1 || p.failed.isSome || s.now < p.railAt + 500000 then .next s
  else if p.rail < 5 then .next (s.railsOn (p.rail + 1))
  else .next ({ s with power := { p with step := 2 } }.pwBit pwRailsOk true)

/-- R546: a step of rails is late: PW_RAIL_FAULT, its late rails are counted, and the rails go down. -/
def execPwPgTimeout (t : Nat) (late : List (Fin 10)) (s : State) : Result :=
  let s := s.at t
  let p := s.power
  let l := (late.map (fun r => r.val)).filter (fun r => railStep r == p.rail)
  if p.step ≠ 1 || p.failed.isSome || l.isEmpty || s.now < p.railAt + s.rdN Obj.PW_PG_TIMEOUT_MS * 1000000 then .next s
  else
    let s := l.eraseDups.foldl (fun s r => s.count Obj.PW_RAIL_FAULTS 0 r 1) s
    .next ({ s.railsOff p.rail with power := { p with tries := p.tries + 1, failed := some s.now, rail := 1 } }.raise .PW_RAIL_FAULT
      (Obj.PW_RAIL_FAULTS.ident 0 (l.headD 0)))

/-- R546: the manager tries again 1 s after a failure, three times in all. -/
def execPwRetry (t : Nat) (s : State) : Result :=
  let s := s.at t
  let p := s.power
  match p.failed with
  | some f => .next (if f + 1000000000 ≤ s.now && p.tries < 3 then
      { s with power := { p with failed := none } }.railsOn 1
    else s)
  | none => .next s

/-! ## What start-up does step by step (R550) -/

/-- R446: the image in a slot; true is B. -/
def Firmware.slot (f : Firmware) (b : Bool) : Option FwImage := if b then f.slotB else f.slotA

/-- R446: slot `b` becomes `v`. -/
def Firmware.setSlot (f : Firmware) (b : Bool) (v : Option FwImage) : Firmware :=
  let f := { f with failed := f.failed.filter (fun x => x != b) }
  if b then { f with slotB := v } else { f with slotA := v }

/-- R452: slot `b` holds an image that verified when it was last checked. -/
def Firmware.verified (f : Firmware) (b : Bool) : Bool := (f.slot b).isSome && !f.failed.contains b

/-- R451, R452: `FW_SLOT_VERSION`, `FW_VERSION` and the bits of `FW_STATUS` that follow the slots. -/
def State.fwPublish (s : State) : State :=
  let f := s.fw
  let ver := fun (b : Bool) => ((f.slot b).map (fun x => x.version)).getD 0
  let s := (s.putN Obj.FW_SLOT_VERSION 0 0 (ver false)).putN Obj.FW_SLOT_VERSION 0 1 (ver true)
  let bit := fun (s : State) (i : Nat) (v : Bool) => s.setBit Obj.FW_STATUS 0 0 i v
  let s := bit (bit s 0 (f.running == some false)) 1 (f.running == some true)
  match f.running with
  | some b => bit ((bit s 2 (f.verified (!b))).putN Obj.FW_VERSION 0 0 (ver b)) 4 (f.trial == some b)
  | none => bit (bit s 2 false) 4 false

/-- R446 to R448: the slot that start-up runs: a trial image that verifies, else the committed slot, else the other one; none
where both fail. -/
def Firmware.choose (f : Firmware) (ok : Bool → Bool) : Firmware :=
  let good := fun (b : Bool) => (f.slot b).isSome && ok b
  let f := match f.trial with
    | some b => if good b then f else { f with trial := none, abandoned := true }
    | none => f
  let pick := match f.trial with
    | some b => some b
    | none => if good f.committed then some f.committed else if good (!f.committed) then some (!f.committed) else none
  { f with running := pick, failed := [false, true].filter (fun b => (f.slot b).isSome && !ok b) }

/-- R446: the image that the part leaves Evwaif with (log entry 40) stands in a slot that verifies while no slot was written. -/
def Firmware.factory (f : Firmware) (ok : Bool → Bool) : Firmware :=
  let img : FwImage := { version := Config.fwVersion, rollback := Config.fwRollback }
  if f.slotA.isSome || f.slotB.isSome then f
  else { f with slotA := if ok false then some img else none, slotB := if ok true then some img else none }

/-- R550 step 3: the firmware slot is chosen; with none the device stays in BOOT. -/
def State.startFirmware (s : State) (r : StartReport) : State :=
  let ok := fun (b : Bool) => if b then r.slotB else r.slotA
  let f := (s.fw.factory ok).choose ok
  let s := s.setBit Obj.FW_STATUS 0 0 5 f.abandoned
  let s := { s with fw := { f with abandoned := false, trialFrom := s.now } }.fwPublish
  if f.running.isSome then { s with power := { s.power with step := 4 } } else s

/-- R408, R410: the training of every channel that is not faulty begins. -/
def State.trainDram (s : State) : State :=
  ((List.range 8).foldl (fun (s : State) c =>
    if s.rdN Obj.DR_CH_STATE 0 c = drFaulty then s else s.putN Obj.DR_CH_STATE 0 c drTraining) s).dramPublish

/-- R534, R550 step 4: the march tests: repairs and spares by island, islands without enough spares out of service, the others
running. CTL, FAB, TIM and AON without enough spares keep the device in BOOT. -/
def State.startBist (s : State) (r : StartReport) : State :=
  let s := r.repairs.foldl (fun s x => (s.putN Obj.BIST_REPAIRS 0 x.1 x.2.1).putN Obj.BIST_SPARES_LEFT 0 x.1 x.2.2) s
  let bad := r.failed.map (fun i => i.val)
  let s := (List.range 40).foldl (fun s i =>
    if bad.contains i then
      (if isPipe i then (s.setPipe (i - 2) psFaulty).partFault 0 (i - 2) else s).putN Obj.ISLAND_STATE 0 i 4
    else if i = 35 && !s.cxl.perst then s.putN Obj.ISLAND_STATE 0 i 2
    else if s.rdN Obj.ISLAND_STATE 0 i = 4 then s
    else s.putN Obj.ISLAND_STATE 0 i 1) s
  let s := (s.chordArm 0).chordArm 1
  if bad.any (fun i => i < 2 || 38 ≤ i) then s else { s.coreVolts.trainDram with power := { s.power with step := 5 } }

/-- R408, R409, R550 step 5: DRAM trains; after a warm reset it leaves self-refresh. A warm reset goes on with step 7. -/
def State.startDram (s : State) (r : StartReport) : State :=
  let bad := r.dram.map (fun c => c.val)
  let s := (List.range 8).foldl (fun s c =>
    if bad.contains c then s.channelFault c
    else if s.rdN Obj.DR_CH_STATE 0 c = drFaulty then s
    else s.putN Obj.DR_CH_STATE 0 c drReady) s
  { s.dramPublish with power := { s.power with step := if s.power.warm then 7 else 6 } }

/-- R538, R543: the Almanac is taken from its valid copy with the higher generation; with neither it starts from zero. -/
def State.restoreAlmanac (s : State) : State :=
  let pick := match s.vault.almA.filter almOk, s.vault.almB.filter almOk with
    | some a, some b => some (if leAt a 8 8 < leAt b 8 8 then b else a)
    | some a, none => some a
    | none, b => b
  match pick with
  | some m =>
    (((s.almLoad m).putN Obj.ALM_GENERATION 0 0 (leAt m 8 8)).putN Obj.ALM_LAST_WRITE 0 0 (leAt m 16 8)).setBit Obj.ALM_STATUS 0 0 0 true
  | none =>
    ((s.setBit Obj.ALM_STATUS 0 0 2 true).setBit Obj.ALM_STATUS 0 0 0 true).raise .ALMANAC_LOST (Obj.ALM_STATUS.ident)

/-- Numbers `a` to `b - 1`. -/
def between (a b : Nat) : List Nat := (List.range (b - a)).map (fun i => a + i)

/-- R345: a ledger may be restored: contiguous SEQs and ORDER_IDs that match the counts, and every record's CRC. -/
def ledgerCopyOk (x : LedgerCopy) : Bool :=
  x.records.map (fun r => r.1) == between (x.recAck + 1) x.nextSeq &&
    x.orders.map (fun o => o.1) == between (x.outAck + 1) x.nextOrder &&
    x.records.all (fun r => withCrc (r.2.take 124) == r.2)

/-- R343, R565: the ledger part of a save area. -/
def SaveArea.part (x : SaveArea) : List Byte := x.image.drop 4096

/-- R343: the ledger of a save: order entry `i` is that of `OUT_ACK_ORDER` + 1 + `i`, with its SEQ and its row where the outcome
record has them (R302). -/
def SaveArea.ledger (x : SaveArea) : LedgerCopy :=
  let b := x.part
  let n := leAt b 32 4
  { nextSeq := leAt b 0 8, nextOrder := leAt b 8 8, recAck := leAt b 16 8, outAck := leAt b 24 8
    records := (List.range n).map (fun i => (leAt b (64 + 128 * i) 8, (b.drop (64 + 128 * i)).take 128))
    orders := (List.range (leAt b 36 4)).map (fun i =>
      let o := (b.drop (64 + 128 * n + 28 * i)).take 28
      (leAt b 24 8 + 1 + i, leAt o 0 8, leAt o 25 1, o))
    extended := x.extended }

/-- R345: the header of a save's ledger matches its CRC, and its counts the SEQs and ORDER_IDs. -/
def SaveArea.headerOk (x : SaveArea) : Bool :=
  let b := x.part
  leAt b 60 4 == crc32c (b.take 60) && leAt b 32 4 == leAt b 0 8 - (leAt b 16 8 + 1) &&
    leAt b 36 4 == leAt b 8 8 - (leAt b 24 8 + 1)

/-- R345: the restored ledger: its records and outcomes are to be written again. `mirrored` says that it came from the mirror
(R346). -/
def State.ledgerRestore (s : State) (x : LedgerCopy) (mirrored : Bool) : State :=
  let recs := x.records.map (fun r => ({ seq := r.1, record := r.2, ext := [], stored := true } : LedgerRecord))
  let ords := x.orders.map (fun o =>
    ({ orderId := o.1, seq := o.2.1, row := o.2.2.1, outcome := withCrc o.2.2.2, stored := true } : LedgerOrder))
  let ids : List Nat := x.orders.map (fun o => o.1)
  let s := { s with lg := { records := recs, orders := ords, closed := ids } }
  let s := ((s.putN Obj.LG_NEXT_SEQ 0 0 x.nextSeq).putN Obj.LG_NEXT_ORDER 0 0 x.nextOrder).putN Obj.REC_ACK_SEQ 0 0 x.recAck
  let s := ((s.putN Obj.OUT_ACK_ORDER 0 0 x.outAck).putN Obj.REC_HEAD_SEQ 0 0 x.recAck).putN Obj.OUT_LOW_ORDER 0 0 (x.outAck + 1)
  let s := if x.extended = 0 then s else s.count Obj.LG_EXT_NOT_RESTORED 0 0 x.extended
  let s := s.setBit Obj.LG_STATUS 0 0 lgFromMirror mirrored
  ((s.setBit Obj.LG_STATUS 0 0 lgValid true).setBit Obj.LG_STATUS 0 0 lgReissuing true).lgPublish

/-- R346: the ledger was not restored: it is taken from the mirror where a valid window exists there, and else the unit will
stay in INIT until it is discarded. -/
def State.ledgerGone (s : State) (mirror : Option LedgerCopy) : State :=
  match mirror with
  | some x => if ledgerCopyOk x then s.ledgerRestore x true else s.setBit Obj.LG_STATUS 0 0 8 true
  | none => s.setBit Obj.LG_STATUS 0 0 8 true

/-- R32, R566, R567: the epoch ids of a save. -/
def State.restoreEpochs (s : State) (x : SaveArea) : State :=
  { s.putList Obj.EPOCH_ID 0 ((List.range 12).map (fun g => (leAt x.image (64 + 4 * g) 4 : Int))) with
    epochs := { s.epochs with begun := List.range 12 } }

/-- R342, R566: no area holds a newer save: SEQ and ORDER_ID start at 1 at the part's first power-on, and follow the
watermarks under R346 afterwards. -/
def State.noSave (s : State) (mirror : Option LedgerCopy) : State :=
  if s.vault.seqMark = 1 && s.vault.restored = 0 then (s.setBit Obj.LG_STATUS 0 0 lgValid true).lgPublish
  else s.ledgerGone mirror

/-- R566, R567: the save areas are examined. -/
def State.restoreSave (s : State) (mirror : Option LedgerCopy) : State :=
  let gen := fun (a : Option SaveArea) => (a.map (fun x => x.generation)).getD 0
  let v := s.vault
  let (newer, older) := if gen v.saveA < gen v.saveB then (v.saveB, v.saveA) else (v.saveA, v.saveB)
  match newer with
  | none => s.noSave mirror
  | some x =>
    if !x.complete then
      let s := (s.pwBit pwSaveTorn true).raise .VAULT_SAVE_TORN (Obj.PW_STATUS.ident)
      let s := match older with
        | some y => if y.complete then s.restoreEpochs y else s
        | none => s
      s.ledgerGone mirror
    else if v.restored < x.generation then
      let s := (s.restoreEpochs x).putN Obj.MER_STATION 0 0 (leAt x.image 114 2)
      let s := { s with vault := { s.vault with restored := x.generation } }.pwBit pwRestored true
      if x.headerOk && ledgerCopyOk x.ledger then s.ledgerRestore x.ledger false else s.ledgerGone mirror
    else s.noSave mirror

/-- R550 step 6: the Vault is restored. -/
def State.startVault (s : State) (r : StartReport) : State :=
  let s := s.restoreAlmanac.restoreSave r.mirror
  { s with power := { s.power with step := 7 } }

/-- R2: some island group is below 0 °C. -/
def State.cold (s : State) : Bool := (s.rdList Obj.PW_TEMP 0 4).any (fun c => decide (c < 0))

/-- R551: the pipelines that are not faulty run self-test as a heat load, or end it. -/
def State.warmup (s : State) (on : Bool) : State :=
  (List.range 13).foldl (fun s q =>
    if s.pipeState q = psFaulty then s
    else s.setPipe q (if on then psTesting else if s.rdN Obj.RV_SPARE = q then psSpare else psServing)) (s.pwBit pwWarmup on)

/-- R423: entry to INIT presets the station to the alias. -/
def State.enterInit (s : State) : State :=
  let s := s.setMode stInit
  if s.flag Obj.MER_ALIAS_ENABLE && s.rdN Obj.MER_ALIAS ≠ 0 then s.putN Obj.MER_STATION 0 0 (s.rdN Obj.MER_ALIAS) else s

/-- The bytes of a string (R15). -/
def textBytes (t : String) : List Byte := t.toList.map Char.toNat

/-- R444: what refused the last transition. -/
def State.showRefusal (s : State) (ident : Nat) (e : Ev) : State :=
  (s.putN Obj.STATE_REFUSE_INDEX 0 0 ident).putBlob Obj.STATE_REFUSE_TEXT 0 0 (textBytes e.text)

/-- R444: a transition is refused: every failing check raises its event, and the first is shown. -/
def State.refuse (s : State) (l : List (Nat × Ev)) : State :=
  let s := l.foldl (fun s x => s.raise x.2 x.1) s
  match l with
  | [] => s
  | x :: _ => s.showRefusal x.1 x.2

/-- R2: a group below 0 °C keeps the unit in INIT. The spec names no event for it (log entry 49). -/
def State.coldRefusals (s : State) : List (Nat × Ev) :=
  if s.cold then [(Obj.PW_TEMP.ident, .PW_WARMUP_TIMEOUT)] else []

/-- R344, R345, R423, R550 step 7, R551: INIT: the station is preset to the alias, a ledger that was not restored is raised, and
an AZ1213-E below 0 °C warms up. An AZ1213-C below 0 °C stays there and reports it (R2; log entry 49). -/
def State.startInit (s : State) : State :=
  let s := s.enterInit
  let s := if s.bit Obj.LG_STATUS 0 0 8 then s.raise .LEDGER_RESTORE_FAILED (Obj.LG_STATUS.ident) else s
  let s := if Config.coldStart && s.cold then
      { s with power := { s.power with coldAt := some s.now } }.warmup true
    else if s.cold then s.refuse s.coldRefusals
    else s
  { s with power := { s.power with step := 8 } }

/-- R444, R533, R550: INIT is left for PREOP. The first entry after a power loss writes the settings store back, and the
first of every start-up ends it. -/
def State.bootPreop (s : State) : State :=
  let s := (if s.bit Obj.PW_STATUS 0 0 pwWarmup then s.warmup false else s).preopEntry
  if s.power.step = 9 then s
  else
    let s := if !s.power.warm && s.flag Obj.CAL_STORE_AUTO then s.storeRestore else s
    let s := s.putN Obj.PW_START_MS 0 0 ((s.now - s.power.start) / 1000000)
    { s with power := { s.power with step := 9, warm := false, coldAt := none } }

/-- R2, R444, R550 step 8: PREOP, where the ledger is valid and no group is below 0 °C. A unit without a valid ledger ends its
start-up in INIT. -/
def State.startPreop (s : State) : State :=
  if s.mode ≠ stInit then { s with power := { s.power with step := 10 } }
  else if !s.bit Obj.LG_STATUS 0 0 lgValid then
    { s.showRefusal (Obj.LG_STATUS.ident) .LEDGER_RESTORE_FAILED with power := { s.power with step := 10 } }
  else if s.cold then s
  else s.bootPreop

/-- R37, R412, R550 step 2: CTL comes out of reset, and device time runs from the locked PLL. -/
def State.startControl (s : State) (r : StartReport) : State :=
  let s := (s.merPowerOn (r.cages.map (fun p => p.val))).merMedium
  let s := ((s.putN Obj.ISLAND_STATE 0 0 1).putN Obj.ISLAND_STATE 0 1 1).setBit Obj.TIME_STATUS 0 0 tsLock true
  { s with power := { s.power with step := 3 } }

/-- R550: the step of start-up that runs completes. While NRESET is low the device holds in step 2, or where its reset left
it (R549), and in FAULT until the reset (R445). -/
def execStartupStepDone (t : Nat) (report : StartReport) (s : State) : Result :=
  let s := s.at t
  if s.power.nreset || s.mode == stSave || s.mode == stFault then .next s
  else match s.power.step with
    | 2 => .next (s.startControl report)
    | 3 => .next (s.startFirmware report)
    | 4 => .next (s.startBist report)
    | 5 => .next (s.startDram report)
    | 6 => .next (s.startVault report)
    | 7 => .next s.startInit
    | 8 => .next s.startPreop
    | _ => .next s

/-- R551: a group is still below 0 °C after `PW_WARMUP_MAX_S`: the device stays in INIT. -/
def execPwWarmupTimeout (t : Nat) (s : State) : Result :=
  let s := s.at t
  match s.power.coldAt with
  | some c =>
    if s.mode = stInit && s.cold && c + s.rdN Obj.PW_WARMUP_MAX_S * 1000000000 ≤ s.now then
      .next ({ s with power := { s.power with step := 10, coldAt := none } }.refuse [(Obj.PW_TEMP.ident, .PW_WARMUP_TIMEOUT)])
    else .next s
  | none => .next s

/-! ## Supervision (R548, R554) -/

/-- R548: a power-good input falls, or a regulator reports a fault, outside sequencing and SAVE: the bank is blocked, KILL goes
out, and the device saves with cause 3 while the rails that the save needs are good, or powers down without one. -/
def State.railFault (s : State) (low : List Nat) : State :=
  if s.power.step < 2 || s.mode == stSave then s
  else
    let s := s.gateBank.killLinks
    let s := if low.isEmpty then s else s.pwBit pwRailsOk false
    let s := s.raise .PW_RAIL_FAULT (Obj.PW_RAIL_STATUS_WORD.ident)
    if low.any (fun r => [0, 2, 3, 5, 7, 8, 9].contains r) || !s.canSave then s.powerDown
    else s.enterSave 3

/-- R548: power-good inputs fall. -/
def execPgFall (t : Nat) (low : List (Fin 10)) (s : State) : Result :=
  let s := s.at t
  .next (if low.isEmpty then s else s.railFault (low.map (fun r => r.val)))

/-- R554: the groups at or above a temperature. -/
def hotGroups (temps : List Int) (limit : Int) : List Nat :=
  (List.range 4).filter (fun g => decide (limit ≤ temps.getD g 0))

/-- R554: the junction temperatures of the four island groups. A group that comes to the warning or to the trip raises it; a
trip saves with cause 1, or in BOOT powers down at once. -/
def execTempSample (t : Nat) (temps : List Int) (s : State) : Result :=
  let s := s.at t
  if s.power.step < 2 then .next s
  else
    let s := s.putList Obj.PW_TEMP 0 temps
    let s := (List.range 4).foldl (fun s g =>
      s.put Obj.PW_TEMP_MAX_SEEN 0 g (max (s.rd Obj.PW_TEMP_MAX_SEEN 0 g) (temps.getD g 0))) s
    let warn := hotGroups temps (s.rd Obj.PW_TEMP_WARN_C)
    let trip := hotGroups temps 103
    let fresh := warn.filter (fun g => !s.power.warn.contains g)
    let tripped := trip.filter (fun g => !s.power.trip.contains g)
    let s := { s with power := { s.power with warn := warn, trip := trip } }.pwBit pwThermalWarn (!warn.isEmpty)
    let s := fresh.foldl (fun s g => s.raise .THERMAL_WARN (Obj.PW_TEMP.ident 0 g)) s
    let s := tripped.foldl (fun s g =>
      (s.count Obj.PW_THERMAL_TRIPS 0 0 1).raise .THERMAL_TRIP (Obj.PW_TEMP.ident 0 g)) s
    if tripped.isEmpty || s.mode == stSave then .next s
    else if s.canSave then .next (s.enterSave 1)
    else .next { s with power := { s.power with tripped := some s.now } }.powerDown

/-- R554: 60 s on standby power after a thermal trip: start-up. -/
def execThermalRestart (t : Nat) (s : State) : Result :=
  let s := s.at t
  match s.power.tripped with
  | some x => .next (if s.power.step = 0 && x + 60000000000 ≤ s.now then s.startUp else s)
  | none => .next s

/-! ## The sag detector (R555, R556) -/

/-- R555: the converter in AON reads VIN; `PW_VIN_MIN_MV` follows from ARMED entry on. -/
def State.vinRead (s : State) (mv : Nat) : State :=
  let s := s.putN Obj.PW_VIN_MV 0 0 mv
  let low := s.rdN Obj.PW_VIN_MIN_MV
  if s.tim.armedSinceReset then s.putN Obj.PW_VIN_MIN_MV 0 0 (if low = 0 then mv else min low mv) else s

/-- R537, R555: a fall of VIN below the threshold adds its lowest value. -/
def State.sagSample (s : State) (lowest : Nat) : State :=
  s.almBin Obj.ALM_HIST_SAG 0 4 (min 31 ((10200 - lowest) / 100))

/-- R555: VIN falls below the threshold. A sag during deep sleep does nothing (R568). -/
def execVinFall (t : Nat) (millivolts : Nat) (s : State) : Result :=
  let s := s.at t
  if s.power.asleep || s.power.below.isSome then .next s
  else .next (({ s with power := { s.power with below := some s.now } }.vinRead millivolts).pwBit pwSag true)

/-- R555, R559: VIN is above the threshold again: a fall of less than 20 µs is counted. Above the threshold the command says
what VIN has risen to. -/
def execVinRise (t : Nat) (millivolts lowest : Nat) (s : State) : Result :=
  let s := s.at t
  match s.power.below with
  | none =>
    let resume := s.rdN Obj.PW_RESUME_MV
    let s := if s.rdN Obj.PW_VIN_MV ≤ resume && resume < millivolts then
      { s with power := { s.power with risen := s.now } } else s
    .next (s.vinRead millivolts)
  | some b =>
    let short := !s.power.sagged && decide (s.now < b + 20000)
    let s := if short then s.count Obj.PW_SAG_SHORT 0 0 1 else s
    let s := if s.power.sagged then s else (s.vinRead lowest).sagSample lowest
    let s := { s with power := { s.power with below := none, sagged := false, risen := s.now } }
    .next (((s.vinRead millivolts).pwBit pwSag false).setLevel 68 false)

/-- R555, R556: VIN has been below the threshold for 20 µs: the device saves with cause 0; a SAVE that a thermal trip began at
the same instant has cause 0 as well. In BOOT no save is made. -/
def execVinSag (t : Nat) (lowest : Nat) (s : State) : Result :=
  let s := s.at t
  match s.power.below with
  | none => .next s
  | some b =>
    if s.power.sagged || s.power.asleep || s.now < b + 20000 then .next s
    else
      let s := { s with power := { s.power with sagged := true } }.setLevel 68 true
      let s := (s.vinRead lowest).sagSample lowest
      if s.mode = stBoot && !s.power.warm then .next s
      else
        let s := (s.count Obj.PW_SAG_COUNT 0 0 1).raise .VIN_SAG (Obj.PW_SAG_COUNT.ident)
        match s.power.save with
        | some x =>
          if x.cause = 1 && x.since = s.now then
            .next { s with
              power := { s.power with save := some { x with cause := 0 } }
              vault := match s.vault.save x.area with
                | some a => s.vault.setSave x.area (a.withCause 0)
                | none => s.vault }
          else .next s
        | none => .next (s.enterSave 0)

/-! ## The end of a save (R557, R559, R562, R568) -/

/-- R562: the energy left above 7.0 V in µJ, from VIN in mV. -/
def State.energyLeft (s : State) (mv : Nat) : Nat :=
  s.rdN Obj.PW_HOLDUP_CAP_UF * (mv * mv - 49000000) / 2000000

/-- R557, R562: the save area and the Almanac image are written and HOLD_OK is asserted; after a thermal trip or for deep sleep
the rails go down. The energy sample joins the image, since no count of a completed save is lost (R539). -/
def execSaveWriteDone (t : Nat) (millivolts : Nat) (s : State) : Result :=
  let s := s.at t
  match s.power.save with
  | none => .next s
  | some x =>
    match s.vault.save x.area with
    | none => .next s
    | some a =>
      if x.done.isSome then .next s
      else
        let s := { s with vault := s.vault.setSave x.area a.close }
        let e := s.energyLeft millivolts
        let s := (s.almBin Obj.ALM_HIST_ENERGY 0 5 (min 31 (e / 2500))).almanacWrite
        let s := s.vinRead millivolts
        let s := s.putList Obj.PW_LAST_SAVE 0 ([leAt a.image 16 8, x.cause, s.now - x.since, a.image.length + 64, millivolts, e, a.generation].map
          (fun (n : Nat) => (n : Int)))
        let s := (s.pwBit pwSaving false).pwBit pwHoldOk true
        let s := { s with power := { s.power with save := some { x with done := some s.now } } }
        match x.cause with
        | 1 => .next { s with power := { s.power with tripped := some s.now } }.powerDown
        | 2 => .next { s with power := { s.power with asleep := true } }.powerDown
        | _ => .next s

/-- R559: VIN has stayed above `PW_RESUME_MV` for 100 ms after the save: the rails go down and start-up begins. -/
def execSaveResume (t : Nat) (s : State) : Result :=
  let s := s.at t
  match s.power.save with
  | some x =>
    match x.done with
    | some d =>
      let above := s.power.below.isNone && s.rdN Obj.PW_RESUME_MV < s.rdN Obj.PW_VIN_MV
      .next (if above && max s.power.risen d + 100000000 ≤ s.now then s.powerDown.startUp else s)
    | none => .next s
  | none => .next s

/-- R556, R559: VIN falls below 7.0 V: the rails drop. -/
def execVinCollapse (t : Nat) (s : State) : Result :=
  let s := s.at t
  .next (if s.power.below.isSome && s.power.step ≠ 0 then s.railsDown else s)

/-- R549: VDD_STBY3V3 is lost, and AON with it. -/
def execStandbyLoss (t : Nat) (s : State) : Result := .next ((s.at t).powerLost false)

/-- R568: a write of `PW_SLEEP_CMD`: PREOP only. -/
def execPwSleepCmd (t : Nat) (path : Path) (value : List Byte) (s : State) : Result :=
  let s := (s.at t).touch path
  let k := Obj.PW_SLEEP_CMD.key 0 0
  match s.checkWrite path Obj.PW_SLEEP_CMD 0 0 value with
  | 0 => if s.mode = stPreop then .next ((s.answer path k 0).enterSave 2) else .next (s.answer path k 4)
  | r => .next (s.answer path k r)

/-- R568: what ends deep sleep: start-up from step 1. -/
def State.wakeUp (s : State) : State := if s.power.asleep && s.power.step == 0 then s.startUp else s

/-- R576: the pin REFCLK_EN: low only in deep sleep and after HOLD_OK. -/
def State.refclkEn (s : State) : Bool := !s.power.asleep && !s.bit Obj.PW_STATUS 0 0 pwHoldOk

/-- R571: a read of `PW_STATUS` clears RAIL_WARN. -/
def execPwStatusRead (t : Nat) (path : Path) (s : State) : Result :=
  let s := (s.at t).touch path
  let k := Obj.PW_STATUS.key 0 0
  let s := (s.emit (.value path k (s.rdN Obj.PW_STATUS))).answer path k 0
  .next (s.pwBit pwRailWarn false)

end Sys2Proof.Machine
end

