-- ==== Sys2Proof/Machine/States.lean ====
section
/-! DEFINITION. The device states: requests and their checks, the entries to ARMED, RUN, HOLD, PREOP, INIT and FAULT, and the
loss and return of the PLL's lock (spec/14_meridian_chain_and_dictionary.md, R443 to R445; R17, R23, R30, R32, R39, R68, R73,
R79, R97, R102, R110, R111, R166, R167, R192, R199, R218, R308, R368, R398, R430, R561). -/

namespace Sys2Proof.Machine

open Sys2Proof

/-! ## The checks on leaving PREOP

They look at the values that become live, so they run on a state in which every staged value of effect preop is live. -/

/-- R65: the payload of a lane in Mb/s by rate code. -/
def lanePayload (rate : Nat) : Nat :=
  match rate with
  | 1 => 1000 | 2 => 2000 | 3 => 2500 | 5 => 4000 | 6 => 5000 | 10 => 8000 | 12 => 10000
  | _ => 0

/-- R68: the bandwidth checks of a port. -/
def State.bandwidthOk (s : State) (p : Nat) : Bool :=
  let w := s.rdN Obj.CAM_WIDTH p
  let t := s.rdN Obj.TG_MIN_PERIOD_NS 0 p
  decide (3000 ≤ t) && decide ((w * 8333 + 16383) / 16384 ≤ t) &&
    decide (w * s.rdN Obj.CAM_DEPTH p * 100000 ≤
      95 * s.rdN Obj.CAM_LANES p * lanePayload (s.rdN Obj.CAM_RATE p) * t)

/-- R73, R74: the width and delivery rules of a port's layout. -/
def State.layoutOk (s : State) (p : Nat) : Bool :=
  let w := s.rdN Obj.CAM_WIDTH p
  let layout := s.rdN Obj.CAM_LAYOUT p
  let unit := match layout with | 0 => 64 | 1 => 128 | _ => 192
  w % unit == 0 && (layout != 2 || decide (w ≤ 16320)) && (layout == 1 || s.rdN Obj.CAM_ROW_DELIVERY p == 0)

/-- R67, R68, R73: an enabled port is up, and its configuration passes. A port that is down names what its link shows
(log entry 48). -/
def State.cameraRefusals (s : State) (p : Nat) : List (Nat × Ev) :=
  let down : Ev :=
    if s.bit Obj.CAM_LINK_STATUS p 0 camCableError then .CAM_CABLE_ERROR
    else if s.bit Obj.CAM_LINK_STATUS p 0 camRefused then .CAM_CONFIG_REFUSED
    else .CAM_LINK_DOWN
  (if s.camIsUp p then [] else [(Obj.CAM_ENABLE.ident p, down)]) ++
    (if s.layoutOk p then [] else [(Obj.CAM_LAYOUT.ident p, .CAM_LAYOUT_REFUSED)]) ++
    (if s.bandwidthOk p then [] else [(Obj.TG_MIN_PERIOD_NS.ident 0 p, .CAM_BANDWIDTH)])

/-- R30: the settings that the enabled ports of a group must share. -/
def triggerRows : List ObjRow :=
  [Obj.TG_SOURCE, Obj.TG_PERIOD, Obj.TG_DIVIDER, Obj.TG_DIR, Obj.TG_PHASE, Obj.TG_MIN_PERIOD_NS]

/-- R30: what the enabled ports of group `g` do not share. -/
def State.triggerRefusals (s : State) (g : Nat) : List (Nat × Ev) :=
  match s.groupPorts g with
  | [] => []
  | p :: rest => (triggerRows.flatMap (fun o => (rest.filter (fun q => s.next o 0 q g != s.next o 0 p g)).map
      (fun q => (o.ident 0 q, Ev.TRIGGER_GROUP_MIXED)))).take 1

/-- The blob an RWE object of a port has from the arming epoch on. -/
def State.nextBlob (s : State) (o : ObjRow) (p : Nat) : List Byte :=
  match find? s.epochs.stagedBlobs (o.key p 0) with
  | some b => b
  | none => s.rdBlob o p

/-- R97, R102, R111: the mask, the defect map and the plate reference of a port against its layout. With RC_MASK_COUNT = 0 any
RC_MASK_START passes (log entry 219). -/
def State.rawRefusals (s : State) (p : Nat) : List (Nat × Ev) :=
  let c := s.camC p
  let w := s.rdN Obj.CAM_WIDTH p
  let layout := s.rdN Obj.CAM_LAYOUT p
  let start := s.rdN Obj.RC_MASK_START p
  let n := s.rdN Obj.RC_MASK_COUNT p
  let mask := n == 0 || (decide (start + n ≤ c) && (start == 0 || start + n == c) && (layout != 1 || n % 2 == 0))
  let ref := s.nextPlateRef p
  (if mask then [] else [(Obj.RC_MASK_COUNT.ident p, .RC_MASK_REFUSED)]) ++
    (if ref.isEmpty || ref.length == 2 * w then [] else [(Obj.RC_FF_PLATE_REF.ident p, .PLATE_REF_REFUSED)]) ++
    (if mapFits (s.nextBlob Obj.RC_DEFECT_MAP p) layout w then [] else [(Obj.RC_DEFECT_MAP.ident p, .DEFECT_MAP_REFUSED)])

/-- R166: an enabled port without a live or a staged atlas. -/
def State.atlasRefusals (s : State) (p : Nat) : List (Nat × Ev) :=
  if (s.rdBlob Obj.AT_BLOB p).isEmpty && (s.atStaged p).isNone then [(Obj.AT_BLOB.ident p, .ATLAS_MISSING)] else []

/-- R430: a mapped element is right for its list: it exists and has at most 8 bytes; an output is owned by the chain and RW or
RWE. -/
def State.mapEntryOk (s : State) (out : Bool) (w : Nat) : Bool :=
  match objAt (w / 256) with
  | none => false
  | some (o, b, e) =>
    o.size e != 0 && (!out || (s.ownerOf o b e == 0 && (o.access == .rw || o.access == .rwe)))

/-- R430: the mapping. -/
def State.mapRefusals (s : State) : List (Nat × Ev) :=
  let list := fun (out : Bool) (o : ObjRow) =>
    let l := s.mapping o
    if l.all (s.mapEntryOk out) && l.eraseDups.length == l.length && decide (sumNat (l.map mapBytes) ≤ 512) then []
    else [(o.ident, Ev.MER_MAP_REFUSED)]
  let a := s.mapWindow Obj.MAP_OUT Obj.MAP_OUT_BASE
  let b := s.mapWindow Obj.MAP_IN Obj.MAP_IN_BASE
  list true Obj.MAP_OUT ++ list false Obj.MAP_IN ++ (if rangesMeet a b then [(Obj.MAP_IN_BASE.ident, .MER_MAP_REFUSED)] else [])

/-- R23: what a unit that is not aligned is refused for while it has a chord link in use, one that is up; the spec names no event
(log entry 49). -/
def State.alignRefusals (s : State) : List (Nat × Ev) :=
  if (s.chUp 0 || s.chUp 1) && !s.bit Obj.TIME_STATUS 0 0 tsAligned then [(Obj.TIME_STATUS.ident, .TIME_UNLOCK)] else []

/-- R23, R368, R561: the unit's own conditions: the hold-up capacitor, IDE where it is required, and its alignment. -/
def State.unitRefusals (s : State) : List (Nat × Ev) :=
  (if s.rdN Obj.PW_HOLDUP_CAP_UF < 3300 then [(Obj.PW_HOLDUP_CAP_UF.ident, .PW_HOLDUP_SHORT)] else []) ++
    (if s.flag Obj.CX_IDE_REQUIRED && !s.cxl.ide.all id then [(Obj.CX_IDE_REQUIRED.ident, .CX_IDE_MISSING)] else []) ++
    s.alignRefusals

/-- R444: every check on leaving PREOP. -/
def State.leaveRefusals (s : State) : List (Nat × Ev) :=
  let ports := (List.range 12).filter (fun p => s.flag Obj.CAM_ENABLE p)
  ports.flatMap (fun p => s.cameraRefusals p) ++ (List.range 12).flatMap (fun g => s.triggerRefusals g) ++
    ports.flatMap (fun p => s.rawRefusals p ++ s.rgRefusals p ++ s.atlasRefusals p) ++
    ((s.stitchRefusals.take 1).map (fun i => (i, Ev.ST_CONFIG_REFUSED))) ++ s.vdRefusals ++ s.bankRefusals ++ s.reticleRefusals ++
    (if s.allocationFits then [] else [(Obj.DR_ALLOCATED.ident, .DR_ALLOC_REFUSED)]) ++ s.amRefusals ++ s.mapRefusals ++
    s.unitRefusals

/-- R68, R102, R210, R219, R291, R561: the status bits that the checks leave. -/
def State.leaveBits (s : State) (l : List (Nat × Ev)) : State :=
  let has := fun (e : Ev) (i : Nat) => l.any (fun x => x.2 == e && x.1 == i)
  let any := fun (e : Ev) => l.any (fun x => x.2 == e)
  let s := (List.range 12).foldl (fun (s : State) p =>
    let s := if s.flag Obj.CAM_ENABLE p && s.camIsUp p then
        s.camBit p camRefused (has .CAM_BANDWIDTH (Obj.TG_MIN_PERIOD_NS.ident 0 p))
      else s
    if has .DEFECT_MAP_REFUSED (Obj.RC_DEFECT_MAP.ident p) then s.rcBit p rsMapRefused true else s) s
  let s := s.setBit Obj.EJ_STATUS 0 0 ejRefused (any .EJ_CONFIG_REFUSED)
  let s := if any .EP_GEOMETRY_REFUSED then s.setBit Obj.EP_STATUS 0 0 2 true else s
  let s := s.setBit Obj.ST_STATUS 0 0 0 (!any .ST_CONFIG_REFUSED)
  (s.setBit Obj.VD_STATUS 0 0 vdMissing (any .VD_PROGRAM_MISSING)).pwBit pwHoldupShort (any .PW_HOLDUP_SHORT)

/-! ## Requests (R443, R444) -/

/-- R444: the transitions that a request may ask for. -/
def requestAllowed (mode target : Nat) : Bool :=
  [(2, 1), (1, 2), (2, 3), (3, 4), (5, 4), (4, 5), (3, 2), (4, 2), (5, 2)].contains (mode, target)

/-- R443: a transition begins; `DEVICE_STATE` shows the old state until it is done. -/
def State.toState (s : State) (target : Nat) : State := { s with trans := some { target := target, since := s.now } }

/-- R443: a written request: refused while a transition runs or where R444 lists none; for the present state it does nothing;
else `f` checks it and begins the transition. -/
def State.stateRequest (s : State) (path : Path) (target : Nat) (f : State → State) : State :=
  let s := s.touch path
  let k := Obj.STATE_REQUEST.key 0 0
  match s.checkWrite path Obj.STATE_REQUEST 0 0 [target] with
  | 0 =>
    if s.trans.isSome then s.answer path k 4
    else if s.mode = target then (s.putN Obj.STATE_REQUEST 0 0 target).answer path k 0
    else if !requestAllowed s.mode target then s.answer path k 4
    else f ((s.putN Obj.STATE_REQUEST 0 0 target).answer path k 0)
  | r => s.answer path k r

/-- R444: `STATE_REQUEST` = 1. -/
def execReqInit (t : Nat) (path : Path) (s : State) : Result :=
  .next ((s.at t).stateRequest path stInit (fun s => s.toState stInit))

/-- R2, R346: what keeps a unit in INIT. -/
def State.initRefusals (s : State) : List (Nat × Ev) :=
  (if s.bit Obj.LG_STATUS 0 0 lgValid then [] else [(Obj.LG_STATUS.ident, Ev.LEDGER_RESTORE_FAILED)]) ++
    s.coldRefusals

/-- R75, R444: lines stop: no generator runs, and what each port still holds is drained. -/
def State.stopLines (s : State) : State :=
  (List.range 14).foldl (fun s p => s.drainPort p) (s.stopTriggers.toState stPreop)

/-- R444: a request for PREOP, from INIT with its checks, or from where lines are taken. -/
def State.requestPreop (s : State) : State :=
  if s.mode = stInit then
    match s.initRefusals with
    | [] => s.toState stPreop
    | l => s.refuse l
  else s.stopLines

/-- R444: `STATE_REQUEST` = 2. -/
def execReqPreop (t : Nat) (path : Path) (s : State) : Result := .next ((s.at t).stateRequest path stPreop State.requestPreop)

/-- R79: on the way to ARMED a port writes each setting with a register, changed or not, unless this transition has written it
as it stands. -/
def State.armWrites (s : State) (p : Nat) : State :=
  let g := s.portGroup p
  let ep := if s.epochs.begun.contains g then s.rdN Obj.EPOCH_ID 0 g + 1 else 0
  [false, true].foldl (fun (s : State) gain =>
    let v := s.next (if gain then Obj.CAM_GAIN else Obj.CAM_EXPOSURE) p 0 g
    let w := { s.camWrite p gain v.toNat ep 1 with arming := true }
    if w.addr = 0 || (s.cam p).issued.contains w then s else s.issueWrite p w v) s

/-- R79: every enabled port makes the writes of the arming epoch that it has not made. -/
def State.armWriteAll (s : State) : State :=
  ((List.range 12).filter (fun p => s.flag Obj.CAM_ENABLE p)).foldl (fun s p => s.armWrites p) s

/-- R17, R60, R426: the unit with every value of effect preop live, and with what the unit's being the time reference sets. -/
def State.leavePreop (s : State) : State :=
  let live := s.preopLive
  let live := live.setBit Obj.TIME_STATUS 0 0 tsReference live.timeReference
  if live.timeReference && !live.tim.oscillator then live.setAligned true else live

/-- R17, R79, R426, R444: a request for ARMED: the checks on the values that become live; they become live as the transition
begins (log entry 50), and the cameras are written. -/
def State.requestArmed (s : State) : State :=
  let live := s.leavePreop
  match live.leaveRefusals with
  | [] =>
    let s := (live.leaveBits []).toState stArmed
    ((List.range 12).foldl (fun (s : State) p => s.setCam p { s.cam p with issued := [] }) s).armWriteAll
  | l => (s.refuse l).leaveBits l

/-- R444: `STATE_REQUEST` = 3. -/
def execReqArmed (t : Nat) (path : Path) (s : State) : Result := .next ((s.at t).stateRequest path stArmed State.requestArmed)

/-- R110, R167, R218, R308: what keeps a unit in ARMED. -/
def State.runRefusals (s : State) : List (Nat × Ev) :=
  let ports := (List.range 12).filter (fun p => s.flag Obj.CAM_ENABLE p)
  let groups := (List.range 12).filter (fun g => !(s.groupPorts g).isEmpty)
  (ports.flatMap (fun p => if s.bit Obj.RC_STATUS p 0 rsReady then [] else [(Obj.RC_STATUS.ident p, Ev.PLATE_NOT_READY)])) ++
    (ports.flatMap (fun p =>
      (if s.bit Obj.AT_STATUS p 0 7 then [(Obj.AT_STATUS.ident p, Ev.ATLAS_CLASS_MISMATCH)] else []) ++
        (if s.bit Obj.AT_STATUS p 0 8 then [(Obj.AT_STATUS.ident p, Ev.ATLAS_PROJ_MISMATCH)] else []))) ++
    (groups.flatMap (fun g => if (s.vdg g).mismatch then [(Obj.VD_STATUS.ident, Ev.VD_CLASS_MISMATCH)] else [])).take 1 ++
    (if s.rdN Obj.REC_RING_BASE = 0 then [(Obj.REC_RING_BASE.ident, .RING_MISSING)]
     else if s.rdN Obj.OUT_RING_BASE = 0 then [(Obj.OUT_RING_BASE.ident, .RING_MISSING)] else []) ++
    s.alignRefusals

/-- R444: the object that shows what keeps a unit in HOLD. -/
def State.holdRefusals (s : State) : List (Nat × Ev) :=
  if !s.holdCause then []
  else
    let o := if s.rdN Obj.EJ_ILK_STATE ≠ 0 || s.gated then Obj.EJ_ILK_STATE
      else if s.tim.unlocked then Obj.TIME_STATUS else Obj.MER_PORT_STATUS
    [(o.ident, .HOLD_CAUSE_ACTIVE)]

/-- R308, R328, R444: a request for RUN, from ARMED with its checks or from HOLD once its causes are cleared. -/
def State.requestRun (s : State) : State :=
  let l := if s.mode = stArmed then s.runRefusals else s.holdRefusals
  let s := s.setBit Obj.RING_STATUS 0 0 4 (l.any (fun x => x.2 == .RING_MISSING))
  match l with
  | [] => s.toState stRun
  | l => s.refuse l

/-- R444: `STATE_REQUEST` = 4. -/
def execReqRun (t : Nat) (path : Path) (s : State) : Result := .next ((s.at t).stateRequest path stRun State.requestRun)

/-- R444: `STATE_REQUEST` = 5. -/
def execReqHold (t : Nat) (path : Path) (s : State) : Result :=
  .next ((s.at t).stateRequest path stHold (fun s => s.toState stHold))

/-! ## The transitions (R443) -/

/-- R25, R75, R410: an enabled port, or one that is not, begins an arming empty. -/
def State.armPort (s : State) (p : Nat) : State :=
  let c := s.cam p
  let s := s.setCam p {
    panic := c.panic, writes := c.writes, issued := c.issued, sent := c.sent, skewed := c.skewed, attemptEnd := c.attemptEnd
    heartbeat := c.heartbeat, beat := c.beat, master := c.master
    winWrite := c.winWrite, winLen := c.winLen, winOn := c.winOn, winWait := c.winWait, second := c.second
    sumCur := c.sumCur, sumLast := c.sumLast }
  let s := (s.putN Obj.CAM_LINE_NOW p 0 0).putN Obj.CAM_LINE_CLOSED p 0 0
  let s := s.setBit Obj.AT_STATUS p 0 6 false
  if s.flag Obj.CAM_ENABLE p then ((s.rcArm p).rgArm p).segArm p else s

/-- R32: the arming epoch of a group with an enabled port opens at line 1, with id 0 the first time. -/
def State.armEpoch (s : State) (g : Nat) : State :=
  if (s.groupPorts g).isEmpty then s
  else
    let ep := if s.epochs.begun.contains g then s.rdN Obj.EPOCH_ID 0 g + 1 else 0
    let s := if s.epochs.begun.contains g then s
      else { s with epochs := { s.epochs with begun := s.epochs.begun ++ [g] } }
    s.openEpoch g ep 1

/-- R555: `PW_VIN_MIN_MV` and the other values kept since ARMED entry start again. -/
def State.armSeen (s : State) : State :=
  let s := (s.putN Obj.EJ_QUEUE_MAX_SEEN 0 0 (s.rdN Obj.EJ_QUEUE_USED)).putN Obj.VD_LATENCY_MAX_SEEN 0 0 0
  (s.setBit Obj.VD_STATUS 0 0 vdLate false).putN Obj.PW_VIN_MIN_MV 0 0 (s.rdN Obj.PW_VIN_MV)

/-- R17, R25, R32, R53, R348, R496, R553, R593: the unit enters ARMED. What earlier armings kept of their epochs is gone. -/
def State.enterArmed (s : State) : State :=
  let keep := fun (x : Nat × List (Nat × Int)) => decide (2 ^ 24 ≤ x.1)
  let keepBlob := fun (x : Nat × List (Nat × List Byte)) => decide (2 ^ 24 ≤ x.1)
  let s := { s with
    epochs := { s.epochs with past := s.epochs.past.filter keep, pastBlobs := s.epochs.pastBlobs.filter keepBlob }
    tim := { s.tim with armedSinceReset := true } }
  let s := (s.placeBuffers.setMode stArmed).rvArm.gateIslands
  let s := (List.range 12).foldl (fun s p => s.armPort p) s
  let s := s.stitchArm.dramArm.armSeen
  let s := (List.range 12).foldl (fun s g => s.armEpoch g) s
  let s := (List.range 12).foldl (fun s g => s.tgArm g) s
  let s := [0, 1].foldl (fun (s : State) k =>
    match (s.chp k).peer with
    | some h => if s.chUp k then s.seamCheck k h else s
    | none => s) s
  let s := if s.flag Obj.LG_MIRROR_ENABLE && !s.mirrorUp then s.mirrorLost else s
  ((s.amArm.linkLevel.chordArm 0).chordArm 1).calServe

/-- R75, R199: the exit from ARMED, RUN and HOLD still waits: for a line, a track, an object, a group, or an object on its way
to the acceptor (log entry 51). -/
def State.exitWaits (s : State) : Bool :=
  (List.range 14).any (fun p => !(s.cam p).drained || (s.rcp p).center.isSome || !(s.rcp p).out.isEmpty ||
    !(s.rgp p).queue.isEmpty || !(s.sgp p).objs.isEmpty || !(s.sgp p).done.isEmpty) ||
    !s.st.groups.isEmpty || !s.judged.isEmpty

/-- R164, R237, R444, R532: the unit goes back to PREOP. -/
def State.enterPreop (s : State) : State :=
  let s := (List.range 12).foldl (fun (s : State) p =>
    let s := if (s.atp p).holdLine.isSome then s.atRelease p else s
    ((s.setBit Obj.SG_STATUS p 0 sgActive false).putN Obj.EPOCH_PENDING 0 p 0).replayPanic p false) s
  let s := { s with cont := { s.cont with rotation := none } }
  let s := (List.range 13).foldl (fun s q => if s.pipeState q = psComparing then s.setPipe q psSpare else s) s
  (s.calAbort.vdRelease.preopEntry)

/-- R79, R443: the transition still waits. -/
def State.transWaits (s : State) (target : Nat) : Bool :=
  if target = stArmed then (List.range 12).any (fun p => (s.cam p).writes.any (fun w => w.arming && !w.readback))
  else target = stPreop && s.lining && s.exitWaits

/-- R17, R30, R68, R79, R444: the transition to ARMED completes. What was written while it ran is checked and becomes live with it
(log entry 50), and a link may have gone; the camera settings among it are written first, and the transition waits for them. -/
def State.completeArmed (s : State) : State :=
  let live := s.leavePreop
  match live.leaveRefusals with
  | [] =>
    let s := (live.leaveBits []).armWriteAll
    if s.transWaits stArmed then s else { s with trans := none }.enterArmed
  | l => ({ s with trans := none }.refuse l).leaveBits l

/-- R443: the transition that runs completes after its waits. One whose state has changed meanwhile so that R444 lists none any
more is dropped. -/
def execStateTransitionDone (t : Nat) (s : State) : Result :=
  let s := s.at t
  match s.trans with
  | none => .next s
  | some x =>
    if s.transWaits x.target then .next s
    else
      let done := { s with trans := none }
      if !requestAllowed s.mode x.target then .next done
      else match x.target with
        | 1 => .next done.enterInit
        | 2 => .next (if s.mode = stInit then done.bootPreop else done.enterPreop)
        | 3 => .next s.completeArmed
        | 4 =>
          let s := done
          if s.mode = stHold && s.holdCause then .next (s.refuse s.holdRefusals) else .next s.enterRun.calServe
        | _ => .next (done.enterHold 0)

/-! ## FAULT (R445) -/

/-- R264, R445, R532: CTL, FAB or the firmware has failed: KILL, every pulse that has not completed is dropped, and acceptance
stops. A save that has begun completes (R559, log entry 99). -/
def execFaultEntry (t : Nat) (s : State) : Result :=
  let s := s.at t
  if s.mode = stSave || s.mode = stFault || s.power.step < 3 then .next s
  else
    let s := { (s.calAbort.bankStop .power false).stopTriggers.setMode stFault with trans := none }
    let s := (List.range 14).foldl (fun (s : State) p => if s.bit Obj.SG_STATUS p 0 sgActive then s.drainPort p else s) s
    .next s.settle

/-! ## The PLL's lock (R39) -/

/-- R39, R426, R444: the reference fails or the PLL loses lock: device time goes on from the on-die oscillator, and a unit in RUN
enters HOLD. -/
def execTimeUnlock (t : Nat) (s : State) : Result :=
  let s := s.at t
  if s.tim.oscillator then .next s
  else
    let s := { s with tim := { s.tim with oscillator := true, unlocked := true } }
    let s := (s.setBit Obj.TIME_STATUS 0 0 tsLock false).setBit Obj.TIME_STATUS 0 0 tsAligned s.timeReference
    let s := ((s.setLevel 111 s.timeReference).setLevel 110 true).count Obj.TIME_UNLOCK_COUNT 0 0 1
    .next ((s.raise .TIME_UNLOCK (Obj.TIME_STATUS.ident)).enterHold 2)

/-- R39: lock returns: the rate trim pulls device time back; a reference is aligned with itself. -/
def execTimeRelock (t : Nat) (s : State) : Result :=
  let s := s.at t
  if !s.tim.oscillator then .next s
  else
    let s := { s with tim := { s.tim with oscillator := false } }.setBit Obj.TIME_STATUS 0 0 tsLock true
    .next (if s.timeReference then s.setAligned true else s)

end Sys2Proof.Machine
end

