-- ==== Sys2Proof/Machine/Security.lean ====
section
/-! DEFINITION. Access levels, keys and firmware images (spec/14_meridian_chain_and_dictionary.md, R440, R442, R446 to R448). -/

namespace Sys2Proof.Machine

open Sys2Proof

/-! ## Access levels (R440) -/

/-- The chain's paths and the host's have one level each. -/
def pathIsHost (p : Path) : Bool := p == .host

/-- R440: the level object of a path. -/
def levelRow (host : Bool) : ObjRow := if host then Obj.ACCESS_LEVEL_HOST else Obj.ACCESS_LEVEL_CHAIN

/-- R440: until when a path's attempts are refused. -/
def State.lockedUntil (s : State) (host : Bool) : Nat := if host then s.access.lockHost else s.access.lockChain

/-- R440: the failed attempts of a path and its lockout become these. -/
def State.setFails (s : State) (host : Bool) (fails lock : Nat) : State :=
  { s with access := if host then { s.access with failsHost := fails, lockHost := lock }
      else { s.access with failsChain := fails, lockChain := lock } }

/-- R440: an attempt of a path to raise its level: the third failure in a row locks the path for 10 s. The nonce changes. -/
def State.attempt (s : State) (host ok : Bool) (level : Nat) : State :=
  let fails := (if host then s.access.failsHost else s.access.failsChain) + 1
  let s := if ok then (s.setFails host 0 0).putN (levelRow host) 0 0 level
    else
      (if 3 ≤ fails then s.setFails host 0 (s.now + 10000000000) else s.setFails host fails 0).count Obj.SEC_UNLOCK_FAILS 0 0 1
  s.newNonce

/-- R440: the answer to an attempt that is refused while the path is locked, and to one that fails; the spec gives neither
(log entry 52). -/
def lockedResult : Nat := 4
/-- See `lockedResult`. -/
def failedResult : Nat := 5

/-- R440: a code blob: its LEVEL byte, and 16 code bytes whose SHA-384 is the hash stored for the level; any code while none is
stored. A level at or below the path's own changes nothing. -/
def execAccessCodeWrite (t : Nat) (path : Path) (value : List Byte) (s : State) : Result :=
  let s := (s.at t).touch path
  let host := pathIsHost path
  let o := if host then Obj.ACCESS_CODE_HOST else Obj.ACCESS_CODE_CHAIN
  let k := o.key 0 0
  match s.checkWrite path o 0 0 value with
  | 0 =>
    let level := value.headD 0
    if level ≠ 1 && level ≠ 2 then .next (s.answer path k 5)
    else if level ≤ s.pathLevel path then .next (s.answer path k 0)
    else if s.now < s.lockedUntil host then .next (s.answer path k lockedResult)
    else
      let hash := s.rdBlob Obj.SEC_ACCESS_HASH 0 (level - 1)
      let ok := hash.isEmpty || sha384 (value.drop 1) == hash
      .next ((s.attempt host ok level).answer path k (if ok then 0 else failedResult))
  | r => .next (s.answer path k r)

/-- R442: the key slots, as KEY_ID, PURPOSE and public key; an empty slot is left out. -/
def State.keys (s : State) : List (Nat × Nat × List Byte) :=
  (List.range 8).filterMap (fun n =>
    let b := s.rdBlob Obj.SEC_KEY n
    if b.isEmpty then none else some (leAt b 0 2, leAt b 2 1, b.drop 3))

/-- R440: an unlock blob: a key for unlock and its signature over the nonce, the byte 3 and the path's byte. The other path
falls to service. -/
def execAccessUnlockWrite (t : Nat) (path : Path) (value : List Byte) (s : State) : Result :=
  let s := (s.at t).touch path
  let host := pathIsHost path
  let o := if host then Obj.ACCESS_UNLOCK_HOST else Obj.ACCESS_UNLOCK_CHAIN
  let k := o.key 0 0
  match s.checkWrite path o 0 0 value with
  | 0 =>
    if s.pathLevel path = 3 then .next (s.answer path k 0)
    else if s.now < s.lockedUntil host then .next (s.answer path k lockedResult)
    else
      let msg := s.rdBlob Obj.SEC_NONCE ++ [3, boolNat host]
      let ok := s.keys.any (fun x => x.1 == leAt value 0 2 && x.2.1.testBit 2 && ecdsaOk x.2.2 msg (value.drop 2))
      let s := s.attempt host ok 3
      let other := levelRow (!host)
      let s := if ok then s.putN other 0 0 (min 2 (s.rdN other)) else s
      .next (s.answer path k (if ok then 0 else failedResult))
  | r => .next (s.answer path k r)

/-- R440: a path lowers its level. -/
def execAccessLevelWrite (t : Nat) (path : Path) (value : List Byte) (s : State) : Result :=
  let s := (s.at t).touch path
  let o := levelRow (pathIsHost path)
  let k := o.key 0 0
  match s.checkWrite path o 0 0 value with
  | 0 =>
    if leNat value ≤ s.pathLevel path then .next ((s.putN o 0 0 (leNat value)).answer path k 0) else .next (s.answer path k 5)
  | r => .next (s.answer path k r)

/-- R440: 600 s without a request on a path. -/
def execAccessLevelTimeout (t : Nat) (host : Bool) (s : State) : Result :=
  let s := s.at t
  let last := if host then s.access.lastHost else s.access.lastChain
  .next (if last + 600000000000 ≤ s.now then s.putN (levelRow host) 0 0 0 else s)

/-- R440: the nonce changes every 60 s. -/
def execNonceRefresh (t : Nat) (s : State) : Result :=
  let s := s.at t
  .next (if s.access.nonceTime + 60000000000 ≤ s.now then s.newNonce else s)

/-- R440: 10 s after three failed attempts. -/
def execUnlockLockoutEnd (t : Nat) (host : Bool) (s : State) : Result :=
  let s := s.at t
  .next (if s.lockedUntil host ≤ s.now then
    { s with access := if host then { s.access with lockHost := 0 } else { s.access with lockChain := 0 } } else s)

/-! ## Keys (R442) -/

/-- R442: the bytes of a key slot: empty, or a KEY_ID that no other slot has, a purpose and an uncompressed point. -/
def State.keyValueOk (s : State) (slot : Nat) (b : List Byte) : Bool :=
  let id := leAt b 0 2
  b.isEmpty || (b.length == 100 && decide (1 ≤ id) && decide (id ≤ 0x7fff) && leAt b 3 1 == 4 &&
    (List.range 8).all (fun n => n == slot || (s.rdBlob Obj.SEC_KEY n).isEmpty || leAt (s.rdBlob Obj.SEC_KEY n) 0 2 != id))

/-- R442: a write of a key slot, by the secure owner; or of the first unlock key, at integrator level in PREOP. -/
def execSecKeyWrite (t : Nat) (path : Path) (slot : Fin 8) (value : List Byte) (s : State) : Result :=
  let s := (s.at t).touch path
  let o := Obj.SEC_KEY
  let k := o.key slot 0
  let first := !s.keys.any (fun x => x.2.1.testBit 2) && value.length == 100 && (leAt value 2 1).testBit 2
  let r :=
    if s.pathLevel path ≠ 3 && first then
      if s.pathLevel path = 0 then 2 else if s.mode ≠ stPreop then 4 else 0
    else s.checkAccess path o slot 0 value.length
  if r ≠ 0 then .next (s.answer path k r)
  else if s.keyValueOk slot value then .next ((s.putBlob o slot 0 value).answer path k 0)
  else .next (s.answer path k 5)

/-! ## Firmware images (R446 to R448) -/

/-- R447: why an image is refused; 0 where no check fails. The key is looked at before the signature it would verify. -/
def State.imageRefusal (s : State) (b : List Byte) : Nat :=
  let key := leAt b 6 2
  if b.length < 64 || leAt b 0 4 ≠ 0x57465a41 || leAt b 4 2 ≠ 1 || leAt b 60 4 ≠ crc32c (b.take 60) ||
      ((b.drop 48).take 12).any (fun x => x != 0) then 1
  else if 16777056 < leAt b 16 4 || b.length ≠ 64 + leAt b 16 4 + 96 then 2
  else if key < 0x8001 || 0x8003 < key then 4
  else if !ecdsaOk (Config.firmwareKey key) (b.take (b.length - 96)) (b.drop (b.length - 96)) then 3
  else if !((b.drop 20).take 4).contains 0xb0 then 5
  else if leAt b 12 4 < s.rdN Obj.FW_ROLLBACK_MIN then 6
  else 0

/-- R447: the slot that is not running becomes empty, with a refusal code. -/
def State.imageRefused (s : State) (code : Nat) : State :=
  match s.fw.running with
  | none => s
  | some b =>
    ({ s with fw := { s.fw.setSlot (!b) none with writing := none } }.setBit Obj.FW_STATUS 0 0 3 false).fwPublish.putN
      Obj.FW_REFUSE_CODE 0 0 code

/-- R373, R447: a segmented transfer to an object is open. -/
def openTransfer (p : List (Nat × List Byte × Nat)) (o : ObjRow) : Bool := p.any (fun x => x.1 == o.key 0 0)

/-- R447: a complete image arrives: it is refused, or written into the slot that is not running. A write of one object while the
other has a transfer open, or while the flash is written, is busy. -/
def State.imageWrite (s : State) (path : Path) (o : ObjRow) (busy : Bool) (image : List Byte) : State :=
  let s := s.touch path
  let k := o.key 0 0
  match s.checkAccess path o 0 0 image.length with
  | 0 =>
    match s.fw.running with
    | none => s.answer path k 4
    | some b =>
      if busy || s.fw.writing.isSome then s.answer path k 8
      else
        match s.imageRefusal image with
        | 0 =>
          let img : FwImage := { version := leAt image 8 4, rollback := leAt image 12 4 }
          (({ s with fw := { s.fw.setSlot (!b) none with writing := some img } }.setBit Obj.FW_STATUS 0 0 3 true).fwPublish).answer
            path k 0
        | r => (s.imageRefused r).answer path k 5
  | r => s.answer path k r

/-- R447: a write of `FW_IMAGE`. -/
def execFwImageWrite (t : Nat) (path : Path) (image : List Byte) (s : State) : Result :=
  let s := s.at t
  .next (s.imageWrite path Obj.FW_IMAGE (openTransfer s.cxl.mb.partials Obj.FW_IMAGE_HOST) image)

/-- R447: a write of `FW_IMAGE_HOST`. -/
def execFwImageHostWrite (t : Nat) (path : Path) (image : List Byte) (s : State) : Result :=
  let s := s.at t
  .next (s.imageWrite path Obj.FW_IMAGE_HOST (openTransfer s.mer.partials Obj.FW_IMAGE) image)

/-- R447: the flash write and the read-back of an image complete, or fail. -/
def execFwFlashDone (t : Nat) (ok : Bool) (s : State) : Result :=
  let s := s.at t
  match s.fw.writing, s.fw.running with
  | some img, some b =>
    if ok then
      let s := { s with fw := { s.fw.setSlot (!b) (some img) with writing := none } }.setBit Obj.FW_STATUS 0 0 3 false
      .next (s.fwPublish.putN Obj.FW_REFUSE_CODE 0 0 0)
    else .next (s.imageRefused 7)
  | _, _ => .next s

/-- R448: a write of `FW_ACTIVATE`: in PREOP, with a verified image in the other slot, which becomes trial, and a warm reset. -/
def execFwActivate (t : Nat) (path : Path) (value : List Byte) (s : State) : Result :=
  let s := (s.at t).touch path
  let k := Obj.FW_ACTIVATE.key 0 0
  match s.checkWrite path Obj.FW_ACTIVATE 0 0 value, s.fw.running with
  | 0, some b =>
    if s.mode = stPreop && s.fw.verified (!b) then
      let s := s.answer path k 0
      .next { s with fw := { s.fw with trial := some (!b) } }.warmReset
    else .next (s.answer path k 4)
  | 0, none => .next (s.answer path k 4)
  | r, _ => .next (s.answer path k r)

/-- R448: a write of `FW_CONFIRM`: in PREOP, the running trial image is committed, and `FW_ROLLBACK_MIN` rises to its
ROLLBACK. -/
def execFwConfirm (t : Nat) (path : Path) (value : List Byte) (s : State) : Result :=
  let s := (s.at t).touch path
  let k := Obj.FW_CONFIRM.key 0 0
  match s.checkWrite path Obj.FW_CONFIRM 0 0 value, s.fw.running with
  | 0, some b =>
    if s.mode = stPreop && s.fw.trial == some b then
      let least := max (s.rdN Obj.FW_ROLLBACK_MIN) (((s.fw.slot b).map (fun x => x.rollback)).getD 0)
      let s := { s with fw := { s.fw with committed := b, trial := none } }.fwPublish
      .next ((s.putN Obj.FW_ROLLBACK_MIN 0 0 least).answer path k 0)
    else .next (s.answer path k 4)
  | 0, none => .next (s.answer path k 4)
  | r, _ => .next (s.answer path k r)

/-- R448: a trial image has not reached PREOP within 60 s: it is abandoned. -/
def execFwTrialTimeout (t : Nat) (s : State) : Result :=
  let s := s.at t
  .next (if s.power.step ≠ 9 && s.fw.trialFrom + 60000000000 ≤ s.now then { s with fw := s.fw.drop }.fwPublish else s)

end Sys2Proof.Machine
end

