-- ==== Sys2Proof/Machine/Lattice.lean ====
section
/-! DEFINITION. The event lattice: channel words, tasks, event pins and timers (spec/15_events_and_twowire.md, R453 to R467).
What a channel does with an event stands in Machine/Ops.lean. -/

namespace Sys2Proof.Machine

open Sys2Proof

/-! ## Channels (R456 to R458) -/

/-- R455: a task that exists and is not reserved. -/
def taskExists (k : Nat) : Bool := decide (k ≤ 80) && k != 69

/-- R455: whether a task accepts a channel whose owner class is `own` (0 chain, 1 host, 2 firmware, 3 secure). -/
def taskAccepts (k own : Nat) : Bool :=
  own == 3 ||
  (if k < 32 then own == 1
   else if k < 56 then true
   else if k < 68 then own == 0 || own == 1
   else if k = 68 then own == 1
   else if k < 72 then own == 0
   else if k < 80 then true
   else own == 2)

/-- R457, R464: whether channel `n`, whose owner class is `own`, may hold a word. -/
def channelWordOk (n own w : Nat) : Bool :=
  let tasks := channelTasks w
  let src := (w / 2 ^ 49) % 128
  let gate := (w / 2 ^ 42) % 128
  let within := fun (x : Nat) => decide (56 ≤ x) && decide (x ≤ 70)
  (w / 2 ^ 56) % 16 == 0 &&
    (!w.testBit 63 ||
      (!tasks.isEmpty && tasks.all taskExists && tasks.eraseDups == tasks && tasks.all (fun k => taskAccepts k own) &&
        !(w.testBit 61 && isPulse gate) &&
        (if n < 56 then !tasks.contains 80
         else within src && (!w.testBit 61 || within gate) &&
           tasks.all (fun k => (decide (48 ≤ k) && decide (k ≤ 55)) || k == 80) && w % 4096 == 0)))

/-- R457, R458: a write of a channel word. The stored state follows ENABLE, and with it LOOP_STOPPED. -/
def execEvChConfigWrite (t : Nat) (path : Path) (channel : Fin 64) (value : List Byte) (s : State) : Result :=
  let s := (s.at t).touch path
  let o := Obj.EV_CH_CONFIG
  let k := o.key channel 0
  match s.checkWrite path o channel 0 value with
  | 0 =>
    let w := leNat value
    if channelWordOk channel (s.rdN Obj.EV_CH_OWNER 0 channel) w then
      let before := s.rdN o channel 0
      let s := (s.putN o channel 0 w).putN Obj.EV_CH_STATE 0 channel (boolNat (w.testBit 63))
      let s := { s with lattice := { s.lattice with words := beforeChange s.now s.lattice.words channel before } }
      let stopped := (List.range 64).any (fun n => s.rdN Obj.EV_CH_STATE 0 n == 2)
      .next ((s.setBit Obj.EV_STATUS 0 0 3 stopped).answer path k 0)
    else .next (s.answer path k 5)
  | r => .next (s.answer path k r)

/-! ## Tasks (R455, R461) -/

/-- R329, R461: the cycle of a task's island that an event of device time `t` reaches: CTL at 1.2 GHz, AON at 25 MHz, or at 1 MHz in
deep sleep, the others at 1 GHz; cycles count from device time 0 (log entry 15). -/
def State.taskCycle (s : State) (task t : Nat) : Nat :=
  match taskIsland task false with
  | 0 => t * 6 / 5
  | 39 => if s.power.asleep then t / 1000 else t / 40
  | _ => t

/-- R467: a task whose island is in reset: what resynchronised channels brought it is flushed. -/
def State.taskFlush (s : State) (task : Nat) : State :=
  if s.islandRuns (taskIsland task false) then s
  else { s with lattice := { s.lattice with
    activations := s.lattice.activations.filter (fun (a : Activation) => a.task != task || decide (56 ≤ a.tags.headD 0)) } }

/-- R461, R463: the activations of a task that one cycle of its island brings: the first that waits and those of its cycle. They
merge into one, which `EV_TASK_ACTIVATIONS` counts, and their tags stay with the task's block. -/
def State.takeTask (s : State) (task : Nat) : State × List Activation :=
  match s.lattice.activations.find? (fun (a : Activation) => a.task == task) with
  | none => (s, [])
  | some a =>
    let mine := fun (x : Activation) => x.task == task && s.taskCycle task x.time == s.taskCycle task a.time
    let l := s.lattice.activations.filter mine
    let tags := (l.flatMap (fun (x : Activation) => x.tags)).eraseDups
    let s := (s.count Obj.EV_TASK_ACTIVATIONS 0 task 1).count Obj.EV_TASK_MERGED 0 task (l.length - 1)
    ({ s with lattice := { s.lattice with
        activations := s.lattice.activations.filter (fun (x : Activation) => !mine x)
        lastMerge := if l.length ≤ 1 then s.lattice.lastMerge else s.now + 1 } }.noteTags (taskBlock task) tags, l)

/-- R455, R467: a task acts once on the activations that one cycle brings it, and not at all without one. -/
def State.task (s : State) (task : Nat) (f : List Activation → State → State) : State :=
  let p := (s.taskFlush task).takeTask task
  if p.2.isEmpty then p.1 else f p.2 p.1

/-- R455, R390: a COMMIT of a DMA channel. -/
def execDmaStart (t : Nat) (n : Fin 32) (s : State) : Result := .next ((s.at t).task n (fun _ s => s.dmaCommit n))

/-- R455, R379: vector 48 + n. -/
def execHostIrq (t : Nat) (n : Fin 16) (s : State) : Result := .next ((s.at t).task (32 + n) (fun _ s => s.vector (48 + n)))

/-- R455, R34: an epoch of a port group. -/
def execEpochDeclare (t : Nat) (g : Fin 12) (s : State) : Result := .next ((s.at t).task (56 + g) (fun _ s => s.declareOwn g))

/-- R455: HOLD is requested from RUN. -/
def execStateHold (t : Nat) (s : State) : Result :=
  .next ((s.at t).task 70 (fun _ s => if s.mode = stRun && s.trans.isNone then s.toState stHold else s))

/-- R455: RUN is requested from HOLD; a request that is refused changes nothing. -/
def execStateRun (t : Nat) (s : State) : Result :=
  .next ((s.at t).task 71 (fun _ s =>
    if s.mode = stHold && s.trans.isNone && s.holdRefusals.isEmpty then s.toState stRun else s))

/-- R455: the device time of the cycle goes into `EV_CAPTURE_TIME`. -/
def execTimeCapture (t : Nat) (n : Fin 8) (s : State) : Result :=
  .next ((s.at t).task (72 + n) (fun _ s => s.putN Obj.EV_CAPTURE_TIME 0 n s.now))

/-- R455, R568: the WAKE task ends deep sleep. -/
def execWake (t : Nat) (s : State) : Result := .next ((s.at t).task 80 (fun _ s => s.wakeUp))

/-! ## Event pins (R465) -/

/-- R465: the mode of a pin without its polarity. -/
def State.pinMode (s : State) (n : Nat) : Nat := s.rdN Obj.EV_PIN_MODE 0 n % 128

/-- R465: the drivers of a pin. -/
def State.evtPin (s : State) (n : Nat) : EvtPin := look s.lattice.pins {} n

/-- The drivers of a pin become these. -/
def State.setEvtPin (s : State) (n : Nat) (p : EvtPin) : State :=
  { s with lattice := { s.lattice with pins := store s.lattice.pins {} n p } }

/-- R464, R465: an output pin is active: a resynchronised driver counts outside BOOT, an asynchronous one always; the two
combine by OR. -/
def State.evtActive (s : State) (n : Nat) : Bool :=
  s.pinMode n != 0 && ((s.mode != stBoot && (s.evtPin n).drive) || (s.evtPin n).asyncDrive)

/-- R465: the level of an output pin: bit 7 of the mode inverts it. -/
def State.evtLevel (s : State) (n : Nat) : Bool := s.evtActive n != (s.rdN Obj.EV_PIN_MODE 0 n).testBit 7

/-- R465: one activation, from an asynchronous channel or not, starts or restarts a pulse, or inverts the pin. -/
def State.evtOut (s : State) (n : Nat) (async : Bool) : State :=
  let p := s.evtPin n
  let stop := s.now + s.rdN Obj.EV_PIN_PULSE_NS 0 n
  match s.pinMode n, async with
  | 1, false => s.setEvtPin n { p with drive := true, until_ := stop }
  | 1, true => s.setEvtPin n { p with asyncDrive := true, asyncUntil := stop }
  | 2, false => s.setEvtPin n { p with drive := !p.drive }
  | 2, true => s.setEvtPin n { p with asyncDrive := !p.asyncDrive }
  | _, _ => s

/-- R464: an activation came through an asynchronous channel. -/
def Activation.async (a : Activation) : Bool := decide (56 ≤ a.tags.headD 0)

/-- R464, R465: the EVT_OUT task of a pin. -/
def execEvtOut (t : Nat) (n : Fin 8) (s : State) : Result :=
  .next ((s.at t).task (48 + n) (fun l s =>
    let s := if l.any (fun (a : Activation) => !a.async) then s.evtOut n false else s
    if l.any Activation.async then s.evtOut n true else s))

/-- R465: the width of a pulse is over. -/
def execEvtPulseEnd (t : Nat) (n : Fin 8) (async : Bool) (s : State) : Result :=
  let s := s.at t
  let p := s.evtPin n
  if s.pinMode n ≠ 1 then .next s
  else if async then .next (if p.asyncDrive && p.asyncUntil ≤ s.now then s.setEvtPin n { p with asyncDrive := false } else s)
  else .next (if p.drive && p.until_ ≤ s.now then s.setEvtPin n { p with drive := false } else s)

/-- R464, R465, R568: a level that has been stable for the filter's time; asynchronous channels take none shorter than 20 ns. The active edge of a pin of `EV_PIN_WAKE` ends deep
sleep. -/
def execEvtIn (t : Nat) (n : Fin 8) (high : Bool) (stable : Nat) (s : State) : Result :=
  let s := s.at t
  if s.pinMode n ≠ 0 || stable < s.rdN Obj.EV_PIN_FILTER_NS 0 n then .next s
  else
    let active := high != (s.rdN Obj.EV_PIN_MODE 0 n).testBit 7
    let edge := active && !s.level (56 + n)
    let s := s.setLevel (56 + n) active (if stable < 20 then 56 else 64)
    .next (if edge && s.bit Obj.EV_PIN_WAKE 0 0 n then s.wakeUp else s)

/-! ## Timers (R466) -/

/-- R466: the period and the phase in force. -/
def State.timer (s : State) (n : Nat) : Nat × Nat := look s.lattice.timers (0, 0) n

/-- R466: a timer fires at the device times that its period and its phase name. -/
def execTimer (t : Nat) (n : Fin 8) (s : State) : Result :=
  let s := s.at t
  let p := s.timer n
  .next (if p.1 ≠ 0 && s.now % p.1 = p.2 % p.1 then s.fire (119 + n) else s)

/-- R466: at a multiple of 1,000,000 ns what was written takes effect. -/
def execEvTimerApply (t : Nat) (n : Fin 8) (s : State) : Result :=
  let s := s.at t
  if s.now % 1000000 = 0 then
    let v := (s.rdN Obj.EV_TIMER_PERIOD_NS 0 n, s.rdN Obj.EV_TIMER_PHASE_NS 0 n)
    .next { s with lattice := { s.lattice with timers := store s.lattice.timers (0, 0) n v } }
  else .next s

end Sys2Proof.Machine
end

