-- ==== Sys2Proof/Machine/TwoWire.lean ====
section
/-! DEFINITION. The two-wire ports (spec/15_events_and_twowire.md, R468 to R481) and the alert line of TW1 (R548). -/

namespace Sys2Proof.Machine

open Sys2Proof

/-! ## Ports (R470 to R473, R481) -/

/-- R468: a two-wire port. -/
def State.twPort (s : State) (p : Nat) : TwPort := look s.lattice.ports {} p

/-- A two-wire port becomes this. -/
def State.setTwPort (s : State) (p : Nat) (v : TwPort) : State :=
  { s with lattice := { s.lattice with ports := store s.lattice.ports {} p v } }

/-- TW0's traffic and TW2's pointer become these. -/
def State.setTw (s : State) (v : TwoWire) : State := { s with lattice := { s.lattice with tw := v } }

/-- R481: `TW_STATUS` of a port. -/
def State.twStatus (s : State) (p : Nat) : Nat :=
  let x := s.twPort p
  let clearing := decide (s.now < x.clearUntil)
  let failing := p == 0 && s.lattice.tw.fails.any (fun (f : Nat × Nat) => decide (3 ≤ f.2))
  boolNat (s.power.step != 0) + 2 * boolNat x.busy + 4 * boolNat x.error + 8 * boolNat x.arbLost + 16 * boolNat clearing +
    32 * boolNat (x.stuck && !clearing) + 64 * boolNat failing

/-- R475: the statuses a transaction ends with. -/
def twOk : Nat := 2
/-- R475: not acknowledged. -/
def twNack : Nat := 3
/-- R470. -/
def twStretch : Nat := 4
/-- R472. -/
def twBusError : Nat := 5
/-- R473. -/
def twArbLost : Nat := 6
/-- R471. -/
def twStuck : Nat := 7

/-- R453, R475, R481: a transaction of a controller port ends with a status. -/
def State.twEnd (s : State) (p status : Nat) : State :=
  let x := s.twPort p
  let s := s.setTwPort p { x with busy := false, lost := 0, waits := false, error := status != twOk }
  let s := if status = twNack then s.count Obj.TW_NACKS 0 p 1 else s
  s.fire (if status = twOk then 112 + p else 114 + p)

/-- R481: a transaction of a port starts. -/
def State.twBegin (s : State) (p : Nat) : State := s.setTwPort p { s.twPort p with busy := true, arbLost := false }

/-- R471: a controller port clears the bus, where `TW_AUTO_CLEAR` is set; `stuck` says whether it is held low after that. -/
def State.twClear (s : State) (p : Nat) (stuck : Bool) : State :=
  if s.flag Obj.TW_AUTO_CLEAR 0 p then
    let us := s.rdN Obj.TW_CLR_US 0 p
    let khz := if p = 0 then s.rdN Obj.TW0_SPEED_KHZ else 400
    (s.setTwPort p { s.twPort p with clearUntil := s.now + us * 1000 + 9000000 / khz, stuck := stuck }).emit (.twClear p us)
  else s

/-! ## TW0 (R474, R475) -/

/-- R474: ADDRESS, REGISTER, POLARITY, ENABLE and BIT of a port's map word. -/
def pocxpAddr (w : Nat) : Nat := (w / 2 ^ 16) % 128
/-- See `pocxpAddr`. -/
def pocxpReg (w : Nat) : Nat := (w / 2 ^ 8) % 256

/-- R474: the enabled ports of `TW0_POCXP_MAP` and their words. -/
def State.pocxpPorts (s : State) : List (Nat × Nat) :=
  ((List.range 12).map (fun k => (k, s.rdN Obj.TW0_POCXP_MAP 0 k))).filter (fun (x : Nat × Nat) => x.2.testBit 3)

/-- R474: what one read of an expander register says of the ports that share it. -/
def State.pollRead (s : State) (addr reg status value : Nat) : State :=
  let key := 256 * addr + reg
  if status = twOk then
    let s := s.setTw { s.lattice.tw with fails := unlist s.lattice.tw.fails key }
    s.pocxpPorts.foldl (fun s (x : Nat × Nat) =>
      if pocxpAddr x.2 = addr && pocxpReg x.2 = reg then
        let fault := value.testBit (x.2 % 8) == x.2.testBit 4
        let was := s.bit Obj.TW0_POCXP_STATE 0 0 x.1
        let s := s.setBit Obj.TW0_POCXP_STATE 0 0 x.1 fault
        if fault && !was then s.camLinkDown x.1 else s
      else s) s
  else
    let n := look s.lattice.tw.fails 0 key + 1
    let s := (s.setTw { s.lattice.tw with fails := enlist s.lattice.tw.fails key n }).count Obj.TW0_POLL_FAILS 0 0 1
    if n = 3 then s.raise .TW_POLL_FAIL (Obj.TW0_POCXP_MAP.ident) else s

/-- R475: the transfer that runs or waits ends. -/
def State.xferEnd (s : State) (status : Nat) (data : List Byte) : State :=
  let s := s.putN Obj.TW0_XFER_STATUS 0 0 status
  let s := match s.lattice.tw.xfer with
    | some x => if status = twOk && x.read ≠ 0 then s.putBlob Obj.TW0_XFER_DATA 0 0 (data.take x.read) else s
    | none => s
  s.setTw { s.lattice.tw with xfer := none }

/-- R471, R475: an idle TW0 takes what waits: the poll goes first. On a stuck bus everything is refused, and during a clear
everything waits for its STOP. -/
def State.tw0Next (s : State) : State :=
  let tw := s.lattice.tw
  if tw.running ≠ 0 || decide (s.now < (s.twPort 0).clearUntil) then s
  else if (s.twPort 0).stuck then
    let s := tw.polls.foldl (fun s (r : Nat × Nat) => (s.twEnd 0 twStuck).pollRead r.1 r.2 twStuck 0)
      (s.setTw { tw with polls := [] })
    if tw.xfer.isSome then (s.twEnd 0 twStuck).xferEnd twStuck [] else s
  else
    match tw.polls, tw.xfer with
    | r :: _, _ => ((s.setTw { tw with running := 1 }).twBegin 0).emit (.tw0 r.1 [r.2] 1)
    | [], some x => ((s.setTw { tw with running := 2 }).twBegin 0).emit (.tw0 x.address x.write x.read)
    | [], none => s

/-- R473: the transaction of TW0 that lost arbitration is sent again. -/
def State.tw0Send (s : State) : State :=
  match s.lattice.tw.running, s.lattice.tw.polls, s.lattice.tw.xfer with
  | 1, r :: _, _ => s.emit (.tw0 r.1 [r.2] 1)
  | 2, _, some x => s.emit (.tw0 x.address x.write x.read)
  | _, _, _ => s

/-- R474, R475: the transaction of TW0 that runs ends. -/
def State.tw0End (s : State) (status value : Nat) (data : List Byte) : State :=
  let tw := s.lattice.tw
  match tw.running, tw.polls with
  | 0, _ => s
  | 1, r :: rest =>
    (((s.twEnd 0 status).setTw { tw with running := 0, polls := rest }).pollRead r.1 r.2 status value).tw0Next
  | 1, [] => s
  | _, _ => (((s.twEnd 0 status).setTw { tw with running := 0 }).xferEnd status data).tw0Next

/-- R475: the staged transfer starts. -/
def State.xferStart (s : State) : State :=
  if s.lattice.tw.xfer.isSome then s
  else
    let x : TwXfer := {
      address := s.rdN Obj.TW0_XFER_ADDR, write := s.rdBlob Obj.TW0_XFER_WRITE, read := s.rdN Obj.TW0_XFER_READ_LEN }
    ((s.setTw { s.lattice.tw with xfer := some x }).putN Obj.TW0_XFER_STATUS 0 0 1).tw0Next

/-- R475: task TW0_START. -/
def execTw0Start (t : Nat) (s : State) : Result := .next ((s.at t).task 68 (fun _ s => s.xferStart))

/-- R475: `TW0_XFER_CMD` = 1. A start while a transfer runs is refused. -/
def execTw0XferCmd (t : Nat) (path : Path) (value : List Byte) (s : State) : Result :=
  let s := (s.at t).touch path
  let k := Obj.TW0_XFER_CMD.key 0 0
  match s.checkWrite path Obj.TW0_XFER_CMD 0 0 value with
  | 0 => .next (if s.lattice.tw.xfer.isSome then s.answer path k 4 else (s.answer path k 0).xferStart)
  | r => .next (s.answer path k r)

/-- R475: the transfer that runs ends, acknowledged or not. -/
def execTw0XferDone (t : Nat) (acknowledged : Bool) (data : List Byte) (s : State) : Result :=
  let s := s.at t
  .next (if s.lattice.tw.running = 2 && !(s.twPort 0).waits then s.tw0End (if acknowledged then twOk else twNack) 0 data else s)

/-- R474: a poll falls due: each register that an enabled port names is read once. -/
def execTw0Poll (t : Nat) (s : State) : Result :=
  let s := s.at t
  let tw := s.lattice.tw
  if s.now < tw.polled + s.rdN Obj.TW0_POLL_US * 1000 || !tw.polls.isEmpty then .next s
  else
    let reads := (s.pocxpPorts.map (fun (x : Nat × Nat) => (pocxpAddr x.2, pocxpReg x.2))).eraseDups
    .next (s.setTw { tw with polls := reads, polled := s.now }).tw0Next

/-- R474: a read of the poll ends with its byte, or not acknowledged. -/
def execTw0PollDone (t : Nat) (acknowledged : Bool) (value : Nat) (s : State) : Result :=
  let s := s.at t
  .next (if s.lattice.tw.running = 1 && !(s.twPort 0).waits then s.tw0End (if acknowledged then twOk else twNack) value [] else s)

/-! ## Bus faults (R470 to R473) -/

/-- R470 to R472: the transaction of a port ends with a status: TW0's as its traffic says, the power manager's of TW1, and a
transfer addressed to TW2 goes back to idle. -/
def State.twAbort (s : State) (port status : Nat) : State :=
  match port with
  | 0 => s.tw0End status 0 []
  | 1 => s.twEnd 1 status
  | _ => s.setTwPort 2 { s.twPort 2 with busy := false, error := true }

/-- R470: a transaction of a port is on the bus. TW1's are the power manager's: one may be whenever none waits to be sent again. -/
def State.twRuns (s : State) (port : Nat) : Bool := !(s.twPort port).waits && (port == 1 || (s.twPort port).busy)

/-- R470, R471: a clock held low too long during a transaction, or a line held low before its START; `stuck` says
whether the bus is still held low after a clear. -/
def execTwStretchTimeout (t : Nat) (port : Fin 3) (held : TwHeld) (stuck : Bool) (s : State) : Result :=
  let s := s.at t
  if !s.twRuns port || (held.before && port.val == 2) || held.low ≤ 1000000 * s.rdN Obj.TW_STRETCH_TIMEOUT_MS 0 port then .next s
  else if held.before then
    let s := s.twClear port stuck
    .next (if (s.twPort port).stuck then s.twAbort port twStuck else s)
  else
    let s := (s.count Obj.TW_STRETCH_TIMEOUTS 0 port 1).raise .STRETCH_TIMEOUT (Obj.TW_STATUS.ident 0 port)
    let s := if port.val = 2 then s else s.twClear port stuck
    .next (s.twAbort port twStretch)

/-- R472: a START where an acknowledge was due. -/
def execTwBusError (t : Nat) (port : Fin 3) (s : State) : Result :=
  let s := s.at t
  if s.twRuns port then
    let s := (s.count Obj.TW_BUS_ERRORS 0 port 1).raise .BUS_ERROR (Obj.TW_STATUS.ident 0 port)
    .next (s.twAbort port twBusError)
  else .next s

/-- R473: a controller loses arbitration at a bit, never at an acknowledge slot. It retries after the next STOP, up to
`TW_RETRIES` times. -/
def execTwArbLost (t : Nat) (port : Fin 2) (bit : Nat) (s : State) : Result :=
  let s := s.at t
  if s.twRuns port && bit % 9 != 8 then
    let s := (s.putN Obj.TW_ARB_LAST_BIT 0 port bit).count Obj.TW_ARB_LOST 0 port 1
    let s := s.raise .ARB_LOST (Obj.TW_STATUS.ident 0 port)
    let x := s.twPort port
    let s := s.setTwPort port { x with busy := true, arbLost := true, lost := x.lost + 1, waits := true }
    .next (if s.rdN Obj.TW_RETRIES 0 port < x.lost + 1 then s.twAbort port twArbLost else s)
  else .next s

/-- R471, R473: a STOP on the bus: the port is no longer stuck, a transaction that lost arbitration is retried, and TW0 takes
what a clear made wait. -/
def execTwStopSeen (t : Nat) (port : Fin 2) (s : State) : Result :=
  let s := s.at t
  let again := port.val = 0 && (s.twPort 0).waits
  let s := s.setTwPort port { s.twPort port with stuck := false, waits := false }
  .next (if again then s.tw0Send else if port.val = 0 then s.tw0Next else s)

/-! ## TW2 (R476, R477) -/

/-- R453, R476: an address on TW2's bus, which answers at `TW2_ADDR` alone: a transfer begins, and a part in deep sleep wakes. -/
def execTw2Match (t : TwAddress) (s : State) : Result :=
  let s := s.at t.time
  if t.address.val ≠ s.rdN Obj.TW2_ADDR then .next s
  else
    let s := s.fire 70
    let wakes := s.power.asleep && s.power.step == 0
    let s := if wakes then s.wakeUp.count Obj.TW2_WAKES 0 0 1 else s
    .next (s.setTwPort 2 { s.twPort 2 with busy := true })

/-- R421: IDENT. -/
def identWord : Nat := 0x1213b001

/-- R449: the 16 characters of `SERIAL_NUMBER`. -/
def serialBytes : List Byte := (List.range 16).map (fun i => Config.serial.getD i 0 % 256)

/-- R544: no further attempt of start-up, or the state FAULT. -/
def State.tw2Fault (s : State) : Bool := decide (3 ≤ s.power.tries) || s.mode == stFault

/-- R477: the highest junction temperature, in °C. -/
def State.hottest (s : State) : Int := (s.rdList Obj.PW_TEMP 0 4).foldl max (s.rd Obj.PW_TEMP)

/-- R477: the registers of TW2, from an address on. -/
def State.tw2Registers (s : State) : List (Nat × List Byte) := [
  (0x00, toLe 4 identWord), (0x04, [s.mode]),
  (0x05, [4 * boolNat (s.mode == stSave) + 2 * boolNat s.tw2Fault + boolNat (s.bit Obj.PW_STATUS 0 0 pwHoldOk)]),
  (0x06, toLe 2 (unsignedOf 2 s.hottest)), (0x08, toLe 4 (s.rdN Obj.PW_POWER_MW)),
  (0x0c, toLe 4 (s.rdN Obj.ERR_COUNT)), (0x10, toLe 2 (s.rdN Obj.MER_STATION)), (0x20, serialBytes)]

/-- R477: a register byte; unlisted registers read 0. -/
def State.tw2Byte (s : State) (a : Nat) : Byte :=
  match s.tw2Registers.find? (fun (r : Nat × List Byte) => decide (r.1 ≤ a) && decide (a < r.1 + r.2.length)) with
  | some r => r.2.getD (a - r.1) 0
  | none => 0

/-- R477: a transfer: the first byte written sets the pointer, further ones are not acknowledged, and bytes are read from the
pointer on. -/
def execTw2Transfer (t : Nat) (write : List Byte) (read : Nat) (s : State) : Result :=
  let s := s.at t
  if !(s.twPort 2).busy then .next s
  else
    let tw := s.lattice.tw
    let p := match write with
      | [] => tw.pointer
      | b :: _ => b
    let s := s.count Obj.TW_NACKS 0 2 (write.length - 1)
    let bytes := (List.range read).map (fun i => s.tw2Byte ((p + i) % 256))
    let s := if read = 0 then s else s.emit (.tw2 bytes)
    let s := s.setTw { tw with pointer := (p + read) % 256 }
    .next (s.setTwPort 2 { s.twPort 2 with busy := false, error := false })

/-! ## TW1 (R548) -/

/-- R471, R473, R481: the power manager has `n` transactions for TW1, which do `f`: they end OK; a bus that is stuck refuses
them, and while it is cleared, or a transaction waits for a STOP to be sent again, they wait. -/
def State.tw1Run (s : State) (n : Nat) (f : State → State) : State :=
  let x := s.twPort 1
  let done := fun (s : State) (status : Nat) => (List.range n).foldl (fun (s : State) _ => s.twEnd 1 status) s
  if s.power.step = 0 || x.waits || decide (s.now < x.clearUntil) then s
  else if x.stuck then done s twStuck
  else done (f (s.twBegin 1)) twOk

/-- R548: TW1 reads every rail's voltage and current. -/
def execRailPoll (t : Nat) (millivolts milliamps : List Nat) (s : State) : Result :=
  .next ((s.at t).tw1Run 20 (fun s =>
    let s := s.putList Obj.PW_RAIL_VOUT_MV 0 (millivolts.map (fun (n : Nat) => (n : Int)))
    let s := s.putList Obj.PW_RAIL_IOUT_MA 0 (milliamps.map (fun (n : Nat) => (n : Int)))
    s.putN Obj.PW_POWER_MW 0 0 (sumNat (List.zipWith (fun a b => a * b) millivolts milliamps) / 1000)))

/-- R548: TW1_ALERT: the status words of the ten rails are read; a warning bit raises PW_RAIL_WARN, and a regulator that reports a
fault outside sequencing and SAVE blocks the bank and saves. -/
def execPmbusAlert (t : Nat) (words : List Nat) (s : State) : Result :=
  .next ((s.at t).tw1Run 10 (fun s =>
    let s := s.putList Obj.PW_RAIL_STATUS_WORD 0 (words.map (fun (n : Nat) => (n : Int)))
    let s := match (List.range 10).find? (fun r => words.getD r 0 &&& Config.pmbusWarnings ≠ 0) with
      | some r => (s.pwBit pwRailWarn true).raise .PW_RAIL_WARN (Obj.PW_RAIL_STATUS_WORD.ident 0 r)
      | none => s
    if (List.range 10).any (fun r => words.getD r 0 &&& Config.pmbusFaults ≠ 0) then s.railFault [] else s))

end Sys2Proof.Machine
end

