-- ==== Sys2Proof/Machine/Dictionary.lean ====
section
/-! DEFINITION. The dictionary server: what a read returns, what a write does, and the host's mailbox (spec/00_scope.md, R8 to
R19; spec/12_cxl_host_and_dma.md, R371 to R374; spec/14_meridian_chain_and_dictionary.md, R436 to R441). -/

namespace Sys2Proof.Machine

open Sys2Proof

/-! ## Values that follow the state (R17, R54, R106, R156, R184, R209, R291 to R294 and the other status maps) -/

/-- R91: `CAM_LINK_STATUS` of a port: HB_OK while a heartbeat has come within the timeout, or supervision is off. -/
def State.camStatus (s : State) (p : Nat) : Nat :=
  let ms := s.rdN Obj.CAM_HB_TIMEOUT_MS p
  withBit (s.rdN Obj.CAM_LINK_STATUS p) camHbOk (ms == 0 || (s.cam p).beat.any (fun x => decide (s.now ≤ x + ms * 1000000)))

/-- R291: `EJ_STATUS`. -/
def State.ejStatus (s : State) : Nat :=
  let w := withBit (s.rdN Obj.EJ_STATUS) 0 (s.mode == stRun && !s.gated)
  let w := withBit (withBit w 3 (s.mode == stHold)) 4 (s.mode == stSave)
  let w := withBit w 5 ((List.range 32).any s.linkIsDown)
  withBit w 6 (s.level 117)

/-- R293: `EJ_LINK_STATUS` of a link. -/
def State.ejLinkStatus (s : State) (l : Nat) : Nat :=
  withBit (withBit (s.rdN Obj.EJ_LINK_STATUS 0 l) vbEnabled (s.linkEnabled l)) 4
    ((s.vbl l).late.any (fun x => decide (s.now ≤ x + 1000000)))

/-- R294: `EJ_VALVE_STATUS` of a valve. -/
def State.ejValveStatus (s : State) (v : Nat) : Nat :=
  let l := v / 64
  withBit (withBit (s.rdN Obj.EJ_VALVE_STATUS 0 v) 6 (s.linkIsDown l)) 0
    ((s.vbl l).heard.any (fun x => decide (s.now ≤ x + 3000000)))

/-- R156, R185: `AT_STATUS` of a port: its scrub runs from INIT on while the pipeline that serves it runs. -/
def State.atStatus (s : State) (p : Nat) : Nat :=
  let q := s.rdN Obj.RV_PORT_PIPELINE 0 p
  withBit (s.rdN Obj.AT_STATUS p) 0 (decide (stInit ≤ s.mode) && s.mode != stSave && decide (q < 13) && s.islandRuns (2 + q))

/-- R184: the classes at `AT_PROBE_ADDR`, of the shadow and of the live atlas. -/
def State.atProbe (s : State) (p : Nat) : Nat :=
  let a := s.rdN Obj.AT_PROBE_ADDR p
  let x := s.atPipe (s.pipelineOf p)
  256 * atlasEntry x.s0 a + atlasEntry x.l0 a

/-- R187, R209: `ST_PROBE_X`. -/
def State.stProbe (s : State) : Int :=
  let p := s.rdN Obj.ST_PROBE_PORT
  let b := s.rdBlob Obj.ST_MAP p
  if b.isEmpty then -2147483648
  else clampInt (-2147483647) 2147483647 (mapX b (min (s.rdN Obj.ST_PROBE_POS) (256 * (mapWidth b - 1))))

/-- R209: `ST_LOAN_STATE` and `ST_LOAN_PORT`. -/
def State.loanView (s : State) : Nat × Nat :=
  match [0, 1].findSome? (fun k => look s.st.lent none k), [0, 1].findSome? (fun k => look s.st.served none k) with
  | some p, _ => (1, p)
  | none, some p => (2, p)
  | none, none => (0, 255)

/-- R452: `FW_STATUS`: WRITING also while an image transfer is open. -/
def State.fwStatus (s : State) : Nat :=
  let is := s.bit Obj.FW_STATUS 0 0 3 || openTransfer s.mer.partials Obj.FW_IMAGE ||
    openTransfer s.cxl.mb.partials Obj.FW_IMAGE_HOST
  withBit (s.rdN Obj.FW_STATUS) 3 is

/-- R479: `EV_STATUS`: the lattice runs once the unit has booted. -/
def State.evStatus (s : State) : Nat :=
  let m := s.lattice.lastMerge
  let w := withBit (withBit (s.rdN Obj.EV_STATUS) 0 (s.mode != stBoot)) 1 (m != 0 && decide (s.now < m + 1000000))
  withBit w 2 ((List.range 8).any (fun n => (s.rdN Obj.EV_CH_CONFIG (56 + n) 0).testBit 63))

/-- R106, R117: an entry of `RC_SIGMA_TABLE`, from the settings live now: what it is built from changes only at the boundaries that
build it. Before the first of them since the pipeline's reset it reads as at reset. -/
def State.sigmaNow (s : State) (p i : Nat) : Nat :=
  if !(s.rcp p).table then 0
  else sigmaEntry (s.rdN Obj.RC_READ_NOISE p) (s.rdN Obj.RC_SHOT_K p) (s.rdN Obj.CAM_GAIN p) (s.rdN Obj.CAM_DEPTH p) i

/-- R458: an object of a channel that is shown to the secure level only. -/
def State.channelHidden (s : State) (path : Path) (o : ObjRow) (b e : Nat) : Bool :=
  decide (s.pathLevel path < 3) &&
    (if o.index = 0xa100 then s.flag Obj.EV_CH_SECURE 0 b
     else decide (0xa004 ≤ o.index) && decide (o.index ≤ 0xa007) && s.flag Obj.EV_CH_SECURE 0 e)

/-- The number an object reads as: the value last written of one of effect preop (R17), the value in force of every other, and
what follows the state where the object only shows it. -/
def State.readNum (s : State) (path : Path) (o : ObjRow) (b e : Nat) : Int :=
  if o.access = .wo || (o.access = .rws && s.pathLevel path ≠ 3) || s.channelHidden path o b e then 0
  else match o.index with
  | 0x2200 => (s.now : Int)                                              -- TIME_NOW
  | 0x2213 => s.qeSpeed e s.now                                          -- QE_SPEED
  | 0x2217 => (s.qeDir e s.now : Int)                                    -- QE_DIRECTION
  | 0x3103 => (s.camStatus b : Int)                                      -- CAM_LINK_STATUS
  | 0x3171 => (s.bufferBase (1 + 16 * b) : Int)                          -- CAM_REPLAY_BASE
  | 0x4025 => (s.sigmaNow b e : Int)                                     -- RC_SIGMA_TABLE
  | 0x4039 => (s.bufferBase (2 + 16 * b) : Int)                          -- RC_SNAPSHOT_BASE
  | 0x4092 => (s.atProbe b : Int)                                        -- AT_PROBE_RESULT
  | 0x4093 => (s.atStatus b : Int)                                       -- AT_STATUS
  | 0x40c9 => (s.bufferBase (8 + 16 * b + e) : Int)                      -- RT_BASE
  | 0x4f13 => (s.rvStatus : Int)                                         -- RV_STATUS
  | 0x5025 => s.stProbe                                                  -- ST_PROBE_X
  | 0x5051 => (s.loanView.1 : Int)                                       -- ST_LOAN_STATE
  | 0x5052 => (s.loanView.2 : Int)                                       -- ST_LOAN_PORT
  | 0x5130 => (classTableCrc (s.classTable e (s.rdN Obj.EPOCH_ID 0 e)) : Int)   -- CLASS_TABLE_CRC
  | 0x6000 => (s.ejStatus : Int)                                         -- EJ_STATUS
  | 0x6100 => (s.ejLinkStatus e : Int)                                   -- EJ_LINK_STATUS
  | 0x6248 => (s.ejValveStatus e : Int)                                  -- EJ_VALVE_STATUS
  | 0x7103 => (s.bufferBase 0 : Int)                                     -- TH_BASE
  | 0x7020 => (s.ringStatus : Int)                                       -- RING_STATUS
  | 0x7806 => (s.committedLine e : Int)                                  -- LG_COMMITTED_LINE
  | 0x9000 => ((0x1213 * 65536 + Config.vendorId % 65536 : Nat) : Int)   -- CX_PCI_ID
  | 0x9012 => (s.scratchBase : Int)                                      -- CX_SCRATCH_BASE
  | 0xa000 => (s.evStatus : Int)                                         -- EV_STATUS
  | 0xa040 => (s.twStatus e : Int)                                       -- TW_STATUS
  | 0xb003 => if s.mode = stBoot then 0 else (s.allocated : Int)         -- DR_ALLOCATED: 0 until the unit has booted (R410)
  | 0xc000 => (s.calStatus : Int)                                        -- CAL_STATUS
  | 0xc031 => (s.storeState : Int)                                       -- CAL_STORE_STATE
  | 0xc400 => (s.almStatus : Int)                                        -- ALM_STATUS
  | 0xf002 => (s.fwStatus : Int)                                         -- FW_STATUS
  | _ => if o.effect = .preop then s.last o b e else s.rd o b e

/-! ## Strings and blobs (R15) -/

/-- R478: `EV_EVENT_LIST`: the names of the events, each closed by a zero. -/
def eventList : List Byte :=
  (List.range Ev.all.length).flatMap (fun n =>
    match Ev.all.find? (fun e => Config.eventSlot e.ctorIdx == n) with
    | some e => textBytes e.text ++ [0]
    | none => [0])

/-- R441: the directory lists an array of more than 256 elements once for each index it takes. -/
def directoryRows : List (ObjRow × Nat × Nat × Nat) :=
  objectTable.flatMap (fun o =>
    if o.stride = 0 then (List.range ((o.count + 255) / 256)).map (fun i => (o, 0, o.index + i, min 256 (o.count - 256 * i)))
    else (List.range o.blocks).map (fun b => (o, b, o.index + o.stride * b, o.count)))

/-- R441: the TYPE and ELEM_TYPE of an object. -/
def ObjRow.typeBytes (o : ObjRow) : List Byte := if o.isArray then [11, o.kind.code] else [o.kind.code, 0]

/-- R441: the limits of a row in repetition `b`. Where its range names another object (R118, R148, R289, R361), that object's
value. -/
def State.rangeOf (s : State) (o : ObjRow) (b : Nat) : Int × Int :=
  match o.index with
  | 0x6018 => (s.rd Obj.EJ_PULSE_MIN_NS, o.hi)                                   -- EJ_PULSE_MAX_NS
  | 0x4f06 => (s.last Obj.RV_FLIGHT_MIN_NS, o.hi)                                -- RV_FLIGHT_MAX_NS
  | 0x4044 => (o.lo, s.next Obj.RG_WINDOW_LINES b 0 (s.portGroup b))             -- RG_WINDOW_MIN
  | _ => (o.lo, o.hi)

/-- R441: MIN and MAX as I64. A limit beyond it has no stated value (log entry 54). -/
def State.limits (s : State) (o : ObjRow) (b : Nat) : List Byte :=
  let r := s.rangeOf o b
  let top := if r.2 < 2 ^ 63 then unsignedOf 8 r.2 else Config.directoryMax o.index
  toLe 8 (unsignedOf 8 r.1) ++ toLe 8 top

/-- R441: one entry of the directory. -/
def State.directoryEntry (s : State) (x : ObjRow × Nat × Nat × Nat) : List Byte :=
  let o := x.1
  toLe 2 x.2.2.1 ++ toLe 2 x.2.2.2 ++ o.typeBytes ++
    [o.access.code, o.effect.code, s.ownerOf o x.2.1 0, o.level, 0, 0] ++ s.limits o x.2.1 ++ [0, 0, 0, 0]

/-- R441: `OD_DIRECTORY`. -/
def State.directory (s : State) : List Byte :=
  let body := directoryRows.flatMap s.directoryEntry
  toLe 4 0x5249444f ++ toLe 2 directoryRows.length ++ List.replicate 6 0 ++ toLe 4 (crc32c body) ++ body

/-- The bytes a STR or a BLOB reads as. -/
def State.readBlob (s : State) (o : ObjRow) (b e : Nat) : List Byte :=
  match o.index with
  | 0x1002 => textBytes (if Config.coldStart then "AZ1213-E" else "AZ1213-C")   -- ORDER_CODE
  | 0x1004 => serialBytes                                                       -- SERIAL_NUMBER
  | 0x1020 => (s.errName.map (fun e => textBytes e.text)).getD []               -- ERR_LAST, NAME
  | 0x1040 => s.directory                                                       -- OD_DIRECTORY
  | 0xa00b => eventList                                                         -- EV_EVENT_LIST
  | _ => if o.effect = .preop then s.lastBlob o b e else s.rdBlob o b e

/-- The bytes an element reads as, all of one instant. -/
def State.readBytes (s : State) (path : Path) (o : ObjRow) (b e : Nat) : List Byte :=
  match o.size e with
  | 0 => s.readBlob o b e
  | n => toLe n (unsignedOf n (s.readNum path o b e))

/-! ## Reads (R13, R374) -/

/-- R13: the word a path's latch holds. -/
def State.latched (s : State) (path : Path) : Nat :=
  (match path with
   | .chain => s.latches.chain
   | .image => s.latches.image
   | .host => s.latches.host).headD 0

/-- R13: a path's latch takes the words above the low one. -/
def State.latch (s : State) (path : Path) (w : Nat) : State :=
  { s with latches := match path with
      | .chain => { s.latches with chain := [w] }
      | .image => { s.latches with image := [w] }
      | .host => { s.latches with host := [w] } }

/-- R542, R571: what a read of an object clears. -/
def State.readClears (s : State) (o : ObjRow) : State :=
  match o.index with
  | 0x2000 => s.pwBit pwRailWarn false
  | 0xc000 => (s.setBit Obj.CAL_STATUS 0 0 calStarved false).setBit Obj.CAL_STATUS 0 0 calRejected false
  | _ => s

/-- R13, R16, R374, R439: a read of `length` bytes from `offset` of an object: its RESULT and the bytes. The indexes 0x4c00 to
0x4cff hold no object and read as zero (R94). -/
def State.readReq (s : State) (path : Path) (k offset length : Nat) : State × Nat × List Byte :=
  let bad := length = 0 || (if path = .chain then 496 else 4096) < length
  if 0x4c00 ≤ k / 256 && k / 256 ≤ 0x4cff then (if bad then (s, 6, []) else (s, 0, List.replicate length 0))
  else
    match objAt k with
    | none => (s, 1, [])
    | some (o, b, e) =>
      if o.access = .rws && s.pathLevel path ≠ 3 then (s, 2, [])
      else if s.mode = stSave then (s, 4, [])
      else if bad then (s, 6, [])
      else if o.access = .wo && o.isBytes then (s, 0, List.replicate length 0)
      else
        let v := s.readBytes path o b e
        let n := o.size e
        if n = 0 then
          (if offset + length ≤ v.length then (s, 0, (v.drop offset).take length) else (s, 6, []))
        else if offset = 0 && length = n then (s.readClears o, 0, v)
        else if n = 8 && offset = 0 && length = 4 then (s.latch path (leAt v 4 4), 0, v.take 4)
        else if n = 8 && offset = 4 && length = 4 then (s, 0, toLe 4 (s.latched path))
        else (s, 6, [])

/-- R13: a read of the low word of a value of 64 bits: the high word is latched. -/
def execWideReadLatch (t : Nat) (path : Path) (object : Nat) (s : State) : Result :=
  let s := (s.at t).touch path
  let r := s.readReq path object 0 4
  match r.2.1 with
  | 0 => .next ((r.1.emit (.value path object (leNat r.2.2))).answer path object 0)
  | c => .next (r.1.answer path object c)

/-! ## Writes (R439) -/

/-- What a command without an outcome of its own leaves. -/
def afterRow (r : Result) (s : State) : State :=
  match r with
  | .next s' => s'
  | _ => s

/-- R33, R89: a declaration of an epoch of a port group. -/
def State.pendingWrite (s : State) (path : Path) (g : Nat) (value : List Byte) : State :=
  let s := s.touch path
  let k := Obj.EPOCH_PENDING.key 0 g
  match s.checkAccess path Obj.EPOCH_PENDING 0 g value.length with
  | 0 =>
    let r := s.declareAt g (leNat value)
    r.1.answer path k r.2
  | c => s.answer path k c

/-- R520: a request for a calibration task, from its word. -/
def State.calRequestWrite (s : State) (path : Path) (value : List Byte) : State :=
  let w := leNat value
  match s.checkAccess path Obj.CAL_REQUEST 0 0 value.length with
  | 0 => s.calWrite path ((w / 2 ^ 24) % 16) (w.testBit 31) ((w / 2 ^ 12) % 4096) (w % 4096)
  | c => (s.touch path).answer path (Obj.CAL_REQUEST.key 0 0) c

/-- R441, R443: a request for a state. -/
def State.stateWrite (s : State) (path : Path) (value : List Byte) : State :=
  let s1 := s.touch path
  let k := Obj.STATE_REQUEST.key 0 0
  match s.checkWrite path Obj.STATE_REQUEST 0 0 value with
  | 0 =>
    match leNat value with
    | 1 => afterRow (execReqInit s.now path s) s
    | 2 => afterRow (execReqPreop s.now path s) s
    | 3 => afterRow (execReqArmed s.now path s) s
    | 4 => afterRow (execReqRun s.now path s) s
    | _ => afterRow (execReqHold s.now path s) s
  | c => s1.answer path k c

/-- A write of a command object whose value selects one of several operations. -/
def State.commandWrite (s : State) (path : Path) (o : ObjRow) (b : Nat) (value : List Byte) (f : Nat → Result) : State :=
  match s.checkWrite path o b 0 value with
  | 0 => afterRow (f (leNat value)) s
  | c => (s.touch path).answer path (o.key b 0) c

/-- R439: a complete write among the objects of the device, the access levels, the chain and power.
An object without an operation of its own takes the checks and the effect of its row. -/
def State.writeUnit (s : State) (path : Path) (o : ObjRow) (b e k : Nat) (value : List Byte) : State :=
  let t := s.now
  match o.index with
  | 0x1011 => s.stateWrite path value                                                   -- STATE_REQUEST
  | 0x1014 => afterRow (execDeviceReset t path value s) s                               -- DEVICE_RESET
  | 0x1030 => if path = .host then (s.touch path).answer path k 3 else afterRow (execAccessCodeWrite t path value s) s
  | 0x1031 => if path = .host then (s.touch path).answer path k 3 else afterRow (execAccessUnlockWrite t path value s) s
  | 0x1032 => if path = .host then (s.touch path).answer path k 3 else afterRow (execAccessLevelWrite t path value s) s
  | 0x1038 => if path = .host then afterRow (execAccessCodeWrite t path value s) s else (s.touch path).answer path k 3
  | 0x1039 => if path = .host then afterRow (execAccessUnlockWrite t path value s) s else (s.touch path).answer path k 3
  | 0x103a => if path = .host then afterRow (execAccessLevelWrite t path value s) s else (s.touch path).answer path k 3
  | 0x1100 => (s.touch path).answer path k 2                                            -- MER_STATION (R422)
  | 0x2009 => afterRow (execPwSleepCmd t path value s) s                                -- PW_SLEEP_CMD
  | _ => s.dictWrite path o b e value

/-- R439: a complete write among the objects of position, epochs and cameras.
An object without an operation of its own takes the checks and the effect of its row. -/
def State.writeLines (s : State) (path : Path) (o : ObjRow) (b e : Nat) (value : List Byte) : State :=
  let t := s.now
  match o.index with
  | 0x2280 => afterRow (execSpEnableWrite t path (Fin.ofNat 4 e) false value s) s       -- SP_ENABLE
  | 0x2281 => afterRow (execSpEnableWrite t path (Fin.ofNat 4 e) true value s) s        -- SP_CLOCK_KHZ
  | 0x2301 => afterRow (execTgPeriodWrite t path (Fin.ofNat 12 e) value s) s            -- TG_PERIOD
  | 0x2302 => afterRow (execTgDividerWrite t path (Fin.ofNat 12 e) value s) s           -- TG_DIVIDER
  | 0x3001 => s.pendingWrite path e value                                               -- EPOCH_PENDING
  | 0x3100 => afterRow (execCamEnableWrite t path (Fin.ofNat 12 b) value s) s           -- CAM_ENABLE
  | 0x3101 => afterRow (execCamLanesWrite t path (Fin.ofNat 12 b) value s) s            -- CAM_LANES
  | 0x3102 => afterRow (execCamRateWrite t path (Fin.ofNat 12 b) value s) s             -- CAM_RATE
  | 0x3123 => s.commandWrite path o b value (fun c =>                                   -- CAM_REG_CMD
      if c = 1 then execCamRegRead t path (Fin.ofNat 12 b) s
      else if c = 2 then execCamRegWrite t path (Fin.ofNat 12 b) s
      else execCamRegAbort t path (Fin.ofNat 12 b) s)
  | _ => s.dictWrite path o b e value

/-- R439: a complete write among the objects of raw correction, the atlas, stitching, programs and class tables.
An object without an operation of its own takes the checks and the effect of its row. -/
def State.writeImage (s : State) (path : Path) (o : ObjRow) (b e : Nat) (value : List Byte) : State :=
  let t := s.now
  match o.index with
  | 0x4010 => afterRow (execDefectMapWrite t path (Fin.ofNat 12 b) value s) s           -- RC_DEFECT_MAP
  | 0x4033 => afterRow (execPlateRefWrite t path (Fin.ofNat 12 b) value s) s            -- RC_FF_PLATE_REF
  | 0x4080 => afterRow (execAtBlobWrite t path (Fin.ofNat 12 b) value s) s              -- AT_BLOB
  | 0x4083 => s.commandWrite path o b value (fun c =>                                   -- AT_LOAD_CMD
      if c = 1 then execAtLoad t path (Fin.ofNat 12 b) s else execAtLoadCancel t path (Fin.ofNat 12 b) s)
  | 0x5010 => afterRow (execStMapWrite t path (Fin.ofNat 12 b) value s) s               -- ST_MAP
  | 0x5032 => s.commandWrite path o b value (fun c =>                                   -- ST_CAL_CMD
      if c = 1 then execStCalStart t path s else execStCalCancel t path s)
  | 0x5100 => afterRow (execVdProgramWrite t path (Fin.ofNat 12 b) value s) s           -- VD_PROGRAM
  | 0x5120 => afterRow (execClassTableWrite t path (Fin.ofNat 12 b) (Fin.ofNat 256 e) value s) s   -- CLASS_TABLE
  | _ => s.dictWrite path o b e value

/-- R439: a complete write among the objects of valve links, rings and continuity.
An object without an operation of its own takes the checks and the effect of its row. -/
def State.writeValves (s : State) (path : Path) (o : ObjRow) (b e : Nat) (value : List Byte) : State :=
  let t := s.now
  match o.index with
  | 0x6004 => afterRow (execEjLinkLeadWrite t path value s) s                           -- EJ_LINK_LEAD_NS
  | 0x6200 => afterRow (execEjValveStateWrite t path (Fin.ofNat 2048 e) value s) s      -- EJ_VALVE_STATE
  | 0x7003 => afterRow (execRecAckSeqWrite t path value s) s                            -- REC_ACK_SEQ
  | 0x7013 => afterRow (execOutAckOrderWrite t path value s) s                          -- OUT_ACK_ORDER
  | 0x7808 => afterRow (execLgDiscard t path value s) s                                 -- LG_DISCARD
  | 0x7823 => afterRow (execIslandReset t path value s) s                               -- ISLAND_RESET
  | _ => s.dictWrite path o b e value

/-- R439: a complete write among the objects of monitors, the event lattice, calibration, links and security.
An object without an operation of its own takes the checks and the effect of its row. -/
def State.writeOther (s : State) (path : Path) (o : ObjRow) (b e : Nat) (value : List Byte) : State :=
  let t := s.now
  match o.index with
  | 0x801a => afterRow (execAmPeakClear t path value s) s                               -- AM_PEAK_CLEAR
  | 0xa05b => afterRow (execTw0XferCmd t path value s) s                                -- TW0_XFER_CMD
  | 0xa100 => afterRow (execEvChConfigWrite t path (Fin.ofNat 64 b) value s) s          -- EV_CH_CONFIG
  | 0xc001 => s.calRequestWrite path value                                              -- CAL_REQUEST
  | 0xc030 => s.commandWrite path o b value (fun c =>                                   -- CAL_STORE_CMD
      if c = 1 then execCalStore t path s else execCalStoreClear t path s)
  | 0xe000 => afterRow (execLnPatternWrite t path (Fin.ofNat 80 e) value s) s           -- LN_PATTERN
  | 0xf000 => afterRow (execFwImageWrite t path value s) s                              -- FW_IMAGE
  | 0xf001 => afterRow (execFwImageHostWrite t path value s) s                          -- FW_IMAGE_HOST
  | 0xf005 => afterRow (execFwActivate t path value s) s                                -- FW_ACTIVATE
  | 0xf006 => afterRow (execFwConfirm t path value s) s                                 -- FW_CONFIRM
  | 0xf010 => afterRow (execSecKeyWrite t path (Fin.ofNat 8 b) value s) s               -- SEC_KEY
  | _ => s.dictWrite path o b e value

/-- R439: a complete write of an object on a path. -/
def State.writeAny (s : State) (path : Path) (k : Nat) (value : List Byte) : State :=
  match objAt k with
  | none => (s.touch path).answer path k 1
  | some (o, b, e) =>
    if o.index < 0x2200 then s.writeUnit path o b e k value
    else if o.index < 0x4000 then s.writeLines path o b e value
    else if o.index < 0x6000 then s.writeImage path o b e value
    else if o.index < 0x8000 then s.writeValves path o b e value
    else s.writeOther path o b e value

/-- R439: a write request to an object. -/
def execObjectWrite (t : Nat) (path : Path) (object : Nat) (value : List Byte) (s : State) : Result :=
  .next ((s.at t).writeAny path object value)

/-- R10: a write of a counter: zero clears it, anything else is out of range. -/
def execCounterClear (t : Nat) (path : Path) (object : Nat) (value : List Byte) (s : State) : Result :=
  let s := s.at t
  match objAt object with
  | some (o, b, e) => .next (if o.counter then s.dictWrite path o b e value else s)
  | none => .next ((s.touch path).answer path object 1)

/-- R18, R34: a write of an RWE object: it is staged, and an epoch is pending. -/
def execRweWrite (t : Nat) (path : Path) (object : Nat) (value : List Byte) (s : State) : Result :=
  let s := s.at t
  match objAt object with
  | some (o, _, _) => .next (if o.access = .rwe then s.writeAny path object value else s)
  | none => .next ((s.touch path).answer path object 1)

/-- R33: a write of `EPOCH_PENDING`. -/
def execEpochPendingWrite (t : Nat) (path : Path) (g : Fin 12) (value : List Byte) (s : State) : Result :=
  .next ((s.at t).pendingWrite path g value)

/-! ## Requests of a mailbox (R372 to R374) -/

/-- R373: the open segmented writes of a path. -/
def State.partials (s : State) (path : Path) : List (Nat × List Byte × Nat) :=
  if path = .host then s.cxl.mb.partials else s.mer.partials

/-- R373: the open segmented writes of a path become these. -/
def State.setPartials (s : State) (path : Path) (l : List (Nat × List Byte × Nat)) : State :=
  if path = .host then { s with cxl := { s.cxl with mb := { s.cxl.mb with partials := l } } }
  else { s with mer := { s.mer with partials := l } }

/-- R373: the transfer to an object is no longer open. -/
def State.closeTransfer (s : State) (path : Path) (k : Nat) : State :=
  s.setPartials path ((s.partials path).filter (fun (x : Nat × List Byte × Nat) => x.1 != k))

/-- R373, R447: a transfer is aborted; one of a firmware image is refused with code 8. -/
def State.abortTransfer (s : State) (path : Path) (k : Nat) : State :=
  let was := (s.partials path).any (fun (x : Nat × List Byte × Nat) => x.1 == k)
  let s := s.closeTransfer path k
  if was && (k == Obj.FW_IMAGE.key 0 0 || k == Obj.FW_IMAGE_HOST.key 0 0) then s.imageRefused 8 else s

/-- R447: the other firmware image object has a transfer open. -/
def State.imageBusy (s : State) (k : Nat) : Bool :=
  (k == Obj.FW_IMAGE.key 0 0 && openTransfer s.cxl.mb.partials Obj.FW_IMAGE_HOST) ||
    (k == Obj.FW_IMAGE_HOST.key 0 0 && openTransfer s.mer.partials Obj.FW_IMAGE)

/-- The RESULT of the last answer on a path among what the part has sent since. -/
def lastAnswer (path : Path) (l : List Out) : Nat :=
  l.foldl (fun r x =>
    match x with
    | .result q _ c => if q = path then c else r
    | _ => r) 0

/-- R439: a complete write and its RESULT. -/
def State.writeWhole (s : State) (path : Path) (k : Nat) (value : List Byte) : State × Nat :=
  let s' := s.writeAny path k value
  (s', lastAnswer path (s'.out.drop s.out.length))

/-- R439: the checks 1 to 5 of a segment. -/
def State.segmentCheck (s : State) (path : Path) (k offset n : Nat) (final : Bool) : Nat :=
  match objAt k with
  | none => 1
  | some (o, b, e) =>
    let total := offset + n
    let n := if o.isBytes || final then total else if total ≤ o.kind.bytes then o.kind.bytes else 0
    s.checkAccess path o b e n

/-- R189: a map of the wrong length is refused, as a segment or whole. -/
def State.mapRefused (s : State) (k : Nat) : State :=
  match objAt k with
  | some (o, b, _) => if o.index = Obj.ST_MAP.index then s.raise .ST_MAP_REFUSED (Obj.ST_MAP.ident b) else s
  | none => s

/-- R373: a segment of a write. The one with FINAL completes it, or ends it where it is refused. -/
def State.segment (s : State) (path : Path) (k offset : Nat) (final : Bool) (data : List Byte) : State × Nat :=
  let old := (s.partials path).find? (fun (x : Nat × List Byte × Nat) => x.1 == k)
  if old.isNone && offset = 0 && final then s.writeWhole path k data
  else
    match s.segmentCheck path k offset data.length final with
    | 0 =>
      match old with
      | none =>
        if offset ≠ 0 then (s, 7)
        else if s.imageBusy k then (s, 8)
        else (s.setPartials path (s.partials path ++ [(k, data, s.now)]), 0)
      | some x =>
        if offset ≠ x.2.1.length then (s.abortTransfer path k, 7)
        else if final then (s.closeTransfer path k).writeWhole path k (x.2.1 ++ data)
        else ((s.closeTransfer path k).setPartials path ((s.closeTransfer path k).partials path ++ [(k, x.2.1 ++ data, s.now)]), 0)
    | c =>
      let s := if c = 6 then s.mapRefused k else s
      (if final then s.abortTransfer path k else s, c)

/-- R372, R439: a request is served: the state after it, its RESULT and the bytes it read. An OP that is none of the three has
RESULT 2 (log entry 55). -/
def State.serve (s : State) (path : Path) (r : MbRequest) : State × Nat × List Byte :=
  let s := s.touch path
  let k := r.object / 256
  match r.op with
  | 1 => s.readReq path k r.offset r.length
  | 2 =>
    if r.length ≠ r.data.length then
      let c := s.segmentCheck path k r.offset r.data.length r.final
      (s, if c = 0 || 4 < c then 6 else c, [])
    else
      let p := s.segment path k r.offset r.final r.data
      (p.1, p.2, [])
  | 3 => if (objAt k).isNone then (s, 1, []) else (s.abortTransfer path k, 0, [])
  | _ => (s, 2, [])

/-! ## The host's mailbox (R371, R372) -/

/-- R371: the buffer MB_DATA with `new` at its start. -/
def mbBuffer (old new : List Byte) : List Byte := (new ++ old.drop new.length).take 4096

/-- R372: the request of the mailbox is complete. Where the link was reset meanwhile, only `CX_MB_LAST` keeps the result. -/
def State.mailboxDone (s : State) : State :=
  match s.cxl.mb.request with
  | none => s
  | some r =>
    let p := s.serve .host r
    let s := p.1.putList Obj.CX_MB_LAST 0 ([r.tag, p.2.1, r.op].map (fun (n : Nat) => (n : Int)))
    let mb : Mailbox := { s.cxl.mb with request := none }
    if mb.state = 1 then
      let mb : Mailbox := { mb with
        tag := r.tag, result := p.2.1, state := if p.2.1 = 0 then 2 else 3
        data := if r.op = 1 && p.2.1 = 0 then mbBuffer mb.data p.2.2 else mb.data }
      { s with cxl := { s.cxl with mb := mb } }.vector 0
    else { s with cxl := { s.cxl with mb := mb } }

/-- R371: what the host writes before MB_GO: MB_CMD and MB_OBJECT; for a read or a write MB_OFFSET and MB_LENGTH; for a write
MB_FLAGS and MB_DATA. -/
def Mailbox.write (m : Mailbox) (r : MbRequest) : Mailbox :=
  let m := { m with cmd := 65536 * r.tag + r.op, object := r.object }
  let m := if r.op = 3 then m else { m with offset := r.offset, length := r.length }
  if r.op = 2 then { m with flags := boolNat r.final, data := mbBuffer m.data r.data } else m

/-- R372: the registers of a request are written, and then MB_GO: discarded while STATE is 1. A request that a reset of the
link has left is completed first. -/
def State.mailboxGo (s : State) (r : MbRequest) : State :=
  let s := { s with cxl := { s.cxl with mb := s.cxl.mb.write r } }
  if s.cxl.mb.state = 1 then s.count Obj.CX_MB_REFUSED 0 0 1
  else
    let s := s.mailboxDone
    { s with cxl := { s.cxl with mb := { s.cxl.mb with request := some r, state := 1 } } }

/-- R371, R372: a read through the mailbox. -/
def execMbRead (t : Nat) (tag object offset length : Nat) (s : State) : Result :=
  .next ((s.at t).mailboxGo { tag := tag, op := 1, object := object, offset := offset, length := length, final := false, data := [] })

/-- R371 to R373: a write through the mailbox, or a segment of one. -/
def execMbWrite (t : Nat) (tag object offset : Nat) (final : Bool) (data : List Byte) (s : State) : Result :=
  .next ((s.at t).mailboxGo {
    tag := tag, op := 2, object := object, offset := offset, length := data.length, final := final, data := data })

/-- R371, R373: the partial value of a segmented write is discarded. -/
def execMbAbort (t : Nat) (tag object : Nat) (s : State) : Result :=
  .next ((s.at t).mailboxGo { tag := tag, op := 3, object := object, offset := 0, length := 0, final := false, data := [] })

/-- R372: the dictionary server completes the request of the mailbox. -/
def execMailboxComplete (t : Nat) (s : State) : Result := .next ((s.at t).mailboxDone)

/-- R373: segmented transfers left open for 1 s are discarded. -/
def execSegmentTimeout (t : Nat) (s : State) : Result :=
  let s := s.at t
  let drop := fun (path : Path) (s : State) =>
    ((s.partials path).filter (fun (x : Nat × List Byte × Nat) => decide (x.2.2 + 1000000000 ≤ s.now))).foldl
      (fun s (x : Nat × List Byte × Nat) => s.abortTransfer path x.1) s
  .next (drop .host (drop .chain s))

end Sys2Proof.Machine
end

