-- ==== Sys2Proof/Machine/Chain.lean ====
section
/-! DEFINITION. The datagrams of the chain that reach the station space, the process image and the mailbox
(spec/14_meridian_chain_and_dictionary.md, R413 to R422, R425, R426, R430 to R435). -/

namespace Sys2Proof.Machine

open Sys2Proof

/-! ## The station space (R421, R422) -/

/-- R421: the registers of the station space, from their offsets on. -/
def State.stationRegisters (s : State) : List (Nat × List Byte) := [
  (0x000, toLe 4 identWord), (0x004, [s.mode]), (0x005, [s.rdN Obj.STATE_REQUEST]), (0x008, toLe 2 (s.rdN Obj.MER_STATION)),
  (0x00a, toLe 2 (s.lastN Obj.MER_ALIAS)), (0x00c, toLe 2 (s.rdN Obj.MER_PORT_STATUS)), (0x020, toLe 8 s.mer.markFwd),
  (0x028, toLe 8 s.mer.markRet), (0x030, toLe 8 s.now), (0x038, toLe 4 (unsignedOf 4 s.mer.error)), (0x03c, toLe 4 s.mer.loop),
  (0x040, [boolNat s.mer.request.isSome + 2 * boolNat s.mer.ready]), (0x100, [s.mer.lastTag.getD 0]),
  (0x102, toLe 2 s.mer.response.length)]

/-- R421: a byte of the station space; unlisted offsets read zero. -/
def State.stationByte (s : State) (a : Nat) : Byte :=
  match s.stationRegisters.find? (fun (r : Nat × List Byte) => decide (r.1 ≤ a) && decide (a < r.1 + r.2.length)) with
  | some r => r.2.getD (a - r.1) 0
  | none => 0

/-- R418, R421: the bytes a read of the station space puts in place of `d`'s; those beyond the space stay. -/
def State.stationRead (s : State) (d : Datagram) : List Byte :=
  d.data.zipIdx.map (fun (x : Byte × Nat) => if d.address + x.2 < 4096 then s.stationByte (d.address + x.2) else x.1)

/-- R418: the whole range lies in the station space. -/
def inStation (d : Datagram) : Bool := decide (d.address + d.data.length ≤ 4096)

/-- R421, R422: the bytes of a write that no writable register takes are refused: `STATE_REQ` at 0x005, and `STATION` at 0x008,
whole, by SCOPE 0, in INIT or PREOP, at the level of its object (R437). -/
def State.stationTakes (s : State) (d : Datagram) (a : Nat) : Bool :=
  let covers := fun (x n : Nat) => decide (d.address ≤ x) && decide (x + n ≤ d.address + d.data.length)
  a == 5 || ((a == 8 || a == 9) && covers 8 2 && d.scope.val == 0 && (s.mode == stInit || s.mode == stPreop) &&
    decide (Obj.MER_STATION.level ≤ s.pathLevel .chain))

/-- R421, R422: a write into the station space: the state after it, and whether all of it was accepted. -/
def State.stationWrite (s : State) (d : Datagram) : State × Bool :=
  let has := fun (a : Nat) => decide (d.address ≤ a) && decide (a < d.address + d.data.length) && s.stationTakes d a
  let byte := fun (a : Nat) => d.data.getD (a - d.address) 0
  let ok := (List.range d.data.length).all (fun i => s.stationTakes d (d.address + i))
  let s1 := if has 8 then s.putN Obj.MER_STATION 0 0 (byte 8 + 256 * byte 9) else s
  if has 5 then
    let p := s1.writeWhole .chain (Obj.STATE_REQUEST.key 0 0) [byte 5]
    (p.1, ok && p.2 == 0)
  else (s1, ok)

/-! ## The process image (R430 to R432) -/

/-- R430: the elements of a window with their image addresses. -/
def State.imageElements (s : State) (o base : ObjRow) : List (Nat × Nat) :=
  ((s.mapping o).foldl (fun (p : Nat × List (Nat × Nat)) w => (p.1 + mapBytes w, p.2 ++ [(p.1, w)])) (s.rdN base, [])).2

/-- R431: the datagram covers a range entirely. -/
def coversRange (d : Datagram) (a n : Nat) : Bool := decide (d.address ≤ a) && decide (a + n ≤ d.address + d.data.length)

/-- R431: one mapped output object of a STORE or TRADE; false where it is refused. -/
def State.imageStore (d : Datagram) (p : State × Bool) (x : Nat × Nat) : State × Bool :=
  let n := mapBytes x.2
  if !rangesMeet (d.address, d.data.length) (x.1, n) then p
  else if coversRange d x.1 n then
    let q := p.1.writeWhole .image (x.2 / 256) ((d.data.drop (x.1 - d.address)).take n)
    (q.1, p.2 && q.2 == 0)
  else (p.1, false)

/-- R431, R433: the output bytes of a STORE or TRADE are written, and whether all were accepted. A datagram that covers the
output window feeds the watchdog. -/
def State.imageWriteAll (s : State) (d : Datagram) : State × Bool :=
  let p := (s.imageElements Obj.MAP_OUT Obj.MAP_OUT_BASE).foldl (State.imageStore d) (s, true)
  let s := if p.2 then p.1 else p.1.count Obj.MER_CYCLIC_REFUSED 0 0 1
  let s := s.setBit Obj.MER_PORT_STATUS 0 0 mpCyclic (!p.2)
  let w := s.mapWindow Obj.MAP_OUT Obj.MAP_OUT_BASE
  let s := if coversRange d w.1 w.2 then
    { s with mer := { s.mer with cyclic := s.now } }.setBit Obj.MER_PORT_STATUS 0 0 mpWatchdog false else s
  (s, p.2)

/-- R432: the bytes of the input window that lie in the datagram's range, all of one instant; the others stay. -/
def State.imageRead (s : State) (d : Datagram) : List Byte :=
  let bytes := (s.imageElements Obj.MAP_IN Obj.MAP_IN_BASE).flatMap (fun (x : Nat × Nat) =>
    match objAt (x.2 / 256) with
    | some (o, b, e) => s.readBytes .image o b e
    | none => [])
  let base := s.rdN Obj.MAP_IN_BASE
  d.data.zipIdx.map (fun (x : Byte × Nat) =>
    let a := d.address + x.2
    if base ≤ a && a < base + bytes.length then bytes.getD (a - base) 0 else x.1)

/-- R542, R571: what a read of the input window clears. -/
def State.imageClears (s : State) (d : Datagram) : State :=
  (s.imageElements Obj.MAP_IN Obj.MAP_IN_BASE).foldl (fun s (x : Nat × Nat) =>
    match objAt (x.2 / 256) with
    | some (o, _, _) => if rangesMeet (d.address, d.data.length) (x.1, mapBytes x.2) then s.readClears o else s
    | none => s) s

/-! ## FETCH, STORE, TRADE (R418, R419) -/

/-- R418: the bytes a FETCH or TRADE places. -/
def State.merBytes (s : State) (d : Datagram) : List Byte := if d.scope.val = 3 then s.imageRead d else s.stationRead d

/-- R419: what a read leaves behind. -/
def State.merReadDone (s : State) (d : Datagram) : State := if d.scope.val = 3 then s.imageClears d else s

/-- R419, R431: what a STORE or TRADE writes: the state after it, and whether all of it was accepted. -/
def State.merWrite (s : State) (d : Datagram) : State × Bool :=
  if d.scope.val = 3 then s.imageWriteAll d else s.stationWrite d

/-- R434: the request an ASK carries. -/
def askRequest (b : List Byte) : MbRequest := {
  tag := leAt b 1 1, op := leAt b 0 1, object := leAt b 2 2 * 65536 + leAt b 4 1 * 256, offset := leAt b 8 4
  length := leAt b 12 2, final := (leAt b 5 1).testBit 0, data := (b.drop 16).take (leAt b 12 2) }

/-- R434, R435: an ASK is taken: it repeats the last request, whose response is ready again, or it is a request of its own. -/
def State.askTaken (s : State) (r : MbRequest) : State :=
  if s.mer.lastTag = some r.tag then { s with mer := { s.mer with ready := true } }
  else { s with mer := { s.mer with request := some r, ready := false, response := [] } }

/-! ## Frames (R413 to R420) -/

/-- R419: a write of a frame whose FCS was good takes effect: a STORE or TRADE, or an ASK. -/
def State.heldWrite (s : State) (x : Nat × Datagram) : State :=
  if x.1 = 6 then s.askTaken (askRequest x.2.data) else (s.merWrite x.2).1

/-- R419: a write is held until the frame's FCS has been checked (log entry 277). -/
def State.hold (s : State) (action : Nat) (d : Datagram) : State :=
  { s with mer := { s.mer with held := s.mer.held ++ [(action, d)] } }

/-- R419: behind the frame's last datagram its FCS is checked: the held writes take effect, or are discarded and counted. -/
def State.merEnd (s : State) (d : Datagram) : State :=
  if d.more then s
  else
    let l := s.mer.held
    let s := { s with mer := { s.mer with held := [] } }
    if d.fcsOk then l.foldl State.heldWrite s else s.count Obj.MER_FCS_ERRORS 0 d.port 1

/-- R416, R420: the datagram goes on; what follows it in the frame and cannot be processed is counted. -/
def State.merOn (s : State) (action : Nat) (d : Datagram) : State :=
  let s := s.emit (.datagram (s.merExit d.port) action { d with hops := min 255 (d.hops + 1) })
  let s := if d.faults = 0 then s else s.count Obj.MER_FORMAT_ERRORS 0 0 d.faults
  s.merEnd d

/-- R415: a datagram passes a unit that does not serve it. -/
def State.merPass (s : State) (action : Nat) (d : Datagram) : State := s.emit (.datagram (s.merExit d.port) action d)

/-- R420: an ACTION its SCOPE does not allow is forwarded unchanged and counted. -/
def State.merBadAction (s : State) (action : Nat) (d : Datagram) : State :=
  (s.count Obj.MER_FORMAT_ERRORS 0 0 1).merOn action d

/-- R416: a frame without its preamble: the two addresses, the EtherType, its high byte first, and the rest with the FCS. -/
def etherFrame (destination source : List Byte) (etherType : Nat) (body : List Byte) : List Byte :=
  destination ++ source ++ [etherType / 256, etherType % 256] ++ body

/-- R416: the EtherType of a frame without its preamble is Meridian's. -/
def isMeridian (f : List Byte) : Bool := f.getD 12 0 == 0x88 && f.getD 13 0 == 0xb5

/-- R418: an ACTION that its SCOPE allows. -/
def actionAllowed (scope action : Nat) : Bool :=
  if action < 4 then true else if action < 6 then scope == 2 else action < 8 && decide (scope < 2)

/-- R417, R420: the format errors of a datagram area: of datagrams with an ACTION that is reserved or not allowed, and of the one
that runs past its end, behind which nothing is read; `fuel` bounds the walk. -/
def areaFaults (fuel : Nat) (area : List Byte) : Nat :=
  match fuel with
  | 0 => 0
  | f + 1 =>
    let len := 16 + leAt area 8 2 % 2048
    if area.length < 16 || area.length < len then 1
    else
      let kind := leAt area 0 1
      boolNat (!actionAllowed (kind / 64) (kind % 16)) + (if (leAt area 8 2).testBit 15 then areaFaults f (area.drop len) else 0)

/-- R416, R420: the format errors of a Meridian frame: a VERSION that is not 1, or those of its datagrams. -/
def frameFaults (f : List Byte) : Nat :=
  if leAt f 16 1 ≠ 1 then 1 else areaFaults 94 ((f.drop 18).take (leAt f 14 2 % 2048))

/-- R416: the CRC-32 of IEEE 802.3 over a frame's bytes. -/
def ieeeCrc (l : List Byte) : Nat := (l.foldl ieeeByte 0xffffffff) ^^^ 0xffffffff

/-- R419: the FCS at a frame's end, and what it should be. -/
def frameFcs (f : List Byte) : Nat × Nat := (leAt f (f.length - 4) 4, ieeeCrc (f.take (f.length - 4)))

/-- R416, R419: the frame with its HOPS one more, and its FCS as good or as bad as it was. -/
def hopOn (f : List Byte) : List Byte :=
  let b := (f.take (f.length - 4)).set 17 (min 255 (f.getD 17 0 + 1))
  b ++ toLe 4 (ieeeCrc b ^^^ ((frameFcs f).1 ^^^ (frameFcs f).2))

/-- R414 to R416, R420: a frame of which no datagram is processed goes on: one that is not Meridian, crosses the return path or
meets a unit that does not serve it unchanged; another with one hop more, but where its VERSION is not 1, and with its format
errors counted. -/
def execMerFrameForward (t : Nat) (port : Fin 2) (destination source : List Byte) (etherType : Nat) (body : List Byte) (s : State) :
    Result :=
  let s := s.at t
  let frame := etherFrame destination source etherType body
  if isMeridian frame && s.merServes && s.merProcessed port then
    let s := s.count Obj.MER_FORMAT_ERRORS 0 0 (frameFaults frame)
    let s := if (frameFcs frame).1 = (frameFcs frame).2 then s else s.count Obj.MER_FCS_ERRORS 0 port 1
    .next (s.emit (.frameOn (s.merExit port) (if leAt frame 16 1 = 1 then hopOn frame else frame)))
  else .next (s.emit (.frameOn (s.merExit port) frame))

/-- R418: a PASS datagram is counted by the units it addresses. -/
def execPass (t : Nat) (d : Datagram) (s : State) : Result :=
  let s := s.at t
  if !s.merServes || !s.merProcessed d.port then .next (s.merPass 0 d)
  else .next (s.merOn 0 (if s.addressed d then s.receipt d true else d))

/-! ## Time (R425, R426) -/

/-- R425: a MARK whose first byte enters the path of its port at `entry`: the processing path takes MARK_FWD, and MARK_RET where
the frame turns inside the unit; the return path takes MARK_RET. The loop time is their difference. -/
def State.marked (s : State) (port entry : Nat) : State :=
  let m := s.mer
  let turn := entry + s.rdN Obj.MER_FWD_DELAY_NS
  let alone := !s.merLink (1 - port)
  let f := if port = 0 then some entry else if alone then some turn else none
  let r := if port = 1 then some entry else if alone then some turn else none
  let m := { m with markFwd := f.getD m.markFwd, markRet := r.getD m.markRet }
  { s with mer := if r.isSome then { m with loop := unsignedOf 4 ((m.markRet : Int) - m.markFwd) } else m }

/-- R425: a MARK, whose frame begins at `entry` and whose first byte comes `offset` ns behind that. -/
def execMark (t : Nat) (d : Datagram) (entry offset : Nat) (s : State) : Result :=
  let s := s.at t
  if !s.merServes then .next (s.merPass 4 d)
  else if d.scope.val ≠ 2 then .next (if s.merProcessed d.port then s.merBadAction 4 d else s.merPass 4 d)
  else
    let s := s.marked d.port (entry + offset)
    .next (if s.merProcessed d.port then s.merOn 4 (s.receipt d true) else s.merPass 4 d)

/-- R426: a SPREAD: the reference writes its own values; a unit after it corrects itself and passes its own on. -/
def execSpread (t : Nat) (d : Datagram) (entry : Nat) (s : State) : Result :=
  let s := s.at t
  if !s.merServes || !s.merProcessed d.port then .next (s.merPass 5 d)
  else if d.scope.val ≠ 2 || d.data.length ≠ 16 then .next (s.merBadAction 5 d)
  else
    let put := fun (loop texp : Nat) => toLe 4 loop ++ toLe 4 (leAt d.data 4 4) ++ toLe 8 texp
    if s.timeReference then .next (s.merOn 5 (s.receipt { d with data := put s.mer.loop entry } true))
    else if leAt d.data 8 8 = 0 then .next (s.merOn 5 d)
    else
      let hop := Int.tdiv ((leAt d.data 0 4 : Int) - s.mer.loop) 2
      let ref : Int := leAt d.data 8 8 + hop
      let e : Int := entry - ref
      let s := { s with mer := { s.mer with error := e } }.putN Obj.MER_PROP_DELAY_NS 0 0 (unsignedOf 4 hop)
      let s := (s.correct e).alignRun e
      let now := s.now
      let s := { s with mer := { s.mer with spread := some now } }
      .next (s.merOn 5 (s.receipt { d with data := put s.mer.loop (unsignedOf 8 ref) } true))

/-- R418: a FETCH places the unit's bytes in DATA; in SCOPE 2 it ORs them in. -/
def execFetch (t : Nat) (d : Datagram) (s : State) : Result :=
  let s := s.at t
  if !s.merServes || !s.merProcessed d.port then .next (s.merPass 1 d)
  else if !s.addressed d then .next (s.merOn 1 d)
  else
    let own := s.merBytes d
    let data := if d.scope.val = 2 then
        (List.zipWith (fun (a b : Nat) => a ||| b) d.data own)
      else own
    .next ((s.merReadDone d).merOn 1 (s.receipt { d with data := data } (d.scope.val == 3 || inStation d)))

/-- R418, R419: a STORE takes the bytes of DATA. -/
def execStore (t : Nat) (d : Datagram) (s : State) : Result :=
  let s := s.at t
  if !s.merServes || !s.merProcessed d.port then .next (s.merPass 2 d)
  else if !s.addressed d then .next (s.merOn 2 d)
  else
    .next ((s.hold 2 d).merOn 2 (s.receipt d (s.merWrite d).2))

/-- R418, R419: a TRADE takes the bytes of DATA and puts the unit's own in their place, those of before. -/
def execTrade (t : Nat) (d : Datagram) (s : State) : Result :=
  let s := s.at t
  if !s.merServes || !s.merProcessed d.port then .next (s.merPass 3 d)
  else if !s.addressed d then .next (s.merOn 3 d)
  else
    let own := s.merBytes d
    let s := s.merReadDone d
    .next ((s.hold 3 d).merOn 3 (s.receipt { d with data := own } (s.merWrite d).2))

/-! ## The mailbox of the chain (R434, R435) -/

/-- R434: an ASK hands a request to the unit when its buffer is free. One without a whole request head is refused (log entry
56). -/
def execAsk (t : Nat) (d : Datagram) (s : State) : Result :=
  let s := s.at t
  if !s.merServes || !s.merProcessed d.port then .next (s.merPass 6 d)
  else if 2 ≤ d.scope.val then .next (s.merBadAction 6 d)
  else if !s.addressed d then .next (s.merOn 6 d)
  else if s.mer.request.isSome || d.data.length < 16 then .next (s.merOn 6 (s.receipt d false))
  else .next ((s.hold 6 d).merOn 6 (s.receipt d true))

/-- R434: a COLLECT carries the kept response out. -/
def execCollect (t : Nat) (d : Datagram) (s : State) : Result :=
  let s := s.at t
  let b := s.mer.response
  if !s.merServes || !s.merProcessed d.port then .next (s.merPass 7 d)
  else if 2 ≤ d.scope.val then .next (s.merBadAction 7 d)
  else if !s.addressed d then .next (s.merOn 7 d)
  else if s.mer.ready && decide (b.length ≤ d.data.length) then
    .next (s.merOn 7 (s.receipt { d with data := b ++ d.data.drop b.length } true))
  else .next (s.merOn 7 (s.receipt d false))

/-- R434: the head of a response. -/
def responseHead (r : MbRequest) (result : Nat) : List Byte :=
  [r.op, r.tag] ++ toLe 2 (r.object / 65536) ++ [r.object / 256 % 256, boolNat r.final, result, 0] ++ toLe 4 r.offset ++
    toLe 2 r.length ++ [0, 0]

/-- R434: the dictionary server completes the chain's request. A request of more than 496 bytes that nothing else
refuses has RESULT 6. One that resets the part leaves no response. -/
def execChainMbxComplete (t : Nat) (s : State) : Result :=
  let s := s.at t
  match s.mer.request with
  | none => .next s
  | some r =>
    let p := s.serve .chain r
    let s := p.1
    if s.mer.request.isNone then .next s
    else .next { s with mer := { s.mer with
      request := none, ready := true, lastTag := some r.tag, response := responseHead r p.2.1 ++ p.2.2 } }

end Sys2Proof.Machine
end

