-- ==== Sys2Proof/Machine/Dispatch.lean ====
section
/-! DEFINITION. What each command does to everything but the queue: one arm per constructor. -/

namespace Sys2Proof.Machine

open Sys2Proof

def exec (i : Instr) (s : State) : Host.Outcome State Fault Refusal :=
  match i with
  | .objectWrite t path object value => Sys2Proof.Machine.execObjectWrite t path object value s
  | .wideReadLatch t path object => Sys2Proof.Machine.execWideReadLatch t path object s
  | .counterClear t path object value => Sys2Proof.Machine.execCounterClear t path object value s
  | .rweWrite t path object value => Sys2Proof.Machine.execRweWrite t path object value s
  | .epochPendingWrite t path g value => Sys2Proof.Machine.execEpochPendingWrite t path g value s
  | .timeUnlock t => Sys2Proof.Machine.execTimeUnlock t s
  | .timeRelock t => Sys2Proof.Machine.execTimeRelock t s
  | .qeCount t q a b => Sys2Proof.Machine.execQeCount t q a b s
  | .qeStandstillTimeout t q => Sys2Proof.Machine.execQeStandstillTimeout t q s
  | .qeIndex t q => Sys2Proof.Machine.execQeIndex t q s
  | .spWordStart t n => Sys2Proof.Machine.execSpWordStart t n s
  | .spWord t n word startTime => Sys2Proof.Machine.execSpWord t n word startTime s
  | .spTimeout t n => Sys2Proof.Machine.execSpTimeout t n s
  | .spEnableWrite t path n clock value => Sys2Proof.Machine.execSpEnableWrite t path n clock value s
  | .lineTrigger t g => Sys2Proof.Machine.execLineTrigger t g s
  | .triggerDeferredIssue t g => Sys2Proof.Machine.execTriggerDeferredIssue t g s
  | .tgPeriodWrite t path p value => Sys2Proof.Machine.execTgPeriodWrite t path p value s
  | .tgDividerWrite t path p value => Sys2Proof.Machine.execTgDividerWrite t path p value s
  | .camEnableWrite t path p value => Sys2Proof.Machine.execCamEnableWrite t path p value s
  | .camLanesWrite t path p value => Sys2Proof.Machine.execCamLanesWrite t path p value s
  | .camRateWrite t path p value => Sys2Proof.Machine.execCamRateWrite t path p value s
  | .discoveryDone t p found => Sys2Proof.Machine.execDiscoveryDone t p found s
  | .discoveryRetry t p => Sys2Proof.Machine.execDiscoveryRetry t p s
  | .linkRetry t p => Sys2Proof.Machine.execLinkRetry t p s
  | .camLinkReturn t p => Sys2Proof.Machine.execCamLinkReturn t p s
  | .camRegRead t path p => Sys2Proof.Machine.execCamRegRead t path p s
  | .camRegWrite t path p => Sys2Proof.Machine.execCamRegWrite t path p s
  | .camRegAbort t path p => Sys2Proof.Machine.execCamRegAbort t path p s
  | .camRegComplete t p code data => Sys2Proof.Machine.execCamRegComplete t p code data s
  | .camRegTimeout t p => Sys2Proof.Machine.execCamRegTimeout t p s
  | .camAck t p gain code => Sys2Proof.Machine.execCamAck t p gain code s
  | .skewReadback t p gain code value => Sys2Proof.Machine.execSkewReadback t p gain code value s
  | .camEventPacket t p id data => Sys2Proof.Machine.execCamEventPacket t p id data s
  | .camHeartbeat t p => Sys2Proof.Machine.execCamHeartbeat t p s
  | .camHbTimeout t p => Sys2Proof.Machine.execCamHbTimeout t p s
  | .laneLockLoss t p lane => Sys2Proof.Machine.execLaneLockLoss t p lane s
  | .streamPacket t p packet => Sys2Proof.Machine.execStreamPacket t p packet s
  | .lineDeadline t p line => Sys2Proof.Machine.execLineDeadline t p line s
  | .replayCommit t p line => Sys2Proof.Machine.execReplayCommit t p line s
  | .rcLine t p => Sys2Proof.Machine.execRcLine t p s
  | .defectMapWrite t path p blob => Sys2Proof.Machine.execDefectMapWrite t path p blob s
  | .plateRefWrite t path p blob => Sys2Proof.Machine.execPlateRefWrite t path p blob s
  | .rgLine t p errors => Sys2Proof.Machine.execRgLine t p errors s
  | .objectLeaveSeg t p => Sys2Proof.Machine.execObjectLeaveSeg t p s
  | .atlasScrubPass t pipeline upsets => Sys2Proof.Machine.execAtlasScrubPass t pipeline upsets s
  | .atBlobWrite t path p blob => Sys2Proof.Machine.execAtBlobWrite t path p blob s
  | .atLoad t path p => Sys2Proof.Machine.execAtLoad t path p s
  | .atLoadCancel t path p => Sys2Proof.Machine.execAtLoadCancel t path p s
  | .atLoadDone t p => Sys2Proof.Machine.execAtLoadDone t p s
  | .atlasHoldEnd t p => Sys2Proof.Machine.execAtlasHoldEnd t p s
  | .atlasShadowReload t p done => Sys2Proof.Machine.execAtlasShadowReload t p done s
  | .stMapWrite t path p blob => Sys2Proof.Machine.execStMapWrite t path p blob s
  | .stCalStart t path => Sys2Proof.Machine.execStCalStart t path s
  | .stCalCancel t path => Sys2Proof.Machine.execStCalCancel t path s
  | .stCalDone t p levels => Sys2Proof.Machine.execStCalDone t p levels s
  | .groupResolve t => Sys2Proof.Machine.execGroupResolve t s
  | .summary t link payload => Sys2Proof.Machine.execSummary t link payload s
  | .watermark t link time => Sys2Proof.Machine.execWatermark t link time s
  | .watermarkSend t link => Sys2Proof.Machine.execWatermarkSend t link s
  | .taken t link seq parts orders => Sys2Proof.Machine.execTaken t link seq parts orders s
  | .takenAck t link part refused => Sys2Proof.Machine.execTakenAck t link part refused s
  | .seamWaitTimeout t => Sys2Proof.Machine.execSeamWaitTimeout t s
  | .takenTimeout t => Sys2Proof.Machine.execTakenTimeout t s
  | .loanStart t link p => Sys2Proof.Machine.execLoanStart t link p s
  | .loanLine t link line => Sys2Proof.Machine.execLoanLine t link line s
  | .loanSettings t link settings => Sys2Proof.Machine.execLoanSettings t link settings s
  | .objectAccept t => Sys2Proof.Machine.execObjectAccept t s
  | .vdProgramWrite t path g blob => Sys2Proof.Machine.execVdProgramWrite t path g blob s
  | .classTableWrite t path g first values => Sys2Proof.Machine.execClassTableWrite t path g first values s
  | .programHoldEnd t g => Sys2Proof.Machine.execProgramHoldEnd t g s
  | .frameFreeze t link k => Sys2Proof.Machine.execFrameFreeze t link k s
  | .frameTransmit t link => Sys2Proof.Machine.execFrameTransmit t link s
  | .surfaceWaitTimeout t => Sys2Proof.Machine.execSurfaceWaitTimeout t s
  | .prechargePeriodic t valve => Sys2Proof.Machine.execPrechargePeriodic t valve s
  | .echo t link frame flags executed crcOk => Sys2Proof.Machine.execEcho t link frame flags executed crcOk s
  | .echoTimeout t link => Sys2Proof.Machine.execEchoTimeout t link s
  | .statusTimeout t link => Sys2Proof.Machine.execStatusTimeout t link s
  | .valveStatus t link words board crcOk => Sys2Proof.Machine.execValveStatus t link words board crcOk s
  | .ping t link => Sys2Proof.Machine.execPing t link s
  | .pingReturn t link => Sys2Proof.Machine.execPingReturn t link s
  | .interlockOpen t source => Sys2Proof.Machine.execInterlockOpen t source s
  | .interlockRelease t => Sys2Proof.Machine.execInterlockRelease t s
  | .ejValveStateWrite t path valve value => Sys2Proof.Machine.execEjValveStateWrite t path valve value s
  | .ejLinkLeadWrite t path value => Sys2Proof.Machine.execEjLinkLeadWrite t path value s
  | .remoteOrder t link payload => Sys2Proof.Machine.execRemoteOrder t link payload s
  | .subResult t link payload => Sys2Proof.Machine.execSubResult t link payload s
  | .remoteWaitTimeout t orderId => Sys2Proof.Machine.execRemoteWaitTimeout t orderId s
  | .recordWrite t => Sys2Proof.Machine.execRecordWrite t s
  | .outcomeWrite t => Sys2Proof.Machine.execOutcomeWrite t s
  | .recAckSeqWrite t path value => Sys2Proof.Machine.execRecAckSeqWrite t path value s
  | .outAckOrderWrite t path value => Sys2Proof.Machine.execOutAckOrderWrite t path value s
  | .recAck t write => Sys2Proof.Machine.execRecAck t write s
  | .outAck t write => Sys2Proof.Machine.execOutAck t write s
  | .ringIrqTimeout t outcomes => Sys2Proof.Machine.execRingIrqTimeout t outcomes s
  | .thumbWrite t => Sys2Proof.Machine.execThumbWrite t s
  | .czBlockDone t channel engine data sourceError verifyFail => Sys2Proof.Machine.execCzBlockDone t channel engine data sourceError verifyFail s
  | .islandReset t path value => Sys2Proof.Machine.execIslandReset t path value s
  | .islandResetEnter t island flushed => Sys2Proof.Machine.execIslandResetEnter t island flushed s
  | .islandReady t island => Sys2Proof.Machine.execIslandReady t island s
  | .pipeHeartbeatTimeout t pipeline last => Sys2Proof.Machine.execPipeHeartbeatTimeout t pipeline last s
  | .failover t errors imageBad => Sys2Proof.Machine.execFailover t errors imageBad s
  | .spareCaughtUp t p => Sys2Proof.Machine.execSpareCaughtUp t p s
  | .rotate t => Sys2Proof.Machine.execRotate t s
  | .rotationCompareDone t equal => Sys2Proof.Machine.execRotationCompareDone t equal s
  | .rotateEpochWaitTimeout t => Sys2Proof.Machine.execRotateEpochWaitTimeout t s
  | .pipeBistDone t pipeline result => Sys2Proof.Machine.execPipeBistDone t pipeline result s
  | .ledgerCommit t => Sys2Proof.Machine.execLedgerCommit t s
  | .ledgerCopyDone t => Sys2Proof.Machine.execLedgerCopyDone t s
  | .reissue t => Sys2Proof.Machine.execReissue t s
  | .lgDiscard t path value => Sys2Proof.Machine.execLgDiscard t path value s
  | .mirrorEntry t link acks payload => Sys2Proof.Machine.execMirrorEntry t link acks payload s
  | .mirrorConfirm t link seq => Sys2Proof.Machine.execMirrorConfirm t link seq s
  | .mirrorConfirmTimeout t => Sys2Proof.Machine.execMirrorConfirmTimeout t s
  | .cxlLinkUp t width rate report => Sys2Proof.Machine.execCxlLinkUp t width rate report s
  | .cxlLinkDown t progress => Sys2Proof.Machine.execCxlLinkDown t progress s
  | .cxlPerst t high => Sys2Proof.Machine.execCxlPerst t high s
  | .ideCheckFail t => Sys2Proof.Machine.execIdeCheckFail t s
  | .functionLevelReset t => Sys2Proof.Machine.execFunctionLevelReset t s
  | .causeClear t mask => Sys2Proof.Machine.execCauseClear t mask s
  | .mbRead t tag object offset length => Sys2Proof.Machine.execMbRead t tag object offset length s
  | .mbWrite t tag object offset final data => Sys2Proof.Machine.execMbWrite t tag object offset final data s
  | .mbAbort t tag object => Sys2Proof.Machine.execMbAbort t tag object s
  | .mailboxComplete t => Sys2Proof.Machine.execMailboxComplete t s
  | .segmentTimeout t => Sys2Proof.Machine.execSegmentTimeout t s
  | .windowWrite t address data => Sys2Proof.Machine.execWindowWrite t address data s
  | .windowRead t address length errors => Sys2Proof.Machine.execWindowRead t address length errors s
  | .dmaCommit t channel block => Sys2Proof.Machine.execDmaCommit t channel block s
  | .dmaAbort t channel progress => Sys2Proof.Machine.execDmaAbort t channel progress s
  | .dmaListFetched t channel elements => Sys2Proof.Machine.execDmaListFetched t channel elements s
  | .dmaMoverGrant t toHost victim => Sys2Proof.Machine.execDmaMoverGrant t toHost victim s
  | .dmaHalf t channel data => Sys2Proof.Machine.execDmaHalf t channel data s
  | .dmaDestError t channel progress => Sys2Proof.Machine.execDmaDestError t channel progress s
  | .dmaJobDone t channel data sourceError => Sys2Proof.Machine.execDmaJobDone t channel data sourceError s
  | .refreshDue t channel events running burst hot => Sys2Proof.Machine.execRefreshDue t channel events running burst hot s
  | .dramScrubPass t late errors => Sys2Proof.Machine.execDramScrubPass t late errors s
  | .dramCalibrate t channel drift => Sys2Proof.Machine.execDramCalibrate t channel drift s
  | .dramRequestTimeout t error => Sys2Proof.Machine.execDramRequestTimeout t error s
  | .drChannelFault t loss => Sys2Proof.Machine.execDrChannelFault t loss s
  | .dramRemapDone t => Sys2Proof.Machine.execDramRemapDone t s
  | .merFrameForward t port destination source etherType body => Sys2Proof.Machine.execMerFrameForward t port destination source etherType body s
  | .pass t d => Sys2Proof.Machine.execPass t d s
  | .fetch t d => Sys2Proof.Machine.execFetch t d s
  | .store t d => Sys2Proof.Machine.execStore t d s
  | .trade t d => Sys2Proof.Machine.execTrade t d s
  | .mark t d entry offset => Sys2Proof.Machine.execMark t d entry offset s
  | .spread t d entry => Sys2Proof.Machine.execSpread t d entry s
  | .ask t d => Sys2Proof.Machine.execAsk t d s
  | .collect t d => Sys2Proof.Machine.execCollect t d s
  | .chainMbxComplete t => Sys2Proof.Machine.execChainMbxComplete t s
  | .merLinkLoss t port => Sys2Proof.Machine.execMerLinkLoss t port s
  | .merLinkUp t port fibre => Sys2Proof.Machine.execMerLinkUp t port fibre s
  | .merTimeTimeout t => Sys2Proof.Machine.execMerTimeTimeout t s
  | .merWatchdog t => Sys2Proof.Machine.execMerWatchdog t s
  | .accessCodeWrite t path value => Sys2Proof.Machine.execAccessCodeWrite t path value s
  | .accessUnlockWrite t path value => Sys2Proof.Machine.execAccessUnlockWrite t path value s
  | .accessLevelWrite t path value => Sys2Proof.Machine.execAccessLevelWrite t path value s
  | .accessLevelTimeout t host => Sys2Proof.Machine.execAccessLevelTimeout t host s
  | .nonceRefresh t => Sys2Proof.Machine.execNonceRefresh t s
  | .unlockLockoutEnd t host => Sys2Proof.Machine.execUnlockLockoutEnd t host s
  | .reqInit t path => Sys2Proof.Machine.execReqInit t path s
  | .reqPreop t path => Sys2Proof.Machine.execReqPreop t path s
  | .reqArmed t path => Sys2Proof.Machine.execReqArmed t path s
  | .reqRun t path => Sys2Proof.Machine.execReqRun t path s
  | .reqHold t path => Sys2Proof.Machine.execReqHold t path s
  | .stateTransitionDone t => Sys2Proof.Machine.execStateTransitionDone t s
  | .faultEntry t => Sys2Proof.Machine.execFaultEntry t s
  | .deviceReset t path value => Sys2Proof.Machine.execDeviceReset t path value s
  | .nreset t => Sys2Proof.Machine.execNreset t s
  | .fwImageWrite t path image => Sys2Proof.Machine.execFwImageWrite t path image s
  | .fwImageHostWrite t path image => Sys2Proof.Machine.execFwImageHostWrite t path image s
  | .fwFlashDone t ok => Sys2Proof.Machine.execFwFlashDone t ok s
  | .fwActivate t path value => Sys2Proof.Machine.execFwActivate t path value s
  | .fwConfirm t path value => Sys2Proof.Machine.execFwConfirm t path value s
  | .fwTrialTimeout t => Sys2Proof.Machine.execFwTrialTimeout t s
  | .secKeyWrite t path slot value => Sys2Proof.Machine.execSecKeyWrite t path slot value s
  | .evChConfigWrite t path channel value => Sys2Proof.Machine.execEvChConfigWrite t path channel value s
  | .dmaStart t n => Sys2Proof.Machine.execDmaStart t n s
  | .hostIrq t n => Sys2Proof.Machine.execHostIrq t n s
  | .evtOut t n => Sys2Proof.Machine.execEvtOut t n s
  | .epochDeclare t g => Sys2Proof.Machine.execEpochDeclare t g s
  | .tw0Start t => Sys2Proof.Machine.execTw0Start t s
  | .stateHold t => Sys2Proof.Machine.execStateHold t s
  | .stateRun t => Sys2Proof.Machine.execStateRun t s
  | .timeCapture t n => Sys2Proof.Machine.execTimeCapture t n s
  | .wake t => Sys2Proof.Machine.execWake t s
  | .evtIn t n high stable => Sys2Proof.Machine.execEvtIn t n high stable s
  | .evtPulseEnd t n async => Sys2Proof.Machine.execEvtPulseEnd t n async s
  | .timer t n => Sys2Proof.Machine.execTimer t n s
  | .twStretchTimeout t port held stuck => Sys2Proof.Machine.execTwStretchTimeout t port held stuck s
  | .twBusError t port => Sys2Proof.Machine.execTwBusError t port s
  | .twArbLost t port bit => Sys2Proof.Machine.execTwArbLost t port bit s
  | .twStopSeen t port => Sys2Proof.Machine.execTwStopSeen t port s
  | .tw0Poll t => Sys2Proof.Machine.execTw0Poll t s
  | .tw0PollDone t acknowledged value => Sys2Proof.Machine.execTw0PollDone t acknowledged value s
  | .tw0XferCmd t path value => Sys2Proof.Machine.execTw0XferCmd t path value s
  | .tw0XferDone t acknowledged data => Sys2Proof.Machine.execTw0XferDone t acknowledged data s
  | .tw2Match t => Sys2Proof.Machine.execTw2Match t s
  | .tw2Transfer t write read => Sys2Proof.Machine.execTw2Transfer t write read s
  | .pmbusAlert t words => Sys2Proof.Machine.execPmbusAlert t words s
  | .amOutputSample t channel codes => Sys2Proof.Machine.execAmOutputSample t channel codes s
  | .amSettled t channel => Sys2Proof.Machine.execAmSettled t channel s
  | .amOverload t channel high => Sys2Proof.Machine.execAmOverload t channel high s
  | .amOverloadClear t channel => Sys2Proof.Machine.execAmOverloadClear t channel s
  | .amFreezeMax t channel => Sys2Proof.Machine.execAmFreezeMax t channel s
  | .amPeakClear t path value => Sys2Proof.Machine.execAmPeakClear t path value s
  | .chTrainDone t link full half far => Sys2Proof.Machine.execChTrainDone t link full half far s
  | .tapRequest t link lane request => Sys2Proof.Machine.execTapRequest t link lane request s
  | .hello t link said => Sys2Proof.Machine.execHello t link said s
  | .chPacket t link cls typ seq payload crc => Sys2Proof.Machine.execChPacket t link cls typ seq payload crc s
  | .chAck t link seq => Sys2Proof.Machine.execChAck t link seq s
  | .chNak t link seq => Sys2Proof.Machine.execChNak t link seq s
  | .chAckSend t link => Sys2Proof.Machine.execChAckSend t link s
  | .l1Req t link => Sys2Proof.Machine.execL1Req t link s
  | .l1Ack t link => Sys2Proof.Machine.execL1Ack t link s
  | .chL0sEntry t link => Sys2Proof.Machine.execChL0sEntry t link s
  | .chWakeProbe t link answered => Sys2Proof.Machine.execChWakeProbe t link answered s
  | .chLinkLoss t link => Sys2Proof.Machine.execChLinkLoss t link s
  | .lnPatternWrite t path lane value => Sys2Proof.Machine.execLnPatternWrite t path lane value s
  | .lnEyeUpdate t lane height width bits errors sent => Sys2Proof.Machine.execLnEyeUpdate t lane height width bits errors sent s
  | .plateRef t path forced target deadline => Sys2Proof.Machine.execPlateRef t path forced target deadline s
  | .defectMerge t path forced target deadline => Sys2Proof.Machine.execDefectMerge t path forced target deadline s
  | .stitch t path forced target deadline => Sys2Proof.Machine.execStitch t path forced target deadline s
  | .valveLatency t path forced target deadline => Sys2Proof.Machine.execValveLatency t path forced target deadline s
  | .valveThreshold t path forced target deadline => Sys2Proof.Machine.execValveThreshold t path forced target deadline s
  | .pipeBist t path forced target deadline => Sys2Proof.Machine.execPipeBist t path forced target deadline s
  | .vernier t path forced target deadline => Sys2Proof.Machine.execVernier t path forced target deadline s
  | .vernierPeriodic t link delays cells => Sys2Proof.Machine.execVernierPeriodic t link delays cells s
  | .modulatorRotate t channel elements => Sys2Proof.Machine.execModulatorRotate t channel elements s
  | .calDeadline t => Sys2Proof.Machine.execCalDeadline t s
  | .calResult t outcome => Sys2Proof.Machine.execCalResult t outcome s
  | .calStore t path => Sys2Proof.Machine.execCalStore t path s
  | .calStoreClear t path => Sys2Proof.Machine.execCalStoreClear t path s
  | .almanacWrite t => Sys2Proof.Machine.execAlmanacWrite t s
  | .almanacSample t => Sys2Proof.Machine.execAlmanacSample t s
  | .powerOn t => Sys2Proof.Machine.execPowerOn t s
  | .railStepGood t => Sys2Proof.Machine.execRailStepGood t s
  | .pwPgTimeout t late => Sys2Proof.Machine.execPwPgTimeout t late s
  | .pwRetry t => Sys2Proof.Machine.execPwRetry t s
  | .startupStepDone t report => Sys2Proof.Machine.execStartupStepDone t report s
  | .pgFall t low => Sys2Proof.Machine.execPgFall t low s
  | .railPoll t millivolts milliamps => Sys2Proof.Machine.execRailPoll t millivolts milliamps s
  | .tempSample t temps => Sys2Proof.Machine.execTempSample t temps s
  | .thermalRestart t => Sys2Proof.Machine.execThermalRestart t s
  | .pwWarmupTimeout t => Sys2Proof.Machine.execPwWarmupTimeout t s
  | .vinFall t millivolts => Sys2Proof.Machine.execVinFall t millivolts s
  | .vinRise t millivolts lowest => Sys2Proof.Machine.execVinRise t millivolts lowest s
  | .vinSag t lowest => Sys2Proof.Machine.execVinSag t lowest s
  | .saveWriteDone t millivolts => Sys2Proof.Machine.execSaveWriteDone t millivolts s
  | .saveResume t => Sys2Proof.Machine.execSaveResume t s
  | .pwSleepCmd t path value => Sys2Proof.Machine.execPwSleepCmd t path value s
  | .ilkLoopClose t loop => Sys2Proof.Machine.execIlkLoopClose t loop s
  | .nresetRelease t => Sys2Proof.Machine.execNresetRelease t s
  | .standbyLoss t => Sys2Proof.Machine.execStandbyLoss t s
  | .vinCollapse t => Sys2Proof.Machine.execVinCollapse t s
  | .camAckTimeout t p gain readback => Sys2Proof.Machine.execCamAckTimeout t p gain readback s
  | .lnLockGained t lane => Sys2Proof.Machine.execLnLockGained t lane s
  | .lnLockLost t lane => Sys2Proof.Machine.execLnLockLost t lane s
  | .msixUnmask t entry => Sys2Proof.Machine.execMsixUnmask t entry s
  | .chL1Idle t link => Sys2Proof.Machine.execChL1Idle t link s
  | .calStatusRead t path => Sys2Proof.Machine.execCalStatusRead t path s
  | .pwStatusRead t path => Sys2Proof.Machine.execPwStatusRead t path s
  | .evTimerApply t n => Sys2Proof.Machine.execEvTimerApply t n s
  | .cxlLinkRecovery t => Sys2Proof.Machine.execCxlLinkRecovery t s
  | .ideKeyProgram t io cache mem => Sys2Proof.Machine.execIdeKeyProgram t io cache mem s

end Sys2Proof.Machine
end

