-- ==== Sys2Proof/Safety.lean ====
section
/-! DEFINITION. What the claims call a safe state and a safe step. -/

namespace Sys2Proof.Machine

open Sys2Proof

/-- R375: device memory is in its canonical form. -/
def State.memOk (s : State) : Bool := Memory.wf s.lost s.mem

/-- A command goes on: it answers a next state. -/
def goesOn (c : Instr) (s : State) : Bool :=
  match exec c s with
  | .next _ => true
  | _ => false

/-- R375: the commands that can end in a fault: a host access of an address outside the device memory window. -/
def inWindow (c : Instr) (s : State) : Bool :=
  match c with
  | .windowWrite _ a data => decide (a + data.length ≤ s.rdN Obj.CX_HDM_SIZE)
  | .windowRead _ a n _ => decide (a + n ≤ s.rdN Obj.CX_HDM_SIZE)
  | _ => true

/-! ## Parts of a state, and what each command may change -/

/-- The parts of a state: one name per field of `State`. -/
inductive Part where
  | pending
  | now
  | fresh
  | dict
  | blobs
  | staged
  | stagedBlobs
  | epochs
  | errName
  | latches
  | out
  | draws
  | mem
  | lost
  | dramBad
  | dram
  | scrubFrom
  | lattice
  | cxl
  | access
  | tim
  | cams
  | rc
  | rg
  | vd
  | atl
  | apipes
  | sg
  | ch
  | lanes
  | st
  | judged
  | bank
  | lg
  | vault
  | cont
  | place
  | slots
  | hist
  | thumbs
  | rt
  | holdBy
  | mer
  | fw
  | trans
  | am
  | cal
  | power
deriving DecidableEq, Repr

/-- Every part. -/
def Part.all : List Part := [.pending, .now, .fresh, .dict, .blobs, .staged, .stagedBlobs, .epochs, .errName, .latches, .out,
  .draws, .mem, .lost, .dramBad, .dram, .scrubFrom, .lattice, .cxl, .access, .tim, .cams, .rc, .rg, .vd, .atl, .apipes, .sg,
  .ch, .lanes, .st, .judged, .bank, .lg, .vault, .cont, .place, .slots, .hist, .thumbs, .rt, .holdBy, .mer, .fw, .trans, .am,
  .cal, .power]

/-- Two states hold the same in a part. -/
def State.agree (s u : State) : Part → Prop
  | .pending => u.pending = s.pending
  | .now => u.now = s.now
  | .fresh => u.fresh = s.fresh
  | .dict => u.dict = s.dict
  | .blobs => u.blobs = s.blobs
  | .staged => u.staged = s.staged
  | .stagedBlobs => u.stagedBlobs = s.stagedBlobs
  | .epochs => u.epochs = s.epochs
  | .errName => u.errName = s.errName
  | .latches => u.latches = s.latches
  | .out => u.out = s.out
  | .draws => u.draws = s.draws
  | .mem => u.mem = s.mem
  | .lost => u.lost = s.lost
  | .dramBad => u.dramBad = s.dramBad
  | .dram => u.dram = s.dram
  | .scrubFrom => u.scrubFrom = s.scrubFrom
  | .lattice => u.lattice = s.lattice
  | .cxl => u.cxl = s.cxl
  | .access => u.access = s.access
  | .tim => u.tim = s.tim
  | .cams => u.cams = s.cams
  | .rc => u.rc = s.rc
  | .rg => u.rg = s.rg
  | .vd => u.vd = s.vd
  | .atl => u.atl = s.atl
  | .apipes => u.apipes = s.apipes
  | .sg => u.sg = s.sg
  | .ch => u.ch = s.ch
  | .lanes => u.lanes = s.lanes
  | .st => u.st = s.st
  | .judged => u.judged = s.judged
  | .bank => u.bank = s.bank
  | .lg => u.lg = s.lg
  | .vault => u.vault = s.vault
  | .cont => u.cont = s.cont
  | .place => u.place = s.place
  | .slots => u.slots = s.slots
  | .hist => u.hist = s.hist
  | .thumbs => u.thumbs = s.thumbs
  | .rt => u.rt = s.rt
  | .holdBy => u.holdBy = s.holdBy
  | .mer => u.mer = s.mer
  | .fw => u.fw = s.fw
  | .trans => u.trans = s.trans
  | .am => u.am = s.am
  | .cal => u.cal = s.cal
  | .power => u.power = s.power

/-- `u` holds what `s` holds in every part outside the list. -/
def SameBut (l : List Part) (s u : State) : Prop := ∀ f, l.contains f = false → State.agree s u f

/-- The device time a command carries: its first operand. -/
def commandTime : Instr → Nat
  | .objectWrite t _ _ _ => t
  | .wideReadLatch t _ _ => t
  | .counterClear t _ _ _ => t
  | .rweWrite t _ _ _ => t
  | .epochPendingWrite t _ _ _ => t
  | .timeUnlock t => t
  | .timeRelock t => t
  | .qeCount t _ _ _ => t.time
  | .qeStandstillTimeout t _ => t
  | .qeIndex t _ => t.time
  | .spWordStart t _ => t
  | .spWord t _ _ _ => t
  | .spTimeout t _ => t
  | .spEnableWrite t _ _ _ _ => t
  | .lineTrigger t _ => t
  | .triggerDeferredIssue t _ => t
  | .tgPeriodWrite t _ _ _ => t
  | .tgDividerWrite t _ _ _ => t
  | .camEnableWrite t _ _ _ => t
  | .camLanesWrite t _ _ _ => t
  | .camRateWrite t _ _ _ => t
  | .discoveryDone t _ _ => t
  | .discoveryRetry t _ => t
  | .linkRetry t _ => t
  | .camLinkReturn t _ => t
  | .camRegRead t _ _ => t
  | .camRegWrite t _ _ => t
  | .camRegAbort t _ _ => t
  | .camRegComplete t _ _ _ => t
  | .camRegTimeout t _ => t
  | .camAck t _ _ _ => t
  | .skewReadback t _ _ _ _ => t
  | .camEventPacket t _ _ _ => t
  | .camHeartbeat t _ => t
  | .camHbTimeout t _ => t
  | .laneLockLoss t _ _ => t
  | .streamPacket t _ _ => t
  | .lineDeadline t _ _ => t
  | .replayCommit t _ _ => t
  | .rcLine t _ => t.time
  | .defectMapWrite t _ _ _ => t
  | .plateRefWrite t _ _ _ => t
  | .rgLine t _ _ => t
  | .objectLeaveSeg t _ => t
  | .atlasScrubPass t _ _ => t
  | .atBlobWrite t _ _ _ => t
  | .atLoad t _ _ => t
  | .atLoadCancel t _ _ => t
  | .atLoadDone t _ => t
  | .atlasHoldEnd t _ => t
  | .atlasShadowReload t _ _ => t
  | .stMapWrite t _ _ _ => t
  | .stCalStart t _ => t
  | .stCalCancel t _ => t
  | .stCalDone t _ _ => t
  | .groupResolve t => t
  | .summary t _ _ => t
  | .watermark t _ _ => t
  | .watermarkSend t _ => t
  | .taken t _ _ _ _ => t
  | .takenAck t _ _ _ => t
  | .seamWaitTimeout t => t
  | .takenTimeout t => t
  | .loanStart t _ _ => t
  | .loanLine t _ _ => t
  | .loanSettings t _ _ => t
  | .objectAccept t => t
  | .vdProgramWrite t _ _ _ => t
  | .classTableWrite t _ _ _ _ => t
  | .programHoldEnd t _ => t
  | .frameFreeze t _ _ => t
  | .frameTransmit t _ => t
  | .surfaceWaitTimeout t => t
  | .prechargePeriodic t _ => t
  | .echo t _ _ _ _ _ => t
  | .echoTimeout t _ => t
  | .statusTimeout t _ => t
  | .valveStatus t _ _ _ _ => t
  | .ping t _ => t
  | .pingReturn t _ => t
  | .interlockOpen t _ => t
  | .interlockRelease t => t
  | .ejValveStateWrite t _ _ _ => t
  | .ejLinkLeadWrite t _ _ => t
  | .remoteOrder t _ _ => t
  | .subResult t _ _ => t
  | .remoteWaitTimeout t _ => t
  | .recordWrite t => t
  | .outcomeWrite t => t
  | .recAckSeqWrite t _ _ => t
  | .outAckOrderWrite t _ _ => t
  | .recAck t _ => t
  | .outAck t _ => t
  | .ringIrqTimeout t _ => t
  | .thumbWrite t => t
  | .czBlockDone t _ _ _ _ _ => t
  | .islandReset t _ _ => t
  | .islandResetEnter t _ _ => t
  | .islandReady t _ => t
  | .pipeHeartbeatTimeout t _ _ => t
  | .failover t _ _ => t
  | .spareCaughtUp t _ => t
  | .rotate t => t.time
  | .rotationCompareDone t _ => t
  | .rotateEpochWaitTimeout t => t
  | .pipeBistDone t _ _ => t
  | .ledgerCommit t => t
  | .ledgerCopyDone t => t
  | .reissue t => t
  | .lgDiscard t _ _ => t
  | .mirrorEntry t _ _ _ => t
  | .mirrorConfirm t _ _ => t
  | .mirrorConfirmTimeout t => t
  | .cxlLinkUp t _ _ _ => t
  | .cxlLinkDown t _ => t
  | .cxlPerst t _ => t
  | .ideCheckFail t => t
  | .functionLevelReset t => t
  | .causeClear t _ => t
  | .mbRead t _ _ _ _ => t
  | .mbWrite t _ _ _ _ _ => t
  | .mbAbort t _ _ => t
  | .mailboxComplete t => t
  | .segmentTimeout t => t
  | .windowWrite t _ _ => t
  | .windowRead t _ _ _ => t
  | .dmaCommit t _ _ => t
  | .dmaAbort t _ _ => t
  | .dmaListFetched t _ _ => t
  | .dmaMoverGrant t _ _ => t
  | .dmaHalf t _ _ => t
  | .dmaDestError t _ _ => t
  | .dmaJobDone t _ _ _ => t
  | .refreshDue t _ _ _ _ _ => t
  | .dramScrubPass t _ _ => t
  | .dramCalibrate t _ _ => t
  | .dramRequestTimeout t _ => t
  | .drChannelFault t _ => t
  | .dramRemapDone t => t
  | .merFrameForward t _ _ _ _ _ => t
  | .pass t _ => t
  | .fetch t _ => t
  | .store t _ => t
  | .trade t _ => t
  | .mark t _ _ _ => t
  | .spread t _ _ => t
  | .ask t _ => t
  | .collect t _ => t
  | .chainMbxComplete t => t
  | .merLinkLoss t _ => t
  | .merLinkUp t _ _ => t
  | .merTimeTimeout t => t
  | .merWatchdog t => t
  | .accessCodeWrite t _ _ => t
  | .accessUnlockWrite t _ _ => t
  | .accessLevelWrite t _ _ => t
  | .accessLevelTimeout t _ => t
  | .nonceRefresh t => t
  | .unlockLockoutEnd t _ => t
  | .reqInit t _ => t
  | .reqPreop t _ => t
  | .reqArmed t _ => t
  | .reqRun t _ => t
  | .reqHold t _ => t
  | .stateTransitionDone t => t
  | .faultEntry t => t
  | .deviceReset t _ _ => t
  | .nreset t => t
  | .fwImageWrite t _ _ => t
  | .fwImageHostWrite t _ _ => t
  | .fwFlashDone t _ => t
  | .fwActivate t _ _ => t
  | .fwConfirm t _ _ => t
  | .fwTrialTimeout t => t
  | .secKeyWrite t _ _ _ => t
  | .evChConfigWrite t _ _ _ => t
  | .dmaStart t _ => t
  | .hostIrq t _ => t
  | .evtOut t _ => t
  | .epochDeclare t _ => t
  | .tw0Start t => t
  | .stateHold t => t
  | .stateRun t => t
  | .timeCapture t _ => t
  | .wake t => t
  | .evtIn t _ _ _ => t
  | .evtPulseEnd t _ _ => t
  | .timer t _ => t
  | .twStretchTimeout t _ _ _ => t
  | .twBusError t _ => t
  | .twArbLost t _ _ => t
  | .twStopSeen t _ => t
  | .tw0Poll t => t
  | .tw0PollDone t _ _ => t
  | .tw0XferCmd t _ _ => t
  | .tw0XferDone t _ _ => t
  | .tw2Match t => t.time
  | .tw2Transfer t _ _ => t
  | .pmbusAlert t _ => t
  | .amOutputSample t _ _ => t
  | .amSettled t _ => t
  | .amOverload t _ _ => t
  | .amOverloadClear t _ => t
  | .amFreezeMax t _ => t
  | .amPeakClear t _ _ => t
  | .chTrainDone t _ _ _ _ => t
  | .tapRequest t _ _ _ => t
  | .hello t _ _ => t
  | .chPacket t _ _ _ _ _ _ => t
  | .chAck t _ _ => t
  | .chNak t _ _ => t
  | .chAckSend t _ => t
  | .l1Req t _ => t
  | .l1Ack t _ => t
  | .chL0sEntry t _ => t
  | .chWakeProbe t _ _ => t
  | .chLinkLoss t _ => t.time
  | .lnPatternWrite t _ _ _ => t
  | .lnEyeUpdate t _ _ _ _ _ _ => t
  | .plateRef t _ _ _ _ => t
  | .defectMerge t _ _ _ _ => t
  | .stitch t _ _ _ _ => t
  | .valveLatency t _ _ _ _ => t
  | .valveThreshold t _ _ _ _ => t
  | .pipeBist t _ _ _ _ => t
  | .vernier t _ _ _ _ => t
  | .vernierPeriodic t _ _ _ => t
  | .modulatorRotate t _ _ => t
  | .calDeadline t => t
  | .calResult t _ => t
  | .calStore t _ => t
  | .calStoreClear t _ => t
  | .almanacWrite t => t
  | .almanacSample t => t
  | .powerOn t => t
  | .railStepGood t => t
  | .pwPgTimeout t _ => t
  | .pwRetry t => t
  | .startupStepDone t _ => t
  | .pgFall t _ => t
  | .railPoll t _ _ => t
  | .tempSample t _ => t
  | .thermalRestart t => t
  | .pwWarmupTimeout t => t
  | .vinFall t _ => t
  | .vinRise t _ _ => t
  | .vinSag t _ => t
  | .saveWriteDone t _ => t
  | .saveResume t => t
  | .pwSleepCmd t _ _ => t
  | .ilkLoopClose t _ => t
  | .nresetRelease t => t
  | .standbyLoss t => t
  | .vinCollapse t => t
  | .camAckTimeout t _ _ _ => t
  | .lnLockGained t _ => t
  | .lnLockLost t _ => t
  | .msixUnmask t _ => t
  | .chL1Idle t _ => t
  | .calStatusRead t _ => t
  | .pwStatusRead t _ => t
  | .evTimerApply t _ => t
  | .cxlLinkRecovery t => t
  | .ideKeyProgram t _ _ _ => t

/-- The parts of the state a command may change. -/
def footprint : Instr → List Part
  | .objectWrite .. => [.now, .fresh, .dict, .blobs, .staged, .stagedBlobs, .epochs, .errName, .latches, .out, .draws,
    .dramBad, .lattice, .cxl, .access, .tim, .cams, .rc, .rg, .atl, .sg, .ch, .lanes, .st, .judged, .bank, .lg, .vault,
    .cont, .slots, .thumbs, .rt, .holdBy, .mer, .fw, .trans, .cal, .power]
  | .wideReadLatch .. => [.now, .fresh, .dict, .latches, .out, .access]
  | .counterClear .. => [.now, .fresh, .dict, .blobs, .staged, .stagedBlobs, .epochs, .out, .access, .cal]
  | .rweWrite .. => [.now, .fresh, .dict, .blobs, .staged, .stagedBlobs, .epochs, .errName, .latches, .out, .draws,
    .dramBad, .lattice, .cxl, .access, .tim, .cams, .rc, .rg, .atl, .sg, .ch, .lanes, .st, .judged, .bank, .lg, .vault,
    .cont, .slots, .thumbs, .rt, .holdBy, .mer, .fw, .trans, .cal, .power]
  | .epochPendingWrite .. => [.now, .fresh, .dict, .errName, .out, .lattice, .cxl, .access]
  | .timeUnlock .. => [.now, .fresh, .dict, .errName, .out, .draws, .lattice, .cxl, .tim, .holdBy]
  | .timeRelock .. => [.now, .fresh, .dict, .errName, .out, .draws, .lattice, .cxl, .tim, .mer]
  | .qeCount .. => [.now, .fresh, .dict, .blobs, .epochs, .errName, .out, .lattice, .cxl, .tim, .cams, .rc, .rg, .vd, .atl,
    .apipes, .st, .bank, .cont, .cal]
  | .qeStandstillTimeout .. => [.now, .fresh, .dict, .tim]
  | .qeIndex .. => [.now, .fresh, .dict, .errName, .out, .lattice, .cxl, .tim]
  | .spWordStart .. => [.now, .fresh, .out, .tim]
  | .spWord .. => [.now, .fresh, .dict, .errName, .out, .lattice, .cxl, .tim]
  | .spTimeout .. => [.now, .fresh, .dict, .errName, .out, .lattice, .cxl, .tim]
  | .spEnableWrite .. => [.now, .fresh, .dict, .blobs, .staged, .stagedBlobs, .epochs, .out, .access, .cal]
  | .lineTrigger .. => [.now, .fresh, .dict, .blobs, .epochs, .errName, .out, .lattice, .cxl, .tim, .cams, .rc, .rg, .vd,
    .atl, .apipes, .st, .cont, .cal]
  | .triggerDeferredIssue .. => [.now, .fresh, .dict, .blobs, .epochs, .errName, .out, .lattice, .cxl, .tim, .cams, .rc,
    .rg, .vd, .atl, .apipes, .st, .cont, .cal]
  | .tgPeriodWrite .. => [.now, .fresh, .dict, .blobs, .staged, .stagedBlobs, .epochs, .out, .access, .cal]
  | .tgDividerWrite .. => [.now, .fresh, .dict, .blobs, .staged, .stagedBlobs, .epochs, .out, .access, .cal]
  | .camEnableWrite .. => [.now, .fresh, .dict, .blobs, .staged, .stagedBlobs, .epochs, .errName, .out, .lattice, .cxl,
    .access, .cams, .rc, .rg, .cal]
  | .camLanesWrite .. => [.now, .fresh, .dict, .blobs, .staged, .stagedBlobs, .epochs, .errName, .out, .lattice, .cxl,
    .access, .cams, .rc, .rg, .cal]
  | .camRateWrite .. => [.now, .fresh, .dict, .blobs, .staged, .stagedBlobs, .epochs, .errName, .out, .lattice, .cxl,
    .access, .cams, .rc, .rg, .cal]
  | .discoveryDone .. => [.now, .fresh, .dict, .blobs, .errName, .out, .lattice, .cxl, .cams, .cont]
  | .discoveryRetry .. => [.now, .fresh, .dict, .out]
  | .linkRetry .. => [.now, .fresh, .dict, .out]
  | .camLinkReturn .. => [.now, .fresh, .dict, .errName, .out, .lattice, .cxl, .cams, .rc, .rg]
  | .camRegRead .. => [.now, .fresh, .dict, .out, .access, .cams]
  | .camRegWrite .. => [.now, .fresh, .dict, .out, .access, .cams]
  | .camRegAbort .. => [.now, .fresh, .dict, .out, .access, .cams]
  | .camRegComplete .. => [.now, .fresh, .dict, .blobs, .out, .cams]
  | .camRegTimeout .. => [.now, .fresh, .dict, .out, .cams]
  | .camAck .. => [.now, .fresh, .dict, .errName, .out, .lattice, .cxl, .cams, .rc, .rg]
  | .skewReadback .. => [.now, .fresh, .dict, .errName, .out, .lattice, .cxl, .cams, .rc, .rg]
  | .camEventPacket .. => [.now, .fresh, .dict, .blobs, .errName, .out, .lattice, .cxl, .cams, .rc, .rg]
  | .camHeartbeat .. => [.now, .fresh, .cams]
  | .camHbTimeout .. => [.now, .fresh, .dict, .errName, .out, .lattice, .cxl, .cams, .rc, .rg, .cont]
  | .laneLockLoss .. => [.now, .fresh, .dict, .errName, .out, .lattice, .cxl, .cams, .rc, .rg, .cont]
  | .streamPacket .. => [.now, .fresh, .dict, .errName, .out, .lattice, .cxl, .cams]
  | .lineDeadline .. => [.now, .fresh, .dict, .errName, .out, .lattice, .cxl, .cams]
  | .replayCommit .. => [.now, .fresh, .dict, .out, .dramBad, .cxl, .cams]
  | .rcLine .. => [.now, .fresh, .dict, .errName, .out, .draws, .dramBad, .lattice, .cxl, .cams, .rc, .rg, .sg, .ch, .st,
    .slots, .rt, .cal]
  | .defectMapWrite .. => [.now, .fresh, .dict, .epochs, .errName, .out, .lattice, .cxl, .access, .cal]
  | .plateRefWrite .. => [.now, .fresh, .dict, .epochs, .out, .access, .cal]
  | .rgLine .. => [.now, .fresh, .dict, .errName, .out, .draws, .dramBad, .lattice, .cxl, .rc, .rg, .apipes, .sg, .st,
    .cont, .slots, .hist, .rt, .cal]
  | .objectLeaveSeg .. => [.now, .fresh, .dict, .out, .draws, .sg, .ch, .st, .judged]
  | .atlasScrubPass .. => [.now, .fresh, .dict, .errName, .out, .draws, .lattice, .cxl, .rc, .rg, .apipes, .sg, .cont]
  | .atBlobWrite .. => [.now, .fresh, .dict, .blobs, .errName, .out, .lattice, .cxl, .access, .atl]
  | .atLoad .. => [.now, .fresh, .dict, .blobs, .errName, .out, .lattice, .cxl, .access, .atl]
  | .atLoadCancel .. => [.now, .fresh, .dict, .blobs, .errName, .out, .lattice, .cxl, .access, .atl]
  | .atLoadDone .. => [.now, .fresh, .dict, .blobs, .epochs, .errName, .out, .lattice, .cxl, .atl, .apipes, .cal]
  | .atlasHoldEnd .. => [.now, .fresh, .dict, .blobs, .atl]
  | .atlasShadowReload .. => [.now, .fresh, .apipes]
  | .stMapWrite .. => [.now, .fresh, .dict, .stagedBlobs, .errName, .out, .lattice, .cxl, .access, .cal]
  | .stCalStart .. => [.now, .fresh, .dict, .out, .access, .st, .cal]
  | .stCalCancel .. => [.now, .fresh, .dict, .out, .access, .cal]
  | .stCalDone .. => [.now, .fresh, .dict, .stagedBlobs, .errName, .out, .lattice, .cxl, .st, .cal]
  | .groupResolve .. => [.now, .fresh, .dict, .errName, .out, .draws, .lattice, .cxl, .st, .judged]
  | .summary .. => [.now, .fresh, .dict, .draws, .st, .judged]
  | .watermark .. => [.now, .fresh, .st]
  | .watermarkSend .. => [.now, .fresh, .dict, .out, .ch, .st]
  | .taken .. => [.now, .fresh, .dict, .errName, .out, .lattice, .cxl, .ch, .st, .bank, .lg, .cont]
  | .takenAck .. => [.now, .fresh, .dict, .out, .ch, .bank, .lg]
  | .seamWaitTimeout .. => [.now, .fresh, .dict, .errName, .out, .draws, .lattice, .cxl, .st, .judged]
  | .takenTimeout .. => [.now, .fresh, .dict, .draws, .st, .judged]
  | .loanStart .. => [.now, .fresh, .dict, .blobs, .errName, .out, .mem, .lost, .dramBad, .dram, .lattice, .cxl, .cams, .rc,
    .atl, .ch, .st, .bank, .lg, .cont, .slots, .hist, .rt]
  | .loanLine .. => [.now, .fresh, .dict, .tim, .cams]
  | .loanSettings .. => [.now, .fresh, .dict, .blobs, .tim, .cams, .rc, .rg, .atl, .apipes, .sg, .st, .cont, .hist]
  | .objectAccept .. => [.now, .fresh, .dict, .errName, .out, .draws, .lattice, .cxl, .ch, .judged, .bank, .lg, .cont,
    .thumbs, .cal]
  | .vdProgramWrite .. => [.now, .fresh, .dict, .epochs, .errName, .out, .lattice, .cxl, .access, .cal]
  | .classTableWrite .. => [.now, .fresh, .dict, .epochs, .errName, .out, .lattice, .cxl, .access]
  | .programHoldEnd .. => [.now, .fresh, .dict, .vd]
  | .frameFreeze .. => [.now, .fresh, .dict, .out, .ch, .bank, .lg, .cont, .cal]
  | .frameTransmit .. => [.now, .fresh, .out, .bank]
  | .surfaceWaitTimeout .. => [.now, .fresh, .dict, .out, .ch, .bank, .lg]
  | .prechargePeriodic .. => [.now, .fresh, .dict, .bank]
  | .echo .. => [.now, .fresh, .dict, .errName, .out, .lattice, .cxl, .ch, .bank, .lg, .cont]
  | .echoTimeout .. => [.now, .fresh, .dict, .errName, .out, .lattice, .cxl, .ch, .bank, .lg, .cont]
  | .statusTimeout .. => [.now, .fresh, .dict, .errName, .out, .lattice, .cxl, .ch, .bank, .lg, .cont]
  | .valveStatus .. => [.now, .fresh, .dict, .errName, .out, .lattice, .cxl, .ch, .bank, .lg, .cont, .cal]
  | .ping .. => [.now, .fresh, .out, .bank]
  | .pingReturn .. => [.now, .fresh, .dict, .bank]
  | .interlockOpen .. => [.now, .fresh, .dict, .errName, .out, .draws, .lattice, .cxl, .tim, .ch, .bank, .lg, .holdBy]
  | .interlockRelease .. => [.now, .fresh, .dict, .errName, .out, .draws, .lattice, .cxl, .tim, .mer]
  | .ejValveStateWrite .. => [.now, .fresh, .dict, .blobs, .staged, .stagedBlobs, .epochs, .out, .access, .ch, .bank, .lg,
    .cal]
  | .ejLinkLeadWrite .. => [.now, .fresh, .dict, .blobs, .staged, .stagedBlobs, .epochs, .out, .access, .cal]
  | .remoteOrder .. => [.now, .fresh, .dict, .out, .ch, .bank, .lg]
  | .subResult .. => [.now, .fresh, .dict, .out, .ch, .bank, .lg]
  | .remoteWaitTimeout .. => [.now, .fresh, .dict, .out, .ch, .bank, .lg]
  | .recordWrite .. => [.now, .fresh, .dict, .errName, .out, .lattice, .cxl, .lg]
  | .outcomeWrite .. => [.now, .fresh, .dict, .errName, .out, .lattice, .cxl, .lg]
  | .recAckSeqWrite .. => [.now, .fresh, .dict, .errName, .out, .lattice, .cxl, .access, .ch, .lg]
  | .outAckOrderWrite .. => [.now, .fresh, .dict, .errName, .out, .lattice, .cxl, .access, .ch, .lg]
  | .recAck .. => [.now, .fresh, .dict, .errName, .out, .lattice, .cxl, .ch, .lg]
  | .outAck .. => [.now, .fresh, .dict, .errName, .out, .lattice, .cxl, .ch, .lg]
  | .ringIrqTimeout .. => [.now, .fresh, .out, .cxl, .lg]
  | .thumbWrite .. => [.now, .fresh, .dict, .out, .dramBad, .cxl, .slots, .thumbs]
  | .czBlockDone .. => [.now, .fresh, .dict, .blobs, .errName, .out, .mem, .lost, .dramBad, .dram, .lattice, .cxl, .cams,
    .rc, .atl, .cont, .slots, .hist, .rt]
  | .islandReset .. => [.now, .fresh, .dict, .blobs, .errName, .out, .lattice, .cxl, .access, .tim, .cams, .rc, .rg, .sg,
    .ch, .st, .judged, .lg, .cont, .mer]
  | .islandResetEnter .. => [.now, .fresh, .dict]
  | .islandReady .. => [.now, .fresh, .dict, .blobs, .errName, .out, .draws, .mem, .lost, .dramBad, .dram, .lattice, .cxl,
    .tim, .cams, .rc, .rg, .atl, .apipes, .sg, .ch, .st, .judged, .bank, .lg, .cont, .slots, .hist, .rt]
  | .pipeHeartbeatTimeout .. => [.now, .fresh, .dict, .errName, .out, .draws, .lattice, .cxl, .rc, .rg, .sg, .cont]
  | .failover .. => [.now, .fresh, .dict, .blobs, .errName, .out, .draws, .mem, .lost, .dramBad, .dram, .lattice, .cxl,
    .cams, .rc, .rg, .atl, .apipes, .sg, .ch, .st, .judged, .bank, .lg, .cont, .slots, .hist, .rt]
  | .spareCaughtUp .. => [.now, .fresh, .dict, .out, .ch, .bank, .lg, .cont]
  | .rotate .. => [.now, .fresh, .dict, .blobs, .errName, .out, .draws, .mem, .lost, .dramBad, .dram, .lattice, .cxl, .cams,
    .rc, .rg, .atl, .apipes, .sg, .cont, .slots, .hist, .rt]
  | .rotationCompareDone .. => [.now, .fresh, .dict, .cont]
  | .rotateEpochWaitTimeout .. => [.now, .fresh, .dict]
  | .pipeBistDone .. => [.now, .fresh, .dict, .errName, .out, .draws, .lattice, .cxl, .rc, .rg, .apipes, .sg, .cont, .cal]
  | .ledgerCommit .. => [.now, .fresh, .dict, .errName, .out, .lattice, .cxl, .ch, .lg]
  | .ledgerCopyDone .. => [.now, .fresh, .dict, .errName, .out, .lattice, .cxl, .cont]
  | .reissue .. => [.now, .fresh, .dict, .errName, .out, .lattice, .cxl, .ch, .bank, .lg]
  | .lgDiscard .. => [.now, .fresh, .dict, .out, .access, .lg]
  | .mirrorEntry .. => [.now, .fresh, .dict, .out, .ch, .lg]
  | .mirrorConfirm .. => [.now, .fresh, .dict, .lg]
  | .mirrorConfirmTimeout .. => [.now, .fresh, .dict]
  | .cxlLinkUp .. => [.now, .fresh, .dict, .errName, .out, .lattice, .cxl, .cont]
  | .cxlLinkDown .. => [.now, .fresh, .dict, .errName, .out, .mem, .dramBad, .lattice, .cxl, .cont]
  | .cxlPerst .. => [.now, .fresh, .dict, .errName, .out, .lattice, .cxl, .lg, .cont]
  | .ideCheckFail .. => [.now, .fresh, .dict, .errName, .out, .lattice, .cxl, .cont]
  | .functionLevelReset .. => [.now, .fresh, .dict, .cxl]
  | .causeClear .. => [.now, .fresh, .cxl]
  | .mbRead .. => [.now, .fresh, .dict, .blobs, .staged, .stagedBlobs, .epochs, .errName, .latches, .out, .draws, .dramBad,
    .lattice, .cxl, .access, .tim, .cams, .rc, .rg, .atl, .sg, .ch, .lanes, .st, .judged, .bank, .lg, .vault, .cont, .slots,
    .thumbs, .rt, .holdBy, .mer, .fw, .trans, .cal, .power]
  | .mbWrite .. => [.now, .fresh, .dict, .blobs, .staged, .stagedBlobs, .epochs, .errName, .latches, .out, .draws, .dramBad,
    .lattice, .cxl, .access, .tim, .cams, .rc, .rg, .atl, .sg, .ch, .lanes, .st, .judged, .bank, .lg, .vault, .cont, .slots,
    .thumbs, .rt, .holdBy, .mer, .fw, .trans, .cal, .power]
  | .mbAbort .. => [.now, .fresh, .dict, .blobs, .staged, .stagedBlobs, .epochs, .errName, .latches, .out, .draws, .dramBad,
    .lattice, .cxl, .access, .tim, .cams, .rc, .rg, .atl, .sg, .ch, .lanes, .st, .judged, .bank, .lg, .vault, .cont, .slots,
    .thumbs, .rt, .holdBy, .mer, .fw, .trans, .cal, .power]
  | .mailboxComplete .. => [.now, .fresh, .dict, .blobs, .staged, .stagedBlobs, .epochs, .errName, .latches, .out, .draws,
    .dramBad, .lattice, .cxl, .access, .tim, .cams, .rc, .rg, .atl, .sg, .ch, .lanes, .st, .judged, .bank, .lg, .vault,
    .cont, .slots, .thumbs, .rt, .holdBy, .mer, .fw, .trans, .cal, .power]
  | .segmentTimeout .. => [.now, .fresh, .dict, .cxl, .mer, .fw]
  | .windowWrite .. => [.now, .fresh, .dict, .mem, .dramBad]
  | .windowRead .. => [.now, .fresh, .dict, .blobs, .errName, .out, .mem, .lost, .dramBad, .dram, .lattice, .cxl, .cams,
    .rc, .atl, .cont, .slots, .hist, .rt]
  | .dmaCommit .. => [.now, .fresh, .dict, .errName, .out, .lattice, .cxl]
  | .dmaAbort .. => [.now, .fresh, .dict, .errName, .out, .mem, .dramBad, .lattice, .cxl]
  | .dmaListFetched .. => [.now, .fresh, .dict, .errName, .out, .lattice, .cxl]
  | .dmaMoverGrant .. => [.now, .fresh, .dict, .errName, .out, .mem, .dramBad, .lattice, .cxl]
  | .dmaHalf .. => [.now, .fresh, .out, .mem, .dramBad, .cxl]
  | .dmaDestError .. => [.now, .fresh, .dict, .errName, .out, .mem, .dramBad, .lattice, .cxl]
  | .dmaJobDone .. => [.now, .fresh, .dict, .blobs, .errName, .out, .mem, .lost, .dramBad, .dram, .lattice, .cxl, .cams,
    .rc, .atl, .cont, .slots, .hist, .rt]
  | .refreshDue .. => [.now, .fresh, .dict, .dram]
  | .dramScrubPass .. => [.now, .fresh, .dict, .blobs, .errName, .out, .mem, .lost, .dramBad, .dram, .scrubFrom, .lattice,
    .cxl, .cams, .rc, .atl, .cont, .slots, .hist, .rt]
  | .dramCalibrate .. => [.now, .fresh, .dict, .blobs, .errName, .out, .mem, .lost, .dramBad, .dram, .lattice, .cxl, .cams,
    .rc, .atl, .cont, .slots, .hist, .rt]
  | .dramRequestTimeout .. => [.now, .fresh, .dict, .blobs, .errName, .out, .mem, .lost, .dramBad, .dram, .lattice, .cxl,
    .cams, .rc, .atl, .cont, .slots, .hist, .rt]
  | .drChannelFault .. => [.now, .fresh, .dict, .blobs, .errName, .out, .mem, .lost, .dramBad, .dram, .lattice, .cxl, .cams,
    .rc, .atl, .cont, .slots, .hist, .rt]
  | .dramRemapDone .. => [.now, .fresh, .dict, .atl]
  | .merFrameForward .. => [.now, .fresh, .dict, .out]
  | .pass .. => [.now, .fresh, .dict, .blobs, .staged, .stagedBlobs, .epochs, .errName, .latches, .out, .draws, .dramBad,
    .lattice, .cxl, .access, .tim, .cams, .rc, .rg, .atl, .sg, .ch, .lanes, .st, .judged, .bank, .lg, .vault, .cont, .slots,
    .thumbs, .rt, .holdBy, .mer, .fw, .trans, .cal, .power]
  | .fetch .. => [.now, .fresh, .dict, .blobs, .staged, .stagedBlobs, .epochs, .errName, .latches, .out, .draws, .dramBad,
    .lattice, .cxl, .access, .tim, .cams, .rc, .rg, .atl, .sg, .ch, .lanes, .st, .judged, .bank, .lg, .vault, .cont, .slots,
    .thumbs, .rt, .holdBy, .mer, .fw, .trans, .cal, .power]
  | .store .. => [.now, .fresh, .dict, .blobs, .staged, .stagedBlobs, .epochs, .errName, .latches, .out, .draws, .dramBad,
    .lattice, .cxl, .access, .tim, .cams, .rc, .rg, .atl, .sg, .ch, .lanes, .st, .judged, .bank, .lg, .vault, .cont, .slots,
    .thumbs, .rt, .holdBy, .mer, .fw, .trans, .cal, .power]
  | .trade .. => [.now, .fresh, .dict, .blobs, .staged, .stagedBlobs, .epochs, .errName, .latches, .out, .draws, .dramBad,
    .lattice, .cxl, .access, .tim, .cams, .rc, .rg, .atl, .sg, .ch, .lanes, .st, .judged, .bank, .lg, .vault, .cont, .slots,
    .thumbs, .rt, .holdBy, .mer, .fw, .trans, .cal, .power]
  | .mark .. => [.now, .fresh, .dict, .blobs, .staged, .stagedBlobs, .epochs, .errName, .latches, .out, .draws, .dramBad,
    .lattice, .cxl, .access, .tim, .cams, .rc, .rg, .atl, .sg, .ch, .lanes, .st, .judged, .bank, .lg, .vault, .cont, .slots,
    .thumbs, .rt, .holdBy, .mer, .fw, .trans, .cal, .power]
  | .spread .. => [.now, .fresh, .dict, .blobs, .staged, .stagedBlobs, .epochs, .errName, .latches, .out, .draws, .dramBad,
    .lattice, .cxl, .access, .tim, .cams, .rc, .rg, .atl, .sg, .ch, .lanes, .st, .judged, .bank, .lg, .vault, .cont, .slots,
    .thumbs, .rt, .holdBy, .mer, .fw, .trans, .cal, .power]
  | .ask .. => [.now, .fresh, .dict, .blobs, .staged, .stagedBlobs, .epochs, .errName, .latches, .out, .draws, .dramBad,
    .lattice, .cxl, .access, .tim, .cams, .rc, .rg, .atl, .sg, .ch, .lanes, .st, .judged, .bank, .lg, .vault, .cont, .slots,
    .thumbs, .rt, .holdBy, .mer, .fw, .trans, .cal, .power]
  | .collect .. => [.now, .fresh, .dict, .blobs, .staged, .stagedBlobs, .epochs, .errName, .latches, .out, .draws, .dramBad,
    .lattice, .cxl, .access, .tim, .cams, .rc, .rg, .atl, .sg, .ch, .lanes, .st, .judged, .bank, .lg, .vault, .cont, .slots,
    .thumbs, .rt, .holdBy, .mer, .fw, .trans, .cal, .power]
  | .chainMbxComplete .. => [.now, .fresh, .dict, .blobs, .staged, .stagedBlobs, .epochs, .errName, .latches, .out, .draws,
    .dramBad, .lattice, .cxl, .access, .tim, .cams, .rc, .rg, .atl, .sg, .ch, .lanes, .st, .judged, .bank, .lg, .vault,
    .cont, .slots, .thumbs, .rt, .holdBy, .mer, .fw, .trans, .cal, .power]
  | .merLinkLoss .. => [.now, .fresh, .dict, .errName, .out, .lattice, .cxl, .cont]
  | .merLinkUp .. => [.now, .fresh, .dict, .errName, .out, .lattice, .cxl, .cont, .mer]
  | .merTimeTimeout .. => [.now, .fresh, .dict, .errName, .out, .draws, .lattice, .cxl, .tim, .mer]
  | .merWatchdog .. => [.now, .fresh, .dict, .errName, .out, .draws, .lattice, .cxl, .tim, .holdBy]
  | .accessCodeWrite .. => [.now, .fresh, .dict, .blobs, .out, .draws, .access]
  | .accessUnlockWrite .. => [.now, .fresh, .dict, .blobs, .out, .draws, .access]
  | .accessLevelWrite .. => [.now, .fresh, .dict, .out, .access]
  | .accessLevelTimeout .. => [.now, .fresh, .dict]
  | .nonceRefresh .. => [.now, .fresh, .blobs, .draws, .access]
  | .unlockLockoutEnd .. => [.now, .fresh, .access]
  | .reqInit .. => [.now, .fresh, .dict, .out, .access, .trans]
  | .reqPreop .. => [.now, .fresh, .dict, .blobs, .errName, .out, .draws, .dramBad, .lattice, .cxl, .access, .tim, .rc, .rg,
    .sg, .st, .slots, .rt, .trans, .cal]
  | .reqArmed .. => [.now, .fresh, .dict, .blobs, .staged, .stagedBlobs, .errName, .out, .draws, .lattice, .cxl, .access,
    .tim, .cams, .rc, .rg, .mer, .trans]
  | .reqRun .. => [.now, .fresh, .dict, .blobs, .errName, .out, .lattice, .cxl, .access, .trans]
  | .reqHold .. => [.now, .fresh, .dict, .out, .access, .trans]
  | .stateTransitionDone .. => [.now, .fresh, .dict, .blobs, .staged, .stagedBlobs, .epochs, .errName, .out, .draws, .mem,
    .lost, .dramBad, .dram, .lattice, .cxl, .tim, .cams, .rc, .rg, .vd, .atl, .apipes, .sg, .ch, .st, .judged, .bank, .lg,
    .cont, .place, .slots, .hist, .thumbs, .rt, .holdBy, .mer, .trans, .am, .cal, .power]
  | .faultEntry .. => [.now, .fresh, .dict, .errName, .out, .draws, .dramBad, .lattice, .cxl, .tim, .rc, .rg, .sg, .ch, .st,
    .bank, .lg, .slots, .rt, .trans, .cal]
  | .deviceReset .. => [.now, .fresh, .dict, .blobs, .errName, .latches, .out, .draws, .lattice, .cxl, .access, .tim, .cams,
    .rc, .rg, .atl, .sg, .ch, .lanes, .st, .judged, .bank, .lg, .vault, .cont, .thumbs, .rt, .holdBy, .mer, .fw, .trans,
    .cal, .power]
  | .nreset .. => [.now, .fresh, .dict, .blobs, .errName, .latches, .out, .draws, .lattice, .cxl, .access, .tim, .cams, .rc,
    .rg, .atl, .sg, .ch, .lanes, .st, .judged, .bank, .lg, .vault, .cont, .thumbs, .rt, .holdBy, .mer, .fw, .trans, .cal,
    .power]
  | .fwImageWrite .. => [.now, .fresh, .dict, .out, .access, .fw]
  | .fwImageHostWrite .. => [.now, .fresh, .dict, .out, .access, .fw]
  | .fwFlashDone .. => [.now, .fresh, .dict, .fw]
  | .fwActivate .. => [.now, .fresh, .dict, .blobs, .errName, .latches, .out, .draws, .lattice, .cxl, .access, .tim, .cams,
    .rc, .rg, .atl, .sg, .ch, .lanes, .st, .judged, .bank, .lg, .vault, .cont, .thumbs, .rt, .holdBy, .mer, .fw, .trans,
    .cal, .power]
  | .fwConfirm .. => [.now, .fresh, .dict, .out, .access, .fw]
  | .fwTrialTimeout .. => [.now, .fresh, .dict, .fw]
  | .secKeyWrite .. => [.now, .fresh, .blobs, .out, .access]
  | .evChConfigWrite .. => [.now, .fresh, .dict, .out, .lattice, .access]
  | .dmaStart .. => [.now, .fresh, .dict, .errName, .out, .lattice, .cxl]
  | .hostIrq .. => [.now, .fresh, .dict, .out, .lattice, .cxl]
  | .evtOut .. => [.now, .fresh, .dict, .lattice]
  | .epochDeclare .. => [.now, .fresh, .dict, .lattice]
  | .tw0Start .. => [.now, .fresh, .dict, .blobs, .errName, .out, .lattice, .cxl, .cams, .rc, .rg, .cont]
  | .stateHold .. => [.now, .fresh, .dict, .lattice, .trans]
  | .stateRun .. => [.now, .fresh, .dict, .lattice, .trans]
  | .timeCapture .. => [.now, .fresh, .dict, .lattice]
  | .wake .. => [.now, .fresh, .dict, .blobs, .out, .draws, .lattice, .access, .power]
  | .evtIn .. => [.now, .fresh, .dict, .blobs, .errName, .out, .draws, .lattice, .cxl, .access, .power]
  | .evtPulseEnd .. => [.now, .fresh, .lattice]
  | .timer .. => [.now, .fresh, .dict, .errName, .out, .lattice, .cxl]
  | .twStretchTimeout .. => [.now, .fresh, .dict, .blobs, .errName, .out, .lattice, .cxl, .cams, .rc, .rg, .cont]
  | .twBusError .. => [.now, .fresh, .dict, .blobs, .errName, .out, .lattice, .cxl, .cams, .rc, .rg, .cont]
  | .twArbLost .. => [.now, .fresh, .dict, .blobs, .errName, .out, .lattice, .cxl, .cams, .rc, .rg, .cont]
  | .twStopSeen .. => [.now, .fresh, .dict, .blobs, .errName, .out, .lattice, .cxl, .cams, .rc, .rg, .cont]
  | .tw0Poll .. => [.now, .fresh, .dict, .blobs, .errName, .out, .lattice, .cxl, .cams, .rc, .rg, .cont]
  | .tw0PollDone .. => [.now, .fresh, .dict, .blobs, .errName, .out, .lattice, .cxl, .cams, .rc, .rg, .cont]
  | .tw0XferCmd .. => [.now, .fresh, .dict, .blobs, .errName, .out, .lattice, .cxl, .access, .cams, .rc, .rg, .cont]
  | .tw0XferDone .. => [.now, .fresh, .dict, .blobs, .errName, .out, .lattice, .cxl, .cams, .rc, .rg, .cont]
  | .tw2Match .. => [.now, .fresh, .dict, .blobs, .errName, .out, .draws, .lattice, .cxl, .access, .power]
  | .tw2Transfer .. => [.now, .fresh, .dict, .out, .lattice]
  | .pmbusAlert .. => [.now, .fresh, .dict, .blobs, .staged, .stagedBlobs, .epochs, .errName, .latches, .out, .draws, .mem,
    .lost, .dramBad, .dram, .scrubFrom, .lattice, .cxl, .access, .tim, .cams, .rc, .rg, .vd, .atl, .apipes, .sg, .ch,
    .lanes, .st, .judged, .bank, .lg, .vault, .cont, .place, .slots, .hist, .thumbs, .rt, .holdBy, .mer, .fw, .trans, .am,
    .cal, .power]
  | .amOutputSample .. => [.now, .fresh, .dict, .errName, .out, .draws, .lattice, .cxl, .tim, .ch, .bank, .lg, .holdBy, .am]
  | .amSettled .. => [.now, .fresh, .dict, .errName, .out, .draws, .lattice, .cxl, .tim, .ch, .bank, .lg, .holdBy]
  | .amOverload .. => [.now, .fresh, .dict, .errName, .out, .draws, .lattice, .cxl, .tim, .ch, .bank, .lg, .holdBy, .am]
  | .amOverloadClear .. => [.now, .fresh, .dict, .errName, .out, .draws, .lattice, .cxl, .tim, .ch, .bank, .lg, .holdBy]
  | .amFreezeMax .. => [.now, .fresh, .dict]
  | .amPeakClear .. => [.now, .fresh, .dict, .out, .access]
  | .chTrainDone .. => [.now, .fresh, .dict, .out, .ch]
  | .tapRequest .. => [.now, .fresh, .dict, .out]
  | .hello .. => [.now, .fresh, .dict, .errName, .out, .lattice, .cxl, .ch, .lg, .cont]
  | .chPacket .. => [.now, .fresh, .dict, .errName, .out, .lattice, .cxl, .tim, .cams, .rc, .rg, .sg, .ch, .st, .judged,
    .cont]
  | .chAck .. => [.now, .fresh, .dict, .out, .ch]
  | .chNak .. => [.now, .fresh, .dict, .errName, .out, .lattice, .cxl, .tim, .cams, .rc, .rg, .sg, .ch, .st, .judged, .cont]
  | .chAckSend .. => [.now, .fresh, .dict, .out, .ch]
  | .l1Req .. => [.now, .fresh, .dict, .out, .ch]
  | .l1Ack .. => [.now, .fresh, .dict, .ch]
  | .chL0sEntry .. => [.now, .fresh, .dict]
  | .chWakeProbe .. => [.now, .fresh, .dict, .errName, .out, .lattice, .cxl, .tim, .cams, .rc, .rg, .sg, .ch, .st, .judged,
    .cont]
  | .chLinkLoss .. => [.now, .fresh, .dict, .errName, .out, .lattice, .cxl, .tim, .cams, .rc, .rg, .sg, .ch, .st, .judged,
    .cont]
  | .lnPatternWrite .. => [.now, .fresh, .dict, .errName, .out, .lattice, .cxl, .access, .tim, .cams, .rc, .rg, .sg, .ch,
    .lanes, .st, .judged, .cont]
  | .lnEyeUpdate .. => [.now, .fresh, .dict, .lanes]
  | .plateRef .. => [.now, .fresh, .dict, .out, .access, .st, .cont, .cal]
  | .defectMerge .. => [.now, .fresh, .dict, .out, .access, .st, .cont, .cal]
  | .stitch .. => [.now, .fresh, .dict, .out, .access, .st, .cont, .cal]
  | .valveLatency .. => [.now, .fresh, .dict, .out, .access, .st, .cont, .cal]
  | .valveThreshold .. => [.now, .fresh, .dict, .out, .access, .st, .cont, .cal]
  | .pipeBist .. => [.now, .fresh, .dict, .out, .access, .st, .cont, .cal]
  | .vernier .. => [.now, .fresh, .dict, .out, .access, .st, .cont, .cal]
  | .vernierPeriodic .. => [.now, .fresh, .dict, .errName, .out, .lattice, .cxl, .cal]
  | .modulatorRotate .. => [.now, .fresh, .dict, .errName, .out, .lattice, .cxl, .cal]
  | .calDeadline .. => [.now, .fresh, .dict, .blobs, .errName, .out, .mem, .lost, .dramBad, .dram, .lattice, .cxl, .cams,
    .rc, .atl, .apipes, .st, .cont, .slots, .hist, .rt, .cal]
  | .calResult .. => [.now, .fresh, .dict, .epochs, .errName, .out, .lattice, .cxl, .st, .cont, .cal]
  | .calStore .. => [.now, .fresh, .out, .access, .vault, .cal]
  | .calStoreClear .. => [.now, .fresh, .out, .access, .vault, .cal]
  | .almanacWrite .. => [.now, .fresh, .dict, .vault, .cal]
  | .almanacSample .. => [.now, .fresh, .dict, .cams, .cal]
  | .powerOn .. => [.now, .fresh, .dict, .blobs, .out, .draws, .lattice, .access, .power]
  | .railStepGood .. => [.now, .fresh, .dict, .out, .power]
  | .pwPgTimeout .. => [.now, .fresh, .dict, .errName, .out, .lattice, .cxl, .power]
  | .pwRetry .. => [.now, .fresh, .out, .power]
  | .startupStepDone .. => [.now, .fresh, .dict, .blobs, .staged, .stagedBlobs, .epochs, .errName, .out, .draws, .mem,
    .lost, .dramBad, .dram, .lattice, .cxl, .tim, .cams, .rc, .rg, .atl, .apipes, .sg, .ch, .st, .judged, .lg, .vault,
    .cont, .slots, .hist, .rt, .mer, .fw, .cal, .power]
  | .pgFall .. => [.now, .fresh, .dict, .blobs, .staged, .stagedBlobs, .epochs, .errName, .latches, .out, .draws, .mem,
    .lost, .dramBad, .dram, .scrubFrom, .lattice, .cxl, .access, .tim, .cams, .rc, .rg, .vd, .atl, .apipes, .sg, .ch,
    .lanes, .st, .judged, .bank, .lg, .vault, .cont, .place, .slots, .hist, .thumbs, .rt, .holdBy, .mer, .fw, .trans, .am,
    .cal, .power]
  | .railPoll .. => [.now, .fresh, .dict, .errName, .out, .lattice, .cxl]
  | .tempSample .. => [.now, .fresh, .dict, .blobs, .staged, .stagedBlobs, .epochs, .errName, .latches, .out, .draws, .mem,
    .lost, .dramBad, .dram, .scrubFrom, .lattice, .cxl, .access, .tim, .cams, .rc, .rg, .vd, .atl, .apipes, .sg, .ch,
    .lanes, .st, .judged, .bank, .lg, .vault, .cont, .place, .slots, .hist, .thumbs, .rt, .holdBy, .mer, .fw, .trans, .am,
    .cal, .power]
  | .thermalRestart .. => [.now, .fresh, .dict, .blobs, .out, .draws, .lattice, .access, .power]
  | .pwWarmupTimeout .. => [.now, .fresh, .dict, .blobs, .errName, .out, .lattice, .cxl, .power]
  | .vinFall .. => [.now, .fresh, .dict, .power]
  | .vinRise .. => [.now, .fresh, .dict, .errName, .out, .lattice, .cxl, .power]
  | .vinSag .. => [.now, .fresh, .dict, .errName, .out, .draws, .lattice, .cxl, .tim, .cams, .rc, .rg, .ch, .st, .judged,
    .bank, .lg, .vault, .holdBy, .trans, .cal, .power]
  | .saveWriteDone .. => [.now, .fresh, .dict, .blobs, .staged, .stagedBlobs, .epochs, .errName, .latches, .out, .mem,
    .lost, .dramBad, .dram, .scrubFrom, .lattice, .cxl, .access, .tim, .cams, .rc, .rg, .vd, .atl, .apipes, .sg, .ch,
    .lanes, .st, .judged, .bank, .lg, .vault, .cont, .place, .slots, .hist, .thumbs, .rt, .holdBy, .mer, .fw, .trans, .am,
    .cal, .power]
  | .saveResume .. => [.now, .fresh, .dict, .blobs, .staged, .stagedBlobs, .epochs, .errName, .latches, .out, .draws, .mem,
    .lost, .dramBad, .dram, .scrubFrom, .lattice, .cxl, .access, .tim, .cams, .rc, .rg, .vd, .atl, .apipes, .sg, .ch,
    .lanes, .st, .judged, .bank, .lg, .vault, .cont, .place, .slots, .hist, .thumbs, .rt, .holdBy, .mer, .fw, .trans, .am,
    .cal, .power]
  | .pwSleepCmd .. => [.now, .fresh, .dict, .errName, .out, .draws, .lattice, .cxl, .access, .tim, .cams, .rc, .rg, .ch,
    .st, .judged, .bank, .lg, .vault, .holdBy, .trans, .cal, .power]
  | .ilkLoopClose .. => [.now, .fresh, .dict, .errName, .out, .lattice, .cxl, .bank]
  | .nresetRelease .. => [.now, .fresh, .power]
  | .standbyLoss .. => [.now, .fresh, .dict, .blobs, .staged, .stagedBlobs, .epochs, .errName, .latches, .mem, .lost,
    .dramBad, .dram, .scrubFrom, .lattice, .cxl, .access, .tim, .cams, .rc, .rg, .vd, .atl, .apipes, .sg, .ch, .lanes, .st,
    .judged, .bank, .lg, .vault, .cont, .place, .slots, .hist, .thumbs, .rt, .holdBy, .mer, .fw, .trans, .am, .cal, .power]
  | .vinCollapse .. => [.now, .fresh, .dict, .blobs, .staged, .stagedBlobs, .epochs, .errName, .latches, .mem, .lost,
    .dramBad, .dram, .scrubFrom, .lattice, .cxl, .access, .tim, .cams, .rc, .rg, .vd, .atl, .apipes, .sg, .ch, .lanes, .st,
    .judged, .bank, .lg, .vault, .cont, .place, .slots, .hist, .thumbs, .rt, .holdBy, .mer, .fw, .trans, .am, .cal, .power]
  | .camAckTimeout .. => [.now, .fresh, .dict, .errName, .out, .lattice, .cxl, .cams, .rc, .rg]
  | .lnLockGained .. => [.now, .fresh, .dict]
  | .lnLockLost .. => [.now, .fresh, .dict]
  | .msixUnmask .. => [.now, .fresh, .out, .cxl]
  | .chL1Idle .. => [.now, .fresh, .dict, .out, .ch]
  | .calStatusRead .. => [.now, .fresh, .dict, .out, .access]
  | .pwStatusRead .. => [.now, .fresh, .dict, .out, .access]
  | .evTimerApply .. => [.now, .fresh, .lattice]
  | .cxlLinkRecovery .. => [.now, .fresh, .dict, .cxl]
  | .ideKeyProgram .. => [.now, .fresh, .dict, .cxl]

/-- R439: the indexes of the objects a write of which is a command of its own: `execObjectWrite` hands such a write to it. -/
def ownWrites : List Nat := [0x1011, 0x1014, 0x1030, 0x1031, 0x1032, 0x1038, 0x1039, 0x103a, 0x1100, 0x2009, 0x2280, 0x2281,
  0x2301, 0x2302, 0x3001, 0x3100, 0x3101, 0x3102, 0x3123, 0x4010, 0x4033, 0x4080, 0x4083, 0x5010, 0x5032, 0x5100, 0x5120,
  0x6004, 0x6200, 0x7003, 0x7013, 0x7808, 0x7823, 0x801a, 0xa05b, 0xa100, 0xc001, 0xc030, 0xe000, 0xf000, 0xf001, 0xf005,
  0xf006, 0xf010]

end Sys2Proof.Machine
end

