-- ==== Sys2Proof/Certificates/Slice0/Obligations.lean ====
section
/-! DEFINITION. The statements about the block: one for each group of commands, and those about every command. -/

open Sys2Proof Sys2Proof.Machine

/-- R40 (QE_COUNT, QE_INDEX): levels that were stable for less than QE_FILTER_NS do nothing; all else is said of levels that
the filter accepts. R41, R42, R44 (QE_COUNT, QE_STANDSTILL_TIMEOUT): a transition that counts moves the 48-bit count by its
step, where no running generator follows the encoder; one in which A and B change together only counts a phase error; a port
in mode 0 counts nothing; 1/QE_SPEED_FLOOR after the newest edge the speed and the direction are those of standstill, and
the window is empty. R45 to R47 (QE_INDEX): an index pulse that does not meet its gate does nothing. One whose count is off
by more than the tolerance stores the difference and counts the mismatch. With QE_REHOME set, and the port no trigger source
while the re-home must wait for PREOP, the count is set to the expected count, a QE_REHOME of 1 returns to 0, and the speed
and the direction state stay. A trigger source does not snap while lines are taken nor from then on until PREOP, and its
re-home request stays. -/
def Obligations.EncoderPorts : Prop :=
  (∀ (s : State) (t : Nat) (q : Fin 4) (a b : Bool) (stable : Nat) (d : Int),
    s.rdN Obj.QE_FILTER_NS 0 q ≤ stable →
    s.rdN Obj.QE_MODE 0 q ≠ 0 →
    qeStep (s.rdN Obj.QE_MODE 0 q) (s.qe q).a (s.qe q).b a b = some d →
    d ≠ 0 →
    (∀ g, g < 12 → (s.tg g).running = false) →
    ∃ u, exec (.qeCount ⟨t, stable⟩ q a b) s = .next u ∧
      u.rd Obj.QE_POSITION 0 q = wrap48 (s.rd Obj.QE_POSITION 0 q + d) ∧
      (u.qe q).a = a ∧
      (u.qe q).b = b ∧
      u.out = s.out ∧
      (∀ d k, k ≠ Obj.QE_POSITION.key 0 q → k ≠ Obj.QE_DIRECTION.key 0 q → k ≠ Obj.QE_SPEED.key 0 q → look u.dict d k = look
        s.dict d k)) ∧
  (∀ (s : State) (t : Nat) (q : Fin 4) (stable : Nat),
    s.rdN Obj.QE_FILTER_NS 0 q ≤ stable →
    s.rdN Obj.QE_MODE 0 q ≠ 0 →
    ∃ u, exec (.qeCount ⟨t, stable⟩ q (!(s.qe q).a) (!(s.qe q).b)) s = .next u ∧
      u.rdN Obj.QE_PHASE_ERRORS 0 q = satCount (s.rdN Obj.QE_PHASE_ERRORS 0 q) 1 ∧
      (∀ d k, k ≠ Obj.QE_PHASE_ERRORS.key 0 q → look u.dict d k = look s.dict d k)) ∧
  (∀ (s : State) (t : Nat) (q : Fin 4) (a b : Bool) (stable : Nat),
    s.rdN Obj.QE_MODE 0 q = 0 →
    ∃ u, exec (.qeCount ⟨t, stable⟩ q a b) s = .next u ∧
      u.dict = s.dict ∧
      u.out = s.out) ∧
  (∀ (s : State) (t : Nat) (q : Fin 4) (a b : Bool) (stable : Nat),
    stable < s.rdN Obj.QE_FILTER_NS 0 q →
    exec (.qeCount ⟨t, stable⟩ q a b) s = .next (s.at t) ∧
    exec (.qeIndex ⟨t, stable⟩ q) s = .next (s.at t)) ∧
  (∀ (s : State) (t : Nat) (q : Fin 4) (tn : Nat) (r : List Nat),
    (s.qe q).window = tn :: r →
    1000000000 / s.rdN Obj.QE_SPEED_FLOOR 0 q ≤ max s.now t - tn →
    ∃ u, exec (.qeStandstillTimeout t q) s = .next u ∧
      u.rd Obj.QE_SPEED 0 q = 0 ∧
      u.rdN Obj.QE_DIRECTION 0 q = 0 ∧
      (u.qe q).window = [] ∧
      (∀ d k, k ≠ Obj.QE_DIRECTION.key 0 q → k ≠ Obj.QE_SPEED.key 0 q → look u.dict d k = look s.dict d k)) ∧
  (∀ (s : State) (t : Nat) (q : Fin 4) (stable : Nat),
    indexGate (s.rdN Obj.QE_INDEX_GATE 0 q) (s.qe q).a (s.qe q).b = false →
    exec (.qeIndex ⟨t, stable⟩ q) s = .next (s.at t)) ∧
  (∀ (s : State) (t : Nat) (q : Fin 4) (stable : Nat) (d : Int),
    s.rdN Obj.QE_FILTER_NS 0 q ≤ stable →
    indexGate (s.rdN Obj.QE_INDEX_GATE 0 q) (s.qe q).a (s.qe q).b = true →
    indexDiff (s.rd Obj.QE_POSITION 0 q) (s.rd Obj.QE_INDEX_POS 0 q) (s.rdN Obj.QE_INDEX_PERIOD 0 q) = d →
    s.rdN Obj.QE_INDEX_TOL 0 q < absNat d →
    ∃ u, exec (.qeIndex ⟨t, stable⟩ q) s = .next u ∧
      u.rd Obj.QE_INDEX_DIFF 0 q = clampInt (-2147483648) 2147483647 d ∧
      u.rdN Obj.QE_INDEX_MISMATCH 0 q = satCount (s.rdN Obj.QE_INDEX_MISMATCH 0 q) 1) ∧
  (∀ (s : State) (t : Nat) (q : Fin 4) (stable : Nat) (d : Int),
    s.rdN Obj.QE_FILTER_NS 0 q ≤ stable →
    indexGate (s.rdN Obj.QE_INDEX_GATE 0 q) (s.qe q).a (s.qe q).b = true →
    indexDiff (s.rd Obj.QE_POSITION 0 q) (s.rd Obj.QE_INDEX_POS 0 q) (s.rdN Obj.QE_INDEX_PERIOD 0 q) = d →
    s.rdN Obj.QE_REHOME 0 q ≠ 0 →
    s.rehomeWaits q = false →
    ∃ u, exec (.qeIndex ⟨t, stable⟩ q) s = .next u ∧
      u.rd Obj.QE_POSITION 0 q = wrap48 (s.rd Obj.QE_POSITION 0 q - d) ∧
      u.rdN Obj.QE_REHOME 0 q = (if s.rdN Obj.QE_REHOME 0 q = 1 then 0 else s.rdN Obj.QE_REHOME 0 q) ∧
      u.rd Obj.QE_SPEED 0 q = s.rd Obj.QE_SPEED 0 q ∧
      u.rd Obj.QE_DIRECTION 0 q = s.rd Obj.QE_DIRECTION 0 q) ∧
  (∀ (s : State) (t : Nat) (q : Fin 4) (stable : Nat),
    s.isTriggerSource q = true →
    s.lining = true ∨ s.tim.lined = true →
    ∃ u, exec (.qeIndex ⟨t, stable⟩ q) s = .next u ∧
      u.rd Obj.QE_POSITION 0 q = s.rd Obj.QE_POSITION 0 q ∧
      u.rd Obj.QE_REHOME 0 q = s.rd Obj.QE_REHOME 0 q)

/-- R48, R50 to R52 (SP_WORD_START, SP_WORD, SP_TIMEOUT, SP_ENABLE_WRITE): an enabled idle port starts a word with its clock
from INIT on, once its period and its recovery time have passed; a good word gives position, value, time and the VALID bit,
and changes no bad-word count; a bad word, one whose start bit came after SP_TIMEOUT_US, and a missing start bit count in
SP_BAD_WORDS and keep the last value; a write of SP_ENABLE or SP_CLOCK_KHZ that passes its checks becomes the object's
value. -/
def Obligations.SerialWords : Prop :=
  (∀ (s : State) (t : Nat) (n : Fin 4),
    s.flag Obj.SP_ENABLE 0 n = true →
    stInit ≤ s.mode →
    (s.sp n).busy = false →
    (s.at t).spDue n = true →
    ∃ u, exec (.spWordStart t n) s = .next u ∧
      (u.sp n).busy = true ∧
      (u.sp n).khz = s.rdN Obj.SP_CLOCK_KHZ 0 n ∧
      (u.sp n).started = some (max s.now t) ∧
      u.out = s.out ++ [.spClock n (s.rdN Obj.SP_CLOCK_KHZ 0 n)] ∧
      u.dict = s.dict) ∧
  (∀ (s : State) (t : Nat) (n : Fin 4) (word startTime : Nat),
    (s.sp n).busy = true →
    spGood word = true →
    startTime ≤ s.spLimit n →
    ∃ u, exec (.spWord t n word startTime) s = .next u ∧
      u.rdN Obj.SP_RAW 0 n = fieldOf word 15 24 ∧
      u.rd Obj.SP_VALUE_UM 0 n = clampInt (-2147483648) 2147483647 (s.rd Obj.SP_OFFSET_UM 0 n + (fieldOf word 15 24 * s.rdN
        Obj.SP_SCALE_NM 0 n / 1000 : Nat)) ∧
      u.rdN Obj.SP_VALUE_TIME 0 n = startTime ∧
      u.bit Obj.SP_STATUS 0 n 0 = true ∧
      (u.sp n).busy = false ∧
      u.rdN Obj.SP_BAD_WORDS 0 n = s.rdN Obj.SP_BAD_WORDS 0 n) ∧
  (∀ (s : State) (t : Nat) (n : Fin 4) (word startTime : Nat),
    (s.sp n).busy = true →
    spGood word = false ∨ s.spLimit n < startTime →
    ∃ u, exec (.spWord t n word startTime) s = .next u ∧
      u.rdN Obj.SP_BAD_WORDS 0 n = satCount (s.rdN Obj.SP_BAD_WORDS 0 n) 1 ∧
      (u.sp n).busy = false ∧
      (u.sp n).badRun = (s.sp n).badRun + 1 ∧
      u.rd Obj.SP_VALUE_UM 0 n = s.rd Obj.SP_VALUE_UM 0 n) ∧
  (∀ (s : State) (t : Nat) (n : Fin 4),
    (s.sp n).busy = true →
    s.spLimit n ≤ max s.now t →
    ∃ u, exec (.spTimeout t n) s = .next u ∧
      u.rdN Obj.SP_BAD_WORDS 0 n = satCount (s.rdN Obj.SP_BAD_WORDS 0 n) 1 ∧
      (u.sp n).busy = false ∧
      u.rd Obj.SP_VALUE_UM 0 n = s.rd Obj.SP_VALUE_UM 0 n) ∧
  (∀ (s : State) (t : Nat) (n : Fin 4),
    (s.sp n).busy = true →
    (s.sp n).badRun = 2 →
    s.spLimit n ≤ max s.now t →
    ∃ u, exec (.spTimeout t n) s = .next u ∧
      u.bit Obj.SP_STATUS 0 n 2 = true) ∧
  (∀ (s : State) (t : Nat) (path : Path) (n : Fin 4) (value : List Byte),
    s.checkWrite path Obj.SP_ENABLE 0 n value = 0 →
    ∃ u, exec (.spEnableWrite t path n false value) s = .next u ∧
      u.rd Obj.SP_ENABLE 0 n = Obj.SP_ENABLE.decodeValue value ∧
      u.out = s.out ++ [.result path (Obj.SP_ENABLE.key 0 n) 0]) ∧
  (∀ (s : State) (t : Nat) (path : Path) (n : Fin 4) (value : List Byte),
    s.checkWrite path Obj.SP_CLOCK_KHZ 0 n value = 0 →
    ∃ u, exec (.spEnableWrite t path n true value) s = .next u ∧
      u.rd Obj.SP_CLOCK_KHZ 0 n = Obj.SP_CLOCK_KHZ.decodeValue value ∧
      u.out = s.out ++ [.result path (Obj.SP_CLOCK_KHZ.key 0 n) 0])

/-- R53, R55, R57 (LINE_TRIGGER, TRIGGER_DEFERRED_ISSUE, TG_PERIOD_WRITE, TG_DIVIDER_WRITE): a fixed-rate trigger that is due
is issued now, where nothing is held and the spacing has passed, and makes the group's next line; within the spacing it is
held and TG_DEFERRED counts on the group's ports; one that falls due behind a held one is dropped and TG_OVERRUN counts,
while no line is made. A held one is issued once the spacing has passed. A TG_PERIOD or TG_DIVIDER written while lines are
taken is staged for every port of the group. -/
def Obligations.LineTriggers : Prop :=
  (∀ (s : State) (t : Nat) (g : Fin 12),
    (s.tg g).running = true →
    (s.tg g).held = none →
    s.rdN Obj.TG_SOURCE 0 (s.leadPort g) = 0 →
    nearestNs (s.tg g).due ≤ max s.now t →
    (s.tg g).free (max s.now t) (s.rdN Obj.TG_MIN_PERIOD_NS 0 (s.leadPort g)) = true →
    ∃ u, exec (.lineTrigger t g) s = .next u ∧
      (u.tg g).last = some (max s.now t) ∧
      (u.tg g).held = none ∧
      (u.tg g).marks.head?.map (fun m => m.line) = some (s.presentLine g + 1)) ∧
  (∀ (s : State) (t : Nat) (g : Fin 12) (p : Nat),
    (s.tg g).running = true →
    (s.tg g).held = none →
    s.rdN Obj.TG_SOURCE 0 (s.leadPort g) = 0 →
    nearestNs (s.tg g).due ≤ max s.now t →
    (s.tg g).free (max s.now t) (s.rdN Obj.TG_MIN_PERIOD_NS 0 (s.leadPort g)) = false →
    s.groupPorts g = [p] →
    ∃ u, exec (.lineTrigger t g) s = .next u ∧
      (u.tg g).held = some (0, (s.tg g).due) ∧
      u.rdN Obj.TG_DEFERRED 0 p = satCount (s.rdN Obj.TG_DEFERRED 0 p) 1 ∧
      (∀ d k, k ≠ Obj.TG_DEFERRED.key 0 p → k ≠ Obj.TG_OVERRUN.key 0 p → look u.dict d k = look s.dict d k) ∧
      (s.rdN Obj.EPOCH_PENDING 0 g = 0 → u.rdN Obj.TG_OVERRUN 0 p = s.rdN Obj.TG_OVERRUN 0 p)) ∧
  (∀ (s : State) (t : Nat) (g : Fin 12) (p : Nat) (h : Int × Nat),
    (s.tg g).running = true →
    (s.tg g).held = some h →
    s.rdN Obj.TG_SOURCE 0 (s.leadPort g) = 0 →
    nearestNs (s.tg g).due ≤ max s.now t →
    (s.tg g).free (max s.now t) (s.rdN Obj.TG_MIN_PERIOD_NS 0 (s.leadPort g)) = false →
    s.groupPorts g = [p] →
    ∃ u, exec (.lineTrigger t g) s = .next u ∧
      (u.tg g).held = some h ∧
      u.rdN Obj.TG_OVERRUN 0 p = satCount (s.rdN Obj.TG_OVERRUN 0 p) 1 ∧
      (∀ d k, k ≠ Obj.TG_OVERRUN.key 0 p → look u.dict d k = look s.dict d k) ∧
      u.out = s.out) ∧
  (∀ (s : State) (t : Nat) (g : Fin 12) (h : Int × Nat),
    (s.tg g).running = true →
    (s.tg g).held = some h →
    (s.tg g).free (max s.now t) (s.rdN Obj.TG_MIN_PERIOD_NS 0 (s.leadPort g)) = true →
    ∃ u, exec (.triggerDeferredIssue t g) s = .next u ∧
      (u.tg g).last = some (max s.now t) ∧
      (u.tg g).held = none ∧
      (u.tg g).marks.head?.map (fun m => (m.line, m.belt)) = some (s.presentLine g + 1, h.1)) ∧
  (∀ (s : State) (t : Nat) (path : Path) (p k : Fin 12) (value : List Byte),
    s.checkWrite path Obj.TG_PERIOD 0 p value = 0 →
    s.lining = true →
    s.portGroup k = s.portGroup p →
    ∃ u, exec (.tgPeriodWrite t path p value) s = .next u ∧
      find? u.epochs.staged (epochKey Obj.TG_PERIOD 0 k (s.portGroup k)) = some (Obj.TG_PERIOD.decodeValue value) ∧
      u.out = s.out ++ [.result path (Obj.TG_PERIOD.key 0 p) 0]) ∧
  (∀ (s : State) (t : Nat) (path : Path) (p k : Fin 12) (value : List Byte),
    s.checkWrite path Obj.TG_DIVIDER 0 p value = 0 →
    s.lining = true →
    s.portGroup k = s.portGroup p →
    ∃ u, exec (.tgDividerWrite t path p value) s = .next u ∧
      find? u.epochs.staged (epochKey Obj.TG_DIVIDER 0 k (s.portGroup k)) = some (Obj.TG_DIVIDER.decodeValue value) ∧
      u.out = s.out ++ [.result path (Obj.TG_DIVIDER.key 0 p) 0])

/-- R66, R67, R86, R87, R88 (CAM_ENABLE_WRITE, CAM_LANES_WRITE, CAM_RATE_WRITE, DISCOVERY_DONE, DISCOVERY_RETRY, LINK_RETRY,
CAM_LINK_RETURN, CAM_HEARTBEAT, CAM_HB_TIMEOUT, LANE_LOCK_LOSS): enabling a port starts discovery and clearing it takes the
link down; a new lane count or rate repeats it; an attempt ends up, with the camera's strings, or down with CABLE_ERROR or
REFUSED shown; it is repeated while the port stays down; a camera that announces streams a port does not support is refused
(R64); a heartbeat restarts supervision, a missing one and a lost lane take the link down and count it; a link that returns
while lines are taken writes the live exposure at once, and its lines carry SKEW until the last of those settings is
acknowledged (R87); a port whose island does not run discovers nothing (R88). -/
def Obligations.CameraLink : Prop :=
  (∀ (s : State) (t : Nat) (path : Path) (p : Fin 12) (value : List Byte),
    s.checkWrite path Obj.CAM_ENABLE p 0 value = 0 →
    s.flag Obj.CAM_ENABLE p = false →
    Obj.CAM_ENABLE.decodeValue value ≠ 0 →
    s.islandRuns (15 + p.val) = true →
    ∃ u, exec (.camEnableWrite t path p value) s = .next u ∧
      u.flag Obj.CAM_ENABLE p = true ∧
      u.bit Obj.CAM_LINK_STATUS p 0 camDiscovering = true ∧
      u.out = s.out ++ [.result path (Obj.CAM_ENABLE.key p 0) 0, .discover p (s.rdN Obj.CAM_LANES p) (s.rdN Obj.CAM_RATE p)]) ∧
  (∀ (s : State) (t : Nat) (path : Path) (p : Fin 12) (value : List Byte),
    s.checkWrite path Obj.CAM_ENABLE p 0 value = 0 →
    s.flag Obj.CAM_ENABLE p = false →
    Obj.CAM_ENABLE.decodeValue value ≠ 0 →
    s.islandRuns (15 + p.val) = false →
    ∃ u, exec (.camEnableWrite t path p value) s = .next u ∧
      u.flag Obj.CAM_ENABLE p = true ∧
      u.rdN Obj.CAM_LINK_STATUS p = s.rdN Obj.CAM_LINK_STATUS p ∧
      u.out = s.out ++ [.result path (Obj.CAM_ENABLE.key p 0) 0]) ∧
  (∀ (s : State) (t : Nat) (path : Path) (p : Fin 12) (value : List Byte),
    s.checkWrite path Obj.CAM_ENABLE p 0 value = 0 →
    s.flag Obj.CAM_ENABLE p = true →
    Obj.CAM_ENABLE.decodeValue value = 0 →
    ∃ u, exec (.camEnableWrite t path p value) s = .next u ∧
      u.flag Obj.CAM_ENABLE p = false ∧
      u.camIsUp p = false ∧
      (u.cam p).writes = [] ∧
      u.bit Obj.CAM_LINK_STATUS p 0 camDiscovering = false) ∧
  (∀ (s : State) (t : Nat) (path : Path) (p : Fin 12) (value : List Byte),
    s.checkWrite path Obj.CAM_LANES p 0 value = 0 →
    s.flag Obj.CAM_ENABLE p = true →
    s.islandRuns (15 + p.val) = true →
    ∃ u, exec (.camLanesWrite t path p value) s = .next u ∧
      u.rd Obj.CAM_LANES p = Obj.CAM_LANES.decodeValue value ∧
      u.camIsUp p = false ∧
      u.bit Obj.CAM_LINK_STATUS p 0 camDiscovering = true) ∧
  (∀ (s : State) (t : Nat) (path : Path) (p : Fin 12) (value : List Byte),
    s.checkWrite path Obj.CAM_RATE p 0 value = 0 →
    s.flag Obj.CAM_ENABLE p = true →
    s.islandRuns (15 + p.val) = true →
    ∃ u, exec (.camRateWrite t path p value) s = .next u ∧
      u.rd Obj.CAM_RATE p = Obj.CAM_RATE.decodeValue value ∧
      u.camIsUp p = false ∧
      u.bit Obj.CAM_LINK_STATUS p 0 camDiscovering = true) ∧
  (∀ (s : State) (t : Nat) (p : Fin 12) (found : Discovery),
    s.bit Obj.CAM_LINK_STATUS p 0 camDiscovering = true →
    s.islandRuns (15 + p.val) = true →
    cableError found.answers (s.rdN Obj.CAM_LANES p) = false →
    found.refused = false →
    discoveryUnsupported found = false →
    found.trained = true →
    ∃ u, exec (.discoveryDone t p found) s = .next u ∧
      u.camIsUp p = true ∧
      u.bit Obj.CAM_LINK_STATUS p 0 camDiscovering = false ∧
      u.bit Obj.CAM_PRESENT 0 0 p = true ∧
      u.rdBlob Obj.CAM_VENDOR p = found.vendor ∧
      u.rdBlob Obj.CAM_SERIAL p = found.serial ∧
      (u.cam p).master = masterLane found.answers) ∧
  (∀ (s : State) (t : Nat) (p : Fin 12) (found : Discovery),
    s.bit Obj.CAM_LINK_STATUS p 0 camDiscovering = true →
    s.islandRuns (15 + p.val) = true →
    cableError found.answers (s.rdN Obj.CAM_LANES p) = true →
    ∃ u, exec (.discoveryDone t p found) s = .next u ∧
      u.bit Obj.CAM_LINK_STATUS p 0 camCableError = true ∧
      u.bit Obj.CAM_LINK_STATUS p 0 camDiscovering = false ∧
      u.camIsUp p = s.camIsUp p) ∧
  (∀ (s : State) (t : Nat) (p : Fin 12) (found : Discovery),
    s.bit Obj.CAM_LINK_STATUS p 0 camDiscovering = true →
    s.islandRuns (15 + p.val) = true →
    cableError found.answers (s.rdN Obj.CAM_LANES p) = false →
    found.refused = true ∨ discoveryUnsupported found = true →
    ∃ u, exec (.discoveryDone t p found) s = .next u ∧
      u.bit Obj.CAM_LINK_STATUS p 0 camRefused = true ∧
      u.bit Obj.CAM_LINK_STATUS p 0 camDiscovering = false ∧
      u.camIsUp p = s.camIsUp p) ∧
  (∀ (s : State) (t : Nat) (p : Fin 12),
    s.mode = stInit ∨ s.mode = stPreop →
    (s.at t).attemptDue p 1000000000 = true →
    ∃ u, exec (.discoveryRetry t p) s = .next u ∧
      u.bit Obj.CAM_LINK_STATUS p 0 camDiscovering = true ∧
      u.out = s.out ++ [.discover p (s.rdN Obj.CAM_LANES p) (s.rdN Obj.CAM_RATE p)]) ∧
  (∀ (s : State) (t : Nat) (p : Fin 12),
    s.lining = true →
    (s.at t).attemptDue p 100000000 = true →
    ∃ u, exec (.linkRetry t p) s = .next u ∧
      u.bit Obj.CAM_LINK_STATUS p 0 camDiscovering = true ∧
      u.out = s.out ++ [.discover p (s.rdN Obj.CAM_LANES p) (s.rdN Obj.CAM_RATE p)]) ∧
  (∀ (s : State) (t : Nat) (p : Fin 12),
    s.camIsUp p = true →
    ∃ u, exec (.camHeartbeat t p) s = .next u ∧
      (u.cam p).heartbeat = max s.now t ∧
      (u.cam p).beat = some (max s.now t) ∧
      u.out = s.out) ∧
  (∀ (s : State) (t : Nat) (p : Fin 12),
    s.camIsUp p = true →
    s.rdN Obj.CAM_HB_TIMEOUT_MS p ≠ 0 →
    (s.cam p).heartbeat + s.rdN Obj.CAM_HB_TIMEOUT_MS p * 1000000 ≤ max s.now t →
    ∃ u, exec (.camHbTimeout t p) s = .next u ∧
      u.camIsUp p = false ∧
      u.bit Obj.CAM_PRESENT 0 0 p = false ∧
      u.rdN Obj.CAM_LINK_DOWN_COUNT p = satCount (s.rdN Obj.CAM_LINK_DOWN_COUNT p) 1) ∧
  (∀ (s : State) (t : Nat) (p : Fin 12) (lane : Fin 4),
    s.camIsUp p = true →
    s.bit Obj.CAM_LINK_STATUS p 0 lane = true →
    ∃ u, exec (.laneLockLoss t p lane) s = .next u ∧
      u.camIsUp p = false ∧
      u.bit Obj.CAM_PRESENT 0 0 p = false ∧
      u.rdN Obj.CAM_LINK_DOWN_COUNT p = satCount (s.rdN Obj.CAM_LINK_DOWN_COUNT p) 1) ∧
  (∀ (s : State) (t : Nat) (p : Fin 12),
    (s.cam p).returned = true →
    s.camIsUp p = true →
    s.lining = true →
    s.rdN Obj.CAM_EXPOSURE_REG p ≠ 0 →
    (s.cam p).writes = [] →
    (s.cam p).winOn = false →
    ∃ u, exec (.camLinkReturn t p) s = .next u ∧
      (u.cam p).returned = false ∧
      (u.cam p).relinking = true ∧
      u.out = s.out ++ [.camControl p true (s.rdN Obj.CAM_EXPOSURE_REG p) 4 (toLe 4 (s.camScaled p false (s.rdN
        Obj.CAM_EXPOSURE p)))]) ∧
  (∀ (s : State) (t : Nat) (p : Fin 12) (w : CamWrite),
    (s.cam p).writes = [w] →
    (s.cam p).winOn = false →
    w.readback = false →
    w.relink = true →
    ∃ u, exec (.camAck t p w.gain 0) s = .next u ∧
      (u.cam p).relinking = false ∧
      (u.cam p).writes = [] ∧
      u.dict = s.dict) ∧
  (∀ (s : State) (t : Nat) (p : Fin 12) (w w' : CamWrite) (r : List CamWrite),
    (s.cam p).writes = w :: w' :: r →
    (s.cam p).winOn = false →
    w.readback = false →
    w'.relink = true →
    ∃ u, exec (.camAck t p w.gain 0) s = .next u ∧
      (u.cam p).relinking = (s.cam p).relinking ∧
      (u.cam p).writes = w' :: r)

/-- R69, R70 (CAM_REG_READ, CAM_REG_WRITE, CAM_REG_ABORT, CAM_REG_COMPLETE, CAM_REG_TIMEOUT): a command starts a transaction
on the uplink and CAM_REG_STATUS reads 1; one written while it reads 1 is refused and changes no register; a write to an
epoch register while lines are taken is refused with status 5; an abort makes the window idle; it waits while commands of
the port's own are on the uplink (R71); an acknowledge completes it, with the bytes read, as many as the command asked for,
or shows its code; no acknowledge gives status 4. (That the uplink of a port that is not up carries nothing, and the
transaction runs into its timeout, is the model's choice, log entry 261.) -/
def Obligations.CameraRegisterWindow : Prop :=
  (∀ (s : State) (t : Nat) (path : Path) (p : Fin 12),
    s.checkAccess path Obj.CAM_REG_CMD p 0 1 = 0 →
    s.rdN Obj.CAM_REG_STATUS p ≠ 1 →
    (s.cam p).writes = [] →
    s.camIsUp p = true →
    ∃ u, exec (.camRegRead t path p) s = .next u ∧
      u.rdN Obj.CAM_REG_STATUS p = 1 ∧
      (u.cam p).winOn = true ∧
      (u.cam p).winLen = s.rdN Obj.CAM_REG_LEN p ∧
      u.out = s.out ++ [.camControl p false (s.rdN Obj.CAM_REG_ADDR p) (s.rdN Obj.CAM_REG_LEN p) [], .result path
        (Obj.CAM_REG_CMD.key p 0) 0]) ∧
  (∀ (s : State) (t : Nat) (path : Path) (p : Fin 12),
    s.checkAccess path Obj.CAM_REG_CMD p 0 1 = 0 →
    s.rdN Obj.CAM_REG_STATUS p ≠ 1 →
    (s.cam p).writes = [] →
    s.camIsUp p = false →
    ∃ u, exec (.camRegRead t path p) s = .next u ∧
      u.rdN Obj.CAM_REG_STATUS p = 1 ∧
      (u.cam p).winOn = true ∧
      u.out = s.out ++ [.result path (Obj.CAM_REG_CMD.key p 0) 0]) ∧
  (∀ (s : State) (t : Nat) (path : Path) (p : Fin 12),
    s.checkAccess path Obj.CAM_REG_CMD p 0 1 = 0 →
    s.rdN Obj.CAM_REG_STATUS p = 1 →
    ∃ u, exec (.camRegRead t path p) s = .next u ∧
      u.dict = s.dict ∧
      u.out = s.out ++ [.result path (Obj.CAM_REG_CMD.key p 0) 8]) ∧
  (∀ (s : State) (t : Nat) (path : Path) (p : Fin 12),
    s.checkAccess path Obj.CAM_REG_CMD p 0 1 = 0 →
    s.rdN Obj.CAM_REG_STATUS p ≠ 1 →
    s.lining = false ∨ s.epochRegister p (s.rdN Obj.CAM_REG_ADDR p) = false →
    (s.cam p).writes = [] →
    s.camIsUp p = true →
    ∃ u, exec (.camRegWrite t path p) s = .next u ∧
      u.rdN Obj.CAM_REG_STATUS p = 1 ∧
      u.out = s.out ++ [.camControl p true (s.rdN Obj.CAM_REG_ADDR p) (s.rdN Obj.CAM_REG_LEN p) (s.camRegData p (s.rdN
        Obj.CAM_REG_LEN p)), .result path (Obj.CAM_REG_CMD.key p 0) 0]) ∧
  (∀ (s : State) (t : Nat) (path : Path) (p : Fin 12) (w : CamWrite) (r : List CamWrite),
    s.checkAccess path Obj.CAM_REG_CMD p 0 1 = 0 →
    s.rdN Obj.CAM_REG_STATUS p ≠ 1 →
    (s.cam p).writes = w :: r →
    ∃ u, exec (.camRegRead t path p) s = .next u ∧
      u.rdN Obj.CAM_REG_STATUS p = 1 ∧
      (u.cam p).winWait = some ⟨false, s.rdN Obj.CAM_REG_ADDR p, s.rdN Obj.CAM_REG_LEN p, []⟩ ∧
      u.out = s.out ++ [.result path (Obj.CAM_REG_CMD.key p 0) 0]) ∧
  (∀ (s : State) (t : Nat) (path : Path) (p : Fin 12),
    s.checkAccess path Obj.CAM_REG_CMD p 0 1 = 0 →
    s.rdN Obj.CAM_REG_STATUS p ≠ 1 →
    s.lining = true →
    s.rdN Obj.CAM_REG_ADDR p ≠ 0 →
    s.rdN Obj.CAM_REG_ADDR p = s.rdN Obj.CAM_EXPOSURE_REG p ∨ s.rdN Obj.CAM_REG_ADDR p = s.rdN Obj.CAM_GAIN_REG p →
    ∃ u, exec (.camRegWrite t path p) s = .next u ∧
      u.rdN Obj.CAM_REG_STATUS p = 5 ∧
      u.out = s.out ++ [.result path (Obj.CAM_REG_CMD.key p 0) 4]) ∧
  (∀ (s : State) (t : Nat) (path : Path) (p : Fin 12),
    s.checkAccess path Obj.CAM_REG_CMD p 0 1 = 0 →
    s.rdN Obj.CAM_REG_STATUS p = 1 →
    (s.cam p).writes = [] →
    ∃ u, exec (.camRegAbort t path p) s = .next u ∧
      u.rdN Obj.CAM_REG_STATUS p = 0 ∧
      u.out = s.out ++ [.result path (Obj.CAM_REG_CMD.key p 0) 0]) ∧
  (∀ (s : State) (t : Nat) (path : Path) (p : Fin 12),
    s.checkAccess path Obj.CAM_REG_CMD p 0 1 = 0 →
    s.rdN Obj.CAM_REG_STATUS p ≠ 1 →
    ∃ u, exec (.camRegAbort t path p) s = .next u ∧
      u.rdN Obj.CAM_REG_STATUS p = 5 ∧
      u.cams = s.cams ∧
      u.out = s.out ++ [.result path (Obj.CAM_REG_CMD.key p 0) 4]) ∧
  (∀ (s : State) (t : Nat) (p : Fin 12) (data : List Byte),
    s.rdN Obj.CAM_REG_STATUS p = 1 →
    (s.cam p).winOn = true →
    s.camIsUp p = true →
    (s.cam p).winWrite = true →
    ∃ u, exec (.camRegComplete t p 0 data) s = .next u ∧
      u.rdN Obj.CAM_REG_STATUS p = 2 ∧
      u.rdN Obj.CAM_REG_ACK p = 0 ∧
      u.blobs = s.blobs) ∧
  (∀ (s : State) (t : Nat) (p : Fin 12) (data : List Byte),
    s.rdN Obj.CAM_REG_STATUS p = 1 →
    (s.cam p).winOn = true →
    s.camIsUp p = true →
    (s.cam p).winWrite = false →
    data.length = (s.cam p).winLen →
    ∃ u, exec (.camRegComplete t p 0 data) s = .next u ∧
      u.rdN Obj.CAM_REG_STATUS p = 2 ∧
      u.rdN Obj.CAM_REG_ACK p = 0 ∧
      (u.rdBlob Obj.CAM_REG_DATA p).take data.length = data) ∧
  (∀ (s : State) (t : Nat) (p : Fin 12) (code : Nat) (data : List Byte),
    s.rdN Obj.CAM_REG_STATUS p = 1 →
    (s.cam p).winOn = true →
    s.camIsUp p = true →
    code ≠ 0 →
    ∃ u, exec (.camRegComplete t p code data) s = .next u ∧
      u.rdN Obj.CAM_REG_STATUS p = 3 ∧
      u.rdN Obj.CAM_REG_ACK p = code ∧
      u.blobs = s.blobs) ∧
  (∀ (s : State) (t : Nat) (p : Fin 12),
    s.rdN Obj.CAM_REG_STATUS p = 1 →
    (s.cam p).winOn = true →
    ∃ u, exec (.camRegTimeout t p) s = .next u ∧
      u.rdN Obj.CAM_REG_STATUS p = 4 ∧
      (∀ d k, k ≠ Obj.CAM_REG_STATUS.key p 0 → look u.dict d k = look s.dict d k))

/-- R79, R80 (CAM_ACK, CAM_ACK_TIMEOUT, SKEW_READBACK, CAM_EVENT_PACKET): an acknowledge in time with code 0 takes its write
off the queue and changes no register; a code, a timeout, a readback too far from the written value and an event that
reports a value outside the tolerance make the epoch carry EPOCH_SKEW, which counts once per epoch. -/
def Obligations.CameraSettings : Prop :=
  (∀ (s : State) (t : Nat) (p : Fin 12) (w : CamWrite) (r : List CamWrite),
    (s.cam p).writes = w :: r →
    (s.cam p).winOn = false →
    w.readback = false →
    s.rdN Obj.CAM_LINE_NOW p < w.first →
    ∃ u, exec (.camAck t p w.gain 0) s = .next u ∧
      (u.cam p).writes = r ∧
      u.dict = s.dict) ∧
  (∀ (s : State) (t : Nat) (p : Fin 12) (w : CamWrite) (r : List CamWrite) (code : Nat),
    (s.cam p).writes = w :: r →
    (s.cam p).winOn = false →
    w.readback = false →
    code ≠ 0 →
    (s.cam p).skewed.contains w.epoch = false →
    ∃ u, exec (.camAck t p w.gain code) s = .next u ∧
      (u.cam p).writes = r ∧
      (u.cam p).skewed = w.epoch :: (s.cam p).skewed ∧
      u.rdN Obj.CAM_EPOCH_SKEW p = satCount (s.rdN Obj.CAM_EPOCH_SKEW p) 1) ∧
  (∀ (s : State) (t : Nat) (p : Fin 12) (w : CamWrite) (r : List CamWrite),
    (s.cam p).writes = w :: r →
    (s.cam p).winOn = false →
    (s.cam p).skewed.contains w.epoch = false →
    ∃ u, exec (.camAckTimeout t p w.gain w.readback) s = .next u ∧
      (u.cam p).writes = r ∧
      (u.cam p).skewed = w.epoch :: (s.cam p).skewed ∧
      u.rdN Obj.CAM_EPOCH_SKEW p = satCount (s.rdN Obj.CAM_EPOCH_SKEW p) 1) ∧
  (∀ (s : State) (t : Nat) (p : Fin 12) (w : CamWrite) (r : List CamWrite) (value : Nat),
    (s.cam p).writes = w :: r →
    (s.cam p).winOn = false →
    w.readback = true →
    natDist value w.value ≤ s.rdN Obj.CAM_SKEW_TOL p →
    ∃ u, exec (.skewReadback t p w.gain 0 value) s = .next u ∧
      (u.cam p).writes = r ∧
      u.dict = s.dict) ∧
  (∀ (s : State) (t : Nat) (p : Fin 12) (w : CamWrite) (r : List CamWrite) (code value : Nat),
    (s.cam p).writes = w :: r →
    (s.cam p).winOn = false →
    w.readback = true →
    s.rdN Obj.CAM_SKEW_TOL p < natDist value w.value →
    (s.cam p).skewed.contains w.epoch = false →
    ∃ u, exec (.skewReadback t p w.gain code value) s = .next u ∧
      (u.cam p).writes = r ∧
      u.rdN Obj.CAM_EPOCH_SKEW p = satCount (s.rdN Obj.CAM_EPOCH_SKEW p) 1) ∧
  (∀ (s : State) (t : Nat) (p : Fin 12) (w : CamWrite) (r : List CamWrite) (value : Nat),
    (s.cam p).writes = w :: r →
    (s.cam p).winOn = false →
    w.readback = true →
    (s.cam p).skewed.contains w.epoch = true →
    ∃ u, exec (.skewReadback t p w.gain 0 value) s = .next u ∧
      u.rdN Obj.CAM_EPOCH_SKEW p = s.rdN Obj.CAM_EPOCH_SKEW p) ∧
  (∀ (s : State) (t : Nat) (p : Fin 12) (id : Nat) (data : List Byte),
    s.camIsUp p = true →
    s.rdN Obj.CAM_SKEW_SOURCE p ≠ 2 →
    ∃ u, exec (.camEventPacket t p id data) s = .next u ∧
      u.rdN Obj.CAM_EVENT_COUNT p = satCount (s.rdN Obj.CAM_EVENT_COUNT p) 1 ∧
      u.rdBlob Obj.CAM_EVENT_LAST p = (toLe 2 id ++ data ++ List.replicate 64 0).take 64 ∧
      (∀ d k, k ≠ Obj.CAM_EVENT_COUNT.key p 0 → look u.dict d k = look s.dict d k)) ∧
  (∀ (s : State) (t : Nat) (p : Fin 12) (data : List Byte) (v : Nat),
    s.camIsUp p = true →
    s.rdN Obj.CAM_SKEW_SOURCE p = 2 →
    s.lining = true →
    s.eventReference p = some v →
    s.rdN Obj.CAM_SKEW_TOL p < natDist (leAt data 0 4) v →
    (s.cam p).skewed.contains (s.rdN Obj.EPOCH_ID 0 (s.portGroup p)) = false →
    ∃ u, exec (.camEventPacket t p (s.rdN Obj.CAM_SKEW_EVENT_ID p) data) s = .next u ∧
      u.rdN Obj.CAM_EPOCH_SKEW p = satCount (s.rdN Obj.CAM_EPOCH_SKEW p) 1 ∧
      (u.cam p).skewed = s.rdN Obj.EPOCH_ID 0 (s.portGroup p) :: (s.cam p).skewed)

/-- R75 to R77, R83, R85, R404 (STREAM_PACKET, LINE_DEADLINE, REPLAY_COMMIT): the one packet of a complete MONO line closes
its slot with its samples and the full span; a packet with a bad header, or of a stream the port does not know, closes the
oldest open slot as a lost line; a line start that no open slot waits for counts once for its line; a packet of a line whose
slot has closed counts once as late; a slot unfilled at its deadline closes with LOST and DEADLINE; a line whose write the
DRAM channels serve (R404) commits; it goes to the pipeline when it is the next one, and waits for an earlier one when it is
not. -/
def Obligations.CameraLines : Prop :=
  (∀ (s : State) (t : Nat) (p : Fin 12) (x : Slot) (k : StreamPacket),
    s.camIsUp p = true →
    s.rdN Obj.CAM_LAYOUT p = 0 →
    s.rdN Obj.CAM_ROW_DELIVERY p = 0 →
    (s.cam p).slots = [x] →
    x.started = [] →
    x.rows = [] →
    look (s.cam p).current none k.stream = none →
    (s.cam p).waiting.length < 4 →
    k.headerOk = true →
    k.payloadOk = true →
    k.lineStart = true →
    k.rowEnd = true →
    k.row = 0 →
    k.stream = 0 →
    k.samples.length = s.camC p →
    k.samples ≠ [] →
    ∃ u, exec (.streamPacket t p k) s = .next u ∧
      (u.cam p).slots = [] ∧
      (u.cam p).waiting.map (fun l => (l.line, l.rows, l.spans)) = (s.cam p).waiting.map (fun l => (l.line, l.rows,
        l.spans)) ++ [(x.line, [k.samples], [(0, s.camC p)])]) ∧
  (∀ (s : State) (t : Nat) (p : Fin 12) (x : Slot) (r : List Slot) (k : StreamPacket),
    s.camIsUp p = true →
    (s.cam p).slots = x :: r →
    k.headerOk = false →
    ∃ u, exec (.streamPacket t p k) s = .next u ∧
      (u.cam p).waiting.map (fun l => l.line) = (s.cam p).waiting.map (fun l => l.line) ++ [x.line] ∧
      u.rdN Obj.CAM_LINE_LOST p = satCount (s.rdN Obj.CAM_LINE_LOST p) 1 ∧
      look (u.cam p).current none k.stream = none) ∧
  (∀ (s : State) (t : Nat) (p : Fin 12) (x : Slot) (r : List Slot) (k : StreamPacket),
    s.camIsUp p = true →
    (s.cam p).slots = x :: r →
    s.rdN Obj.CAM_ROW_DELIVERY p < k.stream →
    ∃ u, exec (.streamPacket t p k) s = .next u ∧
      (u.cam p).waiting.map (fun l => l.line) = (s.cam p).waiting.map (fun l => l.line) ++ [x.line] ∧
      u.rdN Obj.CAM_LINE_LOST p = satCount (s.rdN Obj.CAM_LINE_LOST p) 1) ∧
  (∀ (s : State) (t : Nat) (p : Fin 12) (k : StreamPacket),
    s.camIsUp p = true →
    k.headerOk = true →
    k.lineStart = true →
    k.stream ≤ s.rdN Obj.CAM_ROW_DELIVERY p →
    look (s.cam p).current none k.stream = none →
    (s.cam p).slots.find? (fun x => !x.started.contains k.stream) = none →
    look (s.cam p).extra 0 (1 - k.stream) = 0 →
    ∃ u, exec (.streamPacket t p k) s = .next u ∧
      u.rdN Obj.CAM_LINE_EXTRA p = satCount (s.rdN Obj.CAM_LINE_EXTRA p) 1 ∧
      (u.cam p).slots = (s.cam p).slots ∧
      (u.cam p).waiting = (s.cam p).waiting) ∧
  (∀ (s : State) (t : Nat) (p : Fin 12) (k : StreamPacket) (n : Nat),
    s.camIsUp p = true →
    k.headerOk = true →
    k.stream ≤ s.rdN Obj.CAM_ROW_DELIVERY p →
    k.lineStart = false →
    look (s.cam p).current none k.stream = some n →
    (s.cam p).slots.find? (fun x => x.line == n) = none →
    (s.cam p).lateSeen.contains n = false →
    ∃ u, exec (.streamPacket t p k) s = .next u ∧
      u.rdN Obj.CAM_LINE_LATE p = satCount (s.rdN Obj.CAM_LINE_LATE p) 1 ∧
      (u.cam p).slots = (s.cam p).slots) ∧
  (∀ (s : State) (t : Nat) (p : Fin 12) (line : Nat) (x : Slot),
    (s.cam p).slots.find? (fun x => x.line == line) = some x →
    x.trig + s.rdN Obj.CAM_LINE_DEADLINE_NS p ≤ max s.now t →
    s.rdN Obj.CAM_ROW_DELIVERY p = 0 →
    ∃ u, exec (.lineDeadline t p line) s = .next u ∧
      (u.cam p).waiting.map (fun l => l.line) = (s.cam p).waiting.map (fun l => l.line) ++ [line] ∧
      (u.cam p).waiting.getLast?.map (fun l => (l.flags.testBit 2, l.flags.testBit 5)) = some (true, true) ∧
      u.rdN Obj.CAM_LINE_LOST p = satCount (s.rdN Obj.CAM_LINE_LOST p) 1) ∧
  (∀ (s : State) (t : Nat) (p : Fin 12) (line : Nat) (l : CapLine),
    (s.cam p).waiting.find? (fun x => x.line == line) = some l →
    (s.cam p).committed = [] →
    line = s.rdN Obj.CAM_LINE_CLOSED p + 1 →
    (s.at t).dramServes ((s.at t).captureRequest p l) = true →
    ∃ u, exec (.replayCommit t p line) s = .next u ∧
      (u.cam p).toPipe = (s.cam p).toPipe ++ [l] ∧
      (u.cam p).waiting = (s.cam p).waiting.filter (fun y => y.line != line) ∧
      u.rdN Obj.CAM_LINE_CLOSED p = line) ∧
  (∀ (s : State) (t : Nat) (p : Fin 12) (line : Nat) (l : CapLine),
    (s.cam p).waiting.find? (fun x => x.line == line) = some l →
    (s.cam p).committed = [] →
    s.rdN Obj.CAM_LINE_CLOSED p + 1 < line →
    (s.at t).dramServes ((s.at t).captureRequest p l) = true →
    ∃ u, exec (.replayCommit t p line) s = .next u ∧
      (u.cam p).toPipe = (s.cam p).toPipe ∧
      (u.cam p).committed = [l] ∧
      u.rdN Obj.CAM_LINE_CLOSED p = s.rdN Obj.CAM_LINE_CLOSED p)

/-- R102, R111 (RC_DEFECT_MAP_WRITE, RC_PLATE_REF_WRITE): a map that is right for the layout is staged and RC_DEFECT_MAP_STATE
reads 2; one that is not is refused with RESULT 5, state 3, and the staged maps stay; a plate reference of 2W bytes is
staged, one of another length is refused with RESULT 5 and changes nothing staged. -/
def Obligations.ImageMaps : Prop :=
  (∀ (s : State) (t : Nat) (path : Path) (p : Fin 12) (blob : List Byte),
    s.checkAccess path Obj.RC_DEFECT_MAP p 0 blob.length = 0 →
    mapFits blob (s.lastN Obj.CAM_LAYOUT p) (s.lastN Obj.CAM_WIDTH p) = true →
    ∃ u, exec (.defectMapWrite t path p blob) s = .next u ∧
      find? u.epochs.stagedBlobs (Obj.RC_DEFECT_MAP.key p 0) = some blob ∧
      u.rdN Obj.RC_DEFECT_MAP_STATE p = 2 ∧
      u.out = s.out ++ [.result path (Obj.RC_DEFECT_MAP.key p 0) 0]) ∧
  (∀ (s : State) (t : Nat) (path : Path) (p : Fin 12) (blob : List Byte),
    s.checkAccess path Obj.RC_DEFECT_MAP p 0 blob.length = 0 →
    mapFits blob (s.lastN Obj.CAM_LAYOUT p) (s.lastN Obj.CAM_WIDTH p) = false →
    ∃ u, exec (.defectMapWrite t path p blob) s = .next u ∧
      u.rdN Obj.RC_DEFECT_MAP_STATE p = 3 ∧
      u.epochs = s.epochs ∧
      u.out.getLast? = some (.result path (Obj.RC_DEFECT_MAP.key p 0) 5)) ∧
  (∀ (s : State) (t : Nat) (path : Path) (p : Fin 12) (blob : List Byte),
    s.checkAccess path Obj.RC_FF_PLATE_REF p 0 blob.length = 0 →
    blob ≠ [] →
    blob.length = 2 * s.lastN Obj.CAM_WIDTH p →
    ∃ u, exec (.plateRefWrite t path p blob) s = .next u ∧
      find? u.epochs.stagedBlobs (Obj.RC_FF_PLATE_REF.key p 0) = some blob ∧
      u.out = s.out ++ [.result path (Obj.RC_FF_PLATE_REF.key p 0) 0]) ∧
  (∀ (s : State) (t : Nat) (path : Path) (p : Fin 12) (blob : List Byte),
    s.checkAccess path Obj.RC_FF_PLATE_REF p 0 blob.length = 0 →
    blob ≠ [] →
    blob.length ≠ 2 * s.lastN Obj.CAM_WIDTH p →
    ∃ u, exec (.plateRefWrite t path p blob) s = .next u ∧
      u.epochs = s.epochs ∧
      u.dict = s.dict ∧
      u.out = s.out ++ [.result path (Obj.RC_FF_PLATE_REF.key p 0) 5])

/-- R83, R92, R113, R132 (RC_LINE, RG_LINE): with the port's pipeline running, the oldest committed line leaves the queue and
becomes the centre line of raw correction; with it held in reset the line waits; the oldest line that no undecided track
holds leaves registration's queue and is the last line segmentation has processed; a held line stays. -/
def Obligations.PipelineLines : Prop :=
  (∀ (s : State) (t : LineTake) (p : Fin 14) (l : CapLine) (r : List CapLine),
    (s.cam p).toPipe = l :: r →
    l.port = p →
    s.pipelineOf p < 13 →
    s.islandRuns (2 + s.pipelineOf p) = true →
    s.stopping = false →
    ∃ u, exec (.rcLine t p) s = .next u ∧
      (u.cam p).toPipe = r ∧
      (u.rcp p).center.map (fun x => x.cap) = some l) ∧
  (∀ (s : State) (t : LineTake) (p : Fin 14) (l : CapLine) (r : List CapLine),
    (s.cam p).toPipe = l :: r →
    s.pipelineOf p < 13 →
    s.islandRuns (2 + s.pipelineOf p) = false →
    ∃ u, exec (.rcLine t p) s = .next u ∧
      u.cams = s.cams ∧
      u.rc = s.rc) ∧
  (∀ (s : State) (t : Nat) (p : Fin 14) (tl : Nat) (l : RegLine) (r : List (Nat × RegLine)) (upsets : List AtlasUpset),
    (s.rgp p).queue = (tl, l) :: r →
    l.cap.port = p →
    s.rgHeld p l.cap.line = false →
    (s.pipelineOf p < 13 → s.islandRuns (2 + s.pipelineOf p) = true) →
    s.trans = none →
    upsets.any (fun u => u.l0.val == 2 && u.l1.val == 2) = false →
    ∃ u, exec (.rgLine t p ⟨upsets, false⟩) s = .next u ∧
      (u.rgp p).queue = r ∧
      (u.sgp p).line = l.cap.line ∧
      (u.sgp p).time = l.cap.trig) ∧
  (∀ (s : State) (t : Nat) (p : Fin 14) (tl : Nat) (l : RegLine) (r : List (Nat × RegLine)),
    (s.rgp p).queue = (tl, l) :: r →
    s.rgHeld p l.cap.line = true →
    s.trans = none →
    ∃ u, exec (.rgLine t p ⟨[], false⟩) s = .next u ∧
      (u.rgp p).queue = (tl, l) :: r ∧
      u.sg = s.sg)

/-- R160 to R162 (AT_BLOB_WRITE, AT_LOAD, AT_LOAD_CANCEL, AT_LOAD_DONE): a blob that passes the first checks is loaded and
AT_STATE reads 1; one that fails is refused with the code of its check in AT_REFUSE_CODE, and neither the load that runs nor
the staged atlas changes; a load from scratch takes the bytes there and one outside scratch is refused with code 8; a
cancelled load has code 7; a load that ends is staged for the next epoch, or refused with code 3 or 4. R156, R164
(ATLAS_HOLD_END, ATLAS_SHADOW_RELOAD, ATLAS_SCRUB_PASS): the previous atlas is released when its line is reached and not
before; the shadows are being reloaded after both failed in one word and no longer when the reload ends; a scrub pass that
is due counts once on the port its pipeline serves, a spare's on none, and its period starts again. -/
def Obligations.Atlases : Prop :=
  (∀ (s : State) (t : Nat) (path : Path) (p : Fin 12) (blob : List Byte),
    s.checkAccess path Obj.AT_BLOB p 0 blob.length = 0 →
    s.atCheck p blob = 0 →
    (s.atp p).loading = none →
    ∃ u, exec (.atBlobWrite t path p blob) s = .next u ∧
      (u.atp p).loading = some blob ∧
      u.rdN Obj.AT_STATE p = 1 ∧
      u.bit Obj.AT_STATUS p 0 4 = false ∧
      u.out = s.out ++ [.result path (Obj.AT_BLOB.key p 0) 0]) ∧
  (∀ (s : State) (t : Nat) (path : Path) (p : Fin 12) (blob : List Byte),
    s.checkAccess path Obj.AT_BLOB p 0 blob.length = 0 →
    s.atCheck p blob ≠ 0 →
    ∃ u, exec (.atBlobWrite t path p blob) s = .next u ∧
      u.rdN Obj.AT_REFUSE_CODE p = s.atCheck p blob ∧
      u.bit Obj.AT_STATUS p 0 4 = true ∧
      u.atl = s.atl ∧
      u.epochs = s.epochs ∧
      u.out.getLast? = some (.result path (Obj.AT_BLOB.key p 0) (if s.atCheck p blob = 6 then 8 else 5))) ∧
  (∀ (s : State) (t : Nat) (path : Path) (p : Fin 12),
    s.checkAccess path Obj.AT_LOAD_CMD p 0 1 = 0 →
    s.inScratch (s.rdN Obj.AT_LOAD_ADDR p) (s.rdN Obj.AT_LOAD_BYTES p) = true →
    s.atCheck p (s.memBytes (s.rdN Obj.AT_LOAD_ADDR p) (s.rdN Obj.AT_LOAD_BYTES p)) = 0 →
    ∃ u, exec (.atLoad t path p) s = .next u ∧
      (u.atp p).loading = some (s.memBytes (s.rdN Obj.AT_LOAD_ADDR p) (s.rdN Obj.AT_LOAD_BYTES p)) ∧
      (u.atp p).fromScratch = true ∧
      u.rdN Obj.AT_STATE p = 1) ∧
  (∀ (s : State) (t : Nat) (path : Path) (p : Fin 12),
    s.checkAccess path Obj.AT_LOAD_CMD p 0 1 = 0 →
    s.inScratch (s.rdN Obj.AT_LOAD_ADDR p) (s.rdN Obj.AT_LOAD_BYTES p) = false →
    ∃ u, exec (.atLoad t path p) s = .next u ∧
      u.rdN Obj.AT_REFUSE_CODE p = 8 ∧
      u.atl = s.atl ∧
      u.out.getLast? = some (.result path (Obj.AT_LOAD_CMD.key p 0) 5)) ∧
  (∀ (s : State) (t : Nat) (path : Path) (p : Fin 12) (blob : List Byte),
    s.checkAccess path Obj.AT_LOAD_CMD p 0 1 = 0 →
    (s.atp p).loading = some blob →
    ∃ u, exec (.atLoadCancel t path p) s = .next u ∧
      (u.atp p).loading = none ∧
      u.rdN Obj.AT_REFUSE_CODE p = 7 ∧
      u.epochs = s.epochs ∧
      u.out.getLast? = some (.result path (Obj.AT_LOAD_CMD.key p 0) 0)) ∧
  (∀ (s : State) (t : Nat) (p : Fin 12) (blob : List Byte) (q : Nat),
    (s.atp p).loading = some blob →
    atSigKind blob = 0 ∨ (atSigKind blob = 1 ∧ s.blobSigned blob (atKeyId blob) 0 = true) →
    atBodyOk blob = true →
    (s.atHolders p).contains q = true →
    ∃ u, exec (.atLoadDone t p) s = .next u ∧
      (u.atp p).loading = none ∧
      (u.atp p).other.map (fun i => i.blob) = some blob ∧
      (u.atPipe q).s0 = blob ∧
      (u.atPipe q).s1 = blob ∧
      find? u.epochs.stagedBlobs (Obj.AT_BLOB.key p 0) = some blob ∧
      u.rdN Obj.AT_STATE p = 2 ∧
      u.rdN Obj.AT_STAGED_ID p = atId blob) ∧
  (∀ (s : State) (t : Nat) (p : Fin 12) (blob : List Byte),
    (s.atp p).loading = some blob →
    atSigKind blob = 0 ∨ (atSigKind blob = 1 ∧ s.blobSigned blob (atKeyId blob) 0 = true) →
    atBodyOk blob = false →
    ∃ u, exec (.atLoadDone t p) s = .next u ∧
      (u.atp p).loading = none ∧
      u.rdN Obj.AT_REFUSE_CODE p = 3 ∧
      u.epochs = s.epochs) ∧
  (∀ (s : State) (t : Nat) (p : Fin 12) (blob : List Byte),
    (s.atp p).loading = some blob →
    atSigKind blob = 1 →
    s.blobSigned blob (atKeyId blob) 0 = false →
    ∃ u, exec (.atLoadDone t p) s = .next u ∧
      (u.atp p).loading = none ∧
      u.rdN Obj.AT_REFUSE_CODE p = 4 ∧
      u.epochs = s.epochs) ∧
  (∀ (s : State) (t : Nat) (p : Fin 12) (l : Nat),
    (s.atp p).holdLine = some l →
    l ≤ s.presentLine (s.portGroup p) →
    ∃ u, exec (.atlasHoldEnd t p) s = .next u ∧
      (u.atp p).holdLine = none ∧
      u.rdN Obj.AT_BUSY_UNTIL p = 0 ∧
      u.bit Obj.AT_STATUS p 0 5 = false) ∧
  (∀ (s : State) (t : Nat) (p : Fin 12) (l : Nat),
    (s.atp p).holdLine = some l →
    s.presentLine (s.portGroup p) < l →
    ∃ u, exec (.atlasHoldEnd t p) s = .next u ∧
      u.atl = s.atl ∧
      u.dict = s.dict) ∧
  (∀ (s : State) (t : Nat) (p : Fin 12) (done : Bool),
    s.pipelineOf p < 13 →
    ∃ u, exec (.atlasShadowReload t p done) s = .next u ∧
      (u.atPipe (s.pipelineOf p)).reloading = !done ∧
      u.dict = s.dict ∧
      u.blobs = s.blobs) ∧
  (∀ (s : State) (t : Nat) (p : Fin 12) (i : AtlasImage),
    s.pipelineOf p < 13 →
    (s.atPipe (s.pipelineOf p)).ahead = false →
    (s.atp p).other = some i →
    ∃ u, exec (.atlasShadowReload t p true) s = .next u ∧
      (u.atPipe (s.pipelineOf p)).s0 = i.blob ∧
      (u.atPipe (s.pipelineOf p)).s1 = i.blob) ∧
  (∀ (s : State) (t : Nat) (q : Fin 13) (p : Nat),
    s.scrubbing = true →
    (s.atPipe q).scrubFrom + s.scrubPeriod q ≤ max s.now t →
    s.islandRuns (2 + q.val) = true →
    s.portOf q = some p →
    ∃ u, exec (.atlasScrubPass t q []) s = .next u ∧
      u.rdN Obj.AT_SCRUB_PASSES p = satCount (s.rdN Obj.AT_SCRUB_PASSES p) 1 ∧
      (u.atPipe q).scrubFrom = max s.now t ∧
      (∀ d k, k ≠ Obj.AT_SCRUB_PASSES.key p 0 → look u.dict d k = look s.dict d k)) ∧
  (∀ (s : State) (t : Nat) (q : Fin 13),
    s.scrubbing = true →
    (s.atPipe q).scrubFrom + s.scrubPeriod q ≤ max s.now t →
    s.islandRuns (2 + q.val) = true →
    s.portOf q = none →
    ∃ u, exec (.atlasScrubPass t q []) s = .next u ∧
      u.dict = s.dict ∧
      (u.atPipe q).scrubFrom = max s.now t) ∧
  (∀ (s : State) (t : Nat) (q : Fin 13) (upsets : List AtlasUpset),
    max s.now t < (s.atPipe q).scrubFrom + s.scrubPeriod q →
    ∃ u, exec (.atlasScrubPass t q upsets) s = .next u ∧
      u = s.at t)

/-- R189, R191 (ST_MAP_WRITE, ST_CAL_START, ST_CAL_CANCEL, ST_CAL_DONE): a map that fits is staged until PREOP's exit and one
that does not is refused with RESULT 5; a calibration is accepted in ARMED only, as one request more; the fit of a port that
has averaged ST_CAL_LINES lines is staged as its map, or refused; a cancelled calibration is idle. -/
def Obligations.CoordinateMaps : Prop :=
  (∀ (s : State) (t : Nat) (path : Path) (p : Fin 12) (blob : List Byte),
    s.checkAccess path Obj.ST_MAP p 0 blob.length = 0 →
    mapOk blob (rowWidth (s.lastN Obj.CAM_LAYOUT p) (s.lastN Obj.CAM_WIDTH p)) = true →
    ∃ u, exec (.stMapWrite t path p blob) s = .next u ∧
      find? u.stagedBlobs (Obj.ST_MAP.key p 0) = some blob ∧
      u.dict = s.dict ∧
      u.out = s.out ++ [.result path (Obj.ST_MAP.key p 0) 0]) ∧
  (∀ (s : State) (t : Nat) (path : Path) (p : Fin 12) (blob : List Byte),
    s.checkAccess path Obj.ST_MAP p 0 blob.length = 0 →
    mapOk blob (rowWidth (s.lastN Obj.CAM_LAYOUT p) (s.lastN Obj.CAM_WIDTH p)) = false →
    ∃ u, exec (.stMapWrite t path p blob) s = .next u ∧
      u.stagedBlobs = s.stagedBlobs ∧
      u.blobs = s.blobs ∧
      u.out.getLast? = some (.result path (Obj.ST_MAP.key p 0) 5)) ∧
  (∀ (s : State) (t : Nat) (path : Path),
    s.checkAccess path Obj.ST_CAL_CMD 0 0 1 = 0 →
    s.mode = stArmed →
    s.rdN Obj.ST_CAL_STATE ≠ 1 →
    s.calRequest 3 0 = none →
    s.cal.queue.length < 16 →
    ∃ u, exec (.stCalStart t path) s = .next u ∧
      u.rdN Obj.ST_CAL_STATE = 1 ∧
      u.st.calDone = [] ∧
      u.cal.queue.length = s.cal.queue.length + 1 ∧
      u.out = s.out ++ [.result path (Obj.ST_CAL_CMD.key 0 0) 0]) ∧
  (∀ (s : State) (t : Nat) (path : Path),
    s.checkAccess path Obj.ST_CAL_CMD 0 0 1 = 0 →
    s.mode ≠ stArmed →
    ∃ u, exec (.stCalStart t path) s = .next u ∧
      u.dict = s.dict ∧
      u.cal = s.cal ∧
      u.out = s.out ++ [.result path (Obj.ST_CAL_CMD.key 0 0) 4]) ∧
  (∀ (s : State) (t : Nat) (path : Path),
    s.checkAccess path Obj.ST_CAL_CMD 0 0 1 = 0 →
    s.rdN Obj.ST_CAL_STATE = 1 →
    ∃ u, exec (.stCalCancel t path) s = .next u ∧
      u.rdN Obj.ST_CAL_STATE = 0 ∧
      u.stagedBlobs = s.stagedBlobs ∧
      u.out = s.out ++ [.result path (Obj.ST_CAL_CMD.key 0 0) 0]) ∧
  (∀ (s : State) (t : Nat) (p : Fin 12) (levels : List (Nat × Nat)),
    s.rdN Obj.ST_CAL_STATE = 1 →
    s.flag Obj.CAM_ENABLE p = true →
    s.st.calDone.contains p.val = false →
    s.rdN Obj.ST_CAL_LINES ≤ look s.st.calLines 0 p.val →
    s.fitRefused p (s.targetFit p levels) = false →
    s.calBeaten (Obj.ST_MAP.key p 0) = false →
    ∃ u, exec (.stCalDone t p levels) s = .next u ∧
      find? u.stagedBlobs (Obj.ST_MAP.key p 0) = some (fitMap (s.camC p) s.targetId (s.targetFit p levels)) ∧
      u.rdN Obj.ST_CAL_RMS 0 p = (s.targetFit p levels).rms ∧
      u.rdN Obj.ST_CAL_EDGES 0 p = (s.targetFit p levels).edges ∧
      u.st.calDone = s.st.calDone ++ [p.val]) ∧
  (∀ (s : State) (t : Nat) (p : Fin 12) (levels : List (Nat × Nat)),
    s.rdN Obj.ST_CAL_STATE = 1 →
    s.flag Obj.CAM_ENABLE p = true →
    s.st.calDone.contains p.val = false →
    s.rdN Obj.ST_CAL_LINES ≤ look s.st.calLines 0 p.val →
    s.fitRefused p (s.targetFit p levels) = true →
    ∃ u, exec (.stCalDone t p levels) s = .next u ∧
      u.stagedBlobs = s.stagedBlobs ∧
      u.st.calBad = true ∧
      u.st.calDone = s.st.calDone ++ [p.val])

/-- R181, R194, R201, R202 (OBJECT_LEAVE_SEG, SUMMARY, WATERMARK, WATERMARK_SEND): the oldest closed part of a port leaves
and, without contact and without a site beyond a seam, is an object of its own on its way to the verdict; a summary with its
length and CRC makes the half it names wait for its partner and another one changes nothing; a watermark moves the peer's
progress up and never down; 10 µs after its last one the unit sends its own. -/
def Obligations.SeamTraffic : Prop :=
  (∀ (s : State) (t : Nat) (p : Fin 14) (o : SgObj) (r : List SgObj),
    (s.sgp p).done = o :: r →
    o.contacts = [] →
    o.regions = [] →
    o.result.reason < 16 →
    s.replaying p = false →
    ∃ u, exec (.objectLeaveSeg t p) s = .next u ∧
      (u.sgp p).done = r ∧
      u.rdN Obj.SG_OBJECTS_CLOSED p = satCount (s.rdN Obj.SG_OBJECTS_CLOSED p) 1 ∧
      u.judged.any (fun j => j.port == o.port && j.first == o.first && j.last == o.last && j.acc == o.acc) = true ∧
      u.judged.length = s.judged.length + 1) ∧
  (∀ (s : State) (t : Nat) (link : Fin 2) (payload : List Byte),
    s.seamTraffic link = true →
    payload.length = 204 →
    leAt payload 200 4 = crc32c (payload.take 200) →
    s.st.groups = [] →
    ∃ u, exec (.summary t link payload) s = .next u ∧
      u.st.groups.map (fun g => g.halves.map (fun h => (h.link, h.ids, h.firstTime))) = [[(some link.val, [(link.val, leAt
        payload 0 8)], leAt payload 8 8)]] ∧
      u.judged = s.judged) ∧
  (∀ (s : State) (t : Nat) (link : Fin 2) (payload : List Byte),
    payload.length ≠ 204 ∨ leAt payload 200 4 ≠ crc32c (payload.take 200) →
    ∃ u, exec (.summary t link payload) s = .next u ∧
      u = s.at t) ∧
  (∀ (s : State) (t : Nat) (link : Fin 2) (time : Nat),
    ∃ u, exec (.watermark t link time) s = .next u ∧
      look u.st.marks 0 link = max time (look s.st.marks 0 link) ∧
      u.dict = s.dict ∧
      u.out = s.out) ∧
  (∀ (s : State) (t : Nat) (link : Fin 2),
    s.seamTraffic link = true →
    look s.st.sentAt 0 link + 10000 ≤ max s.now t →
    s.chUp link = true →
    (s.chp link).stalled = [] →
    (s.chp link).fits (toLe 8 (min (2 ^ 64 - 1) (s.ownMark link))) = true →
    ∃ u, exec (.watermarkSend t link) s = .next u ∧
      look u.st.sentAt 0 link = max s.now t ∧
      (u.chp link).replay.map (fun x => (x.cls, x.typ, x.payload)) = (s.chp link).replay.map (fun x => (x.cls, x.typ,
        x.payload)) ++ [(1, 1, toLe 8 (min (2 ^ 64 - 1) (s.ownMark link)))] ∧
      u.out.length = s.out.length + 1) ∧
  (∀ (s : State) (t : Nat) (link : Fin 2),
    max s.now t < look s.st.sentAt 0 link + 10000 →
    ∃ u, exec (.watermarkSend t link) s = .next u ∧
      u = s.at t)

/-- R196, R199, R203, R204 (GROUP_RESOLVE, SEAM_WAIT_TIMEOUT, TAKEN_TIMEOUT), of a unit that holds one group: when the cameras
and the peers have passed it, it is merged into one object where its centroid lies in this unit and waits for TAKEN where it
lies in the neighbour's; when the peer does not come, or TAKEN does not, the wait counts and this unit's halves become
objects of their own. -/
def Obligations.SeamGroups : Prop :=
  (∀ (s : State) (t : Nat) (g : SeamGroup) (p : Nat),
    s.st.groups = [g] →
    g.waiting = none →
    2 ≤ g.halves.length →
    s.camerasDone g = true →
    s.groupStopped g = false →
    s.peersDone g = true →
    s.zoneOf g.halves (s.groupX g.halves) = .inl p →
    ∃ u, exec (.groupResolve t) s = .next u ∧
      u.st.groups = [] ∧
      u.judged.length = s.judged.length + 1 ∧
      u.judged.any (fun j => j.port == p && j.centroid == umOf (s.groupX g.halves)) = true ∧
      u.rdN Obj.ST_MERGED = satCount (s.rdN Obj.ST_MERGED) 1) ∧
  (∀ (s : State) (t : Nat) (g : SeamGroup) (k : Nat),
    s.st.groups = [g] →
    g.waiting = none →
    s.camerasDone g = true →
    s.groupStopped g = false →
    s.peersDone g = true →
    s.zoneOf g.halves (s.groupX g.halves) = .inr k →
    ∃ u, exec (.groupResolve t) s = .next u ∧
      u.st.groups = [{ g with waiting := some (max s.now t) }] ∧
      u.judged = s.judged ∧
      (∀ d k, k ≠ Obj.ST_WAIT_MAX_SEEN.key 0 0 → look u.dict d k = look s.dict d k)) ∧
  (∀ (s : State) (t : Nat) (g : SeamGroup),
    s.st.groups = [g] →
    s.camerasDone g = false →
    ∃ u, exec (.groupResolve t) s = .next u ∧
      u = s.at t) ∧
  (∀ (s : State) (t : Nat) (g : SeamGroup),
    s.st.groups = [g] →
    g.waiting = none →
    s.peersDone g = false →
    g.closed + s.rdN Obj.ST_WAIT_MAX_US * 1000 ≤ max s.now t →
    ∃ u, exec (.seamWaitTimeout t) s = .next u ∧
      u.st.groups = [] ∧
      u.rdN Obj.ST_WAIT_TIMEOUTS = satCount (s.rdN Obj.ST_WAIT_TIMEOUTS) 1 ∧
      u.judged.length = s.judged.length + (g.halves.filter (fun h => h.link.isNone)).length) ∧
  (∀ (s : State) (t : Nat) (g : SeamGroup) (w : Nat),
    s.st.groups = [g] →
    g.waiting = some w →
    w + s.rdN Obj.ST_WAIT_MAX_US * 1000 ≤ max s.now t →
    ∃ u, exec (.takenTimeout t) s = .next u ∧
      u.st.groups = [] ∧
      u.rdN Obj.ST_WAIT_TIMEOUTS = satCount (s.rdN Obj.ST_WAIT_TIMEOUTS) 1 ∧
      u.judged.length = s.judged.length + (g.halves.filter (fun h => h.link.isNone)).length)

/-- R168, R217, R237 (VD_PROGRAM_WRITE, CLASS_TABLE_WRITE, PROGRAM_HOLD_END): a program that passes the checks is staged and
VD_STATE reads 2; one that fails is refused with the code of its check and VD_STATE 3, and what was staged stays; a class
entry is staged, a bad one refused with RESULT 5, one while the previous table is held with RESULT 8; a hold ends when the
group's present line reaches its line. -/
def Obligations.VerdictPrograms : Prop :=
  (∀ (s : State) (t : Nat) (path : Path) (g : Fin 12) (blob : List Byte),
    s.checkAccess path Obj.VD_PROGRAM g 0 blob.length = 0 →
    s.vdCheck g blob = 0 →
    ∃ u, exec (.vdProgramWrite t path g blob) s = .next u ∧
      find? u.epochs.stagedBlobs (Obj.VD_PROGRAM.key g 0) = some blob ∧
      u.rdN Obj.VD_STATE 0 g = 2 ∧
      u.out = s.out ++ [.result path (Obj.VD_PROGRAM.key g 0) 0]) ∧
  (∀ (s : State) (t : Nat) (path : Path) (g : Fin 12) (blob : List Byte),
    s.checkAccess path Obj.VD_PROGRAM g 0 blob.length = 0 →
    s.vdCheck g blob ≠ 0 →
    ∃ u, exec (.vdProgramWrite t path g blob) s = .next u ∧
      u.rdN Obj.VD_REFUSE_CODE 0 g = s.vdCheck g blob ∧
      u.rdN Obj.VD_STATE 0 g = 3 ∧
      u.epochs = s.epochs ∧
      u.out.getLast? = some (.result path (Obj.VD_PROGRAM.key g 0) (if s.vdCheck g blob = 7 then 8 else 5))) ∧
  (∀ (s : State) (t : Nat) (path : Path) (g : Fin 12) (first : Fin 256) (values : List Byte),
    values.length = 4 →
    s.checkAccess path Obj.CLASS_TABLE g first 4 = 0 →
    classEntryOk first (leAt values 0 4) = true →
    (s.vdg g).tableHold = none →
    ∃ u, exec (.classTableWrite t path g first values) s = .next u ∧
      find? u.epochs.staged (Obj.CLASS_TABLE.key g first) = some (leAt values 0 4) ∧
      u.out = s.out ++ [.result path (Obj.CLASS_TABLE.key g first) 0]) ∧
  (∀ (s : State) (t : Nat) (path : Path) (g : Fin 12) (first : Fin 256) (values : List Byte),
    values.length = 4 →
    s.checkAccess path Obj.CLASS_TABLE g first 4 = 0 →
    classEntryOk first (leAt values 0 4) = false →
    ∃ u, exec (.classTableWrite t path g first values) s = .next u ∧
      u.epochs = s.epochs ∧
      u.out = s.out ++ [.result path (Obj.CLASS_TABLE.key g first) 5]) ∧
  (∀ (s : State) (t : Nat) (path : Path) (g : Fin 12) (first : Fin 256) (values : List Byte) (l : Nat),
    values.length = 4 →
    s.checkAccess path Obj.CLASS_TABLE g first 4 = 0 →
    classEntryOk first (leAt values 0 4) = true →
    (s.vdg g).tableHold = some l →
    ∃ u, exec (.classTableWrite t path g first values) s = .next u ∧
      u.rdN Obj.VD_REFUSE_CODE 0 g = 7 ∧
      u.epochs = s.epochs ∧
      u.out.getLast? = some (.result path (Obj.CLASS_TABLE.key g first) 8)) ∧
  (∀ (s : State) (t : Nat) (g : Fin 12) (l : Nat),
    (s.vdg g).progHold = some l →
    l ≤ s.presentLine g →
    ∃ u, exec (.programHoldEnd t g) s = .next u ∧
      (u.vdg g).progHold = none ∧
      u.epochs = s.epochs) ∧
  (∀ (s : State) (t : Nat) (g : Fin 12) (l : Nat),
    (s.vdg g).progHold = some l →
    s.presentLine g < l →
    ∃ u, exec (.programHoldEnd t g) s = .next u ∧
      (u.vdg g).progHold = some l)

/-- R216, R219, R230, R231, R233 (OBJECT_ACCEPT): in ARMED a judged object leaves the queue and only counts; in RUN with room
in both windows and no summary to come, whatever its verdict, it takes the next SEQ, its record enters the ledger and
ALM_OBJECTS counts; one whose verdict rejects it takes the next ORDER_ID, and its order enters the ledger with its SEQ; of a
group without a program, whose verdict is accept, and without a half of a neighbour, its outcome counts and no order is
made; with no room, and a policy other than 0, it counts as not accepted, no record or order is made and the next summary
covers it; while records are issued anew none is taken. -/
def Obligations.Acceptance : Prop :=
  (∀ (s : State) (t : Nat) (j : Judged) (r : List Judged),
    s.judged = j :: r →
    s.bit Obj.LG_STATUS 0 0 lgReissuing = false →
    s.mode = stArmed →
    ∃ u, exec (.objectAccept t) s = .next u ∧
      u.judged = r ∧
      u.rdN Obj.VD_ARMED_OBJECTS = satCount (s.rdN Obj.VD_ARMED_OBJECTS) 1 ∧
      u.lg = s.lg ∧
      u.bank = s.bank ∧
      u.out = s.out) ∧
  (∀ (s : State) (t : Nat) (j : Judged) (r : List Judged),
    s.judged = j :: r →
    s.bit Obj.LG_STATUS 0 0 lgReissuing = false →
    s.mode = stRun →
    j.flags.testBit 2 = false →
    j.taken = [] →
    s.rdEpochBlob j.group j.epoch Obj.VD_PROGRAM j.group = [] →
    s.lg.missed = none →
    s.recRoom = true →
    ∃ u, exec (.objectAccept t) s = .next u ∧
      u.judged = r ∧
      u.rdN Obj.LG_NEXT_SEQ = s.rdN Obj.LG_NEXT_SEQ + 1 ∧
      u.lg.records.map (fun e => e.seq) = s.lg.records.map (fun e => e.seq) ++ [s.rdN Obj.LG_NEXT_SEQ] ∧
      u.lg.orders = s.lg.orders ∧
      u.rdN Obj.VD_OUTCOME_COUNT 0 0 = satCount (s.rdN Obj.VD_OUTCOME_COUNT 0 0) 1 ∧
      u.bank = s.bank) ∧
  (∀ (s : State) (t : Nat) (j : Judged) (r : List Judged),
    s.judged = j :: r →
    s.bit Obj.LG_STATUS 0 0 lgReissuing = false →
    s.mode = stRun ∨ s.mode = stHold →
    s.lg.missed = none →
    s.recRoom = true →
    0 < s.orderRoom →
    ∃ u, exec (.objectAccept t) s = .next u ∧
      u.judged = r ∧
      u.rdN Obj.LG_NEXT_SEQ = s.rdN Obj.LG_NEXT_SEQ + 1 ∧
      u.lg.records.map (fun e => e.seq) = s.lg.records.map (fun e => e.seq) ++ [s.rdN Obj.LG_NEXT_SEQ] ∧
      u.rdN Obj.ALM_OBJECTS = satCount (s.rdN Obj.ALM_OBJECTS) 1) ∧
  (∀ (s : State) (t : Nat) (j : Judged) (r : List Judged),
    s.judged = j :: r →
    s.bit Obj.LG_STATUS 0 0 lgReissuing = false →
    s.mode = stRun →
    s.lg.missed = none →
    s.recRoom = true →
    0 < s.orderRoom →
    (s.judge { j with flags := s.flagsBefore j }).2.outcome ≠ 0 →
    ∃ u, exec (.objectAccept t) s = .next u ∧
      u.rdN Obj.LG_NEXT_ORDER = s.rdN Obj.LG_NEXT_ORDER + 1 ∧
      u.lg.orders.map (fun o => (o.orderId, o.seq)) = s.lg.orders.map (fun o => (o.orderId, o.seq)) ++ [(s.rdN
        Obj.LG_NEXT_ORDER, s.rdN Obj.LG_NEXT_SEQ)]) ∧
  (∀ (s : State) (t : Nat) (j : Judged) (r : List Judged),
    s.judged = j :: r →
    s.bit Obj.LG_STATUS 0 0 lgReissuing = false →
    s.mode = stRun →
    j.flags.testBit 2 = false →
    s.rdEpochBlob j.group j.epoch Obj.VD_PROGRAM j.group = [] →
    s.recRoom = false →
    s.rdN Obj.VD_OVERFLOW_POLICY ≠ 0 →
    ∃ u, exec (.objectAccept t) s = .next u ∧
      u.judged = r ∧
      u.rdN Obj.VD_NOT_ACCEPTED = satCount (s.rdN Obj.VD_NOT_ACCEPTED) 1 ∧
      u.rdN Obj.LG_NEXT_SEQ = s.rdN Obj.LG_NEXT_SEQ ∧
      u.lg.records = s.lg.records ∧
      u.lg.missed.isSome = true ∧
      u.bank = s.bank) ∧
  (∀ (s : State) (t : Nat),
    s.bit Obj.LG_STATUS 0 0 lgReissuing = true →
    ∃ u, exec (.objectAccept t) s = .next u ∧
      u = s.at t)

/-- R203, R274 (TAKEN, TAKEN_ACK): over a link that is up, TAKEN that names a half of this unit drops its group and counts it
as yielded, but for halves of it that TAKEN does not name, which go on waiting, one that names none changes no group and is
answered with 1; a TAKEN_ACK that refuses counts, and the order that waited for that link waits for it no more; one that
does not refuse changes nothing. -/
def Obligations.TakenMessages : Prop :=
  (∀ (s : State) (t : Nat) (link : Fin 2) (seq : Nat) (parts : List Nat) (g : SeamGroup),
    s.chUp link = true →
    s.namedGroup link parts = some g →
    g.halves.all (fun h => h.link.isSome || h.named link parts) = true →
    ∃ u, exec (.taken t link seq parts []) s = .next u ∧
      u.st.groups = s.st.groups.erase g ∧
      u.rdN Obj.ST_YIELDED = satCount (s.rdN Obj.ST_YIELDED) 1 ∧
      u.judged = s.judged) ∧
  (∀ (s : State) (t : Nat) (link : Fin 2) (seq : Nat) (parts : List Nat) (g : SeamGroup),
    s.chUp link = true →
    s.namedGroup link parts = some g →
    g.halves.all (fun h => h.link.isSome || h.named link parts) = false →
    ∃ u, exec (.taken t link seq parts []) s = .next u ∧
      u.st.groups = s.st.groups.erase g ++ [{ g with
        halves := g.halves.filter (fun h => h.link.isNone && !h.named link parts)
        waiting := some (g.waiting.getD (max s.now t)) }] ∧
      u.rdN Obj.ST_YIELDED = satCount (s.rdN Obj.ST_YIELDED) 1 ∧
      u.judged = s.judged) ∧
  (∀ (s : State) (t : Nat) (link : Fin 2) (seq : Nat) (parts : List Nat) (orders : List (List Byte)),
    s.chUp link = true →
    (s.chp link).stalled = [] →
    (s.chp link).fits (toLe 8 (parts.headD 0) ++ [1]) = true →
    s.namedGroup link parts = none →
    ∃ u, exec (.taken t link seq parts orders) s = .next u ∧
      u.st = s.st ∧
      u.bank = s.bank ∧
      (u.chp link).replay.map (fun x => (x.cls, x.typ, x.payload)) = (s.chp link).replay.map (fun x => (x.cls, x.typ,
        x.payload)) ++ [(1, 3, toLe 8 (parts.headD 0) ++ [1])]) ∧
  (∀ (s : State) (t : Nat) (link : Fin 2) (part : Nat) (f : Flight),
    s.chUp link = true →
    s.bank.flights = [f] →
    f.named.contains (link.val, part) = true →
    f.remote.contains link.val = true →
    f.remote.filter (fun k => k != link.val) ≠ [] →
    ∃ u, exec (.takenAck t link part true) s = .next u ∧
      u.rdN Obj.ST_TAKEN_REFUSED = satCount (s.rdN Obj.ST_TAKEN_REFUSED) 1 ∧
      u.bank.flights.map (fun x => (x.id, x.remote)) = [(f.id, f.remote.filter (fun k => k != link.val))]) ∧
  (∀ (s : State) (t : Nat) (link : Fin 2) (part : Nat),
    ∃ u, exec (.takenAck t link part false) s = .next u ∧
      u = s.at t)

/-- R215: what each comparison code of a term tests; comparisons are signed, and AND is taken over the 64 bits that R214
widens both values to. -/
def Obligations.Comparisons : Prop :=
  (∀ (v c : Int),
    (vdTest 0 v c = true ↔ v < c) ∧
    (vdTest 1 v c = true ↔ v ≤ c) ∧
    (vdTest 2 v c = true ↔ v = c) ∧
    (vdTest 3 v c = true ↔ v ≠ c) ∧
    (vdTest 4 v c = true ↔ v ≥ c) ∧
    (vdTest 5 v c = true ↔ v > c) ∧
    (vdTest 6 v c = true ↔ BitVec.ofInt 64 v &&& BitVec.ofInt 64 c ≠ 0) ∧
    (vdTest 7 v c = true ↔ BitVec.ofInt 64 v &&& BitVec.ofInt 64 c = 0))

/-- R251, R255, R275 (FRAME_FREEZE, FRAME_TRANSMIT, PRECHARGE_PERIODIC): once a frame's freeze time has come it joins the
link's frozen frames and no earlier one can freeze again; the oldest frozen frame goes out, without on edges while its GATE
is set, and not before its start; in RUN an able idle valve with mode 2 gets a pre-charge in the first frame that has not
frozen. -/
def Obligations.ValveFrames : Prop :=
  (∀ (s : State) (t : Nat) (link : Fin 32) (k : Nat),
    s.linkEnabled link = true →
    (s.vbl link).next ≤ k →
    s.freezeTime link k ≤ (max s.now t : Nat) →
    s.bank.pulses = [] →
    ∃ u, exec (.frameFreeze t link k) s = .next u ∧
      (u.vbl link).next = k + 1 ∧
      (u.vbl link).frozen.map (fun f => f.k) = (s.vbl link).frozen.map (fun f => f.k) ++ [k] ∧
      (u.vbl link).sent = (s.vbl link).sent) ∧
  (∀ (s : State) (t : Nat) (link : Fin 32) (k : Nat),
    k < (s.vbl link).next →
    ∃ u, exec (.frameFreeze t link k) s = .next u ∧
      u = s.at t) ∧
  (∀ (s : State) (t : Nat) (link : Fin 32) (f : Frame) (r : List Frame),
    (s.vbl link).frozen = f :: r →
    5000 * f.k ≤ max s.now t + 20 * f.lead + s.rdN Obj.EJ_LINK_DELAY_NS 0 link →
    ∃ u, exec (.frameTransmit t link) s = .next u ∧
      (u.vbl link).frozen = r ∧
      (u.vbl link).sent.map (fun x => x.k) = (s.vbl link).sent.map (fun x => x.k) ++ [f.k] ∧
      u.out = s.out ++ [.frame link (frameBytes link (s.frameGate link) (s.mode == stSave) (s.sentFrame link f))] ∧
      u.dict = s.dict) ∧
  (∀ (s : State) (t : Nat) (link : Fin 32) (f : Frame) (r : List Frame),
    (s.vbl link).frozen = f :: r →
    max s.now t + 20 * f.lead + s.rdN Obj.EJ_LINK_DELAY_NS 0 link < 5000 * f.k →
    ∃ u, exec (.frameTransmit t link) s = .next u ∧
      u = s.at t) ∧
  (∀ (s : State) (t : Nat) (valve : Fin 2048) (on : Int),
    s.rdN Obj.EJ_VALVE_PC_MODE 0 valve = 2 →
    s.mode = stRun →
    s.gated = false →
    s.valveAble valve = true →
    (∀ p, (s.valve valve).periodic = some p → p + s.rdN Obj.EJ_PC_PERIOD_MS * 1000000 ≤ max s.now t) →
    on = 5000 * ((s.at t).openFrame (valve / 64) : Int) →
    (∀ x, (s.valve valve).lastOff = some x → x + s.rdN Obj.EJ_PC_IDLE_NS ≤ on) →
    (∀ q ∈ s.pulsesOf valve, q.timed = true → on + (s.chargeWidth valve).1 + s.rdN Obj.EJ_PC_IDLE_NS ≤ q.on ∨ q.off + s.rdN
      Obj.EJ_PC_IDLE_NS ≤ on) →
    (s.chargeWidth valve).1 ≠ 0 →
    (s.pulsesOf valve).length < 32 →
    ∃ u, exec (.prechargePeriodic t valve) s = .next u ∧
      u.bank.pulses.map (fun p => (p.valve, p.pre, p.on, p.off)) = s.bank.pulses.map (fun p => (p.valve, p.pre, p.on,
        p.off)) ++ [(valve.val, true, on, on + (s.chargeWidth valve).1)] ∧
      (u.valve valve).periodic = some (max s.now t) ∧
      u.dict = s.dict)

/-- R280, R283, R284 (ECHO, ECHO_TIMEOUT, STATUS_TIMEOUT), of a bank with no order in flight: an echo of a frame without edges
clears it; an echo that names an on edge marks it executed; one with BAD_FRAME counts, and its frame counts as echoed, if it
still waits; one that fails its CRC counts as an error of the link and answers no frame; a frame whose echo is missing
leaves, beginning a run or joining that of the frame before it, and the third in a row, or 3 ms without STATUS, takes the
link down. -/
def Obligations.ValveEchoes : Prop :=
  (∀ (s : State) (t : Nat) (link : Fin 32) (f : Frame) (frame flags executed : Nat),
    (s.vbl link).sent = [f] →
    f.k % 65536 = frame →
    f.echoed = false →
    f.edges = [] →
    flags.testBit 0 = false →
    s.linkUp link = true →
    s.bank.flights = [] →
    ∃ u, exec (.echo t link frame flags executed true) s = .next u ∧
      (u.vbl link).sent = [] ∧
      (u.vbl link).good = (s.vbl link).good + 1 ∧
      u.bit Obj.EJ_LINK_STATUS 0 link vbWatchdog = flags.testBit 2) ∧
  (∀ (s : State) (t : Nat) (link : Fin 32) (f : Frame) (e : FrameEdge) (p : Pulse) (frame flags executed : Nat),
    (s.vbl link).sent = [f] →
    f.k % 65536 = frame →
    f.echoed = false →
    f.edges = [e] →
    e.on = true →
    executed.testBit e.channel = true →
    s.bank.pulses = [p] →
    p.id = e.pulse →
    p.offEdge = .planned →
    flags.testBit 0 = false →
    s.linkUp link = true →
    s.bank.flights = [] →
    ∃ u, exec (.echo t link frame flags executed true) s = .next u ∧
      (u.vbl link).sent = [] ∧
      u.bank.pulses = [{ p with onEdge := .executed }]) ∧
  (∀ (s : State) (t : Nat) (link : Fin 32) (f : Frame) (frame flags executed : Nat),
    (s.vbl link).sent = [f] →
    f.k % 65536 = frame →
    f.echoed = false →
    f.edges = [] →
    flags.testBit 0 = true →
    (s.vbl link).errors = [] →
    s.bank.flights = [] →
    ∃ u, exec (.echo t link frame flags executed true) s = .next u ∧
      (u.vbl link).sent = [{ f with echoed := true }] ∧
      u.rdN Obj.EJ_LINK_BAD_FRAMES 0 link = satCount (s.rdN Obj.EJ_LINK_BAD_FRAMES 0 link) 1 ∧
      (u.vbl link).good = 0) ∧
  (∀ (s : State) (t : Nat) (link : Fin 32) (frame flags executed : Nat),
    (s.vbl link).sent = [] →
    flags.testBit 0 = true →
    (s.vbl link).errors = [] →
    ∃ u, exec (.echo t link frame flags executed true) s = .next u ∧
      u.rdN Obj.EJ_LINK_BAD_FRAMES 0 link = satCount (s.rdN Obj.EJ_LINK_BAD_FRAMES 0 link) 1 ∧
      (u.vbl link).errors = [max s.now t] ∧
      u.bank.pulses = s.bank.pulses) ∧
  (∀ (s : State) (t : Nat) (link : Fin 32) (frame flags executed : Nat),
    (s.vbl link).errors = [] →
    ∃ u, exec (.echo t link frame flags executed false) s = .next u ∧
      u.rdN Obj.EJ_LINK_CRC_ERRORS 0 link = satCount (s.rdN Obj.EJ_LINK_CRC_ERRORS 0 link) 1 ∧
      (u.vbl link).sent = (s.vbl link).sent ∧
      (u.vbl link).good = 0 ∧
      (u.vbl link).errors = [max s.now t] ∧
      u.linkUp link = s.linkUp link) ∧
  (∀ (s : State) (t : Nat) (link : Fin 32) (f : Frame) (r : List Frame),
    (s.vbl link).sent = f :: r →
    5000 * (f.k + 1) + s.rdN Obj.EJ_ECHO_TIMEOUT_NS ≤ max s.now t →
    f.echoed = false →
    f.edges = [] →
    (s.vbl link).missedAt.any (fun k => k + 1 == f.k) = false →
    s.bank.flights = [] →
    ∃ u, exec (.echoTimeout t link) s = .next u ∧
      (u.vbl link).sent = r.filter (fun g => g.k != f.k) ∧
      (u.vbl link).missing = 1 ∧
      (u.vbl link).missedAt = some f.k ∧
      u.dict = s.dict) ∧
  (∀ (s : State) (t : Nat) (link : Fin 32) (f : Frame) (r : List Frame) (m : Nat),
    (s.vbl link).sent = f :: r →
    5000 * (f.k + 1) + s.rdN Obj.EJ_ECHO_TIMEOUT_NS ≤ max s.now t →
    f.echoed = false →
    f.edges = [] →
    (s.vbl link).missedAt = some m →
    m + 1 = f.k →
    (s.vbl link).missing < 2 →
    s.bank.flights = [] →
    ∃ u, exec (.echoTimeout t link) s = .next u ∧
      (u.vbl link).sent = r.filter (fun g => g.k != f.k) ∧
      (u.vbl link).missing = (s.vbl link).missing + 1 ∧
      (u.vbl link).late = some (max s.now t) ∧
      u.dict = s.dict) ∧
  (∀ (s : State) (t : Nat) (link : Fin 32) (f : Frame) (r : List Frame) (m : Nat),
    (s.vbl link).sent = f :: r →
    5000 * (f.k + 1) + s.rdN Obj.EJ_ECHO_TIMEOUT_NS ≤ max s.now t →
    f.echoed = false →
    f.edges = [] →
    (s.vbl link).missedAt = some m →
    m + 1 = f.k →
    2 ≤ (s.vbl link).missing →
    s.linkUp link = true →
    s.bank.flights = [] →
    s.bank.pulses = [] →
    ∃ u, exec (.echoTimeout t link) s = .next u ∧
      u.linkUp link = false ∧
      u.rdN Obj.EJ_LINK_DOWN_COUNT 0 link = satCount (s.rdN Obj.EJ_LINK_DOWN_COUNT 0 link) 1) ∧
  (∀ (s : State) (t : Nat) (link : Fin 32),
    s.linkUp link = true →
    (s.vbl link).status + 3000000 ≤ max s.now t →
    s.bank.flights = [] →
    s.bank.pulses = [] →
    ∃ u, exec (.statusTimeout t link) s = .next u ∧
      u.linkUp link = false ∧
      u.bit Obj.EJ_LINK_STATUS 0 link vbDown = true ∧
      u.rdN Obj.EJ_LINK_DOWN_COUNT 0 link = satCount (s.rdN Obj.EJ_LINK_DOWN_COUNT 0 link) 1)

/-- R243, R281 to R283, R287 (VALVE_STATUS, PING, PING_RETURN, EJ_VALVE_STATE_WRITE, EJ_LINK_LEAD_WRITE): a STATUS without
error on an enabled link gives the temperatures of its 64 valves and the board word, and is when the link was last heard;
one whose CRC fails counts as a CRC error and changes no other object; a PING goes out on a link that is up when none did
for 1 s, and its return measures the delay, half the round trip less 100 ns rounded to the nearest; a write of
EJ_VALVE_STATE changes that valve's state and no other's, and one of EJ_LINK_LEAD_NS the lead, while every frame that has
frozen keeps its own; a refused write changes no object. -/
def Obligations.ValveBankLinks : Prop :=
  (∀ (s : State) (t : Nat) (link : Fin 32) (words : List Nat) (board : Nat),
    s.linkEnabled link = true →
    words.length = 64 →
    ∃ u, exec (.valveStatus t link words board true) s = .next u ∧
      u.rdN Obj.EJ_LINK_BOARD_WORD 0 link = board ∧
      (u.vbl link).heard = some (max s.now t) ∧
      (u.vbl link).status = max s.now t ∧
      (∀ i, i < 64 → u.rd Obj.EJ_VALVE_TEMP 0 (64 * link + i) = (fieldOf (words.getD i 0) 16 8 : Int) - 40)) ∧
  (∀ (s : State) (t : Nat) (link : Fin 32) (words : List Nat) (board : Nat),
    s.linkEnabled link = true →
    (s.vbl link).errors = [] →
    ∃ u, exec (.valveStatus t link words board false) s = .next u ∧
      u.rdN Obj.EJ_LINK_CRC_ERRORS 0 link = satCount (s.rdN Obj.EJ_LINK_CRC_ERRORS 0 link) 1 ∧
      (u.vbl link).errors = [max s.now t] ∧
      (∀ d k, k ≠ Obj.EJ_LINK_CRC_ERRORS.key 0 link → look u.dict d k = look s.dict d k) ∧
      (u.vbl link).heard = (s.vbl link).heard) ∧
  (∀ (s : State) (t : Nat) (link : Fin 32),
    s.linkUp link = true →
    (s.vbl link).ping.all (fun x => decide (x + 1000000000 ≤ max s.now t)) = true →
    ∃ u, exec (.ping t link) s = .next u ∧
      u.out = s.out ++ [.ping link] ∧
      (u.vbl link).ping = some (max s.now t) ∧
      (u.vbl link).pingOut = true ∧
      u.dict = s.dict) ∧
  (∀ (s : State) (t : Nat) (link : Fin 32) (x : Nat),
    (s.vbl link).ping = some x →
    max s.now t < x + 1000000000 →
    exec (.ping t link) s = .next (s.at t)) ∧
  (∀ (s : State) (t : Nat) (link : Fin 32) (sent : Nat),
    (s.vbl link).ping = some sent →
    (s.vbl link).pingOut = true →
    ∃ u, exec (.pingReturn t link) s = .next u ∧
      u.rdN Obj.EJ_LINK_DELAY_NS 0 link = (max s.now t - sent + 1) / 2 - 100 ∧
      (u.vbl link).pingOut = false ∧
      (∀ d k, k ≠ Obj.EJ_LINK_DELAY_NS.key 0 link → look u.dict d k = look s.dict d k)) ∧
  (∀ (s : State) (t : Nat) (path : Path) (valve : Fin 2048) (value : List Byte),
    s.checkWrite path Obj.EJ_VALVE_STATE 0 valve value = 0 →
    ∃ u, exec (.ejValveStateWrite t path valve value) s = .next u ∧
      u.rd Obj.EJ_VALVE_STATE 0 valve = Obj.EJ_VALVE_STATE.decodeValue value ∧
      .result path (Obj.EJ_VALVE_STATE.key 0 valve) 0 ∈ u.out ∧
      (∀ v, v < 2048 → v ≠ valve.val → u.rd Obj.EJ_VALVE_STATE 0 v = s.rd Obj.EJ_VALVE_STATE 0 v)) ∧
  (∀ (s : State) (t : Nat) (path : Path) (value : List Byte),
    s.checkWrite path Obj.EJ_LINK_LEAD_NS 0 0 value = 0 →
    ∃ u, exec (.ejLinkLeadWrite t path value) s = .next u ∧
      u.rd Obj.EJ_LINK_LEAD_NS = Obj.EJ_LINK_LEAD_NS.decodeValue value ∧
      u.bank = s.bank ∧
      u.out = s.out ++ [.result path (Obj.EJ_LINK_LEAD_NS.key 0 0) 0]) ∧
  (∀ (s : State) (t : Nat) (path : Path) (value : List Byte),
    s.checkWrite path Obj.EJ_LINK_LEAD_NS 0 0 value ≠ 0 →
    ∃ u, exec (.ejLinkLeadWrite t path value) s = .next u ∧
      u.dict = s.dict ∧
      u.out = s.out ++ [.result path (Obj.EJ_LINK_LEAD_NS.key 0 0) (s.checkWrite path Obj.EJ_LINK_LEAD_NS 0 0 value)])

/-- R261, R262, R588 (INTERLOCK_OPEN, ILK_LOOP_CLOSE, INTERLOCK_RELEASE), with no pulse planned: a source that opens blocks
the bank, counts, sends KILL on every enabled link, once for sources that open at the same time, and takes a unit in RUN to
HOLD; with the last source closed the time to release runs and the bank stays blocked; after EJ_ILK_CLOSE_MS the gate
releases, and only a unit with EJ_AUTO_RESUME that the interlock put into HOLD returns to RUN. -/
def Obligations.InterlockGate : Prop :=
  (∀ (s : State) (t : Nat) (source : Fin 4),
    (source.val = 3 → s.rdN Obj.EJ_ILK_PRESS_SOURCE ≠ 255) →
    s.ilkOpen source = false →
    s.mode = stRun →
    s.bank.pulses = [] →
    s.bank.flights = [] →
    ∃ u, exec (.interlockOpen t source) s = .next u ∧
      u.ilkOpen source = true ∧
      u.gated = true ∧
      u.rdN Obj.EJ_ILK_OPEN_COUNT 0 source = satCount (s.rdN Obj.EJ_ILK_OPEN_COUNT 0 source) 1 ∧
      u.mode = stHold ∧
      u.holdBy = 1 ∧
      u.bank.gateEvent = some (max s.now t) ∧
      (s.bank.gateEvent ≠ some (max s.now t) → ∀ l, l < 32 → s.linkEnabled l = true → .kill l ∈ u.out)) ∧
  (∀ (s : State) (t : Nat) (source : Fin 4),
    s.ilkOpen source = true →
    ∃ u, exec (.interlockOpen t source) s = .next u ∧
      u = s.at t) ∧
  (∀ (s : State) (t : Nat) (loop : Fin 3),
    s.rdN Obj.EJ_ILK_STATE = 2 ^ loop.val →
    ∃ u, exec (.ilkLoopClose t loop) s = .next u ∧
      u.ilkOpen loop = false ∧
      u.bank.closedAt = some (max s.now t) ∧
      u.gated = s.gated ∧
      u.mode = s.mode) ∧
  (∀ (s : State) (t : Nat) (c : Nat),
    s.bank.closedAt = some c →
    s.gated = true →
    c + s.rdN Obj.EJ_ILK_CLOSE_MS * 1000000 ≤ max s.now t →
    s.flag Obj.EJ_AUTO_RESUME = false →
    ∃ u, exec (.interlockRelease t) s = .next u ∧
      u.gated = false ∧
      u.mode = s.mode) ∧
  (∀ (s : State) (t : Nat) (c : Nat),
    s.bank.closedAt = some c →
    s.gated = true →
    c + s.rdN Obj.EJ_ILK_CLOSE_MS * 1000000 ≤ max s.now t →
    s.flag Obj.EJ_AUTO_RESUME = true →
    s.mode = stHold →
    s.holdBy = 1 →
    s.rdN Obj.EJ_ILK_STATE = 0 →
    s.tim.unlocked = false →
    s.bit Obj.MER_PORT_STATUS 0 0 0 = false →
    ∃ u, exec (.interlockRelease t) s = .next u ∧
      u.gated = false ∧
      u.mode = stRun) ∧
  (∀ (s : State) (t : Nat) (c : Nat),
    s.bank.closedAt = some c →
    max s.now t < c + s.rdN Obj.EJ_ILK_CLOSE_MS * 1000000 →
    ∃ u, exec (.interlockRelease t) s = .next u ∧
      u = s.at t)

/-- R248, R258, R271, R273, R274 (REMOTE_ORDER, SUB_RESULT, REMOTE_WAIT_TIMEOUT, SURFACE_WAIT_TIMEOUT), of a bank that holds
at most the one order: a remote order counts as received and is planned while a free slot remains for it, and is refused and
counted otherwise; a result joins the order that waits for it, and the last one closes it; an order whose results do not
come counts them as unknown and closes; a surface order that has waited too long with nothing begun closes late. -/
def Obligations.RemoteOrders : Prop :=
  (∀ (s : State) (t : Nat) (link : Fin 2) (payload : List Byte),
    s.chUp link = true →
    payloadOk 64 payload = true →
    payload.getD 52 0 = 1 ∨ payload.getD 52 0 = 2 →
    s.orderRoom < 8192 →
    s.bank.flights = [] →
    s.bank.pulses = [] →
    ∃ u, exec (.remoteOrder t link payload) s = .next u ∧
      u.rdN Obj.EJ_REMOTE_RECEIVED = satCount (s.rdN Obj.EJ_REMOTE_RECEIVED) 1 ∧
      u.rdN Obj.EJ_AUX_REFUSED = s.rdN Obj.EJ_AUX_REFUSED ∧
      u.rdN Obj.EJ_QUEUE_MAX_SEEN = max 1 (s.rdN Obj.EJ_QUEUE_MAX_SEEN) ∧
      u.lg = s.lg) ∧
  (∀ (s : State) (t : Nat) (link : Fin 2) (payload : List Byte),
    s.chUp link = true →
    payloadOk 64 payload = true →
    payload.getD 52 0 = 1 ∨ payload.getD 52 0 = 2 →
    8192 - s.bank.flights.length ≤ s.orderRoom →
    ∃ u, exec (.remoteOrder t link payload) s = .next u ∧
      u.rdN Obj.EJ_REMOTE_RECEIVED = satCount (s.rdN Obj.EJ_REMOTE_RECEIVED) 1 ∧
      u.rdN Obj.EJ_AUX_REFUSED = satCount (s.rdN Obj.EJ_AUX_REFUSED) 1 ∧
      u.bank = s.bank) ∧
  (∀ (s : State) (t : Nat) (link : Fin 2) (payload : List Byte) (f : Flight),
    s.chUp link = true →
    payloadOk 32 payload = true →
    s.bank.flights = [f] →
    f.kind = .own →
    f.orderId = leAt payload 0 8 →
    f.remote.contains link.val = true →
    f.remote.filter (fun k => k != link.val) ≠ [] →
    ∃ u, exec (.subResult t link payload) s = .next u ∧
      u.bank.flights = [f.joinResult link payload] ∧
      u.lg = s.lg ∧
      u.dict = s.dict) ∧
  (∀ (s : State) (t : Nat) (link : Fin 2) (payload : List Byte) (f : Flight),
    s.chUp link = true →
    payloadOk 32 payload = true →
    s.bank.flights = [f] →
    s.bank.pulses = [] →
    f.kind = .own →
    f.orderId = leAt payload 0 8 →
    f.remote = [link.val] →
    ∃ u, exec (.subResult t link payload) s = .next u ∧
      u.bank.flights = [] ∧
      u.lg.closed = s.lg.closed ++ [f.orderId]) ∧
  (∀ (s : State) (t : Nat) (f : Flight),
    s.bank.flights = [f] →
    s.bank.pulses = [] →
    f.kind = .own →
    f.remote ≠ [] →
    (s.at t).remoteOverdue f = true →
    ∃ u, exec (.remoteWaitTimeout t f.orderId) s = .next u ∧
      u.bank.flights = [] ∧
      u.rdN Obj.EJ_REMOTE_UNKNOWN = satCount (s.rdN Obj.EJ_REMOTE_UNKNOWN) f.remote.length ∧
      u.lg.closed = s.lg.closed ++ [f.orderId]) ∧
  (∀ (s : State) (t : Nat) (f : Flight),
    f ∈ s.bank.flights →
    f.transit.surface = true →
    f.accepted + s.rdN Obj.EJ_SURFACE_MAX_WAIT_MS * 1000000 ≤ max s.now t →
    f.fired = [] →
    (∀ p ∈ s.bank.pulses, p.orders.contains f.id = true → p.pre = true ∨ p.waiting = true) →
    ∃ u, exec (.surfaceWaitTimeout t) s = .next u ∧
      u.bank.pulses.all (fun p => p.pre || !p.orders.contains f.id) = true ∧
      u.mem = s.mem) ∧
  (∀ (s : State) (t : Nat) (f : Flight) (p : Pulse),
    s.bank.flights = [f] →
    s.bank.pulses = [p] →
    f.kind = .own →
    f.transit.surface = true →
    f.accepted + s.rdN Obj.EJ_SURFACE_MAX_WAIT_MS * 1000000 ≤ max s.now t →
    f.fired = [] →
    f.causes = [] →
    f.remote = [] →
    f.remoteOk = false →
    p.orders = [f.id] →
    p.pre = false →
    p.waiting = true →
    ∃ u, exec (.surfaceWaitTimeout t) s = .next u ∧
      u.bank.pulses = [] ∧
      u.bank.flights = [] ∧
      u.lg.closed = s.lg.closed ++ [f.orderId] ∧
      u.rdN Obj.EJ_OUTCOME_COUNT 0 2 = satCount (s.rdN Obj.EJ_OUTCOME_COUNT 0 2) 1)

/-- R304, R305, R307, R335, R340, R404 (LEDGER_COMMIT, RECORD_WRITE, OUTCOME_WRITE, RING_IRQ_TIMEOUT): where the channels of
the copies run and serve it, the oldest record that waits is stored in both copies, unless an order entry has waited longer,
and else the oldest order entry is; in a reset of a copy's channel nothing is stored; over a ring that is open (the link up,
a base set, no re-issue) a stored record goes to the slot of its SEQ and becomes the head, and none goes before it is
stored; the outcome of the order that closed first goes to its slot once the record of its SEQ is written and not before;
the writes of a ring that wait raise its vector when its time has passed: at once over an unmasked vector and a link that is
up, and as a pending vector while it is masked. -/
def Obligations.LedgerRings : Prop :=
  (∀ (s : State) (t : Nat) (e : LedgerRecord),
    s.lg.records.find? (fun x => !x.stored) = some e →
    s.lg.orders.all (fun o => o.stored || decide (e.since ≤ o.since)) = true →
    s.copiesRun = true →
    (s.at t).dramServes ((s.at t).ledgerRequest e.since) = true →
    ∃ u, exec (.ledgerCommit t) s = .next u ∧
      u.lg.records.map (fun x => (x.seq, x.stored, x.record)) = s.lg.records.map (fun x => if x.seq = e.seq then (x.seq,
        true, e.record) else (x.seq, x.stored, x.record)) ∧
      u.lg.orders = s.lg.orders ∧
      (s.flag Obj.LG_MIRROR_ENABLE = false → u.dict = s.dict ∧ u.out = s.out)) ∧
  (∀ (s : State) (t : Nat) (o : LedgerOrder),
    s.lg.records.all (fun e => e.stored) = true →
    oldestOrder (s.lg.orders.filter (fun x => !x.stored)) = some o →
    s.copiesRun = true →
    (s.at t).dramServes ((s.at t).ledgerRequest o.since) = true →
    ∃ u, exec (.ledgerCommit t) s = .next u ∧
      u.lg.orders.map (fun x => (x.orderId, x.stored)) = s.lg.orders.map (fun x => (x.orderId, x.orderId == o.orderId ||
        x.stored)) ∧
      u.lg.records = s.lg.records) ∧
  (∀ (s : State) (t : Nat),
    s.copiesRun = false →
    exec (.ledgerCommit t) s = .next (s.at t)) ∧
  (∀ (s : State) (t : Nat) (e : LedgerRecord),
    s.lg.records.find? (fun x => !x.written) = some e →
    s.ringOpen Obj.REC_RING_BASE = true →
    e.stored = true →
    ∃ u, exec (.recordWrite t) s = .next u ∧
      u.rdN Obj.REC_HEAD_SEQ = e.seq ∧
      u.rdN Obj.REC_WRITTEN = satCount (s.rdN Obj.REC_WRITTEN) 1 ∧
      u.lg.records = s.lg.records.map (fun x => if x.seq = e.seq then { x with written := true } else x) ∧
      u.lg.orders = s.lg.orders ∧
      (∀ w ∈ hostWrites (s.rdN Obj.REC_RING_BASE + 128 * (e.seq % 2 ^ s.rdN Obj.REC_RING_LOG2)) e.record, w ∈ u.out)) ∧
  (∀ (s : State) (t : Nat) (e : LedgerRecord),
    s.lg.records.find? (fun x => !x.written) = some e →
    e.stored = false →
    ∃ u, exec (.recordWrite t) s = .next u ∧
      u = s.at t) ∧
  (∀ (s : State) (t : Nat) (id : Nat) (r : List Nat) (o : LedgerOrder),
    s.lg.closed = id :: r →
    s.lg.orders.find? (fun x => x.orderId == id) = some o →
    s.ringOpen Obj.OUT_RING_BASE = true →
    o.seq ≤ s.rdN Obj.REC_HEAD_SEQ →
    ∃ u, exec (.outcomeWrite t) s = .next u ∧
      u.rdN Obj.OUT_WRITTEN = satCount (s.rdN Obj.OUT_WRITTEN) 1 ∧
      u.lg.closed = r.filter (fun x => x != id) ∧
      (∀ w ∈ hostWrites (s.rdN Obj.OUT_RING_BASE + 32 * (id % 2 ^ s.rdN Obj.OUT_RING_LOG2)) o.outcome, w ∈ u.out)) ∧
  (∀ (s : State) (t : Nat) (id : Nat) (r : List Nat) (o : LedgerOrder),
    s.lg.closed = id :: r →
    s.lg.orders.find? (fun x => x.orderId == id) = some o →
    s.rdN Obj.REC_HEAD_SEQ < o.seq →
    ∃ u, exec (.outcomeWrite t) s = .next u ∧
      u = s.at t) ∧
  (∀ (s : State) (t : Nat),
    s.lg.recIrq.count ≠ 0 →
    s.lg.recIrq.since + s.rdN Obj.REC_IRQ_NS ≤ max s.now t →
    s.cxl.linkUp = true →
    s.cxl.unmasked.contains 1 = true →
    ∃ u, exec (.ringIrqTimeout t false) s = .next u ∧
      u.lg.recIrq.count = 0 ∧
      u.lg.outIrq = s.lg.outIrq ∧
      u.out = s.out ++ [.msix 1]) ∧
  (∀ (s : State) (t : Nat),
    s.lg.outIrq.count ≠ 0 →
    s.lg.outIrq.since + s.rdN Obj.OUT_IRQ_NS ≤ max s.now t →
    s.cxl.unmasked.contains 2 = false →
    ∃ u, exec (.ringIrqTimeout t true) s = .next u ∧
      u.lg.outIrq.count = 0 ∧
      u.cxl.pendingVec.contains 2 = true ∧
      u.out = s.out)

/-- R306, R341, R370 (REC_ACK_SEQ_WRITE, OUT_ACK_ORDER_WRITE, REC_ACK, OUT_ACK): an acknowledged SEQ or ORDER_ID up to what
has been written is taken and frees the places up to it; one beyond it or back is refused and counted and frees none; a low
half is held until the high half completes it. -/
def Obligations.RingAcknowledgements : Prop :=
  (∀ (s : State) (t : Nat) (path : Path) (value : List Byte),
    s.checkAccess path Obj.REC_ACK_SEQ 0 0 value.length = 0 →
    s.rdN Obj.REC_ACK_SEQ ≤ leNat value →
    leNat value ≤ s.rdN Obj.REC_HEAD_SEQ →
    ∃ u, exec (.recAckSeqWrite t path value) s = .next u ∧
      u.rdN Obj.REC_ACK_SEQ = leNat value ∧
      u.lg.records = s.lg.records.filter (fun e => decide (leNat value < e.seq)) ∧
      u.out.getLast? = some (.result path (Obj.REC_ACK_SEQ.key 0 0) 0)) ∧
  (∀ (s : State) (t : Nat) (path : Path) (value : List Byte),
    s.checkAccess path Obj.REC_ACK_SEQ 0 0 value.length = 0 →
    s.rdN Obj.REC_HEAD_SEQ < leNat value ∨ leNat value < s.rdN Obj.REC_ACK_SEQ →
    ∃ u, exec (.recAckSeqWrite t path value) s = .next u ∧
      u.rdN Obj.RING_ACK_REFUSED = satCount (s.rdN Obj.RING_ACK_REFUSED) 1 ∧
      u.lg = s.lg ∧
      u.out = s.out ++ [.result path (Obj.REC_ACK_SEQ.key 0 0) 5]) ∧
  (∀ (s : State) (t : Nat) (path : Path) (value : List Byte),
    s.checkAccess path Obj.OUT_ACK_ORDER 0 0 value.length = 0 →
    s.rdN Obj.OUT_ACK_ORDER ≤ leNat value →
    leNat value < s.rdN Obj.OUT_LOW_ORDER →
    ∃ u, exec (.outAckOrderWrite t path value) s = .next u ∧
      u.rdN Obj.OUT_ACK_ORDER = leNat value ∧
      u.lg.orders = s.lg.orders.filter (fun e => decide (leNat value < e.orderId)) ∧
      u.out.getLast? = some (.result path (Obj.OUT_ACK_ORDER.key 0 0) 0)) ∧
  (∀ (s : State) (t : Nat) (path : Path) (value : List Byte),
    s.checkAccess path Obj.OUT_ACK_ORDER 0 0 value.length = 0 →
    s.rdN Obj.OUT_LOW_ORDER ≤ leNat value ∨ leNat value < s.rdN Obj.OUT_ACK_ORDER →
    ∃ u, exec (.outAckOrderWrite t path value) s = .next u ∧
      u.rdN Obj.RING_ACK_REFUSED = satCount (s.rdN Obj.RING_ACK_REFUSED) 1 ∧
      u.lg = s.lg ∧
      u.out = s.out ++ [.result path (Obj.OUT_ACK_ORDER.key 0 0) 5]) ∧
  (∀ (s : State) (t : Nat) (v : Nat),
    s.rdN Obj.REC_ACK_SEQ ≤ v →
    v ≤ s.rdN Obj.REC_HEAD_SEQ →
    ∃ u, exec (.recAck t (.whole v)) s = .next u ∧
      u.rdN Obj.REC_ACK_SEQ = v ∧
      u.lg.records = s.lg.records.filter (fun e => decide (v < e.seq))) ∧
  (∀ (s : State) (t : Nat) (v : Nat),
    ∃ u, exec (.recAck t (.low v)) s = .next u ∧
      u.lg.recLow = some v ∧
      u.lg.records = s.lg.records ∧
      u.dict = s.dict) ∧
  (∀ (s : State) (t : Nat) (v l : Nat),
    s.lg.outLow = some l →
    s.rdN Obj.OUT_ACK_ORDER ≤ v * 2 ^ 32 + l →
    v * 2 ^ 32 + l < s.rdN Obj.OUT_LOW_ORDER →
    ∃ u, exec (.outAck t (.high v)) s = .next u ∧
      u.rdN Obj.OUT_ACK_ORDER = v * 2 ^ 32 + l ∧
      u.lg.orders = s.lg.orders.filter (fun e => decide (v * 2 ^ 32 + l < e.orderId)) ∧
      u.lg.outLow = none) ∧
  (∀ (s : State) (t : Nat) (v : Nat),
    s.rdN Obj.OUT_LOW_ORDER ≤ v ∨ v < s.rdN Obj.OUT_ACK_ORDER →
    ∃ u, exec (.outAck t (.whole v)) s = .next u ∧
      u.rdN Obj.RING_ACK_REFUSED = satCount (s.rdN Obj.RING_ACK_REFUSED) 1 ∧
      u.lg = s.lg)

/-- R311, R312, R343, R344, R346, R347 (THUMB_WRITE, LEDGER_COPY_DONE, REISSUE, LG_DISCARD, MIRROR_ENTRY, MIRROR_CONFIRM,
MIRROR_CONFIRM_TIMEOUT): the first thumbnail whose last row is stored, once its DRAM channels serve it (R404), leaves the
queue and counts; a copied ledger names its new channel and is double again; after a reset, once the CXL island and its link
are there, the re-issue ends with the same records and orders in the window, and in a unit with a record ring, no outcome
ring and no order in flight the records are written again in full and the head follows; a discard empties the ledger in INIT
and is refused elsewhere; a mirrored record or order entry is kept; a confirmation over the mirror's link ends the wait of
the records and orders up to it, one that confirms all of them sets MIRROR_ACTIVE, and 50 µs without one end it. -/
def Obligations.LedgerUpkeep : Prop :=
  (∀ (s : State) (t : Nat) (j : ThumbJob),
    s.thumbs.find? (fun x => s.thumbReady x) = some j →
    (s.at t).dramServes ((s.at t).thumbRequest j) = true →
    ∃ u, exec (.thumbWrite t) s = .next u ∧
      u.thumbs = s.thumbs.filter (fun x => x != j) ∧
      u.rdN Obj.TH_WRITTEN = satCount (s.rdN Obj.TH_WRITTEN) 1 ∧
      u.lg = s.lg) ∧
  (∀ (s : State) (t : Nat),
    s.thumbs.find? (fun x => s.thumbReady x) = none →
    ∃ u, exec (.thumbWrite t) s = .next u ∧
      u = s.at t) ∧
  (∀ (s : State) (t : Nat) (i c : Nat),
    s.cont.copying = some (i, c) →
    i < 2 →
    ∃ u, exec (.ledgerCopyDone t) s = .next u ∧
      u.rdN Obj.LG_COPY_CHANNEL 0 i = c ∧
      u.bit Obj.LG_STATUS 0 0 lgSingle = false ∧
      u.cont.copying = none) ∧
  (∀ (s : State) (t : Nat),
    s.bit Obj.LG_STATUS 0 0 lgReissuing = true →
    s.islandRuns 35 = true →
    s.cxl.linkUp = true →
    ∃ u, exec (.reissue t) s = .next u ∧
      u.bit Obj.LG_STATUS 0 0 lgReissuing = false ∧
      u.lg.records.map (fun e => (e.seq, e.record, e.ext)) = s.lg.records.map (fun e => (e.seq, e.record, e.ext)) ∧
      u.lg.orders.map (fun o => (o.orderId, o.seq)) = s.lg.orders.map (fun o => (o.orderId, o.seq))) ∧
  (∀ (s : State) (t : Nat),
    s.bit Obj.LG_STATUS 0 0 lgReissuing = true →
    s.islandRuns 35 = true →
    s.cxl.linkUp = true →
    s.bank.flights = [] →
    s.rdN Obj.REC_RING_BASE ≠ 0 →
    s.rdN Obj.OUT_RING_BASE = 0 →
    ∃ u, exec (.reissue t) s = .next u ∧
      u.bit Obj.LG_STATUS 0 0 lgReissuing = false ∧
      u.rdN Obj.REC_HEAD_SEQ = s.rdN Obj.LG_NEXT_SEQ - 1 ∧
      u.rdN Obj.LG_REISSUED_RECORDS = satCount (s.rdN Obj.LG_REISSUED_RECORDS) s.lg.records.length ∧
      (∀ e ∈ s.lg.records, ∀ w ∈ hostWrites (s.rdN Obj.REC_RING_BASE + 128 * (e.seq % 2 ^ s.rdN Obj.REC_RING_LOG2))
        e.record, w ∈ u.out)) ∧
  (∀ (s : State) (t : Nat) (path : Path) (value : List Byte),
    s.checkWrite path Obj.LG_DISCARD 0 0 value = 0 →
    s.mode = stInit →
    ∃ u, exec (.lgDiscard t path value) s = .next u ∧
      u.lg.records = [] ∧
      u.lg.orders = [] ∧
      u.rdN Obj.LG_NEXT_SEQ = max (s.rdN Obj.LG_NEXT_SEQ) s.vault.seqMark ∧
      u.rdN Obj.LG_NEXT_ORDER = max (s.rdN Obj.LG_NEXT_ORDER) s.vault.orderMark ∧
      u.bit Obj.LG_STATUS 0 0 lgValid = true ∧
      u.out = s.out ++ [.result path (Obj.LG_DISCARD.key 0 0) 0]) ∧
  (∀ (s : State) (t : Nat) (path : Path) (value : List Byte) (r : Nat),
    s.checkWrite path Obj.LG_DISCARD 0 0 value = r →
    r ≠ 0 →
    ∃ u, exec (.lgDiscard t path value) s = .next u ∧
      u.lg = s.lg ∧
      u.dict = s.dict ∧
      u.out = s.out ++ [.result path (Obj.LG_DISCARD.key 0 0) r]) ∧
  (∀ (s : State) (t : Nat) (path : Path) (value : List Byte),
    Obj.LG_DISCARD.level ≤ s.pathLevel path →
    s.pathOwns path (s.ownerOf Obj.LG_DISCARD 0 0) = true →
    s.mode ≠ stInit →
    ∃ u, exec (.lgDiscard t path value) s = .next u ∧
      u.lg = s.lg ∧
      u.out = s.out ++ [.result path (Obj.LG_DISCARD.key 0 0) 4]) ∧
  (∀ (s : State) (t : Nat) (link : Fin 2) (payload : List Byte),
    s.chUp link = true →
    payload.length < 128 →
    ∃ u, exec (.mirrorEntry t link false payload) s = .next u ∧
      u.lg.mirrored.map (fun w => w.outcomes) = some (enlist (s.lg.mirrored.getD {}).outcomes (leAt payload 0 8)
        (payload.drop 8)) ∧
      u.lg.orders = s.lg.orders) ∧
  (∀ (s : State) (t : Nat) (link : Fin 2) (payload : List Byte),
    s.chUp link = true →
    128 ≤ payload.length →
    ∃ u, exec (.mirrorEntry t link false payload) s = .next u ∧
      u.lg.mirrored.map (fun w => w.records) = some (enlist (s.lg.mirrored.getD {}).records (leAt payload 0 8) payload) ∧
      u.lg.records = s.lg.records) ∧
  (∀ (s : State) (t : Nat) (link : Fin 2) (seq : Nat),
    s.chUp link = true →
    link.val = s.mirrorLink →
    s.flag Obj.LG_MIRROR_ENABLE = true →
    ∃ u, exec (.mirrorConfirm t link seq) s = .next u ∧
      u.lg.records = s.lg.records.map (fun e => if e.seq ≤ seq then { e with mirror := none } else e) ∧
      u.lg.orders = s.lg.orders.map (fun o => if o.seq ≤ seq then { o with mirror := none } else o)) ∧
  (∀ (s : State) (t : Nat) (link : Fin 2) (seq : Nat),
    s.chUp link = true →
    link.val = s.mirrorLink →
    s.flag Obj.LG_MIRROR_ENABLE = true →
    s.lg.records.all (fun e => decide (e.seq ≤ seq)) = true →
    s.lg.orders.all (fun o => decide (o.seq ≤ seq)) = true →
    ∃ u, exec (.mirrorConfirm t link seq) s = .next u ∧
      u.bit Obj.LG_STATUS 0 0 lgMirrorActive = true ∧
      (u.at t).mirrorOverdue = false) ∧
  (∀ (s : State) (t : Nat),
    (s.at t).mirrorOverdue = true →
    ∃ u, exec (.mirrorConfirmTimeout t) s = .next u ∧
      u.bit Obj.LG_STATUS 0 0 lgMirrorActive = false ∧
      u.lg = s.lg)

/-- R337, R353 to R355 (PIPE_HEARTBEAT_TIMEOUT, FAILOVER, SPARE_CAUGHT_UP): a running pipeline silent for 150 µs becomes
faulty, and counts the first time; where lines run its port's failover follows; with no rotation in progress and a good
atlas image the failover gives the port to the spare whose island runs, which replays, and leaves no spare; with no spare
and no camera loan (R207) the port is unserved; the spare that has no line left to replay serves, and where failsafe policy
0 does not blanket the bank is untouched. -/
def Obligations.PipelineFaults : Prop :=
  (∀ (s : State) (t : Nat) (pipeline : Fin 13) (last : Nat),
    s.islandRuns (2 + pipeline.val) = true →
    last + 150000 ≤ max s.now t →
    s.pipeState pipeline ≠ psFaulty →
    ∃ u, exec (.pipeHeartbeatTimeout t pipeline last) s = .next u ∧
      u.pipeState pipeline = psFaulty ∧
      u.rdN Obj.ISLAND_STATE 0 (2 + pipeline.val) = 4 ∧
      (s.cont.faulty.contains (0, pipeline.val) = false → u.rdN Obj.CT_FAULTS 0 0 = satCount (s.rdN Obj.CT_FAULTS 0 0) 1)) ∧
  (∀ (s : State) (t : Nat) (pipeline : Fin 13) (last p : Nat),
    s.lining = true →
    s.islandRuns (2 + pipeline.val) = true →
    last + 150000 ≤ max s.now t →
    s.pipeState pipeline ≠ psFaulty →
    (List.range 12).find? (fun p => s.rdN Obj.RV_PORT_PIPELINE 0 p == pipeline.val) = some p →
    ∃ u, exec (.pipeHeartbeatTimeout t pipeline last) s = .next u ∧
      u.pipeState pipeline = psFaulty ∧
      u.cont.faults.map (fun f => (f.port, f.pipeline, f.since, f.detected)) = s.cont.faults.map (fun f => (f.port,
        f.pipeline, f.since, f.detected)) ++ [(p, pipeline.val, last, max s.now t)]) ∧
  (∀ (s : State) (t : Nat) (pipeline : Fin 13) (last : Nat),
    max s.now t < last + 150000 →
    ∃ u, exec (.pipeHeartbeatTimeout t pipeline last) s = .next u ∧
      u = s.at t) ∧
  (∀ (s : State) (t : Nat) (errors : List DramError) (f : PipeFault) (r : List PipeFault) (q : Nat),
    s.cont.faults = f :: r →
    s.cont.rotation = none →
    s.freeSpare = some q →
    f.port < 12 →
    s.imageMissing f.port = false →
    q < 13 →
    s.islandRuns (2 + q) = true →
    ∃ u, exec (.failover t errors false) s = .next u ∧
      u.cont.faults = r ∧
      u.rdN Obj.RV_PORT_PIPELINE 0 f.port = q ∧
      u.pipeState q = psReplaying ∧
      u.rdN Obj.RV_SPARE = noPipe ∧
      u.rdN Obj.RV_FAILOVERS = satCount (s.rdN Obj.RV_FAILOVERS) 1) ∧
  (∀ (s : State) (t : Nat) (errors : List DramError) (imageBad : Bool) (f : PipeFault) (r : List PipeFault),
    s.cont.faults = f :: r →
    s.cont.rotation = none →
    s.freeSpare = none →
    f.port < 12 →
    s.flag Obj.ST_LOAN_ENABLE = false →
    ∃ u, exec (.failover t errors imageBad) s = .next u ∧
      u.cont.faults = r ∧
      u.rdN Obj.RV_PORT_PIPELINE 0 f.port = 255 ∧
      u.bit Obj.LG_STATUS 0 0 9 = true ∧
      u.rdN Obj.RV_FAILOVERS = satCount (s.rdN Obj.RV_FAILOVERS) 1) ∧
  (∀ (s : State) (t : Nat) (p : Fin 14),
    s.replaying p = true →
    s.pipelineOf p < 13 →
    (s.cam p).toPipe = [] →
    (s.rcp p).out = [] →
    ∃ u, exec (.spareCaughtUp t p) s = .next u ∧
      u.pipeState (s.pipelineOf p) = psServing ∧
      (u.failoverOf p).all (fun x => x.caught == some (max s.now t)) = true) ∧
  (∀ (s : State) (t : Nat) (p : Fin 14) (f : Failover),
    s.replaying p = true →
    s.pipelineOf p < 13 →
    (s.cam p).toPipe = [] →
    (s.rcp p).out = [] →
    s.failoverOf p = some f →
    s.rdN Obj.RV_FAILSAFE_POLICY ≠ 0 →
    ∃ u, exec (.spareCaughtUp t p) s = .next u ∧
      u.pipeState (s.pipelineOf p) = psServing ∧
      (u.failoverOf p).map (fun x => x.caught) = some (some (max s.now t)) ∧
      u.bank = s.bank)

/-- R165, R349 to R351 (ROTATE, ROTATION_COMPARE_DONE, ROTATE_EPOCH_WAIT_TIMEOUT, PIPE_BIST_DONE): in ARMED, RUN and HOLD,
with rotation not suspended, none in progress and the replay buffers refilled, every RV_ROTATE_MS the spare, whose atlas
images are good, compares with the next enabled port; a compare begun at r′ that is equal for RV_COMPARE_LINES lines waits
for an epoch boundary, which the device declares itself after RV_EPOCH_WAIT_MS where the port's group has none pending; a
mismatch counts and sends the spare into self-test, where a pass will accuse the live pipeline; a pass after RV_BIST_MS, of
a pipeline that accuses none, makes it the spare, and a failure leaves it faulty. -/
def Obligations.PipelineRotation : Prop :=
  (∀ (s : State) (t : Nat) (errors : List DramError) (p : Nat),
    s.lining = true →
    s.suspended = false →
    s.cont.rotation = none →
    s.refilled = true →
    s.cont.rotated + s.rdN Obj.RV_ROTATE_MS * 1000000 ≤ max s.now t →
    s.rdN Obj.RV_SPARE < 13 →
    s.nextEnabled (s.rdN Obj.RV_NEXT_PORT) = some p →
    s.imageMissing p = false →
    ∃ u, exec (.rotate ⟨t, false, errors⟩) s = .next u ∧
      u.cont.rotation.map (fun r => (r.port, r.spare)) = some (p, s.rdN Obj.RV_SPARE) ∧
      (s.dramBad = [] → errors = [] → u.cont.rotation.map (fun r => r.snapshot) = some (s.rdN Obj.RC_SNAPSHOT_LAST p)) ∧
      u.pipeState (s.rdN Obj.RV_SPARE) = psComparing ∧
      u.cont.rotated = max s.now t) ∧
  (∀ (s : State) (t : RotationStart),
    s.suspended = true →
    ∃ u, exec (.rotate t) s = .next u ∧
      u = s.at t.time) ∧
  (∀ (s : State) (t : Nat) (errors : List DramError) (p q : Nat),
    s.lining = true →
    s.suspended = false →
    s.cont.rotation = none →
    s.refilled = true →
    s.cont.rotated + s.rdN Obj.RV_ROTATE_MS * 1000000 ≤ max s.now t →
    s.rdN Obj.RV_SPARE = q →
    q < 13 →
    s.pipeState q ≠ psFaulty →
    s.nextEnabled (s.rdN Obj.RV_NEXT_PORT) = some p →
    ∃ u, exec (.rotate ⟨t, true, errors⟩) s = .next u ∧
      u.cont.rotation = none ∧
      u.pipeState q = psFaulty ∧
      u.rdN Obj.RV_SPARE = noPipe) ∧
  (∀ (s : State) (t : Nat) (r : Rotation),
    s.cont.rotation = some r →
    r.mismatch = false →
    r.begun.isSome = true →
    r.compared = none →
    s.comparedAll r = true →
    ∃ u, exec (.rotationCompareDone t true) s = .next u ∧
      u.cont.rotation.map (fun r => r.compared) = some (some (max s.now t)) ∧
      u.dict = s.dict) ∧
  (∀ (s : State) (t : Nat) (r : Rotation),
    s.cont.rotation = some r →
    r.mismatch = false →
    r.begun.isSome = true →
    r.spare < 13 →
    ∃ u, exec (.rotationCompareDone t false) s = .next u ∧
      u.cont.rotation = none ∧
      u.rdN Obj.RV_COMPARE_MISMATCH = satCount (s.rdN Obj.RV_COMPARE_MISMATCH) 1 ∧
      u.pipeState r.spare = psTesting ∧
      u.rdN Obj.RV_SPARE = noPipe ∧
      u.cont.accuses.map (fun x => x.1) = some r.spare) ∧
  (∀ (s : State) (t : Nat) (r : Rotation) (c : Nat),
    s.cont.rotation = some r →
    r.compared = some c →
    c + s.rdN Obj.RV_EPOCH_WAIT_MS * 1000000 ≤ max s.now t →
    s.lining = true →
    s.groupPorts (s.portGroup r.port) ≠ [] →
    s.rdN Obj.EPOCH_PENDING 0 (s.portGroup r.port) = 0 →
    ∃ u, exec (.rotateEpochWaitTimeout t) s = .next u ∧
      u.rdN Obj.EPOCH_PENDING 0 (s.portGroup r.port) = s.epochFloor (s.portGroup r.port) ∧
      u.cont = s.cont) ∧
  (∀ (s : State) (t : Nat) (pipeline : Fin 13),
    s.pipeState pipeline = psTesting →
    s.cont.accuses = none →
    (∀ x ∈ s.cont.testing, x.1 = pipeline.val → x.2 + s.rdN Obj.RV_BIST_MS * 1000000 ≤ max s.now t) →
    ∃ u, exec (.pipeBistDone t pipeline 1) s = .next u ∧
      u.pipeState pipeline = psSpare ∧
      u.rdN Obj.RV_SPARE = pipeline.val ∧
      u.rdN Obj.ISLAND_STATE 0 (2 + pipeline.val) = 1 ∧
      u.rdN Obj.BIST_PIPE_RESULT 0 pipeline = 1) ∧
  (∀ (s : State) (t : Nat) (pipeline : Fin 13) (result : Nat),
    s.pipeState pipeline = psTesting →
    result ≠ 1 →
    ∃ u, exec (.pipeBistDone t pipeline result) s = .next u ∧
      u.pipeState pipeline = psFaulty ∧
      u.rdN Obj.RV_BIST_FAILS = satCount (s.rdN Obj.RV_BIST_FAILS) 1 ∧
      u.rdN Obj.BIST_PIPE_RESULT 0 pipeline = result)

/-- R334 to R336 (ISLAND_RESET, ISLAND_RESET_ENTER, ISLAND_READY): a write that names an island that may reset alone puts it
into reset, a camera port with its link down and no slot open; one that names an island that cannot reset alone is refused
with RESULT 5; the transfers its peers flush count; an island in reset that signals ready runs, and a pipeline in self-test
stays in reset. -/
def Obligations.IslandResets : Prop :=
  (∀ (s : State) (t : Nat) (path : Path) (value : List Byte),
    s.checkWrite path Obj.ISLAND_RESET 0 0 value = 0 →
    2 ≤ leNat value →
    leNat value ≤ 37 →
    ∃ u, exec (.islandReset t path value) s = .next u ∧
      u.rdN Obj.ISLAND_STATE 0 (leNat value) = 2 ∧
      u.out.getLast? = some (.result path (Obj.ISLAND_RESET.key 0 0) 0)) ∧
  (∀ (s : State) (t : Nat) (path : Path) (value : List Byte),
    s.checkWrite path Obj.ISLAND_RESET 0 0 value = 0 →
    15 ≤ leNat value →
    leNat value ≤ 26 →
    ∃ u, exec (.islandReset t path value) s = .next u ∧
      u.rdN Obj.ISLAND_STATE 0 (leNat value) = 2 ∧
      u.camIsUp (leNat value - 15) = false ∧
      (u.cam (leNat value - 15)).slots = []) ∧
  (∀ (s : State) (t : Nat) (path : Path) (value : List Byte),
    s.checkWrite path Obj.ISLAND_RESET 0 0 value = 0 →
    leNat value < 2 ∨ 37 < leNat value →
    ∃ u, exec (.islandReset t path value) s = .next u ∧
      u.dict = s.dict ∧
      u.out = s.out ++ [.result path (Obj.ISLAND_RESET.key 0 0) 5]) ∧
  (∀ (s : State) (t : Nat) (island : Fin 40) (flushed : Nat),
    s.rdN Obj.ISLAND_STATE 0 island = 2 ∨ s.rdN Obj.ISLAND_STATE 0 island = 4 →
    ∃ u, exec (.islandResetEnter t island flushed) s = .next u ∧
      u.rdN Obj.CROSS_FLUSHED 0 island = satCount (s.rdN Obj.CROSS_FLUSHED 0 island) flushed ∧
      (∀ d k, k ≠ Obj.CROSS_FLUSHED.key 0 island → look u.dict d k = look s.dict d k)) ∧
  (∀ (s : State) (t : Nat) (island : Fin 40) (flushed : Nat),
    s.rdN Obj.ISLAND_STATE 0 island ≠ 2 →
    s.rdN Obj.ISLAND_STATE 0 island ≠ 4 →
    ∃ u, exec (.islandResetEnter t island flushed) s = .next u ∧
      u = s.at t) ∧
  (∀ (s : State) (t : Nat) (island : Fin 40),
    s.rdN Obj.ISLAND_STATE 0 island = 2 →
    s.power.nreset = false →
    2 ≤ island.val →
    (isPipe island = true → s.pipeState (island.val - 2) ≠ psTesting ∧ s.pipeState (island.val - 2) ≠ psFaulty) →
    (island.val = 35 → s.cxl.perst = true) →
    ∃ u, exec (.islandReady t island) s = .next u ∧
      u.rdN Obj.ISLAND_STATE 0 island = 1) ∧
  (∀ (s : State) (t : Nat) (island : Fin 40),
    15 ≤ island.val →
    island.val ≤ 26 →
    s.rdN Obj.ISLAND_STATE 0 island = 2 →
    s.power.nreset = false →
    s.flag Obj.CAM_ENABLE (island.val - 15) = true →
    ∃ u, exec (.islandReady t island) s = .next u ∧
      u.rdN Obj.ISLAND_STATE 0 island = 1 ∧
      u.bit Obj.CAM_LINK_STATUS (island.val - 15) 0 camDiscovering = true) ∧
  (∀ (s : State) (t : Nat) (pipeline : Fin 13) (island : Fin 40),
    island.val = 2 + pipeline.val →
    s.pipeState pipeline = psTesting →
    ∃ u, exec (.islandReady t island) s = .next u ∧
      u = s.at t)

/-- R365, R367 to R369, R379, R576 (CXL_LINK_UP, CXL_LINK_RECOVERY, CXL_LINK_DOWN, CXL_PERST, IDE_KEY_PROGRAM, IDE_CHECK_FAIL,
CAUSE_CLEAR, MSIX_UNMASK): the link comes up at an allowed width and rate; leaving L0 counts a recovery, and only after
CX_LINK_DOWN_US is it down and counted; a failed IDE check takes it down and ends IDE; CXL_PERST_N resets the port; CAUSE
clears by written ones; a pending vector goes out when it is unmasked while the link is up. -/
def Obligations.HostLink : Prop :=
  (∀ (s : State) (t : Nat) (width : Fin 17) (rate : Fin 5) (r : LinkReport),
    s.cxl.linkUp = false →
    s.islandRuns islandCxl = true →
    s.linkAllowed width rate = true →
    ∃ u, exec (.cxlLinkUp t width rate r) s = .next u ∧
      u.cxl.linkUp = true ∧
      u.cxl.recovery = none ∧
      u.bit Obj.CX_LINK_STATUS 0 0 clDown = false ∧
      u.bit Obj.CX_LINK_STATUS 0 0 clHdm = r.hdm ∧
      u.rdN Obj.CX_FEC_CORRECTED = satCount (s.rdN Obj.CX_FEC_CORRECTED) r.corrected) ∧
  (∀ (s : State) (t : Nat) (width : Fin 17) (rate : Fin 5) (r : LinkReport),
    s.linkAllowed width rate = false →
    ∃ u, exec (.cxlLinkUp t width rate r) s = .next u ∧
      u = s.at t) ∧
  (∀ (s : State) (t : Nat),
    s.cxl.linkUp = true →
    ∃ u, exec (.cxlLinkRecovery t) s = .next u ∧
      u.cxl.linkUp = false ∧
      u.cxl.recovery = some (max s.now t) ∧
      u.rdN Obj.CX_RECOVERIES = satCount (s.rdN Obj.CX_RECOVERIES) 1 ∧
      u.out = s.out) ∧
  (∀ (s : State) (t r : Nat) (progress : List DmaProgress),
    s.cxl.recovery = some r →
    r + 1000 * s.rdN Obj.CX_LINK_DOWN_US ≤ max s.now t →
    ∃ u, exec (.cxlLinkDown t progress) s = .next u ∧
      u.cxl.linkUp = false ∧
      u.cxl.recovery = none ∧
      u.bit Obj.CX_LINK_STATUS 0 0 clDown = true ∧
      u.rdN Obj.CX_LINK_DOWN_COUNT = satCount (s.rdN Obj.CX_LINK_DOWN_COUNT) 1) ∧
  (∀ (s : State) (t r : Nat) (progress : List DmaProgress),
    s.cxl.recovery = some r →
    max s.now t < r + 1000 * s.rdN Obj.CX_LINK_DOWN_US →
    ∃ u, exec (.cxlLinkDown t progress) s = .next u ∧
      u = s.at t) ∧
  (∀ (s : State) (t : Nat) (io : Option Nat) (cache mem : Option IdeMode),
    s.cxl.linkUp = true →
    ∃ u, exec (.ideKeyProgram t io cache mem) s = .next u ∧
      u.cxl.ide = List.zipWith (fun a b => a || b) s.cxl.ide [io.isSome, cache.isSome, mem.isSome] ∧
      (∀ n, io = some n → u.cxl.ideStream = some n) ∧
      (∀ m, cache = some m → s.cxl.ideModes.length = 2 → s.cxl.ide.length = 3 → u.cxl.ideModes.getD 0 none = some m) ∧
      u.out = s.out) ∧
  (∀ (s : State) (t : Nat),
    s.cxl.linkUp = true →
    ∃ u, exec (.ideCheckFail t) s = .next u ∧
      u.cxl.linkUp = false ∧
      u.cxl.ide = [false, false, false] ∧
      u.rdN Obj.CX_IDE_ERRORS = satCount (s.rdN Obj.CX_IDE_ERRORS) 1) ∧
  (∀ (s : State) (t : Nat),
    ∃ u, exec (.cxlPerst t false) s = .next u ∧
      u.cxl.perst = false ∧
      u.cxl.linkUp = false ∧
      u.cxl.cause = 0 ∧
      u.rdN Obj.ISLAND_STATE 0 islandCxl = 2) ∧
  (∀ (s : State) (t : Nat),
    ∃ u, exec (.cxlPerst t true) s = .next u ∧
      u.cxl.perst = true ∧
      u.rdN Obj.ISLAND_STATE 0 islandCxl = 1 ∧
      u.out = s.out) ∧
  (∀ (s : State) (t mask : Nat),
    ∃ u, exec (.causeClear t mask) s = .next u ∧
      u.cxl.cause = s.cxl.cause - (s.cxl.cause &&& mask) ∧
      u.dict = s.dict ∧
      u.out = s.out) ∧
  (∀ (s : State) (t : Nat) (e : MsixEntry),
    s.cxl.linkUp = true →
    e.masked = false →
    s.cxl.pendingVec.contains e.vector.val = true →
    ∃ u, exec (.msixUnmask t e) s = .next u ∧
      u.cxl.pendingVec.contains e.vector.val = false ∧
      u.cxl.unmasked.contains e.vector.val = true ∧
      look u.cxl.msixTable (0, 0) e.vector.val = (e.address, e.data) ∧
      .msix e.vector ∈ u.out ∧
      u.dict = s.dict) ∧
  (∀ (s : State) (t : Nat) (e : MsixEntry),
    e.masked = true →
    s.cxl.pendingVec = [] →
    ∃ u, exec (.msixUnmask t e) s = .next u ∧
      u.cxl.unmasked.contains e.vector.val = false ∧
      look u.cxl.msixTable (0, 0) e.vector.val = (e.address, e.data) ∧
      u.dict = s.dict ∧
      u.out = s.out)

/-- R375 to R377 (WINDOW_WRITE, WINDOW_READ), with the link in L0 and the HDM decoder committed (log entry 272; else nothing
happens): a write that lies in scratch stores its bytes and every other byte of memory reads as before; one elsewhere in the
window counts as refused and changes no byte; a read answers the window's bytes, or poison with none of them, and changes no
byte. An access beyond the window has no effect that the spec gives and ends in the fault outsideWindow. -/
def Obligations.DeviceMemoryWindow : Prop :=
  (∀ (s : State) (t address : Nat) (data : List Byte),
    s.windowOpen = true →
    address + data.length ≤ s.rdN Obj.CX_HDM_SIZE →
    s.inScratch address data.length = true →
    ∃ u, exec (.windowWrite t address data) s = .next u ∧
      (∀ i, i < data.length → u.memByte (address + i) = data.getD i 0 % 256) ∧
      (∀ a, a < address ∨ address + data.length ≤ a → u.memByte a = s.memByte a) ∧
      u.dict = s.dict ∧
      u.out = s.out) ∧
  (∀ (s : State) (t address : Nat) (data : List Byte),
    s.windowOpen = true →
    address + data.length ≤ s.rdN Obj.CX_HDM_SIZE →
    s.inScratch address data.length = false →
    ∃ u, exec (.windowWrite t address data) s = .next u ∧
      u.rdN Obj.CX_MEM_WRITE_REFUSED = satCount (s.rdN Obj.CX_MEM_WRITE_REFUSED) 1 ∧
      (∀ a, u.memByte a = s.memByte a) ∧
      (∀ d k, k ≠ Obj.CX_MEM_WRITE_REFUSED.key 0 0 → look u.dict d k = look s.dict d k)) ∧
  (∀ (s : State) (t address : Nat) (data : List Byte),
    s.windowOpen = true →
    s.rdN Obj.CX_HDM_SIZE < address + data.length →
    exec (.windowWrite t address data) s = .fault (.outsideWindow address)) ∧
  (∀ (s : State) (t address length : Nat),
    s.windowOpen = true →
    address + length ≤ s.rdN Obj.CX_HDM_SIZE →
    s.unreadable address length = false →
    ∃ u, exec (.windowRead t address length []) s = .next u ∧
      u.out = s.out ++ [.windowData address (s.windowBytes address length) false] ∧
      (∀ a, u.memByte a = s.memByte a) ∧
      u.dict = s.dict) ∧
  (∀ (s : State) (t address length : Nat) (errors : List DramError),
    s.windowOpen = true →
    address + length ≤ s.rdN Obj.CX_HDM_SIZE →
    s.unreadable address length = true ∨ errors.any (fun e => e.uncorrectable && siteMeets e.site address length) = true →
    ∃ u, exec (.windowRead t address length errors) s = .next u ∧
      u.out.getLast? = some (.windowData address [] true) ∧
      u.rdN Obj.CX_POISON_RETURNED = satCount (s.rdN Obj.CX_POISON_RETURNED) 1 ∧
      ((∀ c, c < 8 → u.rdN Obj.DR_CH_STATE 0 c = s.rdN Obj.DR_CH_STATE 0 c) → ∀ a, u.memByte a = s.memByte a)) ∧
  (∀ (s : State) (t address length : Nat) (errors : List DramError),
    s.windowOpen = true →
    s.rdN Obj.CX_HDM_SIZE < address + length →
    exec (.windowRead t address length errors) s = .fault (.outsideWindow address)) ∧
  (∀ (s : State) (t address length : Nat) (data : List Byte) (errors : List DramError),
    s.windowOpen = false →
    exec (.windowWrite t address data) s = .next (s.at t) ∧
    exec (.windowRead t address length errors) s = .next (s.at t))

/-- R380, R381, R383, R385, R390 (DMA_COMMIT, DMA_LIST_FETCHED, DMA_MOVER_GRANT): an idle channel takes a committed set whose
job waits for a mover when it is valid and completes with its code when it is not; a busy channel keeps the last committed
set and counts the one it skips; a fetched list gives the job its pieces; a waiting job runs on a free mover of its
destination or on that of a running job of lower priority, which is pre-empted. -/
def Obligations.DmaCommands : Prop :=
  (∀ (s : State) (t : Nat) (channel : Fin 32) (d : List Byte),
    (s.dma channel).state = dsIdle →
    (s.dma channel).committed = none →
    dsForm d ≠ 2 →
    s.dmaRefusal (dmaJob (((s.dma channel).genCommitted + 1) % 2 ^ 32) d []) d = 0 →
    ∃ u, exec (.dmaCommit t channel ⟨some d, true⟩) s = .next u ∧
      (u.dma channel).state = dsWaiting ∧
      (u.dma channel).job.map (fun j => (j.gen, j.pieces, j.tag)) = some (((s.dma channel).genCommitted + 1) % 2 ^ 32,
        dmaPieces d [], leAt d 56 4) ∧
      (u.dma channel).shadow = d ∧
      u.mem = s.mem) ∧
  (∀ (s : State) (t : Nat) (channel : Fin 32) (d : List Byte),
    (s.dma channel).state = dsIdle →
    (s.dma channel).committed = none →
    dsForm d ≠ 2 →
    s.dmaRefusal (dmaJob (((s.dma channel).genCommitted + 1) % 2 ^ 32) d []) d ≠ 0 →
    ∃ u, exec (.dmaCommit t channel ⟨some d, true⟩) s = .next u ∧
      (u.dma channel).state = dsIdle ∧
      (u.dma channel).code = s.dmaRefusal (dmaJob (((s.dma channel).genCommitted + 1) % 2 ^ 32) d []) d ∧
      (u.dma channel).done = true ∧
      u.rdN Obj.DMA_ERRORS 0 channel = satCount (s.rdN Obj.DMA_ERRORS 0 channel) 1 ∧
      u.mem = s.mem) ∧
  (∀ (s : State) (t : Nat) (channel : Fin 32) (d : List Byte),
    (s.dma channel).state = dsIdle →
    (s.dma channel).committed = none →
    dsForm d = 2 →
    leAt d 32 8 ≠ 0 →
    ∃ u, exec (.dmaCommit t channel ⟨some d, true⟩) s = .next u ∧
      (u.dma channel).state = dsFetching ∧
      (u.dma channel).taken = d ∧
      (u.dma channel).genTaken = ((s.dma channel).genCommitted + 1) % 2 ^ 32 ∧
      u.mem = s.mem) ∧
  (∀ (s : State) (t : Nat) (channel : Fin 32) (d : List Byte),
    ∃ u, exec (.dmaCommit t channel ⟨some d, false⟩) s = .next u ∧
      u = (s.at t).setDma channel { s.dma channel with shadow := d }) ∧
  (∀ (s : State) (t : Nat) (channel : Fin 32),
    (s.dma channel).state ≠ dsIdle →
    ∃ u, exec (.dmaCommit t channel ⟨none, true⟩) s = .next u ∧
      (u.dma channel).committed = some (s.dma channel).shadow ∧
      (u.dma channel).state = (s.dma channel).state ∧
      u.mem = s.mem) ∧
  (∀ (s : State) (t : Nat) (channel : Fin 32) (d old : List Byte),
    (s.dma channel).state ≠ dsIdle →
    (s.dma channel).committed = some old →
    ∃ u, exec (.dmaCommit t channel ⟨some d, true⟩) s = .next u ∧
      (u.dma channel).committed = some d ∧
      (u.dma channel).genCommitted = ((s.dma channel).genCommitted + 1) % 2 ^ 32 ∧
      u.rdN Obj.DMA_COMMITS_SKIPPED 0 channel = satCount (s.rdN Obj.DMA_COMMITS_SKIPPED 0 channel) 1 ∧
      (u.dma channel).job = (s.dma channel).job) ∧
  (∀ (s : State) (t : Nat) (channel : Fin 32) (elements : List (List Byte)),
    (s.dma channel).state = dsFetching →
    (leAt (s.dma channel).taken 60 4).testBit 13 = false →
    s.dmaRefusal (dmaJob (s.dma channel).genTaken (s.dma channel).taken elements) (s.dma channel).taken = 0 →
    ∃ u, exec (.dmaListFetched t channel elements) s = .next u ∧
      (u.dma channel).state = dsWaiting ∧
      (u.dma channel).job.map (fun j => j.pieces) = some (dmaPieces (s.dma channel).taken elements) ∧
      u.mem = s.mem) ∧
  (∀ (s : State) (t : Nat) (toHost : Bool) (victim : Option DmaProgress) (n m : Nat),
    s.dmaPick toHost (fun x => x == dsWaiting || x == dsPreempted) (fun b a => decide (a.1 < b.1)) = some n →
    (if toHost then [0, 1] else [2, 3]).find? (fun m => (List.range 32).all (fun k => (s.dma k).state != dsRunning || (s.dma
      k).job.all (fun j => j.mover != m))) = some m →
    ∃ u, exec (.dmaMoverGrant t toHost victim) s = .next u ∧
      (u.dma n).state = dsRunning ∧
      (u.dma n).job.map (fun j => j.mover) = some m ∧
      u.dict = s.dict ∧
      u.mem = s.mem) ∧
  (∀ (s : State) (t : Nat) (toHost : Bool) (n v : Nat),
    s.dmaPick toHost (fun x => x == dsWaiting || x == dsPreempted) (fun b a => decide (a.1 < b.1)) = some n →
    s.dmaPick toHost (fun x => x == dsRunning) (fun b a => decide (b.1 ≤ a.1)) = some v →
    s.dmaPrio v < s.dmaPrio n →
    (∀ m, m < 4 → ∃ k, k < 32 ∧ (s.dma k).state = dsRunning ∧ (s.dma k).job.any (fun j => j.mover == m || (m < 2) != toHost)
      = true) →
    ∃ u, exec (.dmaMoverGrant t toHost none) s = .next u ∧
      (u.dma v).state = dsPreempted ∧
      (u.dma n).state = dsRunning ∧
      u.rdN Obj.DMA_PREEMPTIONS 0 v = satCount (s.rdN Obj.DMA_PREEMPTIONS 0 v) 1)

/-- R320, R323, R384, R387 to R391 (DMA_HALF, DMA_JOB_DONE, DMA_DEST_ERROR, DMA_ABORT, FUNCTION_LEVEL_RESET, CZ_BLOCK_DONE),
of a channel with no committed set: a plain one-piece job within device memory that moves upward and is not yet begun has
stored the first half of its bytes at its half and all of them at its end, with code 0; any job from device memory completes
and counts; a failed source gives code 3, a failed host write 13, an abort 11; a reset leaves every channel idle without a
set; an engine's block that stands next, of a one-piece job in device memory that allows stored blocks and has room, counts
and moves the job on; a later one waits, and one whose source failed ends the job. -/
def Obligations.DmaTransfers : Prop :=
  (∀ (s : State) (t : Nat) (channel : Fin 32) (data : List Byte) (j : DmaJob) (src dst n : Nat),
    (s.dma channel).job = some j →
    (s.dma channel).state = dsRunning →
    j.compresses = false →
    j.pieces = [(src, dst, n)] →
    2 ≤ n →
    j.srcDev = true →
    j.dstDev = true →
    j.down = false →
    j.moved = 0 →
    j.staged = [] →
    (∀ b ∈ s.dramBad, ∀ x ∈ j.pieces, blockMeets b x.1 x.2.2 = false) →
    ∃ u, exec (.dmaHalf t channel data) s = .next u ∧
      u.mem = (s.memStore dst (s.windowBytes src ((n + 1) / 2))).mem ∧
      (u.dma channel).bytesDone = (n + 1) / 2 ∧
      (u.dma channel).half = true) ∧
  (∀ (s : State) (t : Nat) (channel : Fin 32) (data : List Byte) (j : DmaJob),
    (s.dma channel).job = some j →
    (s.dma channel).state = dsRunning →
    j.compresses = false →
    j.srcDev = true →
    j.moved ≤ (j.total + 1) / 2 →
    2 ≤ j.total →
    (∀ b ∈ s.dramBad, ∀ x ∈ j.pieces, blockMeets b x.1 x.2.2 = false) →
    ∃ u, exec (.dmaHalf t channel data) s = .next u ∧
      (u.dma channel).bytesDone = (j.total + 1) / 2 ∧
      (u.dma channel).half = true ∧
      (u.dma channel).state = dsRunning) ∧
  (∀ (s : State) (t : Nat) (channel : Fin 32) (data : List Byte) (j : DmaJob) (src dst n : Nat),
    (s.dma channel).job = some j →
    (s.dma channel).state = dsRunning →
    (s.dma channel).committed = none →
    j.compresses = false →
    j.pieces = [(src, dst, n)] →
    j.srcDev = true →
    j.dstDev = true →
    j.down = false →
    j.moved = 0 →
    j.staged = [] →
    j.check = 0 →
    (∀ b ∈ s.dramBad, ∀ x ∈ j.pieces, blockMeets b x.1 x.2.2 = false) →
    ∃ u, exec (.dmaJobDone t channel data none) s = .next u ∧
      u.mem = (s.memStore dst (s.windowBytes src n)).mem ∧
      (u.dma channel).state = dsIdle ∧
      (u.dma channel).done = true ∧
      (u.dma channel).code = 0 ∧
      u.rdN Obj.DMA_JOBS 0 channel = satCount (s.rdN Obj.DMA_JOBS 0 channel) 1 ∧
      u.rdN Obj.DMA_BYTES 0 channel = satCount (s.rdN Obj.DMA_BYTES 0 channel) n) ∧
  (∀ (s : State) (t : Nat) (channel : Fin 32) (data : List Byte) (j : DmaJob),
    (s.dma channel).job = some j →
    (s.dma channel).state = dsRunning →
    (s.dma channel).committed = none →
    j.compresses = false →
    j.srcDev = true →
    j.moved ≤ j.total →
    (∀ b ∈ s.dramBad, ∀ x ∈ j.pieces, blockMeets b x.1 x.2.2 = false) →
    ∃ u, exec (.dmaJobDone t channel data none) s = .next u ∧
      (u.dma channel).state = dsIdle ∧
      (u.dma channel).done = true ∧
      (u.dma channel).code = 0 ∧
      u.rdN Obj.DMA_JOBS 0 channel = satCount (s.rdN Obj.DMA_JOBS 0 channel) 1 ∧
      u.rdN Obj.DMA_BYTES 0 channel = satCount (s.rdN Obj.DMA_BYTES 0 channel) j.total) ∧
  (∀ (s : State) (t : Nat) (channel : Fin 32) (data : List Byte) (j : DmaJob) (n : Nat) (f : ReadFault),
    (s.dma channel).job = some j →
    (s.dma channel).state = dsRunning →
    (s.dma channel).committed = none →
    j.compresses = false →
    ∃ u, exec (.dmaJobDone t channel data (some (n, f))) s = .next u ∧
      (u.dma channel).state = dsIdle ∧
      (u.dma channel).code = 3 ∧
      u.rdN Obj.DMA_ERRORS 0 channel = satCount (s.rdN Obj.DMA_ERRORS 0 channel) 1) ∧
  (∀ (s : State) (t : Nat) (channel : Fin 32) (data : List Byte) (j : DmaJob) (src dst n : Nat),
    (s.dma channel).job = some j →
    (s.dma channel).state = dsRunning →
    (s.dma channel).committed = none →
    j.compresses = false →
    j.srcDev = true →
    j.down = false →
    j.pieces = [(src, dst, n)] →
    0 < n →
    s.unreadable src n = true →
    ∃ u, exec (.dmaJobDone t channel data none) s = .next u ∧
      (u.dma channel).state = dsIdle ∧
      (u.dma channel).code = 3 ∧
      u.rdN Obj.DMA_ERRORS 0 channel = satCount (s.rdN Obj.DMA_ERRORS 0 channel) 1) ∧
  (∀ (s : State) (t : Nat) (channel : Fin 32) (j : DmaJob),
    (s.dma channel).job = some j →
    (s.dma channel).state = dsRunning →
    (s.dma channel).committed = none →
    j.dstDev = false →
    ∃ u, exec (.dmaDestError t channel none) s = .next u ∧
      (u.dma channel).state = dsIdle ∧
      (u.dma channel).code = 13 ∧
      u.mem = s.mem) ∧
  (∀ (s : State) (t : Nat) (channel : Fin 32),
    (s.dma channel).state ≠ dsIdle →
    ∃ u, exec (.dmaAbort t channel none) s = .next u ∧
      (u.dma channel).state = dsIdle ∧
      (u.dma channel).code = 11 ∧
      (u.dma channel).committed = none ∧
      u.mem = s.mem) ∧
  (∀ (s : State) (t : Nat),
    ∃ u, exec (.functionLevelReset t) s = .next u ∧
      (∀ n, n < 32 → (u.dma n).state = dsIdle ∧ (u.dma n).committed = none ∧ (u.dma n).genCommitted = 0 ∧ (u.dma n).shadow =
        List.replicate 64 0) ∧
      u.mem = s.mem ∧
      u.out = s.out) ∧
  (∀ (s : State) (t : Nat) (channel : Fin 32) (engine : Fin 4) (data : List Byte) (j : DmaJob) (src dst n : Nat),
    (s.dma channel).job = some j →
    (s.dma channel).state = dsRunning →
    s.cxl.engines.find? (fun e => e.1 == engine.val && e.2.1 == channel.val) = some (engine.val, channel.val, j.blocks) →
    j.pieces = [(src, dst, n)] →
    j.moved = j.blocks * j.blockBytes →
    j.moved < n →
    j.srcDev = true →
    j.early = [] →
    j.czCtrl.testBit 9 = true →
    j.outBytes + 2 * min j.blockBytes (n - j.moved) + 64 ≤ j.outLimit →
    (∀ b ∈ s.dramBad, ∀ x ∈ j.pieces, blockMeets b x.1 x.2.2 = false) →
    ∃ u, exec (.czBlockDone t channel engine data none false) s = .next u ∧
      (u.dma channel).job.map (fun x => (x.moved, x.blocks)) = some (j.moved + min j.blockBytes (n - j.moved), j.blocks + 1) ∧
      u.rdN Obj.CZ_BLOCKS 0 engine = satCount (s.rdN Obj.CZ_BLOCKS 0 engine) 1 ∧
      u.rdN Obj.CZ_BYTES_IN 0 engine = satCount (s.rdN Obj.CZ_BYTES_IN 0 engine) (min j.blockBytes (n - j.moved))) ∧
  (∀ (s : State) (t : Nat) (channel : Fin 32) (engine : Fin 4) (data : List Byte) (f : ReadFault) (j : DmaJob) (i : Nat),
    (s.dma channel).job = some j →
    s.cxl.engines.find? (fun e => e.1 == engine.val && e.2.1 == channel.val) = some (engine.val, channel.val, i) →
    i ≠ j.blocks →
    j.early = [] →
    ∃ u, exec (.czBlockDone t channel engine data (some f) false) s = .next u ∧
      (f = ReadFault.host → u.mem = s.mem) ∧
      u.rdN Obj.CZ_BLOCKS 0 engine = s.rdN Obj.CZ_BLOCKS 0 engine ∧
      (u.dma channel).job.map (fun x => (x.moved, x.early.map (fun b => b.index))) = some (j.moved, [i])) ∧
  (∀ (s : State) (t : Nat) (channel : Fin 32) (engine : Fin 4) (data : List Byte) (f : ReadFault) (verifyFail : Bool) (j :
    DmaJob),
    (s.dma channel).job = some j →
    (s.dma channel).state = dsRunning →
    (s.dma channel).committed = none →
    s.cxl.engines.find? (fun e => e.1 == engine.val && e.2.1 == channel.val) = some (engine.val, channel.val, j.blocks) →
    j.early = [] →
    ∃ u, exec (.czBlockDone t channel engine data (some f) verifyFail) s = .next u ∧
      (u.dma channel).state = dsIdle ∧
      (u.dma channel).code = 3 ∧
      (f = ReadFault.host → u.mem = s.mem))

/-- R399 to R403, R406 to R408, R410, R411 (REFRESH_DUE, DRAM_SCRUB_PASS, DRAM_CALIBRATE, DRAM_REQUEST_TIMEOUT,
DR_CHANNEL_FAULT, DRAM_REMAP_DONE): a refresh at its due time adds to the debt of its channel; the bank whose turn it is
owes it, an idle bank issues the one it owes, the ninth owed one is forced and counted, past the banks that the running
burst uses, and splits a burst that covers every bank (that a forced refresh leaves seven owed, and where it goes, are the
model's choices, log entries 39 and 276); an activate that is drawn queues its row, and the oldest of 16 queued goes out at
once; the granules of a 4 KiB run stand on different banks; a complete scrub pass counts, one that is late after
DR_SCRUB_PERIOD_S sets its bit; a corrected error counts on its channel and bank, an uncorrectable one on its channel, whose
one past the limit makes it faulty; a due calibration that moves counts as a retrain, and one beyond its range makes the
channel faulty; a request that waits 10 µs counts and makes its channel faulty; a faulty channel leaves the seven-channel
map and loses the host's bytes; the end of the rebuild shows. -/
def Obligations.DramUpkeep : Prop :=
  (∀ (s : State) (t : Nat) (channel : Fin 8) (events : List BankEvent) (running : Bool) (burst : List (Fin 16)) (hot :
    Bool),
    s.rdN Obj.DR_CH_STATE 0 channel = drReady →
    (s.dramCh channel).due ≤ max s.now t →
    ((s.dramCh channel).run (s.rdN Obj.DR_RH_K) events).1.owed.length < 8 →
    ∃ u, exec (.refreshDue t channel events running burst hot) s = .next u ∧
      (u.dramCh channel).owed = ((s.dramCh channel).run (s.rdN Obj.DR_RH_K) events).1.owed ++ [((s.dramCh channel).run
        (s.rdN Obj.DR_RH_K) events).1.bank] ∧
      u.rdN Obj.DR_REFRESH_FORCED 0 channel = s.rdN Obj.DR_REFRESH_FORCED 0 channel ∧
      u.rdN Obj.DR_NEIGHBOUR_REFRESH 0 channel = satCount (s.rdN Obj.DR_NEIGHBOUR_REFRESH 0 channel) ((s.dramCh channel).run
        (s.rdN Obj.DR_RH_K) events).2 ∧
      u.bit Obj.DR_STATUS 0 0 dsHot = (List.range 8).any (fun k => if k = channel.val then hot else (s.dramCh k).hot) ∧
      u.out = s.out) ∧
  (∀ (s : State) (t : Nat) (channel : Fin 8) (events : List BankEvent) (running : Bool) (burst : List (Fin 16)) (hot :
    Bool),
    s.rdN Obj.DR_CH_STATE 0 channel = drReady →
    (s.dramCh channel).due ≤ max s.now t →
    (s.dramCh channel).due ≠ 0 →
    ((s.dramCh channel).run (s.rdN Obj.DR_RH_K) events).1.owed.length < 8 →
    ∃ u, exec (.refreshDue t channel events running burst hot) s = .next u ∧
      (u.dramCh channel).bank = (((s.dramCh channel).run (s.rdN Obj.DR_RH_K) events).1.bank + 1) % 16 ∧
      (u.dramCh channel).due = (s.dramCh channel).due + (if hot then 244 else 488) ∧
      u.mem = s.mem) ∧
  (∀ (s : State) (t : Nat) (channel : Fin 8) (bank : Fin 16) (running : Bool) (burst : List (Fin 16)) (hot : Bool),
    s.rdN Obj.DR_CH_STATE 0 channel = drReady →
    (s.dramCh channel).due ≤ max s.now t →
    (s.dramCh channel).owed.contains bank.val = true →
    (s.dramCh channel).owed.length ≤ 8 →
    ∃ u, exec (.refreshDue t channel [.idle bank] running burst hot) s = .next u ∧
      (u.dramCh channel).owed = (s.dramCh channel).owed.erase bank.val ++ [(s.dramCh channel).bank] ∧
      (u.dramCh channel).near = (s.dramCh channel).near ∧
      u.rdN Obj.DR_REFRESH_FORCED 0 channel = s.rdN Obj.DR_REFRESH_FORCED 0 channel) ∧
  (∀ (s : State) (t : Nat) (channel : Fin 8) (events : List BankEvent) (running : Bool) (burst : List (Fin 16)) (hot :
    Bool),
    s.rdN Obj.DR_CH_STATE 0 channel = drReady →
    (s.dramCh channel).due ≤ max s.now t →
    ((s.dramCh channel).run (s.rdN Obj.DR_RH_K) events).1.owed.length = 8 →
    ∃ u, exec (.refreshDue t channel events running burst hot) s = .next u ∧
      (u.dramCh channel).owed.length = 7 ∧
      u.rdN Obj.DR_REFRESH_FORCED 0 channel = satCount (s.rdN Obj.DR_REFRESH_FORCED 0 channel) 1 ∧
      u.rdN Obj.DR_BURST_SPLITS 0 channel = (if running && (List.range 16).all (fun b => (burst.map (fun x =>
        x.val)).contains b) then satCount (s.rdN Obj.DR_BURST_SPLITS 0 channel) 1 else s.rdN Obj.DR_BURST_SPLITS 0 channel) ∧
      u.out = s.out) ∧
  (∀ (s : State) (t : Nat) (channel : Fin 8) (bank : Fin 16) (hot : Bool),
    s.rdN Obj.DR_CH_STATE 0 channel = drReady →
    (s.dramCh channel).due ≤ max s.now t →
    (s.dramCh channel).owed.length = 8 →
    (s.dramCh channel).bank = bank.val →
    ∃ u, exec (.refreshDue t channel [] true [bank] hot) s = .next u ∧
      (u.dramCh channel).bank = (bank.val + 2) % 16 ∧
      (u.dramCh channel).owed = (s.dramCh channel).owed.drop 1) ∧
  (∀ (s : State) (t : Nat) (channel : Fin 8) (bank : Fin 16) (row : Nat) (running : Bool) (burst : List (Fin 16)) (hot :
    Bool),
    s.rdN Obj.DR_CH_STATE 0 channel = drReady →
    (s.dramCh channel).due ≤ max s.now t →
    (s.dramCh channel).near.length = 16 →
    ∃ u, exec (.refreshDue t channel [.activate bank row] running burst hot) s = .next u ∧
      (u.dramCh channel).near = (if Config.rowDraw (Config.lfsrStep (s.dramCh channel).lfsr % 2 ^ 32) (s.rdN Obj.DR_RH_K)
        then (s.dramCh channel).near.drop 1 ++ [(bank.val, row)] else (s.dramCh channel).near) ∧
      u.rdN Obj.DR_NEIGHBOUR_REFRESH 0 channel = (if Config.rowDraw (Config.lfsrStep (s.dramCh channel).lfsr % 2 ^ 32)
        (s.rdN Obj.DR_RH_K) then satCount (s.rdN Obj.DR_NEIGHBOUR_REFRESH 0 channel) 1 else s.rdN Obj.DR_NEIGHBOUR_REFRESH 0
        channel)) ∧
  (∀ (run i j : Nat),
    i < 16 →
    j < 16 →
    i ≠ j →
    bankOf (4096 * run + 256 * i) ≠ bankOf (4096 * run + 256 * j)) ∧
  (∀ (s : State) (t : Nat),
    s.scrubFrom ≤ max s.now t →
    ∃ u, exec (.dramScrubPass t false []) s = .next u ∧
      u.rdN Obj.DR_SCRUB_PASSES = satCount (s.rdN Obj.DR_SCRUB_PASSES) 1 ∧
      u.bit Obj.DR_STATUS 0 0 dsScrubLate = false ∧
      u.mem = s.mem) ∧
  (∀ (s : State) (t : Nat),
    s.scrubFrom + 1000000000 * s.rdN Obj.DR_SCRUB_PERIOD_S ≤ max s.now t →
    ∃ u, exec (.dramScrubPass t true []) s = .next u ∧
      u.rdN Obj.DR_SCRUB_PASSES = s.rdN Obj.DR_SCRUB_PASSES ∧
      u.bit Obj.DR_STATUS 0 0 dsScrubLate = true ∧
      u.mem = s.mem) ∧
  (∀ (s : State) (t : Nat) (late : Bool) (e : DramError) (c : Fin 8),
    e.uncorrectable = false →
    (s.sitePlace e.site).1 = c.val →
    s.scrubFrom + 1000000000 * s.rdN Obj.DR_SCRUB_PERIOD_S ≤ max s.now t →
    ∃ u, exec (.dramScrubPass t late [e]) s = .next u ∧
      u.rdN Obj.DR_CORRECTED 0 c = satCount (s.rdN Obj.DR_CORRECTED 0 c) 1 ∧
      u.rdN Obj.ALM_ECC_CORR 0 (16 * c.val + bankOf (s.sitePlace e.site).2) = satCount (s.rdN Obj.ALM_ECC_CORR 0 (16 * c.val
        + bankOf (s.sitePlace e.site).2)) 1 ∧
      u.rdN Obj.DR_UNCORRECTED 0 c = s.rdN Obj.DR_UNCORRECTED 0 c ∧
      u.mem = s.mem) ∧
  (∀ (s : State) (t address : Nat) (late : Bool) (c : Fin 8),
    (s.sitePlace (.shared address)).1 = c.val →
    ((s.dramCh c).errors.filter (fun x => decide (max s.now t < x + 1000000000))).length < s.rdN Obj.DR_UNCORR_LIMIT →
    s.scrubFrom + 1000000000 * s.rdN Obj.DR_SCRUB_PERIOD_S ≤ max s.now t →
    ∃ u, exec (.dramScrubPass t late [{ site := .shared address, uncorrectable := true }]) s = .next u ∧
      u.rdN Obj.DR_UNCORRECTED 0 c = satCount (s.rdN Obj.DR_UNCORRECTED 0 c) 1 ∧
      u.rdN Obj.DR_CORRECTED 0 c = s.rdN Obj.DR_CORRECTED 0 c ∧
      u.dramBad.contains (address / 64) = true ∧
      u.rdN Obj.DR_CH_STATE 0 c = s.rdN Obj.DR_CH_STATE 0 c) ∧
  (∀ (s : State) (t : Nat) (late : Bool) (c : Fin 8) (offset : Nat),
    s.rdN Obj.DR_CH_STATE 0 c ≠ drFaulty →
    s.rdN Obj.DR_UNCORR_LIMIT ≤ ((s.dramCh c).errors.filter (fun x => decide (max s.now t < x + 1000000000))).length →
    s.scrubFrom + 1000000000 * s.rdN Obj.DR_SCRUB_PERIOD_S ≤ max s.now t →
    ∃ u, exec (.dramScrubPass t late [{ site := .own c offset, uncorrectable := true }]) s = .next u ∧
      u.rdN Obj.DR_UNCORRECTED 0 c = satCount (s.rdN Obj.DR_UNCORRECTED 0 c) 1 ∧
      u.rdN Obj.DR_CH_STATE 0 c = drFaulty ∧
      u.bit Obj.DR_STATUS 0 0 dsRemapping = true) ∧
  (∀ (s : State) (t : Nat) (channel : Fin 8),
    s.rdN Obj.DR_CH_STATE 0 channel = drReady →
    (s.dramCh channel).calDue ≤ max s.now t →
    ∃ u, exec (.dramCalibrate t channel 1) s = .next u ∧
      u.rdN Obj.DR_RETRAINS 0 channel = satCount (s.rdN Obj.DR_RETRAINS 0 channel) 1 ∧
      u.rdN Obj.DR_CH_STATE 0 channel = drReady ∧
      u.mem = s.mem) ∧
  (∀ (s : State) (t : Nat) (channel : Fin 8),
    s.rdN Obj.DR_CH_STATE 0 channel = drReady →
    (s.dramCh channel).calDue ≤ max s.now t →
    ∃ u, exec (.dramCalibrate t channel 2) s = .next u ∧
      u.rdN Obj.DR_CH_STATE 0 channel = drFaulty ∧
      u.rdN Obj.DR_CAPACITY = capacity7 ∧
      u.mem = []) ∧
  (∀ (s : State) (t : Nat) (channel : Fin 8),
    s.rdN Obj.DR_CH_STATE 0 channel = drFaulty →
    s.mode = stPreop →
    ∃ u, exec (.dramCalibrate t channel 0) s = .next u ∧
      (u.dramCh channel).retrained = true ∧
      u.dict = s.dict) ∧
  (∀ (s : State) (t : Nat) (error : DramError) (c : Fin 8),
    (s.sitePlace error.site).1 = c.val →
    s.rdN Obj.DR_CH_STATE 0 c = drReady →
    ∃ u, exec (.dramRequestTimeout t error) s = .next u ∧
      u.rdN Obj.DR_TIMEOUTS 0 c = satCount (s.rdN Obj.DR_TIMEOUTS 0 c) 1 ∧
      u.rdN Obj.DR_CH_STATE 0 c = drFaulty ∧
      u.mem = []) ∧
  (∀ (s : State) (t : Nat) (loss : ChannelLoss),
    s.rdN Obj.DR_CH_STATE 0 loss.channel ≠ drFaulty →
    s.cont.faulty.contains (1, loss.channel.val) = false →
    ∃ u, exec (.drChannelFault t loss) s = .next u ∧
      u.rdN Obj.DR_CH_STATE 0 loss.channel = drFaulty ∧
      u.rdN Obj.DR_CAPACITY = capacity7 ∧
      u.bit Obj.DR_STATUS 0 0 dsRemapping = true ∧
      u.rdN Obj.CT_FAULTS 0 1 = satCount (s.rdN Obj.CT_FAULTS 0 1) 1 ∧
      u.cont.faulty.contains (1, loss.channel.val) = true ∧
      u.rdN Obj.DR_UNCORRECTED 0 loss.channel = satCount (s.rdN Obj.DR_UNCORRECTED 0 loss.channel) (if loss.ledger.isSome
        then 1 else 0) ∧
      u.mem = []) ∧
  (∀ (s : State) (t : Nat),
    s.bit Obj.DR_STATUS 0 0 dsRemapping = true →
    ∃ u, exec (.dramRemapDone t) s = .next u ∧
      u.bit Obj.DR_STATUS 0 0 dsRemapping = false ∧
      u.bit Obj.DR_STATUS 0 0 dsRemapped = true ∧
      u.out = s.out)

/-- R413 to R415, R418 to R422 (MER_FRAME_FORWARD, PASS, FETCH, STORE, TRADE): a frame that is not Meridian leaves unchanged
by the exit of its port; a unit that does not serve passes every datagram unchanged; one that serves adds one hop, and an
addressed one adds to SERVED or, for bytes it cannot take, to REFUSED with its station as the first; FETCH places the bytes
of the station space or the process image, and a STORE the image accepts whole counts as served; a write of STATION by
position in INIT or PREOP changes MER_STATION; TRADE gives the bytes of before. -/
def Obligations.MeridianFrames : Prop :=
  (∀ (s : State) (t : Nat) (port : Fin 2) (destination source : List Byte) (etherType : Nat) (body frame : List Byte),
    frame = etherFrame destination source etherType body →
    isMeridian frame = false →
    ∃ u, exec (.merFrameForward t port destination source etherType body) s = .next u ∧
      u.out = s.out ++ [.frameOn (s.merExit port) frame] ∧
      u.dict = s.dict) ∧
  (∀ (s : State) (t : Nat) (port : Fin 2) (destination source : List Byte) (etherType : Nat) (body frame : List Byte),
    frame = etherFrame destination source etherType body →
    s.merServes = true →
    s.merProcessed port = true →
    isMeridian frame = true →
    leAt frame 16 1 ≠ 1 →
    ∃ u, exec (.merFrameForward t port destination source etherType body) s = .next u ∧
      u.rdN Obj.MER_FORMAT_ERRORS = satCount (s.rdN Obj.MER_FORMAT_ERRORS) 1 ∧
      u.out = s.out ++ [.frameOn (s.merExit port) frame]) ∧
  (∀ (s : State) (t : Nat) (port : Fin 2) (destination source : List Byte) (etherType : Nat) (body frame : List Byte),
    frame = etherFrame destination source etherType body →
    s.merServes = true →
    s.merProcessed port = true →
    isMeridian frame = true →
    leAt frame 16 1 = 1 →
    ∃ u, exec (.merFrameForward t port destination source etherType body) s = .next u ∧
      u.rdN Obj.MER_FORMAT_ERRORS = satCount (s.rdN Obj.MER_FORMAT_ERRORS) (frameFaults frame) ∧
      u.rdN Obj.MER_FCS_ERRORS 0 port = (if (frameFcs frame).1 = (frameFcs frame).2 then s.rdN Obj.MER_FCS_ERRORS 0 port
        else satCount (s.rdN Obj.MER_FCS_ERRORS 0 port) 1) ∧
      u.out = s.out ++ [.frameOn (s.merExit port) (hopOn frame)] ∧
      (hopOn frame).length = frame.length ∧
      (19 ≤ (hopOn frame).length - 4 → (hopOn frame).getD 17 0 = min 255 (frame.getD 17 0 + 1))) ∧
  (∀ (s : State) (t : Nat) (port : Fin 2) (destination source : List Byte) (etherType : Nat) (body frame : List Byte),
    frame = etherFrame destination source etherType body →
    s.merProcessed port = false →
    ∃ u, exec (.merFrameForward t port destination source etherType body) s = .next u ∧
      u.out = s.out ++ [.frameOn (s.merExit port) frame] ∧
      u.dict = s.dict) ∧
  (∀ (s : State) (t : Nat) (d : Datagram),
    s.merServes = false →
    ∃ u, exec (.store t d) s = .next u ∧
      u = (s.at t).emit (.datagram (s.merExit d.port) 2 d)) ∧
  (∀ (s : State) (t : Nat) (d : Datagram),
    s.merServes = true →
    s.merProcessed d.port = true →
    s.addressed d = true →
    s.mer.held = [] →
    ∃ u, exec (.pass t d) s = .next u ∧
      u.out = s.out ++ [.datagram (s.merExit d.port) 0
        { d with served := min 255 (d.served + 1), hops := min 255 (d.hops + 1) }] ∧
      u.mem = s.mem) ∧
  (∀ (s : State) (t : Nat) (d : Datagram),
    s.merServes = true →
    s.merProcessed d.port = true →
    s.addressed d = false →
    s.mer.held = [] →
    ∃ u, exec (.pass t d) s = .next u ∧
      u.out = s.out ++ [.datagram (s.merExit d.port) 0 { d with hops := min 255 (d.hops + 1) }] ∧
      u.mem = s.mem) ∧
  (∀ (s : State) (t : Nat) (d : Datagram),
    s.merServes = true →
    s.merProcessed d.port = true →
    s.addressed d = true →
    d.scope.val < 2 →
    d.address + d.data.length ≤ 4096 →
    s.mer.held = [] →
    ∃ u, exec (.fetch t d) s = .next u ∧
      u.out = s.out ++ [.datagram (s.merExit d.port) 1 { d with
        data := (s.at t).stationRead d
        served := min 255 (d.served + 1)
        hops := min 255 (d.hops + 1) }] ∧
      u.mem = s.mem ∧
      u.mer = s.mer) ∧
  (∀ (s : State) (t : Nat) (d : Datagram),
    s.merServes = true →
    s.merProcessed d.port = true →
    d.scope.val = 2 →
    d.address + d.data.length ≤ 4096 →
    s.mer.held = [] →
    ∃ u, exec (.fetch t d) s = .next u ∧
      u.out = s.out ++ [.datagram (s.merExit d.port) 1 { d with
        data := List.zipWith (fun (a b : Nat) => a ||| b) d.data ((s.at t).stationRead d)
        served := min 255 (d.served + 1)
        hops := min 255 (d.hops + 1) }] ∧
      u.mer = s.mer) ∧
  (∀ (s : State) (t : Nat) (d : Datagram),
    s.merServes = true →
    s.merProcessed d.port = true →
    d.scope.val = 3 →
    s.addressed d = true →
    s.mer.held = [] →
    ∃ u, exec (.fetch t d) s = .next u ∧
      u.out = s.out ++ [.datagram (s.merExit d.port) 1 { d with
        data := (s.at t).imageRead d
        served := min 255 (d.served + 1)
        hops := min 255 (d.hops + 1) }]) ∧
  (∀ (s : State) (t : Nat) (d : Datagram),
    s.merServes = true →
    s.merProcessed d.port = true →
    d.scope.val = 3 →
    s.addressed d = true →
    ((s.at t).imageWriteAll d).2 = true →
    ∃ u, exec (.store t d) s = .next u ∧
      (.datagram (s.merExit d.port) 2 { d with served := min 255 (d.served + 1), hops := min 255 (d.hops + 1) }) ∈ u.out) ∧
  (∀ (s : State) (t : Nat) (d : Datagram),
    s.merServes = true →
    s.merProcessed d.port = true →
    s.addressed d = true →
    d.scope.val < 3 →
    16 ≤ d.address →
    d.data ≠ [] →
    s.mer.held = [] →
    ∃ u, exec (.store t d) s = .next u ∧
      u.out = s.out ++ [.datagram (s.merExit d.port) 2 { d with
        refused := min 255 (d.refused + 1)
        first := if d.first = 0 then s.rdN Obj.MER_STATION else d.first
        hops := min 255 (d.hops + 1) }] ∧
      u.staged = s.staged) ∧
  (∀ (s : State) (t a b : Nat) (d : Datagram),
    s.merServes = true →
    s.merProcessed d.port = true →
    d.scope = 0 →
    d.hops = d.select →
    d.address = 8 →
    d.data = [a, b] →
    d.fcsOk = true →
    s.mode = stInit ∨ s.mode = stPreop →
    1 ≤ s.pathLevel .chain →
    s.mer.held = [] →
    d.more = false →
    ∃ u, exec (.store t d) s = .next u ∧
      u.rdN Obj.MER_STATION = a + 256 * b ∧
      u.out = s.out ++ [.datagram (s.merExit d.port) 2
        { d with served := min 255 (d.served + 1), hops := min 255 (d.hops + 1) }]) ∧
  (∀ (s : State) (t a b : Nat) (d : Datagram),
    s.merServes = true →
    s.merProcessed d.port = true →
    d.scope = 0 →
    d.hops = d.select →
    d.address = 8 →
    d.data = [a, b] →
    d.fcsOk = true →
    s.mode = stInit ∨ s.mode = stPreop →
    1 ≤ s.pathLevel .chain →
    s.mer.held = [] →
    d.more = false →
    ∃ u, exec (.trade t d) s = .next u ∧
      u.rdN Obj.MER_STATION = a + 256 * b ∧
      u.out = s.out ++ [.datagram (s.merExit d.port) 3 { d with
        data := (s.at t).stationRead d
        served := min 255 (d.served + 1)
        hops := min 255 (d.hops + 1) }]) ∧
  (∀ (s : State) (t : Nat) (d : Datagram),
    s.merServes = true →
    s.merProcessed d.port = true →
    s.addressed d = true →
    d.scope.val < 3 →
    d.more = true →
    ∃ u, exec (.trade t d) s = .next u ∧
      u.mer = { s.mer with held := s.mer.held ++ [(3, d)] } ∧
      u.out = s.out ++ [.datagram (s.merExit d.port) 3 { (s.at t).receipt { d with
        data := (s.at t).merBytes d } ((s.at t).merWrite d).2 with hops := min 255 (d.hops + 1) }])

/-- R420, R434, R435 (ASK, COLLECT, CHAIN_MBX_COMPLETE): an addressed ASK with a valid FCS is held where the buffer is free,
and refused where it is not; one with the TAG of the request before makes the kept response ready again; an ASK or COLLECT
to all is forwarded unchanged and counted; a request of more than 496 bytes completes with RESULT 6; a ready response goes
out where it fits. -/
def Obligations.MeridianRequests : Prop :=
  (∀ (s : State) (t : Nat) (d : Datagram),
    s.merServes = true →
    s.merProcessed d.port = true →
    s.addressed d = true →
    d.scope.val < 2 →
    s.mer.request = none →
    16 ≤ d.data.length →
    d.fcsOk = true →
    s.mer.lastTag ≠ some (askRequest d.data).tag →
    s.mer.held = [] →
    d.more = false →
    ∃ u, exec (.ask t d) s = .next u ∧
      u.mer.request = some (askRequest d.data) ∧
      u.mer.ready = false ∧
      u.out = s.out ++ [.datagram (s.merExit d.port) 6
        { d with served := min 255 (d.served + 1), hops := min 255 (d.hops + 1) }]) ∧
  (∀ (s : State) (t : Nat) (d : Datagram),
    s.merServes = true →
    s.merProcessed d.port = true →
    s.addressed d = true →
    d.more = true →
    ∃ u, exec (.store t d) s = .next u ∧
      u.mer = { s.mer with held := s.mer.held ++ [(2, d)] } ∧
      u.staged = s.staged ∧
      u.mem = s.mem) ∧
  (∀ (s : State) (t : Nat) (d : Datagram),
    s.merServes = true →
    s.merProcessed d.port = true →
    s.addressed d = true →
    d.more = false →
    d.fcsOk = false →
    ∃ u, exec (.store t d) s = .next u ∧
      u.mer = { s.mer with held := [] } ∧
      u.rdN Obj.MER_FCS_ERRORS 0 d.port = satCount (s.rdN Obj.MER_FCS_ERRORS 0 d.port) 1 ∧
      u.staged = s.staged ∧
      u.out = s.out ++ [.datagram (s.merExit d.port) 2
        { (s.at t).receipt d ((s.at t).merWrite d).2 with hops := min 255 (d.hops + 1) }]) ∧
  (∀ (s : State) (t : Nat) (d : Datagram),
    s.merServes = true →
    s.merProcessed d.port = true →
    s.addressed d = true →
    d.scope.val < 2 →
    s.mer.request = none →
    16 ≤ d.data.length →
    d.fcsOk = true →
    s.mer.lastTag = some (askRequest d.data).tag →
    s.mer.held = [] →
    d.more = false →
    ∃ u, exec (.ask t d) s = .next u ∧
      u.mer.request = none ∧
      u.mer.ready = true ∧
      u.mer.response = s.mer.response) ∧
  (∀ (s : State) (t : Nat) (d : Datagram),
    s.merServes = true →
    s.merProcessed d.port = true →
    s.addressed d = true →
    d.scope.val < 2 →
    s.mer.request ≠ none →
    s.mer.held = [] →
    ∃ u, exec (.ask t d) s = .next u ∧
      u.mer.request = s.mer.request ∧
      u.out = s.out ++ [.datagram (s.merExit d.port) 6 { d with
        refused := min 255 (d.refused + 1)
        first := if d.first = 0 then s.rdN Obj.MER_STATION else d.first
        hops := min 255 (d.hops + 1) }]) ∧
  (∀ (s : State) (t : Nat) (d : Datagram),
    s.merServes = true →
    s.merProcessed d.port = true →
    2 ≤ d.scope.val →
    s.mer.held = [] →
    ∃ u, exec (.collect t d) s = .next u ∧
      u.rdN Obj.MER_FORMAT_ERRORS = satCount (s.rdN Obj.MER_FORMAT_ERRORS) 1 ∧
      u.out = s.out ++ [.datagram (s.merExit d.port) 7 { d with hops := min 255 (d.hops + 1) }]) ∧
  (∀ (s : State) (t : Nat) (r : MbRequest),
    s.mer.request = some r →
    r.op = 1 →
    r.object / 256 = Obj.DEVICE_STATE.key 0 0 →
    s.mode ≠ stSave →
    496 < r.length →
    ∃ u, exec (.chainMbxComplete t) s = .next u ∧
      u.mer.request = none ∧
      u.mer.ready = true ∧
      u.mer.lastTag = some r.tag ∧
      u.mer.response = responseHead r 6 ∧
      u.out = s.out) ∧
  (∀ (s : State) (t : Nat) (r : MbRequest),
    s.mer.request = some r →
    r.op = 1 →
    r.object / 256 = Obj.DEVICE_STATE.key 0 0 →
    r.offset = 0 →
    r.length = 1 →
    0 ≤ s.rd Obj.DEVICE_STATE →
    s.mode ≠ stSave →
    ∃ u, exec (.chainMbxComplete t) s = .next u ∧
      u.mer.response = responseHead r 0 ++ [s.mode % 256] ∧
      u.out = s.out) ∧
  (∀ (s : State) (t : Nat) (d : Datagram),
    s.merServes = true →
    s.merProcessed d.port = true →
    s.addressed d = true →
    d.scope.val < 2 →
    s.mer.ready = true →
    s.mer.response.length ≤ d.data.length →
    s.mer.held = [] →
    ∃ u, exec (.collect t d) s = .next u ∧
      u.out = s.out ++ [.datagram (s.merExit d.port) 7 { d with
        data := s.mer.response ++ d.data.drop s.mer.response.length
        served := min 255 (d.served + 1)
        hops := min 255 (d.hops + 1) }] ∧
      u.mer = s.mer)

/-- R412, R424 to R426, R429, R433 (MARK, SPREAD, MER_TIME_TIMEOUT, MER_WATCHDOG, MER_LINK_LOSS, MER_LINK_UP): a MARK records
both times and their difference; the reference writes its loop and its time into a SPREAD; an armed unit after it corrects
its rate by the error and counts good SPREADs, and one not yet armed that is more than 1 µs slow steps forward; without
SPREADs ALIGNED clears; without cyclic writes a unit in RUN holds; a lost link counts and splits the chain where it was
expected, and the link that comes shows the medium it chose at its first. -/
def Obligations.ChainTime : Prop :=
  (∀ (s : State) (t : Nat) (d : Datagram) (entry offset : Nat),
    s.merServes = true →
    d.port = 0 →
    d.scope = 2 →
    s.merLink 1 = true →
    s.mer.held = [] →
    ∃ u, exec (.mark t d entry offset) s = .next u ∧
      u.mer = { s.mer with markFwd := entry + offset } ∧
      u.out = s.out ++ [.datagram 1 4 { d with served := min 255 (d.served + 1), hops := min 255 (d.hops + 1) }]) ∧
  (∀ (s : State) (t : Nat) (d : Datagram) (entry offset : Nat),
    s.merServes = true →
    d.port = 1 →
    d.scope = 2 →
    s.merLink 0 = true →
    s.mer.markFwd ≤ entry + offset →
    entry + offset - s.mer.markFwd < 2 ^ 32 →
    ∃ u, exec (.mark t d entry offset) s = .next u ∧
      u.mer = { s.mer with markRet := entry + offset, loop := entry + offset - s.mer.markFwd } ∧
      u.out = s.out ++ [.datagram 0 4 d]) ∧
  (∀ (s : State) (t : Nat) (d : Datagram) (entry offset : Nat),
    s.merServes = true →
    d.port = 0 →
    d.scope = 2 →
    s.merLink 1 = false →
    s.mer.held = [] →
    ∃ u, exec (.mark t d entry offset) s = .next u ∧
      u.mer = { s.mer with
        markFwd := entry + offset
        markRet := entry + offset + s.rdN Obj.MER_FWD_DELAY_NS
        loop := s.rdN Obj.MER_FWD_DELAY_NS % 2 ^ 32 } ∧
      (d.faults = 0 → d.fcsOk = true → u.dict = s.dict)) ∧
  (∀ (s : State) (t : Nat) (d : Datagram) (entry : Nat),
    s.merServes = true →
    s.merProcessed d.port = true →
    d.scope = 2 →
    d.data.length = 16 →
    s.timeReference = true →
    s.mer.held = [] →
    ∃ u, exec (.spread t d entry) s = .next u ∧
      u.out = s.out ++ [.datagram (s.merExit d.port) 5 { d with
        data := toLe 4 s.mer.loop ++ toLe 4 (leAt d.data 4 4) ++ toLe 8 entry
        served := min 255 (d.served + 1)
        hops := min 255 (d.hops + 1) }] ∧
      u.now = max s.now t) ∧
  (∀ (s : State) (t : Nat) (d : Datagram) (entry : Nat),
    s.merServes = true →
    s.merProcessed d.port = true →
    d.scope = 2 →
    d.data.length = 16 →
    s.timeReference = false →
    leAt d.data 8 8 = 0 →
    s.mer.held = [] →
    ∃ u, exec (.spread t d entry) s = .next u ∧
      u.out = s.out ++ [.datagram (s.merExit d.port) 5 { d with hops := min 255 (d.hops + 1) }] ∧
      u.mer = s.mer) ∧
  (∀ (s : State) (t t0 : Nat) (d : Datagram) (entry : Nat) (e : Int),
    s.merServes = true →
    s.merProcessed d.port = true →
    d.scope = 2 →
    d.data.length = 16 →
    s.timeReference = false →
    leAt d.data 8 8 ≠ 0 →
    s.tim.armedSinceReset = true →
    s.mer.spread = some t0 →
    t0 < max s.now t →
    e = entry - (leAt d.data 8 8 + Int.tdiv ((leAt d.data 0 4 : Int) - s.mer.loop) 2) →
    s.mer.held = [] →
    ∃ u, exec (.spread t d entry) s = .next u ∧
      u.mer.integ = clampInt (-100000) 100000 (s.mer.integ - e * 64) ∧
      u.rd Obj.TIME_RATE_TRIM = clampInt (-100000) 100000 (u.mer.integ - Int.tdiv (e * 250000000) ((max s.now t : Nat) -
        t0)) ∧
      u.mer.goodRun = (if absNat e ≤ 20 then s.mer.goodRun + 1 else 0) ∧
      u.mer.badRun = (if absNat e ≤ 20 then 0 else s.mer.badRun + 1) ∧
      u.mer.spread = some (max s.now t) ∧
      u.rd Obj.MER_PROP_DELAY_NS = unsignedOf 4 (Int.tdiv ((leAt d.data 0 4 : Int) - s.mer.loop) 2) ∧
      u.now = max s.now t) ∧
  (∀ (s : State) (t : Nat) (d : Datagram) (entry : Nat) (e : Int),
    s.merServes = true →
    s.merProcessed d.port = true →
    d.scope = 2 →
    d.data.length = 16 →
    s.timeReference = false →
    leAt d.data 8 8 ≠ 0 →
    s.tim.armedSinceReset = false →
    e = entry - (leAt d.data 8 8 + Int.tdiv ((leAt d.data 0 4 : Int) - s.mer.loop) 2) →
    e < -1000 →
    s.mer.held = [] →
    ∃ u, exec (.spread t d entry) s = .next u ∧
      u.now = max s.now t + absNat e ∧
      u.mer.integ = 0 ∧
      u.mer.badRun = s.mer.badRun + 1) ∧
  (∀ (s : State) (t : Nat),
    s.timeReference = false →
    s.mer.spread.getD 0 + s.rdN Obj.MER_TIME_TIMEOUT_MS * 1000000 ≤ max s.now t →
    ∃ u, exec (.merTimeTimeout t) s = .next u ∧
      u.bit Obj.TIME_STATUS 0 0 tsAligned = false ∧
      u.mer.goodRun = 0) ∧
  (∀ (s : State) (t : Nat),
    0 < s.rdN Obj.MER_WATCHDOG_US →
    s.mode = stRun →
    s.mer.cyclic + s.rdN Obj.MER_WATCHDOG_US * 1000 ≤ max s.now t →
    ∃ u, exec (.merWatchdog t) s = .next u ∧
      u.bit Obj.MER_PORT_STATUS 0 0 mpWatchdog = true ∧
      u.mode = stHold ∧
      u.holdBy = 3) ∧
  (∀ (s : State) (t : Nat),
    s.rdN Obj.MER_WATCHDOG_US = 0 →
    ∃ u, exec (.merWatchdog t) s = .next u ∧
      u = s.at t) ∧
  (∀ (s : State) (t : Nat) (port : Fin 2),
    s.merLink port = true →
    (s.rdN Obj.MER_PORT_EXPECTED).testBit port = true →
    stInit ≤ s.mode →
    ∃ u, exec (.merLinkLoss t port) s = .next u ∧
      u.merLink port = false ∧
      u.rdN Obj.MER_LINK_LOSS 0 port = satCount (s.rdN Obj.MER_LINK_LOSS 0 port) 1 ∧
      u.bit Obj.MER_PORT_STATUS 0 0 mpSplit = true) ∧
  (∀ (s : State) (t : Nat) (port : Fin 2) (fibre : Bool),
    s.merLink port = false →
    ∃ u, exec (.merLinkUp t port fibre) s = .next u ∧
      u.merLink port = true ∧
      u.bit Obj.MER_PORT_STATUS 0 0 (mpFibre port) = (look s.mer.media none port).getD fibre ∧
      u.rdN Obj.MER_LINK_LOSS 0 port = s.rdN Obj.MER_LINK_LOSS 0 port)

/-- R484 to R487, R489 to R492, R494, R496, R497 (AM_OUTPUT_SAMPLE, AM_SETTLED, AM_OVERLOAD, AM_OVERLOAD_CLEAR, AM_FREEZE_MAX,
AM_PEAK_CLEAR): outside SAVE an enabled channel given the codes of one output period shows the filtered result in AM_RAW; a
settled one shows offset plus scaled result, where an I32 holds it, and a channel that has not settled discards the value;
the comparator's channel reports low after its count of low values, by the settings that stood when the sample began; a
block's last value publishes its results; a channel settles after order + 63 values; an overload is shown and counted once,
and clears after 1 ms; a freeze of AM_FREEZE_MAX_MS is forced; AM_PEAK_CLEAR sets both peaks to the present value. -/
def Obligations.MonitorSamples : Prop :=
  (∀ (s : State) (t : Nat) (channel : Fin 16) (codes : List Nat),
    s.amBit channel amEnabled = true →
    s.amBit channel amSettled = false →
    codes.length = 2 ^ s.rdN Obj.AM_CIC_LOG2R 0 channel →
    s.mode ≠ stSave →
    ∃ u, exec (.amOutputSample t channel codes) s = .next u ∧
      u.rd Obj.AM_RAW 0 channel = (s.amFilter channel codes).2 ∧
      (u.amCh channel).dropped = (s.amCh channel).dropped + 1 ∧
      u.rd Obj.AM_VALUE 0 channel = s.rd Obj.AM_VALUE 0 channel ∧
      u.out = s.out) ∧
  (∀ (s : State) (t : Nat) (channel : Fin 16) (codes : List Nat) (v : Int),
    s.amBit channel amEnabled = true →
    s.amBit channel amSettled = true →
    codes.length = 2 ^ s.rdN Obj.AM_CIC_LOG2R 0 channel →
    s.mode ≠ stSave →
    v = s.rd Obj.AM_OFFSET 0 channel + ((s.amFilter channel codes).2 * s.rd Obj.AM_SCALE 0 channel + 2 ^ 35) / 2 ^ 36 →
    -2147483648 ≤ v →
    v ≤ 2147483647 →
    ∃ u, exec (.amOutputSample t channel codes) s = .next u ∧
      u.rd Obj.AM_VALUE 0 channel = v ∧
      u.rd Obj.AM_RAW 0 channel = (s.amFilter channel codes).2) ∧
  (∀ (s : State) (t : Nat) (channel : Fin 8) (codes : List Nat) (v : Int),
    s.amBit channel amEnabled = true →
    s.amBit channel amSettled = true →
    codes.length = 2 ^ s.rdN Obj.AM_CIC_LOG2R 0 channel →
    s.mode ≠ stSave →
    v = s.rd Obj.AM_OFFSET 0 channel + ((s.amFilter channel codes).2 * s.rd Obj.AM_SCALE 0 channel + 2 ^ 35) / 2 ^ 36 →
    -2147483647 ≤ v →
    v ≤ 2147483647 →
    ∃ u, exec (.amOutputSample t ⟨channel.val, by omega⟩ codes) s = .next u ∧
      u.rd Obj.AM_PEAK_HOLD_MAX 0 channel = max (s.rd Obj.AM_PEAK_HOLD_MAX 0 channel) v ∧
      u.rd Obj.AM_PEAK_HOLD_MIN 0 channel = min (s.rd Obj.AM_PEAK_HOLD_MIN 0 channel) v ∧
      (s.rd Obj.AM_ENV 0 channel < absNat v → u.rd Obj.AM_ENV 0 channel = absNat v)) ∧
  (∀ (s : State) (t : Nat) (channel : Fin 8) (codes : List Nat) (v : Int),
    s.amBit channel amEnabled = true →
    s.amBit channel amSettled = true →
    codes.length = 2 ^ s.rdN Obj.AM_CIC_LOG2R 0 channel →
    s.mode ≠ stSave →
    v = s.rd Obj.AM_OFFSET 0 channel + ((s.amFilter channel codes).2 * s.rd Obj.AM_SCALE 0 channel + 2 ^ 35) / 2 ^ 36 →
    -2147483647 ≤ v →
    v ≤ 2147483647 →
    s.rdN Obj.EJ_ILK_PRESS_SOURCE = channel.val →
    (s.amCh channel).low = false →
    v < (s.amCh channel).press.low →
    (s.amCh channel).press.count ≤ (s.amCh channel).lowRun + 1 →
    ∃ u, exec (.amOutputSample t ⟨channel.val, by omega⟩ codes) s = .next u ∧
      u.amBit channel amPressLow = true ∧
      (u.amCh channel).low = true ∧
      (u.amCh channel).press = s.pressNow) ∧
  (∀ (s : State) (t : Nat) (channel : Fin 8) (codes : List Nat) (v : Int),
    s.amBit channel amEnabled = true →
    s.amBit channel amSettled = true →
    codes.length = 2 ^ s.rdN Obj.AM_CIC_LOG2R 0 channel →
    s.mode ≠ stSave →
    v = s.rd Obj.AM_OFFSET 0 channel + ((s.amFilter channel codes).2 * s.rd Obj.AM_SCALE 0 channel + 2 ^ 35) / 2 ^ 36 →
    -2147483647 ≤ v →
    v ≤ 2147483647 →
    s.rdN Obj.EJ_ILK_PRESS_SOURCE = channel.val →
    (s.amCh channel).low = false →
    v < (s.amCh channel).press.low →
    (s.amCh channel).lowRun + 1 < (s.amCh channel).press.count →
    s.amBit channel amOverLow = false →
    s.amBit channel amOverHigh = false →
    ∃ u, exec (.amOutputSample t ⟨channel.val, by omega⟩ codes) s = .next u ∧
      u.amBit channel amPressLow = false ∧
      (u.amCh channel).lowRun = (s.amCh channel).lowRun + 1) ∧
  (∀ (s : State) (t : Nat) (channel : Fin 8) (codes : List Nat) (v : Int),
    s.amBit channel amEnabled = true →
    s.amBit channel amSettled = true →
    codes.length = 2 ^ s.rdN Obj.AM_CIC_LOG2R 0 channel →
    s.mode ≠ stSave →
    v = s.rd Obj.AM_OFFSET 0 channel + ((s.amFilter channel codes).2 * s.rd Obj.AM_SCALE 0 channel + 2 ^ 35) / 2 ^ 36 →
    -2147483647 ≤ v →
    v ≤ 2147483647 →
    (s.amCh channel).count ≠ 0 →
    (s.amCh channel).count + 1 = (s.amCh channel).block →
    (s.amCh channel).squares + v.natAbs * v.natAbs < 2 ^ 64 →
    -2147483648 ≤ (s.amCh channel).lo →
    (s.amCh channel).lo ≤ 2147483647 →
    -2147483648 ≤ (s.amCh channel).hi →
    (s.amCh channel).hi ≤ 2147483647 →
    ∃ u, exec (.amOutputSample t ⟨channel.val, by omega⟩ codes) s = .next u ∧
      u.rd Obj.AM_BLK_MAX 0 channel = max (s.amCh channel).hi v ∧
      u.rd Obj.AM_BLK_MIN 0 channel = min (s.amCh channel).lo v ∧
      u.rdN Obj.AM_BLK_RMS 0 channel = isqrt (rnd ((s.amCh channel).squares + v.natAbs * v.natAbs : Nat) (s.amCh
        channel).block).toNat ∧
      (u.amCh channel).count = 0) ∧
  (∀ (s : State) (t : Nat) (channel : Fin 16) (codes : List Nat),
    s.amBit channel amEnabled = false →
    ∃ u, exec (.amOutputSample t channel codes) s = .next u ∧
      u = s.at t) ∧
  (∀ (s : State) (t : Nat) (channel : Fin 16),
    s.amBit channel amEnabled = true →
    s.rdN Obj.AM_CIC_ORDER 0 channel + 63 ≤ (s.amCh channel).dropped →
    ∃ u, exec (.amSettled t channel) s = .next u ∧
      u.amBit channel amSettled = true) ∧
  (∀ (s : State) (t : Nat) (channel : Fin 16),
    (s.amCh channel).dropped < s.rdN Obj.AM_CIC_ORDER 0 channel + 63 →
    ∃ u, exec (.amSettled t channel) s = .next u ∧
      u = s.at t) ∧
  (∀ (s : State) (t : Nat) (channel : Fin 16) (high : Bool),
    s.amBit channel amEnabled = true →
    s.amBit channel (if high then amOverHigh else amOverLow) = false →
    ∃ u, exec (.amOverload t channel high) s = .next u ∧
      u.amBit channel (if high then amOverHigh else amOverLow) = true ∧
      u.rdN Obj.AM_OVERLOADS 0 channel = satCount (s.rdN Obj.AM_OVERLOADS 0 channel) 1 ∧
      (u.amCh channel).overAt = max s.now t) ∧
  (∀ (s : State) (t : Nat) (channel : Fin 16) (high : Bool),
    s.amBit channel amEnabled = true →
    s.amBit channel (if high then amOverHigh else amOverLow) = true →
    ∃ u, exec (.amOverload t channel high) s = .next u ∧
      u.dict = s.dict ∧
      (u.amCh channel).overAt = max s.now t) ∧
  (∀ (s : State) (t : Nat) (channel : Fin 16),
    (s.amCh channel).overAt + 1000000 ≤ max s.now t →
    ∃ u, exec (.amOverloadClear t channel) s = .next u ∧
      u.amBit channel amOverLow = false ∧
      u.amBit channel amOverHigh = false) ∧
  (∀ (s : State) (t : Nat) (channel : Fin 16),
    max s.now t < (s.amCh channel).overAt + 1000000 →
    ∃ u, exec (.amOverloadClear t channel) s = .next u ∧
      u = s.at t) ∧
  (∀ (s : State) (t f : Nat) (channel : Fin 16),
    (s.amCh channel).frozen = some f →
    8 ≤ channel.val →
    s.amBit channel amForced = false →
    f + s.rdN Obj.AM_FREEZE_MAX_MS * 1000000 ≤ max s.now t →
    ∃ u, exec (.amFreezeMax t channel) s = .next u ∧
      u.amBit channel amForced = true ∧
      u.rdN Obj.AM_DC_FORCED 0 (channel.val - 8) = satCount (s.rdN Obj.AM_DC_FORCED 0 (channel.val - 8)) 1 ∧
      u.out = s.out) ∧
  (∀ (s : State) (t : Nat) (path : Path) (value : List Byte) (n : Fin 8),
    s.checkWrite path Obj.AM_PEAK_CLEAR 0 0 value = 0 →
    (leNat value).testBit n = true →
    ∃ u, exec (.amPeakClear t path value) s = .next u ∧
      u.rd Obj.AM_PEAK_HOLD_MAX 0 n = s.rd Obj.AM_VALUE 0 n ∧
      u.rd Obj.AM_PEAK_HOLD_MIN 0 n = s.rd Obj.AM_VALUE 0 n ∧
      u.out = s.out ++ [.result path (Obj.AM_PEAK_CLEAR.key 0 0) 0])

/-- R504, R506, R508, R510 (CH_PACKET, CH_ACK, CH_NAK, CH_ACK_SEND, L1_REQ, L1_ACK, CH_L1_IDLE, CH_L0S_ENTRY, CH_WAKE_PROBE):
the expected packet is taken and acknowledged later; one with a bad CRC counts and one out of turn does not, and both ask
for the expected one; with no packet waiting for room, an ACK takes every packet up to its SEQ out of the replay buffer and
a NAK sends the others again; one beyond the retry limit is link loss, shown for a unit with no camera loan, as is an
unanswered probe; an ACK names the last good SEQ; a port without traffic asks for and enters L1, enters L0s, and probes in
L1 once 1 ms has passed. -/
def Obligations.ChordPackets : Prop :=
  (∀ (s : State) (t : Nat) (link : Fin 2) (cls typ seq : Nat) (payload : List Byte) (crc : Nat),
    s.chWidth link ≠ 0 →
    chordCrcOk (chordBytes cls typ seq payload crc) = true →
    1 ≤ cls →
    cls ≤ 4 →
    seq = (s.chp link).expect →
    ∃ u, exec (.chPacket t link cls typ seq payload crc) s = .next u ∧
      (u.chp link).expect = ((s.chp link).expect + 1) % 16777216 ∧
      (u.chp link).ackDue = true ∧
      (u.chp link).lastHeard = max s.now t ∧
      (u.chp link).lastTraffic = max s.now t ∧
      u.chPower link = 0 ∧
      u.out = s.out) ∧
  (∀ (s : State) (t : Nat) (link : Fin 2) (cls typ seq : Nat) (payload : List Byte) (crc : Nat),
    s.chWidth link ≠ 0 →
    chordCrcOk (chordBytes cls typ seq payload crc) = false →
    ∃ u, exec (.chPacket t link cls typ seq payload crc) s = .next u ∧
      u.rdN Obj.CH_CRC_ERRORS 0 link = satCount (s.rdN Obj.CH_CRC_ERRORS 0 link) 1 ∧
      (u.chp link).expect = (s.chp link).expect ∧
      u.out = s.out ++ [.chord link (chordPacket 0 2 0 (toLe 4 (s.chp link).expect)) false]) ∧
  (∀ (s : State) (t : Nat) (link : Fin 2) (cls typ seq : Nat) (payload : List Byte) (crc : Nat),
    s.chWidth link ≠ 0 →
    chordCrcOk (chordBytes cls typ seq payload crc) = true →
    cls ≠ 0 →
    seq ≠ (s.chp link).expect ∨ 5 ≤ cls →
    ∃ u, exec (.chPacket t link cls typ seq payload crc) s = .next u ∧
      u.rdN Obj.CH_CRC_ERRORS 0 link = s.rdN Obj.CH_CRC_ERRORS 0 link ∧
      (u.chp link).expect = (s.chp link).expect ∧
      u.out = s.out ++ [.chord link (chordPacket 0 2 0 (toLe 4 (s.chp link).expect)) false]) ∧
  (∀ (s : State) (t : Nat) (link : Fin 2) (cls typ seq : Nat) (payload : List Byte) (crc : Nat),
    s.chWidth link ≠ 0 →
    (s.chp link).stalled = [] →
    chordCrcOk (chordBytes cls typ seq payload crc) = true →
    cls = 0 →
    typ = 1 →
    ∃ u, exec (.chPacket t link cls typ seq payload crc) s = .next u ∧
      (u.chp link).replay = (s.chp link).replay.filter (fun x => !seqUpTo x.seq (leAt payload 0 4 % 16777216)) ∧
      (u.chp link).expect = (s.chp link).expect ∧
      u.out = s.out) ∧
  (∀ (cls typ seq : Nat) (payload : List Byte),
    cls < 16 →
    typ < 256 →
    seq < 16777216 →
    payload.length ≤ 2048 →
    chordClass (chordPacket cls typ seq payload) = cls ∧
    chordType (chordPacket cls typ seq payload) = typ ∧
    chordSeq (chordPacket cls typ seq payload) = seq ∧
    chordLength (chordPacket cls typ seq payload) = payload.length) ∧
  (∀ (s : State) (t : Nat) (link : Fin 2) (seq : Nat),
    (s.chp link).stalled = [] →
    ∃ u, exec (.chAck t link seq) s = .next u ∧
      (u.chp link).replay = (s.chp link).replay.filter (fun x => !seqUpTo x.seq (seq % 16777216)) ∧
      u.out = s.out ∧
      u.dict = s.dict) ∧
  (∀ (s : State) (t : Nat) (link : Fin 2) (seq : Nat) (l : List ChPacket),
    (s.chp link).stalled = [] →
    l = (s.chp link).replay.filter (fun x => seqUpTo (seq % 16777216) x.seq) →
    (∀ x ∈ l, x.tries + 1 ≤ s.rdN Obj.CH_RETRY_LIMIT) →
    ∃ u, exec (.chNak t link seq) s = .next u ∧
      u.out = s.out ++ l.map (fun x => .chord link (chordPacket x.cls x.typ x.seq x.payload) false) ∧
      (u.chp link).replay = l.map (fun x => { x with tries := x.tries + 1 }) ∧
      (u.chp link).lastSend = max s.now t) ∧
  (∀ (s : State) (t : Nat) (link : Fin 2) (seq : Nat) (x : ChPacket),
    x ∈ (s.chp link).replay →
    seqUpTo (seq % 16777216) x.seq = true →
    s.rdN Obj.CH_RETRY_LIMIT ≤ x.tries →
    s.chWidth link ≠ 0 →
    s.st.lent = [] →
    s.st.served = [] →
    ∃ u, exec (.chNak t link seq) s = .next u ∧
      u.chUp link = false ∧
      (u.chp link).replay = [] ∧
      u.rdN Obj.CH_LINK_LOSS 0 link = satCount (s.rdN Obj.CH_LINK_LOSS 0 link) 1) ∧
  (∀ (s : State) (t : Nat) (link : Fin 2),
    s.chWidth link ≠ 0 →
    s.chPower link ≠ 2 →
    (s.chp link).ackDue = true →
    ∃ u, exec (.chAckSend t link) s = .next u ∧
      u.out = s.out ++ [.chord link (chordPacket 0 1 0 (toLe 4 (((s.chp link).expect + 16777215) % 16777216))) false] ∧
      (u.chp link).ackDue = false ∧
      (u.chp link).lastSend = max s.now t) ∧
  (∀ (s : State) (t : Nat) (link : Fin 2),
    (s.at t).l1Allowed link = true →
    s.chPower link ≠ 2 →
    s.rdN Obj.CH_INJECT 0 link = 0 →
    ∃ u, exec (.chL1Idle t link) s = .next u ∧
      (u.chp link).l1Asked = true ∧
      u.out = s.out ++ [.chord link (chordPacket 0 3 (s.chp link).nextSeq []) false] ∧
      (u.chp link).replay.map (fun x => (x.cls, x.typ, x.seq)) = [(0, 3, (s.chp link).nextSeq)]) ∧
  (∀ (s : State) (t : Nat) (link : Fin 2),
    (s.at t).l1Allowed link = true →
    s.rdN Obj.CH_INJECT 0 link = 0 →
    ∃ u, exec (.l1Req t link) s = .next u ∧
      u.chPower link = 2 ∧
      (u.chp link).expect = ((s.chp link).expect + 1) % 16777216 ∧
      u.out = s.out ++ [.chord link (chordPacket 0 4 (s.chp link).nextSeq []) false]) ∧
  (∀ (s : State) (t : Nat) (link : Fin 2),
    (s.chp link).l1Asked = true →
    (s.chp link).stalled = [] →
    (∀ x ∈ (s.chp link).replay, x.cls = 0) →
    ∃ u, exec (.l1Ack t link) s = .next u ∧
      u.chPower link = 2 ∧
      (u.chp link).l1Asked = false ∧
      u.out = s.out) ∧
  (∀ (s : State) (t : Nat) (link : Fin 2),
    s.chUp link = true →
    s.chPower link = 0 →
    (s.chp link).stalled = [] →
    (s.chp link).ackDue = false →
    (s.chp link).lastSend + s.rdN Obj.CH_L0S_NS ≤ max s.now t →
    ∃ u, exec (.chL0sEntry t link) s = .next u ∧
      u.chPower link = 1 ∧
      u.out = s.out) ∧
  (∀ (s : State) (t : Nat) (link : Fin 2),
    s.chPower link = 2 →
    (s.chp link).lastSend + 1000000 ≤ max s.now t →
    ∃ u, exec (.chWakeProbe t link true) s = .next u ∧
      u.out = s.out ++ [.wakeProbe link] ∧
      (u.chp link).lastHeard = max s.now t ∧
      u.dict = s.dict) ∧
  (∀ (s : State) (t : Nat) (link : Fin 2),
    s.chPower link = 2 →
    (s.chp link).lastSend + 1000000 ≤ max s.now t →
    s.chWidth link ≠ 0 →
    s.st.lent = [] →
    s.st.served = [] →
    ∃ u, exec (.chWakeProbe t link false) s = .next u ∧
      u.chUp link = false ∧
      u.rdN Obj.CH_LINK_LOSS 0 link = satCount (s.rdN Obj.CH_LINK_LOSS 0 link) 1)

/-- R200, R207, R501 to R503, R508, R509, R511, R512 (CH_TRAIN_DONE, TAP_REQUEST, HELLO, CH_LINK_LOSS, LOAN_START,
LOAN_SETTINGS, LOAN_LINE, LN_PATTERN_WRITE, LN_EYE_UPDATE, LN_LOCK_GAINED, LN_LOCK_LOST): training shows the width and rate
and starts the port afresh; a tap request is answered with the new taps or, beyond the range, with the limit (presets, steps
and ranges, which no rule gives, are the model's free values, log entry 44); HELLO pairs the port or refuses it, and seam
traffic runs where ST_ENABLE is set and the HELLO agrees; a lost link of a unit with no camera loan counts, clears its
buffers and retrains; an unserved port is lent where the link carries it, and refused where it does not; a free spare takes
a neighbour's port over, which begins by replaying, and takes its lines; a lane's pattern, eye and lock show. -/
def Obligations.ChordLinks : Prop :=
  (∀ (s : State) (t : Nat) (link : Fin 2) (full half : List LaneTraining) (far : List (Fin 8 × Bool)) (width : Nat) (rate16
    : Bool) (l : List Nat),
    s.chTrains link = true →
    s.trainResult link full half far = some (width, rate16, l) →
    ∃ u, exec (.chTrainDone t link full half far) s = .next u ∧
      u.chWidth link = width ∧
      u.chBit link csTraining = false ∧
      u.chBit link csRate16 = rate16 ∧
      u.chBit link csDegraded = (width != 3 || rate16) ∧
      (u.chp link).replay.map (fun x => (x.cls, x.typ, x.seq)) = [(0, 0, 0)] ∧
      (u.chp link).expect = 0) ∧
  (∀ (s : State) (t : Nat) (link : Fin 2) (full half : List LaneTraining) (far : List (Fin 8 × Bool)),
    s.chTrains link = true →
    s.rdN Obj.CH_RATE_MAX 0 link ≠ 16 →
    (∀ n, n < 8 → s.lanePasses full (farLanes far false) n = true) →
    ∃ u, exec (.chTrainDone t link full half far) s = .next u ∧
      u.chWidth link = 3 ∧
      u.chBit link csRate16 = false ∧
      u.chBit link csDegraded = false) ∧
  (∀ (s : State) (t : Nat) (link : Fin 2) (full half : List LaneTraining) (far : List (Fin 8 × Bool)),
    s.chTrains link = true →
    s.trainResult link full half far = none →
    ∃ u, exec (.chTrainDone t link full half far) s = .next u ∧
      u.chWidth link = 0 ∧
      u.chBit link csTraining = true ∧
      u.out = s.out ++ (full ++ half).flatMap (fun x => (x.requests.take 256).map (fun r => .tapRequest link x.lane r))) ∧
  (∀ (s : State) (t : Nat) (link : Fin 2) (lane : Fin 8) (request : TapRequest) (full half : List LaneTraining) (far : List
    (Fin 8 × Bool)),
    s.chTrains link = false →
    exec (.chTrainDone t link full half far) s = .next (s.at t) ∧
    exec (.tapRequest t link lane request) s = .next (s.at t)) ∧
  (∀ (s : State) (t : Nat) (link : Fin 2) (lane : Fin 8) (request : TapRequest),
    s.chTrains link = true →
    ∃ u, exec (.tapRequest t link lane request) s = .next u ∧
      (∀ v, tapAnswer (s.rdN Obj.CH_TAPS 0 (8 * link.val + lane.val)) request = some v → u.out = s.out ++ [.taps link lane v
        false] ∧ u.rdN Obj.CH_TAPS 0 (8 * link.val + lane.val) = v) ∧
      (tapAnswer (s.rdN Obj.CH_TAPS 0 (8 * link.val + lane.val)) request = none → u.out = s.out ++ [.taps link lane (s.rdN
        Obj.CH_TAPS 0 (8 * link.val + lane.val)) true] ∧ u.dict = s.dict) ∧
      u.mem = s.mem) ∧
  (∀ (s : State) (t : Nat) (link : Fin 2) (hello : Hello),
    s.chWidth link ≠ 0 →
    s.chBit link csTest = false →
    hello.east ≠ (link.val == 1) →
    hello.station ≠ s.rdN Obj.MER_STATION →
    ∃ u, exec (.hello t link hello) s = .next u ∧
      u.chUp link = true ∧
      u.chBit link csPairing = false ∧
      u.seamTraffic link = (s.flag Obj.ST_ENABLE && s.seamAgrees link hello) ∧
      (u.chp link).peer = some hello) ∧
  (∀ (s : State) (t : Nat) (link : Fin 2) (hello : Hello),
    s.chWidth link ≠ 0 →
    s.chBit link csTest = false →
    hello.east = (link.val == 1) →
    ∃ u, exec (.hello t link hello) s = .next u ∧
      u.chUp link = false ∧
      u.chBit link csPairing = true ∧
      (u.chp link).peer = some hello) ∧
  (∀ (s : State) (t : LinkSilence) (link : Fin 2),
    s.chWidth link ≠ 0 →
    s.chPower link ≠ 2 →
    t.unlocked = true ∨ (s.chp link).lastHeard + 10000 ≤ max s.now t.time →
    s.st.lent = [] →
    s.st.served = [] →
    ∃ u, exec (.chLinkLoss t link) s = .next u ∧
      u.chUp link = false ∧
      u.chWidth link = 0 ∧
      u.chBit link csTraining = true ∧
      u.seamTraffic link = false ∧
      (u.chp link).replay = [] ∧
      u.rdN Obj.CH_LINK_LOSS 0 link = satCount (s.rdN Obj.CH_LINK_LOSS 0 link) 1) ∧
  (∀ (s : State) (t : Nat) (link : Fin 2),
    max s.now t < (s.chp link).lastHeard + 10000 →
    ∃ u, exec (.chLinkLoss ⟨t, false⟩ link) s = .next u ∧
      u = s.at t) ∧
  (∀ (s : State) (t : Nat) (link : Fin 2) (p : Fin 12),
    s.rdN Obj.RV_PORT_PIPELINE 0 p = 255 →
    s.lining = true →
    s.flag Obj.CAM_ENABLE p = true →
    s.flag Obj.ST_LOAN_ENABLE = true →
    s.chUp link = true →
    s.seamTraffic link = true →
    look s.st.lent none link.val = none →
    s.loanFits link p = true →
    ∃ u, exec (.loanStart t link p) s = .next u ∧
      look u.st.lent none link.val = some p.val ∧
      u.rdN Obj.RV_PORT_PIPELINE 0 p = 254 ∧
      u.chBit link csLoanRefused = false ∧
      u.bit Obj.ST_STATUS 0 0 7 = true) ∧
  (∀ (s : State) (t : Nat) (link : Fin 2) (p : Fin 12),
    s.rdN Obj.RV_PORT_PIPELINE 0 p = 255 →
    s.lining = true →
    s.flag Obj.CAM_ENABLE p = true →
    s.flag Obj.ST_LOAN_ENABLE = true →
    s.chUp link = true →
    s.seamTraffic link = true →
    look s.st.lent none link.val = none →
    s.loanFits link p = false →
    ∃ u, exec (.loanStart t link p) s = .next u ∧
      u.st = s.st ∧
      u.rdN Obj.RV_PORT_PIPELINE 0 p = 255 ∧
      u.chBit link csLoanRefused = true) ∧
  (∀ (s : State) (t : Nat) (link : Fin 2) (settings : LoanSettings),
    s.flag Obj.ST_LOAN_ENABLE = true →
    s.chUp link = true →
    s.seamTraffic link = true →
    s.rdN Obj.RV_SPARE < 13 →
    s.lining = true →
    look s.st.served none link.val = none →
    ∃ u, exec (.loanSettings t link settings) s = .next u ∧
      look u.st.served none link.val = some settings.homePort.val ∧
      u.pipeState (s.rdN Obj.RV_SPARE) = psReplaying ∧
      u.rdN Obj.RV_SPARE = noPipe) ∧
  (∀ (s : State) (t home : Nat) (link : Fin 2) (line : LoanLine),
    look s.st.served none link.val = some home →
    ∃ u, exec (.loanLine t link line) s = .next u ∧
      (u.cam (12 + link.val)).toPipe.map (fun l => (l.line, l.trig, l.rows)) = (s.cam (12 + link.val)).toPipe.map (fun l =>
        (l.line, l.trig, l.rows)) ++ [(line.line, line.trig, line.rows)] ∧
      u.out = s.out) ∧
  (∀ (s : State) (t : Nat) (path : Path) (lane : Fin 80) (value : List Byte),
    s.checkAccess path Obj.LN_PATTERN 0 lane value.length = 0 →
    leNat value ≤ 6 →
    leNat value = 0 ∨ s.laneTestAllowed lane = true →
    ∃ u, exec (.lnPatternWrite t path lane value) s = .next u ∧
      u.rdN Obj.LN_PATTERN 0 lane = leNat value ∧
      u.rdN Obj.LN_LOCKED 0 lane = 0 ∧
      u.out.getLast? = some (.result path (Obj.LN_PATTERN.key 0 lane) 0)) ∧
  (∀ (s : State) (t : Nat) (path : Path) (lane : Fin 80) (value : List Byte),
    s.checkAccess path Obj.LN_PATTERN 0 lane value.length = 0 →
    leNat value ≠ 0 →
    s.laneTestAllowed lane = false →
    ∃ u, exec (.lnPatternWrite t path lane value) s = .next u ∧
      u.dict = s.dict ∧
      u.out = s.out ++ [.result path (Obj.LN_PATTERN.key 0 lane) 4]) ∧
  (∀ (s : State) (t : Nat) (lane : Fin 80) (height width bits errors sent : Nat),
    ∃ u, exec (.lnEyeUpdate t lane height width bits errors sent) s = .next u ∧
      u.rdN Obj.LN_EYE 0 lane = height * 65536 + width ∧
      (s.flag Obj.LN_LOCKED 0 lane = true → u.rdN Obj.LN_BITS 0 lane = satCount (s.rdN Obj.LN_BITS 0 lane) bits ∧ (s.flag
        Obj.LN_LOOPBACK 0 lane = false → u.rdN Obj.LN_ERRORS 0 lane = satCount (s.rdN Obj.LN_ERRORS 0 lane) errors)) ∧
      (s.flag Obj.LN_LOCKED 0 lane = false → u.rdN Obj.LN_BITS 0 lane = s.rdN Obj.LN_BITS 0 lane ∧ u.rdN Obj.LN_ERRORS 0
        lane = s.rdN Obj.LN_ERRORS 0 lane) ∧
      u.out = s.out) ∧
  (∀ (s : State) (t : Nat) (lane : Fin 80) (height width bits errors sent : Nat),
    s.rdN Obj.LN_PATTERN 0 lane ≠ 0 →
    s.rdN Obj.LN_INJECT 0 lane ≠ 0 →
    ∃ u, exec (.lnEyeUpdate t lane height width bits errors sent) s = .next u ∧
      u.rdN Obj.LN_INJECTED 0 lane = satCount (s.rdN Obj.LN_INJECTED 0 lane) ((look s.lanes 0 lane.val + sent) / 2 ^ s.rdN
        Obj.LN_INJECT 0 lane) ∧
      look u.lanes 0 lane.val = (look s.lanes 0 lane.val + sent) % 2 ^ s.rdN Obj.LN_INJECT 0 lane) ∧
  (∀ (s : State) (t : Nat) (lane : Fin 80) (height width bits errors sent : Nat),
    s.flag Obj.LN_LOCKED 0 lane = true →
    s.flag Obj.LN_LOOPBACK 0 lane = true →
    lane.val < 16 ∨ 64 ≤ lane.val →
    ∃ u, exec (.lnEyeUpdate t lane height width bits errors sent) s = .next u ∧
      u.rdN Obj.LN_ERRORS 0 lane = satCount (s.rdN Obj.LN_ERRORS 0 lane) (s.laneInject lane sent).1) ∧
  (∀ (s : State) (t : Nat) (lane : Fin 80),
    s.rdN Obj.LN_PATTERN 0 lane ≠ 0 →
    ∃ u, exec (.lnLockGained t lane) s = .next u ∧
      u.rdN Obj.LN_LOCKED 0 lane = 1 ∧
      u.out = s.out) ∧
  (∀ (s : State) (t : Nat) (lane : Fin 80),
    s.flag Obj.LN_LOCKED 0 lane = true →
    ∃ u, exec (.lnLockLost t lane) s = .next u ∧
      u.rdN Obj.LN_LOCKED 0 lane = 0 ∧
      u.rdN Obj.LN_RESYNC 0 lane = satCount (s.rdN Obj.LN_RESYNC 0 lane) 1 ∧
      u.out = s.out)

/-- R519 to R522 (PLATE_REF, DEFECT_MERGE, STITCH, VALVE_LATENCY, VALVE_THRESHOLD, PIPE_BIST, VERNIER): a request whose checks
pass, for a target that exists and has none in the queue, joins the queue behind the others with its deadline; one for a
target that does not exist, or a forced one of a task that may not be forced, has RESULT 5; a seventeenth has RESULT 8. -/
def Obligations.CalibrationRequests : Prop :=
  (∀ (s : State) (t : Nat) (path : Path) (forced : Bool) (target deadline : Nat),
    s.checkAccess path Obj.CAL_REQUEST 0 0 4 = 0 →
    calTargetExists 1 target = true →
    isGroup 1 target = false →
    s.calRequest 1 target = none →
    s.cal.queue.length < 16 →
    ∃ u, exec (.plateRef t path forced target deadline) s = .next u ∧
      u.cal.queue.map (fun r => (r.task, r.target, r.forced, r.due)) = s.cal.queue.map (fun r => (r.task, r.target,
        r.forced, r.due)) ++ [(1, target, forced, (s.at t).calDue deadline)] ∧
      u.out = s.out ++ [.result path (Obj.CAL_REQUEST.key 0 0) 0]) ∧
  (∀ (s : State) (t : Nat) (path : Path) (target deadline : Nat),
    s.checkAccess path Obj.CAL_REQUEST 0 0 4 = 0 →
    calTargetExists 2 target = true →
    isGroup 2 target = false →
    s.calRequest 2 target = none →
    s.cal.queue.length < 16 →
    ∃ u, exec (.defectMerge t path false target deadline) s = .next u ∧
      u.cal.queue.map (fun r => (r.task, r.target, r.forced, r.due)) = s.cal.queue.map (fun r => (r.task, r.target,
        r.forced, r.due)) ++ [(2, target, false, (s.at t).calDue deadline)] ∧
      u.out = s.out ++ [.result path (Obj.CAL_REQUEST.key 0 0) 0]) ∧
  (∀ (s : State) (t : Nat) (path : Path) (target deadline : Nat),
    s.checkAccess path Obj.CAL_REQUEST 0 0 4 = 0 →
    calTargetExists 3 target = true →
    isGroup 3 target = false →
    s.calRequest 3 target = none →
    s.cal.queue.length < 16 →
    ∃ u, exec (.stitch t path false target deadline) s = .next u ∧
      u.cal.queue.map (fun r => (r.task, r.target, r.forced, r.due)) = s.cal.queue.map (fun r => (r.task, r.target,
        r.forced, r.due)) ++ [(3, target, false, (s.at t).calDue deadline)] ∧
      u.out = s.out ++ [.result path (Obj.CAL_REQUEST.key 0 0) 0]) ∧
  (∀ (s : State) (t : Nat) (path : Path) (target deadline : Nat),
    s.checkAccess path Obj.CAL_REQUEST 0 0 4 = 0 →
    calTargetExists 4 target = true →
    isGroup 4 target = false →
    s.calRequest 4 target = none →
    s.cal.queue.length < 16 →
    ∃ u, exec (.valveLatency t path false target deadline) s = .next u ∧
      u.cal.queue.map (fun r => (r.task, r.target, r.forced, r.due)) = s.cal.queue.map (fun r => (r.task, r.target,
        r.forced, r.due)) ++ [(4, target, false, (s.at t).calDue deadline)] ∧
      u.out = s.out ++ [.result path (Obj.CAL_REQUEST.key 0 0) 0]) ∧
  (∀ (s : State) (t : Nat) (path : Path) (forced : Bool) (target deadline : Nat),
    s.checkAccess path Obj.CAL_REQUEST 0 0 4 = 0 →
    calTargetExists 5 target = true →
    isGroup 5 target = false →
    s.calRequest 5 target = none →
    s.cal.queue.length < 16 →
    ∃ u, exec (.valveThreshold t path forced target deadline) s = .next u ∧
      u.cal.queue.map (fun r => (r.task, r.target, r.forced, r.due)) = s.cal.queue.map (fun r => (r.task, r.target,
        r.forced, r.due)) ++ [(5, target, forced, (s.at t).calDue deadline)] ∧
      u.out = s.out ++ [.result path (Obj.CAL_REQUEST.key 0 0) 0]) ∧
  (∀ (s : State) (t : Nat) (path : Path) (forced : Bool) (target deadline : Nat),
    s.checkAccess path Obj.CAL_REQUEST 0 0 4 = 0 →
    calTargetExists 6 target = true →
    isGroup 6 target = false →
    s.calRequest 6 target = none →
    s.cal.queue.length < 16 →
    ∃ u, exec (.pipeBist t path forced target deadline) s = .next u ∧
      u.cal.queue.map (fun r => (r.task, r.target, r.forced, r.due)) = s.cal.queue.map (fun r => (r.task, r.target,
        r.forced, r.due)) ++ [(6, target, forced, (s.at t).calDue deadline)] ∧
      u.out = s.out ++ [.result path (Obj.CAL_REQUEST.key 0 0) 0]) ∧
  (∀ (s : State) (t : Nat) (path : Path) (target deadline : Nat),
    s.checkAccess path Obj.CAL_REQUEST 0 0 4 = 0 →
    calTargetExists 7 target = true →
    isGroup 7 target = false →
    s.calRequest 7 target = none →
    s.cal.queue.length < 16 →
    ∃ u, exec (.vernier t path false target deadline) s = .next u ∧
      u.cal.queue.map (fun r => (r.task, r.target, r.forced, r.due)) = s.cal.queue.map (fun r => (r.task, r.target,
        r.forced, r.due)) ++ [(7, target, false, (s.at t).calDue deadline)] ∧
      u.out = s.out ++ [.result path (Obj.CAL_REQUEST.key 0 0) 0]) ∧
  (∀ (s : State) (t : Nat) (path : Path) (forced : Bool) (target deadline : Nat),
    s.checkAccess path Obj.CAL_REQUEST 0 0 4 = 0 →
    calTargetExists 1 target = false →
    ∃ u, exec (.plateRef t path forced target deadline) s = .next u ∧
      u.cal = s.cal ∧
      u.out = s.out ++ [.result path (Obj.CAL_REQUEST.key 0 0) 5]) ∧
  (∀ (s : State) (t : Nat) (path : Path) (target deadline : Nat),
    s.checkAccess path Obj.CAL_REQUEST 0 0 4 = 0 →
    ∃ u, exec (.valveLatency t path true target deadline) s = .next u ∧
      u.cal = s.cal ∧
      u.out = s.out ++ [.result path (Obj.CAL_REQUEST.key 0 0) 5]) ∧
  (∀ (s : State) (t : Nat) (path : Path) (target deadline : Nat),
    s.checkAccess path Obj.CAL_REQUEST 0 0 4 = 0 →
    calTargetExists 1 target = true →
    s.calRequest 1 target = none →
    16 ≤ s.cal.queue.length →
    ∃ u, exec (.plateRef t path false target deadline) s = .next u ∧
      u.cal = s.cal ∧
      u.out = s.out ++ [.result path (Obj.CAL_REQUEST.key 0 0) 8])

/-- R523, R524, R526 to R528, R529 to R531, R533, R535 to R538, R542 (CAL_DEADLINE, CAL_RESULT, VERNIER_PERIODIC,
MODULATOR_ROTATE, CAL_STATUS_READ, CAL_STORE, CAL_STORE_CLEAR, ALMANAC_WRITE, ALMANAC_SAMPLE): the one request that is past
its deadline and not forced leaves the queue and counts as starved, a forced one runs on marked lines, and with none late
the queue stays; each of the seven tasks completes: a plate reference whose sites all have their lines, where none stood
before, is accepted, a merge that fits shows as pending, one of a disabled port is refused; a stitch is complete when every
enabled port is; a latency within its limits becomes the valve's and one beyond is refused; the least of three thresholds
becomes the valve's; a self-test with a result is done; a vernier selection that qualifies is switched in, on request and
every 10 s, and one that does not, or of a link that is down, is refused; a modulator whose set can be kept has it after
each period, and one with too few elements is refused; a read of CAL_STATUS clears STARVED and REJECTED; the store takes the
settings in PREOP and is cleared; the Almanac image takes the next generation every 60 s and its histograms a sample every
second. -/
def Obligations.CalibrationResults : Prop :=
  (∀ (s : State) (t : Nat) (r : CalRequest),
    s.cal.queue.filter (fun x => decide (x.due ≤ max s.now t)) = [r] →
    r.forced = false →
    r.task < 7 →
    r.task ≠ 2 →
    ∃ u, exec (.calDeadline t) s = .next u ∧
      u.cal.queue.map (fun x => (x.task, x.target)) = (s.cal.queue.filter (fun x => !(x.task == r.task && x.target ==
        r.target))).map (fun x => (x.task, x.target)) ∧
      u.rdN Obj.CAL_STARVED_COUNT 0 r.task = satCount (s.rdN Obj.CAL_STARVED_COUNT 0 r.task) 1 ∧
      u.bit Obj.CAL_STATUS 0 0 calStarved = true) ∧
  (∀ (s : State) (t : Nat) (r : CalRequest),
    s.cal.queue.filter (fun x => decide (x.due ≤ max s.now t)) = [r] →
    r.task = 7 →
    r.forced = false →
    s.linkUp r.target = false →
    ∃ u, exec (.calDeadline t) s = .next u ∧
      u.rdN Obj.CAL_STARVED_COUNT 0 7 = satCount (s.rdN Obj.CAL_STARVED_COUNT 0 7) 1 ∧
      u.bit Obj.CAL_STATUS 0 0 calStarved = true) ∧
  (∀ (s : State) (t : Nat) (r : CalRequest),
    r ∈ s.cal.queue →
    r.due ≤ max s.now t →
    r.task = 1 ∨ r.task = 5 →
    r.forced = true →
    (∀ x ∈ s.cal.queue, x.task = r.task → x.target = r.target → x = r) →
    ∃ u, exec (.calDeadline t) s = .next u ∧
      u.cal.queue.any (fun x => x.task == r.task && x.target == r.target && x.forcing) = true) ∧
  (∀ (s : State) (t : Nat),
    (∀ r ∈ s.cal.queue, max s.now t < r.due) →
    ∃ u, exec (.calDeadline t) s = .next u ∧
      u.cal.queue.map (fun x => (x.task, x.target)) = s.cal.queue.map (fun x => (x.task, x.target)) ∧
      (∀ k, k < 8 → u.rdN Obj.CAL_STARVED_COUNT 0 k = s.rdN Obj.CAL_STARVED_COUNT 0 k)) ∧
  (∀ (s : State) (t : Nat) (p : Fin 12) (r : CalRequest),
    s.calRunning 1 p = some r →
    s.flag Obj.CAM_ENABLE p = true →
    s.calBeaten (Obj.RC_FF_PLATE_REF.key p 0) = false →
    s.rdBlob Obj.RC_FF_PLATE_REF p = [] →
    (∀ y, y < layoutRows (s.rdN Obj.CAM_LAYOUT p) → ∀ x, x < s.camC p → s.siteValid p y x = true → s.rdN Obj.CAL_PLATE_LINES
      ≤ ((look s.cal.plate [] p.val).getD (y * s.camC p + x) (0, 0)).1 ∧ (siteAt (s.rcp p).sites (s.camC p) y x).stale =
      false) →
    ∃ u, exec (.calResult t (.plateRef p)) s = .next u ∧
      u.rdN Obj.CAL_DONE 0 1 = satCount (s.rdN Obj.CAL_DONE 0 1) 1 ∧
      u.rdN Obj.CAL_REJECTS 0 1 = s.rdN Obj.CAL_REJECTS 0 1) ∧
  (∀ (s : State) (t : Nat) (p : Fin 12) (r : CalRequest),
    s.calRunning 2 p = some r →
    s.flag Obj.CAM_ENABLE p = false →
    ∃ u, exec (.calResult t (.defectMerge p)) s = .next u ∧
      u.rdN Obj.CAL_REJECTS 0 2 = satCount (s.rdN Obj.CAL_REJECTS 0 2) 1 ∧
      u.bit Obj.CAL_STATUS 0 0 calRejected = true) ∧
  (∀ (s : State) (t : Nat) (p : Fin 12) (r : CalRequest),
    s.calRunning 2 p = some r →
    s.flag Obj.CAM_ENABLE p = true →
    s.calBeaten (Obj.RC_DEFECT_MAP.key p 0) = false →
    (s.mergedMap p).length ≤ 1024 →
    mapFits (mapBlob (s.camC p) (s.mergedMap p)) (s.rdN Obj.CAM_LAYOUT p) (s.rdN Obj.CAM_WIDTH p) = true →
    ∃ u, exec (.calResult t (.defectMerge p)) s = .next u ∧
      u.rdN Obj.CAL_DONE 0 2 = satCount (s.rdN Obj.CAL_DONE 0 2) 1 ∧
      u.rdN Obj.RC_DEFECT_MAP_STATE p = 2) ∧
  (∀ (s : State) (t : Nat),
    s.rdN Obj.ST_CAL_STATE = 1 →
    (∀ k, k < 12 → s.flag Obj.CAM_ENABLE k = true → s.st.calDone.contains k = true) →
    (∀ r ∈ s.cal.queue, r.task = 3 → r.started = true) →
    ∃ u, exec (.calResult t .stitch) s = .next u ∧
      u.rdN Obj.ST_CAL_STATE = (if s.st.calBad then 3 else 2)) ∧
  (∀ (s : State) (t : Nat) (v : Fin 2048) (l : Int),
    s.valveGone v = false →
    s.rdN Obj.CAL_LAT_SAMPLES ≤ (look s.cal.latency (0, 0) v.val).1 →
    s.calBeaten (Obj.EJ_VALVE_OPEN_LAT_NS.key 0 v) = false →
    l = rnd (100 * ((look s.cal.latency (0, 0) v.val).2 : Int)) (s.rdN Obj.CAL_LAT_SAMPLES) →
    absNat (l - s.rd Obj.EJ_VALVE_OPEN_LAT_NS 0 v) ≤ s.rdN Obj.CAL_LAT_STEP_MAX →
    100000 ≤ l →
    l ≤ 6553500 →
    ∃ u, exec (.calResult t (.latency v)) s = .next u ∧
      u.rd Obj.EJ_VALVE_OPEN_LAT_NS 0 v = l ∧
      u.rdN Obj.CAL_DONE 0 4 = satCount (s.rdN Obj.CAL_DONE 0 4) 1 ∧
      look u.cal.latency (0, 0) v.val = (0, 0)) ∧
  (∀ (s : State) (t : Nat) (v : Fin 2048) (l : Int),
    s.valveGone v = false →
    s.rdN Obj.CAL_LAT_SAMPLES ≤ (look s.cal.latency (0, 0) v.val).1 →
    l = rnd (100 * ((look s.cal.latency (0, 0) v.val).2 : Int)) (s.rdN Obj.CAL_LAT_SAMPLES) →
    (s.rdN Obj.CAL_LAT_STEP_MAX < absNat (l - s.rd Obj.EJ_VALVE_OPEN_LAT_NS 0 v) ∨ l < 100000 ∨ 6553500 < l) →
    ∃ u, exec (.calResult t (.latency v)) s = .next u ∧
      u.rd Obj.EJ_VALVE_OPEN_LAT_NS 0 v = s.rd Obj.EJ_VALVE_OPEN_LAT_NS 0 v ∧
      u.rdN Obj.CAL_REJECTS 0 4 = satCount (s.rdN Obj.CAL_REJECTS 0 4) 1 ∧
      u.bit Obj.CAL_STATUS 0 0 calRejected = true) ∧
  (∀ (s : State) (t : Nat) (v : Fin 2048) (r : CalRequest) (w : Nat),
    s.calRunning 5 v = some r →
    s.valveGone v = false →
    s.calBeaten (Obj.EJ_VALVE_OPEN_THRESH_NS.key 0 v) = false →
    (look s.cal.sweeps {} v.val).still = false →
    3 ≤ (look s.cal.sweeps {} v.val).found.length →
    w ∈ (look s.cal.sweeps {} v.val).found →
    (∀ y ∈ (look s.cal.sweeps {} v.val).found, w ≤ y) →
    10000 ≤ w →
    w ≤ 1000000 →
    ∃ u, exec (.calResult t (.threshold v)) s = .next u ∧
      u.rdN Obj.EJ_VALVE_OPEN_THRESH_NS 0 v = w ∧
      u.rdN Obj.CAL_DONE 0 5 = satCount (s.rdN Obj.CAL_DONE 0 5) 1) ∧
  (∀ (s : State) (t : Nat) (q : Fin 13) (r : CalRequest),
    s.calRunning 6 q = some r →
    look s.cal.bist 0 q.val ≠ 0 →
    ∃ u, exec (.calResult t (.bist q)) s = .next u ∧
      u.rdN Obj.CAL_DONE 0 6 = satCount (s.rdN Obj.CAL_DONE 0 6) 1 ∧
      u.rdN Obj.CAL_REJECTS 0 6 = s.rdN Obj.CAL_REJECTS 0 6) ∧
  (∀ (s : State) (t : Nat) (link : Fin 32) (delays : List Nat) (cells : Nat) (r : CalRequest),
    s.calRunning 7 link = some r →
    s.linkUp link = true →
    vernierOk delays cells = true →
    ∃ u, exec (.calResult t (.vernier link delays cells)) s = .next u ∧
      u.rdN Obj.CAL_VERNIER_CELLS 0 link = cells ∧
      u.rdN Obj.CAL_DONE 0 7 = satCount (s.rdN Obj.CAL_DONE 0 7) 1) ∧
  (∀ (s : State) (t : Nat) (link : Fin 32) (delays : List Nat) (cells : Nat) (r : CalRequest),
    s.calRunning 7 link = some r →
    s.linkUp link = false →
    ∃ u, exec (.calResult t (.vernier link delays cells)) s = .next u ∧
      u.rdN Obj.CAL_VERNIER_CELLS 0 link = s.rdN Obj.CAL_VERNIER_CELLS 0 link ∧
      u.rdN Obj.CAL_REJECTS 0 7 = satCount (s.rdN Obj.CAL_REJECTS 0 7) 1) ∧
  (∀ (s : State) (t : Nat) (link : Fin 32) (delays : List Nat) (cells : Nat),
    s.linkUp link = true →
    (∀ x, find? s.cal.vernierAt link.val = some x → x + 10000000000 ≤ max s.now t) →
    s.calRunning 7 link = none →
    vernierOk delays cells = true →
    ∃ u, exec (.vernierPeriodic t link delays cells) s = .next u ∧
      u.rdN Obj.CAL_VERNIER_CELLS 0 link = cells ∧
      u.rdN Obj.CAL_DONE 0 7 = satCount (s.rdN Obj.CAL_DONE 0 7) 1 ∧
      find? u.cal.vernierAt link.val = some (max s.now t) ∧
      u.out = s.out) ∧
  (∀ (s : State) (t : Nat) (link : Fin 32) (delays : List Nat) (cells : Nat),
    s.linkUp link = true →
    (∀ x, find? s.cal.vernierAt link.val = some x → x + 10000000000 ≤ max s.now t) →
    s.calRunning 7 link = none →
    vernierOk delays cells = false →
    ∃ u, exec (.vernierPeriodic t link delays cells) s = .next u ∧
      u.rdN Obj.CAL_VERNIER_CELLS 0 link = s.rdN Obj.CAL_VERNIER_CELLS 0 link ∧
      u.rdN Obj.CAL_REJECTS 0 7 = satCount (s.rdN Obj.CAL_REJECTS 0 7) 1 ∧
      u.bit Obj.CAL_STATUS 0 0 calRejected = true) ∧
  (∀ (s : State) (t : Nat) (channel : Fin 16) (elements l : List Nat),
    s.amBit channel amEnabled = true →
    (∀ x, find? s.cal.rotatedAt channel.val = some x → x + s.rdN Obj.CAL_AM_ROTATE_MS * 1000000 ≤ max s.now t) →
    rotateSet elements (look s.cal.dac [0, 1, 2, 3, 4, 5, 6] channel) = some l →
    ∃ u, exec (.modulatorRotate t channel elements) s = .next u ∧
      look u.cal.dac [0, 1, 2, 3, 4, 5, 6] channel.val = l ∧
      u.rdN Obj.CAL_DONE 0 0 = satCount (s.rdN Obj.CAL_DONE 0 0) 1 ∧
      find? u.cal.rotatedAt channel.val = some (max s.now t) ∧
      u.out = s.out) ∧
  (∀ (s : State) (t : Nat) (channel : Fin 16) (elements : List Nat),
    s.amBit channel amEnabled = true →
    (∀ x, find? s.cal.rotatedAt channel.val = some x → x + s.rdN Obj.CAL_AM_ROTATE_MS * 1000000 ≤ max s.now t) →
    rotateSet elements (look s.cal.dac [0, 1, 2, 3, 4, 5, 6] channel) = none →
    ∃ u, exec (.modulatorRotate t channel elements) s = .next u ∧
      u.cal.dac = s.cal.dac ∧
      u.rdN Obj.CAL_REJECTS 0 0 = satCount (s.rdN Obj.CAL_REJECTS 0 0) 1 ∧
      u.bit Obj.CAL_STATUS 0 0 calRejected = true) ∧
  (∀ (s : State) (t : Nat) (path : Path),
    ∃ u, exec (.calStatusRead t path) s = .next u ∧
      u.out = s.out ++ [.value path (Obj.CAL_STATUS.key 0 0) s.calStatus, .result path (Obj.CAL_STATUS.key 0 0) 0] ∧
      u.bit Obj.CAL_STATUS 0 0 calStarved = false ∧
      u.bit Obj.CAL_STATUS 0 0 calRejected = false) ∧
  (∀ (s : State) (t : Nat) (path : Path),
    s.checkAccess path Obj.CAL_STORE_CMD 0 0 1 = 0 →
    s.mode = stPreop →
    ∃ u, exec (.calStore t path) s = .next u ∧
      u.vault.store = some s.storeTake ∧
      u.storeState = 2 ∧
      u.vault.storeOld = s.vault.store ∧
      u.out = s.out ++ [.result path (Obj.CAL_STORE_CMD.key 0 0) 0]) ∧
  (∀ (s : State) (t : Nat) (path : Path),
    s.checkAccess path Obj.CAL_STORE_CMD 0 0 1 = 0 →
    s.mode = stPreop →
    ∃ u, exec (.calStoreClear t path) s = .next u ∧
      u.vault.store = none ∧
      u.vault.storeOld = none ∧
      u.storeState = 0 ∧
      u.out = s.out ++ [.result path (Obj.CAL_STORE_CMD.key 0 0) 0]) ∧
  (∀ (s : State) (t : Nat) (path : Path),
    Obj.CAL_STORE_CMD.level ≤ s.pathLevel path →
    s.pathOwns path (s.ownerOf Obj.CAL_STORE_CMD 0 0) = true →
    s.mode ≠ stPreop →
    exec (.calStore t path) s = .next (((s.at t).touch path).answer path (Obj.CAL_STORE_CMD.key 0 0) 4) ∧
    exec (.calStoreClear t path) s = .next (((s.at t).touch path).answer path (Obj.CAL_STORE_CMD.key 0 0) 4)) ∧
  (∀ (s : State) (t : Nat),
    s.mode ≠ stBoot →
    s.rdN Obj.ALM_GENERATION + 1 < 2 ^ 64 →
    s.cal.written + 60000000000 ≤ max s.now t →
    ∃ u, exec (.almanacWrite t) s = .next u ∧
      u.rdN Obj.ALM_GENERATION = s.rdN Obj.ALM_GENERATION + 1 ∧
      u.rdN Obj.ALM_LAST_WRITE = max s.now t ∧
      u.vault.seqMark = s.rdN Obj.LG_NEXT_SEQ + 244000000 ∧
      (if (s.rdN Obj.ALM_GENERATION + 1) % 2 = 0 then u.vault.almA else u.vault.almB).map (fun a => leAt a 8 8) = some
        (s.rdN Obj.ALM_GENERATION + 1) ∧
      u.out = s.out) ∧
  (∀ (s : State) (t : Nat),
    max s.now t < s.cal.written + 60000000000 →
    ∃ u, exec (.almanacWrite t) s = .next u ∧
      u = s.at t) ∧
  (∀ (s : State) (t : Nat) (g : Fin 4),
    s.mode ≠ stBoot →
    s.mode ≠ stSave →
    s.cal.sampled + 1000000000 ≤ max s.now t →
    ∃ u, exec (.almanacSample t) s = .next u ∧
      u.rdN Obj.ALM_HIST_TEMP g (tempBin (s.rd Obj.PW_TEMP 0 g)) = satBin (s.rdN Obj.ALM_HIST_TEMP g (tempBin (s.rd
        Obj.PW_TEMP 0 g))) 1 ∧
      u.cal.residue = (if s.cal.residue + 1 < 3600 then s.cal.residue + 1 else 0) ∧
      u.out = s.out)

/-- R440, R448, R549 (DEVICE_RESET, NRESET, NRESET_RELEASE): outside SAVE and with its rails up, an accepted DEVICE_RESET or a
low NRESET starts the unit warm from step 4, or from step 3 where a slot is marked trial or a trial was abandoned, with no
transition; with no pulse, order, loan or calibration it is seen in BOOT with every path at operator level and the staged
values kept; NRESET holds start-up until it rises. -/
def Obligations.DeviceResets : Prop :=
  (∀ (s : State) (t : Nat) (path : Path) (value : List Byte),
    s.checkWrite path Obj.DEVICE_RESET 0 0 value = 0 →
    s.mode ≠ stSave →
    2 ≤ s.power.step →
    ∃ u, exec (.deviceReset t path value) s = .next u ∧
      u.power.step = (if s.fw.trial.isSome || s.fw.abandoned then 3 else 4) ∧
      u.power.warm = true ∧
      u.trans = none ∧
      u.holdBy = 0) ∧
  (∀ (s : State) (t : Nat),
    s.power.nreset = false →
    s.mode ≠ stSave →
    2 ≤ s.power.step →
    ∃ u, exec (.nreset t) s = .next u ∧
      u.power.step = (if s.fw.trial.isSome || s.fw.abandoned then 3 else 4) ∧
      u.power.nreset = true ∧
      u.trans = none ∧
      u.holdBy = 0) ∧
  (∀ (s : State) (t : Nat) (path : Path) (value : List Byte),
    s.checkWrite path Obj.DEVICE_RESET 0 0 value = 0 →
    s.mode ≠ stSave →
    2 ≤ s.power.step →
    s.fw.trial = none →
    s.fw.abandoned = false →
    s.bank.pulses = [] →
    s.bank.flights = [] →
    s.st.lent = [] →
    s.st.served = [] →
    s.cal.queue = [] →
    ∃ u, exec (.deviceReset t path value) s = .next u ∧
      u.mode = stBoot ∧
      u.power.step = 4 ∧
      u.power.warm = true ∧
      u.trans = none ∧
      u.rdN Obj.ACCESS_LEVEL_CHAIN = 0 ∧
      u.rdN Obj.ACCESS_LEVEL_HOST = 0 ∧
      u.staged = s.staged ∧
      u.judged = []) ∧
  (∀ (s : State) (t : Nat),
    s.power.nreset = false →
    s.mode ≠ stSave →
    2 ≤ s.power.step →
    s.fw.trial ≠ none →
    s.bank.pulses = [] →
    s.bank.flights = [] →
    s.st.lent = [] →
    s.st.served = [] →
    s.cal.queue = [] →
    ∃ u, exec (.nreset t) s = .next u ∧
      u.mode = stBoot ∧
      u.power.step = 3 ∧
      u.power.nreset = true ∧
      u.staged = s.staged) ∧
  (∀ (s : State) (t : Nat),
    s.power.nreset = true →
    ∃ u, exec (.nreset t) s = .next u ∧
      u = s.at t) ∧
  (∀ (s : State) (t : Nat),
    ∃ u, exec (.nresetRelease t) s = .next u ∧
      u.power = { s.power with nreset := false } ∧
      u.dict = s.dict ∧
      u.out = s.out)

/-- R2, R346, R546, R550, R551, R554 (POWER_ON, RAIL_STEP_GOOD, PW_PG_TIMEOUT, PW_RETRY, STARTUP_STEP_DONE, PW_WARMUP_TIMEOUT,
THERMAL_RESTART): start-up begins at step 1 with the first rails; good rails enable the next step, and the last ones CTL; a
late rail counts and fails the attempt, which is repeated after 1 s; the steps end in INIT and, with a valid ledger and no
group below 0 °C, in PREOP; a cold unit waits, and gives warm-up up; after a thermal trip start-up begins anew; a ledger
that cannot be restored is taken from a valid window of the mirror, with FROM_MIRROR set, and else RESTORE_FAILED is set. -/
def Obligations.StartUp : Prop :=
  (∀ (s : State) (t : Nat),
    s.power.step = 0 →
    s.power.asleep = false →
    s.power.tripped = none →
    s.power.tries < 3 →
    ∃ u, exec (.powerOn t) s = .next u ∧
      u.power.step = 1 ∧
      u.power.rail = 1 ∧
      u.power.tries = 0 ∧
      u.power.start = max s.now t) ∧
  (∀ (s : State) (t : Nat),
    s.power.step = 1 →
    s.power.failed = none →
    s.power.rail < 5 →
    s.power.railAt + 500000 ≤ max s.now t →
    ∃ u, exec (.railStepGood t) s = .next u ∧
      u.power = { s.power with rail := s.power.rail + 1, railAt := max s.now t } ∧
      u.out = s.out ++ ((List.range 10).filter (fun r => railStep r == s.power.rail + 1)).map (fun r => .railOperation r
        (s.rdN Obj.PW_RAIL_ADDR 0 r) (s.rdN Obj.PW_RAIL_PAGE 0 r) true) ∧
      u.dict = s.dict) ∧
  (∀ (s : State) (t : Nat),
    max s.now t < s.power.railAt + 500000 →
    ∃ u, exec (.railStepGood t) s = .next u ∧
      u = s.at t) ∧
  (∀ (s : State) (t : Nat),
    s.power.step = 1 →
    s.power.failed = none →
    5 ≤ s.power.rail →
    s.power.railAt + 500000 ≤ max s.now t →
    ∃ u, exec (.railStepGood t) s = .next u ∧
      u.power.step = 2 ∧
      u.bit Obj.PW_STATUS 0 0 pwRailsOk = true ∧
      u.out = s.out) ∧
  (∀ (s : State) (t : Nat) (r : Fin 10),
    s.power.step = 1 →
    s.power.failed = none →
    railStep r = s.power.rail →
    s.power.railAt + s.rdN Obj.PW_PG_TIMEOUT_MS * 1000000 ≤ max s.now t →
    ∃ u, exec (.pwPgTimeout t [r]) s = .next u ∧
      u.power.failed = some (max s.now t) ∧
      u.power.tries = s.power.tries + 1 ∧
      u.power.rail = 1 ∧
      u.rdN Obj.PW_RAIL_FAULTS 0 r = satCount (s.rdN Obj.PW_RAIL_FAULTS 0 r) 1 ∧
      .railOperation r (s.rdN Obj.PW_RAIL_ADDR 0 r) (s.rdN Obj.PW_RAIL_PAGE 0 r) false ∈ u.out) ∧
  (∀ (s : State) (t f : Nat),
    s.power.failed = some f →
    f + 1000000000 ≤ max s.now t →
    s.power.tries < 3 →
    ∃ u, exec (.pwRetry t) s = .next u ∧
      u.power = { s.power with failed := none, rail := 1, railAt := max s.now t } ∧
      u.dict = s.dict) ∧
  (∀ (s : State) (t : Nat),
    3 ≤ s.power.tries →
    ∃ u, exec (.pwRetry t) s = .next u ∧
      u = s.at t) ∧
  (∀ (s : State) (t : Nat) (report : StartReport),
    s.power.nreset = false →
    s.mode ≠ stSave →
    s.mode ≠ stFault →
    s.power.step = 2 →
    ∃ u, exec (.startupStepDone t report) s = .next u ∧
      u.power.step = 3 ∧
      u.islandRuns 0 = true ∧
      u.islandRuns 1 = true ∧
      u.bit Obj.TIME_STATUS 0 0 tsLock = true ∧
      u.out = s.out) ∧
  (∀ (s : State) (t : Nat) (report : StartReport),
    s.power.nreset = false →
    s.mode ≠ stSave →
    s.mode ≠ stFault →
    s.power.step = 7 →
    ∃ u, exec (.startupStepDone t report) s = .next u ∧
      u.power.step = 8 ∧
      u.mode = stInit) ∧
  (∀ (s : State) (t : Nat) (report : StartReport),
    s.power.nreset = false →
    s.power.step = 8 →
    s.mode = stInit →
    s.bit Obj.LG_STATUS 0 0 lgValid = true →
    s.cold = false →
    s.flag Obj.CAL_STORE_AUTO = false →
    ∃ u, exec (.startupStepDone t report) s = .next u ∧
      u.power.step = 9 ∧
      u.mode = stPreop) ∧
  (∀ (s : State) (t : Nat) (report : StartReport),
    s.power.nreset = false →
    s.power.step = 8 →
    s.mode = stInit →
    s.bit Obj.LG_STATUS 0 0 lgValid = true →
    s.cold = true →
    ∃ u, exec (.startupStepDone t report) s = .next u ∧
      u = s.at t) ∧
  (∀ (s : State) (t c : Nat),
    s.power.coldAt = some c →
    s.mode = stInit →
    s.cold = true →
    c + s.rdN Obj.PW_WARMUP_MAX_S * 1000000000 ≤ max s.now t →
    ∃ u, exec (.pwWarmupTimeout t) s = .next u ∧
      u.power.step = 10 ∧
      u.power.coldAt = none ∧
      u.mode = stInit) ∧
  (∀ (s : State) (t x : Nat),
    s.power.tripped = some x →
    s.power.step = 0 →
    x + 60000000000 ≤ max s.now t →
    ∃ u, exec (.thermalRestart t) s = .next u ∧
      u.power.step = 1 ∧
      u.power.tripped = none) ∧
  (∀ (s : State) (x : LedgerCopy),
    ledgerCopyOk x = true →
    (s.ledgerGone (some x)).bit Obj.LG_STATUS 0 0 lgFromMirror = true ∧
    (s.ledgerGone (some x)).rdN Obj.LG_NEXT_SEQ = x.nextSeq % 2 ^ 64 ∧
    (s.ledgerGone (some x)).lg.records.map (fun r => r.seq) = x.records.map (fun r => r.1)) ∧
  (∀ (s : State),
    s.ledgerGone none = s.setBit Obj.LG_STATUS 0 0 8 true ∧
    (s.ledgerGone none).bit Obj.LG_STATUS 0 0 8 = true)

/-- R548, R549, R554 to R557, R559, R562, R568, R571 (PG_FALL, RAIL_POLL, TEMP_SAMPLE, VIN_FALL, VIN_RISE, VIN_SAG,
SAVE_WRITE_DONE, SAVE_RESUME, VIN_COLLAPSE, STANDBY_LOSS, PW_SLEEP_CMD, PW_STATUS_READ): readings show; a rail fault, a sag
of 20 µs and a sleep command in PREOP begin a save with causes 3, 0 and 2 where a save can be made outside BOOT, and, with
no pulse, order or calibration, they and a thermal trip (cause 1) are seen to enter SAVE with the bank gated; a rail that a
save needs takes the rails down; a short sag only counts; a written save asserts HOLD_OK, and the unit starts up again where
VIN stays; without VIN or standby power everything volatile is gone. -/
def Obligations.PowerSupervision : Prop :=
  (∀ (s : State) (t : Nat) (r : Fin 10),
    2 ≤ s.power.step →
    s.canSave = true →
    s.mode ≠ stBoot →
    [1, 4, 6].contains r.val = true →
    ∃ u, exec (.pgFall t [r]) s = .next u ∧
      u.power.save.map (fun x => (x.cause, x.since, x.done)) = some (3, max s.now t, none)) ∧
  (∀ (s : State) (t : Nat) (r : Fin 10),
    2 ≤ s.power.step →
    s.canSave = true →
    s.mode ≠ stBoot →
    [1, 4, 6].contains r.val = true →
    s.bank.pulses = [] →
    s.bank.flights = [] →
    s.cal.queue = [] →
    ∃ u, exec (.pgFall t [r]) s = .next u ∧
      u.mode = stSave ∧
      u.power.save.map (fun x => (x.cause, x.since, x.done)) = some (3, max s.now t, none) ∧
      u.bit Obj.EJ_STATUS 0 0 ejGated = true ∧
      u.bit Obj.PW_STATUS 0 0 pwSaving = true) ∧
  (∀ (s : State) (t : Nat) (r : Fin 10),
    2 ≤ s.power.step →
    s.mode ≠ stSave →
    [0, 2, 3, 5, 7, 8, 9].contains r.val = true →
    ∃ u, exec (.pgFall t [r]) s = .next u ∧
      u.power.step = 0 ∧
      u.power.save = none ∧
      u.mem = [] ∧
      u.staged = [] ∧
      .railOperation r (s.rdN Obj.PW_RAIL_ADDR 0 r) (s.rdN Obj.PW_RAIL_PAGE 0 r) false ∈ u.out) ∧
  (∀ (s : State) (t : Nat) (millivolts milliamps : List Nat) (r : Fin 10),
    s.power.step ≠ 0 →
    (s.twPort 1).waits = false →
    (s.twPort 1).stuck = false →
    (s.twPort 1).clearUntil ≤ max s.now t →
    millivolts.length = 10 →
    milliamps.length = 10 →
    ∃ u, exec (.railPoll t millivolts milliamps) s = .next u ∧
      u.rdN Obj.PW_RAIL_VOUT_MV 0 r = millivolts.getD r 0 ∧
      u.rdN Obj.PW_RAIL_IOUT_MA 0 r = milliamps.getD r 0 ∧
      u.rdN Obj.PW_POWER_MW = sumNat (List.zipWith (fun a b => a * b) millivolts milliamps) / 1000) ∧
  (∀ (s : State) (t : Nat) (millivolts milliamps : List Nat) (r : Fin 10),
    s.power.step ≠ 0 →
    (s.twPort 1).waits = false →
    (s.twPort 1).stuck = true →
    (s.twPort 1).clearUntil ≤ max s.now t →
    ∃ u, exec (.railPoll t millivolts milliamps) s = .next u ∧
      u.rdN Obj.PW_RAIL_VOUT_MV 0 r = s.rdN Obj.PW_RAIL_VOUT_MV 0 r ∧
      u.rdN Obj.PW_POWER_MW = s.rdN Obj.PW_POWER_MW ∧
      u.mem = s.mem) ∧
  (∀ (s : State) (t : Nat) (temps : List Int) (g : Fin 4),
    2 ≤ s.power.step →
    temps.length = 4 →
    hotGroups temps (s.rd Obj.PW_TEMP_WARN_C) = [] →
    hotGroups temps 103 = [] →
    ∃ u, exec (.tempSample t temps) s = .next u ∧
      u.rd Obj.PW_TEMP 0 g = temps.getD g 0 ∧
      u.rd Obj.PW_TEMP_MAX_SEEN 0 g = max (s.rd Obj.PW_TEMP_MAX_SEEN 0 g) (temps.getD g 0) ∧
      u.bit Obj.PW_STATUS 0 0 pwThermalWarn = false ∧
      u.out = s.out) ∧
  (∀ (s : State) (t : Nat) (temps : List Int) (g : Fin 4),
    2 ≤ s.power.step →
    temps.length = 4 →
    hotGroups temps 103 = [g.val] →
    s.power.trip = [] →
    s.canSave = true →
    s.mode ≠ stBoot →
    s.bank.pulses = [] →
    s.bank.flights = [] →
    s.cal.queue = [] →
    ∃ u, exec (.tempSample t temps) s = .next u ∧
      u.mode = stSave ∧
      u.power.save.map (fun x => (x.cause, x.since, x.done)) = some (1, max s.now t, none) ∧
      u.rdN Obj.PW_THERMAL_TRIPS = satCount (s.rdN Obj.PW_THERMAL_TRIPS) 1) ∧
  (∀ (s : State) (t millivolts : Nat),
    s.power.asleep = false →
    s.power.below = none →
    ∃ u, exec (.vinFall t millivolts) s = .next u ∧
      u.power.below = some (max s.now t) ∧
      u.rdN Obj.PW_VIN_MV = millivolts ∧
      u.bit Obj.PW_STATUS 0 0 pwSag = true ∧
      u.out = s.out) ∧
  (∀ (s : State) (t millivolts lowest b : Nat),
    s.power.below = some b →
    s.power.sagged = false →
    max s.now t < b + 20000 →
    ∃ u, exec (.vinRise t millivolts lowest) s = .next u ∧
      u.rdN Obj.PW_SAG_SHORT = satCount (s.rdN Obj.PW_SAG_SHORT) 1 ∧
      u.power.below = none ∧
      u.rdN Obj.PW_VIN_MV = millivolts ∧
      u.bit Obj.PW_STATUS 0 0 pwSag = false) ∧
  (∀ (s : State) (t lowest b : Nat),
    s.power.below = some b →
    s.power.sagged = false →
    s.power.asleep = false →
    s.power.save = none →
    b + 20000 ≤ max s.now t →
    s.canSave = true →
    s.mode ≠ stBoot →
    ∃ u, exec (.vinSag t lowest) s = .next u ∧
      u.power.save.map (fun x => (x.cause, x.since, x.done)) = some (0, max s.now t, none) ∧
      u.power.sagged = true) ∧
  (∀ (s : State) (t lowest b : Nat),
    s.power.below = some b →
    s.power.sagged = false →
    s.power.asleep = false →
    s.power.save = none →
    b + 20000 ≤ max s.now t →
    s.canSave = true →
    s.mode ≠ stBoot →
    s.bank.pulses = [] →
    s.bank.flights = [] →
    s.cal.queue = [] →
    ∃ u, exec (.vinSag t lowest) s = .next u ∧
      u.mode = stSave ∧
      u.power.save.map (fun x => (x.cause, x.since, x.done)) = some (0, max s.now t, none) ∧
      u.rdN Obj.PW_SAG_COUNT = satCount (s.rdN Obj.PW_SAG_COUNT) 1 ∧
      u.power.sagged = true) ∧
  (∀ (s : State) (t millivolts : Nat) (x : SaveRun) (a : SaveArea),
    s.power.save = some x →
    s.vault.save x.area = some a →
    x.done = none →
    x.cause = 0 →
    ∃ u, exec (.saveWriteDone t millivolts) s = .next u ∧
      u.power.save = some { x with done := some (max s.now t) } ∧
      u.vault.save x.area = some a.close ∧
      u.bit Obj.PW_STATUS 0 0 pwHoldOk = true ∧
      u.bit Obj.PW_STATUS 0 0 pwSaving = false ∧
      u.out = s.out) ∧
  (∀ (s : State) (cause mode : Nat),
    s.ledgerPart.length + 4096 < 2 ^ 32 →
    (s.saveArea cause mode).complete = false ∧
    (s.saveArea cause mode).close.complete = true ∧
    ((s.saveArea cause mode).withCause cause).image = (s.saveArea cause mode).image) ∧
  (∀ (s : State) (t d : Nat) (x : SaveRun),
    s.power.save = some x →
    x.done = some d →
    s.power.below = none →
    s.rdN Obj.PW_RESUME_MV < s.rdN Obj.PW_VIN_MV →
    max s.power.risen d + 100000000 ≤ max s.now t →
    ∃ u, exec (.saveResume t) s = .next u ∧
      u.power.step = 1 ∧
      u.power.save = none ∧
      u.mem = []) ∧
  (∀ (s : State) (t : Nat),
    s.power.below ≠ none →
    s.power.step ≠ 0 →
    ∃ u, exec (.vinCollapse t) s = .next u ∧
      u.power.step = 0 ∧
      u.mem = [] ∧
      u.staged = [] ∧
      u.vault = s.almAbandon.storeAbandon.vault) ∧
  (∀ (s : State) (t : Nat),
    ∃ u, exec (.standbyLoss t) s = .next u ∧
      u.power = {} ∧
      u.mem = [] ∧
      u.staged = [] ∧
      u.lattice = {} ∧
      u.vault = s.almAbandon.storeAbandon.vault) ∧
  (∀ (s : State) (t : Nat) (path : Path) (value : List Byte),
    s.checkWrite path Obj.PW_SLEEP_CMD 0 0 value = 0 →
    s.mode = stPreop →
    ∃ u, exec (.pwSleepCmd t path value) s = .next u ∧
      u.power.save.map (fun x => (x.cause, x.since, x.done)) = some (2, max s.now t, none)) ∧
  (∀ (s : State) (t : Nat) (path : Path) (value : List Byte),
    s.checkWrite path Obj.PW_SLEEP_CMD 0 0 value = 0 →
    s.mode = stPreop →
    s.bank.pulses = [] →
    s.bank.flights = [] →
    s.cal.queue = [] →
    ∃ u, exec (.pwSleepCmd t path value) s = .next u ∧
      u.mode = stSave ∧
      u.power.save.map (fun x => (x.cause, x.since, x.done)) = some (2, max s.now t, none) ∧
      .result path (Obj.PW_SLEEP_CMD.key 0 0) 0 ∈ u.out) ∧
  (∀ (s : State) (t : Nat) (path : Path) (value : List Byte) (r : Nat),
    s.checkWrite path Obj.PW_SLEEP_CMD 0 0 value = r →
    r ≠ 0 →
    ∃ u, exec (.pwSleepCmd t path value) s = .next u ∧
      u.dict = s.dict ∧
      u.out = s.out ++ [.result path (Obj.PW_SLEEP_CMD.key 0 0) r]) ∧
  (∀ (s : State) (t : Nat) (path : Path) (value : List Byte),
    Obj.PW_SLEEP_CMD.level ≤ s.pathLevel path →
    s.pathOwns path (s.ownerOf Obj.PW_SLEEP_CMD 0 0) = true →
    s.mode ≠ stPreop →
    ∃ u, exec (.pwSleepCmd t path value) s = .next u ∧
      u.dict = s.dict ∧
      u.out = s.out ++ [.result path (Obj.PW_SLEEP_CMD.key 0 0) 4]) ∧
  (∀ (s : State) (t : Nat) (path : Path),
    ∃ u, exec (.pwStatusRead t path) s = .next u ∧
      u.bit Obj.PW_STATUS 0 0 pwRailWarn = false ∧
      u.out = s.out ++ [.value path (Obj.PW_STATUS.key 0 0) (s.rdN Obj.PW_STATUS), .result path (Obj.PW_STATUS.key 0 0) 0])

/-- R17, R443, R444 (REQ_INIT, REQ_PREOP, REQ_ARMED, REQ_RUN, REQ_HOLD): a request that R444 lists, while no transition runs,
is answered with RESULT 0 and begins its transition while DEVICE_STATE shows the old state; while one runs, or from a state
that it does not list, its RESULT is 4; a request for the present state does nothing; a failed check refuses it, and the
values staged in PREOP become live only as the way to ARMED begins (that instant is the model's choice, log entry 50). -/
def Obligations.StateRequests : Prop :=
  (∀ (s : State) (t : Nat) (path : Path),
    s.checkWrite path Obj.STATE_REQUEST 0 0 [stInit] = 0 →
    s.trans = none →
    s.mode = stPreop →
    ∃ u, exec (.reqInit t path) s = .next u ∧
      u.trans = some { target := stInit, since := max s.now t } ∧
      u.mode = stPreop ∧
      u.out = s.out ++ [.result path (Obj.STATE_REQUEST.key 0 0) 0]) ∧
  (∀ (s : State) (t : Nat) (path : Path),
    Obj.STATE_REQUEST.level ≤ s.pathLevel path →
    s.pathOwns path (s.ownerOf Obj.STATE_REQUEST 0 0) = true →
    s.trans ≠ none →
    ∃ u, exec (.reqInit t path) s = .next u ∧
      u.trans = s.trans ∧
      u.dict = s.dict ∧
      u.out = s.out ++ [.result path (Obj.STATE_REQUEST.key 0 0) 4]) ∧
  (∀ (s : State) (t : Nat) (path : Path),
    s.checkWrite path Obj.STATE_REQUEST 0 0 [stPreop] = 0 →
    s.trans = none →
    s.mode = stPreop →
    ∃ u, exec (.reqPreop t path) s = .next u ∧
      u.trans = none ∧
      u.mode = stPreop ∧
      u.out = s.out ++ [.result path (Obj.STATE_REQUEST.key 0 0) 0]) ∧
  (∀ (s : State) (t : Nat) (path : Path),
    s.checkWrite path Obj.STATE_REQUEST 0 0 [stPreop] = 0 →
    s.trans = none →
    s.mode = stInit →
    s.bit Obj.LG_STATUS 0 0 lgValid = true →
    s.cold = false →
    ∃ u, exec (.reqPreop t path) s = .next u ∧
      u.trans = some { target := stPreop, since := max s.now t } ∧
      u.mode = stInit ∧
      u.out = s.out ++ [.result path (Obj.STATE_REQUEST.key 0 0) 0]) ∧
  (∀ (s : State) (t : Nat) (path : Path),
    s.checkWrite path Obj.STATE_REQUEST 0 0 [stPreop] = 0 →
    s.trans = none →
    s.mode = stInit →
    s.bit Obj.LG_STATUS 0 0 lgValid = false →
    ∃ u, exec (.reqPreop t path) s = .next u ∧
      u.trans = none ∧
      u.mode = stInit ∧
      u.rdN Obj.STATE_REFUSE_INDEX = Obj.LG_STATUS.ident ∧
      u.rdBlob Obj.STATE_REFUSE_TEXT = textBytes Ev.LEDGER_RESTORE_FAILED.text) ∧
  (∀ (s v : State) (t : Nat) (path : Path),
    s.checkWrite path Obj.STATE_REQUEST 0 0 [stArmed] = 0 →
    s.trans = none →
    s.mode = stPreop →
    v = ((((s.at t).touch path).putN Obj.STATE_REQUEST 0 0 stArmed).answer path (Obj.STATE_REQUEST.key 0 0) 0).leavePreop →
    v.leaveRefusals = [] →
    ∃ u, exec (.reqArmed t path) s = .next u ∧
      u.trans = some { target := stArmed, since := max s.now t } ∧
      u.staged = [] ∧
      u.stagedBlobs = [] ∧
      .result path (Obj.STATE_REQUEST.key 0 0) 0 ∈ u.out) ∧
  (∀ (s v : State) (t : Nat) (path : Path),
    s.checkWrite path Obj.STATE_REQUEST 0 0 [stArmed] = 0 →
    s.trans = none →
    s.mode = stPreop →
    v = ((((s.at t).touch path).putN Obj.STATE_REQUEST 0 0 stArmed).answer path (Obj.STATE_REQUEST.key 0 0) 0).leavePreop →
    v.leaveRefusals ≠ [] →
    ∃ u, exec (.reqArmed t path) s = .next u ∧
      u.trans = none ∧
      u.mode = stPreop ∧
      u.staged = s.staged ∧
      u.stagedBlobs = s.stagedBlobs) ∧
  (∀ (s : State) (t : Nat) (path : Path),
    s.checkWrite path Obj.STATE_REQUEST 0 0 [stRun] = 0 →
    s.trans = none →
    s.mode = stHold →
    s.holdCause = false →
    ∃ u, exec (.reqRun t path) s = .next u ∧
      u.trans = some { target := stRun, since := max s.now t } ∧
      u.mode = stHold ∧
      u.out = s.out ++ [.result path (Obj.STATE_REQUEST.key 0 0) 0]) ∧
  (∀ (s : State) (t : Nat) (path : Path),
    s.checkWrite path Obj.STATE_REQUEST 0 0 [stRun] = 0 →
    s.trans = none →
    s.mode = stHold →
    s.rdN Obj.EJ_ILK_STATE ≠ 0 →
    ∃ u, exec (.reqRun t path) s = .next u ∧
      u.trans = none ∧
      u.mode = stHold ∧
      u.rdN Obj.STATE_REFUSE_INDEX = Obj.EJ_ILK_STATE.ident ∧
      u.rdBlob Obj.STATE_REFUSE_TEXT = textBytes Ev.HOLD_CAUSE_ACTIVE.text) ∧
  (∀ (s : State) (t : Nat) (path : Path),
    s.checkWrite path Obj.STATE_REQUEST 0 0 [stHold] = 0 →
    s.trans = none →
    s.mode = stRun →
    ∃ u, exec (.reqHold t path) s = .next u ∧
      u.trans = some { target := stHold, since := max s.now t } ∧
      u.mode = stRun ∧
      u.out = s.out ++ [.result path (Obj.STATE_REQUEST.key 0 0) 0]) ∧
  (∀ (s : State) (t : Nat) (path : Path),
    s.checkWrite path Obj.STATE_REQUEST 0 0 [stHold] = 0 →
    s.trans = none →
    s.mode = stPreop →
    ∃ u, exec (.reqHold t path) s = .next u ∧
      u.trans = none ∧
      u.dict = s.dict ∧
      u.out = s.out ++ [.result path (Obj.STATE_REQUEST.key 0 0) 4])

/-- R39, R433, R443 to R445 (STATE_TRANSITION_DONE, FAULT_ENTRY, TIME_UNLOCK, TIME_RELOCK): a transition that runs completes
in its target state, RUN restarting the cyclic watchdog; the one to ARMED waits for its camera writes, and completes if the
values that stand then, those written meanwhile among them, pass every check (log entry 50), and returns to PREOP otherwise;
one to PREOP waits while the unit still drains its lines; with none nothing happens; a failure of CTL, FAB or the firmware
ends any transition, and, shown with no pulse, order or calibration, enters FAULT and sends KILL on every enabled link; a
lost lock counts, clears LOCK and holds a unit in RUN, and lock returns. -/
def Obligations.StateChanges : Prop :=
  (∀ (s : State) (t n : Nat),
    s.trans = some { target := stInit, since := n } →
    s.mode = stPreop →
    ∃ u, exec (.stateTransitionDone t) s = .next u ∧
      u.mode = stInit ∧
      u.trans = none) ∧
  (∀ (s : State) (t n : Nat),
    s.trans = some { target := stHold, since := n } →
    s.mode = stRun →
    ∃ u, exec (.stateTransitionDone t) s = .next u ∧
      u.mode = stHold ∧
      u.holdBy = 0 ∧
      u.trans = none) ∧
  (∀ (s : State) (t n : Nat),
    s.trans = some { target := stRun, since := n } →
    s.mode = stArmed →
    ∃ u, exec (.stateTransitionDone t) s = .next u ∧
      u.mode = stRun ∧
      u.mer.cyclic = max s.now t ∧
      u.trans = none) ∧
  (∀ (s v : State) (t n : Nat),
    s.trans = some { target := stArmed, since := n } →
    s.mode = stPreop →
    (∀ p, p < 12 → (s.cam p).writes.all (fun w => !w.arming || w.readback) = true) →
    v = (s.at t).leavePreop →
    v.leaveRefusals = [] →
    (v.leaveBits []).armWriteAll.transWaits stArmed = false →
    ∃ u, exec (.stateTransitionDone t) s = .next u ∧
      u.trans = none ∧
      u.mode = stArmed ∧
      u.tim.armedSinceReset = true) ∧
  (∀ (s v : State) (t n : Nat),
    s.trans = some { target := stArmed, since := n } →
    s.mode = stPreop →
    (∀ p, p < 12 → (s.cam p).writes.all (fun w => !w.arming || w.readback) = true) →
    v = (s.at t).leavePreop →
    v.leaveRefusals ≠ [] →
    ∃ u, exec (.stateTransitionDone t) s = .next u ∧
      u.trans = none ∧
      u.mode = stPreop ∧
      u.staged = s.staged) ∧
  (∀ (s : State) (t n p : Nat),
    s.trans = some { target := stArmed, since := n } →
    p < 12 →
    (s.cam p).writes.any (fun w => w.arming && !w.readback) = true →
    ∃ u, exec (.stateTransitionDone t) s = .next u ∧
      u = s.at t) ∧
  (∀ (s : State) (t n : Nat),
    s.trans = some { target := stPreop, since := n } →
    s.mode = stRun →
    s.judged ≠ [] →
    ∃ u, exec (.stateTransitionDone t) s = .next u ∧
      u = s.at t) ∧
  (∀ (s : State) (t : Nat),
    s.trans = none →
    ∃ u, exec (.stateTransitionDone t) s = .next u ∧
      u = s.at t) ∧
  (∀ (s : State) (t : Nat),
    s.mode ≠ stSave →
    s.mode ≠ stFault →
    3 ≤ s.power.step →
    ∃ u, exec (.faultEntry t) s = .next u ∧
      u.trans = none ∧
      u.power = s.power ∧
      u.vault = s.vault) ∧
  (∀ (s : State) (t : Nat),
    s.mode ≠ stSave →
    s.mode ≠ stFault →
    3 ≤ s.power.step →
    s.bank.pulses = [] →
    s.bank.flights = [] →
    s.cal.queue = [] →
    ∃ u, exec (.faultEntry t) s = .next u ∧
      u.mode = stFault ∧
      u.trans = none ∧
      (∀ l, l < 32 → s.linkEnabled l = true → .kill l ∈ u.out)) ∧
  (∀ (s : State) (t : Nat),
    s.tim.oscillator = false →
    s.mode = stRun →
    ∃ u, exec (.timeUnlock t) s = .next u ∧
      u.bit Obj.TIME_STATUS 0 0 tsLock = false ∧
      u.rdN Obj.TIME_UNLOCK_COUNT = satCount (s.rdN Obj.TIME_UNLOCK_COUNT) 1 ∧
      u.mode = stHold ∧
      u.holdBy = 2 ∧
      u.tim.oscillator = true) ∧
  (∀ (s : State) (t : Nat),
    s.tim.oscillator = true →
    s.timeReference = false →
    ∃ u, exec (.timeRelock t) s = .next u ∧
      u.bit Obj.TIME_STATUS 0 0 tsLock = true ∧
      u.tim.oscillator = false ∧
      u.out = s.out)

/-- R440 (ACCESS_CODE_WRITE, ACCESS_UNLOCK_WRITE, ACCESS_LEVEL_WRITE, ACCESS_LEVEL_TIMEOUT, NONCE_REFRESH,
UNLOCK_LOCKOUT_END), of a write on the chain that the access checks pass: a code for a level without a stored hash raises
the path to it, and one for a level with a hash does so where its SHA-384 is the hash; without a matching key an unlock
fails and counts, and the third failure in a row locks the path for 10 s; a locked path is refused, and its RESULT is the
model's choice (log entry 52); a level may be lowered, and falls to operator level after 600 s without a request; the nonce
changes every 60 s. -/
def Obligations.AccessLevels : Prop :=
  (∀ (s : State) (t : Nat) (value : List Byte),
    s.checkWrite .chain Obj.ACCESS_CODE_CHAIN 0 0 value = 0 →
    value.headD 0 = 1 →
    s.pathLevel .chain = 0 →
    s.access.lockChain ≤ max s.now t →
    s.rdBlob Obj.SEC_ACCESS_HASH 0 0 = [] →
    ∃ u, exec (.accessCodeWrite t .chain value) s = .next u ∧
      u.pathLevel .chain = 1 ∧
      u.access.failsChain = 0 ∧
      u.out = s.out ++ [.result .chain (Obj.ACCESS_CODE_CHAIN.key 0 0) 0]) ∧
  (∀ (s : State) (t : Nat) (value : List Byte),
    s.checkWrite .chain Obj.ACCESS_CODE_CHAIN 0 0 value = 0 →
    value.headD 0 = 1 →
    s.pathLevel .chain = 0 →
    s.access.lockChain ≤ max s.now t →
    s.rdBlob Obj.SEC_ACCESS_HASH 0 0 ≠ [] →
    ∃ u, exec (.accessCodeWrite t .chain value) s = .next u ∧
      u.pathLevel .chain = (if sha384 (value.drop 1) = s.rdBlob Obj.SEC_ACCESS_HASH 0 0 then 1 else 0) ∧
      u.mem = s.mem) ∧
  (∀ (s : State) (t : Nat) (value : List Byte),
    s.checkWrite .chain Obj.ACCESS_CODE_CHAIN 0 0 value = 0 →
    value.headD 0 = 1 →
    1 ≤ s.pathLevel .chain →
    ∃ u, exec (.accessCodeWrite t .chain value) s = .next u ∧
      u.dict = s.dict ∧
      u.out = s.out ++ [.result .chain (Obj.ACCESS_CODE_CHAIN.key 0 0) 0]) ∧
  (∀ (s : State) (t : Nat) (value : List Byte),
    s.checkWrite .chain Obj.ACCESS_UNLOCK_CHAIN 0 0 value = 0 →
    s.pathLevel .chain < 3 →
    s.access.lockChain ≤ max s.now t →
    s.keys = [] →
    s.access.failsChain < 2 →
    ∃ u, exec (.accessUnlockWrite t .chain value) s = .next u ∧
      u.pathLevel .chain = s.pathLevel .chain ∧
      u.access.failsChain = s.access.failsChain + 1 ∧
      u.rdN Obj.SEC_UNLOCK_FAILS = satCount (s.rdN Obj.SEC_UNLOCK_FAILS) 1) ∧
  (∀ (s : State) (t : Nat) (value : List Byte),
    s.checkWrite .chain Obj.ACCESS_UNLOCK_CHAIN 0 0 value = 0 →
    s.pathLevel .chain < 3 →
    s.access.lockChain ≤ max s.now t →
    s.keys = [] →
    s.access.failsChain = 2 →
    ∃ u, exec (.accessUnlockWrite t .chain value) s = .next u ∧
      u.access.failsChain = 0 ∧
      u.access.lockChain = max s.now t + 10000000000 ∧
      u.rdN Obj.SEC_UNLOCK_FAILS = satCount (s.rdN Obj.SEC_UNLOCK_FAILS) 1) ∧
  (∀ (s : State) (t : Nat) (value : List Byte),
    s.checkWrite .chain Obj.ACCESS_UNLOCK_CHAIN 0 0 value = 0 →
    s.pathLevel .chain < 3 →
    s.access.lockChain ≤ max s.now t →
    ∃ u, exec (.accessUnlockWrite t .chain value) s = .next u ∧
      u.pathLevel .chain = (if s.keys.any (fun x => x.1 == leAt value 0 2 && x.2.1.testBit 2 && ecdsaOk x.2.2 (s.rdBlob
        Obj.SEC_NONCE ++ [3, 0]) (value.drop 2)) then 3 else s.pathLevel .chain) ∧
      u.mem = s.mem) ∧
  (∀ (s : State) (t : Nat) (value : List Byte),
    s.checkWrite .chain Obj.ACCESS_UNLOCK_CHAIN 0 0 value = 0 →
    s.pathLevel .chain < 3 →
    max s.now t < s.access.lockChain →
    ∃ u, exec (.accessUnlockWrite t .chain value) s = .next u ∧
      u.dict = s.dict ∧
      u.out = s.out ++ [.result .chain (Obj.ACCESS_UNLOCK_CHAIN.key 0 0) lockedResult]) ∧
  (∀ (s : State) (t : Nat) (value : List Byte),
    s.checkWrite .chain Obj.ACCESS_LEVEL_CHAIN 0 0 value = 0 →
    leNat value ≤ s.pathLevel .chain →
    ∃ u, exec (.accessLevelWrite t .chain value) s = .next u ∧
      u.pathLevel .chain = leNat value ∧
      u.pathLevel .host = s.pathLevel .host ∧
      u.out = s.out ++ [.result .chain (Obj.ACCESS_LEVEL_CHAIN.key 0 0) 0]) ∧
  (∀ (s : State) (t : Nat) (value : List Byte),
    s.checkWrite .chain Obj.ACCESS_LEVEL_CHAIN 0 0 value = 0 →
    s.pathLevel .chain < leNat value →
    ∃ u, exec (.accessLevelWrite t .chain value) s = .next u ∧
      u.dict = s.dict ∧
      u.out = s.out ++ [.result .chain (Obj.ACCESS_LEVEL_CHAIN.key 0 0) 5]) ∧
  (∀ (s : State) (t : Nat),
    s.access.lastChain + 600000000000 ≤ max s.now t →
    ∃ u, exec (.accessLevelTimeout t false) s = .next u ∧
      u.pathLevel .chain = 0 ∧
      u.pathLevel .host = s.pathLevel .host ∧
      u.out = s.out) ∧
  (∀ (s : State) (t : Nat),
    s.access.nonceTime + 60000000000 ≤ max s.now t →
    ∃ u, exec (.nonceRefresh t) s = .next u ∧
      (u.rdBlob Obj.SEC_NONCE).length = 16 ∧
      u.access.nonceTime = max s.now t ∧
      u.dict = s.dict) ∧
  (∀ (s : State) (t : Nat),
    s.access.lockChain ≤ max s.now t →
    ∃ u, exec (.unlockLockoutEnd t false) s = .next u ∧
      u.access.lockChain = 0 ∧
      u.access.failsChain = s.access.failsChain ∧
      u.dict = s.dict)

/-- R442, R446 to R448 (SEC_KEY_WRITE, FW_IMAGE_WRITE, FW_IMAGE_HOST_WRITE, FW_FLASH_DONE, FW_ACTIVATE, FW_CONFIRM,
FW_TRIAL_TIMEOUT): a valid key takes its slot, the first unlock key also at integrator level in PREOP; an image without a
whole header is refused with code 1 and one that passes every check is written into the slot that does not run; a written
image is shown; an activated one is tried by a warm reset, which, with no pulse, order, loan or calibration, is seen in
BOOT; a confirmed one is committed and raises the lowest version; one that does not come to PREOP is abandoned. -/
def Obligations.KeysAndFirmware : Prop :=
  (∀ (s : State) (t : Nat) (path : Path) (slot : Fin 8) (value : List Byte),
    s.pathLevel path = 3 →
    s.checkAccess path Obj.SEC_KEY slot 0 value.length = 0 →
    s.keyValueOk slot value = true →
    ∃ u, exec (.secKeyWrite t path slot value) s = .next u ∧
      u.rdBlob Obj.SEC_KEY slot = value ∧
      u.dict = s.dict ∧
      u.out = s.out ++ [.result path (Obj.SEC_KEY.key slot 0) 0]) ∧
  (∀ (s : State) (t : Nat) (path : Path) (slot : Fin 8) (value : List Byte),
    s.pathLevel path ≠ 3 →
    s.pathLevel path ≠ 0 →
    s.mode = stPreop →
    s.keys = [] →
    value.length = 100 →
    (leAt value 2 1).testBit 2 = true →
    s.keyValueOk slot value = true →
    ∃ u, exec (.secKeyWrite t path slot value) s = .next u ∧
      u.rdBlob Obj.SEC_KEY slot = value ∧
      u.out = s.out ++ [.result path (Obj.SEC_KEY.key slot 0) 0]) ∧
  (∀ (s : State) (t : Nat) (path : Path) (image : List Byte) (b : Bool),
    s.checkAccess path Obj.FW_IMAGE 0 0 image.length = 0 →
    s.fw.running = some b →
    s.fw.writing = none →
    openTransfer s.cxl.mb.partials Obj.FW_IMAGE_HOST = false →
    image.length < 64 →
    ∃ u, exec (.fwImageWrite t path image) s = .next u ∧
      u.rdN Obj.FW_REFUSE_CODE = 1 ∧
      u.fw.slot (!b) = none ∧
      u.fw.slot b = s.fw.slot b ∧
      u.out = s.out ++ [.result path (Obj.FW_IMAGE.key 0 0) 5]) ∧
  (∀ (s : State) (t : Nat) (path : Path) (image : List Byte) (b : Bool),
    s.checkAccess path Obj.FW_IMAGE 0 0 image.length = 0 →
    s.fw.running = some b →
    s.fw.writing = none →
    openTransfer s.cxl.mb.partials Obj.FW_IMAGE_HOST = false →
    ∃ u, exec (.fwImageWrite t path image) s = .next u ∧
      (s.imageRefusal image = 0 → u.fw.writing = some { version := leAt image 8 4, rollback := leAt image 12 4 } ∧ u.bit
        Obj.FW_STATUS 0 0 3 = true) ∧
      (s.imageRefusal image ≠ 0 → u.fw.writing = none ∧ u.rdN Obj.FW_REFUSE_CODE = s.imageRefusal image) ∧
      u.fw.slot (!b) = none ∧
      u.fw.slot b = s.fw.slot b) ∧
  (∀ (s : State) (t : Nat) (image : List Byte) (b : Bool),
    s.checkAccess .host Obj.FW_IMAGE_HOST 0 0 image.length = 0 →
    s.fw.running = some b →
    s.fw.writing ≠ none →
    ∃ u, exec (.fwImageHostWrite t .host image) s = .next u ∧
      u.fw = s.fw ∧
      u.out = s.out ++ [.result .host (Obj.FW_IMAGE_HOST.key 0 0) 8]) ∧
  (∀ (s : State) (t : Nat) (image : List Byte) (b : Bool),
    s.checkAccess .host Obj.FW_IMAGE_HOST 0 0 image.length = 0 →
    s.fw.running = some b →
    s.fw.writing = none →
    openTransfer s.mer.partials Obj.FW_IMAGE = false →
    ∃ u, exec (.fwImageHostWrite t .host image) s = .next u ∧
      (s.imageRefusal image = 0 → u.fw.writing = some { version := leAt image 8 4, rollback := leAt image 12 4 } ∧ u.bit
        Obj.FW_STATUS 0 0 3 = true) ∧
      (s.imageRefusal image ≠ 0 → u.fw.writing = none ∧ u.rdN Obj.FW_REFUSE_CODE = s.imageRefusal image) ∧
      u.fw.slot (!b) = none ∧
      u.fw.slot b = s.fw.slot b) ∧
  (∀ (s : State) (t : Nat) (img : FwImage) (b : Bool),
    s.fw.writing = some img →
    s.fw.running = some b →
    ∃ u, exec (.fwFlashDone t true) s = .next u ∧
      u.fw.slot (!b) = some img ∧
      u.fw.writing = none ∧
      u.rdN Obj.FW_REFUSE_CODE = 0 ∧
      u.out = s.out) ∧
  (∀ (s : State) (t : Nat) (img : FwImage) (b : Bool),
    s.fw.writing = some img →
    s.fw.running = some b →
    ∃ u, exec (.fwFlashDone t false) s = .next u ∧
      u.fw.slot (!b) = none ∧
      u.rdN Obj.FW_REFUSE_CODE = 7 ∧
      u.out = s.out) ∧
  (∀ (s : State) (t : Nat) (path : Path) (value : List Byte) (b : Bool),
    s.checkWrite path Obj.FW_ACTIVATE 0 0 value = 0 →
    s.fw.running = some b →
    s.mode = stPreop →
    s.fw.verified (!b) = true →
    2 ≤ s.power.step →
    ∃ u, exec (.fwActivate t path value) s = .next u ∧
      u.fw.trial = some (!b) ∧
      u.power.step = 3 ∧
      u.power.warm = true) ∧
  (∀ (s : State) (t : Nat) (path : Path) (value : List Byte) (b : Bool),
    s.checkWrite path Obj.FW_ACTIVATE 0 0 value = 0 →
    s.fw.running = some b →
    s.mode = stPreop →
    s.fw.verified (!b) = true →
    2 ≤ s.power.step →
    s.bank.pulses = [] →
    s.bank.flights = [] →
    s.st.lent = [] →
    s.st.served = [] →
    s.cal.queue = [] →
    ∃ u, exec (.fwActivate t path value) s = .next u ∧
      u.fw.trial = some (!b) ∧
      u.mode = stBoot ∧
      u.power.step = 3) ∧
  (∀ (s : State) (t : Nat) (path : Path) (value : List Byte) (b : Bool),
    s.checkWrite path Obj.FW_ACTIVATE 0 0 value = 0 →
    s.fw.running = some b →
    s.fw.verified (!b) = false →
    ∃ u, exec (.fwActivate t path value) s = .next u ∧
      u.fw = s.fw ∧
      u.dict = s.dict ∧
      u.out = s.out ++ [.result path (Obj.FW_ACTIVATE.key 0 0) 4]) ∧
  (∀ (s : State) (t : Nat) (path : Path) (value : List Byte) (b : Bool) (img : FwImage),
    s.checkWrite path Obj.FW_CONFIRM 0 0 value = 0 →
    s.fw.running = some b →
    s.mode = stPreop →
    s.fw.trial = some b →
    s.fw.slot b = some img →
    ∃ u, exec (.fwConfirm t path value) s = .next u ∧
      u.fw.committed = b ∧
      u.fw.trial = none ∧
      u.rdN Obj.FW_ROLLBACK_MIN = max (s.rdN Obj.FW_ROLLBACK_MIN) img.rollback ∧
      u.out = s.out ++ [.result path (Obj.FW_CONFIRM.key 0 0) 0]) ∧
  (∀ (s : State) (t : Nat) (b : Bool),
    s.fw.running = some b →
    s.fw.trial = some b →
    s.power.step ≠ 9 →
    s.fw.trialFrom + 60000000000 ≤ max s.now t →
    ∃ u, exec (.fwTrialTimeout t) s = .next u ∧
      u.fw.trial = none ∧
      u.fw.abandoned = true ∧
      u.out = s.out)

/-- R456, R459 to R463, of a channel n below 56 and its word w as it stood at the beginning of the cycle (R457): an event of
another source, or one while the channel is disabled or its island does not run, leaves the state as it is; an event that
carries the channel's own tag counts as a loop and goes no further; one with its gate closed, or within the minimum
interval, counts as such; any other is counted as fired and becomes an activation of each task that runs, with the channel's
tag added. -/
def Obligations.Channels : Prop :=
  (∀ (s : State) (src n : Nat) (tags : List Nat),
    (s.channelWord n / 2 ^ 49) % 128 ≠ src →
    s.channelEvent src tags n = (s, false)) ∧
  (∀ (s : State) (src n : Nat) (tags : List Nat),
    (s.channelWord n).testBit 63 = false →
    s.channelEvent src tags n = (s, false)) ∧
  (∀ (s : State) (src : Nat) (tags : List Nat) (n : Fin 56),
    (s.channelWord n).testBit 63 = true →
    (s.channelWord n).testBit 62 = false →
    (s.channelWord n / 2 ^ 49) % 128 = src →
    s.islandRuns (sourceIsland src false) = true →
    tags.contains n.val = true →
    (s.channelEvent src tags n).1.rdN Obj.EV_CH_LOOP 0 n = satCount (s.rdN Obj.EV_CH_LOOP 0 n) 1 ∧
    (s.channelEvent src tags n).1.lattice = s.lattice ∧
    (s.channelEvent src tags n).2 = false) ∧
  (∀ (s : State) (src : Nat) (tags : List Nat) (n : Fin 56),
    (s.channelWord n).testBit 63 = true →
    (s.channelWord n).testBit 62 = true →
    (s.channelWord n / 2 ^ 49) % 128 = src →
    s.islandRuns (sourceIsland src false) = true →
    tags.contains n.val = true →
    (s.channelEvent src tags n).1.rdN Obj.EV_CH_CONFIG n 0 = s.channelWord n - 2 ^ 63 ∧
    (s.channelEvent src tags n).1.rdN Obj.EV_CH_STATE 0 n = 2 ∧
    (s.channelEvent src tags n).1.lattice = s.lattice ∧
    (s.channelEvent src tags n).2 = true) ∧
  (∀ (s : State) (src : Nat) (tags : List Nat) (n : Fin 56),
    (s.channelWord n).testBit 63 = true →
    (s.channelWord n / 2 ^ 49) % 128 = src →
    s.islandRuns (sourceIsland src false) = true →
    tags.contains n.val = false →
    (s.channelWord n).testBit 61 = true →
    s.gateLevel ((s.channelWord n / 2 ^ 42) % 128) = (s.channelWord n).testBit 60 →
    (s.channelEvent src tags n).1.rdN Obj.EV_CH_GATED 0 n = satCount (s.rdN Obj.EV_CH_GATED 0 n) 1 ∧
    (s.channelEvent src tags n).1.lattice = s.lattice) ∧
  (∀ (s : State) (src : Nat) (tags : List Nat) (n : Fin 56),
    (s.channelWord n).testBit 63 = true →
    (s.channelWord n / 2 ^ 49) % 128 = src →
    s.islandRuns (sourceIsland src false) = true →
    tags.contains n.val = false →
    (s.channelWord n).testBit 61 = false →
    look s.lattice.lastFwd 0 n.val ≠ 0 →
    s.now + 1 < look s.lattice.lastFwd 0 n.val + channelInterval n (s.channelWord n) →
    (s.channelEvent src tags n).1.rdN Obj.EV_CH_LIMITED 0 n = satCount (s.rdN Obj.EV_CH_LIMITED 0 n) 1 ∧
    (s.channelEvent src tags n).1.lattice = s.lattice) ∧
  (∀ (s : State) (src : Nat) (tags : List Nat) (n : Fin 56),
    (s.channelWord n).testBit 63 = true →
    (s.channelWord n / 2 ^ 49) % 128 = src →
    s.islandRuns (sourceIsland src false) = true →
    tags.contains n.val = false →
    (s.channelWord n).testBit 61 = false →
    look s.lattice.lastFwd 0 n.val = 0 →
    (s.channelEvent src tags n).1.rdN Obj.EV_CH_FIRED 0 n = satCount (s.rdN Obj.EV_CH_FIRED 0 n) 1 ∧
    (s.channelEvent src tags n).1.lattice.activations.map (fun a => (a.task, a.tags)) = s.lattice.activations.map (fun a =>
      (a.task, a.tags)) ++ ((channelTasks (s.channelWord n)).filter (fun k => s.islandRuns (taskIsland k false))).map (fun k
      => (k, n.val :: tags)) ∧
    look (s.channelEvent src tags n).1.lattice.lastFwd 0 n.val = s.now + 1)

/-- R34, R379, R390, R455, R457, R465, R466, R568 (EV_CH_CONFIG_WRITE, DMA_START, HOST_IRQ, EPOCH_DECLARE, STATE_HOLD,
STATE_RUN, TIME_CAPTURE, WAKE, EVT_OUT, EVT_PULSE_END, EVT_IN, TIMER, EV_TIMER_APPLY), of the first waiting activation a of
the task: it is taken with those of its instant and counted, and the task acts as a COMMIT, an MSI-X vector, an epoch, a
request for HOLD or RUN, a captured time, the end of deep sleep, or a pulse on its pin; a valid channel word is stored; a
pulse ends with its width; a stable input level shows; a timer fires at its times and takes written settings at a multiple
of 1 ms. -/
def Obligations.LatticeTasks : Prop :=
  (∀ (s : State) (t : Nat) (n : Fin 32) (a : Activation),
    s.lattice.activations.find? (fun x => x.task == n.val) = some a →
    s.islandRuns (taskIsland (n.val) false) = true →
    (s.dma n).state ≠ dsIdle →
    ∃ u, exec (.dmaStart t n) s = .next u ∧
      (u.dma n).committed = some (s.dma n).shadow ∧
      (u.dma n).genCommitted = ((s.dma n).genCommitted + 1) % 2 ^ 32 ∧
      u.rdN Obj.EV_TASK_ACTIVATIONS 0 n = satCount (s.rdN Obj.EV_TASK_ACTIVATIONS 0 n) 1 ∧
      u.lattice.activations = s.lattice.activations.filter (fun x => !(x.task == n.val && s.taskCycle n x.time ==
        s.taskCycle n a.time))) ∧
  (∀ (s : State) (t : Nat) (n : Fin 16) (a : Activation),
    s.lattice.activations.find? (fun x => x.task == 32 + n.val) = some a →
    s.islandRuns (taskIsland (32 + n.val) false) = true →
    s.cxl.linkUp = true →
    s.cxl.unmasked.contains (48 + n.val) = true →
    ∃ u, exec (.hostIrq t n) s = .next u ∧
      u.out = s.out ++ [.msix (48 + n.val)] ∧
      u.lattice.activations = s.lattice.activations.filter (fun x => !(x.task == 32 + n.val && s.taskCycle (32 + n.val)
        x.time == s.taskCycle (32 + n.val) a.time))) ∧
  (∀ (s : State) (t : Nat) (n : Fin 16) (a : Activation),
    s.lattice.activations.find? (fun x => x.task == 32 + n.val) = some a →
    s.islandRuns (taskIsland (32 + n.val) false) = true →
    s.cxl.linkUp = false →
    s.cxl.pendingVec.contains (48 + n.val) = false →
    ∃ u, exec (.hostIrq t n) s = .next u ∧
      u.cxl.pendingVec = s.cxl.pendingVec ++ [48 + n.val] ∧
      u.out = s.out) ∧
  (∀ (s : State) (t : Nat) (g : Fin 12) (a : Activation),
    s.lattice.activations.find? (fun x => x.task == 56 + g.val) = some a →
    s.islandRuns (taskIsland (56 + g.val) false) = true →
    s.lining = true →
    s.groupPorts g ≠ [] →
    s.rdN Obj.EPOCH_PENDING 0 g = 0 →
    ∃ u, exec (.epochDeclare t g) s = .next u ∧
      u.rdN Obj.EPOCH_PENDING 0 g = s.epochFloor g ∧
      u.out = s.out) ∧
  (∀ (s : State) (t : Nat) (a : Activation),
    s.lattice.activations.find? (fun x => x.task == 70) = some a →
    s.islandRuns (taskIsland (70) false) = true →
    s.mode = stRun →
    s.trans = none →
    ∃ u, exec (.stateHold t) s = .next u ∧
      u.trans = some { target := stHold, since := max s.now t } ∧
      u.mode = stRun) ∧
  (∀ (s : State) (t : Nat) (n : Fin 16),
    s.islandRuns islandCxl = false →
    (∀ x ∈ s.lattice.activations, x.tags.headD 0 < 56) →
    ∃ u, exec (.hostIrq t n) s = .next u ∧
      u.out = s.out ∧
      u.lattice.activations = s.lattice.activations.filter (fun x => x.task != 32 + n.val)) ∧
  (∀ (s : State) (t : Nat),
    s.lattice.activations = [] →
    ∃ u, exec (.stateHold t) s = .next u ∧
      u = s.at t) ∧
  (∀ (s : State) (t : Nat) (a : Activation),
    s.lattice.activations.find? (fun x => x.task == 71) = some a →
    s.islandRuns (taskIsland (71) false) = true →
    s.mode = stHold →
    s.trans = none →
    s.holdCause = false →
    ∃ u, exec (.stateRun t) s = .next u ∧
      u.trans = some { target := stRun, since := max s.now t } ∧
      u.mode = stHold) ∧
  (∀ (s : State) (t : Nat) (a : Activation),
    s.lattice.activations.find? (fun x => x.task == 71) = some a →
    s.holdCause = true →
    ∃ u, exec (.stateRun t) s = .next u ∧
      u.trans = s.trans ∧
      u.mode = s.mode) ∧
  (∀ (s : State) (t : Nat) (n : Fin 8) (a : Activation),
    s.lattice.activations.find? (fun x => x.task == 72 + n.val) = some a →
    s.islandRuns (taskIsland (72 + n.val) false) = true →
    ∃ u, exec (.timeCapture t n) s = .next u ∧
      u.rdN Obj.EV_CAPTURE_TIME 0 n = max s.now t ∧
      u.out = s.out) ∧
  (∀ (s : State) (t : Nat) (a : Activation),
    s.lattice.activations.find? (fun x => x.task == 80) = some a →
    s.islandRuns (taskIsland (80) false) = true →
    s.power.asleep = true →
    s.power.step = 0 →
    ∃ u, exec (.wake t) s = .next u ∧
      u.power.step = 1 ∧
      u.power.asleep = false) ∧
  (∀ (s : State) (t : Nat) (n : Fin 8) (a : Activation),
    s.lattice.activations.find? (fun x => x.task == 48 + n.val) = some a →
    s.islandRuns (taskIsland (48 + n.val) false) = true →
    (∀ x ∈ s.lattice.activations, x.async = false) →
    s.pinMode n = 1 →
    ∃ u, exec (.evtOut t n) s = .next u ∧
      (u.evtPin n).drive = true ∧
      (u.evtPin n).until_ = max s.now t + s.rdN Obj.EV_PIN_PULSE_NS 0 n ∧
      (u.evtPin n).asyncDrive = (s.evtPin n).asyncDrive) ∧
  (∀ (s : State) (t : Nat) (n : Fin 8) (a : Activation),
    s.lattice.activations.find? (fun x => x.task == 48 + n.val) = some a →
    s.islandRuns (taskIsland (48 + n.val) false) = true →
    (∀ x ∈ s.lattice.activations, x.async = false) →
    s.pinMode n = 2 →
    ∃ u, exec (.evtOut t n) s = .next u ∧
      (u.evtPin n).drive = !(s.evtPin n).drive) ∧
  (∀ (s : State) (t : Nat) (n : Fin 8),
    s.pinMode n = 1 →
    (s.evtPin n).drive = true →
    (s.evtPin n).until_ ≤ max s.now t →
    ∃ u, exec (.evtPulseEnd t n false) s = .next u ∧
      (u.evtPin n).drive = false ∧
      (u.evtPin n).asyncDrive = (s.evtPin n).asyncDrive ∧
      u.dict = s.dict) ∧
  (∀ (s : State) (t stable : Nat) (n : Fin 8) (high : Bool),
    s.pinMode n = 0 →
    s.rdN Obj.EV_PIN_FILTER_NS 0 n ≤ stable →
    s.bit Obj.EV_PIN_WAKE 0 0 n = false →
    ∃ u, exec (.evtIn t n high stable) s = .next u ∧
      u.level (56 + n.val) = (high != (s.rdN Obj.EV_PIN_MODE 0 n).testBit 7)) ∧
  (∀ (s : State) (t stable : Nat) (n : Fin 8) (high : Bool),
    stable < s.rdN Obj.EV_PIN_FILTER_NS 0 n →
    ∃ u, exec (.evtIn t n high stable) s = .next u ∧
      u = s.at t) ∧
  (∀ (s : State) (t : Nat) (n : Fin 8),
    (s.timer n).1 ≠ 0 →
    max s.now t % (s.timer n).1 = (s.timer n).2 % (s.timer n).1 →
    ∃ u, exec (.timer t n) s = .next u ∧
      u = (s.at t).fire (119 + n.val)) ∧
  (∀ (s : State) (t : Nat) (n : Fin 8),
    (s.timer n).1 ≠ 0 →
    max s.now t % (s.timer n).1 ≠ (s.timer n).2 % (s.timer n).1 →
    ∃ u, exec (.timer t n) s = .next u ∧
      u = s.at t) ∧
  (∀ (s : State) (t : Nat) (n : Fin 8),
    max s.now t % 1000000 = 0 →
    ∃ u, exec (.evTimerApply t n) s = .next u ∧
      u.timer n = (s.rdN Obj.EV_TIMER_PERIOD_NS 0 n, s.rdN Obj.EV_TIMER_PHASE_NS 0 n) ∧
      u.dict = s.dict) ∧
  (∀ (s : State) (t : Nat) (path : Path) (channel : Fin 64) (value : List Byte),
    s.checkWrite path Obj.EV_CH_CONFIG channel 0 value = 0 →
    channelWordOk channel (s.rdN Obj.EV_CH_OWNER 0 channel) (leNat value) = true →
    ∃ u, exec (.evChConfigWrite t path channel value) s = .next u ∧
      u.rdN Obj.EV_CH_CONFIG channel 0 = leNat value ∧
      u.rdN Obj.EV_CH_STATE 0 channel = boolNat ((leNat value).testBit 63) ∧
      u.out = s.out ++ [.result path (Obj.EV_CH_CONFIG.key channel 0) 0]) ∧
  (∀ (s : State) (t : Nat) (path : Path) (channel : Fin 64) (value : List Byte),
    s.checkWrite path Obj.EV_CH_CONFIG channel 0 value = 0 →
    channelWordOk channel (s.rdN Obj.EV_CH_OWNER 0 channel) (leNat value) = false →
    ∃ u, exec (.evChConfigWrite t path channel value) s = .next u ∧
      u.dict = s.dict ∧
      u.out = s.out ++ [.result path (Obj.EV_CH_CONFIG.key channel 0) 5])

/-- R470, R472 to R477, R481, R548 (TW0_START, TW0_XFER_CMD, TW0_XFER_DONE, TW0_POLL, TW0_POLL_DONE, TW_STRETCH_TIMEOUT,
TW_BUS_ERROR, TW_ARB_LOST, TW_STOP_SEEN, TW2_MATCH, TW2_TRANSFER, PMBUS_ALERT): on an idle TW0 the staged transfer starts
and goes out; a second one is refused; an acknowledged one gives its bytes and status 2, and one that is not counts a NACK
and has status 3; a due poll reads each register once, and a failed read counts; a clock stretched beyond its limit and a
bus error count and end the transaction of the port, as do too many lost arbitrations, shown for TW1; TW2 sets its pointer
and answers from it; an alert reads the status words of the ten rails. -/
def Obligations.TwoWirePorts : Prop :=
  (∀ (s : State) (t : Nat) (a : Activation),
    s.lattice.activations.find? (fun x => x.task == 68) = some a →
    s.islandRuns (taskIsland 68 false) = true →
    s.lattice.tw.xfer = none →
    s.lattice.tw.running = 0 →
    s.lattice.tw.polls = [] →
    (s.twPort 0).stuck = false →
    (s.twPort 0).clearUntil ≤ max s.now t →
    ∃ u, exec (.tw0Start t) s = .next u ∧
      u.rdN Obj.TW0_XFER_STATUS = 1 ∧
      u.lattice.tw.running = 2 ∧
      u.out = s.out ++ [.tw0 (s.rdN Obj.TW0_XFER_ADDR) (s.rdBlob Obj.TW0_XFER_WRITE) (s.rdN Obj.TW0_XFER_READ_LEN)]) ∧
  (∀ (s : State) (t : Nat) (path : Path) (value : List Byte),
    s.checkWrite path Obj.TW0_XFER_CMD 0 0 value = 0 →
    s.lattice.tw.xfer = none →
    s.lattice.tw.running = 0 →
    s.lattice.tw.polls = [] →
    (s.twPort 0).stuck = false →
    (s.twPort 0).clearUntil ≤ max s.now t →
    ∃ u, exec (.tw0XferCmd t path value) s = .next u ∧
      u.rdN Obj.TW0_XFER_STATUS = 1 ∧
      (u.twPort 0).busy = true ∧
      u.out = s.out ++ [.result path (Obj.TW0_XFER_CMD.key 0 0) 0, .tw0 (s.rdN Obj.TW0_XFER_ADDR) (s.rdBlob
        Obj.TW0_XFER_WRITE) (s.rdN Obj.TW0_XFER_READ_LEN)]) ∧
  (∀ (s : State) (t : Nat) (path : Path) (value : List Byte),
    Obj.TW0_XFER_CMD.level ≤ s.pathLevel path →
    s.pathOwns path (s.ownerOf Obj.TW0_XFER_CMD 0 0) = true →
    s.lattice.tw.xfer ≠ none →
    ∃ u, exec (.tw0XferCmd t path value) s = .next u ∧
      u.lattice = s.lattice ∧
      u.out = s.out ++ [.result path (Obj.TW0_XFER_CMD.key 0 0) 4]) ∧
  (∀ (s : State) (t : Nat) (data : List Byte) (x : TwXfer),
    s.lattice.tw.running = 2 →
    (s.twPort 0).waits = false →
    s.lattice.tw.xfer = some x →
    x.read ≠ 0 →
    s.lattice.tw.polls = [] →
    ∃ u, exec (.tw0XferDone t true data) s = .next u ∧
      u.rdN Obj.TW0_XFER_STATUS = twOk ∧
      u.rdBlob Obj.TW0_XFER_DATA = data.take x.read ∧
      u.lattice.tw.xfer = none ∧
      u.lattice.tw.running = 0) ∧
  (∀ (s : State) (t : Nat) (x : TwXfer),
    s.lattice.tw.running = 2 →
    (s.twPort 0).waits = false →
    s.lattice.tw.xfer = some x →
    s.lattice.tw.polls = [] →
    ∃ u, exec (.tw0XferDone t false []) s = .next u ∧
      u.rdN Obj.TW0_XFER_STATUS = twNack ∧
      u.rdN Obj.TW_NACKS 0 0 = satCount (s.rdN Obj.TW_NACKS 0 0) 1 ∧
      u.lattice.tw.xfer = none) ∧
  (∀ (s : State) (t : Nat) (r : Nat × Nat) (rest : List (Nat × Nat)),
    s.lattice.tw.polled + s.rdN Obj.TW0_POLL_US * 1000 ≤ max s.now t →
    s.lattice.tw.polls = [] →
    s.lattice.tw.running = 0 →
    (s.twPort 0).stuck = false →
    (s.twPort 0).clearUntil ≤ max s.now t →
    (s.pocxpPorts.map (fun x => (pocxpAddr x.2, pocxpReg x.2))).eraseDups = r :: rest →
    ∃ u, exec (.tw0Poll t) s = .next u ∧
      u.lattice.tw.polls = r :: rest ∧
      u.lattice.tw.polled = max s.now t ∧
      u.lattice.tw.running = 1 ∧
      u.out = s.out ++ [.tw0 r.1 [r.2] 1]) ∧
  (∀ (s : State) (t : Nat),
    max s.now t < s.lattice.tw.polled + s.rdN Obj.TW0_POLL_US * 1000 →
    ∃ u, exec (.tw0Poll t) s = .next u ∧
      u = s.at t) ∧
  (∀ (s : State) (t value : Nat) (r : Nat × Nat),
    s.lattice.tw.running = 1 →
    (s.twPort 0).waits = false →
    s.lattice.tw.polls = [r] →
    s.lattice.tw.xfer = none →
    ∃ u, exec (.tw0PollDone t true value) s = .next u ∧
      (∀ k, k < 12 → (k, s.rdN Obj.TW0_POCXP_MAP 0 k) ∈ s.pocxpPorts → pocxpAddr (s.rdN Obj.TW0_POCXP_MAP 0 k) = r.1 →
        pocxpReg (s.rdN Obj.TW0_POCXP_MAP 0 k) = r.2 → u.bit Obj.TW0_POCXP_STATE 0 0 k = (value.testBit (s.rdN
        Obj.TW0_POCXP_MAP 0 k % 8) == (s.rdN Obj.TW0_POCXP_MAP 0 k).testBit 4)) ∧
      u.lattice.tw.polls = [] ∧
      u.lattice.tw.running = 0) ∧
  (∀ (s : State) (t : Nat) (r : Nat × Nat),
    s.lattice.tw.running = 1 →
    (s.twPort 0).waits = false →
    s.lattice.tw.polls = [r] →
    s.lattice.tw.xfer = none →
    ∃ u, exec (.tw0PollDone t false 0) s = .next u ∧
      u.rdN Obj.TW0_POLL_FAILS = satCount (s.rdN Obj.TW0_POLL_FAILS) 1 ∧
      look u.lattice.tw.fails 0 (256 * r.1 + r.2) = look s.lattice.tw.fails 0 (256 * r.1 + r.2) + 1 ∧
      u.rdN Obj.TW0_POCXP_STATE = s.rdN Obj.TW0_POCXP_STATE) ∧
  (∀ (s : State) (t low : Nat) (port : Fin 3) (stuck : Bool),
    s.twRuns port = true →
    1000000 * s.rdN Obj.TW_STRETCH_TIMEOUT_MS 0 port < low →
    ∃ u, exec (.twStretchTimeout t port ⟨low, false⟩ stuck) s = .next u ∧
      u.rdN Obj.TW_STRETCH_TIMEOUTS 0 port = satCount (s.rdN Obj.TW_STRETCH_TIMEOUTS 0 port) 1 ∧
      (port.val ≠ 0 → (u.twPort port).busy = false)) ∧
  (∀ (s : State) (t low : Nat) (port : Fin 3) (before stuck : Bool),
    low ≤ 1000000 * s.rdN Obj.TW_STRETCH_TIMEOUT_MS 0 port →
    ∃ u, exec (.twStretchTimeout t port ⟨low, before⟩ stuck) s = .next u ∧
      u = s.at t) ∧
  (∀ (s : State) (t : Nat) (port : Fin 3),
    s.twRuns port = true →
    ∃ u, exec (.twBusError t port) s = .next u ∧
      u.rdN Obj.TW_BUS_ERRORS 0 port = satCount (s.rdN Obj.TW_BUS_ERRORS 0 port) 1 ∧
      (port.val = 1 → (u.twPort port).error = true) ∧
      (port.val ≠ 0 → (u.twPort port).busy = false)) ∧
  (∀ (s : State) (t : Nat),
    (s.twPort 0).busy = false →
    ∃ u, exec (.twBusError t 0) s = .next u ∧
      u = s.at t) ∧
  (∀ (s : State) (t bit : Nat) (port : Fin 2),
    s.twRuns port = true →
    bit % 9 ≠ 8 →
    (s.twPort port).lost + 1 ≤ s.rdN Obj.TW_RETRIES 0 port →
    ∃ u, exec (.twArbLost t port bit) s = .next u ∧
      u.rdN Obj.TW_ARB_LOST 0 port = satCount (s.rdN Obj.TW_ARB_LOST 0 port) 1 ∧
      u.rdN Obj.TW_ARB_LAST_BIT 0 port = bit ∧
      (u.twPort port).waits = true ∧
      (u.twPort port).lost = (s.twPort port).lost + 1) ∧
  (∀ (s : State) (t bit : Nat),
    (s.twPort 1).waits = false →
    bit % 9 ≠ 8 →
    s.rdN Obj.TW_RETRIES 0 1 < (s.twPort 1).lost + 1 →
    ∃ u, exec (.twArbLost t 1 bit) s = .next u ∧
      (u.twPort 1).waits = false ∧
      (u.twPort 1).error = true ∧
      (u.twPort 1).lost = 0) ∧
  (∀ (s : State) (t bit : Nat) (port : Fin 2),
    bit % 9 = 8 →
    ∃ u, exec (.twArbLost t port bit) s = .next u ∧
      u = s.at t) ∧
  (∀ (s : State) (t : Nat) (x : TwXfer),
    (s.twPort 0).waits = true →
    s.lattice.tw.running = 2 →
    s.lattice.tw.xfer = some x →
    ∃ u, exec (.twStopSeen t 0) s = .next u ∧
      u.out = s.out ++ [.tw0 x.address x.write x.read] ∧
      (u.twPort 0).waits = false ∧
      u.lattice.tw = s.lattice.tw) ∧
  (∀ (s : State) (t : Nat) (port : Fin 2),
    port.val = 1 ∨ (s.lattice.tw.polls = [] ∧ s.lattice.tw.xfer = none) →
    ∃ u, exec (.twStopSeen t port) s = .next u ∧
      (u.twPort port).waits = false ∧
      (u.twPort port).stuck = false ∧
      (u.twPort port).lost = (s.twPort port).lost ∧
      u.out = s.out) ∧
  (∀ (s : State) (t : TwAddress),
    t.address.val = s.rdN Obj.TW2_ADDR →
    s.power.asleep = false →
    ∃ u, exec (.tw2Match t) s = .next u ∧
      (u.twPort 2).busy = true ∧
      u.power = s.power) ∧
  (∀ (s : State) (t : TwAddress),
    t.address.val ≠ s.rdN Obj.TW2_ADDR →
    ∃ u, exec (.tw2Match t) s = .next u ∧
      u = s.at t.time) ∧
  (∀ (s : State) (t : TwAddress),
    t.address.val = s.rdN Obj.TW2_ADDR →
    s.power.asleep = true →
    s.power.step = 0 →
    ∃ u, exec (.tw2Match t) s = .next u ∧
      (u.twPort 2).busy = true ∧
      u.power.step = 1 ∧
      u.power.asleep = false ∧
      u.rdN Obj.TW2_WAKES = satCount (s.rdN Obj.TW2_WAKES) 1) ∧
  (∀ (s : State) (t read : Nat) (write : List Byte),
    (s.twPort 2).busy = true →
    read ≠ 0 →
    ∃ u, exec (.tw2Transfer t write read) s = .next u ∧
      u.out = s.out ++ [.tw2 ((List.range read).map (fun i => s.tw2Byte ((write.headD s.lattice.tw.pointer + i) % 256)))] ∧
      u.lattice.tw.pointer = (write.headD s.lattice.tw.pointer + read) % 256 ∧
      (u.twPort 2).busy = false) ∧
  (∀ (s : State) (t : Nat) (words : List Nat) (r : Fin 10),
    s.power.step ≠ 0 →
    (s.twPort 1).waits = false →
    (s.twPort 1).stuck = false →
    (s.twPort 1).clearUntil ≤ max s.now t →
    words.length = 10 →
    ∃ u, exec (.pmbusAlert t words) s = .next u ∧
      u.rdN Obj.PW_RAIL_STATUS_WORD 0 r = words.getD r 0 ∧
      (u.twPort 1).busy = false ∧
      (u.twPort 1).error = false) ∧
  (∀ (s : State) (t : Nat) (words : List Nat),
    s.power.step ≠ 0 →
    (s.twPort 1).waits = false →
    (s.twPort 1).stuck = true →
    (s.twPort 1).clearUntil ≤ max s.now t →
    ∃ u, exec (.pmbusAlert t words) s = .next u ∧
      (u.twPort 1).error = true ∧
      (u.twPort 1).stuck = true ∧
      (∀ r, r < 10 → u.rdN Obj.PW_RAIL_STATUS_WORD 0 r = s.rdN Obj.PW_RAIL_STATUS_WORD 0 r))

/-- R16 to R18, R34, R439 (OBJECT_WRITE, RWE_WRITE), of an object whose write is no command of its own: a write that a check
refuses changes no register and answers with the check's RESULT, an index that does not exist with 1; a scalar of effect
now, no counter, has the written value with its reserved bits zero, one of effect preop is staged and reads back while the
live value stays; a write of an RWE object of one port group is staged, and where lines are taken and none is pending an
epoch is declared at the present line plus the lead plus 8. R33, R34 (EPOCH_PENDING_WRITE), of a write that the access
checks pass: a first line within the margin becomes the pending one where none or a later one was pending; a late one is
refused with RESULT 5 and counted, and one where no lines are taken with RESULT 4. R13, R374 (WIDE_READ_LATCH): a read of
the low word of a readable 64-bit object answers with it and leaves the high word of the same instant in the latch of its
own path. -/
def Obligations.DictionaryRequests : Prop :=
  (∀ (s : State) (t : Nat) (path : Path) (object : Nat) (value : List Byte),
    objAt object = none →
    ∃ u, exec (.objectWrite t path object value) s = .next u ∧
      u.dict = s.dict ∧
      u.blobs = s.blobs ∧
      u.out = s.out ++ [.result path object 1]) ∧
  (∀ (s : State) (t : Nat) (path : Path) (object : Nat) (value : List Byte) (o : ObjRow) (b e : Nat),
    objAt object = some (o, b, e) →
    ownWrites.contains o.index = false →
    s.checkWrite path o b e value ≠ 0 →
    ∃ u, exec (.objectWrite t path object value) s = .next u ∧
      u.dict = s.dict ∧
      u.blobs = s.blobs ∧
      u.staged = s.staged ∧
      u.epochs = s.epochs ∧
      u.out = s.out ++ [.result path (o.key b e) (s.checkWrite path o b e value)]) ∧
  (∀ (s : State) (t : Nat) (path : Path) (object : Nat) (value : List Byte) (o : ObjRow) (b e : Nat),
    objAt object = some (o, b, e) →
    ownWrites.contains o.index = false →
    o.effect = .now →
    o.isBytes = false →
    o.counter = false →
    s.checkWrite path o b e value = 0 →
    ∃ u, exec (.objectWrite t path object value) s = .next u ∧
      u.rd o b e = o.keepBits (o.decodeValue value) ∧
      (∀ d k, k ≠ o.key b e → look u.dict d k = look s.dict d k) ∧
      u.blobs = s.blobs ∧
      u.staged = s.staged ∧
      u.epochs = s.epochs ∧
      u.out = s.out ++ [.result path (o.key b e) 0]) ∧
  (∀ (s : State) (t : Nat) (path : Path) (object : Nat) (value : List Byte) (o : ObjRow) (b e : Nat),
    objAt object = some (o, b, e) →
    ownWrites.contains o.index = false →
    o.effect = .preop →
    o.isBytes = false →
    s.checkWrite path o b e value = 0 →
    ∃ u, exec (.objectWrite t path object value) s = .next u ∧
      u.last o b e = o.keepBits (o.decodeValue value) ∧
      u.dict = s.dict ∧
      u.epochs = s.epochs ∧
      u.out = s.out ++ [.result path (o.key b e) 0]) ∧
  (∀ (s : State) (t : Nat) (path : Path) (object : Nat) (value : List Byte) (o : ObjRow) (b e g : Nat),
    objAt object = some (o, b, e) →
    ownWrites.contains o.index = false →
    o.access = .rwe →
    o.effect = .epoch →
    o.isBytes = false →
    s.groupOf o b e = some g →
    s.checkWrite path o b e value = 0 →
    ∃ u, exec (.rweWrite t path object value) s = .next u ∧
      find? u.epochs.staged (epochKey o b e g) = some (o.keepBits (o.decodeValue value)) ∧
      (s.lining = true → s.groupPorts g ≠ [] → s.rdN Obj.EPOCH_PENDING 0 g = 0 → u.rdN Obj.EPOCH_PENDING 0 g = s.epochFloor
        g) ∧
      (s.rdN Obj.EPOCH_PENDING 0 g ≠ 0 → u.dict = s.dict) ∧
      (∀ d k, k ≠ Obj.EPOCH_PENDING.key 0 g → look u.dict d k = look s.dict d k) ∧
      u.out = s.out ++ [.result path (o.key b e) 0]) ∧
  (∀ (s : State) (t : Nat) (path : Path) (g : Fin 12) (value : List Byte),
    s.checkAccess path Obj.EPOCH_PENDING 0 g value.length = 0 →
    s.lining = true →
    s.epochFloor g ≤ leNat value →
    s.rdN Obj.EPOCH_PENDING 0 g = 0 ∨ leNat value < s.rdN Obj.EPOCH_PENDING 0 g →
    ∃ u, exec (.epochPendingWrite t path g value) s = .next u ∧
      u.rdN Obj.EPOCH_PENDING 0 g = leNat value ∧
      (∀ d k, k ≠ Obj.EPOCH_PENDING.key 0 g → look u.dict d k = look s.dict d k) ∧
      u.epochs = s.epochs ∧
      u.out = s.out ++ [.result path (Obj.EPOCH_PENDING.key 0 g) 0]) ∧
  (∀ (s : State) (t : Nat) (path : Path) (g : Fin 12) (value : List Byte),
    s.checkAccess path Obj.EPOCH_PENDING 0 g value.length = 0 →
    s.lining = true →
    leNat value < s.epochFloor g ∨ (s.rdN Obj.EPOCH_PENDING 0 g ≠ 0 ∧ s.rdN Obj.EPOCH_PENDING 0 g ≤ leNat value) →
    ∃ u, exec (.epochPendingWrite t path g value) s = .next u ∧
      u.rdN Obj.EPOCH_LATE_COUNT 0 g = satCount (s.rdN Obj.EPOCH_LATE_COUNT 0 g) 1 ∧
      u.rdN Obj.EPOCH_PENDING 0 g = s.rdN Obj.EPOCH_PENDING 0 g ∧
      u.errName = some .EPOCH_LATE ∧
      u.epochs = s.epochs ∧
      u.out.getLast? = some (.result path (Obj.EPOCH_PENDING.key 0 g) 5)) ∧
  (∀ (s : State) (t : Nat) (path : Path) (g : Fin 12) (value : List Byte),
    s.checkAccess path Obj.EPOCH_PENDING 0 g value.length = 0 →
    s.lining = false →
    ∃ u, exec (.epochPendingWrite t path g value) s = .next u ∧
      u.dict = s.dict ∧
      u.epochs = s.epochs ∧
      u.out = s.out ++ [.result path (Obj.EPOCH_PENDING.key 0 g) 4]) ∧
  (∀ (s : State) (t : Nat) (path : Path) (object : Nat) (o : ObjRow) (b e : Nat),
    ¬ (0x4c00 ≤ object / 256 ∧ object / 256 ≤ 0x4cff) →
    objAt object = some (o, b, e) →
    o.size e = 8 →
    o.access ≠ .rws →
    o.access ≠ .wo →
    s.mode ≠ stSave →
    ∃ u, exec (.wideReadLatch t path object) s = .next u ∧
      u.latched path = leNat ((((s.at t).touch path).readBytes path o b e).drop 4) ∧
      u.out = s.out ++ [.value path object (leNat ((((s.at t).touch path).readBytes path o b e).take 4)), .result path
        object 0] ∧
      (∀ q, q ≠ path → u.latched q = s.latched q) ∧
      u.dict = s.dict) ∧
  (∀ (s : State) (t : Nat) (path : Path) (object : Nat),
    ¬ (0x4c00 ≤ object / 256 ∧ object / 256 ≤ 0x4cff) →
    objAt object = none →
    ∃ u, exec (.wideReadLatch t path object) s = .next u ∧
      u.latches = s.latches ∧
      u.out = s.out ++ [.result path object 1] ∧
      u.dict = s.dict)

/-- R8, R10: a counter word below its maximum counts on; one that reaches 281,474,976,710,655 stays there with SAT set, and
the reserved bits read zero; every writable counter of the dictionary is cleared, value and SAT, by a write of zero that the
access checks pass, an event counted after the clear reads 1, and the events of the clear's own instant stay counted; any
other written value is refused as out of range (RESULT 5) and leaves the counter. -/
def Obligations.Counters : Prop :=
  (∀ (s : State) (o : ObjRow) (b e n : Nat),
    s.rdN o b e ≤ countMax →
    s.rdN o b e + n < countMax →
    (s.count o b e n).rdN o b e = s.rdN o b e + n) ∧
  (∀ (s : State) (o : ObjRow) (b e n : Nat),
    s.rdN o b e ≤ countMax →
    countMax ≤ s.rdN o b e + n →
    (s.count o b e n).rdN o b e = 2 ^ 63 + countMax) ∧
  (∀ (s : State) (o : ObjRow) (b e n : Nat),
    s.rdN o b e = 2 ^ 63 + countMax →
    (s.count o b e n).rdN o b e = 2 ^ 63 + countMax) ∧
  (∀ (v n : Nat),
    countMax = 281474976710655 ∧
    (satCount v n / 2 ^ 48) % 2 ^ 15 = 0) ∧
  (∀ (o : ObjRow) (b e : Nat),
    o ∈ objectTable →
    o.counter = true →
    b < o.blocks →
    e < o.count →
    State.reset.rdN o b e = 0) ∧
  (∀ (s : State) (t : Nat) (path : Path) (object : Nat) (value : List Byte) (o : ObjRow) (b e : Nat),
    objAt object = some (o, b, e) →
    o.counter = true →
    leNat value = 0 →
    s.checkAccess path o b e value.length = 0 →
    ∃ u, exec (.counterClear t path object value) s = .next u ∧
      u.rd o b e = satCount 0 (if s.now < t then 0 else look s.fresh 0 (o.key b e)) ∧
      ((s.now < t ∨ look s.fresh 0 (o.key b e) = 0) → u.rd o b e = 0 ∧ (u.count o b e 1).rd o b e = 1) ∧
      (∀ d k, k ≠ o.key b e → look u.dict d k = look s.dict d k) ∧
      u.out = s.out ++ [.result path (o.key b e) 0]) ∧
  (∀ (s : State) (t : Nat) (path : Path) (object : Nat) (value : List Byte) (o : ObjRow) (b e : Nat),
    objAt object = some (o, b, e) →
    o.counter = true →
    o.decodeValue value ≠ 0 →
    s.checkAccess path o b e value.length = 0 →
    ∃ u, exec (.counterClear t path object value) s = .next u ∧
      u.dict = s.dict ∧
      u.out = s.out ++ [.result path (o.key b e) 5])

/-- R371 to R374 (MB_READ, MB_WRITE, MB_ABORT, MAILBOX_COMPLETE, SEGMENT_TIMEOUT): a request is discarded and counted while
STATE is 1; otherwise it is latched and STATE is 1. On completion STATE is 2 with RESULT 0 and 3 with another, and
CX_MB_LAST keeps TAG, RESULT and OP. A read of no bytes or of more than 4,096 ends with RESULT 6; a first segment without
FINAL opens a transfer, shown with no other one open; a segment at another offset ends it with RESULT 7; a transfer open for
1 s, counted here from its last segment (log entry 70), is discarded. -/
def Obligations.HostMailbox : Prop :=
  (∀ (s : State) (t tag object offset length : Nat),
    s.cxl.mb.state ≠ 1 →
    s.cxl.mb.request = none →
    ∃ u, exec (.mbRead t tag object offset length) s = .next u ∧
      u.cxl.mb.request = some ⟨tag, 1, object, offset, length, false, []⟩ ∧
      u.cxl.mb.state = 1 ∧
      u.cxl.mb.data = s.cxl.mb.data ∧
      (u.cxl.mb.cmd, u.cxl.mb.object, u.cxl.mb.offset, u.cxl.mb.length) = (65536 * tag + 1, object, offset, length) ∧
      u.dict = s.dict ∧
      u.out = s.out) ∧
  (∀ (s : State) (t tag object offset length : Nat),
    s.cxl.mb.state = 1 →
    ∃ u, exec (.mbRead t tag object offset length) s = .next u ∧
      u.rdN Obj.CX_MB_REFUSED = satCount (s.rdN Obj.CX_MB_REFUSED) 1 ∧
      u.cxl.mb.request = s.cxl.mb.request ∧
      u.cxl.mb.state = 1 ∧
      u.cxl.mb.partials = s.cxl.mb.partials) ∧
  (∀ (s : State) (t tag object offset : Nat) (final : Bool) (data : List Byte),
    s.cxl.mb.state ≠ 1 →
    s.cxl.mb.request = none →
    ∃ u, exec (.mbWrite t tag object offset final data) s = .next u ∧
      u.cxl.mb.request = some ⟨tag, 2, object, offset, data.length, final, data⟩ ∧
      u.cxl.mb.state = 1 ∧
      u.cxl.mb.data = mbBuffer s.cxl.mb.data data ∧
      (u.cxl.mb.cmd, u.cxl.mb.object, u.cxl.mb.offset, u.cxl.mb.length, u.cxl.mb.flags) = (65536 * tag + 2, object, offset,
        data.length, boolNat final) ∧
      u.dict = s.dict ∧
      u.out = s.out) ∧
  (∀ (s : State) (t tag object offset : Nat) (final : Bool) (data : List Byte),
    s.cxl.mb.state = 1 →
    ∃ u, exec (.mbWrite t tag object offset final data) s = .next u ∧
      u.rdN Obj.CX_MB_REFUSED = satCount (s.rdN Obj.CX_MB_REFUSED) 1 ∧
      u.cxl.mb.request = s.cxl.mb.request ∧
      u.cxl.mb.state = 1 ∧
      u.cxl.mb.partials = s.cxl.mb.partials) ∧
  (∀ (s : State) (t tag object : Nat),
    s.cxl.mb.state ≠ 1 →
    s.cxl.mb.request = none →
    ∃ u, exec (.mbAbort t tag object) s = .next u ∧
      u.cxl.mb.request = some ⟨tag, 3, object, 0, 0, false, []⟩ ∧
      u.cxl.mb.state = 1 ∧
      u.dict = s.dict ∧
      u.out = s.out) ∧
  (∀ (s : State) (t tag object : Nat),
    s.cxl.mb.state = 1 →
    ∃ u, exec (.mbAbort t tag object) s = .next u ∧
      u.rdN Obj.CX_MB_REFUSED = satCount (s.rdN Obj.CX_MB_REFUSED) 1 ∧
      u.cxl.mb.request = s.cxl.mb.request ∧
      u.cxl.mb.state = 1 ∧
      u.cxl.mb.partials = s.cxl.mb.partials) ∧
  (∀ (s : State) (t : Nat) (r : MbRequest),
    s.cxl.mb.request = some r →
    s.cxl.mb.state = 1 →
    r.op = 1 →
    r.object / 256 = Obj.DEVICE_STATE.key 0 0 →
    r.offset = 0 →
    r.length = 1 →
    s.mode ≠ stSave →
    ∃ u, exec (.mailboxComplete t) s = .next u ∧
      u.cxl.mb.state = 2 ∧
      u.cxl.mb.result = 0 ∧
      u.cxl.mb.tag = r.tag ∧
      u.cxl.mb.data = mbBuffer s.cxl.mb.data (toLe 1 (unsignedOf 1 (s.rd Obj.DEVICE_STATE))) ∧
      u.cxl.mb.request = none ∧
      [0, 1, 2].map (fun e => u.rdN Obj.CX_MB_LAST 0 e) = [r.tag, 0, 1] ∧
      (∀ d k, k ≠ Obj.CX_MB_LAST.key 0 0 → k ≠ Obj.CX_MB_LAST.key 0 1 → k ≠ Obj.CX_MB_LAST.key 0 2 → look u.dict d k = look
        s.dict d k)) ∧
  (∀ (s : State) (t : Nat) (r : MbRequest),
    s.cxl.mb.request = some r →
    s.cxl.mb.state = 1 →
    r.op = 1 →
    r.object / 256 = Obj.DEVICE_STATE.key 0 0 →
    s.mode ≠ stSave →
    r.length = 0 ∨ 4096 < r.length →
    ∃ u, exec (.mailboxComplete t) s = .next u ∧
      u.cxl.mb.state = 3 ∧
      u.cxl.mb.result = 6 ∧
      u.cxl.mb.tag = r.tag ∧
      u.cxl.mb.request = none) ∧
  (∀ (s : State) (t : Nat) (r : MbRequest),
    s.cxl.mb.request = some r →
    s.cxl.mb.state ≠ 1 →
    r.op = 1 →
    r.object / 256 = Obj.DEVICE_STATE.key 0 0 →
    s.mode ≠ stSave →
    r.length = 0 →
    ∃ u, exec (.mailboxComplete t) s = .next u ∧
      u.cxl.mb.state = s.cxl.mb.state ∧
      u.cxl.mb.result = s.cxl.mb.result ∧
      [0, 1, 2].map (fun e => u.rdN Obj.CX_MB_LAST 0 e) = [r.tag, 6, 1] ∧
      u.cxl.mb.request = none) ∧
  (∀ (s : State) (t : Nat) (r : MbRequest),
    s.cxl.mb.request = some r →
    s.cxl.mb.state = 1 →
    r.op = 2 →
    r.length = r.data.length →
    r.final = false →
    r.offset = 0 →
    s.segmentCheck .host (r.object / 256) 0 r.data.length false = 0 →
    s.cxl.mb.partials = [] →
    r.object / 256 ≠ Obj.FW_IMAGE.key 0 0 →
    r.object / 256 ≠ Obj.FW_IMAGE_HOST.key 0 0 →
    ∃ u, exec (.mailboxComplete t) s = .next u ∧
      u.cxl.mb.state = 2 ∧
      u.cxl.mb.result = 0 ∧
      u.cxl.mb.partials = [(r.object / 256, r.data, max s.now t)] ∧
      u.blobs = s.blobs) ∧
  (∀ (s : State) (t : Nat) (r : MbRequest) (x : Nat × List Byte × Nat),
    s.cxl.mb.request = some r →
    s.cxl.mb.state = 1 →
    r.op = 2 →
    r.length = r.data.length →
    s.cxl.mb.partials = [x] →
    x.1 = r.object / 256 →
    s.segmentCheck .host (r.object / 256) r.offset r.data.length r.final = 0 →
    r.offset ≠ x.2.1.length →
    r.object / 256 ≠ Obj.FW_IMAGE.key 0 0 →
    r.object / 256 ≠ Obj.FW_IMAGE_HOST.key 0 0 →
    ∃ u, exec (.mailboxComplete t) s = .next u ∧
      u.cxl.mb.state = 3 ∧
      u.cxl.mb.result = 7 ∧
      u.cxl.mb.partials = [] ∧
      u.blobs = s.blobs) ∧
  (∀ (s : State) (t : Nat) (r : MbRequest),
    s.cxl.mb.request = some r →
    s.cxl.mb.state = 1 →
    r.op = 3 →
    (objAt (r.object / 256)).isSome = true →
    ∃ u, exec (.mailboxComplete t) s = .next u ∧
      u.cxl.mb.state = 2 ∧
      u.cxl.mb.result = 0 ∧
      u.cxl.mb.partials.all (fun x => x.1 != r.object / 256) = true ∧
      u.blobs = s.blobs) ∧
  (∀ (s : State) (t : Nat) (r : MbRequest),
    s.cxl.mb.request = some r →
    s.cxl.mb.state = 1 →
    r.op = 3 →
    objAt (r.object / 256) = none →
    ∃ u, exec (.mailboxComplete t) s = .next u ∧
      u.cxl.mb.state = 3 ∧
      u.cxl.mb.result = 1) ∧
  (∀ (s : State) (t : Nat) (x : Nat × List Byte × Nat),
    s.mer.partials = [x] →
    s.cxl.mb.partials = [] →
    x.2.2 + 1000000000 ≤ max s.now t →
    ∃ u, exec (.segmentTimeout t) s = .next u ∧
      u.mer.partials = [] ∧
      u.cxl.mb.partials = [] ∧
      (x.1 ≠ Obj.FW_IMAGE.key 0 0 → x.1 ≠ Obj.FW_IMAGE_HOST.key 0 0 → u.dict = s.dict)) ∧
  (∀ (s : State) (t : Nat),
    s.mer.partials.all (fun x => decide (max s.now t < x.2.2 + 1000000000)) = true →
    s.cxl.mb.partials.all (fun x => decide (max s.now t < x.2.2 + 1000000000)) = true →
    ∃ u, exec (.segmentTimeout t) s = .next u ∧
      u = s.at t)

/-- A step takes the command that waits longest and runs it, whole, on the state with the queue's rest. With no command
waiting the block idles, which is the model's own choice (log entry 1). -/
def Obligations.StepRunsFront : Prop :=
  (∀ (c : Instr) (rest : List Instr) (s : State),
    step { s with pending := c :: rest } = exec c { s with pending := rest }) ∧
  (∀ (s : State),
    s.pending = [] →
    step s = .next s)

/-- R14, R17, R440: after reset every element of every object of a number type reads the default its table prints, nothing is
staged, both paths hold operator level, no command waits and device memory is in its canonical form. (An object for which
the table prints no default reads the zero that log entry 61 names.) -/
def Obligations.ResetState : Prop :=
  (∀ (o : ObjRow) (b e : Nat),
    State.reset.rd o b e = o.dfltAt e) ∧
  (∀ (path : Path),
    State.reset.pathLevel path = 0 ∧
    State.reset.pending = [] ∧
    State.reset.staged = [] ∧
    State.reset.epochs.staged = [] ∧
    State.reset.out = [] ∧
    State.reset.memOk = true)

/-- From every state, reached or not, every command answers a next state and leaves the queue's rest as it is; the one
exception is a host access of an address outside the device memory window, whose fault is the model's (R375: such an address
does not exist). -/
def Obligations.EveryCommandGoesOn : Prop :=
  (∀ (c : Instr) (s : State),
    inWindow c s = true →
    ∃ u, exec c s = .next u ∧ u.pending = s.pending) ∧
  (∀ (c : Instr) (s : State),
    inWindow c s = false →
    ∃ a, exec c s = .fault (.outsideWindow a))

/-- R23: no command, from any state, sets device time back, and after a command device time is at least the time it carries.
-/
def Obligations.ClockNeverGoesBack : Prop :=
  (∀ (c : Instr) (s u : State),
    exec c s = .next u →
    s.now ≤ u.now ∧
    commandTime c ≤ u.now)

/-- The frame of every command: outside the parts that footprint lists for it, a command leaves the state as it was. Which
parts a command may change follows from the effects spec/95_what_each_step_holds.md lists for it. -/
def Obligations.Footprint : Prop :=
  (∀ (c : Instr) (s u : State),
    exec c s = .next u →
    SameBut (footprint c) s u)

/-- From every state whose device memory is in its canonical form (addresses strictly rising, no entry equal to what an
unlisted address reads as), every step that answers a next state, over every command and every report it carries, leaves it
so: writes by the host and by DMA and compression, and every loss of contents. ResetState says that memory is in that form
after reset. -/
def Obligations.MemoryStaysCanonical : Prop :=
  (∀ (s u : State),
    s.memOk = true →
    step s = .next u →
    u.memOk = true)
end

