-- ==== Sys2Proof/Laws/Parts.lean ====
section
/-! SUPPORT. Views of the state that an update leaves alone: the footprint calculus. -/

set_option maxRecDepth 4000
set_option linter.unusedSimpArgs false

namespace Sys2Proof.Machine

open Sys2Proof

/-- A view of the state that no part of the list changes. -/
def Blind {α : Type} (φ : State → α) (l : List Part) : Prop := ∀ s u, SameBut l s u → φ u = φ s

/-- What a view shows of a state. -/
def see {α : Type} (φ : State → α) (s : State) : α := φ s

theorem Blind.mono {α : Type} {φ : State → α} {l k : List Part} (h : Blind φ l) (e : k.all (fun f => l.contains f) = true) :
    Blind φ k := by
  intro s u hs
  refine h s u (fun f hf => hs f ?_)
  cases hk : k.contains f with
  | false => rfl
  | true =>
    have hm : f ∈ k := by simpa using hk
    have := List.all_eq_true.mp e f hm
    simp_all

theorem SameBut.refl (l : List Part) (s : State) : SameBut l s s := by
  intro f _; cases f <;> rfl

theorem SameBut.trans {l : List Part} {s t u : State} (a : SameBut l s t) (b : SameBut l t u) : SameBut l s u := by
  intro f hf
  have ha := a f hf
  have hb := b f hf
  cases f <;> exact Eq.trans hb ha

/-- What every view that a list of parts does not change shows alike is the same outside that list. -/
theorem SameBut.of_see {l : List Part} {s u : State} (h : ∀ {α : Type} (φ : State → α), Blind φ l → see φ u = see φ s) : SameBut l s u := by
  intro f hf
  cases f
  · exact h (fun s => s.pending) (fun s u hs => hs .pending hf)
  · exact h (fun s => s.now) (fun s u hs => hs .now hf)
  · exact h (fun s => s.fresh) (fun s u hs => hs .fresh hf)
  · exact h (fun s => s.dict) (fun s u hs => hs .dict hf)
  · exact h (fun s => s.blobs) (fun s u hs => hs .blobs hf)
  · exact h (fun s => s.staged) (fun s u hs => hs .staged hf)
  · exact h (fun s => s.stagedBlobs) (fun s u hs => hs .stagedBlobs hf)
  · exact h (fun s => s.epochs) (fun s u hs => hs .epochs hf)
  · exact h (fun s => s.errName) (fun s u hs => hs .errName hf)
  · exact h (fun s => s.latches) (fun s u hs => hs .latches hf)
  · exact h (fun s => s.out) (fun s u hs => hs .out hf)
  · exact h (fun s => s.draws) (fun s u hs => hs .draws hf)
  · exact h (fun s => s.mem) (fun s u hs => hs .mem hf)
  · exact h (fun s => s.lost) (fun s u hs => hs .lost hf)
  · exact h (fun s => s.dramBad) (fun s u hs => hs .dramBad hf)
  · exact h (fun s => s.dram) (fun s u hs => hs .dram hf)
  · exact h (fun s => s.scrubFrom) (fun s u hs => hs .scrubFrom hf)
  · exact h (fun s => s.lattice) (fun s u hs => hs .lattice hf)
  · exact h (fun s => s.cxl) (fun s u hs => hs .cxl hf)
  · exact h (fun s => s.access) (fun s u hs => hs .access hf)
  · exact h (fun s => s.tim) (fun s u hs => hs .tim hf)
  · exact h (fun s => s.cams) (fun s u hs => hs .cams hf)
  · exact h (fun s => s.rc) (fun s u hs => hs .rc hf)
  · exact h (fun s => s.rg) (fun s u hs => hs .rg hf)
  · exact h (fun s => s.vd) (fun s u hs => hs .vd hf)
  · exact h (fun s => s.atl) (fun s u hs => hs .atl hf)
  · exact h (fun s => s.apipes) (fun s u hs => hs .apipes hf)
  · exact h (fun s => s.sg) (fun s u hs => hs .sg hf)
  · exact h (fun s => s.ch) (fun s u hs => hs .ch hf)
  · exact h (fun s => s.lanes) (fun s u hs => hs .lanes hf)
  · exact h (fun s => s.st) (fun s u hs => hs .st hf)
  · exact h (fun s => s.judged) (fun s u hs => hs .judged hf)
  · exact h (fun s => s.bank) (fun s u hs => hs .bank hf)
  · exact h (fun s => s.lg) (fun s u hs => hs .lg hf)
  · exact h (fun s => s.vault) (fun s u hs => hs .vault hf)
  · exact h (fun s => s.cont) (fun s u hs => hs .cont hf)
  · exact h (fun s => s.place) (fun s u hs => hs .place hf)
  · exact h (fun s => s.slots) (fun s u hs => hs .slots hf)
  · exact h (fun s => s.hist) (fun s u hs => hs .hist hf)
  · exact h (fun s => s.thumbs) (fun s u hs => hs .thumbs hf)
  · exact h (fun s => s.rt) (fun s u hs => hs .rt hf)
  · exact h (fun s => s.holdBy) (fun s u hs => hs .holdBy hf)
  · exact h (fun s => s.mer) (fun s u hs => hs .mer hf)
  · exact h (fun s => s.fw) (fun s u hs => hs .fw hf)
  · exact h (fun s => s.trans) (fun s u hs => hs .trans hf)
  · exact h (fun s => s.am) (fun s u hs => hs .am hf)
  · exact h (fun s => s.cal) (fun s u hs => hs .cal hf)
  · exact h (fun s => s.power) (fun s u hs => hs .power hf)

@[simp] theorem see_ite {α : Type} (φ : State → α) (c : Prop) [Decidable c] (a b : State) :
    see φ (if c then a else b) = if c then see φ a else see φ b := by
  split <;> rfl

@[simp] theorem see_ite_fst {α β : Type} (φ : State → α) (c : Prop) [Decidable c] (a b : State × β) :
    see φ (if c then a else b).1 = if c then see φ a.1 else see φ b.1 := by
  split <;> rfl

theorem foldl_see {α β : Type} (φ : State → α) (f : State → β → State) (l : List β) (s : State)
    (h : ∀ a x, see φ (f a x) = see φ a) : see φ (l.foldl f s) = see φ s := by
  induction l generalizing s with
  | nil => rfl
  | cons x r ih => simp [List.foldl, ih, h]

theorem foldl_fst_see {α β γ : Type} (φ : State → α) (f : State × β → γ → State × β) (l : List γ) (p : State × β)
    (h : ∀ a x, see φ (f a x).1 = see φ a.1) : see φ (l.foldl f p).1 = see φ p.1 := by
  induction l generalizing p with
  | nil => rfl
  | cons x r ih => simp [List.foldl, ih, h]

@[simp] theorem see_set_pending {α : Type} (φ : State → α) (h : Blind φ [.pending]) (s : State) (v_pending : List Instr) :
    see φ ({ s with
    pending := v_pending } : State) = see φ s :=
  h _ _ (fun f hf => by cases f <;> first | rfl | cases hf)

@[simp] theorem see_set_now {α : Type} (φ : State → α) (h : Blind φ [.now]) (s : State) (v_now : Nat) :
    see φ ({ s with
    now := v_now } : State) = see φ s :=
  h _ _ (fun f hf => by cases f <;> first | rfl | cases hf)

@[simp] theorem see_set_fresh {α : Type} (φ : State → α) (h : Blind φ [.fresh]) (s : State) (v_fresh : Tab Nat) :
    see φ ({ s with
    fresh := v_fresh } : State) = see φ s :=
  h _ _ (fun f hf => by cases f <;> first | rfl | cases hf)

@[simp] theorem see_set_dict {α : Type} (φ : State → α) (h : Blind φ [.dict]) (s : State) (v_dict : Tab Int) :
    see φ ({ s with
    dict := v_dict } : State) = see φ s :=
  h _ _ (fun f hf => by cases f <;> first | rfl | cases hf)

@[simp] theorem see_set_blobs {α : Type} (φ : State → α) (h : Blind φ [.blobs]) (s : State) (v_blobs : Tab (List Byte)) :
    see φ ({ s with
    blobs := v_blobs } : State) = see φ s :=
  h _ _ (fun f hf => by cases f <;> first | rfl | cases hf)

@[simp] theorem see_set_staged {α : Type} (φ : State → α) (h : Blind φ [.staged]) (s : State) (v_staged : Tab Int) :
    see φ ({ s with
    staged := v_staged } : State) = see φ s :=
  h _ _ (fun f hf => by cases f <;> first | rfl | cases hf)

@[simp] theorem see_set_stagedBlobs {α : Type} (φ : State → α) (h : Blind φ [.stagedBlobs]) (s : State) (v_stagedBlobs : Tab (List Byte)) :
    see φ ({ s with
    stagedBlobs := v_stagedBlobs } : State) = see φ s :=
  h _ _ (fun f hf => by cases f <;> first | rfl | cases hf)

@[simp] theorem see_set_epochs {α : Type} (φ : State → α) (h : Blind φ [.epochs]) (s : State) (v_epochs : Epochs) :
    see φ ({ s with
    epochs := v_epochs } : State) = see φ s :=
  h _ _ (fun f hf => by cases f <;> first | rfl | cases hf)

@[simp] theorem see_set_errName {α : Type} (φ : State → α) (h : Blind φ [.errName]) (s : State) (v_errName : Option Ev) :
    see φ ({ s with
    errName := v_errName } : State) = see φ s :=
  h _ _ (fun f hf => by cases f <;> first | rfl | cases hf)

@[simp] theorem see_set_latches {α : Type} (φ : State → α) (h : Blind φ [.latches]) (s : State) (v_latches : Latches) :
    see φ ({ s with
    latches := v_latches } : State) = see φ s :=
  h _ _ (fun f hf => by cases f <;> first | rfl | cases hf)

@[simp] theorem see_set_out {α : Type} (φ : State → α) (h : Blind φ [.out]) (s : State) (v_out : List Out) :
    see φ ({ s with
    out := v_out } : State) = see φ s :=
  h _ _ (fun f hf => by cases f <;> first | rfl | cases hf)

@[simp] theorem see_set_draws {α : Type} (φ : State → α) (h : Blind φ [.draws]) (s : State) (v_draws : Nat) :
    see φ ({ s with
    draws := v_draws } : State) = see φ s :=
  h _ _ (fun f hf => by cases f <;> first | rfl | cases hf)

@[simp] theorem see_set_mem {α : Type} (φ : State → α) (h : Blind φ [.mem]) (s : State) (v_mem : List Host.Cell) :
    see φ ({ s with
    mem := v_mem } : State) = see φ s :=
  h _ _ (fun f hf => by cases f <;> first | rfl | cases hf)

@[simp] theorem see_set_lost {α : Type} (φ : State → α) (h : Blind φ [.lost]) (s : State) (v_lost : Nat) :
    see φ ({ s with
    lost := v_lost } : State) = see φ s :=
  h _ _ (fun f hf => by cases f <;> first | rfl | cases hf)

@[simp] theorem see_set_dramBad {α : Type} (φ : State → α) (h : Blind φ [.dramBad]) (s : State) (v_dramBad : List Nat) :
    see φ ({ s with
    dramBad := v_dramBad } : State) = see φ s :=
  h _ _ (fun f hf => by cases f <;> first | rfl | cases hf)

@[simp] theorem see_set_dram {α : Type} (φ : State → α) (h : Blind φ [.dram]) (s : State) (v_dram : Tab DramChannel) :
    see φ ({ s with
    dram := v_dram } : State) = see φ s :=
  h _ _ (fun f hf => by cases f <;> first | rfl | cases hf)

@[simp] theorem see_set_scrubFrom {α : Type} (φ : State → α) (h : Blind φ [.scrubFrom]) (s : State) (v_scrubFrom : Nat) :
    see φ ({ s with
    scrubFrom := v_scrubFrom } : State) = see φ s :=
  h _ _ (fun f hf => by cases f <;> first | rfl | cases hf)

@[simp] theorem see_set_lattice {α : Type} (φ : State → α) (h : Blind φ [.lattice]) (s : State) (v_lattice : Lattice) :
    see φ ({ s with
    lattice := v_lattice } : State) = see φ s :=
  h _ _ (fun f hf => by cases f <;> first | rfl | cases hf)

@[simp] theorem see_set_cxl {α : Type} (φ : State → α) (h : Blind φ [.cxl]) (s : State) (v_cxl : Cxl) :
    see φ ({ s with
    cxl := v_cxl } : State) = see φ s :=
  h _ _ (fun f hf => by cases f <;> first | rfl | cases hf)

@[simp] theorem see_set_access {α : Type} (φ : State → α) (h : Blind φ [.access]) (s : State) (v_access : AccessState) :
    see φ ({ s with
    access := v_access } : State) = see φ s :=
  h _ _ (fun f hf => by cases f <;> first | rfl | cases hf)

@[simp] theorem see_set_tim {α : Type} (φ : State → α) (h : Blind φ [.tim]) (s : State) (v_tim : Tim) :
    see φ ({ s with
    tim := v_tim } : State) = see φ s :=
  h _ _ (fun f hf => by cases f <;> first | rfl | cases hf)

@[simp] theorem see_set_cams {α : Type} (φ : State → α) (h : Blind φ [.cams]) (s : State) (v_cams : Cams) :
    see φ ({ s with
    cams := v_cams } : State) = see φ s :=
  h _ _ (fun f hf => by cases f <;> first | rfl | cases hf)

@[simp] theorem see_set_rc {α : Type} (φ : State → α) (h : Blind φ [.rc]) (s : State) (v_rc : Tab RcPort) :
    see φ ({ s with
    rc := v_rc } : State) = see φ s :=
  h _ _ (fun f hf => by cases f <;> first | rfl | cases hf)

@[simp] theorem see_set_rg {α : Type} (φ : State → α) (h : Blind φ [.rg]) (s : State) (v_rg : Tab RgPort) :
    see φ ({ s with
    rg := v_rg } : State) = see φ s :=
  h _ _ (fun f hf => by cases f <;> first | rfl | cases hf)

@[simp] theorem see_set_vd {α : Type} (φ : State → α) (h : Blind φ [.vd]) (s : State) (v_vd : Tab VdGroup) :
    see φ ({ s with
    vd := v_vd } : State) = see φ s :=
  h _ _ (fun f hf => by cases f <;> first | rfl | cases hf)

@[simp] theorem see_set_atl {α : Type} (φ : State → α) (h : Blind φ [.atl]) (s : State) (v_atl : Tab AtPort) :
    see φ ({ s with
    atl := v_atl } : State) = see φ s :=
  h _ _ (fun f hf => by cases f <;> first | rfl | cases hf)

@[simp] theorem see_set_apipes {α : Type} (φ : State → α) (h : Blind φ [.apipes]) (s : State) (v_apipes : Tab AtlasPipe) :
    see φ ({ s with
    apipes := v_apipes } : State) = see φ s :=
  h _ _ (fun f hf => by cases f <;> first | rfl | cases hf)

@[simp] theorem see_set_sg {α : Type} (φ : State → α) (h : Blind φ [.sg]) (s : State) (v_sg : Tab SgPort) :
    see φ ({ s with
    sg := v_sg } : State) = see φ s :=
  h _ _ (fun f hf => by cases f <;> first | rfl | cases hf)

@[simp] theorem see_set_ch {α : Type} (φ : State → α) (h : Blind φ [.ch]) (s : State) (v_ch : Tab ChPort) :
    see φ ({ s with
    ch := v_ch } : State) = see φ s :=
  h _ _ (fun f hf => by cases f <;> first | rfl | cases hf)

@[simp] theorem see_set_lanes {α : Type} (φ : State → α) (h : Blind φ [.lanes]) (s : State) (v_lanes : Tab Nat) :
    see φ ({ s with
    lanes := v_lanes } : State) = see φ s :=
  h _ _ (fun f hf => by cases f <;> first | rfl | cases hf)

@[simp] theorem see_set_st {α : Type} (φ : State → α) (h : Blind φ [.st]) (s : State) (v_st : Stitch) :
    see φ ({ s with
    st := v_st } : State) = see φ s :=
  h _ _ (fun f hf => by cases f <;> first | rfl | cases hf)

@[simp] theorem see_set_judged {α : Type} (φ : State → α) (h : Blind φ [.judged]) (s : State) (v_judged : List Judged) :
    see φ ({ s with
    judged := v_judged } : State) = see φ s :=
  h _ _ (fun f hf => by cases f <;> first | rfl | cases hf)

@[simp] theorem see_set_bank {α : Type} (φ : State → α) (h : Blind φ [.bank]) (s : State) (v_bank : Bank) :
    see φ ({ s with
    bank := v_bank } : State) = see φ s :=
  h _ _ (fun f hf => by cases f <;> first | rfl | cases hf)

@[simp] theorem see_set_lg {α : Type} (φ : State → α) (h : Blind φ [.lg]) (s : State) (v_lg : Ledger) :
    see φ ({ s with
    lg := v_lg } : State) = see φ s :=
  h _ _ (fun f hf => by cases f <;> first | rfl | cases hf)

@[simp] theorem see_set_vault {α : Type} (φ : State → α) (h : Blind φ [.vault]) (s : State) (v_vault : Vault) :
    see φ ({ s with
    vault := v_vault } : State) = see φ s :=
  h _ _ (fun f hf => by cases f <;> first | rfl | cases hf)

@[simp] theorem see_set_cont {α : Type} (φ : State → α) (h : Blind φ [.cont]) (s : State) (v_cont : Continuity) :
    see φ ({ s with
    cont := v_cont } : State) = see φ s :=
  h _ _ (fun f hf => by cases f <;> first | rfl | cases hf)

@[simp] theorem see_set_place {α : Type} (φ : State → α) (h : Blind φ [.place]) (s : State) (v_place : Placement) :
    see φ ({ s with
    place := v_place } : State) = see φ s :=
  h _ _ (fun f hf => by cases f <;> first | rfl | cases hf)

@[simp] theorem see_set_slots {α : Type} (φ : State → α) (h : Blind φ [.slots]) (s : State) (v_slots : Tab (List Byte)) :
    see φ ({ s with
    slots := v_slots } : State) = see φ s :=
  h _ _ (fun f hf => by cases f <;> first | rfl | cases hf)

@[simp] theorem see_set_hist {α : Type} (φ : State → α) (h : Blind φ [.hist]) (s : State) (v_hist : Tab Hist) :
    see φ ({ s with
    hist := v_hist } : State) = see φ s :=
  h _ _ (fun f hf => by cases f <;> first | rfl | cases hf)

@[simp] theorem see_set_thumbs {α : Type} (φ : State → α) (h : Blind φ [.thumbs]) (s : State) (v_thumbs : List ThumbJob) :
    see φ ({ s with
    thumbs := v_thumbs } : State) = see φ s :=
  h _ _ (fun f hf => by cases f <;> first | rfl | cases hf)

@[simp] theorem see_set_rt {α : Type} (φ : State → α) (h : Blind φ [.rt]) (s : State) (v_rt : Tab (List RtLine)) :
    see φ ({ s with
    rt := v_rt } : State) = see φ s :=
  h _ _ (fun f hf => by cases f <;> first | rfl | cases hf)

@[simp] theorem see_set_holdBy {α : Type} (φ : State → α) (h : Blind φ [.holdBy]) (s : State) (v_holdBy : Nat) :
    see φ ({ s with
    holdBy := v_holdBy } : State) = see φ s :=
  h _ _ (fun f hf => by cases f <;> first | rfl | cases hf)

@[simp] theorem see_set_mer {α : Type} (φ : State → α) (h : Blind φ [.mer]) (s : State) (v_mer : Mer) :
    see φ ({ s with
    mer := v_mer } : State) = see φ s :=
  h _ _ (fun f hf => by cases f <;> first | rfl | cases hf)

@[simp] theorem see_set_fw {α : Type} (φ : State → α) (h : Blind φ [.fw]) (s : State) (v_fw : Firmware) :
    see φ ({ s with
    fw := v_fw } : State) = see φ s :=
  h _ _ (fun f hf => by cases f <;> first | rfl | cases hf)

@[simp] theorem see_set_trans {α : Type} (φ : State → α) (h : Blind φ [.trans]) (s : State) (v_trans : Option Transition) :
    see φ ({ s with
    trans := v_trans } : State) = see φ s :=
  h _ _ (fun f hf => by cases f <;> first | rfl | cases hf)

@[simp] theorem see_set_am {α : Type} (φ : State → α) (h : Blind φ [.am]) (s : State) (v_am : Tab AmChannel) :
    see φ ({ s with
    am := v_am } : State) = see φ s :=
  h _ _ (fun f hf => by cases f <;> first | rfl | cases hf)

@[simp] theorem see_set_cal {α : Type} (φ : State → α) (h : Blind φ [.cal]) (s : State) (v_cal : Calib) :
    see φ ({ s with
    cal := v_cal } : State) = see φ s :=
  h _ _ (fun f hf => by cases f <;> first | rfl | cases hf)

@[simp] theorem see_set_power {α : Type} (φ : State → α) (h : Blind φ [.power]) (s : State) (v_power : Power) :
    see φ ({ s with
    power := v_power } : State) = see φ s :=
  h _ _ (fun f hf => by cases f <;> first | rfl | cases hf)

@[simp] theorem see_set_now_fresh {α : Type} (φ : State → α) (h : Blind φ [.now, .fresh]) (s : State) (v_now : Nat) (v_fresh : Tab Nat) :
    see φ ({ s with
    now := v_now, fresh := v_fresh } : State) = see φ s :=
  h _ _ (fun f hf => by cases f <;> first | rfl | cases hf)

@[simp] theorem see_set_now_mer {α : Type} (φ : State → α) (h : Blind φ [.now, .mer]) (s : State) (v_now : Nat) (v_mer : Mer) :
    see φ ({ s with
    now := v_now, mer := v_mer } : State) = see φ s :=
  h _ _ (fun f hf => by cases f <;> first | rfl | cases hf)

@[simp] theorem see_set_dict_blobs {α : Type} (φ : State → α) (h : Blind φ [.dict, .blobs]) (s : State) (v_dict : Tab Int) (v_blobs : Tab (List Byte)) :
    see φ ({ s with
    dict := v_dict, blobs := v_blobs } : State) = see φ s :=
  h _ _ (fun f hf => by cases f <;> first | rfl | cases hf)

@[simp] theorem see_set_dict_lattice {α : Type} (φ : State → α) (h : Blind φ [.dict, .lattice]) (s : State) (v_dict : Tab Int) (v_lattice : Lattice) :
    see φ ({ s with
    dict := v_dict, lattice := v_lattice } : State) = see φ s :=
  h _ _ (fun f hf => by cases f <;> first | rfl | cases hf)

@[simp] theorem see_set_staged_stagedBlobs {α : Type} (φ : State → α) (h : Blind φ [.staged, .stagedBlobs]) (s : State) (v_staged : Tab Int) (v_stagedBlobs : Tab (List Byte)) :
    see φ ({ s with
    staged := v_staged, stagedBlobs := v_stagedBlobs } : State) = see φ s :=
  h _ _ (fun f hf => by cases f <;> first | rfl | cases hf)

@[simp] theorem see_set_epochs_tim {α : Type} (φ : State → α) (h : Blind φ [.epochs, .tim]) (s : State) (v_epochs : Epochs) (v_tim : Tim) :
    see φ ({ s with
    epochs := v_epochs, tim := v_tim } : State) = see φ s :=
  h _ _ (fun f hf => by cases f <;> first | rfl | cases hf)

@[simp] theorem see_set_latches_access {α : Type} (φ : State → α) (h : Blind φ [.latches, .access]) (s : State) (v_latches : Latches) (v_access : AccessState) :
    see φ ({ s with
    latches := v_latches, access := v_access } : State) = see φ s :=
  h _ _ (fun f hf => by cases f <;> first | rfl | cases hf)

@[simp] theorem see_set_draws_tim {α : Type} (φ : State → α) (h : Blind φ [.draws, .tim]) (s : State) (v_draws : Nat) (v_tim : Tim) :
    see φ ({ s with
    draws := v_draws, tim := v_tim } : State) = see φ s :=
  h _ _ (fun f hf => by cases f <;> first | rfl | cases hf)

@[simp] theorem see_set_draws_rt {α : Type} (φ : State → α) (h : Blind φ [.draws, .rt]) (s : State) (v_draws : Nat) (v_rt : Tab (List RtLine)) :
    see φ ({ s with
    draws := v_draws, rt := v_rt } : State) = see φ s :=
  h _ _ (fun f hf => by cases f <;> first | rfl | cases hf)

@[simp] theorem see_set_rc_rg {α : Type} (φ : State → α) (h : Blind φ [.rc, .rg]) (s : State) (v_rc : Tab RcPort) (v_rg : Tab RgPort) :
    see φ ({ s with
    rc := v_rc, rg := v_rg } : State) = see φ s :=
  h _ _ (fun f hf => by cases f <;> first | rfl | cases hf)

@[simp] theorem see_set_st_judged {α : Type} (φ : State → α) (h : Blind φ [.st, .judged]) (s : State) (v_st : Stitch) (v_judged : List Judged) :
    see φ ({ s with
    st := v_st, judged := v_judged } : State) = see φ s :=
  h _ _ (fun f hf => by cases f <;> first | rfl | cases hf)

@[simp] theorem see_set_bank_cal {α : Type} (φ : State → α) (h : Blind φ [.bank, .cal]) (s : State) (v_bank : Bank) (v_cal : Calib) :
    see φ ({ s with
    bank := v_bank, cal := v_cal } : State) = see φ s :=
  h _ _ (fun f hf => by cases f <;> first | rfl | cases hf)

@[simp] theorem see_set_vault_cal {α : Type} (φ : State → α) (h : Blind φ [.vault, .cal]) (s : State) (v_vault : Vault) (v_cal : Calib) :
    see φ ({ s with
    vault := v_vault, cal := v_cal } : State) = see φ s :=
  h _ _ (fun f hf => by cases f <;> first | rfl | cases hf)

@[simp] theorem see_set_vault_power {α : Type} (φ : State → α) (h : Blind φ [.vault, .power]) (s : State) (v_vault : Vault) (v_power : Power) :
    see φ ({ s with
    vault := v_vault, power := v_power } : State) = see φ s :=
  h _ _ (fun f hf => by cases f <;> first | rfl | cases hf)

@[simp] theorem see_set_holdBy_trans {α : Type} (φ : State → α) (h : Blind φ [.holdBy, .trans]) (s : State) (v_holdBy : Nat) (v_trans : Option Transition) :
    see φ ({ s with
    holdBy := v_holdBy, trans := v_trans } : State) = see φ s :=
  h _ _ (fun f hf => by cases f <;> first | rfl | cases hf)

@[simp] theorem see_set_mem_lost_dramBad {α : Type} (φ : State → α) (h : Blind φ [.mem, .lost, .dramBad]) (s : State) (v_mem : List Host.Cell) (v_lost : Nat) (v_dramBad : List Nat) :
    see φ ({ s with
    mem := v_mem, lost := v_lost, dramBad := v_dramBad } : State) = see φ s :=
  h _ _ (fun f hf => by cases f <;> first | rfl | cases hf)

@[simp] theorem see_set_lattice_cxl_lg {α : Type} (φ : State → α) (h : Blind φ [.lattice, .cxl, .lg]) (s : State) (v_lattice : Lattice) (v_cxl : Cxl) (v_lg : Ledger) :
    see φ ({ s with
    lattice := v_lattice, cxl := v_cxl, lg := v_lg } : State) = see φ s :=
  h _ _ (fun f hf => by cases f <;> first | rfl | cases hf)

@[simp] theorem see_set_st_judged_trans {α : Type} (φ : State → α) (h : Blind φ [.st, .judged, .trans]) (s : State) (v_st : Stitch) (v_judged : List Judged) (v_trans : Option Transition) :
    see φ ({ s with
    st := v_st, judged := v_judged, trans := v_trans } : State) = see φ s :=
  h _ _ (fun f hf => by cases f <;> first | rfl | cases hf)

@[simp] theorem see_set_cams_slots_hist_rt {α : Type} (φ : State → α) (h : Blind φ [.cams, .slots, .hist, .rt]) (s : State) (v_cams : Cams) (v_slots : Tab (List Byte)) (v_hist : Tab Hist) (v_rt : Tab (List RtLine)) :
    see φ ({ s with
    cams := v_cams, slots := v_slots, hist := v_hist, rt := v_rt } : State) = see φ s :=
  h _ _ (fun f hf => by cases f <;> first | rfl | cases hf)

@[simp] theorem see_set_st_judged_cont_thumbs_rt {α : Type} (φ : State → α) (h : Blind φ [.st, .judged, .cont, .thumbs, .rt]) (s : State) (v_st : Stitch) (v_judged : List Judged) (v_cont : Continuity) (v_thumbs : List ThumbJob) (v_rt : Tab (List RtLine)) :
    see φ ({ s with
    st := v_st, judged := v_judged, cont := v_cont, thumbs := v_thumbs, rt := v_rt } : State) = see φ s :=
  h _ _ (fun f hf => by cases f <;> first | rfl | cases hf)

@[simp] theorem see_set_cams_place_slots_hist_thumbs_rt {α : Type} (φ : State → α) (h : Blind φ [.cams, .place, .slots, .hist, .thumbs, .rt]) (s : State) (v_cams : Cams) (v_place : Placement) (v_slots : Tab (List Byte)) (v_hist : Tab Hist) (v_thumbs : List ThumbJob) (v_rt : Tab (List RtLine)) :
    see φ ({ s with
    cams := v_cams, place := v_place, slots := v_slots, hist := v_hist, thumbs := v_thumbs, rt := v_rt } : State) = see φ s :=
  h _ _ (fun f hf => by cases f <;> first | rfl | cases hf)

end Sys2Proof.Machine
end

