-- ==== Sys2Proof/Laws/Ops.lean ====
section
/-! SUPPORT. What each operation of Machine/Ops.lean leaves alone, and that each of its commands goes on. -/

set_option maxRecDepth 4000
set_option linter.unusedSimpArgs false

namespace Sys2Proof.Machine

open Sys2Proof

@[simp ↓] theorem State.at_see {γ : Type} (φ : State → γ) (hb : Blind φ [.now, .fresh]) (s : State) (t : Nat) :
    see φ (State.at s t) = see φ s := by
  unfold State.at
  (repeat' split) <;> simp (disch := exact hb.mono rfl)

@[simp ↓] theorem State.put_see {γ : Type} (φ : State → γ) (hb : Blind φ [.dict]) (s : State) (o : ObjRow) (b e : Nat) (v : Int) :
    see φ (State.put s o b e v) = see φ s := by
  unfold State.put
  (repeat' split) <;> simp (disch := exact hb.mono rfl)

@[simp ↓] theorem State.putN_see {γ : Type} (φ : State → γ) (hb : Blind φ [.dict]) (s : State) (o : ObjRow) (b e v : Nat) :
    see φ (State.putN s o b e v) = see φ s := by
  unfold State.putN
  (repeat' split) <;> simp (disch := exact hb.mono rfl)

@[simp ↓] theorem State.putBlob_see {γ : Type} (φ : State → γ) (hb : Blind φ [.blobs]) (s : State) (o : ObjRow) (b e : Nat) (v : List Byte) :
    see φ (State.putBlob s o b e v) = see φ s := by
  unfold State.putBlob
  (repeat' split) <;> simp (disch := exact hb.mono rfl)

@[simp ↓] theorem State.putList_see {γ : Type} (φ : State → γ) (hb : Blind φ [.dict]) (s : State) (o : ObjRow) (b : Nat) (vs : List Int) :
    see φ (State.putList s o b vs) = see φ s := by
  unfold State.putList
  rw [foldl_see]
  intro a x
  simp (disch := exact hb.mono rfl)

@[simp ↓] theorem State.count_see {γ : Type} (φ : State → γ) (hb : Blind φ [.fresh, .dict]) (s : State) (o : ObjRow) (b e n : Nat) :
    see φ (State.count s o b e n) = see φ s := by
  unfold State.count
  (repeat' split) <;> simp (disch := exact hb.mono rfl)

@[simp ↓] theorem State.clearCount_see {γ : Type} (φ : State → γ) (hb : Blind φ [.dict]) (s : State) (o : ObjRow) (b e : Nat) :
    see φ (State.clearCount s o b e) = see φ s := by
  unfold State.clearCount
  (repeat' split) <;> simp (disch := exact hb.mono rfl)

@[simp ↓] theorem State.bin_see {γ : Type} (φ : State → γ) (hb : Blind φ [.dict]) (s : State) (o : ObjRow) (b e n : Nat) (sat : ObjRow) (sb se bit : Nat) :
    see φ (State.bin s o b e n sat sb se bit) = see φ s := by
  unfold State.bin
  (repeat' split) <;> simp (disch := exact hb.mono rfl)

@[simp ↓] theorem State.emit_see {γ : Type} (φ : State → γ) (hb : Blind φ [.out]) (s : State) (x : Out) :
    see φ (State.emit s x) = see φ s := by
  unfold State.emit
  (repeat' split) <;> simp (disch := exact hb.mono rfl)

@[simp ↓] theorem State.drawn_see {γ : Type} (φ : State → γ) (hb : Blind φ [.draws]) (s : State) :
    see φ (State.drawn s) = see φ s := by
  unfold State.drawn
  (repeat' split) <;> simp (disch := exact hb.mono rfl)

@[simp ↓] theorem State.vector_see {γ : Type} (φ : State → γ) (hb : Blind φ [.out, .cxl]) (s : State) (v : Nat) :
    see φ (State.vector s v) = see φ s := by
  unfold State.vector
  (repeat' split) <;> simp (disch := exact hb.mono rfl)

@[simp ↓] theorem State.causeBit_see {γ : Type} (φ : State → γ) (hb : Blind φ [.out, .cxl]) (s : State) (n : Nat) :
    see φ (State.causeBit s n) = see φ s := by
  unfold State.causeBit
  (repeat' split) <;> simp (disch := exact hb.mono rfl)

@[simp ↓] theorem State.causeOf_see {γ : Type} (φ : State → γ) (hb : Blind φ [.out, .cxl]) (s : State) (num : Nat) :
    see φ (State.causeOf s num) = see φ s := by
  unfold State.causeOf
  (repeat' split) <;> simp (disch := exact hb.mono rfl) <;> (repeat rw [foldl_see]) <;> intros <;> (repeat' split) <;> simp (disch := exact hb.mono rfl)

@[simp ↓] theorem State.noteTags_see {γ : Type} (φ : State → γ) (hb : Blind φ [.lattice]) (s : State) (block : Nat) (tags : List Nat) :
    see φ (State.noteTags s block tags) = see φ s := by
  unfold State.noteTags
  (repeat' split) <;> simp (disch := exact hb.mono rfl)

@[simp ↓] theorem State.channelLoop_see {γ : Type} (φ : State → γ) (hb : Blind φ [.fresh, .dict]) (s : State) (n cfg : Nat) :
    see φ (State.channelLoop s n cfg).1 = see φ s := by
  unfold State.channelLoop
  (repeat' split) <;> simp (disch := exact hb.mono rfl)

@[simp ↓] theorem State.channelEvent_see {γ : Type} (φ : State → γ) (hb : Blind φ [.fresh, .dict, .lattice]) (s : State) (src : Nat) (tags : List Nat) (n : Nat) :
    see φ (State.channelEvent s src tags n).1 = see φ s := by
  unfold State.channelEvent
  (repeat' split) <;> simp (disch := exact hb.mono rfl)

@[simp ↓] theorem State.channels_see {γ : Type} (φ : State → γ) (hb : Blind φ [.fresh, .dict, .lattice]) (s : State) (src : Nat) (tags : List Nat) (n : Nat) :
    see φ (State.channels s src tags n).1 = see φ s := by
  unfold State.channels
  (repeat' split) <;> simp (disch := exact hb.mono rfl) <;> (repeat rw [foldl_fst_see]) <;> intros <;> (repeat' split) <;> simp (disch := exact hb.mono rfl)

@[simp ↓] theorem raiseWith_see {γ : Type} (φ : State → γ) (hb : Blind φ [.fresh, .dict, .errName, .out, .lattice, .cxl]) (fuel : Nat) (s : State) (e : Ev) (obj : Nat) :
    see φ (raiseWith fuel s e obj) = see φ s := by
  induction fuel generalizing s e obj with
  | zero => simp (disch := exact hb.mono rfl) [raiseWith]
  | succ f ih =>
    simp only [raiseWith]
    rw [foldl_see]
    · simp (disch := exact hb.mono rfl)
    · intro a x
      exact ih _ _ _

@[simp ↓] theorem State.raise_see {γ : Type} (φ : State → γ) (hb : Blind φ [.fresh, .dict, .errName, .out, .lattice, .cxl]) (s : State) (e : Ev) (obj : Nat) :
    see φ (State.raise s e obj) = see φ s := by
  unfold State.raise
  (repeat' split) <;> simp (disch := exact hb.mono rfl)

@[simp ↓] theorem State.fire_see {γ : Type} (φ : State → γ) (hb : Blind φ [.fresh, .dict, .errName, .out, .lattice, .cxl]) (s : State) (src : Nat) (n : Nat) :
    see φ (State.fire s src n) = see φ s := by
  unfold State.fire
  (repeat' split) <;> simp (disch := exact hb.mono rfl) <;> (repeat rw [foldl_see]) <;> intros <;> (repeat' split) <;> simp (disch := exact hb.mono rfl)

@[simp ↓] theorem State.setLevel_see {γ : Type} (φ : State → γ) (hb : Blind φ [.fresh, .dict, .errName, .out, .lattice, .cxl]) (s : State) (src : Nat) (v : Bool) (n : Nat) :
    see φ (State.setLevel s src v n) = see φ s := by
  unfold State.setLevel
  (repeat' split) <;> simp (disch := exact hb.mono rfl)

@[simp ↓] theorem State.rewritten_see {γ : Type} (φ : State → γ) (hb : Blind φ [.dramBad]) (s : State) (a n : Nat) :
    see φ (State.rewritten s a n) = see φ s := by
  unfold State.rewritten
  (repeat' split) <;> simp (disch := exact hb.mono rfl)

@[simp ↓] theorem State.memStore_see {γ : Type} (φ : State → γ) (hb : Blind φ [.mem, .dramBad]) (s : State) (a : Nat) (b : List Byte) :
    see φ (State.memStore s a b) = see φ s := by
  unfold State.memStore
  (repeat' split) <;> simp (disch := exact hb.mono rfl)

@[simp ↓] theorem State.memLose_see {γ : Type} (φ : State → γ) (hb : Blind φ [.mem, .lost, .dramBad]) (s : State) :
    see φ (State.memLose s) = see φ s := by
  unfold State.memLose
  (repeat' split) <;> simp (disch := exact hb.mono rfl)

end Sys2Proof.Machine
end

