-- ==== Sys2Proof/Laws/Flags.lean ====
section
/-! SUPPORT. What each operation of Machine/Flags.lean leaves alone, and that each of its commands goes on. -/

set_option maxRecDepth 4000
set_option linter.unusedSimpArgs false

namespace Sys2Proof.Machine

open Sys2Proof

@[simp ↓] theorem State.setBit_see {γ : Type} (φ : State → γ) (hb : Blind φ [.dict]) (s : State) (o : ObjRow) (b e i : Nat) (v : Bool) :
    see φ (State.setBit s o b e i v) = see φ s := by
  unfold State.setBit
  (repeat' split) <;> simp (disch := exact hb.mono rfl)

@[simp ↓] theorem State.setField_see {γ : Type} (φ : State → γ) (hb : Blind φ [.dict]) (s : State) (o : ObjRow) (b e lo n v : Nat) :
    see φ (State.setField s o b e lo n v) = see φ s := by
  unfold State.setField
  (repeat' split) <;> simp (disch := exact hb.mono rfl)

@[simp ↓] theorem State.enterMode_see {γ : Type} (φ : State → γ) (hb : Blind φ [.dict, .draws, .tim]) (s : State) (m : Nat) :
    see φ (State.enterMode s m) = see φ s := by
  unfold State.enterMode
  (repeat' split) <;> simp (disch := exact hb.mono rfl)

@[simp ↓] theorem State.setMode_see {γ : Type} (φ : State → γ) (hb : Blind φ [.fresh, .dict, .errName, .out, .draws, .lattice, .cxl, .tim]) (s : State) (m : Nat) :
    see φ (State.setMode s m) = see φ s := by
  unfold State.setMode
  (repeat' split) <;> simp (disch := exact hb.mono rfl)

@[simp ↓] theorem State.degrade_see {γ : Type} (φ : State → γ) (hb : Blind φ [.fresh, .dict, .errName, .out, .lattice, .cxl, .cont]) (s : State) (l : List (Nat × Nat)) :
    see φ (State.degrade s l) = see φ s := by
  unfold State.degrade
  (repeat' split) <;> simp (disch := exact hb.mono rfl)

@[simp ↓] theorem State.partFault_see {γ : Type} (φ : State → γ) (hb : Blind φ [.fresh, .dict, .errName, .out, .lattice, .cxl, .cont]) (s : State) (kind n : Nat) :
    see φ (State.partFault s kind n) = see φ s := by
  unfold State.partFault
  (repeat' split) <;> simp (disch := exact hb.mono rfl)

@[simp ↓] theorem State.partBack_see {γ : Type} (φ : State → γ) (hb : Blind φ [.fresh, .dict, .errName, .out, .lattice, .cxl, .cont]) (s : State) (kind n : Nat) :
    see φ (State.partBack s kind n) = see φ s := by
  unfold State.partBack
  (repeat' split) <;> simp (disch := exact hb.mono rfl)

end Sys2Proof.Machine
end

