-- ==== Sys2Proof/Laws/Access.lean ====
section
/-! SUPPORT. What each operation of Machine/Access.lean leaves alone, and that each of its commands goes on. -/

set_option maxRecDepth 4000
set_option linter.unusedSimpArgs false

namespace Sys2Proof.Machine

open Sys2Proof

@[simp ↓] theorem State.epochLate_see {γ : Type} (φ : State → γ) (hb : Blind φ [.fresh, .dict, .errName, .out, .lattice, .cxl]) (s : State) (g : Nat) :
    see φ (State.epochLate s g) = see φ s := by
  unfold State.epochLate
  (repeat' split) <;> simp (disch := exact hb.mono rfl)

@[simp ↓] theorem State.declareOwn_see {γ : Type} (φ : State → γ) (hb : Blind φ [.dict]) (s : State) (g : Nat) :
    see φ (State.declareOwn s g) = see φ s := by
  unfold State.declareOwn
  (repeat' split) <;> simp (disch := exact hb.mono rfl)

@[simp ↓] theorem State.declareAt_see {γ : Type} (φ : State → γ) (hb : Blind φ [.fresh, .dict, .errName, .out, .lattice, .cxl]) (s : State) (g l : Nat) :
    see φ (State.declareAt s g l).1 = see φ s := by
  unfold State.declareAt
  (repeat' split) <;> simp (disch := exact hb.mono rfl)

@[simp ↓] theorem State.noteWrite_see {γ : Type} (φ : State → γ) (hb : Blind φ [.cal]) (s : State) (o : ObjRow) (b e : Nat) :
    see φ (State.noteWrite s o b e) = see φ s := by
  unfold State.noteWrite
  (repeat' split) <;> simp (disch := exact hb.mono rfl)

@[simp ↓] theorem State.unitSettle_see {γ : Type} (φ : State → γ) (hb : Blind φ [.dict]) (s : State) :
    see φ (State.unitSettle s) = see φ s := by
  unfold State.unitSettle
  (repeat' split) <;> simp (disch := exact hb.mono rfl) <;> (repeat rw [foldl_see]) <;> intros <;> (repeat' split) <;> simp (disch := exact hb.mono rfl)

@[simp ↓] theorem State.stageEpoch_see {γ : Type} (φ : State → γ) (hb : Blind φ [.dict, .epochs]) (s : State) (o : ObjRow) (b e : Nat) (v : Int) :
    see φ (State.stageEpoch s o b e v) = see φ s := by
  unfold State.stageEpoch
  (repeat' split) <;> simp (disch := exact hb.mono rfl) <;> (repeat rw [foldl_see]) <;> intros <;> (repeat' split) <;> simp (disch := exact hb.mono rfl)

@[simp ↓] theorem State.stageEpochBlob_see {γ : Type} (φ : State → γ) (hb : Blind φ [.dict, .epochs, .cal]) (s : State) (o : ObjRow) (b e : Nat) (v : List Byte) :
    see φ (State.stageEpochBlob s o b e v) = see φ s := by
  unfold State.stageEpochBlob
  (repeat' split) <;> simp (disch := exact hb.mono rfl) <;> (repeat rw [foldl_see]) <;> intros <;> (repeat' split) <;> simp (disch := exact hb.mono rfl)

@[simp ↓] theorem State.takeValue_see {γ : Type} (φ : State → γ) (hb : Blind φ [.dict, .epochs]) (s : State) (ep k : Nat) (v : Int) :
    see φ (State.takeValue s ep k v) = see φ s := by
  unfold State.takeValue
  (repeat' split) <;> simp (disch := exact hb.mono rfl)

@[simp ↓] theorem State.takeBlob_see {γ : Type} (φ : State → γ) (hb : Blind φ [.blobs, .epochs]) (s : State) (ep k : Nat) (v : List Byte) :
    see φ (State.takeBlob s ep k v) = see φ s := by
  unfold State.takeBlob
  (repeat' split) <;> simp (disch := exact hb.mono rfl)

@[simp ↓] theorem State.takeStaged_see {γ : Type} (φ : State → γ) (hb : Blind φ [.dict, .blobs, .epochs]) (s : State) (g ep : Nat) :
    see φ (State.takeStaged s g ep) = see φ s := by
  unfold State.takeStaged
  (repeat' split) <;> simp (disch := exact hb.mono rfl) <;> (repeat rw [foldl_see]) <;> intros <;> (repeat' split) <;> simp (disch := exact hb.mono rfl)

@[simp ↓] theorem State.stage_see {γ : Type} (φ : State → γ) (hb : Blind φ [.staged]) (s : State) (o : ObjRow) (b e : Nat) (v : Int) :
    see φ (State.stage s o b e v) = see φ s := by
  unfold State.stage
  (repeat' split) <;> simp (disch := exact hb.mono rfl)

@[simp ↓] theorem State.stageBlob_see {γ : Type} (φ : State → γ) (hb : Blind φ [.stagedBlobs, .cal]) (s : State) (o : ObjRow) (b e : Nat) (v : List Byte) :
    see φ (State.stageBlob s o b e v) = see φ s := by
  unfold State.stageBlob
  (repeat' split) <;> simp (disch := exact hb.mono rfl)

@[simp ↓] theorem State.preopLive_see {γ : Type} (φ : State → γ) (hb : Blind φ [.dict, .blobs, .staged, .stagedBlobs]) (s : State) :
    see φ (State.preopLive s) = see φ s := by
  unfold State.preopLive
  (repeat' split) <;> simp (disch := exact hb.mono rfl) <;> (repeat rw [foldl_see]) <;> intros <;> (repeat' split) <;> simp (disch := exact hb.mono rfl)

@[simp ↓] theorem State.applyWrite_see {γ : Type} (φ : State → γ) (hb : Blind φ [.dict, .blobs, .staged, .stagedBlobs, .epochs, .cal]) (s : State) (o : ObjRow) (b e : Nat) (bs : List Byte) :
    see φ (State.applyWrite s o b e bs) = see φ s := by
  unfold State.applyWrite
  (repeat' split) <;> simp (disch := exact hb.mono rfl)

@[simp ↓] theorem State.touch_see {γ : Type} (φ : State → γ) (hb : Blind φ [.access]) (s : State) (p : Path) :
    see φ (State.touch s p) = see φ s := by
  unfold State.touch
  (repeat' split) <;> simp (disch := exact hb.mono rfl)

@[simp ↓] theorem State.answer_see {γ : Type} (φ : State → γ) (hb : Blind φ [.out]) (s : State) (p : Path) (k r : Nat) :
    see φ (State.answer s p k r) = see φ s := by
  unfold State.answer
  (repeat' split) <;> simp (disch := exact hb.mono rfl)

@[simp ↓] theorem State.newNonce_see {γ : Type} (φ : State → γ) (hb : Blind φ [.blobs, .draws, .access]) (s : State) :
    see φ (State.newNonce s) = see φ s := by
  have h : ∀ (l : List Nat) (p : List Byte × State),
      see φ (l.foldl (fun (p : List Byte × State) _ => (p.1 ++ [p.2.free % 256], p.2.drawn)) p).2 = see φ p.2 := by
    intro l
    induction l with
    | nil => intro p; rfl
    | cons x r ih => intro p; simp (disch := exact hb.mono rfl) [ih]
  unfold State.newNonce
  simp (disch := exact hb.mono rfl) [h]

@[simp ↓] theorem State.dictWrite_see {γ : Type} (φ : State → γ) (hb : Blind φ [.dict, .blobs, .staged, .stagedBlobs, .epochs, .out, .access, .cal]) (s : State) (p : Path) (o : ObjRow) (b e : Nat) (bs : List Byte) :
    see φ (State.dictWrite s p o b e bs) = see φ s := by
  unfold State.dictWrite
  simp only []
  (repeat' split) <;> simp (disch := exact hb.mono rfl) <;> (repeat' split) <;> simp (disch := exact hb.mono rfl)

end Sys2Proof.Machine
end

