-- ==== Sys2Proof/Laws/Requests.lean ====
section
/-! SUPPORT. What each operation of Machine/Requests.lean leaves alone, and that each of its commands goes on. -/

set_option maxRecDepth 4000
set_option linter.unusedSimpArgs false

namespace Sys2Proof.Machine

open Sys2Proof

@[simp ↓] theorem State.setQueue_see {γ : Type} (φ : State → γ) (hb : Blind φ [.dict, .cal]) (s : State) (q : List CalRequest) :
    see φ (State.setQueue s q) = see φ s := by
  unfold State.setQueue
  (repeat' split) <;> simp (disch := exact hb.mono rfl)

@[simp ↓] theorem State.calLast_see {γ : Type} (φ : State → γ) (hb : Blind φ [.dict]) (s : State) (task target cause : Nat) (marked : Option (Nat × Nat × Nat)) :
    see φ (State.calLast s task target cause marked) = see φ s := by
  unfold State.calLast
  (repeat' split) <;> simp (disch := exact hb.mono rfl)

@[simp ↓] theorem State.calReject_see {γ : Type} (φ : State → γ) (hb : Blind φ [.fresh, .dict, .errName, .out, .lattice, .cxl]) (s : State) (task target cause : Nat) (marked : Option (Nat × Nat × Nat)) :
    see φ (State.calReject s task target cause marked) = see φ s := by
  unfold State.calReject
  (repeat' split) <;> simp (disch := exact hb.mono rfl)

@[simp ↓] theorem State.calAccept_see {γ : Type} (φ : State → γ) (hb : Blind φ [.fresh, .dict]) (s : State) (task target : Nat) (marked : Option (Nat × Nat × Nat)) :
    see φ (State.calAccept s task target marked) = see φ s := by
  unfold State.calAccept
  (repeat' split) <;> simp (disch := exact hb.mono rfl)

@[simp ↓] theorem State.calDone_see {γ : Type} (φ : State → γ) (hb : Blind φ [.dict, .cal]) (s : State) (task x : Nat) :
    see φ (State.calDone s task x) = see φ s := by
  unfold State.calDone
  (repeat' split) <;> simp (disch := exact hb.mono rfl)

@[simp ↓] theorem State.calWatch_see {γ : Type} (φ : State → γ) (hb : Blind φ [.cal]) (s : State) (k : Nat) :
    see φ (State.calWatch s k) = see φ s := by
  unfold State.calWatch
  (repeat' split) <;> simp (disch := exact hb.mono rfl)

theorem State.calEnqueue_see {γ : Type} (φ : State → γ) (hb : Blind φ [.dict, .cal]) (s t : State) (r : CalRequest)
    (h : s.calEnqueue r = some t) : see φ t = see φ s := by
  unfold State.calEnqueue at h
  split at h
  · cases h; simp (disch := exact hb.mono rfl)
  · split at h
    · cases h
    · cases h; simp (disch := exact hb.mono rfl)

@[simp ↓] theorem State.calMark_see {γ : Type} (φ : State → γ) (hb : Blind φ [.fresh, .dict, .cal]) (s : State) (task target first last p : Nat) :
    see φ (State.calMark s task target first last p) = see φ s := by
  unfold State.calMark
  (repeat' split) <;> simp (disch := exact hb.mono rfl)

end Sys2Proof.Machine
end

