-- ==== Sys2Proof/Laws/Time.lean ====
section
/-! SUPPORT. What each operation of Machine/Time.lean leaves alone, and that each of its commands goes on. -/

set_option maxRecDepth 4000
set_option linter.unusedSimpArgs false

namespace Sys2Proof.Machine

open Sys2Proof

@[simp ↓] theorem State.setQe_see {γ : Type} (φ : State → γ) (hb : Blind φ [.tim]) (s : State) (q : Nat) (v : QePort) :
    see φ (State.setQe s q v) = see φ s := by
  unfold State.setQe
  (repeat' split) <;> simp (disch := exact hb.mono rfl)

@[simp ↓] theorem State.setSp_see {γ : Type} (φ : State → γ) (hb : Blind φ [.tim]) (s : State) (n : Nat) (v : SpPort) :
    see φ (State.setSp s n v) = see φ s := by
  unfold State.setSp
  (repeat' split) <;> simp (disch := exact hb.mono rfl)

@[simp ↓] theorem State.qeStandstill_see {γ : Type} (φ : State → γ) (hb : Blind φ [.dict, .tim]) (s : State) (q : Nat) :
    see φ (State.qeStandstill s q) = see φ s := by
  unfold State.qeStandstill
  (repeat' split) <;> simp (disch := exact hb.mono rfl)

@[simp ↓] theorem State.qeCount_see {γ : Type} (φ : State → γ) (hb : Blind φ [.dict, .tim]) (s : State) (q : Nat) (d : Int) (t : Nat) :
    see φ (State.qeCount s q d t) = see φ s := by
  unfold State.qeCount
  (repeat' split) <;> simp (disch := exact hb.mono rfl)

theorem execQeStandstillTimeout_next (t : Nat) (q : Fin 4) (s : State) :
    ∃ u, (execQeStandstillTimeout t q s) = .next u ∧ ∀ {γ : Type} (φ : State → γ), Blind φ [.dict, .tim] → see φ u = see φ (State.at s t) := by
  unfold execQeStandstillTimeout
  simp only []
  (repeat' split) <;> exact ⟨_, rfl, fun φ hb => by simp (disch := exact hb.mono rfl)⟩

theorem execQeIndex_next (t : QeSample) (q : Fin 4) (s : State) :
    ∃ u, (execQeIndex t q s) = .next u ∧ ∀ {γ : Type} (φ : State → γ), Blind φ [.fresh, .dict, .errName, .out, .lattice, .cxl, .tim] → see φ u = see φ (State.at s t.time) := by
  unfold execQeIndex
  simp only []
  (repeat' split) <;> exact ⟨_, rfl, fun φ hb => by simp (disch := exact hb.mono rfl)⟩

theorem execSpWordStart_next (t : Nat) (n : Fin 4) (s : State) :
    ∃ u, (execSpWordStart t n s) = .next u ∧ ∀ {γ : Type} (φ : State → γ), Blind φ [.out, .tim] → see φ u = see φ (State.at s t) := by
  unfold execSpWordStart
  simp only []
  (repeat' split) <;> exact ⟨_, rfl, fun φ hb => by simp (disch := exact hb.mono rfl)⟩

@[simp ↓] theorem State.spBad_see {γ : Type} (φ : State → γ) (hb : Blind φ [.fresh, .dict, .errName, .out, .lattice, .cxl, .tim]) (s : State) (n : Nat) :
    see φ (State.spBad s n) = see φ s := by
  unfold State.spBad
  (repeat' split) <;> simp (disch := exact hb.mono rfl)

@[simp ↓] theorem State.spTake_see {γ : Type} (φ : State → γ) (hb : Blind φ [.fresh, .dict, .errName, .out, .lattice, .cxl, .tim]) (s : State) (n word startTime : Nat) :
    see φ (State.spTake s n word startTime) = see φ s := by
  unfold State.spTake
  (repeat' split) <;> simp (disch := exact hb.mono rfl)

theorem execSpWord_next (t : Nat) (n : Fin 4) (word startTime : Nat) (s : State) :
    ∃ u, (execSpWord t n word startTime s) = .next u ∧ ∀ {γ : Type} (φ : State → γ), Blind φ [.fresh, .dict, .errName, .out, .lattice, .cxl, .tim] → see φ u = see φ (State.at s t) := by
  unfold execSpWord
  simp only []
  (repeat' split) <;> exact ⟨_, rfl, fun φ hb => by simp (disch := exact hb.mono rfl)⟩

theorem execSpTimeout_next (t : Nat) (n : Fin 4) (s : State) :
    ∃ u, (execSpTimeout t n s) = .next u ∧ ∀ {γ : Type} (φ : State → γ), Blind φ [.fresh, .dict, .errName, .out, .lattice, .cxl, .tim] → see φ u = see φ (State.at s t) := by
  unfold execSpTimeout
  simp only []
  (repeat' split) <;> exact ⟨_, rfl, fun φ hb => by simp (disch := exact hb.mono rfl)⟩

theorem execSpEnableWrite_next (t : Nat) (path : Path) (n : Fin 4) (clock : Bool) (value : List Byte) (s : State) :
    ∃ u, (execSpEnableWrite t path n clock value s) = .next u ∧ ∀ {γ : Type} (φ : State → γ), Blind φ [.dict, .blobs, .staged, .stagedBlobs, .epochs, .out, .access, .cal] → see φ u = see φ (State.at s t) := by
  unfold execSpEnableWrite
  exact ⟨_, rfl, fun φ hb => by simp (disch := exact hb.mono rfl)⟩

@[simp ↓] theorem State.setTg_see {γ : Type} (φ : State → γ) (hb : Blind φ [.tim]) (s : State) (g : Nat) (v : TgGroup) :
    see φ (State.setTg s g v) = see φ s := by
  unfold State.setTg
  (repeat' split) <;> simp (disch := exact hb.mono rfl)

@[simp ↓] theorem State.writeTrigger_see {γ : Type} (φ : State → γ) (hb : Blind φ [.dict, .blobs, .staged, .stagedBlobs, .epochs, .out, .access, .cal]) (s : State) (path : Path) (o : ObjRow) (p : Nat) (value : List Byte) :
    see φ (State.writeTrigger s path o p value) = see φ s := by
  unfold State.writeTrigger
  (try simp only [])
  repeat' first | with_reducible rfl | split | (rw [foldl_see]) | (rw [foldl_fst_see]) | intro _ | simp (disch := exact hb.mono rfl)

theorem execTgPeriodWrite_next (t : Nat) (path : Path) (p : Fin 12) (value : List Byte) (s : State) :
    ∃ u, (execTgPeriodWrite t path p value s) = .next u ∧ ∀ {γ : Type} (φ : State → γ), Blind φ [.dict, .blobs, .staged, .stagedBlobs, .epochs, .out, .access, .cal] → see φ u = see φ (State.at s t) := by
  unfold execTgPeriodWrite
  exact ⟨_, rfl, fun φ hb => by simp (disch := exact hb.mono rfl)⟩

theorem execTgDividerWrite_next (t : Nat) (path : Path) (p : Fin 12) (value : List Byte) (s : State) :
    ∃ u, (execTgDividerWrite t path p value s) = .next u ∧ ∀ {γ : Type} (φ : State → γ), Blind φ [.dict, .blobs, .staged, .stagedBlobs, .epochs, .out, .access, .cal] → see φ u = see φ (State.at s t) := by
  unfold execTgDividerWrite
  exact ⟨_, rfl, fun φ hb => by simp (disch := exact hb.mono rfl)⟩

end Sys2Proof.Machine
end

