-- ==== Sys2Proof/Laws/Camera.lean ====
section
/-! SUPPORT. What each operation of Machine/Camera.lean leaves alone, and that each of its commands goes on. -/

set_option maxRecDepth 4000
set_option linter.unusedSimpArgs false

namespace Sys2Proof.Machine

open Sys2Proof

@[simp ↓] theorem State.setCam_see {γ : Type} (φ : State → γ) (hb : Blind φ [.cams]) (s : State) (p : Nat) (v : CamPort) :
    see φ (State.setCam s p v) = see φ s := by
  unfold State.setCam
  (repeat' split) <;> simp (disch := exact hb.mono rfl)

@[simp ↓] theorem State.camBit_see {γ : Type} (φ : State → γ) (hb : Blind φ [.dict]) (s : State) (p i : Nat) (v : Bool) :
    see φ (State.camBit s p i v) = see φ s := by
  unfold State.camBit
  (repeat' split) <;> simp (disch := exact hb.mono rfl)

@[simp ↓] theorem State.pipeSkew_see {γ : Type} (φ : State → γ) (hb : Blind φ [.rc, .rg]) (s : State) (p ep : Nat) :
    see φ (State.pipeSkew s p ep) = see φ s := by
  unfold State.pipeSkew
  (repeat' split) <;> simp (disch := exact hb.mono rfl)

@[simp ↓] theorem State.replaySkew_see {γ : Type} (φ : State → γ) (hb : Blind φ [.cams]) (s : State) (p ep : Nat) :
    see φ (State.replaySkew s p ep) = see φ s := by
  unfold State.replaySkew
  (repeat' split) <;> simp (disch := exact hb.mono rfl)

@[simp ↓] theorem State.epochSkew_see {γ : Type} (φ : State → γ) (hb : Blind φ [.fresh, .dict, .errName, .out, .lattice, .cxl, .cams, .rc, .rg]) (s : State) (p ep : Nat) :
    see φ (State.epochSkew s p ep) = see φ s := by
  unfold State.epochSkew
  (repeat' split) <;> simp (disch := exact hb.mono rfl)

@[simp ↓] theorem State.discover_see {γ : Type} (φ : State → γ) (hb : Blind φ [.dict, .out]) (s : State) (p : Nat) :
    see φ (State.discover s p) = see φ s := by
  unfold State.discover
  (repeat' split) <;> simp (disch := exact hb.mono rfl)

@[simp ↓] theorem State.camRelink_see {γ : Type} (φ : State → γ) (hb : Blind φ [.dict, .cams]) (s : State) (p : Nat) :
    see φ (State.camRelink s p) = see φ s := by
  unfold State.camRelink
  (repeat' split) <;> simp (disch := exact hb.mono rfl)

@[simp ↓] theorem State.camForget_see {γ : Type} (φ : State → γ) (hb : Blind φ [.fresh, .dict, .errName, .out, .lattice, .cxl, .cams, .rc, .rg]) (s : State) (p : Nat) :
    see φ (State.camForget s p) = see φ s := by
  unfold State.camForget
  (repeat' split) <;> simp (disch := exact hb.mono rfl) <;> (repeat rw [foldl_see]) <;> intros <;> (repeat' split) <;> simp (disch := exact hb.mono rfl)

@[simp ↓] theorem State.camDrop_see {γ : Type} (φ : State → γ) (hb : Blind φ [.fresh, .dict, .errName, .out, .lattice, .cxl, .cams, .rc, .rg]) (s : State) (p : Nat) :
    see φ (State.camDrop s p) = see φ s := by
  unfold State.camDrop
  (repeat' split) <;> simp (disch := exact hb.mono rfl)

@[simp ↓] theorem State.camUplinkStop_see {γ : Type} (φ : State → γ) (hb : Blind φ [.cams]) (s : State) (p : Nat) :
    see φ (State.camUplinkStop s p) = see φ s := by
  unfold State.camUplinkStop
  (repeat' split) <;> simp (disch := exact hb.mono rfl)

@[simp ↓] theorem State.camLinkDown_see {γ : Type} (φ : State → γ) (hb : Blind φ [.fresh, .dict, .errName, .out, .lattice, .cxl, .cams, .rc, .rg, .cont]) (s : State) (p : Nat) :
    see φ (State.camLinkDown s p) = see φ s := by
  unfold State.camLinkDown
  (repeat' split) <;> simp (disch := exact hb.mono rfl)

theorem execCamEnableWrite_next (t : Nat) (path : Path) (p : Fin 12) (value : List Byte) (s : State) :
    ∃ u, (execCamEnableWrite t path p value s) = .next u ∧ ∀ {γ : Type} (φ : State → γ), Blind φ [.fresh, .dict, .blobs, .staged, .stagedBlobs, .epochs, .errName, .out, .lattice, .cxl, .access, .cams, .rc, .rg, .cal] → see φ u = see φ (State.at s t) := by
  unfold execCamEnableWrite
  simp only []
  (repeat' split) <;> exact ⟨_, rfl, fun φ hb => by simp (disch := exact hb.mono rfl)⟩

@[simp ↓] theorem State.camLinkWrite_see {γ : Type} (φ : State → γ) (hb : Blind φ [.fresh, .dict, .blobs, .staged, .stagedBlobs, .epochs, .errName, .out, .lattice, .cxl, .access, .cams, .rc, .rg, .cal]) (s : State) (path : Path) (o : ObjRow) (p : Nat) (value : List Byte) :
    see φ (State.camLinkWrite s path o p value) = see φ s := by
  unfold State.camLinkWrite
  (repeat' split) <;> simp (disch := exact hb.mono rfl)

theorem execCamLanesWrite_next (t : Nat) (path : Path) (p : Fin 12) (value : List Byte) (s : State) :
    ∃ u, (execCamLanesWrite t path p value s) = .next u ∧ ∀ {γ : Type} (φ : State → γ), Blind φ [.fresh, .dict, .blobs, .staged, .stagedBlobs, .epochs, .errName, .out, .lattice, .cxl, .access, .cams, .rc, .rg, .cal] → see φ u = see φ (State.at s t) := by
  unfold execCamLanesWrite
  exact ⟨_, rfl, fun φ hb => by simp (disch := exact hb.mono rfl)⟩

theorem execCamRateWrite_next (t : Nat) (path : Path) (p : Fin 12) (value : List Byte) (s : State) :
    ∃ u, (execCamRateWrite t path p value s) = .next u ∧ ∀ {γ : Type} (φ : State → γ), Blind φ [.fresh, .dict, .blobs, .staged, .stagedBlobs, .epochs, .errName, .out, .lattice, .cxl, .access, .cams, .rc, .rg, .cal] → see φ u = see φ (State.at s t) := by
  unfold execCamRateWrite
  exact ⟨_, rfl, fun φ hb => by simp (disch := exact hb.mono rfl)⟩

@[simp ↓] theorem State.camLinkUp_see {γ : Type} (φ : State → γ) (hb : Blind φ [.fresh, .dict, .blobs, .errName, .out, .lattice, .cxl, .cams, .cont]) (s : State) (p : Nat) (d : Discovery) :
    see φ (State.camLinkUp s p d) = see φ s := by
  unfold State.camLinkUp
  (repeat' split) <;> simp (disch := exact hb.mono rfl)

theorem execDiscoveryDone_next (t : Nat) (p : Fin 12) (found : Discovery) (s : State) :
    ∃ u, (execDiscoveryDone t p found s) = .next u ∧ ∀ {γ : Type} (φ : State → γ), Blind φ [.fresh, .dict, .blobs, .errName, .out, .lattice, .cxl, .cams, .cont] → see φ u = see φ (State.at s t) := by
  unfold execDiscoveryDone
  simp only []
  (repeat' split) <;> exact ⟨_, rfl, fun φ hb => by simp (disch := exact hb.mono rfl)⟩

theorem execDiscoveryRetry_next (t : Nat) (p : Fin 12) (s : State) :
    ∃ u, (execDiscoveryRetry t p s) = .next u ∧ ∀ {γ : Type} (φ : State → γ), Blind φ [.dict, .out] → see φ u = see φ (State.at s t) := by
  unfold execDiscoveryRetry
  simp only []
  (repeat' split) <;> exact ⟨_, rfl, fun φ hb => by simp (disch := exact hb.mono rfl)⟩

theorem execLinkRetry_next (t : Nat) (p : Fin 12) (s : State) :
    ∃ u, (execLinkRetry t p s) = .next u ∧ ∀ {γ : Type} (φ : State → γ), Blind φ [.dict, .out] → see φ u = see φ (State.at s t) := by
  unfold execLinkRetry
  simp only []
  (repeat' split) <;> exact ⟨_, rfl, fun φ hb => by simp (disch := exact hb.mono rfl)⟩

theorem execCamHeartbeat_next (t : Nat) (p : Fin 12) (s : State) :
    ∃ u, (execCamHeartbeat t p s) = .next u ∧ ∀ {γ : Type} (φ : State → γ), Blind φ [.cams] → see φ u = see φ (State.at s t) := by
  unfold execCamHeartbeat
  simp only []
  (repeat' split) <;> exact ⟨_, rfl, fun φ hb => by simp (disch := exact hb.mono rfl)⟩

theorem execCamHbTimeout_next (t : Nat) (p : Fin 12) (s : State) :
    ∃ u, (execCamHbTimeout t p s) = .next u ∧ ∀ {γ : Type} (φ : State → γ), Blind φ [.fresh, .dict, .errName, .out, .lattice, .cxl, .cams, .rc, .rg, .cont] → see φ u = see φ (State.at s t) := by
  unfold execCamHbTimeout
  simp only []
  (repeat' split) <;> exact ⟨_, rfl, fun φ hb => by simp (disch := exact hb.mono rfl)⟩

theorem execLaneLockLoss_next (t : Nat) (p : Fin 12) (lane : Fin 4) (s : State) :
    ∃ u, (execLaneLockLoss t p lane s) = .next u ∧ ∀ {γ : Type} (φ : State → γ), Blind φ [.fresh, .dict, .errName, .out, .lattice, .cxl, .cams, .rc, .rg, .cont] → see φ u = see φ (State.at s t) := by
  unfold execLaneLockLoss
  simp only []
  (repeat' split) <;> exact ⟨_, rfl, fun φ hb => by simp (disch := exact hb.mono rfl)⟩

@[simp ↓] theorem State.winSend_see {γ : Type} (φ : State → γ) (hb : Blind φ [.out, .cams]) (s : State) (p : Nat) (x : WinCmd) :
    see φ (State.winSend s p x) = see φ s := by
  unfold State.winSend
  (repeat' split) <;> simp (disch := exact hb.mono rfl)

@[simp ↓] theorem State.winStart_see {γ : Type} (φ : State → γ) (hb : Blind φ [.out, .cams]) (s : State) (p : Nat) (x : WinCmd) :
    see φ (State.winStart s p x) = see φ s := by
  unfold State.winStart
  (repeat' split) <;> simp (disch := exact hb.mono rfl)

@[simp ↓] theorem State.camReg_see {γ : Type} (φ : State → γ) (hb : Blind φ [.dict, .out, .access, .cams]) (s : State) (path : Path) (p : Nat) (write : Bool) :
    see φ (State.camReg s path p write) = see φ s := by
  unfold State.camReg
  simp only []
  (repeat' split) <;> simp (disch := exact hb.mono rfl) <;> (repeat' split) <;> simp (disch := exact hb.mono rfl)

@[simp ↓] theorem State.sendWrite_see {γ : Type} (φ : State → γ) (hb : Blind φ [.out]) (s : State) (p : Nat) (w : CamWrite) :
    see φ (State.sendWrite s p w) = see φ s := by
  unfold State.sendWrite
  (repeat' split) <;> simp (disch := exact hb.mono rfl)

@[simp ↓] theorem State.winEnd_see {γ : Type} (φ : State → γ) (hb : Blind φ [.out, .cams]) (s : State) (p : Nat) :
    see φ (State.winEnd s p) = see φ s := by
  unfold State.winEnd
  simp only []
  (repeat' split) <;> simp (disch := exact hb.mono rfl) <;> (repeat' split) <;> simp (disch := exact hb.mono rfl)

theorem execCamRegRead_next (t : Nat) (path : Path) (p : Fin 12) (s : State) :
    ∃ u, (execCamRegRead t path p s) = .next u ∧ ∀ {γ : Type} (φ : State → γ), Blind φ [.dict, .out, .access, .cams] → see φ u = see φ (State.at s t) := by
  unfold execCamRegRead
  exact ⟨_, rfl, fun φ hb => by simp (disch := exact hb.mono rfl)⟩

theorem execCamRegWrite_next (t : Nat) (path : Path) (p : Fin 12) (s : State) :
    ∃ u, (execCamRegWrite t path p s) = .next u ∧ ∀ {γ : Type} (φ : State → γ), Blind φ [.dict, .out, .access, .cams] → see φ u = see φ (State.at s t) := by
  unfold execCamRegWrite
  exact ⟨_, rfl, fun φ hb => by simp (disch := exact hb.mono rfl)⟩

theorem execCamRegAbort_next (t : Nat) (path : Path) (p : Fin 12) (s : State) :
    ∃ u, (execCamRegAbort t path p s) = .next u ∧ ∀ {γ : Type} (φ : State → γ), Blind φ [.dict, .out, .access, .cams] → see φ u = see φ (State.at s t) := by
  unfold execCamRegAbort
  simp only []
  (repeat' split) <;> exact ⟨_, rfl, fun φ hb => by simp (disch := exact hb.mono rfl)⟩

theorem execCamRegComplete_next (t : Nat) (p : Fin 12) (code : Nat) (data : List Byte) (s : State) :
    ∃ u, (execCamRegComplete t p code data s) = .next u ∧ ∀ {γ : Type} (φ : State → γ), Blind φ [.dict, .blobs, .out, .cams] → see φ u = see φ (State.at s t) := by
  unfold execCamRegComplete
  simp only []
  (repeat' split) <;> exact ⟨_, rfl, fun φ hb => by simp (disch := exact hb.mono rfl)⟩

theorem execCamRegTimeout_next (t : Nat) (p : Fin 12) (s : State) :
    ∃ u, (execCamRegTimeout t p s) = .next u ∧ ∀ {γ : Type} (φ : State → γ), Blind φ [.dict, .out, .cams] → see φ u = see φ (State.at s t) := by
  unfold execCamRegTimeout
  simp only []
  (repeat' split) <;> exact ⟨_, rfl, fun φ hb => by simp (disch := exact hb.mono rfl)⟩

@[simp ↓] theorem State.pushWrite_see {γ : Type} (φ : State → γ) (hb : Blind φ [.fresh, .dict, .errName, .out, .lattice, .cxl, .cams, .rc, .rg]) (s : State) (p : Nat) (w : CamWrite) :
    see φ (State.pushWrite s p w) = see φ s := by
  unfold State.pushWrite
  (repeat' split) <;> simp (disch := exact hb.mono rfl)

@[simp ↓] theorem State.issueWrite_see {γ : Type} (φ : State → γ) (hb : Blind φ [.fresh, .dict, .errName, .out, .lattice, .cxl, .cams, .rc, .rg]) (s : State) (p : Nat) (w : CamWrite) (v : Int) :
    see φ (State.issueWrite s p w v) = see φ s := by
  unfold State.issueWrite
  (repeat' split) <;> simp (disch := exact hb.mono rfl)

@[simp ↓] theorem State.popWrite_see {γ : Type} (φ : State → γ) (hb : Blind φ [.out, .cams]) (s : State) (p : Nat) :
    see φ (State.popWrite s p) = see φ s := by
  unfold State.popWrite
  simp only []
  (repeat' split) <;> simp (disch := exact hb.mono rfl) <;> (repeat' split) <;> simp (disch := exact hb.mono rfl)

@[simp ↓] theorem State.relinkDone_see {γ : Type} (φ : State → γ) (hb : Blind φ [.cams]) (s : State) (p : Nat) (w : CamWrite) :
    see φ (State.relinkDone s p w) = see φ s := by
  unfold State.relinkDone
  (repeat' split) <;> simp (disch := exact hb.mono rfl)

theorem execCamAck_next (t : Nat) (p : Fin 12) (gain : Bool) (code : Nat) (s : State) :
    ∃ u, (execCamAck t p gain code s) = .next u ∧ ∀ {γ : Type} (φ : State → γ), Blind φ [.fresh, .dict, .errName, .out, .lattice, .cxl, .cams, .rc, .rg] → see φ u = see φ (State.at s t) := by
  unfold execCamAck
  simp only []
  (repeat' split) <;> exact ⟨_, rfl, fun φ hb => by simp (disch := exact hb.mono rfl)⟩

theorem execCamAckTimeout_next (t : Nat) (p : Fin 12) (gain readback : Bool) (s : State) :
    ∃ u, (execCamAckTimeout t p gain readback s) = .next u ∧ ∀ {γ : Type} (φ : State → γ), Blind φ [.fresh, .dict, .errName, .out, .lattice, .cxl, .cams, .rc, .rg] → see φ u = see φ (State.at s t) := by
  unfold execCamAckTimeout
  simp only []
  (repeat' split) <;> exact ⟨_, rfl, fun φ hb => by simp (disch := exact hb.mono rfl)⟩

theorem execSkewReadback_next (t : Nat) (p : Fin 12) (gain : Bool) (code value : Nat) (s : State) :
    ∃ u, (execSkewReadback t p gain code value s) = .next u ∧ ∀ {γ : Type} (φ : State → γ), Blind φ [.fresh, .dict, .errName, .out, .lattice, .cxl, .cams, .rc, .rg] → see φ u = see φ (State.at s t) := by
  unfold execSkewReadback
  simp only []
  (repeat' split) <;> exact ⟨_, rfl, fun φ hb => by simp (disch := exact hb.mono rfl)⟩

theorem execCamEventPacket_next (t : Nat) (p : Fin 12) (id : Nat) (data : List Byte) (s : State) :
    ∃ u, (execCamEventPacket t p id data s) = .next u ∧ ∀ {γ : Type} (φ : State → γ), Blind φ [.fresh, .dict, .blobs, .errName, .out, .lattice, .cxl, .cams, .rc, .rg] → see φ u = see φ (State.at s t) := by
  unfold execCamEventPacket
  simp only []
  (repeat' split) <;> exact ⟨_, rfl, fun φ hb => by simp (disch := exact hb.mono rfl)⟩

theorem execCamLinkReturn_next (t : Nat) (p : Fin 12) (s : State) :
    ∃ u, (execCamLinkReturn t p s) = .next u ∧ ∀ {γ : Type} (φ : State → γ), Blind φ [.fresh, .dict, .errName, .out, .lattice, .cxl, .cams, .rc, .rg] → see φ u = see φ (State.at s t) := by
  unfold execCamLinkReturn
  simp only []
  (repeat' split) <;> exact ⟨_, rfl, fun φ hb => by simp (disch := exact hb.mono rfl)⟩

@[simp ↓] theorem State.statSample_see {γ : Type} (φ : State → γ) (hb : Blind φ [.fresh, .dict, .cams]) (s : State) (p : Nat) (cur : Bool) (plane depth v : Nat) :
    see φ (State.statSample s p cur plane depth v) = see φ s := by
  unfold State.statSample
  (repeat' split) <;> simp (disch := exact hb.mono rfl)

@[simp ↓] theorem State.statRow_see {γ : Type} (φ : State → γ) (hb : Blind φ [.fresh, .dict, .cams]) (s : State) (p : Nat) (cur : Bool) (layout depth row : Nat) (span : Nat × Nat) (r : List Nat) :
    see φ (State.statRow s p cur layout depth row span r) = see φ s := by
  unfold State.statRow
  (repeat' split) <;> simp (disch := exact hb.mono rfl) <;> (repeat rw [foldl_see]) <;> intros <;> (repeat' split) <;> simp (disch := exact hb.mono rfl)

@[simp ↓] theorem State.statLine_see {γ : Type} (φ : State → γ) (hb : Blind φ [.fresh, .dict, .cams]) (s : State) (p : Nat) (l : CapLine) :
    see φ (State.statLine s p l) = see φ s := by
  unfold State.statLine
  (repeat' split) <;> simp (disch := exact hb.mono rfl) <;> (repeat rw [foldl_see]) <;> intros <;> (repeat' split) <;> simp (disch := exact hb.mono rfl)

@[simp ↓] theorem State.statFinal_see {γ : Type} (φ : State → γ) (hb : Blind φ [.fresh, .dict, .errName, .out, .lattice, .cxl]) (s : State) (p : Nat) :
    see φ (State.statFinal s p) = see φ s := by
  unfold State.statFinal
  (repeat' split) <;> simp (disch := exact hb.mono rfl)

@[simp ↓] theorem State.statSwitch_see {γ : Type} (φ : State → γ) (hb : Blind φ [.fresh, .dict, .errName, .out, .lattice, .cxl, .cams]) (s : State) (p ep first : Nat) :
    see φ (State.statSwitch s p ep first) = see φ s := by
  unfold State.statSwitch
  (repeat' split) <;> simp (disch := exact hb.mono rfl)

@[simp ↓] theorem State.lineCounts_see {γ : Type} (φ : State → γ) (hb : Blind φ [.fresh, .dict]) (s : State) (p flags : Nat) :
    see φ (State.lineCounts s p flags) = see φ s := by
  unfold State.lineCounts
  (repeat' split) <;> simp (disch := exact hb.mono rfl)

@[simp ↓] theorem State.capturePanic_see {γ : Type} (φ : State → γ) (hb : Blind φ [.fresh, .dict, .cams]) (s : State) (p : Nat) :
    see φ (State.capturePanic s p) = see φ s := by
  unfold State.capturePanic
  (repeat' split) <;> simp (disch := exact hb.mono rfl)

@[simp ↓] theorem State.closeSlot_see {γ : Type} (φ : State → γ) (hb : Blind φ [.fresh, .dict, .errName, .out, .lattice, .cxl, .cams]) (s : State) (p : Nat) (x : Slot) (lost : Option Nat) :
    see φ (State.closeSlot s p x lost) = see φ s := by
  unfold State.closeSlot
  (repeat' split) <;> simp (disch := exact hb.mono rfl)

@[simp ↓] theorem State.fillSlot_see {γ : Type} (φ : State → γ) (hb : Blind φ [.fresh, .dict, .errName, .out, .lattice, .cxl, .cams]) (s : State) (p : Nat) (x : Slot) (k : StreamPacket) :
    see φ (State.fillSlot s p x k) = see φ s := by
  unfold State.fillSlot
  (repeat' split) <;> simp (disch := exact hb.mono rfl)

@[simp ↓] theorem State.endCurrent_see {γ : Type} (φ : State → γ) (hb : Blind φ [.fresh, .dict, .errName, .out, .lattice, .cxl, .cams]) (s : State) (p st : Nat) :
    see φ (State.endCurrent s p st) = see φ s := by
  unfold State.endCurrent
  (repeat' split) <;> simp (disch := exact hb.mono rfl)

@[simp ↓] theorem State.setCurrent_see {γ : Type} (φ : State → γ) (hb : Blind φ [.cams]) (s : State) (p st : Nat) (n : Option Nat) :
    see φ (State.setCurrent s p st n) = see φ s := by
  unfold State.setCurrent
  (repeat' split) <;> simp (disch := exact hb.mono rfl)

@[simp ↓] theorem State.noCurrent_see {γ : Type} (φ : State → γ) (hb : Blind φ [.cams]) (s : State) (p : Nat) :
    see φ (State.noCurrent s p) = see φ s := by
  unfold State.noCurrent
  (repeat' split) <;> simp (disch := exact hb.mono rfl)

@[simp ↓] theorem State.lineExtra_see {γ : Type} (φ : State → γ) (hb : Blind φ [.fresh, .dict, .cams]) (s : State) (p st : Nat) :
    see φ (State.lineExtra s p st) = see φ s := by
  unfold State.lineExtra
  (repeat' split) <;> simp (disch := exact hb.mono rfl)

@[simp ↓] theorem State.lineStart_see {γ : Type} (φ : State → γ) (hb : Blind φ [.fresh, .dict, .errName, .out, .lattice, .cxl, .cams]) (s : State) (p : Nat) (k : StreamPacket) :
    see φ (State.lineStart s p k) = see φ s := by
  unfold State.lineStart
  simp only []
  (repeat' split) <;> simp (disch := exact hb.mono rfl) <;> (repeat' split) <;> simp (disch := exact hb.mono rfl)

@[simp ↓] theorem State.latePacket_see {γ : Type} (φ : State → γ) (hb : Blind φ [.fresh, .dict, .cams]) (s : State) (p n : Nat) :
    see φ (State.latePacket s p n) = see φ s := by
  unfold State.latePacket
  (repeat' split) <;> simp (disch := exact hb.mono rfl)

theorem execStreamPacket_next (t : Nat) (p : Fin 12) (packet : StreamPacket) (s : State) :
    ∃ u, (execStreamPacket t p packet s) = .next u ∧ ∀ {γ : Type} (φ : State → γ), Blind φ [.fresh, .dict, .errName, .out, .lattice, .cxl, .cams] → see φ u = see φ (State.at s t) := by
  unfold execStreamPacket
  simp only []
  (repeat' split) <;> exact ⟨_, rfl, fun φ hb => by simp (disch := exact hb.mono rfl)⟩

theorem execLineDeadline_next (t : Nat) (p : Fin 12) (line : Nat) (s : State) :
    ∃ u, (execLineDeadline t p line s) = .next u ∧ ∀ {γ : Type} (φ : State → γ), Blind φ [.fresh, .dict, .errName, .out, .lattice, .cxl, .cams] → see φ u = see φ (State.at s t) := by
  unfold execLineDeadline
  simp only []
  (repeat' split) <;> exact ⟨_, rfl, fun φ hb => by simp (disch := exact hb.mono rfl)⟩

@[simp ↓] theorem State.replayPanic_see {γ : Type} (φ : State → γ) (hb : Blind φ [.fresh, .dict, .cams]) (s : State) (p : Nat) (on : Bool) :
    see φ (State.replayPanic s p on) = see φ s := by
  unfold State.replayPanic
  (repeat' split) <;> simp (disch := exact hb.mono rfl)

@[simp ↓] theorem handOn_see {γ : Type} (φ : State → γ) (hb : Blind φ [.dict, .cams]) (fuel : Nat) (s : State) (p : Nat) :
    see φ (handOn fuel s p) = see φ s := by
  induction fuel generalizing s with
  | zero => rfl
  | succ f ih =>
    unfold handOn
    simp only []
    split
    · rfl
    · simp (disch := exact hb.mono rfl) [ih]

end Sys2Proof.Machine
end

