-- ==== Sys2Proof/Laws/RawCorrection.lean ====
section
/-! SUPPORT. What each operation of Machine/RawCorrection.lean leaves alone, and that each of its commands goes on. -/

set_option maxRecDepth 4000
set_option linter.unusedSimpArgs false

namespace Sys2Proof.Machine

open Sys2Proof

@[simp ↓] theorem State.setRcp_see {γ : Type} (φ : State → γ) (hb : Blind φ [.rc]) (s : State) (p : Nat) (v : RcPort) :
    see φ (State.setRcp s p v) = see φ s := by
  unfold State.setRcp
  (repeat' split) <;> simp (disch := exact hb.mono rfl)

@[simp ↓] theorem State.rcBit_see {γ : Type} (φ : State → γ) (hb : Blind φ [.dict]) (s : State) (p i : Nat) (v : Bool) :
    see φ (State.rcBit s p i v) = see φ s := by
  unfold State.rcBit
  (repeat' split) <;> simp (disch := exact hb.mono rfl)

theorem execDefectMapWrite_next (t : Nat) (path : Path) (p : Fin 12) (blob : List Byte) (s : State) :
    ∃ u, (execDefectMapWrite t path p blob s) = .next u ∧ ∀ {γ : Type} (φ : State → γ), Blind φ [.fresh, .dict, .epochs, .errName, .out, .lattice, .cxl, .access, .cal] → see φ u = see φ (State.at s t) := by
  unfold execDefectMapWrite
  simp only []
  (repeat' split) <;> exact ⟨_, rfl, fun φ hb => by simp (disch := exact hb.mono rfl)⟩

theorem execPlateRefWrite_next (t : Nat) (path : Path) (p : Fin 12) (blob : List Byte) (s : State) :
    ∃ u, (execPlateRefWrite t path p blob s) = .next u ∧ ∀ {γ : Type} (φ : State → γ), Blind φ [.dict, .epochs, .out, .access, .cal] → see φ u = see φ (State.at s t) := by
  unfold execPlateRefWrite
  simp only []
  (repeat' split) <;> exact ⟨_, rfl, fun φ hb => by simp (disch := exact hb.mono rfl)⟩

@[simp ↓] theorem State.blackPlane_see {γ : Type} (φ : State → γ) (hb : Blind φ [.fresh, .dict, .errName, .out, .lattice, .cxl, .rc]) (s : State) (l : CapLine) (map : List Nat) (plane : Nat) :
    see φ (State.blackPlane s l map plane).1 = see φ s := by
  unfold State.blackPlane
  (repeat' split) <;> simp (disch := exact hb.mono rfl)

@[simp ↓] theorem State.blackLine_see {γ : Type} (φ : State → γ) (hb : Blind φ [.fresh, .dict, .errName, .out, .lattice, .cxl, .rc]) (s : State) (l : CapLine) (map : List Nat) :
    see φ (State.blackLine s l map) = see φ s := by
  unfold State.blackLine
  (try simp only [])
  repeat' first | with_reducible rfl | split | (rw [foldl_see]) | (rw [foldl_fst_see]) | intro _ | simp (disch := exact hb.mono rfl)

@[simp ↓] theorem State.rcFirstValid_see {γ : Type} (φ : State → γ) (hb : Blind φ [.rc]) (s : State) (l : CapLine) (rows : List (List Px)) :
    see φ (State.rcFirstValid s l rows).1 = see φ s := by
  unfold State.rcFirstValid
  (repeat' split) <;> simp (disch := exact hb.mono rfl)

@[simp ↓] theorem State.onlinePublish_see {γ : Type} (φ : State → γ) (hb : Blind φ [.dict]) (s : State) (p : Nat) :
    see φ (State.onlinePublish s p) = see φ s := by
  unfold State.onlinePublish
  (repeat' split) <;> simp (disch := exact hb.mono rfl)

@[simp ↓] theorem State.rcChange_see {γ : Type} (φ : State → γ) (hb : Blind φ [.dict, .rc]) (s : State) (before : Option RcLine) (l : CapLine) (entering : Bool) :
    see φ (State.rcChange s before l entering) = see φ s := by
  unfold State.rcChange
  (repeat' split) <;> simp (disch := exact hb.mono rfl)

@[simp ↓] theorem State.rcEnter_see {γ : Type} (φ : State → γ) (hb : Blind φ [.fresh, .dict, .errName, .out, .lattice, .cxl, .rc]) (s : State) (l : CapLine) :
    see φ (State.rcEnter s l).1 = see φ s := by
  unfold State.rcEnter
  (repeat' split) <;> simp (disch := exact hb.mono rfl)

@[simp ↓] theorem State.onlineAdmit_see {γ : Type} (φ : State → γ) (hb : Blind φ [.fresh, .dict, .errName, .out, .lattice, .cxl, .rc]) (s : State) (l : CapLine) (map : List Nat) (obs : List (Site × Bool × Bool)) :
    see φ (State.onlineAdmit s l map obs) = see φ s := by
  unfold State.onlineAdmit
  (repeat' split) <;> simp (disch := exact hb.mono rfl) <;> (repeat rw [foldl_see]) <;> intros <;> (repeat' split) <;> simp (disch := exact hb.mono rfl)

@[simp ↓] theorem State.rcDrift_see {γ : Type} (φ : State → γ) (hb : Blind φ [.fresh, .dict, .errName, .out, .lattice, .cxl, .rc]) (s : State) (l : CapLine) (clipped : Nat) :
    see φ (State.rcDrift s l clipped) = see φ s := by
  unfold State.rcDrift
  (repeat' split) <;> simp (disch := exact hb.mono rfl)

@[simp ↓] theorem State.rcStale_see {γ : Type} (φ : State → γ) (hb : Blind φ [.fresh, .dict, .errName, .out, .lattice, .cxl]) (s : State) (l : CapLine) (aged fresh : Nat) :
    see φ (State.rcStale s l aged fresh) = see φ s := by
  unfold State.rcStale
  (repeat' split) <;> simp (disch := exact hb.mono rfl)

@[simp ↓] theorem State.rcPlateMean_see {γ : Type} (φ : State → γ) (hb : Blind φ [.dict]) (s : State) (p : Nat) :
    see φ (State.rcPlateMean s p) = see φ s := by
  unfold State.rcPlateMean
  (repeat' split) <;> simp (disch := exact hb.mono rfl) <;> (repeat rw [foldl_see]) <;> intros <;> (repeat' split) <;> simp (disch := exact hb.mono rfl)

@[simp ↓] theorem State.calLine_see {γ : Type} (φ : State → γ) (hb : Blind φ [.st]) (s : State) (p : Nat) (outs : List (List OutPx)) :
    see φ (State.calLine s p outs) = see φ s := by
  unfold State.calLine
  (repeat' split) <;> simp (disch := exact hb.mono rfl)

@[simp ↓] theorem State.rcComplete_see {γ : Type} (φ : State → γ) (hb : Blind φ [.fresh, .dict, .errName, .out, .lattice, .cxl, .rc, .st]) (s : State) (before : Option RcLine) (x : RcLine) (after : Option RcLine) :
    see φ (State.rcComplete s before x after) = see φ s := by
  unfold State.rcComplete
  (repeat' split) <;> simp (disch := exact hb.mono rfl)

@[simp ↓] theorem State.rcSnapshot_see {γ : Type} (φ : State → γ) (hb : Blind φ [.dict, .rc]) (s : State) (m : Nat) (next : CapLine) :
    see φ (State.rcSnapshot s m next) = see φ s := by
  unfold State.rcSnapshot
  (repeat' split) <;> simp (disch := exact hb.mono rfl)

@[simp ↓] theorem State.rcLine_see {γ : Type} (φ : State → γ) (hb : Blind φ [.fresh, .dict, .errName, .out, .lattice, .cxl, .rc, .st]) (s : State) (l : CapLine) :
    see φ (State.rcLine s l) = see φ s := by
  unfold State.rcLine
  simp only []
  (repeat' split) <;> simp (disch := exact hb.mono rfl) <;> (repeat' split) <;> simp (disch := exact hb.mono rfl)

@[simp ↓] theorem State.rcFlush_see {γ : Type} (φ : State → γ) (hb : Blind φ [.fresh, .dict, .errName, .out, .lattice, .cxl, .rc, .st]) (s : State) (p : Nat) :
    see φ (State.rcFlush s p) = see φ s := by
  unfold State.rcFlush
  simp only []
  (repeat' split) <;> simp (disch := exact hb.mono rfl) <;> (repeat' split) <;> simp (disch := exact hb.mono rfl)

@[simp ↓] theorem State.snapshotDrop_see {γ : Type} (φ : State → γ) (hb : Blind φ [.dict, .rc]) (s : State) (p i : Nat) :
    see φ (State.snapshotDrop s p i) = see φ s := by
  unfold State.snapshotDrop
  (repeat' split) <;> simp (disch := exact hb.mono rfl)

@[simp ↓] theorem State.rcStart_see {γ : Type} (φ : State → γ) (hb : Blind φ [.dict, .rc]) (s : State) (p n : Nat) :
    see φ (State.rcStart s p n) = see φ s := by
  unfold State.rcStart
  (repeat' split) <;> simp (disch := exact hb.mono rfl)

@[simp ↓] theorem State.rcArm_see {γ : Type} (φ : State → γ) (hb : Blind φ [.dict, .rc]) (s : State) (p : Nat) :
    see φ (State.rcArm s p) = see φ s := by
  unfold State.rcArm
  (repeat' split) <;> simp (disch := exact hb.mono rfl)

@[simp ↓] theorem State.rcEpoch_see {γ : Type} (φ : State → γ) (hb : Blind φ [.dict, .epochs, .rc]) (s : State) (p f : Nat) (exposed : Bool) (newMap mapStaged : Bool) :
    see φ (State.rcEpoch s p f exposed newMap mapStaged) = see φ s := by
  unfold State.rcEpoch
  (repeat' split) <;> simp (disch := exact hb.mono rfl)

end Sys2Proof.Machine
end

