-- ==== Sys2Proof/Laws/Registration.lean ====
section
/-! SUPPORT. What each operation of Machine/Registration.lean leaves alone, and that each of its commands goes on. -/

set_option maxRecDepth 4000
set_option linter.unusedSimpArgs false

namespace Sys2Proof.Machine

open Sys2Proof

@[simp ↓] theorem State.setRg_see {γ : Type} (φ : State → γ) (hb : Blind φ [.rg]) (s : State) (p : Nat) (v : RgPort) :
    see φ (State.setRg s p v) = see φ s := by
  unfold State.setRg
  (repeat' split) <;> simp (disch := exact hb.mono rfl)

@[simp ↓] theorem State.setVdg_see {γ : Type} (φ : State → γ) (hb : Blind φ [.vd]) (s : State) (g : Nat) (v : VdGroup) :
    see φ (State.setVdg s g v) = see φ s := by
  unfold State.setVdg
  (repeat' split) <;> simp (disch := exact hb.mono rfl)

@[simp ↓] theorem State.fallback_see {γ : Type} (φ : State → γ) (hb : Blind φ [.dict, .draws]) (s : State) (p ep f kp reason : Nat) :
    see φ (State.fallback s p ep f kp reason).1 = see φ s := by
  unfold State.fallback
  (repeat' split) <;> simp (disch := exact hb.mono rfl)

@[simp ↓] theorem State.objectResult_see {γ : Type} (φ : State → γ) (hb : Blind φ [.dict, .draws]) (s : State) (p ep n : Nat) :
    see φ (State.objectResult s p ep n).1 = see φ s := by
  unfold State.objectResult
  (repeat' split) <;> simp (disch := exact hb.mono rfl)

@[simp ↓] theorem State.measure_see {γ : Type} (φ : State → γ) (hb : Blind φ [.dict, .draws]) (s : State) (p : Nat) (t : Track) (kp : Nat) :
    see φ (State.measure s p t kp).1 = see φ s := by
  unfold State.measure
  (repeat' split) <;> simp (disch := exact hb.mono rfl)

@[simp ↓] theorem State.publishResult_see {γ : Type} (φ : State → γ) (hb : Blind φ [.dict]) (s : State) (p : Nat) (r : TrackResult) :
    see φ (State.publishResult s p r) = see φ s := by
  unfold State.publishResult
  (repeat' split) <;> simp (disch := exact hb.mono rfl)

@[simp ↓] theorem State.publishTracks_see {γ : Type} (φ : State → γ) (hb : Blind φ [.dict]) (s : State) (p : Nat) :
    see φ (State.publishTracks s p) = see φ s := by
  unfold State.publishTracks
  (repeat' split) <;> simp (disch := exact hb.mono rfl)

@[simp ↓] theorem State.openTrack_see {γ : Type} (φ : State → γ) (hb : Blind φ [.dict, .draws, .rg]) (s : State) (p : Nat) (cap : CapLine) (r : Run) :
    see φ (State.openTrack s p cap r) = see φ s := by
  unfold State.openTrack
  (repeat' split) <;> simp (disch := exact hb.mono rfl)

@[simp ↓] theorem State.trackLine_see {γ : Type} (φ : State → γ) (hb : Blind φ [.dict, .draws, .rg]) (s : State) (p : Nat) (cap : CapLine) (row : List OutPx) :
    see φ (State.trackLine s p cap row) = see φ s := by
  unfold State.trackLine
  (repeat' split) <;> simp (disch := exact hb.mono rfl) <;> (repeat rw [foldl_fst_see]) <;> intros <;> (repeat' split) <;> simp (disch := exact hb.mono rfl)

@[simp ↓] theorem State.decideTracks_see {γ : Type} (φ : State → γ) (hb : Blind φ [.dict, .draws, .rg]) (s : State) (p m : Nat) (final : Bool) :
    see φ (State.decideTracks s p m final) = see φ s := by
  unfold State.decideTracks
  (repeat' split) <;> simp (disch := exact hb.mono rfl) <;> (repeat rw [foldl_see]) <;> intros <;> (repeat' split) <;> simp (disch := exact hb.mono rfl)

@[simp ↓] theorem State.rgEnter_see {γ : Type} (φ : State → γ) (hb : Blind φ [.dict, .draws, .rg]) (s : State) (l : RegLine) :
    see φ (State.rgEnter s l) = see φ s := by
  unfold State.rgEnter
  (repeat' split) <;> simp (disch := exact hb.mono rfl)

@[simp ↓] theorem State.rgHistory_see {γ : Type} (φ : State → γ) (hb : Blind φ [.rg]) (s : State) (l : RegLine) :
    see φ (State.rgHistory s l) = see φ s := by
  unfold State.rgHistory
  (repeat' split) <;> simp (disch := exact hb.mono rfl)

@[simp ↓] theorem State.rgFlush_see {γ : Type} (φ : State → γ) (hb : Blind φ [.dict, .draws, .rg]) (s : State) (p : Nat) :
    see φ (State.rgFlush s p) = see φ s := by
  unfold State.rgFlush
  (repeat' split) <;> simp (disch := exact hb.mono rfl)

@[simp ↓] theorem State.dropTracks_see {γ : Type} (φ : State → γ) (hb : Blind φ [.dict, .rg]) (s : State) (p n : Nat) :
    see φ (State.dropTracks s p n) = see φ s := by
  unfold State.dropTracks
  (repeat' split) <;> simp (disch := exact hb.mono rfl)

@[simp ↓] theorem State.rgRelease_see {γ : Type} (φ : State → γ) (hb : Blind φ [.fresh, .dict, .rg]) (s : State) (p : Nat) :
    see φ (State.rgRelease s p).1 = see φ s := by
  unfold State.rgRelease
  (repeat' split) <;> simp (disch := exact hb.mono rfl)

@[simp ↓] theorem State.rgEpoch_see {γ : Type} (φ : State → γ) (hb : Blind φ [.fresh, .dict, .errName, .out, .lattice, .cxl]) (s : State) (p ep : Nat) :
    see φ (State.rgEpoch s p ep) = see φ s := by
  unfold State.rgEpoch
  (repeat' split) <;> simp (disch := exact hb.mono rfl)

@[simp ↓] theorem State.rgArm_see {γ : Type} (φ : State → γ) (hb : Blind φ [.dict, .rg]) (s : State) (p : Nat) :
    see φ (State.rgArm s p) = see φ s := by
  unfold State.rgArm
  (repeat' split) <;> simp (disch := exact hb.mono rfl)

end Sys2Proof.Machine
end

