-- ==== Sys2Proof/Laws/Atlas.lean ====
section
/-! SUPPORT. What each operation of Machine/Atlas.lean leaves alone, and that each of its commands goes on. -/

set_option maxRecDepth 4000
set_option linter.unusedSimpArgs false

namespace Sys2Proof.Machine

open Sys2Proof

@[simp ↓] theorem State.setAt_see {γ : Type} (φ : State → γ) (hb : Blind φ [.atl]) (s : State) (p : Nat) (v : AtPort) :
    see φ (State.setAt s p v) = see φ s := by
  unfold State.setAt
  (repeat' split) <;> simp (disch := exact hb.mono rfl)

@[simp ↓] theorem State.setAtPipe_see {γ : Type} (φ : State → γ) (hb : Blind φ [.apipes]) (s : State) (q : Nat) (v : AtlasPipe) :
    see φ (State.setAtPipe s q v) = see φ s := by
  unfold State.setAtPipe
  (repeat' split) <;> simp (disch := exact hb.mono rfl)

@[simp ↓] theorem State.atEach_see {γ : Type} (φ : State → γ) (hb : Blind φ [.apipes]) (s : State) (p : Nat) (f : AtlasPipe → AtlasPipe) :
    see φ (State.atEach s p f) = see φ s := by
  unfold State.atEach
  (try simp only [])
  repeat' first | with_reducible rfl | split | (rw [foldl_see]) | (rw [foldl_fst_see]) | intro _ | simp (disch := exact hb.mono rfl)

@[simp ↓] theorem State.atLoadPipe_see {γ : Type} (φ : State → γ) (hb : Blind φ [.apipes]) (s : State) (q p x : Nat) :
    see φ (State.atLoadPipe s q p x) = see φ s := by
  unfold State.atLoadPipe
  (repeat' split) <;> simp (disch := exact hb.mono rfl)

@[simp ↓] theorem State.imagesLost_see {γ : Type} (φ : State → γ) (hb : Blind φ [.atl]) (s : State) :
    see φ (State.imagesLost s) = see φ s := by
  unfold State.imagesLost
  (repeat' split) <;> simp (disch := exact hb.mono rfl) <;> (repeat rw [foldl_see]) <;> intros <;> (repeat' split) <;> simp (disch := exact hb.mono rfl)

@[simp ↓] theorem State.imagesRebuilt_see {γ : Type} (φ : State → γ) (hb : Blind φ [.atl]) (s : State) :
    see φ (State.imagesRebuilt s) = see φ s := by
  unfold State.imagesRebuilt
  (repeat' split) <;> simp (disch := exact hb.mono rfl) <;> (repeat rw [foldl_see]) <;> intros <;> (repeat' split) <;> simp (disch := exact hb.mono rfl)

@[simp ↓] theorem State.atPublish_see {γ : Type} (φ : State → γ) (hb : Blind φ [.dict, .blobs]) (s : State) (p : Nat) :
    see φ (State.atPublish s p) = see φ s := by
  unfold State.atPublish
  (repeat' split) <;> simp (disch := exact hb.mono rfl)

@[simp ↓] theorem State.atRefuse_see {γ : Type} (φ : State → γ) (hb : Blind φ [.fresh, .dict, .errName, .out, .lattice, .cxl]) (s : State) (p code : Nat) :
    see φ (State.atRefuse s p code) = see φ s := by
  unfold State.atRefuse
  (repeat' split) <;> simp (disch := exact hb.mono rfl)

@[simp ↓] theorem State.atArrive_see {γ : Type} (φ : State → γ) (hb : Blind φ [.fresh, .dict, .blobs, .errName, .out, .lattice, .cxl, .atl]) (s : State) (path : Path) (p k : Nat) (b : List Byte) (scratch : Bool) :
    see φ (State.atArrive s path p k b scratch) = see φ s := by
  unfold State.atArrive
  (repeat' split) <;> simp (disch := exact hb.mono rfl)

theorem execAtBlobWrite_next (t : Nat) (path : Path) (p : Fin 12) (blob : List Byte) (s : State) :
    ∃ u, (execAtBlobWrite t path p blob s) = .next u ∧ ∀ {γ : Type} (φ : State → γ), Blind φ [.fresh, .dict, .blobs, .errName, .out, .lattice, .cxl, .access, .atl] → see φ u = see φ (State.at s t) := by
  unfold execAtBlobWrite
  simp only []
  (repeat' split) <;> exact ⟨_, rfl, fun φ hb => by simp (disch := exact hb.mono rfl)⟩

theorem execAtLoad_next (t : Nat) (path : Path) (p : Fin 12) (s : State) :
    ∃ u, (execAtLoad t path p s) = .next u ∧ ∀ {γ : Type} (φ : State → γ), Blind φ [.fresh, .dict, .blobs, .errName, .out, .lattice, .cxl, .access, .atl] → see φ u = see φ (State.at s t) := by
  unfold execAtLoad
  simp only []
  (repeat' split) <;> exact ⟨_, rfl, fun φ hb => by simp (disch := exact hb.mono rfl)⟩

theorem execAtLoadCancel_next (t : Nat) (path : Path) (p : Fin 12) (s : State) :
    ∃ u, (execAtLoadCancel t path p s) = .next u ∧ ∀ {γ : Type} (φ : State → γ), Blind φ [.fresh, .dict, .blobs, .errName, .out, .lattice, .cxl, .access, .atl] → see φ u = see φ (State.at s t) := by
  unfold execAtLoadCancel
  simp only []
  (repeat' split) <;> exact ⟨_, rfl, fun φ hb => by simp (disch := exact hb.mono rfl)⟩

theorem execAtLoadDone_next (t : Nat) (p : Fin 12) (s : State) :
    ∃ u, (execAtLoadDone t p s) = .next u ∧ ∀ {γ : Type} (φ : State → γ), Blind φ [.fresh, .dict, .blobs, .epochs, .errName, .out, .lattice, .cxl, .atl, .apipes, .cal] → see φ u = see φ (State.at s t) := by
  unfold execAtLoadDone
  simp only []
  (repeat' split) <;> exact ⟨_, rfl, fun φ hb => by simp (disch := exact hb.mono rfl)⟩

@[simp ↓] theorem State.atSwap_see {γ : Type} (φ : State → γ) (hb : Blind φ [.dict, .blobs, .atl, .apipes]) (s : State) (p f : Nat) (prev : List Byte) :
    see φ (State.atSwap s p f prev) = see φ s := by
  unfold State.atSwap
  (repeat' split) <;> simp (disch := exact hb.mono rfl)

@[simp ↓] theorem State.atDefer_see {γ : Type} (φ : State → γ) (hb : Blind φ [.fresh, .dict, .epochs, .errName, .out, .lattice, .cxl]) (s : State) (ports : List Nat) :
    see φ (State.atDefer s ports).1 = see φ s := by
  unfold State.atDefer
  (repeat' split) <;> simp (disch := exact hb.mono rfl) <;> (repeat rw [foldl_fst_see]) <;> intros <;> (repeat' split) <;> simp (disch := exact hb.mono rfl)

@[simp ↓] theorem State.atRestage_see {γ : Type} (φ : State → γ) (hb : Blind φ [.epochs]) (s : State) (l : List (Nat × List Byte)) :
    see φ (State.atRestage s l) = see φ s := by
  unfold State.atRestage
  (repeat' split) <;> simp (disch := exact hb.mono rfl) <;> (repeat rw [foldl_see]) <;> intros <;> (repeat' split) <;> simp (disch := exact hb.mono rfl)

@[simp ↓] theorem State.atChecks_see {γ : Type} (φ : State → γ) (hb : Blind φ [.fresh, .dict, .errName, .out, .lattice, .cxl]) (s : State) (p tableCrc : Nat) :
    see φ (State.atChecks s p tableCrc) = see φ s := by
  unfold State.atChecks
  (repeat' split) <;> simp (disch := exact hb.mono rfl)

@[simp ↓] theorem State.atReload_see {γ : Type} (φ : State → γ) (hb : Blind φ [.apipes]) (s : State) (q : Nat) :
    see φ (State.atReload s q) = see φ s := by
  unfold State.atReload
  (repeat' split) <;> simp (disch := exact hb.mono rfl)

@[simp ↓] theorem State.atRelease_see {γ : Type} (φ : State → γ) (hb : Blind φ [.dict, .blobs, .atl]) (s : State) (p : Nat) :
    see φ (State.atRelease s p) = see φ s := by
  unfold State.atRelease
  (repeat' split) <;> simp (disch := exact hb.mono rfl)

theorem execAtlasHoldEnd_next (t : Nat) (p : Fin 12) (s : State) :
    ∃ u, (execAtlasHoldEnd t p s) = .next u ∧ ∀ {γ : Type} (φ : State → γ), Blind φ [.dict, .blobs, .atl] → see φ u = see φ (State.at s t) := by
  unfold execAtlasHoldEnd
  simp only []
  (repeat' split) <;> exact ⟨_, rfl, fun φ hb => by simp (disch := exact hb.mono rfl)⟩

@[simp ↓] theorem State.atUpset_see {γ : Type} (φ : State → γ) (hb : Blind φ [.fresh, .dict, .errName, .out, .draws, .lattice, .cxl]) (s : State) (p : Nat) (u : AtlasUpset) (c0 c1 : List Nat) :
    see φ (State.atUpset s p u c0 c1).1 = see φ s := by
  unfold State.atUpset
  (repeat' split) <;> simp (disch := exact hb.mono rfl)

@[simp ↓] theorem State.shadowFail_see {γ : Type} (φ : State → γ) (hb : Blind φ [.apipes]) (s : State) (q : Nat) :
    see φ (State.shadowFail s q) = see φ s := by
  unfold State.shadowFail
  (repeat' split) <;> simp (disch := exact hb.mono rfl)

@[simp ↓] theorem State.shadowUpset_see {γ : Type} (φ : State → γ) (hb : Blind φ [.fresh, .dict]) (s : State) (p : Nat) (u : AtlasUpset) :
    see φ (State.shadowUpset s p u) = see φ s := by
  unfold State.shadowUpset
  (repeat' split) <;> simp (disch := exact hb.mono rfl)

@[simp ↓] theorem State.scrubPass_see {γ : Type} (φ : State → γ) (hb : Blind φ [.fresh, .dict, .errName, .out, .draws, .lattice, .cxl, .apipes]) (s : State) (q : Nat) (upsets : List AtlasUpset) :
    see φ (State.scrubPass s q upsets).1 = see φ s := by
  unfold State.scrubPass
  (try simp only [])
  repeat' first | with_reducible rfl | split | (rw [foldl_see]) | (rw [foldl_fst_see]) | intro _ | simp (disch := exact hb.mono rfl)

theorem execAtlasShadowReload_next (t : Nat) (p : Fin 12) (done : Bool) (s : State) :
    ∃ u, (execAtlasShadowReload t p done s) = .next u ∧ ∀ {γ : Type} (φ : State → γ), Blind φ [.apipes] → see φ u = see φ (State.at s t) := by
  unfold execAtlasShadowReload
  simp only []
  (repeat' split) <;> exact ⟨_, rfl, fun φ hb => by simp (disch := exact hb.mono rfl)⟩

@[simp ↓] theorem State.atReach_see {γ : Type} (φ : State → γ) (hb : Blind φ [.apipes]) (s : State) (q p n : Nat) :
    see φ (State.atReach s q p n) = see φ s := by
  unfold State.atReach
  (repeat' split) <;> simp (disch := exact hb.mono rfl)

@[simp ↓] theorem State.classify_see {γ : Type} (φ : State → γ) (hb : Blind φ [.fresh, .dict, .errName, .out, .draws, .lattice, .cxl, .apipes]) (s : State) (l : RgLine) (upsets : List AtlasUpset) :
    see φ (State.classify s l upsets).1 = see φ s := by
  unfold State.classify
  (repeat' split) <;> simp (disch := exact hb.mono rfl) <;> (repeat rw [foldl_fst_see]) <;> intros <;> (repeat' split) <;> simp (disch := exact hb.mono rfl)

end Sys2Proof.Machine
end

