-- ==== Sys2Proof/Laws/Segment.lean ====
section
/-! SUPPORT. What each operation of Machine/Segment.lean leaves alone, and that each of its commands goes on. -/

set_option maxRecDepth 4000
set_option linter.unusedSimpArgs false

namespace Sys2Proof.Machine

open Sys2Proof

@[simp ↓] theorem State.setSg_see {γ : Type} (φ : State → γ) (hb : Blind φ [.sg]) (s : State) (p : Nat) (v : SgPort) :
    see φ (State.setSg s p v) = see φ s := by
  unfold State.setSg
  (repeat' split) <;> simp (disch := exact hb.mono rfl)

@[simp ↓] theorem State.modObj_see {γ : Type} (φ : State → γ) (hb : Blind φ [.sg]) (s : State) (p id : Nat) (f : SgObj → SgObj) :
    see φ (State.modObj s p id f) = see φ s := by
  unfold State.modObj
  (repeat' split) <;> simp (disch := exact hb.mono rfl)

@[simp ↓] theorem State.newObj_see {γ : Type} (φ : State → γ) (hb : Blind φ [.dict, .draws, .sg]) (s : State) (l : RgLine) (key : Option Nat) (r : Run) :
    see φ (State.newObj s l key r).1 = see φ s := by
  unfold State.newObj
  (repeat' split) <;> simp (disch := exact hb.mono rfl)

@[simp ↓] theorem State.splitObj_see {γ : Type} (φ : State → γ) (hb : Blind φ [.fresh, .dict, .sg]) (s : State) (l : RgLine) (o : SgObj) (r : Run) :
    see φ (State.splitObj s l o r).1 = see φ s := by
  unfold State.splitObj
  (repeat' split) <;> simp (disch := exact hb.mono rfl)

@[simp ↓] theorem State.mergeObj_see {γ : Type} (φ : State → γ) (hb : Blind φ [.fresh, .dict, .sg]) (s : State) (p : Nat) (v o : SgObj) :
    see φ (State.mergeObj s p v o) = see φ s := by
  unfold State.mergeObj
  (repeat' split) <;> simp (disch := exact hb.mono rfl)

@[simp ↓] theorem State.openObj_see {γ : Type} (φ : State → γ) (hb : Blind φ [.fresh, .dict, .errName, .out, .draws, .lattice, .cxl, .sg]) (s : State) (l : RgLine) (al : SgAlias) (key : Nat) (r : Run) :
    see φ (State.openObj s l al key r).1 = see φ s := by
  unfold State.openObj
  simp only []
  (repeat' split) <;> simp (disch := exact hb.mono rfl) <;> (repeat' split) <;> simp (disch := exact hb.mono rfl)

@[simp ↓] theorem State.addRun_see {γ : Type} (φ : State → γ) (hb : Blind φ [.sg]) (s : State) (l : RgLine) (id : Nat) (r : Run) (classes table : List Nat) :
    see φ (State.addRun s l id r classes table) = see φ s := by
  unfold State.addRun
  (repeat' split) <;> simp (disch := exact hb.mono rfl)

@[simp ↓] theorem State.segRun_see {γ : Type} (φ : State → γ) (hb : Blind φ [.fresh, .dict, .errName, .out, .draws, .lattice, .cxl, .sg]) (s : State) (l : RgLine) (start : List SgObj) (al : SgAlias) (r : Run) (key : Nat) (classes table : List Nat) :
    see φ (State.segRun s l start al r key classes table).1 = see φ s := by
  unfold State.segRun
  (try simp only [])
  repeat' first | with_reducible rfl | split | (rw [foldl_see]) | (rw [foldl_fst_see]) | intro _ | simp (disch := exact hb.mono rfl)

@[simp ↓] theorem State.addPerim_see {γ : Type} (φ : State → γ) (hb : Blind φ [.sg]) (s : State) (p id c : Nat) :
    see φ (State.addPerim s p id c) = see φ s := by
  unfold State.addPerim
  (repeat' split) <;> simp (disch := exact hb.mono rfl)

@[simp ↓] theorem State.addCut_see {γ : Type} (φ : State → γ) (hb : Blind φ [.sg]) (s : State) (p id c : Nat) :
    see φ (State.addCut s p id c) = see φ s := by
  unfold State.addCut
  (repeat' split) <;> simp (disch := exact hb.mono rfl)

@[simp ↓] theorem State.addSides_see {γ : Type} (φ : State → γ) (hb : Blind φ [.sg]) (s : State) (p id c width : Nat) :
    see φ (State.addSides s p id c width) = see φ s := by
  unfold State.addSides
  (repeat' split) <;> simp (disch := exact hb.mono rfl)

@[simp ↓] theorem State.segPend_see {γ : Type} (φ : State → γ) (hb : Blind φ [.sg]) (s : State) (p : Nat) (al : SgAlias) (own : List (Option Nat)) (inv : List Bool) :
    see φ (State.segPend s p al own inv) = see φ s := by
  unfold State.segPend
  (repeat' split) <;> simp (disch := exact hb.mono rfl) <;> (repeat rw [foldl_see]) <;> intros <;> (repeat' split) <;> simp (disch := exact hb.mono rfl)

@[simp ↓] theorem State.segEdges_see {γ : Type} (φ : State → γ) (hb : Blind φ [.sg]) (s : State) (p id c width : Nat) (inv before : List Bool) :
    see φ (State.segEdges s p id c width inv before).1 = see φ s := by
  unfold State.segEdges
  (repeat' split) <;> simp (disch := exact hb.mono rfl)

@[simp ↓] theorem State.segSite_see {γ : Type} (φ : State → γ) (hb : Blind φ [.sg]) (s : State) (p c width : Nat) (own prev : List (Option Nat)) (inv before : List Bool) :
    see φ (State.segSite s p c width own prev inv before) = see φ s := by
  unfold State.segSite
  (repeat' split) <;> simp (disch := exact hb.mono rfl)

@[simp ↓] theorem State.segAttach_see {γ : Type} (φ : State → γ) (hb : Blind φ [.fresh, .dict, .sg]) (s : State) (l : RgLine) (al : SgAlias) (c : Nat) (own prev : List (Option Nat)) (inv before : List Bool) (classes table : List Nat) :
    see φ (State.segAttach s l al c own prev inv before classes table) = see φ s := by
  unfold State.segAttach
  simp only []
  (repeat' split) <;> simp (disch := exact hb.mono rfl) <;> (repeat' split) <;> simp (disch := exact hb.mono rfl)

@[simp ↓] theorem State.segPublish_see {γ : Type} (φ : State → γ) (hb : Blind φ [.dict]) (s : State) (p : Nat) :
    see φ (State.segPublish s p) = see φ s := by
  unfold State.segPublish
  (repeat' split) <;> simp (disch := exact hb.mono rfl)

@[simp ↓] theorem State.segClose_see {γ : Type} (φ : State → γ) (hb : Blind φ [.dict, .sg]) (s : State) (p n time : Nat) (closes : SgObj → Bool) (exit : Bool) :
    see φ (State.segClose s p n time closes exit) = see φ s := by
  unfold State.segClose
  (repeat' split) <;> simp (disch := exact hb.mono rfl)

@[simp ↓] theorem State.segLine_see {γ : Type} (φ : State → γ) (hb : Blind φ [.fresh, .dict, .errName, .out, .draws, .lattice, .cxl, .sg]) (s : State) (l : RgLine) (classes : List Nat) :
    see φ (State.segLine s l classes) = see φ s := by
  unfold State.segLine
  (try simp only [])
  repeat' first | with_reducible rfl | split | (rw [foldl_see]) | (rw [foldl_fst_see]) | intro _ | simp (disch := exact hb.mono rfl)

@[simp ↓] theorem State.segFlush_see {γ : Type} (φ : State → γ) (hb : Blind φ [.dict, .sg]) (s : State) (p : Nat) :
    see φ (State.segFlush s p) = see φ s := by
  unfold State.segFlush
  (repeat' split) <;> simp (disch := exact hb.mono rfl)

@[simp ↓] theorem State.segArm_see {γ : Type} (φ : State → γ) (hb : Blind φ [.dict, .sg]) (s : State) (p : Nat) :
    see φ (State.segArm s p) = see φ s := by
  unfold State.segArm
  (repeat' split) <;> simp (disch := exact hb.mono rfl)

@[simp ↓] theorem State.linePitch_see {γ : Type} (φ : State → γ) (hb : Blind φ [.draws]) (s : State) (p g : Nat) (speed first last : Nat) :
    see φ (State.linePitch s p g speed first last).1 = see φ s := by
  unfold State.linePitch
  simp only []
  (repeat' split) <;> simp (disch := exact hb.mono rfl) <;> (repeat' split) <;> simp (disch := exact hb.mono rfl)

@[simp ↓] theorem State.facets_see {γ : Type} (φ : State → γ) (hb : Blind φ [.draws]) (s : State) (p g : Nat) (a : Acc) (r : TrackResult) (first last edge part : Nat) :
    see φ (State.facets s p g a r first last edge part).1 = see φ s := by
  unfold State.facets
  (repeat' split) <;> simp (disch := exact hb.mono rfl)

theorem State.segLeave_see {γ : Type} (φ : State → γ) (hb : Blind φ [.fresh, .dict, .draws, .sg]) (s : State) (p : Nat)
    (x : State × SgObj × List Int) (h : s.segLeave p = some x) : see φ x.1 = see φ s := by
  unfold State.segLeave at h
  simp only [] at h
  split at h
  · cases h
  · cases h; simp (disch := exact hb.mono rfl)

end Sys2Proof.Machine
end

