-- ==== Sys2Proof/Laws/Chord.lean ====
section
/-! SUPPORT. What each operation of Machine/Chord.lean leaves alone, and that each of its commands goes on. -/

set_option maxRecDepth 4000
set_option linter.unusedSimpArgs false

namespace Sys2Proof.Machine

open Sys2Proof

@[simp ↓] theorem State.setCh_see {γ : Type} (φ : State → γ) (hb : Blind φ [.ch]) (s : State) (k : Nat) (v : ChPort) :
    see φ (State.setCh s k v) = see φ s := by
  unfold State.setCh
  (repeat' split) <;> simp (disch := exact hb.mono rfl)

@[simp ↓] theorem State.chEmit_see {γ : Type} (φ : State → γ) (hb : Blind φ [.fresh, .dict, .out, .ch]) (s : State) (k cls typ seq : Nat) (payload : List Byte) :
    see φ (State.chEmit s k cls typ seq payload) = see φ s := by
  unfold State.chEmit
  (repeat' split) <;> simp (disch := exact hb.mono rfl)

@[simp ↓] theorem State.chPush_see {γ : Type} (φ : State → γ) (hb : Blind φ [.fresh, .dict, .out, .ch]) (s : State) (k cls typ : Nat) (payload : List Byte) :
    see φ (State.chPush s k cls typ payload) = see φ s := by
  unfold State.chPush
  (repeat' split) <;> simp (disch := exact hb.mono rfl)

@[simp ↓] theorem State.chordSend_see {γ : Type} (φ : State → γ) (hb : Blind φ [.fresh, .dict, .out, .ch]) (s : State) (k cls typ : Nat) (payload : List Byte) :
    see φ (State.chordSend s k cls typ payload) = see φ s := by
  unfold State.chordSend
  (repeat' split) <;> simp (disch := exact hb.mono rfl)

@[simp ↓] theorem State.chDrain_see {γ : Type} (φ : State → γ) (hb : Blind φ [.fresh, .dict, .out, .ch]) (s : State) (k fuel : Nat) :
    see φ (State.chDrain s k fuel) = see φ s := by
  induction fuel generalizing s with
  | zero => rfl
  | succ f ih =>
    unfold State.chDrain
    simp only []
    split
    · rfl
    · split <;> simp (disch := exact hb.mono rfl) [ih]

@[simp ↓] theorem State.chControl_see {γ : Type} (φ : State → γ) (hb : Blind φ [.fresh, .dict, .out, .ch]) (s : State) (k typ seq : Nat) :
    see φ (State.chControl s k typ seq) = see φ s := by
  unfold State.chControl
  (repeat' split) <;> simp (disch := exact hb.mono rfl)

end Sys2Proof.Machine
end

