-- ==== Sys2Proof/Laws/Stitch.lean ====
section
/-! SUPPORT. What each operation of Machine/Stitch.lean leaves alone, and that each of its commands goes on. -/

set_option maxRecDepth 4000
set_option linter.unusedSimpArgs false

namespace Sys2Proof.Machine

open Sys2Proof

theorem execStMapWrite_next (t : Nat) (path : Path) (p : Fin 12) (blob : List Byte) (s : State) :
    ∃ u, (execStMapWrite t path p blob s) = .next u ∧ ∀ {γ : Type} (φ : State → γ), Blind φ [.fresh, .dict, .stagedBlobs, .errName, .out, .lattice, .cxl, .access, .cal] → see φ u = see φ (State.at s t) := by
  unfold execStMapWrite
  simp only []
  (repeat' split) <;> exact ⟨_, rfl, fun φ hb => by simp (disch := exact hb.mono rfl)⟩

@[simp ↓] theorem State.stitchArm_see {γ : Type} (φ : State → γ) (hb : Blind φ [.dict, .st, .judged]) (s : State) :
    see φ (State.stitchArm s) = see φ s := by
  unfold State.stitchArm
  (repeat' split) <;> simp (disch := exact hb.mono rfl) <;> (repeat rw [foldl_see]) <;> intros <;> (repeat' split) <;> simp (disch := exact hb.mono rfl)

@[simp ↓] theorem State.toVerdict_see {γ : Type} (φ : State → γ) (hb : Blind φ [.judged]) (s : State) (j : Judged) :
    see φ (State.toVerdict s j) = see φ s := by
  unfold State.toVerdict
  (repeat' split) <;> simp (disch := exact hb.mono rfl)

@[simp ↓] theorem State.ownObject_see {γ : Type} (φ : State → γ) (hb : Blind φ [.draws, .judged]) (s : State) (h : Half) (extra wait : Nat) (widen : Option (Int × Int)) :
    see φ (State.ownObject s h extra wait widen) = see φ s := by
  unfold State.ownObject
  (repeat' split) <;> simp (disch := exact hb.mono rfl)

@[simp ↓] theorem State.noteWait_see {γ : Type} (φ : State → γ) (hb : Blind φ [.dict]) (s : State) (w : Nat) :
    see φ (State.noteWait s w) = see φ s := by
  unfold State.noteWait
  (repeat' split) <;> simp (disch := exact hb.mono rfl)

@[simp ↓] theorem State.splitResolve_see {γ : Type} (φ : State → γ) (hb : Blind φ [.fresh, .dict, .draws, .judged]) (s : State) (halves : List Half) :
    see φ (State.splitResolve s halves) = see φ s := by
  unfold State.splitResolve
  (repeat' split) <;> simp (disch := exact hb.mono rfl) <;> (repeat rw [foldl_see]) <;> intros <;> (repeat' split) <;> simp (disch := exact hb.mono rfl)

@[simp ↓] theorem State.joinGroup_see {γ : Type} (φ : State → γ) (hb : Blind φ [.fresh, .dict, .draws, .st, .judged]) (s : State) (h : Half) :
    see φ (State.joinGroup s h) = see φ s := by
  unfold State.joinGroup
  (repeat' split) <;> simp (disch := exact hb.mono rfl)

@[simp ↓] theorem State.sendMark_see {γ : Type} (φ : State → γ) (hb : Blind φ [.fresh, .dict, .out, .ch, .st]) (s : State) (k : Nat) :
    see φ (State.sendMark s k) = see φ s := by
  unfold State.sendMark
  (repeat' split) <;> simp (disch := exact hb.mono rfl)

@[simp ↓] theorem State.sendSummaries_see {γ : Type} (φ : State → γ) (hb : Blind φ [.fresh, .dict, .out, .ch, .st]) (s : State) (h : Half) :
    see φ (State.sendSummaries s h).1 = see φ s := by
  unfold State.sendSummaries
  simp only []
  (repeat' split) <;> simp (disch := exact hb.mono rfl) <;> (repeat' split) <;> simp (disch := exact hb.mono rfl)

@[simp ↓] theorem State.stitchPart_see {γ : Type} (φ : State → γ) (hb : Blind φ [.fresh, .dict, .out, .draws, .ch, .st, .judged]) (s : State) (o : SgObj) :
    see φ (State.stitchPart s o) = see φ s := by
  unfold State.stitchPart
  (repeat' split) <;> simp (disch := exact hb.mono rfl)

theorem execObjectLeaveSeg_next (t : Nat) (p : Fin 14) (s : State) :
    ∃ u, (execObjectLeaveSeg t p s) = .next u ∧ ∀ {γ : Type} (φ : State → γ), Blind φ [.fresh, .dict, .out, .draws, .sg, .ch, .st, .judged] → see φ u = see φ (State.at s t) := by
  unfold execObjectLeaveSeg
  simp only []
  split
  · exact ⟨_, rfl, fun φ hb => rfl⟩
  · rename_i h
    have hk := fun {γ : Type} (φ : State → γ) (hb) => State.segLeave_see φ hb _ _ _ h
    simp only [] at hk
    (repeat' split) <;> exact ⟨_, rfl, fun φ hb => by simp (disch := exact hb.mono rfl) [hk φ (hb.mono rfl)]⟩

theorem execSummary_next (t : Nat) (link : Fin 2) (payload : List Byte) (s : State) :
    ∃ u, (execSummary t link payload s) = .next u ∧ ∀ {γ : Type} (φ : State → γ), Blind φ [.fresh, .dict, .draws, .st, .judged] → see φ u = see φ (State.at s t) := by
  unfold execSummary
  simp only []
  (repeat' split) <;> exact ⟨_, rfl, fun φ hb => by simp (disch := exact hb.mono rfl)⟩

theorem execWatermark_next (t : Nat) (link : Fin 2) (time : Nat) (s : State) :
    ∃ u, (execWatermark t link time s) = .next u ∧ ∀ {γ : Type} (φ : State → γ), Blind φ [.st] → see φ u = see φ (State.at s t) := by
  unfold execWatermark
  exact ⟨_, rfl, fun φ hb => by simp (disch := exact hb.mono rfl)⟩

theorem execWatermarkSend_next (t : Nat) (link : Fin 2) (s : State) :
    ∃ u, (execWatermarkSend t link s) = .next u ∧ ∀ {γ : Type} (φ : State → γ), Blind φ [.fresh, .dict, .out, .ch, .st] → see φ u = see φ (State.at s t) := by
  unfold execWatermarkSend
  simp only []
  (repeat' split) <;> exact ⟨_, rfl, fun φ hb => by simp (disch := exact hb.mono rfl)⟩

@[simp ↓] theorem State.mergeGroup_see {γ : Type} (φ : State → γ) (hb : Blind φ [.fresh, .dict, .draws, .judged]) (s : State) (l : List Half) (owner : Nat) (x : Int) :
    see φ (State.mergeGroup s l owner x) = see φ s := by
  unfold State.mergeGroup
  simp only []
  (repeat' split) <;> simp (disch := exact hb.mono rfl) <;> (repeat' split) <;> simp (disch := exact hb.mono rfl)

@[simp ↓] theorem State.markSplit_see {γ : Type} (φ : State → γ) (hb : Blind φ [.fresh, .dict, .errName, .out, .lattice, .cxl]) (s : State) (seams : List Nat) (on : Bool) :
    see φ (State.markSplit s seams on) = see φ s := by
  unfold State.markSplit
  (repeat' split) <;> simp (disch := exact hb.mono rfl) <;> (repeat rw [foldl_see]) <;> intros <;> (repeat' split) <;> simp (disch := exact hb.mono rfl)

@[simp ↓] theorem State.dropGroup_see {γ : Type} (φ : State → γ) (hb : Blind φ [.st]) (s : State) (g : SeamGroup) :
    see φ (State.dropGroup s g) = see φ s := by
  unfold State.dropGroup
  (repeat' split) <;> simp (disch := exact hb.mono rfl)

@[simp ↓] theorem State.resolveGroup_see {γ : Type} (φ : State → γ) (hb : Blind φ [.fresh, .dict, .errName, .out, .draws, .lattice, .cxl, .st, .judged]) (s : State) (g : SeamGroup) :
    see φ (State.resolveGroup s g) = see φ s := by
  unfold State.resolveGroup
  simp only []
  (repeat' split) <;> simp (disch := exact hb.mono rfl) <;> (repeat' split) <;> simp (disch := exact hb.mono rfl)

theorem execGroupResolve_next (t : Nat) (s : State) :
    ∃ u, (execGroupResolve t s) = .next u ∧ ∀ {γ : Type} (φ : State → γ), Blind φ [.fresh, .dict, .errName, .out, .draws, .lattice, .cxl, .st, .judged] → see φ u = see φ (State.at s t) := by
  unfold execGroupResolve
  simp only []
  (repeat' split) <;> exact ⟨_, rfl, fun φ hb => by simp (disch := exact hb.mono rfl)⟩

theorem execSeamWaitTimeout_next (t : Nat) (s : State) :
    ∃ u, (execSeamWaitTimeout t s) = .next u ∧ ∀ {γ : Type} (φ : State → γ), Blind φ [.fresh, .dict, .errName, .out, .draws, .lattice, .cxl, .st, .judged] → see φ u = see φ (State.at s t) := by
  unfold execSeamWaitTimeout
  simp only []
  (repeat' split) <;> exact ⟨_, rfl, fun φ hb => by simp (disch := exact hb.mono rfl)⟩

theorem execTakenTimeout_next (t : Nat) (s : State) :
    ∃ u, (execTakenTimeout t s) = .next u ∧ ∀ {γ : Type} (φ : State → γ), Blind φ [.fresh, .dict, .draws, .st, .judged] → see φ u = see φ (State.at s t) := by
  unfold execTakenTimeout
  simp only []
  (repeat' split) <;> exact ⟨_, rfl, fun φ hb => by simp (disch := exact hb.mono rfl)⟩

@[simp ↓] theorem State.calStart_see {γ : Type} (φ : State → γ) (hb : Blind φ [.dict, .st, .cal]) (s : State) :
    see φ (State.calStart s) = see φ s := by
  unfold State.calStart
  (repeat' split) <;> simp (disch := exact hb.mono rfl) <;> (repeat rw [foldl_see]) <;> intros <;> (repeat' split) <;> simp (disch := exact hb.mono rfl)

theorem execStCalStart_next (t : Nat) (path : Path) (s : State) :
    ∃ u, (execStCalStart t path s) = .next u ∧ ∀ {γ : Type} (φ : State → γ), Blind φ [.dict, .out, .access, .st, .cal] → see φ u = see φ (State.at s t) := by
  unfold execStCalStart
  simp only []
  split
  · split
    · exact ⟨_, rfl, fun φ hb => by simp (disch := exact hb.mono rfl)⟩
    · split
      · exact ⟨_, rfl, fun φ hb => by simp (disch := exact hb.mono rfl)⟩
      · rename_i h
        refine ⟨_, rfl, fun φ hb => ?_⟩
        have hk := State.calEnqueue_see φ (hb.mono rfl) _ _ _ h
        split <;> simp (disch := exact hb.mono rfl) [hk]
  · exact ⟨_, rfl, fun φ hb => by simp (disch := exact hb.mono rfl)⟩

theorem execStCalCancel_next (t : Nat) (path : Path) (s : State) :
    ∃ u, (execStCalCancel t path s) = .next u ∧ ∀ {γ : Type} (φ : State → γ), Blind φ [.dict, .out, .access, .cal] → see φ u = see φ (State.at s t) := by
  unfold execStCalCancel
  simp only []
  (repeat' split) <;> exact ⟨_, rfl, fun φ hb => by simp (disch := exact hb.mono rfl)⟩

theorem execStCalDone_next (t : Nat) (p : Fin 12) (levels : List (Nat × Nat)) (s : State) :
    ∃ u, (execStCalDone t p levels s) = .next u ∧ ∀ {γ : Type} (φ : State → γ), Blind φ [.fresh, .dict, .stagedBlobs, .errName, .out, .lattice, .cxl, .st, .cal] → see φ u = see φ (State.at s t) := by
  unfold execStCalDone
  simp only []
  (repeat' split) <;> exact ⟨_, rfl, fun φ hb => by simp (disch := exact hb.mono rfl)⟩

end Sys2Proof.Machine
end

