-- ==== Sys2Proof/Laws/Verdict.lean ====
section
/-! SUPPORT. What each operation of Machine/Verdict.lean leaves alone, and that each of its commands goes on. -/

set_option maxRecDepth 4000
set_option linter.unusedSimpArgs false

namespace Sys2Proof.Machine

open Sys2Proof

@[simp ↓] theorem State.vdPublish_see {γ : Type} (φ : State → γ) (hb : Blind φ [.dict]) (s : State) :
    see φ (State.vdPublish s) = see φ s := by
  unfold State.vdPublish
  (repeat' split) <;> simp (disch := exact hb.mono rfl)

@[simp ↓] theorem State.vdRefuse_see {γ : Type} (φ : State → γ) (hb : Blind φ [.fresh, .dict, .errName, .out, .lattice, .cxl]) (s : State) (g code : Nat) (program : Bool) :
    see φ (State.vdRefuse s g code program) = see φ s := by
  unfold State.vdRefuse
  (repeat' split) <;> simp (disch := exact hb.mono rfl)

theorem execVdProgramWrite_next (t : Nat) (path : Path) (g : Fin 12) (blob : List Byte) (s : State) :
    ∃ u, (execVdProgramWrite t path g blob s) = .next u ∧ ∀ {γ : Type} (φ : State → γ), Blind φ [.fresh, .dict, .epochs, .errName, .out, .lattice, .cxl, .access, .cal] → see φ u = see φ (State.at s t) := by
  unfold execVdProgramWrite
  simp only []
  (repeat' split) <;> exact ⟨_, rfl, fun φ hb => by simp (disch := exact hb.mono rfl)⟩

theorem execClassTableWrite_next (t : Nat) (path : Path) (g : Fin 12) (first : Fin 256) (values : List Byte) (s : State) :
    ∃ u, (execClassTableWrite t path g first values s) = .next u ∧ ∀ {γ : Type} (φ : State → γ), Blind φ [.fresh, .dict, .epochs, .errName, .out, .lattice, .cxl, .access] → see φ u = see φ (State.at s t) := by
  unfold execClassTableWrite
  simp only []
  (repeat' split) <;> refine ⟨_, rfl, fun φ hb => ?_⟩ <;> simp (disch := exact hb.mono rfl) <;> (repeat rw [foldl_see]) <;> intros <;> (repeat' split) <;> simp (disch := exact hb.mono rfl)

@[simp ↓] theorem State.vdHolds_see {γ : Type} (φ : State → γ) (hb : Blind φ [.dict, .vd]) (s : State) (g : Nat) :
    see φ (State.vdHolds s g) = see φ s := by
  unfold State.vdHolds
  (repeat' split) <;> simp (disch := exact hb.mono rfl)

theorem execProgramHoldEnd_next (t : Nat) (g : Fin 12) (s : State) :
    ∃ u, (execProgramHoldEnd t g s) = .next u ∧ ∀ {γ : Type} (φ : State → γ), Blind φ [.dict, .vd] → see φ u = see φ (State.at s t) := by
  unfold execProgramHoldEnd
  exact ⟨_, rfl, fun φ hb => by simp (disch := exact hb.mono rfl)⟩

@[simp ↓] theorem State.vdRelease_see {γ : Type} (φ : State → γ) (hb : Blind φ [.dict, .vd]) (s : State) :
    see φ (State.vdRelease s) = see φ s := by
  unfold State.vdRelease
  (repeat' split) <;> simp (disch := exact hb.mono rfl) <;> (repeat rw [foldl_see]) <;> intros <;> (repeat' split) <;> simp (disch := exact hb.mono rfl)

@[simp ↓] theorem State.judge_see {γ : Type} (φ : State → γ) (hb : Blind φ [.fresh, .dict]) (s : State) (j : Judged) :
    see φ (State.judge s j).1 = see φ s := by
  unfold State.judge
  (repeat' split) <;> simp (disch := exact hb.mono rfl)

@[simp ↓] theorem State.epHeld_see {γ : Type} (φ : State → γ) (hb : Blind φ [.fresh, .dict, .errName, .out, .lattice, .cxl]) (s : State) (o : ObjRow) (e : Nat) :
    see φ (State.epHeld s o e) = see φ s := by
  unfold State.epHeld
  (repeat' split) <;> simp (disch := exact hb.mono rfl)

@[simp ↓] theorem State.publishHeld_see {γ : Type} (φ : State → γ) (hb : Blind φ [.dict]) (s : State) :
    see φ (State.publishHeld s) = see φ s := by
  unfold State.publishHeld
  (repeat' split) <;> simp (disch := exact hb.mono rfl)

@[simp ↓] theorem State.epEpoch_see {γ : Type} (φ : State → γ) (hb : Blind φ [.fresh, .dict, .errName, .out, .lattice, .cxl, .vd]) (s : State) (g ep : Nat) (entry : Bool) :
    see φ (State.epEpoch s g ep entry) = see φ s := by
  unfold State.epEpoch
  extract_lets s1 all v0 v rows age prev scan row f1 f2 s2 s3 s4 ok taken now s5 s6 s7 s8
  have h1 : see φ s1 = see φ s := by simp (disch := exact hb.mono rfl) [s1]
  clear_value s1
  by_cases hs : s1.surface = true
  · rw [if_pos hs]; simp (disch := exact hb.mono rfl) [h1]
  · rw [if_neg hs]
    have h2 : see φ s2 = see φ s := by simp only [s2]; split <;> simp (disch := exact hb.mono rfl) [h1]
    clear_value s2
    have h3 : see φ s3 = see φ s := by simp only [s3]; split <;> simp (disch := exact hb.mono rfl) [h2]
    clear_value s3
    have h4 : see φ s4 = see φ s := by simp only [s4]; split <;> simp (disch := exact hb.mono rfl) [h3]
    clear_value s4
    have h5 : see φ s5 = see φ s := by simp (disch := exact hb.mono rfl) [s5, h4]
    clear_value s5
    have h6 : see φ s6 = see φ s := by simp only [s6]; split <;> simp (disch := exact hb.mono rfl) [h5]
    clear_value s6
    rw [foldl_see]
    · simp (disch := exact hb.mono rfl) [s8, s7, h6]
    · intro a x
      simp (disch := exact hb.mono rfl)

@[simp ↓] theorem State.vdEpoch_see {γ : Type} (φ : State → γ) (hb : Blind φ [.fresh, .dict, .errName, .out, .lattice, .cxl, .vd]) (s : State) (g ep f : Nat) :
    see φ (State.vdEpoch s g ep f) = see φ s := by
  unfold State.vdEpoch
  (repeat' split) <;> simp (disch := exact hb.mono rfl)

@[simp ↓] theorem State.transit_see {γ : Type} (φ : State → γ) (hb : Blind φ [.fresh, .dict, .draws]) (s : State) (j : Judged) (row : Nat) :
    see φ (State.transit s j row).1 = see φ s := by
  unfold State.transit
  (repeat' split) <;> simp (disch := exact hb.mono rfl)

@[simp ↓] theorem State.epResult_see {γ : Type} (φ : State → γ) (hb : Blind φ [.dict]) (s : State) (x : Transit) :
    see φ (State.epResult s x) = see φ s := by
  unfold State.epResult
  (repeat' split) <;> simp (disch := exact hb.mono rfl)

end Sys2Proof.Machine
end

