-- ==== Sys2Proof/Laws/Ledger.lean ====
section
/-! SUPPORT. What each operation of Machine/Ledger.lean leaves alone, and that each of its commands goes on. -/

set_option maxRecDepth 4000
set_option linter.unusedSimpArgs false

namespace Sys2Proof.Machine

open Sys2Proof

@[simp ↓] theorem State.lgPublish_see {γ : Type} (φ : State → γ) (hb : Blind φ [.dict]) (s : State) :
    see φ (State.lgPublish s) = see φ s := by
  unfold State.lgPublish
  (repeat' split) <;> simp (disch := exact hb.mono rfl)

@[simp ↓] theorem State.lgPush_see {γ : Type} (φ : State → γ) (hb : Blind φ [.dict, .lg]) (s : State) (record ext : List Byte) :
    see φ (State.lgPush s record ext) = see φ s := by
  unfold State.lgPush
  (repeat' split) <;> simp (disch := exact hb.mono rfl)

@[simp ↓] theorem State.modRecord_see {γ : Type} (φ : State → γ) (hb : Blind φ [.lg]) (s : State) (seq : Nat) (f : LedgerRecord → LedgerRecord) :
    see φ (State.modRecord s seq f) = see φ s := by
  unfold State.modRecord
  (repeat' split) <;> simp (disch := exact hb.mono rfl)

@[simp ↓] theorem State.modOrder_see {γ : Type} (φ : State → γ) (hb : Blind φ [.lg]) (s : State) (id : Nat) (f : LedgerOrder → LedgerOrder) :
    see φ (State.modOrder s id f) = see φ s := by
  unfold State.modOrder
  (repeat' split) <;> simp (disch := exact hb.mono rfl)

@[simp ↓] theorem State.lgPushOrder_see {γ : Type} (φ : State → γ) (hb : Blind φ [.dict, .lg]) (s : State) (seq row : Nat) :
    see φ (State.lgPushOrder s seq row) = see φ s := by
  unfold State.lgPushOrder
  (repeat' split) <;> simp (disch := exact hb.mono rfl)

@[simp ↓] theorem State.mirrorLost_see {γ : Type} (φ : State → γ) (hb : Blind φ [.fresh, .dict, .errName, .out, .lattice, .cxl]) (s : State) :
    see φ (State.mirrorLost s) = see φ s := by
  unfold State.mirrorLost
  (repeat' split) <;> simp (disch := exact hb.mono rfl)

@[simp ↓] theorem State.mirrorSend_see {γ : Type} (φ : State → γ) (hb : Blind φ [.fresh, .dict, .errName, .out, .lattice, .cxl, .ch]) (s : State) (typ : Nat) (payload : List Byte) :
    see φ (State.mirrorSend s typ payload) = see φ s := by
  unfold State.mirrorSend
  (repeat' split) <;> simp (disch := exact hb.mono rfl)

@[simp ↓] theorem State.mirrorAcks_see {γ : Type} (φ : State → γ) (hb : Blind φ [.fresh, .dict, .errName, .out, .lattice, .cxl, .ch]) (s : State) :
    see φ (State.mirrorAcks s) = see φ s := by
  unfold State.mirrorAcks
  (repeat' split) <;> simp (disch := exact hb.mono rfl)

@[simp ↓] theorem State.mirrorRecord_see {γ : Type} (φ : State → γ) (hb : Blind φ [.fresh, .dict, .errName, .out, .lattice, .cxl, .ch, .lg]) (s : State) (e : LedgerRecord) :
    see φ (State.mirrorRecord s e) = see φ s := by
  unfold State.mirrorRecord
  (repeat' split) <;> simp (disch := exact hb.mono rfl)

@[simp ↓] theorem State.mirrorOrder_see {γ : Type} (φ : State → γ) (hb : Blind φ [.fresh, .dict, .errName, .out, .lattice, .cxl, .ch, .lg]) (s : State) (o : LedgerOrder) :
    see φ (State.mirrorOrder s o) = see φ s := by
  unfold State.mirrorOrder
  (repeat' split) <;> simp (disch := exact hb.mono rfl)

@[simp ↓] theorem State.mirrorWindow_see {γ : Type} (φ : State → γ) (hb : Blind φ [.fresh, .dict, .errName, .out, .lattice, .cxl, .ch, .lg]) (s : State) :
    see φ (State.mirrorWindow s) = see φ s := by
  unfold State.mirrorWindow
  (repeat' split) <;> simp (disch := exact hb.mono rfl) <;> (repeat rw [foldl_see]) <;> intros <;> (repeat' split) <;> simp (disch := exact hb.mono rfl)

@[simp ↓] theorem State.hostWrite_see {γ : Type} (φ : State → γ) (hb : Blind φ [.out]) (s : State) (a : Nat) (b : List Byte) :
    see φ (State.hostWrite s a b) = see φ s := by
  unfold State.hostWrite
  (repeat' split) <;> simp (disch := exact hb.mono rfl)

@[simp ↓] theorem State.headWrite_see {γ : Type} (φ : State → γ) (hb : Blind φ [.fresh, .dict, .errName, .out, .lattice, .cxl]) (s : State) (a : ObjRow) (v src : Nat) :
    see φ (State.headWrite s a v src) = see φ s := by
  unfold State.headWrite
  (repeat' split) <;> simp (disch := exact hb.mono rfl)

@[simp ↓] theorem State.writeRecord_see {γ : Type} (φ : State → γ) (hb : Blind φ [.out, .lg]) (s : State) (e : LedgerRecord) :
    see φ (State.writeRecord s e) = see φ s := by
  unfold State.writeRecord
  (repeat' split) <;> simp (disch := exact hb.mono rfl)

@[simp ↓] theorem State.writeOutcome_see {γ : Type} (φ : State → γ) (hb : Blind φ [.out, .lg]) (s : State) (o : LedgerOrder) :
    see φ (State.writeOutcome s o) = see φ s := by
  unfold State.writeOutcome
  (repeat' split) <;> simp (disch := exact hb.mono rfl)

@[simp ↓] theorem State.ringIrq_see {γ : Type} (φ : State → γ) (hb : Blind φ [.out, .cxl, .lg]) (s : State) (out : Bool) :
    see φ (State.ringIrq s out) = see φ s := by
  unfold State.ringIrq
  (repeat' split) <;> simp (disch := exact hb.mono rfl)

theorem execRecordWrite_next (t : Nat) (s : State) :
    ∃ u, (execRecordWrite t s) = .next u ∧ ∀ {γ : Type} (φ : State → γ), Blind φ [.fresh, .dict, .errName, .out, .lattice, .cxl, .lg] → see φ u = see φ (State.at s t) := by
  unfold execRecordWrite
  simp only []
  (repeat' split) <;> exact ⟨_, rfl, fun φ hb => by simp (disch := exact hb.mono rfl)⟩

theorem execOutcomeWrite_next (t : Nat) (s : State) :
    ∃ u, (execOutcomeWrite t s) = .next u ∧ ∀ {γ : Type} (φ : State → γ), Blind φ [.fresh, .dict, .errName, .out, .lattice, .cxl, .lg] → see φ u = see φ (State.at s t) := by
  unfold execOutcomeWrite
  simp only []
  (repeat' split) <;> exact ⟨_, rfl, fun φ hb => by simp (disch := exact hb.mono rfl)⟩

theorem execRingIrqTimeout_next (t : Nat) (outcomes : Bool) (s : State) :
    ∃ u, (execRingIrqTimeout t outcomes s) = .next u ∧ ∀ {γ : Type} (φ : State → γ), Blind φ [.out, .cxl, .lg] → see φ u = see φ (State.at s t) := by
  unfold execRingIrqTimeout
  simp only []
  (repeat' split) <;> exact ⟨_, rfl, fun φ hb => by simp (disch := exact hb.mono rfl)⟩

@[simp ↓] theorem State.ackRecords_see {γ : Type} (φ : State → γ) (hb : Blind φ [.fresh, .dict, .errName, .out, .lattice, .cxl, .ch, .lg]) (s : State) (v : Nat) :
    see φ (State.ackRecords s v).1 = see φ s := by
  unfold State.ackRecords
  (repeat' split) <;> simp (disch := exact hb.mono rfl)

@[simp ↓] theorem State.ackOutcomes_see {γ : Type} (φ : State → γ) (hb : Blind φ [.fresh, .dict, .errName, .out, .lattice, .cxl, .ch, .lg]) (s : State) (v : Nat) :
    see φ (State.ackOutcomes s v).1 = see φ s := by
  unfold State.ackOutcomes
  (repeat' split) <;> simp (disch := exact hb.mono rfl)

@[simp ↓] theorem State.ackWrite_see {γ : Type} (φ : State → γ) (hb : Blind φ [.out, .access]) (s : State) (path : Path)
    (o : ObjRow) (value : List Byte) (ack : State → Nat → State × Bool) (h : ∀ a n, see φ (ack a n).1 = see φ a) :
    see φ (State.ackWrite s path o value ack) = see φ s := by
  unfold State.ackWrite
  simp only []
  split <;> simp (disch := exact hb.mono rfl) [h]

theorem execRecAckSeqWrite_next (t : Nat) (path : Path) (value : List Byte) (s : State) :
    ∃ u, (execRecAckSeqWrite t path value s) = .next u ∧ ∀ {γ : Type} (φ : State → γ), Blind φ [.fresh, .dict, .errName, .out, .lattice, .cxl, .access, .ch, .lg] → see φ u = see φ (State.at s t) := by
  unfold execRecAckSeqWrite
  exact ⟨_, rfl, fun φ hb => (State.ackWrite_see φ (hb.mono rfl) _ _ _ _ _ (fun a n => State.ackRecords_see φ (hb.mono rfl) a n)).trans rfl⟩

theorem execOutAckOrderWrite_next (t : Nat) (path : Path) (value : List Byte) (s : State) :
    ∃ u, (execOutAckOrderWrite t path value s) = .next u ∧ ∀ {γ : Type} (φ : State → γ), Blind φ [.fresh, .dict, .errName, .out, .lattice, .cxl, .access, .ch, .lg] → see φ u = see φ (State.at s t) := by
  unfold execOutAckOrderWrite
  exact ⟨_, rfl, fun φ hb => (State.ackWrite_see φ (hb.mono rfl) _ _ _ _ _ (fun a n => State.ackOutcomes_see φ (hb.mono rfl) a n)).trans rfl⟩

theorem execRecAck_next (t : Nat) (write : AckWrite) (s : State) :
    ∃ u, (execRecAck t write s) = .next u ∧ ∀ {γ : Type} (φ : State → γ), Blind φ [.fresh, .dict, .errName, .out, .lattice, .cxl, .ch, .lg] → see φ u = see φ (State.at s t) := by
  unfold execRecAck
  simp only []
  (repeat' split) <;> exact ⟨_, rfl, fun φ hb => by simp (disch := exact hb.mono rfl)⟩

theorem execOutAck_next (t : Nat) (write : AckWrite) (s : State) :
    ∃ u, (execOutAck t write s) = .next u ∧ ∀ {γ : Type} (φ : State → γ), Blind φ [.fresh, .dict, .errName, .out, .lattice, .cxl, .ch, .lg] → see φ u = see φ (State.at s t) := by
  unfold execOutAck
  simp only []
  (repeat' split) <;> exact ⟨_, rfl, fun φ hb => by simp (disch := exact hb.mono rfl)⟩

@[simp ↓] theorem State.lgClose_see {γ : Type} (φ : State → γ) (hb : Blind φ [.lg]) (s : State) (orderId : Nat) (o : Outcome) :
    see φ (State.lgClose s orderId o) = see φ s := by
  unfold State.lgClose
  (repeat' split) <;> simp (disch := exact hb.mono rfl)

end Sys2Proof.Machine
end

