-- ==== Sys2Proof/Laws/Bank.lean ====
section
/-! SUPPORT. What each operation of Machine/Bank.lean leaves alone, and that each of its commands goes on. -/

set_option maxRecDepth 4000
set_option linter.unusedSimpArgs false

namespace Sys2Proof.Machine

open Sys2Proof

@[simp ↓] theorem State.setValve_see {γ : Type} (φ : State → γ) (hb : Blind φ [.bank]) (s : State) (v : Nat) (x : Valve) :
    see φ (State.setValve s v x) = see φ s := by
  unfold State.setValve
  (repeat' split) <;> simp (disch := exact hb.mono rfl)

@[simp ↓] theorem State.setVbl_see {γ : Type} (φ : State → γ) (hb : Blind φ [.bank]) (s : State) (l : Nat) (x : VbLink) :
    see φ (State.setVbl s l x) = see φ s := by
  unfold State.setVbl
  (repeat' split) <;> simp (disch := exact hb.mono rfl)

@[simp ↓] theorem State.gateBank_see {γ : Type} (φ : State → γ) (hb : Blind φ [.fresh, .dict, .errName, .out, .lattice, .cxl]) (s : State) :
    see φ (State.gateBank s) = see φ s := by
  unfold State.gateBank
  (repeat' split) <;> simp (disch := exact hb.mono rfl)

@[simp ↓] theorem State.enterHold_see {γ : Type} (φ : State → γ) (hb : Blind φ [.fresh, .dict, .errName, .out, .draws, .lattice, .cxl, .tim, .holdBy]) (s : State) (why : Nat) :
    see φ (State.enterHold s why) = see φ s := by
  unfold State.enterHold
  (repeat' split) <;> simp (disch := exact hb.mono rfl)

@[simp ↓] theorem State.enterRun_see {γ : Type} (φ : State → γ) (hb : Blind φ [.fresh, .dict, .errName, .out, .draws, .lattice, .cxl, .tim, .mer]) (s : State) :
    see φ (State.enterRun s) = see φ s := by
  unfold State.enterRun
  (repeat' split) <;> simp (disch := exact hb.mono rfl)

@[simp ↓] theorem State.modFlight_see {γ : Type} (φ : State → γ) (hb : Blind φ [.bank]) (s : State) (id : Nat) (f : Flight → Flight) :
    see φ (State.modFlight s id f) = see φ s := by
  unfold State.modFlight
  (repeat' split) <;> simp (disch := exact hb.mono rfl)

@[simp ↓] theorem State.modOrders_see {γ : Type} (φ : State → γ) (hb : Blind φ [.bank]) (s : State) (ids : List Nat) (f : Flight → Flight) :
    see φ (State.modOrders s ids f) = see φ s := by
  unfold State.modOrders
  (try simp only [])
  repeat' first | with_reducible rfl | split | (rw [foldl_see]) | (rw [foldl_fst_see]) | intro _ | simp (disch := exact hb.mono rfl)

@[simp ↓] theorem State.flagOrders_see {γ : Type} (φ : State → γ) (hb : Blind φ [.bank]) (s : State) (ids : List Nat) (b : Nat) :
    see φ (State.flagOrders s ids b) = see φ s := by
  unfold State.flagOrders
  (repeat' split) <;> simp (disch := exact hb.mono rfl)

@[simp ↓] theorem State.modPulse_see {γ : Type} (φ : State → γ) (hb : Blind φ [.bank]) (s : State) (id : Nat) (f : Pulse → Pulse) :
    see φ (State.modPulse s id f) = see φ s := by
  unfold State.modPulse
  (repeat' split) <;> simp (disch := exact hb.mono rfl)

@[simp ↓] theorem State.removePulse_see {γ : Type} (φ : State → γ) (hb : Blind φ [.bank]) (s : State) (id : Nat) :
    see φ (State.removePulse s id) = see φ s := by
  unfold State.removePulse
  (repeat' split) <;> simp (disch := exact hb.mono rfl)

@[simp ↓] theorem State.queuePublish_see {γ : Type} (φ : State → γ) (hb : Blind φ [.dict]) (s : State) :
    see φ (State.queuePublish s) = see φ s := by
  unfold State.queuePublish
  (repeat' split) <;> simp (disch := exact hb.mono rfl)

@[simp ↓] theorem State.unprecharge_see {γ : Type} (φ : State → γ) (hb : Blind φ [.bank]) (s : State) (main : Nat) :
    see φ (State.unprecharge s main) = see φ s := by
  unfold State.unprecharge
  (repeat' split) <;> simp (disch := exact hb.mono rfl)

@[simp ↓] theorem State.dropPulse_see {γ : Type} (φ : State → γ) (hb : Blind φ [.bank]) (s : State) (p : Pulse) (cause : Cause) (flags : List Nat) :
    see φ (State.dropPulse s p cause flags) = see φ s := by
  unfold State.dropPulse
  (repeat' split) <;> simp (disch := exact hb.mono rfl) <;> (repeat rw [foldl_see]) <;> intros <;> (repeat' split) <;> simp (disch := exact hb.mono rfl)

@[simp ↓] theorem State.completePulse_see {γ : Type} (φ : State → γ) (hb : Blind φ [.fresh, .dict, .bank]) (s : State) (p : Pulse) :
    see φ (State.completePulse s p) = see φ s := by
  unfold State.completePulse
  (repeat' split) <;> simp (disch := exact hb.mono rfl)

@[simp ↓] theorem State.closeFlight_see {γ : Type} (φ : State → γ) (hb : Blind φ [.fresh, .dict, .out, .ch, .bank, .lg]) (s : State) (f : Flight) :
    see φ (State.closeFlight s f) = see φ s := by
  unfold State.closeFlight
  (repeat' split) <;> simp (disch := exact hb.mono rfl)

@[simp ↓] theorem State.queueSort_see {γ : Type} (φ : State → γ) (hb : Blind φ [.bank]) (s : State) :
    see φ (State.queueSort s) = see φ s := by
  unfold State.queueSort
  (repeat' split) <;> simp (disch := exact hb.mono rfl)

@[simp ↓] theorem State.settle_see {γ : Type} (φ : State → γ) (hb : Blind φ [.fresh, .dict, .out, .ch, .bank, .lg]) (s : State) :
    see φ (State.settle s) = see φ s := by
  unfold State.settle
  (try simp only [])
  repeat' first | with_reducible rfl | split | (rw [foldl_see]) | (rw [foldl_fst_see]) | intro _ | simp (disch := exact hb.mono rfl)

@[simp ↓] theorem State.planCharge_see {γ : Type} (φ : State → γ) (hb : Blind φ [.fresh, .dict, .bank]) (s : State) (p : Pulse) :
    see φ (State.planCharge s p) = see φ s := by
  unfold State.planCharge
  (repeat' split) <;> simp (disch := exact hb.mono rfl)

@[simp ↓] theorem State.meetPulse_see {γ : Type} (φ : State → γ) (hb : Blind φ [.fresh, .dict, .bank]) (s : State) (c : Pulse) (stored : Bool) (q : Pulse) :
    see φ (State.meetPulse s c stored q).1 = see φ s := by
  unfold State.meetPulse
  (repeat' split) <;> simp (disch := exact hb.mono rfl)

@[simp ↓] theorem State.dropPeriodic_see {γ : Type} (φ : State → γ) (hb : Blind φ [.bank]) (s : State) (p : Pulse) :
    see φ (State.dropPeriodic s p) = see φ s := by
  unfold State.dropPeriodic
  (repeat' split) <;> simp (disch := exact hb.mono rfl)

@[simp ↓] theorem State.placePulse_see {γ : Type} (φ : State → γ) (hb : Blind φ [.fresh, .dict, .bank]) (s : State) (c : Pulse) :
    see φ (State.placePulse s c) = see φ s := by
  unfold State.placePulse
  (try simp only [])
  repeat' first | with_reducible rfl | split | (rw [foldl_see]) | (rw [foldl_fst_see]) | intro _ | simp (disch := exact hb.mono rfl)

@[simp ↓] theorem State.addPulse_see {γ : Type} (φ : State → γ) (hb : Blind φ [.fresh, .dict, .bank]) (s : State) (p : Pulse) :
    see φ (State.addPulse s p) = see φ s := by
  unfold State.addPulse
  (repeat' split) <;> simp (disch := exact hb.mono rfl)

@[simp ↓] theorem State.planFlight_see {γ : Type} (φ : State → γ) (hb : Blind φ [.fresh, .dict, .bank]) (s : State) (id : Nat) :
    see φ (State.planFlight s id) = see φ s := by
  unfold State.planFlight
  (repeat' split) <;> simp (disch := exact hb.mono rfl) <;> (repeat rw [foldl_see]) <;> intros <;> (repeat' split) <;> simp (disch := exact hb.mono rfl)

@[simp ↓] theorem State.beltPassed_see {γ : Type} (φ : State → γ) (hb : Blind φ [.bank]) (s : State) :
    see φ (State.beltPassed s) = see φ s := by
  unfold State.beltPassed
  (repeat' split) <;> simp (disch := exact hb.mono rfl)

@[simp ↓] theorem State.enqueue_see {γ : Type} (φ : State → γ) (hb : Blind φ [.fresh, .dict, .out, .ch, .bank, .lg]) (s : State) (f : Flight) :
    see φ (State.enqueue s f) = see φ s := by
  unfold State.enqueue
  (repeat' split) <;> simp (disch := exact hb.mono rfl)

@[simp ↓] theorem State.enqueueAux_see {γ : Type} (φ : State → γ) (hb : Blind φ [.fresh, .dict, .out, .ch, .bank, .lg]) (s : State) (f : Flight) :
    see φ (State.enqueueAux s f).1 = see φ s := by
  unfold State.enqueueAux
  (repeat' split) <;> simp (disch := exact hb.mono rfl)

@[simp ↓] theorem State.movePulse_see {γ : Type} (φ : State → γ) (hb : Blind φ [.fresh, .dict, .bank]) (s : State) (p : Pulse) (hot : Bool) :
    see φ (State.movePulse s p hot) = see φ s := by
  unfold State.movePulse
  (repeat' split) <;> simp (disch := exact hb.mono rfl) <;> (repeat rw [foldl_see]) <;> intros <;> (repeat' split) <;> simp (disch := exact hb.mono rfl)

@[simp ↓] theorem State.valveUnable_see {γ : Type} (φ : State → γ) (hb : Blind φ [.fresh, .dict, .bank]) (s : State) (v : Nat) (hot : Bool) :
    see φ (State.valveUnable s v hot) = see φ s := by
  unfold State.valveUnable
  (try simp only [])
  repeat' first | with_reducible rfl | split | (rw [foldl_see]) | (rw [foldl_fst_see]) | intro _ | simp (disch := exact hb.mono rfl)

@[simp ↓] theorem State.noteEdge_see {γ : Type} (φ : State → γ) (hb : Blind φ [.bank]) (s : State) (link : Nat) (time : Int) :
    see φ (State.noteEdge s link time) = see φ s := by
  unfold State.noteEdge
  (repeat' split) <;> simp (disch := exact hb.mono rfl)

@[simp ↓] theorem State.noteBehind_see {γ : Type} (φ : State → γ) (hb : Blind φ [.bank]) (s : State) (p : Pulse) :
    see φ (State.noteBehind s p) = see φ s := by
  unfold State.noteBehind
  (repeat' split) <;> simp (disch := exact hb.mono rfl)

@[simp ↓] theorem State.noteEdges_see {γ : Type} (φ : State → γ) (hb : Blind φ [.bank]) (s : State) (p : Pulse) (off : Option Int) :
    see φ (State.noteEdges s p off) = see φ s := by
  unfold State.noteEdges
  (repeat' split) <;> simp (disch := exact hb.mono rfl)

@[simp ↓] theorem State.killPulses_see {γ : Type} (φ : State → γ) (hb : Blind φ [.fresh, .dict, .out, .ch, .bank, .lg]) (s : State) (cause : Cause) (all : Bool) :
    see φ (State.killPulses s cause all) = see φ s := by
  unfold State.killPulses
  (repeat' split) <;> simp (disch := exact hb.mono rfl) <;> (repeat rw [foldl_see]) <;> intros <;> (repeat' split) <;> simp (disch := exact hb.mono rfl)

@[simp ↓] theorem State.killLinks_see {γ : Type} (φ : State → γ) (hb : Blind φ [.out]) (s : State) :
    see φ (State.killLinks s) = see φ s := by
  unfold State.killLinks
  (try simp only [])
  repeat' first | with_reducible rfl | split | (rw [foldl_see]) | (rw [foldl_fst_see]) | intro _ | simp (disch := exact hb.mono rfl)

end Sys2Proof.Machine
end

