-- ==== Sys2Proof/Laws/Failsafe.lean ====
section
/-! SUPPORT. What each operation of Machine/Failsafe.lean leaves alone, and that each of its commands goes on. -/

set_option maxRecDepth 4000
set_option linter.unusedSimpArgs false

namespace Sys2Proof.Machine

open Sys2Proof

@[simp ↓] theorem State.blanketAdd_see {γ : Type} (φ : State → γ) (hb : Blind φ [.fresh, .dict, .bank]) (s : State) (id v : Nat) (x : Int × Int) :
    see φ (State.blanketAdd s id v x) = see φ s := by
  unfold State.blanketAdd
  (repeat' split) <;> simp (disch := exact hb.mono rfl)

@[simp ↓] theorem State.blanketValve_see {γ : Type} (φ : State → γ) (hb : Blind φ [.fresh, .dict, .bank]) (s : State) (id v : Nat) (lo hi : Int) :
    see φ (State.blanketValve s id v lo hi) = see φ s := by
  unfold State.blanketValve
  (try simp only [])
  repeat' first | with_reducible rfl | split | (rw [foldl_see]) | (rw [foldl_fst_see]) | intro _ | simp (disch := exact hb.mono rfl)

@[simp ↓] theorem State.blanket_see {γ : Type} (φ : State → γ) (hb : Blind φ [.fresh, .dict, .out, .ch, .bank, .lg]) (s : State) (p : Nat) (lo hi : Int) :
    see φ (State.blanket s p lo hi) = see φ s := by
  unfold State.blanket
  (repeat' split) <;> simp (disch := exact hb.mono rfl) <;> (repeat rw [foldl_see]) <;> intros <;> (repeat' split) <;> simp (disch := exact hb.mono rfl)

@[simp ↓] theorem State.growValve_see {γ : Type} (φ : State → γ) (hb : Blind φ [.fresh, .dict, .bank]) (s : State) (id v : Nat) (lo hi : Int) :
    see φ (State.growValve s id v lo hi) = see φ s := by
  unfold State.growValve
  (repeat' split) <;> simp (disch := exact hb.mono rfl) <;> (repeat rw [foldl_see]) <;> intros <;> (repeat' split) <;> simp (disch := exact hb.mono rfl)

@[simp ↓] theorem State.setFailover_see {γ : Type} (φ : State → γ) (hb : Blind φ [.cont]) (s : State) (p : Nat) (f : Option Failover) :
    see φ (State.setFailover s p f) = see φ s := by
  unfold State.setFailover
  (repeat' split) <;> simp (disch := exact hb.mono rfl)

@[simp ↓] theorem State.growBlanket_see {γ : Type} (φ : State → γ) (hb : Blind φ [.fresh, .dict, .out, .ch, .bank, .lg, .cont]) (s : State) (p : Nat) :
    see φ (State.growBlanket s p) = see φ s := by
  unfold State.growBlanket
  (repeat' split) <;> simp (disch := exact hb.mono rfl) <;> (repeat rw [foldl_see]) <;> intros <;> (repeat' split) <;> simp (disch := exact hb.mono rfl)

@[simp ↓] theorem State.growBlankets_see {γ : Type} (φ : State → γ) (hb : Blind φ [.fresh, .dict, .out, .ch, .bank, .lg, .cont]) (s : State) :
    see φ (State.growBlankets s) = see φ s := by
  unfold State.growBlankets
  (try simp only [])
  repeat' first | with_reducible rfl | split | (rw [foldl_see]) | (rw [foldl_fst_see]) | intro _ | simp (disch := exact hb.mono rfl)

end Sys2Proof.Machine
end

