-- ==== Sys2Proof/Laws/ValveLinks.lean ====
section
/-! SUPPORT. What each operation of Machine/ValveLinks.lean leaves alone, and that each of its commands goes on. -/

set_option maxRecDepth 4000
set_option linter.unusedSimpArgs false

namespace Sys2Proof.Machine

open Sys2Proof

@[simp ↓] theorem State.repredictPulse_see {γ : Type} (φ : State → γ) (hb : Blind φ [.fresh, .dict, .bank]) (s : State) (id : Nat) :
    see φ (State.repredictPulse s id) = see φ s := by
  unfold State.repredictPulse
  (repeat' split) <;> simp (disch := exact hb.mono rfl)

@[simp ↓] theorem State.relate_see {γ : Type} (φ : State → γ) (hb : Blind φ [.bank]) (s : State) (f : Flight) :
    see φ (State.relate s f) = see φ s := by
  unfold State.relate
  (try simp only [])
  repeat' first | with_reducible rfl | split | (rw [foldl_see]) | (rw [foldl_fst_see]) | intro _ | simp (disch := exact hb.mono rfl)

@[simp ↓] theorem State.repredict_see {γ : Type} (φ : State → γ) (hb : Blind φ [.fresh, .dict, .out, .ch, .bank, .lg]) (s : State) :
    see φ (State.repredict s) = see φ s := by
  unfold State.repredict
  (repeat' split) <;> simp (disch := exact hb.mono rfl) <;> (repeat rw [foldl_see]) <;> intros <;> (repeat' split) <;> simp (disch := exact hb.mono rfl)

@[simp ↓] theorem State.surfaceGiveUp_see {γ : Type} (φ : State → γ) (hb : Blind φ [.bank]) (s : State) (f : Flight) :
    see φ (State.surfaceGiveUp s f) = see φ s := by
  unfold State.surfaceGiveUp
  (repeat' split) <;> simp (disch := exact hb.mono rfl) <;> (repeat rw [foldl_see]) <;> intros <;> (repeat' split) <;> simp (disch := exact hb.mono rfl)

theorem execSurfaceWaitTimeout_next (t : Nat) (s : State) :
    ∃ u, (execSurfaceWaitTimeout t s) = .next u ∧ ∀ {γ : Type} (φ : State → γ), Blind φ [.fresh, .dict, .out, .ch, .bank, .lg] → see φ u = see φ (State.at s t) := by
  unfold execSurfaceWaitTimeout
  simp only []
  (repeat' split) <;> refine ⟨_, rfl, fun φ hb => ?_⟩ <;> simp (disch := exact hb.mono rfl) <;> (repeat rw [foldl_see]) <;> intros <;> (repeat' split) <;> simp (disch := exact hb.mono rfl)

@[simp ↓] theorem State.meetRepeat_see {γ : Type} (φ : State → γ) (hb : Blind φ [.bank]) (s : State) (p : Pulse) (k : Nat) :
    see φ (State.meetRepeat s p k) = see φ s := by
  unfold State.meetRepeat
  (repeat' split) <;> simp (disch := exact hb.mono rfl)

@[simp ↓] theorem State.freezeOn_see {γ : Type} (φ : State → γ) (hb : Blind φ [.fresh, .dict, .bank]) (s : State) (p : Pulse) (k : Nat) :
    see φ (State.freezeOn s p k).1 = see φ s := by
  unfold State.freezeOn
  (repeat' split) <;> simp (disch := exact hb.mono rfl)

@[simp ↓] theorem State.freezeOff_see {γ : Type} (φ : State → γ) (hb : Blind φ [.bank]) (s : State) (p : Pulse) (k : Nat) :
    see φ (State.freezeOff s p k).1 = see φ s := by
  unfold State.freezeOff
  (repeat' split) <;> simp (disch := exact hb.mono rfl)

@[simp ↓] theorem State.freezePulse_see {γ : Type} (φ : State → γ) (hb : Blind φ [.fresh, .dict, .bank]) (s : State) (id k : Nat) :
    see φ (State.freezePulse s id k).1 = see φ s := by
  unfold State.freezePulse
  (repeat' split) <;> simp (disch := exact hb.mono rfl)

@[simp ↓] theorem State.freezeFrame_see {γ : Type} (φ : State → γ) (hb : Blind φ [.fresh, .dict, .out, .ch, .bank, .lg, .cont]) (s : State) (l k : Nat) :
    see φ (State.freezeFrame s l k) = see φ s := by
  unfold State.freezeFrame
  (repeat' split) <;> simp (disch := exact hb.mono rfl) <;> (repeat rw [foldl_fst_see]) <;> intros <;> (repeat' split) <;> simp (disch := exact hb.mono rfl)

@[simp ↓] theorem State.sendFrame_see {γ : Type} (φ : State → γ) (hb : Blind φ [.out, .bank]) (s : State) (l : Nat) (f : Frame) :
    see φ (State.sendFrame s l f) = see φ s := by
  unfold State.sendFrame
  (repeat' split) <;> simp (disch := exact hb.mono rfl)

theorem execFrameTransmit_next (t : Nat) (link : Fin 32) (s : State) :
    ∃ u, (execFrameTransmit t link s) = .next u ∧ ∀ {γ : Type} (φ : State → γ), Blind φ [.out, .bank] → see φ u = see φ (State.at s t) := by
  unfold execFrameTransmit
  simp only []
  (repeat' split) <;> exact ⟨_, rfl, fun φ hb => by simp (disch := exact hb.mono rfl)⟩

@[simp ↓] theorem State.linkLevel_see {γ : Type} (φ : State → γ) (hb : Blind φ [.fresh, .dict, .errName, .out, .lattice, .cxl]) (s : State) :
    see φ (State.linkLevel s) = see φ s := by
  unfold State.linkLevel
  (repeat' split) <;> simp (disch := exact hb.mono rfl)

@[simp ↓] theorem State.linkDownPulse_see {γ : Type} (φ : State → γ) (hb : Blind φ [.fresh, .dict, .bank]) (s : State) (p : Pulse) :
    see φ (State.linkDownPulse s p) = see φ s := by
  unfold State.linkDownPulse
  (repeat' split) <;> simp (disch := exact hb.mono rfl)

@[simp ↓] theorem State.vbDownNow_see {γ : Type} (φ : State → γ) (hb : Blind φ [.fresh, .dict, .errName, .out, .lattice, .cxl, .ch, .bank, .lg, .cont]) (s : State) (l : Nat) (burst : Bool) :
    see φ (State.vbDownNow s l burst) = see φ s := by
  unfold State.vbDownNow
  (repeat' split) <;> simp (disch := exact hb.mono rfl) <;> (repeat rw [foldl_see]) <;> intros <;> (repeat' split) <;> simp (disch := exact hb.mono rfl)

@[simp ↓] theorem State.vbUpNow_see {γ : Type} (φ : State → γ) (hb : Blind φ [.fresh, .dict, .errName, .out, .lattice, .cxl, .bank, .cont]) (s : State) (l : Nat) :
    see φ (State.vbUpNow s l) = see φ s := by
  unfold State.vbUpNow
  (repeat' split) <;> simp (disch := exact hb.mono rfl)

@[simp ↓] theorem State.vbError_see {γ : Type} (φ : State → γ) (hb : Blind φ [.fresh, .dict, .errName, .out, .lattice, .cxl, .ch, .bank, .lg, .cont]) (s : State) (l : Nat) :
    see φ (State.vbError s l) = see φ s := by
  unfold State.vbError
  (repeat' split) <;> simp (disch := exact hb.mono rfl)

@[simp ↓] theorem State.vbGood_see {γ : Type} (φ : State → γ) (hb : Blind φ [.fresh, .dict, .errName, .out, .lattice, .cxl, .bank, .cont]) (s : State) (l : Nat) :
    see φ (State.vbGood s l) = see φ s := by
  unfold State.vbGood
  (repeat' split) <;> simp (disch := exact hb.mono rfl)

@[simp ↓] theorem State.endPulse_see {γ : Type} (φ : State → γ) (hb : Blind φ [.fresh, .dict, .bank]) (s : State) (id : Nat) :
    see φ (State.endPulse s id) = see φ s := by
  unfold State.endPulse
  (repeat' split) <;> simp (disch := exact hb.mono rfl)

@[simp ↓] theorem State.edgeDone_see {γ : Type} (φ : State → γ) (hb : Blind φ [.fresh, .dict, .bank]) (s : State) (k : Nat) (e : FrameEdge) :
    see φ (State.edgeDone s k e) = see φ s := by
  unfold State.edgeDone
  (repeat' split) <;> simp (disch := exact hb.mono rfl)

@[simp ↓] theorem State.edgeLost_see {γ : Type} (φ : State → γ) (hb : Blind φ [.bank]) (s : State) (e : FrameEdge) :
    see φ (State.edgeLost s e) = see φ s := by
  unfold State.edgeLost
  (repeat' split) <;> simp (disch := exact hb.mono rfl)

@[simp ↓] theorem State.echoFrame_see {γ : Type} (φ : State → γ) (hb : Blind φ [.fresh, .dict, .bank]) (s : State) (l : Nat) (f : Frame) (executed : Nat) :
    see φ (State.echoFrame s l f executed) = see φ s := by
  unfold State.echoFrame
  (repeat' split) <;> simp (disch := exact hb.mono rfl) <;> (repeat rw [foldl_see]) <;> intros <;> (repeat' split) <;> simp (disch := exact hb.mono rfl)

theorem execEcho_next (t : Nat) (link : Fin 32) (frame flags executed : Nat) (crcOk : Bool) (s : State) :
    ∃ u, (execEcho t link frame flags executed crcOk s) = .next u ∧ ∀ {γ : Type} (φ : State → γ), Blind φ [.fresh, .dict, .errName, .out, .lattice, .cxl, .ch, .bank, .lg, .cont] → see φ u = see φ (State.at s t) := by
  unfold execEcho
  simp only []
  (repeat' split) <;> refine ⟨_, rfl, fun φ hb => ?_⟩ <;> simp (disch := exact hb.mono rfl) <;> (repeat rw [foldl_see]) <;> intros <;> (repeat' split) <;> simp (disch := exact hb.mono rfl)

@[simp ↓] theorem State.edgeUnechoed_see {γ : Type} (φ : State → γ) (hb : Blind φ [.fresh, .dict, .bank]) (s : State) (k : Nat) (e : FrameEdge) :
    see φ (State.edgeUnechoed s k e) = see φ s := by
  unfold State.edgeUnechoed
  (repeat' split) <;> simp (disch := exact hb.mono rfl)

@[simp ↓] theorem State.echoMissed_see {γ : Type} (φ : State → γ) (hb : Blind φ [.fresh, .dict, .errName, .out, .lattice, .cxl, .ch, .bank, .lg, .cont]) (s : State) (l : Nat) (f : Frame) :
    see φ (State.echoMissed s l f) = see φ s := by
  unfold State.echoMissed
  (repeat' split) <;> simp (disch := exact hb.mono rfl) <;> (repeat rw [foldl_see]) <;> intros <;> (repeat' split) <;> simp (disch := exact hb.mono rfl)

theorem execEchoTimeout_next (t : Nat) (link : Fin 32) (s : State) :
    ∃ u, (execEchoTimeout t link s) = .next u ∧ ∀ {γ : Type} (φ : State → γ), Blind φ [.fresh, .dict, .errName, .out, .lattice, .cxl, .ch, .bank, .lg, .cont] → see φ u = see φ (State.at s t) := by
  unfold execEchoTimeout
  simp only []
  (repeat' split) <;> exact ⟨_, rfl, fun φ hb => by simp (disch := exact hb.mono rfl)⟩

theorem execStatusTimeout_next (t : Nat) (link : Fin 32) (s : State) :
    ∃ u, (execStatusTimeout t link s) = .next u ∧ ∀ {γ : Type} (φ : State → γ), Blind φ [.fresh, .dict, .errName, .out, .lattice, .cxl, .ch, .bank, .lg, .cont] → see φ u = see φ (State.at s t) := by
  unfold execStatusTimeout
  simp only []
  (repeat' split) <;> exact ⟨_, rfl, fun φ hb => by simp (disch := exact hb.mono rfl)⟩

@[simp ↓] theorem State.hotLevel_see {γ : Type} (φ : State → γ) (hb : Blind φ [.fresh, .dict, .errName, .out, .lattice, .cxl]) (s : State) :
    see φ (State.hotLevel s) = see φ s := by
  unfold State.hotLevel
  (repeat' split) <;> simp (disch := exact hb.mono rfl)

@[simp ↓] theorem State.valveFault_see {γ : Type} (φ : State → γ) (hb : Blind φ [.fresh, .dict, .errName, .out, .lattice, .cxl, .bank]) (s : State) (v : Nat) (bad : Bool) :
    see φ (State.valveFault s v bad) = see φ s := by
  unfold State.valveFault
  (repeat' split) <;> simp (disch := exact hb.mono rfl)

@[simp ↓] theorem State.valveWord_see {γ : Type} (φ : State → γ) (hb : Blind φ [.fresh, .dict, .errName, .out, .lattice, .cxl, .bank]) (s : State) (v w : Nat) :
    see φ (State.valveWord s v w) = see φ s := by
  unfold State.valveWord
  (repeat' split) <;> simp (disch := exact hb.mono rfl)

@[simp ↓] theorem State.valveStatus_see {γ : Type} (φ : State → γ) (hb : Blind φ [.fresh, .dict, .errName, .out, .lattice, .cxl, .ch, .bank, .lg]) (s : State) (l : Nat) (words : List Nat) (board : Nat) :
    see φ (State.valveStatus s l words board) = see φ s := by
  unfold State.valveStatus
  (repeat' split) <;> simp (disch := exact hb.mono rfl) <;> (repeat rw [foldl_see]) <;> intros <;> (repeat' split) <;> simp (disch := exact hb.mono rfl)

theorem execPing_next (t : Nat) (link : Fin 32) (s : State) :
    ∃ u, (execPing t link s) = .next u ∧ ∀ {γ : Type} (φ : State → γ), Blind φ [.out, .bank] → see φ u = see φ (State.at s t) := by
  unfold execPing
  simp only []
  (repeat' split) <;> exact ⟨_, rfl, fun φ hb => by simp (disch := exact hb.mono rfl)⟩

theorem execPingReturn_next (t : Nat) (link : Fin 32) (s : State) :
    ∃ u, (execPingReturn t link s) = .next u ∧ ∀ {γ : Type} (φ : State → γ), Blind φ [.dict, .bank] → see φ u = see φ (State.at s t) := by
  unfold execPingReturn
  simp only []
  (repeat' split) <;> exact ⟨_, rfl, fun φ hb => by simp (disch := exact hb.mono rfl)⟩

@[simp ↓] theorem State.ilkLevels_see {γ : Type} (φ : State → γ) (hb : Blind φ [.fresh, .dict, .errName, .out, .lattice, .cxl]) (s : State) :
    see φ (State.ilkLevels s) = see φ s := by
  unfold State.ilkLevels
  (repeat' split) <;> simp (disch := exact hb.mono rfl) <;> (repeat rw [foldl_see]) <;> intros <;> (repeat' split) <;> simp (disch := exact hb.mono rfl)

@[simp ↓] theorem State.ilkOpens_see {γ : Type} (φ : State → γ) (hb : Blind φ [.fresh, .dict, .errName, .out, .draws, .lattice, .cxl, .tim, .ch, .bank, .lg, .holdBy]) (s : State) (i : Nat) :
    see φ (State.ilkOpens s i) = see φ s := by
  unfold State.ilkOpens
  (repeat' split) <;> simp (disch := exact hb.mono rfl)

@[simp ↓] theorem State.ilkCloses_see {γ : Type} (φ : State → γ) (hb : Blind φ [.fresh, .dict, .errName, .out, .lattice, .cxl, .bank]) (s : State) (i : Nat) :
    see φ (State.ilkCloses s i) = see φ s := by
  unfold State.ilkCloses
  (repeat' split) <;> simp (disch := exact hb.mono rfl)

theorem execInterlockOpen_next (t : Nat) (source : Fin 4) (s : State) :
    ∃ u, (execInterlockOpen t source s) = .next u ∧ ∀ {γ : Type} (φ : State → γ), Blind φ [.fresh, .dict, .errName, .out, .draws, .lattice, .cxl, .tim, .ch, .bank, .lg, .holdBy] → see φ u = see φ (State.at s t) := by
  unfold execInterlockOpen
  simp only []
  (repeat' split) <;> exact ⟨_, rfl, fun φ hb => by simp (disch := exact hb.mono rfl)⟩

theorem execIlkLoopClose_next (t : Nat) (loop : Fin 3) (s : State) :
    ∃ u, (execIlkLoopClose t loop s) = .next u ∧ ∀ {γ : Type} (φ : State → γ), Blind φ [.fresh, .dict, .errName, .out, .lattice, .cxl, .bank] → see φ u = see φ (State.at s t) := by
  unfold execIlkLoopClose
  exact ⟨_, rfl, fun φ hb => by simp (disch := exact hb.mono rfl)⟩

theorem execInterlockRelease_next (t : Nat) (s : State) :
    ∃ u, (execInterlockRelease t s) = .next u ∧ ∀ {γ : Type} (φ : State → γ), Blind φ [.fresh, .dict, .errName, .out, .draws, .lattice, .cxl, .tim, .mer] → see φ u = see φ (State.at s t) := by
  unfold execInterlockRelease
  simp only []
  (repeat' split) <;> exact ⟨_, rfl, fun φ hb => by simp (disch := exact hb.mono rfl)⟩

@[simp ↓] theorem State.periodicCharge_see {γ : Type} (φ : State → γ) (hb : Blind φ [.fresh, .dict, .bank]) (s : State) (v : Nat) :
    see φ (State.periodicCharge s v) = see φ s := by
  unfold State.periodicCharge
  (repeat' split) <;> simp (disch := exact hb.mono rfl)

theorem execPrechargePeriodic_next (t : Nat) (valve : Fin 2048) (s : State) :
    ∃ u, (execPrechargePeriodic t valve s) = .next u ∧ ∀ {γ : Type} (φ : State → γ), Blind φ [.fresh, .dict, .bank] → see φ u = see φ (State.at s t) := by
  unfold execPrechargePeriodic
  simp only []
  (repeat' split) <;> exact ⟨_, rfl, fun φ hb => by simp (disch := exact hb.mono rfl)⟩

theorem execEjValveStateWrite_next (t : Nat) (path : Path) (valve : Fin 2048) (value : List Byte) (s : State) :
    ∃ u, (execEjValveStateWrite t path valve value s) = .next u ∧ ∀ {γ : Type} (φ : State → γ), Blind φ [.fresh, .dict, .blobs, .staged, .stagedBlobs, .epochs, .out, .access, .ch, .bank, .lg, .cal] → see φ u = see φ (State.at s t) := by
  unfold execEjValveStateWrite
  exact ⟨_, rfl, fun φ hb => by simp (disch := exact hb.mono rfl)⟩

theorem execEjLinkLeadWrite_next (t : Nat) (path : Path) (value : List Byte) (s : State) :
    ∃ u, (execEjLinkLeadWrite t path value s) = .next u ∧ ∀ {γ : Type} (φ : State → γ), Blind φ [.dict, .blobs, .staged, .stagedBlobs, .epochs, .out, .access, .cal] → see φ u = see φ (State.at s t) := by
  unfold execEjLinkLeadWrite
  exact ⟨_, rfl, fun φ hb => by simp (disch := exact hb.mono rfl)⟩

@[simp ↓] theorem State.takeRemote_see {γ : Type} (φ : State → γ) (hb : Blind φ [.fresh, .dict, .out, .ch, .bank, .lg]) (s : State) (link : Nat) (payload : List Byte) :
    see φ (State.takeRemote s link payload) = see φ s := by
  unfold State.takeRemote
  (repeat' split) <;> simp (disch := exact hb.mono rfl)

theorem execRemoteOrder_next (t : Nat) (link : Fin 2) (payload : List Byte) (s : State) :
    ∃ u, (execRemoteOrder t link payload s) = .next u ∧ ∀ {γ : Type} (φ : State → γ), Blind φ [.fresh, .dict, .out, .ch, .bank, .lg] → see φ u = see φ (State.at s t) := by
  unfold execRemoteOrder
  simp only []
  (repeat' split) <;> exact ⟨_, rfl, fun φ hb => by simp (disch := exact hb.mono rfl)⟩

theorem execSubResult_next (t : Nat) (link : Fin 2) (payload : List Byte) (s : State) :
    ∃ u, (execSubResult t link payload s) = .next u ∧ ∀ {γ : Type} (φ : State → γ), Blind φ [.fresh, .dict, .out, .ch, .bank, .lg] → see φ u = see φ (State.at s t) := by
  unfold execSubResult
  simp only []
  (repeat' split) <;> exact ⟨_, rfl, fun φ hb => by simp (disch := exact hb.mono rfl)⟩

theorem execRemoteWaitTimeout_next (t : Nat) (orderId : Nat) (s : State) :
    ∃ u, (execRemoteWaitTimeout t orderId s) = .next u ∧ ∀ {γ : Type} (φ : State → γ), Blind φ [.fresh, .dict, .out, .ch, .bank, .lg] → see φ u = see φ (State.at s t) := by
  unfold execRemoteWaitTimeout
  simp only []
  (repeat' split) <;> exact ⟨_, rfl, fun φ hb => by simp (disch := exact hb.mono rfl)⟩

end Sys2Proof.Machine
end

