-- ==== Sys2Proof/Laws/Reticle.lean ====
section
/-! SUPPORT. What each operation of Machine/Reticle.lean leaves alone, and that each of its commands goes on. -/

set_option maxRecDepth 4000
set_option linter.unusedSimpArgs false

namespace Sys2Proof.Machine

open Sys2Proof

@[simp ↓] theorem State.placeBuffers_see {γ : Type} (φ : State → γ) (hb : Blind φ [.dict, .cams, .place, .slots, .hist, .thumbs, .rt]) (s : State) :
    see φ (State.placeBuffers s) = see φ s := by
  unfold State.placeBuffers
  (try simp only [])
  repeat' first | with_reducible rfl | split | (rw [foldl_see]) | (rw [foldl_fst_see]) | intro _ | simp (disch := exact hb.mono rfl)

@[simp ↓] theorem State.invalidate_see {γ : Type} (φ : State → γ) (hb : Blind φ [.out, .cxl]) (s : State) (a n : Nat) :
    see φ (State.invalidate s a n) = see φ s := by
  unfold State.invalidate
  (repeat' split) <;> simp (disch := exact hb.mono rfl) <;> (repeat rw [foldl_see]) <;> intros <;> (repeat' split) <;> simp (disch := exact hb.mono rfl)

@[simp ↓] theorem State.invalidateSlot_see {γ : Type} (φ : State → γ) (hb : Blind φ [.out, .dramBad, .cxl]) (s : State) (buffer slot size n : Nat) :
    see φ (State.invalidateSlot s buffer slot size n) = see φ s := by
  unfold State.invalidateSlot
  (repeat' split) <;> simp (disch := exact hb.mono rfl)

@[simp ↓] theorem State.writeSlot_see {γ : Type} (φ : State → γ) (hb : Blind φ [.out, .dramBad, .cxl, .slots]) (s : State) (buffer n size : Nat) (b : List Byte) :
    see φ (State.writeSlot s buffer n size b) = see φ s := by
  unfold State.writeSlot
  (repeat' split) <;> simp (disch := exact hb.mono rfl)

@[simp ↓] theorem State.rtTake_see {γ : Type} (φ : State → γ) (hb : Blind φ [.dict, .out, .dramBad, .cxl, .slots, .rt]) (s : State) (p n : Nat) (cap : CapLine) (planes : List (List RtSample)) :
    see φ (State.rtTake s p n cap planes) = see φ s := by
  unfold State.rtTake
  (repeat' split) <;> simp (disch := exact hb.mono rfl)

@[simp ↓] theorem State.tapPortLine_see {γ : Type} (φ : State → γ) (hb : Blind φ [.dict, .out, .dramBad, .cxl, .slots, .rt]) (s : State) (l : RegLine) :
    see φ (State.tapPortLine s l) = see φ s := by
  unfold State.tapPortLine
  (try simp only [])
  repeat' first | with_reducible rfl | split | (rw [foldl_see]) | (rw [foldl_fst_see]) | intro _ | simp (disch := exact hb.mono rfl)

@[simp ↓] theorem State.setHist_see {γ : Type} (φ : State → γ) (hb : Blind φ [.hist]) (s : State) (p : Nat) (h : Hist) :
    see φ (State.setHist s p h) = see φ s := by
  unfold State.setHist
  (repeat' split) <;> simp (disch := exact hb.mono rfl)

@[simp ↓] theorem State.histLine_see {γ : Type} (φ : State → γ) (hb : Blind φ [.out, .dramBad, .cxl, .hist]) (s : State) (l : RgLine) (classes : List Nat) :
    see φ (State.histLine s l classes) = see φ s := by
  unfold State.histLine
  (repeat' split) <;> simp (disch := exact hb.mono rfl)

@[simp ↓] theorem State.tapRegLine_see {γ : Type} (φ : State → γ) (hb : Blind φ [.dict, .out, .dramBad, .cxl, .slots, .hist, .rt]) (s : State) (l : RgLine) (classes : List Nat) :
    see φ (State.tapRegLine s l classes) = see φ s := by
  unfold State.tapRegLine
  (try simp only [])
  repeat' first | with_reducible rfl | split | (rw [foldl_see]) | (rw [foldl_fst_see]) | intro _ | simp (disch := exact hb.mono rfl)

@[simp ↓] theorem State.writeThumb_see {γ : Type} (φ : State → γ) (hb : Blind φ [.fresh, .dict, .out, .dramBad, .cxl, .slots]) (s : State) (t : ThumbJob) :
    see φ (State.writeThumb s t) = see φ s := by
  unfold State.writeThumb
  (repeat' split) <;> simp (disch := exact hb.mono rfl)

end Sys2Proof.Machine
end

