-- ==== Sys2Proof/Laws/DramPorts.lean ====
section
/-! SUPPORT. What each operation of Machine/DramPorts.lean leaves alone, and that each of its commands goes on. -/

set_option maxRecDepth 4000
set_option linter.unusedSimpArgs false

namespace Sys2Proof.Machine

open Sys2Proof

theorem execReplayCommit_next (t : Nat) (p : Fin 12) (line : Nat) (s : State) :
    ∃ u, (execReplayCommit t p line s) = .next u ∧ ∀ {γ : Type} (φ : State → γ), Blind φ [.fresh, .dict, .out, .dramBad, .cxl, .cams] → see φ u = see φ (State.at s t) := by
  unfold execReplayCommit
  simp only []
  (repeat' split) <;> exact ⟨_, rfl, fun φ hb => by simp (disch := exact hb.mono rfl)⟩

theorem execLedgerCommit_next (t : Nat) (s : State) :
    ∃ u, (execLedgerCommit t s) = .next u ∧ ∀ {γ : Type} (φ : State → γ), Blind φ [.fresh, .dict, .errName, .out, .lattice, .cxl, .ch, .lg] → see φ u = see φ (State.at s t) := by
  unfold execLedgerCommit
  simp only []
  (repeat' split) <;> exact ⟨_, rfl, fun φ hb => by simp (disch := exact hb.mono rfl)⟩

theorem execThumbWrite_next (t : Nat) (s : State) :
    ∃ u, (execThumbWrite t s) = .next u ∧ ∀ {γ : Type} (φ : State → γ), Blind φ [.fresh, .dict, .out, .dramBad, .cxl, .slots, .thumbs] → see φ u = see φ (State.at s t) := by
  unfold execThumbWrite
  simp only []
  (repeat' split) <;> exact ⟨_, rfl, fun φ hb => by simp (disch := exact hb.mono rfl)⟩

end Sys2Proof.Machine
end

