-- ==== Sys2Proof/Laws/Accept.lean ====
section
/-! SUPPORT. What each operation of Machine/Accept.lean leaves alone, and that each of its commands goes on. -/

set_option maxRecDepth 4000
set_option linter.unusedSimpArgs false

namespace Sys2Proof.Machine

open Sys2Proof

@[simp ↓] theorem State.seamMessages_see {γ : Type} (φ : State → γ) (hb : Blind φ [.fresh, .dict, .out, .ch]) (s : State) (j : Judged) (seq : Nat) (order : Option Flight) :
    see φ (State.seamMessages s j seq order) = see φ s := by
  unfold State.seamMessages
  (repeat' split) <;> simp (disch := exact hb.mono rfl) <;> (repeat rw [foldl_see]) <;> intros <;> (repeat' split) <;> simp (disch := exact hb.mono rfl)

@[simp ↓] theorem State.noteLatency_see {γ : Type} (φ : State → γ) (hb : Blind φ [.fresh, .dict]) (s : State) (j : Judged) :
    see φ (State.noteLatency s j) = see φ s := by
  unfold State.noteLatency
  (repeat' split) <;> simp (disch := exact hb.mono rfl)

@[simp ↓] theorem State.windowFull_see {γ : Type} (φ : State → γ) (hb : Blind φ [.fresh, .dict, .errName, .out, .lattice, .cxl]) (s : State) (on : Bool) :
    see φ (State.windowFull s on) = see φ s := by
  unfold State.windowFull
  (repeat' split) <;> simp (disch := exact hb.mono rfl)

@[simp ↓] theorem State.notAccepted_see {γ : Type} (φ : State → γ) (hb : Blind φ [.fresh, .dict, .errName, .out, .draws, .lattice, .cxl, .ch, .bank, .lg]) (s : State) (j : Judged) :
    see φ (State.notAccepted s j) = see φ s := by
  unfold State.notAccepted
  (repeat' split) <;> simp (disch := exact hb.mono rfl)

@[simp ↓] theorem State.acceptSummary_see {γ : Type} (φ : State → γ) (hb : Blind φ [.dict, .lg]) (s : State) :
    see φ (State.acceptSummary s) = see φ s := by
  unfold State.acceptSummary
  (repeat' split) <;> simp (disch := exact hb.mono rfl)

@[simp ↓] theorem State.keepParts_see {γ : Type} (φ : State → γ) (hb : Blind φ [.cont]) (s : State) (l : List PartId) :
    see φ (State.keepParts s l) = see φ s := by
  unfold State.keepParts
  (repeat' split) <;> simp (disch := exact hb.mono rfl)

@[simp ↓] theorem State.notePassing_see {γ : Type} (φ : State → γ) (hb : Blind φ [.fresh, .dict, .cal]) (s : State) (j : Judged) :
    see φ (State.notePassing s j) = see φ s := by
  unfold State.notePassing
  (repeat' split) <;> simp (disch := exact hb.mono rfl) <;> (repeat rw [foldl_see]) <;> intros <;> (repeat' split) <;> simp (disch := exact hb.mono rfl)

@[simp ↓] theorem State.accept_see {γ : Type} (φ : State → γ) (hb : Blind φ [.fresh, .dict, .errName, .out, .draws, .lattice, .cxl, .ch, .bank, .lg, .cont, .thumbs, .cal]) (s : State) (j : Judged) :
    see φ (State.accept s j) = see φ s := by
  unfold State.accept
  (repeat' split) <;> simp (disch := exact hb.mono rfl)

theorem execObjectAccept_next (t : Nat) (s : State) :
    ∃ u, (execObjectAccept t s) = .next u ∧ ∀ {γ : Type} (φ : State → γ), Blind φ [.fresh, .dict, .errName, .out, .draws, .lattice, .cxl, .ch, .judged, .bank, .lg, .cont, .thumbs, .cal] → see φ u = see φ (State.at s t) := by
  unfold execObjectAccept
  simp only []
  (repeat' split) <;> exact ⟨_, rfl, fun φ hb => by simp (disch := exact hb.mono rfl)⟩

@[simp ↓] theorem State.yieldGroup_see {γ : Type} (φ : State → γ) (hb : Blind φ [.fresh, .dict, .errName, .out, .lattice, .cxl, .ch, .st, .bank, .lg, .cont]) (s : State) (k : Nat) (g : SeamGroup) (parts : List Nat) (orders : List (List Byte)) :
    see φ (State.yieldGroup s k g parts orders) = see φ s := by
  unfold State.yieldGroup
  (repeat' split) <;> simp (disch := exact hb.mono rfl) <;> (repeat rw [foldl_see]) <;> intros <;> (repeat' split) <;> simp (disch := exact hb.mono rfl)

theorem execTaken_next (t : Nat) (link : Fin 2) (_seq : Nat) (parts : List Nat) (orders : List (List Byte)) (s : State) :
    ∃ u, (execTaken t link _seq parts orders s) = .next u ∧ ∀ {γ : Type} (φ : State → γ), Blind φ [.fresh, .dict, .errName, .out, .lattice, .cxl, .ch, .st, .bank, .lg, .cont] → see φ u = see φ (State.at s t) := by
  unfold execTaken
  simp only []
  (repeat' split) <;> exact ⟨_, rfl, fun φ hb => by simp (disch := exact hb.mono rfl)⟩

theorem execTakenAck_next (t : Nat) (link : Fin 2) (part : Nat) (refused : Bool) (s : State) :
    ∃ u, (execTakenAck t link part refused s) = .next u ∧ ∀ {γ : Type} (φ : State → γ), Blind φ [.fresh, .dict, .out, .ch, .bank, .lg] → see φ u = see φ (State.at s t) := by
  unfold execTakenAck
  simp only []
  (repeat' split) <;> exact ⟨_, rfl, fun φ hb => by simp (disch := exact hb.mono rfl)⟩

end Sys2Proof.Machine
end

