-- ==== Sys2Proof/Laws/DramFaults.lean ====
section
/-! SUPPORT. What each operation of Machine/DramFaults.lean leaves alone, and that each of its commands goes on. -/

set_option maxRecDepth 4000
set_option linter.unusedSimpArgs false

namespace Sys2Proof.Machine

open Sys2Proof

@[simp ↓] theorem State.setDram_see {γ : Type} (φ : State → γ) (hb : Blind φ [.dram]) (s : State) (c : Nat) (v : DramChannel) :
    see φ (State.setDram s c v) = see φ s := by
  unfold State.setDram
  (repeat' split) <;> simp (disch := exact hb.mono rfl)

@[simp ↓] theorem State.dramPublish_see {γ : Type} (φ : State → γ) (hb : Blind φ [.dict]) (s : State) :
    see φ (State.dramPublish s) = see φ s := by
  unfold State.dramPublish
  (repeat' split) <;> simp (disch := exact hb.mono rfl)

@[simp ↓] theorem State.ledgerLoses_see {γ : Type} (φ : State → γ) (hb : Blind φ [.dict, .cont]) (s : State) (c : Nat) :
    see φ (State.ledgerLoses s c) = see φ s := by
  unfold State.ledgerLoses
  simp only []
  (repeat' split) <;> simp (disch := exact hb.mono rfl) <;> (repeat' split) <;> simp (disch := exact hb.mono rfl)

@[simp ↓] theorem State.interleavedLost_see {γ : Type} (φ : State → γ) (hb : Blind φ [.fresh, .dict, .blobs, .errName, .out, .mem, .lost, .dramBad, .lattice, .cxl, .cams, .rc, .atl, .cont, .slots, .hist, .rt]) (s : State) :
    see φ (State.interleavedLost s) = see φ s := by
  unfold State.interleavedLost
  (repeat' split) <;> simp (disch := exact hb.mono rfl) <;> (repeat rw [foldl_see]) <;> intros <;> (repeat' split) <;> simp (disch := exact hb.mono rfl)

@[simp ↓] theorem State.channelFault_see {γ : Type} (φ : State → γ) (hb : Blind φ [.fresh, .dict, .blobs, .errName, .out, .mem, .lost, .dramBad, .dram, .lattice, .cxl, .cams, .rc, .atl, .cont, .slots, .hist, .rt]) (s : State) (c : Nat) :
    see φ (State.channelFault s c) = see φ s := by
  unfold State.channelFault
  (repeat' split) <;> simp (disch := exact hb.mono rfl)

@[simp ↓] theorem State.dramLast_see {γ : Type} (φ : State → γ) (hb : Blind φ [.dict]) (s : State) (x : DramSite) (kind : Nat) :
    see φ (State.dramLast s x kind) = see φ s := by
  unfold State.dramLast
  (repeat' split) <;> simp (disch := exact hb.mono rfl)

@[simp ↓] theorem State.dramSpoil_see {γ : Type} (φ : State → γ) (hb : Blind φ [.dramBad]) (s : State) (x : DramSite) :
    see φ (State.dramSpoil s x) = see φ s := by
  unfold State.dramSpoil
  (repeat' split) <;> simp (disch := exact hb.mono rfl)

@[simp ↓] theorem State.dramError_see {γ : Type} (φ : State → γ) (hb : Blind φ [.fresh, .dict, .blobs, .errName, .out, .mem, .lost, .dramBad, .dram, .lattice, .cxl, .cams, .rc, .atl, .cont, .slots, .hist, .rt]) (s : State) (e : DramError) :
    see φ (State.dramError s e) = see φ s := by
  unfold State.dramError
  (repeat' split) <;> simp (disch := exact hb.mono rfl)

@[simp ↓] theorem State.dramErrors_see {γ : Type} (φ : State → γ) (hb : Blind φ [.fresh, .dict, .blobs, .errName, .out, .mem, .lost, .dramBad, .dram, .lattice, .cxl, .cams, .rc, .atl, .cont, .slots, .hist, .rt]) (s : State) (l : List DramError) :
    see φ (State.dramErrors s l) = see φ s := by
  unfold State.dramErrors
  (try simp only [])
  repeat' first | with_reducible rfl | split | (rw [foldl_see]) | (rw [foldl_fst_see]) | intro _ | simp (disch := exact hb.mono rfl)

@[simp ↓] theorem State.dramMeet_see {γ : Type} (φ : State → γ) (hb : Blind φ [.fresh, .dict, .blobs, .errName, .out, .mem, .lost, .dramBad, .dram, .lattice, .cxl, .cams, .rc, .atl, .cont, .slots, .hist, .rt]) (s : State) (ranges : List (Nat × Nat)) (errors : List DramError) :
    see φ (State.dramMeet s ranges errors) = see φ s := by
  unfold State.dramMeet
  (repeat' split) <;> simp (disch := exact hb.mono rfl)

end Sys2Proof.Machine
end

