-- ==== Sys2Proof/Laws/Continuity.lean ====
section
/-! SUPPORT. What each operation of Machine/Continuity.lean leaves alone, and that each of its commands goes on. -/

set_option maxRecDepth 4000
set_option linter.unusedSimpArgs false

namespace Sys2Proof.Machine

open Sys2Proof

@[simp ↓] theorem State.setPipe_see {γ : Type} (φ : State → γ) (hb : Blind φ [.dict]) (s : State) (q v : Nat) :
    see φ (State.setPipe s q v) = see φ s := by
  unfold State.setPipe
  (repeat' split) <;> simp (disch := exact hb.mono rfl)

@[simp ↓] theorem State.rvArm_see {γ : Type} (φ : State → γ) (hb : Blind φ [.dict, .atl, .apipes, .cont]) (s : State) :
    see φ (State.rvArm s) = see φ s := by
  unfold State.rvArm
  (try simp only [])
  repeat' first | with_reducible rfl | split | (rw [foldl_see]) | (rw [foldl_fst_see]) | intro _ | simp (disch := exact hb.mono rfl)

@[simp ↓] theorem State.rcStatusReset_see {γ : Type} (φ : State → γ) (hb : Blind φ [.dict]) (s : State) (p : Nat) :
    see φ (State.rcStatusReset s p) = see φ s := by
  unfold State.rcStatusReset
  (repeat' split) <;> simp (disch := exact hb.mono rfl)

@[simp ↓] theorem State.pipeEmpty_see {γ : Type} (φ : State → γ) (hb : Blind φ [.dict, .rc, .rg, .sg]) (s : State) (p : Nat) :
    see φ (State.pipeEmpty s p) = see φ s := by
  unfold State.pipeEmpty
  (repeat' split) <;> simp (disch := exact hb.mono rfl)

@[simp ↓] theorem State.coreVolts_see {γ : Type} (φ : State → γ) (hb : Blind φ [.dict, .out, .draws]) (s : State) :
    see φ (State.coreVolts s) = see φ s := by
  unfold State.coreVolts
  (repeat' split) <;> simp (disch := exact hb.mono rfl) <;> (repeat rw [foldl_see]) <;> intros <;> (repeat' split) <;> simp (disch := exact hb.mono rfl)

@[simp ↓] theorem State.wakeGated_see {γ : Type} (φ : State → γ) (hb : Blind φ [.dict, .out, .draws, .cont]) (s : State) :
    see φ (State.wakeGated s) = see φ s := by
  unfold State.wakeGated
  (repeat' split) <;> simp (disch := exact hb.mono rfl)

@[simp ↓] theorem State.pipeGone_see {γ : Type} (φ : State → γ) (hb : Blind φ [.dict, .rc, .rg, .sg]) (s : State) (p : Nat) :
    see φ (State.pipeGone s p) = see φ s := by
  unfold State.pipeGone
  (repeat' split) <;> simp (disch := exact hb.mono rfl)

@[simp ↓] theorem State.pipeFault_see {γ : Type} (φ : State → γ) (hb : Blind φ [.fresh, .dict, .errName, .out, .draws, .lattice, .cxl, .rc, .rg, .sg, .cont]) (s : State) (q cause since : Nat) :
    see φ (State.pipeFault s q cause since) = see φ s := by
  unfold State.pipeFault
  simp only []
  (repeat' split) <;> simp (disch := exact hb.mono rfl) <;> (repeat' split) <;> simp (disch := exact hb.mono rfl)

theorem execPipeHeartbeatTimeout_next (t : Nat) (pipeline : Fin 13) (last : Nat) (s : State) :
    ∃ u, (execPipeHeartbeatTimeout t pipeline last s) = .next u ∧ ∀ {γ : Type} (φ : State → γ), Blind φ [.fresh, .dict, .errName, .out, .draws, .lattice, .cxl, .rc, .rg, .sg, .cont] → see φ u = see φ (State.at s t) := by
  unfold execPipeHeartbeatTimeout
  simp only []
  (repeat' split) <;> exact ⟨_, rfl, fun φ hb => by simp (disch := exact hb.mono rfl)⟩

@[simp ↓] theorem State.rcLoad_see {γ : Type} (φ : State → γ) (hb : Blind φ [.dict, .rc]) (s : State) (p : Nat) (x : RcSnapshot) :
    see φ (State.rcLoad s p x) = see φ s := by
  unfold State.rcLoad
  (repeat' split) <;> simp (disch := exact hb.mono rfl)

@[simp ↓] theorem State.snapshotsRead_see {γ : Type} (φ : State → γ) (hb : Blind φ [.dict, .rc]) (s : State) (p : Nat) :
    see φ (State.snapshotsRead s p) = see φ s := by
  unfold State.snapshotsRead
  (repeat' split) <;> simp (disch := exact hb.mono rfl)

@[simp ↓] theorem State.replayRead_see {γ : Type} (φ : State → γ) (hb : Blind φ [.fresh, .dict, .blobs, .errName, .out, .mem, .lost, .dramBad, .dram, .lattice, .cxl, .cams, .rc, .atl, .cont, .slots, .hist, .rt]) (s : State) (p a : Nat) (errors : List DramError) :
    see φ (State.replayRead s p a errors) = see φ s := by
  unfold State.replayRead
  (repeat' split) <;> simp (disch := exact hb.mono rfl)

@[simp ↓] theorem State.dropParts_see {γ : Type} (φ : State → γ) (hb : Blind φ [.st, .judged, .cont]) (s : State) (p : Nat) :
    see φ (State.dropParts s p) = see φ s := by
  unfold State.dropParts
  (repeat' split) <;> simp (disch := exact hb.mono rfl)

@[simp ↓] theorem State.publishFailover_see {γ : Type} (φ : State → γ) (hb : Blind φ [.dict]) (s : State) (f : PipeFault) (to_ m : Nat) (x : Failover) (interruption : Nat) :
    see φ (State.publishFailover s f to_ m x interruption) = see φ s := by
  unfold State.publishFailover
  (repeat' split) <;> simp (disch := exact hb.mono rfl)

@[simp ↓] theorem State.noteInterruption_see {γ : Type} (φ : State → γ) (hb : Blind φ [.dict]) (s : State) (i : Nat) :
    see φ (State.noteInterruption s i) = see φ s := by
  unfold State.noteInterruption
  (repeat' split) <;> simp (disch := exact hb.mono rfl)

@[simp ↓] theorem State.countCut_see {γ : Type} (φ : State → γ) (hb : Blind φ [.fresh, .dict]) (s : State) (x : Failover) :
    see φ (State.countCut s x) = see φ s := by
  unfold State.countCut
  (repeat' split) <;> simp (disch := exact hb.mono rfl)

@[simp ↓] theorem State.takeOver_see {γ : Type} (φ : State → γ) (hb : Blind φ [.fresh, .dict, .blobs, .errName, .out, .draws, .mem, .lost, .dramBad, .dram, .lattice, .cxl, .cams, .rc, .rg, .atl, .apipes, .sg, .ch, .st, .judged, .bank, .lg, .cont, .slots, .hist, .rt]) (s : State) (f : PipeFault) (q : Nat) (errors : List DramError) :
    see φ (State.takeOver s f q errors) = see φ s := by
  unfold State.takeOver
  simp only []
  (repeat' split) <;> simp (disch := exact hb.mono rfl) <;> (repeat' split) <;> simp (disch := exact hb.mono rfl)

@[simp ↓] theorem State.noService_see {γ : Type} (φ : State → γ) (hb : Blind φ [.fresh, .dict, .errName, .out, .lattice, .cxl]) (s : State) :
    see φ (State.noService s) = see φ s := by
  unfold State.noService
  (repeat' split) <;> simp (disch := exact hb.mono rfl)

@[simp ↓] theorem State.unserved_see {γ : Type} (φ : State → γ) (hb : Blind φ [.fresh, .dict, .errName, .out, .lattice, .cxl, .rc, .rg, .sg, .st, .judged, .cont]) (s : State) (f : PipeFault) :
    see φ (State.unserved s f) = see φ s := by
  unfold State.unserved
  (repeat' split) <;> simp (disch := exact hb.mono rfl)

@[simp ↓] theorem State.liveAtOnce_see {γ : Type} (φ : State → γ) (hb : Blind φ [.fresh, .dict, .out, .draws, .ch, .bank, .lg, .cont]) (s : State) (f : PipeFault) (r : Rotation) :
    see φ (State.liveAtOnce s f r) = see φ s := by
  unfold State.liveAtOnce
  (repeat' split) <;> simp (disch := exact hb.mono rfl)

@[simp ↓] theorem State.abandonTest_see {γ : Type} (φ : State → γ) (hb : Blind φ [.dict, .cont]) (s : State) (q : Nat) :
    see φ (State.abandonTest s q) = see φ s := by
  unfold State.abandonTest
  (repeat' split) <;> simp (disch := exact hb.mono rfl)

theorem execFailover_next (t : Nat) (errors : List DramError) (imageBad : Bool) (s : State) :
    ∃ u, (execFailover t errors imageBad s) = .next u ∧ ∀ {γ : Type} (φ : State → γ), Blind φ [.fresh, .dict, .blobs, .errName, .out, .draws, .mem, .lost, .dramBad, .dram, .lattice, .cxl, .cams, .rc, .rg, .atl, .apipes, .sg, .ch, .st, .judged, .bank, .lg, .cont, .slots, .hist, .rt] → see φ u = see φ (State.at s t) := by
  unfold execFailover
  simp only []
  (repeat' split) <;> exact ⟨_, rfl, fun φ hb => by simp (disch := exact hb.mono rfl)⟩

theorem execSpareCaughtUp_next (t : Nat) (p : Fin 14) (s : State) :
    ∃ u, (execSpareCaughtUp t p s) = .next u ∧ ∀ {γ : Type} (φ : State → γ), Blind φ [.fresh, .dict, .out, .ch, .bank, .lg, .cont] → see φ u = see φ (State.at s t) := by
  unfold execSpareCaughtUp
  simp only []
  (repeat' split) <;> exact ⟨_, rfl, fun φ hb => by simp (disch := exact hb.mono rfl)⟩

@[simp ↓] theorem State.outputAt_see {γ : Type} (φ : State → γ) (hb : Blind φ [.dict, .cont]) (s : State) (p n : Nat) :
    see φ (State.outputAt s p n) = see φ s := by
  unfold State.outputAt
  (repeat' split) <;> simp (disch := exact hb.mono rfl)

@[simp ↓] theorem State.startRotation_see {γ : Type} (φ : State → γ) (hb : Blind φ [.fresh, .dict, .blobs, .errName, .out, .mem, .lost, .dramBad, .dram, .lattice, .cxl, .cams, .rc, .atl, .apipes, .cont, .slots, .hist, .rt]) (s : State) (p : Nat) (errors : List DramError) :
    see φ (State.startRotation s p errors) = see φ s := by
  unfold State.startRotation
  (repeat' split) <;> simp (disch := exact hb.mono rfl)

@[simp ↓] theorem State.rotationLine_see {γ : Type} (φ : State → γ) (hb : Blind φ [.cont]) (s : State) (p n : Nat) :
    see φ (State.rotationLine s p n) = see φ s := by
  unfold State.rotationLine
  (repeat' split) <;> simp (disch := exact hb.mono rfl)

theorem execRotate_next (t : RotationStart) (s : State) :
    ∃ u, (execRotate t s) = .next u ∧ ∀ {γ : Type} (φ : State → γ), Blind φ [.fresh, .dict, .blobs, .errName, .out, .draws, .mem, .lost, .dramBad, .dram, .lattice, .cxl, .cams, .rc, .rg, .atl, .apipes, .sg, .cont, .slots, .hist, .rt] → see φ u = see φ (State.at s t.time) := by
  unfold execRotate
  simp only []
  (repeat' split) <;> exact ⟨_, rfl, fun φ hb => by simp (disch := exact hb.mono rfl)⟩

theorem execRotationCompareDone_next (t : Nat) (equal : Bool) (s : State) :
    ∃ u, (execRotationCompareDone t equal s) = .next u ∧ ∀ {γ : Type} (φ : State → γ), Blind φ [.fresh, .dict, .cont] → see φ u = see φ (State.at s t) := by
  unfold execRotationCompareDone
  simp only []
  (repeat' split) <;> exact ⟨_, rfl, fun φ hb => by simp (disch := exact hb.mono rfl)⟩

@[simp ↓] theorem State.rotateAt_see {γ : Type} (φ : State → γ) (hb : Blind φ [.fresh, .dict, .cont]) (s : State) (g : Nat) :
    see φ (State.rotateAt s g) = see φ s := by
  unfold State.rotateAt
  (repeat' split) <;> simp (disch := exact hb.mono rfl)

theorem execRotateEpochWaitTimeout_next (t : Nat) (s : State) :
    ∃ u, (execRotateEpochWaitTimeout t s) = .next u ∧ ∀ {γ : Type} (φ : State → γ), Blind φ [.dict] → see φ u = see φ (State.at s t) := by
  unfold execRotateEpochWaitTimeout
  simp only []
  (repeat' split) <;> exact ⟨_, rfl, fun φ hb => by simp (disch := exact hb.mono rfl)⟩

@[simp ↓] theorem State.bistPass_see {γ : Type} (φ : State → γ) (hb : Blind φ [.fresh, .dict, .errName, .out, .draws, .lattice, .cxl, .rc, .rg, .apipes, .sg, .cont]) (s : State) (q : Nat) :
    see φ (State.bistPass s q) = see φ s := by
  unfold State.bistPass
  simp only []
  (repeat' split) <;> simp (disch := exact hb.mono rfl) <;> (repeat' split) <;> simp (disch := exact hb.mono rfl)

theorem execPipeBistDone_next (t : Nat) (pipeline : Fin 13) (result : Nat) (s : State) :
    ∃ u, (execPipeBistDone t pipeline result s) = .next u ∧ ∀ {γ : Type} (φ : State → γ), Blind φ [.fresh, .dict, .errName, .out, .draws, .lattice, .cxl, .rc, .rg, .apipes, .sg, .cont, .cal] → see φ u = see φ (State.at s t) := by
  unfold execPipeBistDone
  simp only []
  (repeat' split) <;> exact ⟨_, rfl, fun φ hb => by simp (disch := exact hb.mono rfl)⟩

theorem execLedgerCopyDone_next (t : Nat) (s : State) :
    ∃ u, (execLedgerCopyDone t s) = .next u ∧ ∀ {γ : Type} (φ : State → γ), Blind φ [.fresh, .dict, .errName, .out, .lattice, .cxl, .cont] → see φ u = see φ (State.at s t) := by
  unfold execLedgerCopyDone
  simp only []
  (repeat' split) <;> exact ⟨_, rfl, fun φ hb => by simp (disch := exact hb.mono rfl)⟩

@[simp ↓] theorem State.closeOrders_see {γ : Type} (φ : State → γ) (hb : Blind φ [.fresh, .dict, .out, .ch, .bank, .lg]) (s : State) :
    see φ (State.closeOrders s) = see φ s := by
  unfold State.closeOrders
  (try simp only [])
  repeat' first | with_reducible rfl | split | (rw [foldl_see]) | (rw [foldl_fst_see]) | intro _ | simp (disch := exact hb.mono rfl)

@[simp ↓] theorem State.rewriteWindows_see {γ : Type} (φ : State → γ) (hb : Blind φ [.fresh, .dict, .errName, .out, .lattice, .cxl, .lg]) (s : State) :
    see φ (State.rewriteWindows s) = see φ s := by
  unfold State.rewriteWindows
  (try simp only [])
  repeat' first | with_reducible rfl | split | (rw [foldl_see]) | (rw [foldl_fst_see]) | intro _ | simp (disch := exact hb.mono rfl)

theorem execReissue_next (t : Nat) (s : State) :
    ∃ u, (execReissue t s) = .next u ∧ ∀ {γ : Type} (φ : State → γ), Blind φ [.fresh, .dict, .errName, .out, .lattice, .cxl, .ch, .bank, .lg] → see φ u = see φ (State.at s t) := by
  unfold execReissue
  simp only []
  (repeat' split) <;> exact ⟨_, rfl, fun φ hb => by simp (disch := exact hb.mono rfl)⟩

@[simp ↓] theorem State.discardLedger_see {γ : Type} (φ : State → γ) (hb : Blind φ [.dict, .lg]) (s : State) :
    see φ (State.discardLedger s) = see φ s := by
  unfold State.discardLedger
  (repeat' split) <;> simp (disch := exact hb.mono rfl)

theorem execLgDiscard_next (t : Nat) (path : Path) (value : List Byte) (s : State) :
    ∃ u, (execLgDiscard t path value s) = .next u ∧ ∀ {γ : Type} (φ : State → γ), Blind φ [.dict, .out, .access, .lg] → see φ u = see φ (State.at s t) := by
  unfold execLgDiscard
  simp only []
  (repeat' split) <;> exact ⟨_, rfl, fun φ hb => by simp (disch := exact hb.mono rfl)⟩

theorem execMirrorEntry_next (t : Nat) (link : Fin 2) (acks : Bool) (payload : List Byte) (s : State) :
    ∃ u, (execMirrorEntry t link acks payload s) = .next u ∧ ∀ {γ : Type} (φ : State → γ), Blind φ [.fresh, .dict, .out, .ch, .lg] → see φ u = see φ (State.at s t) := by
  unfold execMirrorEntry
  simp only []
  (repeat' split) <;> exact ⟨_, rfl, fun φ hb => by simp (disch := exact hb.mono rfl)⟩

theorem execMirrorConfirm_next (t : Nat) (link : Fin 2) (seq : Nat) (s : State) :
    ∃ u, (execMirrorConfirm t link seq s) = .next u ∧ ∀ {γ : Type} (φ : State → γ), Blind φ [.dict, .lg] → see φ u = see φ (State.at s t) := by
  unfold execMirrorConfirm
  simp only []
  (repeat' split) <;> exact ⟨_, rfl, fun φ hb => by simp (disch := exact hb.mono rfl)⟩

theorem execMirrorConfirmTimeout_next (t : Nat) (s : State) :
    ∃ u, (execMirrorConfirmTimeout t s) = .next u ∧ ∀ {γ : Type} (φ : State → γ), Blind φ [.dict] → see φ u = see φ (State.at s t) := by
  unfold execMirrorConfirmTimeout
  exact ⟨_, rfl, fun φ hb => by simp (disch := exact hb.mono rfl)⟩

end Sys2Proof.Machine
end

