-- ==== Sys2Proof/Laws/Host.lean ====
section
/-! SUPPORT. What each operation of Machine/Host.lean leaves alone, and that each of its commands goes on. -/

set_option maxRecDepth 4000
set_option linter.unusedSimpArgs false

namespace Sys2Proof.Machine

open Sys2Proof

@[simp ↓] theorem State.setIde_see {γ : Type} (φ : State → γ) (hb : Blind φ [.dict, .cxl]) (s : State) (l : List Bool) :
    see φ (State.setIde s l) = see φ s := by
  unfold State.setIde
  (repeat' split) <;> simp (disch := exact hb.mono rfl)

@[simp ↓] theorem State.flushVectors_see {γ : Type} (φ : State → γ) (hb : Blind φ [.out, .cxl]) (s : State) :
    see φ (State.flushVectors s) = see φ s := by
  unfold State.flushVectors
  (repeat' split) <;> simp (disch := exact hb.mono rfl) <;> (repeat rw [foldl_see]) <;> intros <;> (repeat' split) <;> simp (disch := exact hb.mono rfl)

theorem execCxlLinkUp_next (t : Nat) (width : Fin 17) (rate : Fin 5) (report : LinkReport) (s : State) :
    ∃ u, (execCxlLinkUp t width rate report s) = .next u ∧ ∀ {γ : Type} (φ : State → γ), Blind φ [.fresh, .dict, .errName, .out, .lattice, .cxl, .cont] → see φ u = see φ (State.at s t) := by
  unfold execCxlLinkUp
  simp only []
  (repeat' split) <;> exact ⟨_, rfl, fun φ hb => by simp (disch := exact hb.mono rfl)⟩

theorem execCxlLinkRecovery_next (t : Nat) (s : State) :
    ∃ u, (execCxlLinkRecovery t s) = .next u ∧ ∀ {γ : Type} (φ : State → γ), Blind φ [.fresh, .dict, .cxl] → see φ u = see φ (State.at s t) := by
  unfold execCxlLinkRecovery
  simp only []
  (repeat' split) <;> exact ⟨_, rfl, fun φ hb => by simp (disch := exact hb.mono rfl)⟩

@[simp ↓] theorem State.linkLost_see {γ : Type} (φ : State → γ) (hb : Blind φ [.fresh, .dict, .errName, .out, .lattice, .cxl, .cont]) (s : State) :
    see φ (State.linkLost s) = see φ s := by
  unfold State.linkLost
  (repeat' split) <;> simp (disch := exact hb.mono rfl)

theorem execIdeKeyProgram_next (t : Nat) (io : Option Nat) (cache mem : Option IdeMode) (s : State) :
    ∃ u, (execIdeKeyProgram t io cache mem s) = .next u ∧ ∀ {γ : Type} (φ : State → γ), Blind φ [.dict, .cxl] → see φ u = see φ (State.at s t) := by
  unfold execIdeKeyProgram
  simp only []
  (repeat' split) <;> exact ⟨_, rfl, fun φ hb => by simp (disch := exact hb.mono rfl)⟩

theorem execCauseClear_next (t : Nat) (mask : Nat) (s : State) :
    ∃ u, (execCauseClear t mask s) = .next u ∧ ∀ {γ : Type} (φ : State → γ), Blind φ [.cxl] → see φ u = see φ (State.at s t) := by
  unfold execCauseClear
  exact ⟨_, rfl, fun φ hb => by simp (disch := exact hb.mono rfl)⟩

theorem execMsixUnmask_next (t : Nat) (entry : MsixEntry) (s : State) :
    ∃ u, (execMsixUnmask t entry s) = .next u ∧ ∀ {γ : Type} (φ : State → γ), Blind φ [.out, .cxl] → see φ u = see φ (State.at s t) := by
  unfold execMsixUnmask
  exact ⟨_, rfl, fun φ hb => by simp (disch := exact hb.mono rfl)⟩

theorem execWindowWrite_next (t : Nat) (address : Nat) (data : List Byte) (s : State)
    (h : address + data.length ≤ s.rdN Obj.CX_HDM_SIZE) :
    ∃ u, (execWindowWrite t address data s) = .next u ∧
      ∀ {γ : Type} (φ : State → γ), Blind φ [.fresh, .dict, .mem, .dramBad] → see φ u = see φ (State.at s t) := by
  have h' : ¬ (s.at t).rdN Obj.CX_HDM_SIZE < address + data.length := Nat.not_lt.mpr h
  unfold execWindowWrite
  simp only []
  split
  · exact ⟨_, rfl, fun φ hb => rfl⟩
  · (try rw [if_neg h'])
    split <;> exact ⟨_, rfl, fun φ hb => by simp (disch := exact hb.mono rfl)⟩

@[simp ↓] theorem State.track_see {γ : Type} (φ : State → γ) (hb : Blind φ [.out, .cxl]) (s : State) (l : Nat) :
    see φ (State.track s l) = see φ s := by
  unfold State.track
  simp only []
  (repeat' split) <;> simp (disch := exact hb.mono rfl) <;> (repeat' split) <;> simp (disch := exact hb.mono rfl)

@[simp ↓] theorem State.trackLines_see {γ : Type} (φ : State → γ) (hb : Blind φ [.out, .cxl]) (s : State) (a n : Nat) :
    see φ (State.trackLines s a n) = see φ s := by
  unfold State.trackLines
  (try simp only [])
  repeat' first | with_reducible rfl | split | (rw [foldl_see]) | (rw [foldl_fst_see]) | intro _ | simp (disch := exact hb.mono rfl)

theorem execWindowRead_next (t : Nat) (address length : Nat) (errors : List DramError) (s : State)
    (h : address + length ≤ s.rdN Obj.CX_HDM_SIZE) :
    ∃ u, (execWindowRead t address length errors s) = .next u ∧
      ∀ {γ : Type} (φ : State → γ), Blind φ [.fresh, .dict, .blobs, .errName, .out, .mem, .lost, .dramBad, .dram, .lattice, .cxl, .cams, .rc, .atl, .cont, .slots, .hist, .rt] → see φ u = see φ (State.at s t) := by
  have h' : ¬ (s.at t).rdN Obj.CX_HDM_SIZE < address + length := Nat.not_lt.mpr h
  unfold execWindowRead
  simp only []
  split
  · exact ⟨_, rfl, fun φ hb => rfl⟩
  · (try rw [if_neg h'])
    split <;> exact ⟨_, rfl, fun φ hb => by simp (disch := exact hb.mono rfl)⟩

end Sys2Proof.Machine
end

