-- ==== Sys2Proof/Laws/Dma.lean ====
section
/-! SUPPORT. What each operation of Machine/Dma.lean leaves alone, and that each of its commands goes on. -/

set_option maxRecDepth 4000
set_option linter.unusedSimpArgs false

namespace Sys2Proof.Machine

open Sys2Proof

@[simp ↓] theorem State.setDma_see {γ : Type} (φ : State → γ) (hb : Blind φ [.cxl]) (s : State) (n : Nat) (v : DmaChannel) :
    see φ (State.setDma s n v) = see φ s := by
  unfold State.setDma
  (repeat' split) <;> simp (disch := exact hb.mono rfl)

@[simp ↓] theorem State.setEngines_see {γ : Type} (φ : State → γ) (hb : Blind φ [.dict, .cxl]) (s : State) (l : List (Nat × Nat × Nat)) :
    see φ (State.setEngines s l) = see φ s := by
  unfold State.setEngines
  (repeat' split) <;> simp (disch := exact hb.mono rfl)

@[simp ↓] theorem State.feedEngine_see {γ : Type} (φ : State → γ) (hb : Blind φ [.dict, .cxl]) (s : State) (e : Nat) :
    see φ (State.feedEngine s e) = see φ s := by
  unfold State.feedEngine
  (repeat' split) <;> simp (disch := exact hb.mono rfl)

@[simp ↓] theorem State.feedEngines_see {γ : Type} (φ : State → γ) (hb : Blind φ [.dict, .cxl]) (s : State) :
    see φ (State.feedEngines s) = see φ s := by
  unfold State.feedEngines
  (repeat' split) <;> simp (disch := exact hb.mono rfl)

@[simp ↓] theorem State.dmaVector_see {γ : Type} (φ : State → γ) (hb : Blind φ [.out, .cxl]) (s : State) (n : Nat) (on : Bool) :
    see φ (State.dmaVector s n on) = see φ s := by
  unfold State.dmaVector
  (repeat' split) <;> simp (disch := exact hb.mono rfl)

@[simp ↓] theorem State.dmaEnd_see {γ : Type} (φ : State → γ) (hb : Blind φ [.fresh, .dict, .errName, .out, .lattice, .cxl]) (s : State) (n : Nat) (j : DmaJob) (code : Nat) (full : Bool) :
    see φ (State.dmaEnd s n j code full) = see φ s := by
  unfold State.dmaEnd
  (repeat' split) <;> simp (disch := exact hb.mono rfl)

@[simp ↓] theorem State.dmaValidate_see {γ : Type} (φ : State → γ) (hb : Blind φ [.fresh, .dict, .errName, .out, .lattice, .cxl]) (s : State) (n : Nat) (elements : List (List Byte)) (cut : Bool) :
    see φ (State.dmaValidate s n elements cut) = see φ s := by
  unfold State.dmaValidate
  simp only []
  (repeat' split) <;> simp (disch := exact hb.mono rfl) <;> (repeat' split) <;> simp (disch := exact hb.mono rfl)

@[simp ↓] theorem State.dmaTakeOne_see {γ : Type} (φ : State → γ) (hb : Blind φ [.fresh, .dict, .errName, .out, .lattice, .cxl]) (s : State) (n : Nat) :
    see φ (State.dmaTakeOne s n) = see φ s := by
  unfold State.dmaTakeOne
  simp only []
  (repeat' split) <;> simp (disch := exact hb.mono rfl) <;> (repeat' split) <;> simp (disch := exact hb.mono rfl)

@[simp ↓] theorem State.dmaCommit_see {γ : Type} (φ : State → γ) (hb : Blind φ [.fresh, .dict, .errName, .out, .lattice, .cxl]) (s : State) (n : Nat) :
    see φ (State.dmaCommit s n) = see φ s := by
  unfold State.dmaCommit
  (repeat' split) <;> simp (disch := exact hb.mono rfl)

@[simp ↓] theorem State.dmaFinish_see {γ : Type} (φ : State → γ) (hb : Blind φ [.fresh, .dict, .errName, .out, .lattice, .cxl]) (s : State) (n : Nat) (j : DmaJob) (code : Nat) (full : Bool) :
    see φ (State.dmaFinish s n j code full) = see φ s := by
  unfold State.dmaFinish
  (repeat' split) <;> simp (disch := exact hb.mono rfl)

theorem execDmaCommit_next (t : Nat) (channel : Fin 32) (block : DmaBlockWrite) (s : State) :
    ∃ u, (execDmaCommit t channel block s) = .next u ∧ ∀ {γ : Type} (φ : State → γ), Blind φ [.fresh, .dict, .errName, .out, .lattice, .cxl] → see φ u = see φ (State.at s t) := by
  unfold execDmaCommit
  simp only []
  (repeat' split) <;> exact ⟨_, rfl, fun φ hb => by simp (disch := exact hb.mono rfl)⟩

theorem execDmaListFetched_next (t : Nat) (channel : Fin 32) (elements : List (List Byte)) (s : State) :
    ∃ u, (execDmaListFetched t channel elements s) = .next u ∧ ∀ {γ : Type} (φ : State → γ), Blind φ [.fresh, .dict, .errName, .out, .lattice, .cxl] → see φ u = see φ (State.at s t) := by
  unfold execDmaListFetched
  simp only []
  (repeat' split) <;> exact ⟨_, rfl, fun φ hb => by simp (disch := exact hb.mono rfl)⟩

@[simp ↓] theorem State.dmaWrite_see {γ : Type} (φ : State → γ) (hb : Blind φ [.out, .mem, .dramBad, .cxl]) (s : State) (device : Bool) (a : Nat) (b : List Byte) :
    see φ (State.dmaWrite s device a b) = see φ s := by
  unfold State.dmaWrite
  (repeat' split) <;> simp (disch := exact hb.mono rfl)

@[simp ↓] theorem State.dmaAsk_see {γ : Type} (φ : State → γ) (hb : Blind φ [.out]) (s : State) (device : Bool) (l : List (Nat × Nat × Nat)) :
    see φ (State.dmaAsk s device l) = see φ s := by
  unfold State.dmaAsk
  (repeat' split) <;> simp (disch := exact hb.mono rfl)

@[simp ↓] theorem State.dmaPut_see {γ : Type} (φ : State → γ) (hb : Blind φ [.out, .mem, .dramBad, .cxl]) (s : State) (device : Bool) (l : List (Nat × Nat × Nat)) (data : List Byte) :
    see φ (State.dmaPut s device l data) = see φ s := by
  induction l generalizing s data with
  | nil => rfl
  | cons x r ih =>
    obtain ⟨a, b, c⟩ := x
    simp (disch := exact hb.mono rfl) [State.dmaPut, ih]

@[simp ↓] theorem State.dmaAdvance_see {γ : Type} (φ : State → γ) (hb : Blind φ [.out, .mem, .dramBad, .cxl]) (s : State) (n moved : Nat) (data : List Byte) :
    see φ (State.dmaAdvance s n moved data) = see φ s := by
  unfold State.dmaAdvance
  (repeat' split) <;> simp (disch := exact hb.mono rfl)

@[simp ↓] theorem State.dmaStage_see {γ : Type} (φ : State → γ) (hb : Blind φ [.out, .cxl]) (s : State) (n count : Nat) (data : List Byte) :
    see φ (State.dmaStage s n count data) = see φ s := by
  unfold State.dmaStage
  (repeat' split) <;> simp (disch := exact hb.mono rfl)

@[simp ↓] theorem State.dmaHalf_see {γ : Type} (φ : State → γ) (hb : Blind φ [.out, .cxl]) (s : State) (n : Nat) :
    see φ (State.dmaHalf s n) = see φ s := by
  unfold State.dmaHalf
  simp only []
  (repeat' split) <;> simp (disch := exact hb.mono rfl) <;> (repeat' split) <;> simp (disch := exact hb.mono rfl)

@[simp ↓] theorem State.dmaProgress_see {γ : Type} (φ : State → γ) (hb : Blind φ [.out, .mem, .dramBad, .cxl]) (s : State) (p : DmaProgress) :
    see φ (State.dmaProgress s p) = see φ s := by
  unfold State.dmaProgress
  simp only []
  (repeat' split) <;> simp (disch := exact hb.mono rfl) <;> (repeat' split) <;> simp (disch := exact hb.mono rfl)

@[simp ↓] theorem State.dmaRun_see {γ : Type} (φ : State → γ) (hb : Blind φ [.cxl]) (s : State) (n mover : Nat) :
    see φ (State.dmaRun s n mover) = see φ s := by
  unfold State.dmaRun
  (repeat' split) <;> simp (disch := exact hb.mono rfl)

@[simp ↓] theorem State.czWrite_see {γ : Type} (φ : State → γ) (hb : Blind φ [.fresh, .dict, .out, .mem, .dramBad, .cxl]) (s : State) (n engine : Nat) (j : DmaJob) (src b : List Byte) (stored : Bool) :
    see φ (State.czWrite s n engine j src b stored) = see φ s := by
  unfold State.czWrite
  (repeat' split) <;> simp (disch := exact hb.mono rfl)

@[simp ↓] theorem State.czTake_see {γ : Type} (φ : State → γ) (hb : Blind φ [.fresh, .dict, .errName, .out, .mem, .dramBad, .lattice, .cxl]) (s : State) (n : Nat) (j : DmaJob) (x : CzBlock) :
    see φ (State.czTake s n j x) = see φ s := by
  unfold State.czTake
  (repeat' split) <;> simp (disch := exact hb.mono rfl)

@[simp ↓] theorem State.czFlush_see {γ : Type} (φ : State → γ) (hb : Blind φ [.fresh, .dict, .errName, .out, .mem, .dramBad, .lattice, .cxl]) (s : State) (fuel n : Nat) :
    see φ (State.czFlush s fuel n) = see φ s := by
  induction fuel generalizing s with
  | zero => rfl
  | succ f ih =>
    unfold State.czFlush
    (repeat' split) <;> first | rfl | simp (disch := exact hb.mono rfl) [ih]

@[simp ↓] theorem State.dmaStart_see {γ : Type} (φ : State → γ) (hb : Blind φ [.fresh, .dict, .errName, .out, .mem, .dramBad, .lattice, .cxl]) (s : State) (n mover : Nat) :
    see φ (State.dmaStart s n mover) = see φ s := by
  unfold State.dmaStart
  (repeat' split) <;> simp (disch := exact hb.mono rfl)

theorem execDmaMoverGrant_next (t : Nat) (toHost : Bool) (victim : Option DmaProgress) (s : State) :
    ∃ u, (execDmaMoverGrant t toHost victim s) = .next u ∧ ∀ {γ : Type} (φ : State → γ), Blind φ [.fresh, .dict, .errName, .out, .mem, .dramBad, .lattice, .cxl] → see φ u = see φ (State.at s t) := by
  unfold execDmaMoverGrant
  simp only []
  (repeat' split) <;> exact ⟨_, rfl, fun φ hb => by simp (disch := exact hb.mono rfl)⟩

theorem execDmaHalf_next (t : Nat) (channel : Fin 32) (data : List Byte) (s : State) :
    ∃ u, (execDmaHalf t channel data s) = .next u ∧ ∀ {γ : Type} (φ : State → γ), Blind φ [.out, .mem, .dramBad, .cxl] → see φ u = see φ (State.at s t) := by
  unfold execDmaHalf
  simp only []
  (repeat' split) <;> exact ⟨_, rfl, fun φ hb => by simp (disch := exact hb.mono rfl)⟩

@[simp ↓] theorem State.dmaCheck_see {γ : Type} (φ : State → γ) (hb : Blind φ [.out, .mem, .dramBad, .cxl]) (s : State) (j : DmaJob) :
    see φ (State.dmaCheck s j) = see φ s := by
  unfold State.dmaCheck
  (repeat' split) <;> simp (disch := exact hb.mono rfl)

@[simp ↓] theorem State.dmaMeet_see {γ : Type} (φ : State → γ) (hb : Blind φ [.fresh, .dict, .blobs, .errName, .out, .mem, .lost, .dramBad, .dram, .lattice, .cxl, .cams, .rc, .atl, .cont, .slots, .hist, .rt]) (s : State) (j : DmaJob) (fault : Option ReadFault) :
    see φ (State.dmaMeet s j fault) = see φ s := by
  unfold State.dmaMeet
  (repeat' split) <;> simp (disch := exact hb.mono rfl)

theorem execDmaJobDone_next (t : Nat) (channel : Fin 32) (data : List Byte) (sourceError : Option (Nat × ReadFault)) (s : State) :
    ∃ u, (execDmaJobDone t channel data sourceError s) = .next u ∧ ∀ {γ : Type} (φ : State → γ), Blind φ [.fresh, .dict, .blobs, .errName, .out, .mem, .lost, .dramBad, .dram, .lattice, .cxl, .cams, .rc, .atl, .cont, .slots, .hist, .rt] → see φ u = see φ (State.at s t) := by
  unfold execDmaJobDone
  simp only []
  (repeat' split) <;> exact ⟨_, rfl, fun φ hb => by simp (disch := exact hb.mono rfl)⟩

theorem execDmaDestError_next (t : Nat) (channel : Fin 32) (progress : Option DmaProgress) (s : State) :
    ∃ u, (execDmaDestError t channel progress s) = .next u ∧ ∀ {γ : Type} (φ : State → γ), Blind φ [.fresh, .dict, .errName, .out, .mem, .dramBad, .lattice, .cxl] → see φ u = see φ (State.at s t) := by
  unfold execDmaDestError
  simp only []
  (repeat' split) <;> exact ⟨_, rfl, fun φ hb => by simp (disch := exact hb.mono rfl)⟩

theorem execDmaAbort_next (t : Nat) (channel : Fin 32) (progress : Option DmaProgress) (s : State) :
    ∃ u, (execDmaAbort t channel progress s) = .next u ∧ ∀ {γ : Type} (φ : State → γ), Blind φ [.fresh, .dict, .errName, .out, .mem, .dramBad, .lattice, .cxl] → see φ u = see φ (State.at s t) := by
  unfold execDmaAbort
  simp only []
  (repeat' split) <;> exact ⟨_, rfl, fun φ hb => by simp (disch := exact hb.mono rfl)⟩

@[simp ↓] theorem State.dmaReset_see {γ : Type} (φ : State → γ) (hb : Blind φ [.fresh, .dict, .cxl]) (s : State) :
    see φ (State.dmaReset s) = see φ s := by
  unfold State.dmaReset
  (repeat' split) <;> simp (disch := exact hb.mono rfl) <;> (repeat rw [foldl_see]) <;> intros <;> (repeat' split) <;> simp (disch := exact hb.mono rfl)

theorem execFunctionLevelReset_next (t : Nat) (s : State) :
    ∃ u, (execFunctionLevelReset t s) = .next u ∧ ∀ {γ : Type} (φ : State → γ), Blind φ [.fresh, .dict, .cxl] → see φ u = see φ (State.at s t) := by
  unfold execFunctionLevelReset
  exact ⟨_, rfl, fun φ hb => by simp (disch := exact hb.mono rfl)⟩

@[simp ↓] theorem State.dmaLinkDown_see {γ : Type} (φ : State → γ) (hb : Blind φ [.fresh, .dict, .errName, .out, .lattice, .cxl]) (s : State) :
    see φ (State.dmaLinkDown s) = see φ s := by
  unfold State.dmaLinkDown
  (repeat' split) <;> simp (disch := exact hb.mono rfl) <;> (repeat rw [foldl_see]) <;> intros <;> (repeat' split) <;> simp (disch := exact hb.mono rfl)

theorem execCxlLinkDown_next (t : Nat) (progress : List DmaProgress) (s : State) :
    ∃ u, (execCxlLinkDown t progress s) = .next u ∧ ∀ {γ : Type} (φ : State → γ), Blind φ [.fresh, .dict, .errName, .out, .mem, .dramBad, .lattice, .cxl, .cont] → see φ u = see φ (State.at s t) := by
  unfold execCxlLinkDown
  simp only []
  (repeat' split) <;> refine ⟨_, rfl, fun φ hb => ?_⟩ <;> simp (disch := exact hb.mono rfl) <;> (repeat rw [foldl_see]) <;> intros <;> (repeat' split) <;> simp (disch := exact hb.mono rfl)

theorem execIdeCheckFail_next (t : Nat) (s : State) :
    ∃ u, (execIdeCheckFail t s) = .next u ∧ ∀ {γ : Type} (φ : State → γ), Blind φ [.fresh, .dict, .errName, .out, .lattice, .cxl, .cont] → see φ u = see φ (State.at s t) := by
  unfold execIdeCheckFail
  simp only []
  (repeat' split) <;> exact ⟨_, rfl, fun φ hb => by simp (disch := exact hb.mono rfl)⟩

theorem execCzBlockDone_next (t : Nat) (channel : Fin 32) (engine : Fin 4) (data : List Byte) (sourceError : Option ReadFault) (verifyFail : Bool) (s : State) :
    ∃ u, (execCzBlockDone t channel engine data sourceError verifyFail s) = .next u ∧ ∀ {γ : Type} (φ : State → γ), Blind φ [.fresh, .dict, .blobs, .errName, .out, .mem, .lost, .dramBad, .dram, .lattice, .cxl, .cams, .rc, .atl, .cont, .slots, .hist, .rt] → see φ u = see φ (State.at s t) := by
  unfold execCzBlockDone
  simp only []
  (repeat' split) <;> exact ⟨_, rfl, fun φ hb => by simp (disch := exact hb.mono rfl)⟩

@[simp ↓] theorem State.cxlReset_see {γ : Type} (φ : State → γ) (hb : Blind φ [.fresh, .dict, .errName, .out, .lattice, .cxl, .lg, .cont]) (s : State) :
    see φ (State.cxlReset s) = see φ s := by
  unfold State.cxlReset
  (repeat' split) <;> simp (disch := exact hb.mono rfl)

theorem execCxlPerst_next (t : Nat) (high : Bool) (s : State) :
    ∃ u, (execCxlPerst t high s) = .next u ∧ ∀ {γ : Type} (φ : State → γ), Blind φ [.fresh, .dict, .errName, .out, .lattice, .cxl, .lg, .cont] → see φ u = see φ (State.at s t) := by
  unfold execCxlPerst
  simp only []
  (repeat' split) <;> exact ⟨_, rfl, fun φ hb => by simp (disch := exact hb.mono rfl)⟩

end Sys2Proof.Machine
end

