-- ==== Sys2Proof/Laws/Bar.lean ====
section
/-! SUPPORT. What each operation of Machine/Bar.lean leaves alone, and that each of its commands goes on. -/

set_option maxRecDepth 4000
set_option linter.unusedSimpArgs false

namespace Sys2Proof.Machine

open Sys2Proof



end Sys2Proof.Machine
end

