-- ==== Sys2Proof/Laws/Dram.lean ====
section
/-! SUPPORT. What each operation of Machine/Dram.lean leaves alone, and that each of its commands goes on. -/

set_option maxRecDepth 4000
set_option linter.unusedSimpArgs false

namespace Sys2Proof.Machine

open Sys2Proof

theorem execRefreshDue_next (t : Nat) (channel : Fin 8) (events : List BankEvent) (running : Bool) (burst : List (Fin 16)) (hot : Bool) (s : State) :
    ∃ u, (execRefreshDue t channel events running burst hot s) = .next u ∧ ∀ {γ : Type} (φ : State → γ), Blind φ [.fresh, .dict, .dram] → see φ u = see φ (State.at s t) := by
  unfold execRefreshDue
  simp only []
  (repeat' split) <;> exact ⟨_, rfl, fun φ hb => by simp (disch := exact hb.mono rfl)⟩

theorem execDrChannelFault_next (t : Nat) (loss : ChannelLoss) (s : State) :
    ∃ u, (execDrChannelFault t loss s) = .next u ∧ ∀ {γ : Type} (φ : State → γ), Blind φ [.fresh, .dict, .blobs, .errName, .out, .mem, .lost, .dramBad, .dram, .lattice, .cxl, .cams, .rc, .atl, .cont, .slots, .hist, .rt] → see φ u = see φ (State.at s t) := by
  unfold execDrChannelFault
  simp only []
  (repeat' split) <;> exact ⟨_, rfl, fun φ hb => by simp (disch := exact hb.mono rfl)⟩

theorem execDramRemapDone_next (t : Nat) (s : State) :
    ∃ u, (execDramRemapDone t s) = .next u ∧ ∀ {γ : Type} (φ : State → γ), Blind φ [.dict, .atl] → see φ u = see φ (State.at s t) := by
  unfold execDramRemapDone
  simp only []
  (repeat' split) <;> exact ⟨_, rfl, fun φ hb => by simp (disch := exact hb.mono rfl)⟩

@[simp ↓] theorem State.dramPreop_see {γ : Type} (φ : State → γ) (hb : Blind φ [.fresh, .dict, .blobs, .errName, .out, .mem, .lost, .dramBad, .dram, .lattice, .cxl, .cams, .rc, .atl, .cont, .slots, .hist, .rt]) (s : State) :
    see φ (State.dramPreop s) = see φ s := by
  unfold State.dramPreop
  (repeat' split) <;> simp (disch := exact hb.mono rfl) <;> (repeat rw [foldl_see]) <;> intros <;> (repeat' split) <;> simp (disch := exact hb.mono rfl)

theorem execDramScrubPass_next (t : Nat) (late : Bool) (errors : List DramError) (s : State) :
    ∃ u, (execDramScrubPass t late errors s) = .next u ∧ ∀ {γ : Type} (φ : State → γ), Blind φ [.fresh, .dict, .blobs, .errName, .out, .mem, .lost, .dramBad, .dram, .scrubFrom, .lattice, .cxl, .cams, .rc, .atl, .cont, .slots, .hist, .rt] → see φ u = see φ (State.at s t) := by
  unfold execDramScrubPass
  simp only []
  (repeat' split) <;> exact ⟨_, rfl, fun φ hb => by simp (disch := exact hb.mono rfl)⟩

theorem execDramRequestTimeout_next (t : Nat) (error : DramError) (s : State) :
    ∃ u, (execDramRequestTimeout t error s) = .next u ∧ ∀ {γ : Type} (φ : State → γ), Blind φ [.fresh, .dict, .blobs, .errName, .out, .mem, .lost, .dramBad, .dram, .lattice, .cxl, .cams, .rc, .atl, .cont, .slots, .hist, .rt] → see φ u = see φ (State.at s t) := by
  unfold execDramRequestTimeout
  exact ⟨_, rfl, fun φ hb => by simp (disch := exact hb.mono rfl)⟩

theorem execDramCalibrate_next (t : Nat) (channel : Fin 8) (drift : Fin 3) (s : State) :
    ∃ u, (execDramCalibrate t channel drift s) = .next u ∧ ∀ {γ : Type} (φ : State → γ), Blind φ [.fresh, .dict, .blobs, .errName, .out, .mem, .lost, .dramBad, .dram, .lattice, .cxl, .cams, .rc, .atl, .cont, .slots, .hist, .rt] → see φ u = see φ (State.at s t) := by
  unfold execDramCalibrate
  simp only []
  (repeat' split) <;> exact ⟨_, rfl, fun φ hb => by simp (disch := exact hb.mono rfl)⟩

@[simp ↓] theorem State.dramArm_see {γ : Type} (φ : State → γ) (hb : Blind φ [.dict]) (s : State) :
    see φ (State.dramArm s) = see φ s := by
  unfold State.dramArm
  (repeat' split) <;> simp (disch := exact hb.mono rfl)

end Sys2Proof.Machine
end

