-- ==== Sys2Proof/Laws/Meridian.lean ====
section
/-! SUPPORT. What each operation of Machine/Meridian.lean leaves alone, and that each of its commands goes on. -/

set_option maxRecDepth 4000
set_option linter.unusedSimpArgs false

namespace Sys2Proof.Machine

open Sys2Proof

@[simp ↓] theorem State.merMedium_see {γ : Type} (φ : State → γ) (hb : Blind φ [.fresh, .dict, .errName, .out, .lattice, .cxl]) (s : State) :
    see φ (State.merMedium s) = see φ s := by
  unfold State.merMedium
  (repeat' split) <;> simp (disch := exact hb.mono rfl)

theorem execMerLinkLoss_next (t : Nat) (port : Fin 2) (s : State) :
    ∃ u, (execMerLinkLoss t port s) = .next u ∧ ∀ {γ : Type} (φ : State → γ), Blind φ [.fresh, .dict, .errName, .out, .lattice, .cxl, .cont] → see φ u = see φ (State.at s t) := by
  unfold execMerLinkLoss
  simp only []
  (repeat' split) <;> exact ⟨_, rfl, fun φ hb => by simp (disch := exact hb.mono rfl)⟩

@[simp ↓] theorem State.merPowerOn_see {γ : Type} (φ : State → γ) (hb : Blind φ [.dict, .mer]) (s : State) (cages : List Nat) :
    see φ (State.merPowerOn s cages) = see φ s := by
  unfold State.merPowerOn
  (repeat' split) <;> simp (disch := exact hb.mono rfl)

theorem execMerLinkUp_next (t : Nat) (port : Fin 2) (fibre : Bool) (s : State) :
    ∃ u, (execMerLinkUp t port fibre s) = .next u ∧ ∀ {γ : Type} (φ : State → γ), Blind φ [.fresh, .dict, .errName, .out, .lattice, .cxl, .cont, .mer] → see φ u = see φ (State.at s t) := by
  unfold execMerLinkUp
  simp only []
  (repeat' split) <;> exact ⟨_, rfl, fun φ hb => by simp (disch := exact hb.mono rfl)⟩

@[simp ↓] theorem State.setAligned_see {γ : Type} (φ : State → γ) (hb : Blind φ [.fresh, .dict, .errName, .out, .draws, .lattice, .cxl, .tim, .mer]) (s : State) (v : Bool) :
    see φ (State.setAligned s v) = see φ s := by
  unfold State.setAligned
  (repeat' split) <;> simp (disch := exact hb.mono rfl)

@[simp ↓] theorem State.rateTrim_see {γ : Type} (φ : State → γ) (hb : Blind φ [.dict, .draws]) (s : State) (integ e : Int) :
    see φ (State.rateTrim s integ e) = see φ s := by
  unfold State.rateTrim
  (repeat' split) <;> simp (disch := exact hb.mono rfl)

@[simp ↓] theorem State.correct_see {γ : Type} (φ : State → γ) (hb : Blind φ [.now, .dict, .draws, .mer]) (s : State) (e : Int) :
    see φ (State.correct s e) = see φ s := by
  unfold State.correct
  (repeat' split) <;> simp (disch := exact hb.mono rfl)

@[simp ↓] theorem State.alignRun_see {γ : Type} (φ : State → γ) (hb : Blind φ [.fresh, .dict, .errName, .out, .draws, .lattice, .cxl, .tim, .mer]) (s : State) (e : Int) :
    see φ (State.alignRun s e) = see φ s := by
  unfold State.alignRun
  (repeat' split) <;> simp (disch := exact hb.mono rfl)

theorem execMerTimeTimeout_next (t : Nat) (s : State) :
    ∃ u, (execMerTimeTimeout t s) = .next u ∧ ∀ {γ : Type} (φ : State → γ), Blind φ [.fresh, .dict, .errName, .out, .draws, .lattice, .cxl, .tim, .mer] → see φ u = see φ (State.at s t) := by
  unfold execMerTimeTimeout
  simp only []
  (repeat' split) <;> exact ⟨_, rfl, fun φ hb => by simp (disch := exact hb.mono rfl)⟩

theorem execMerWatchdog_next (t : Nat) (s : State) :
    ∃ u, (execMerWatchdog t s) = .next u ∧ ∀ {γ : Type} (φ : State → γ), Blind φ [.fresh, .dict, .errName, .out, .draws, .lattice, .cxl, .tim, .holdBy] → see φ u = see φ (State.at s t) := by
  unfold execMerWatchdog
  simp only []
  (repeat' split) <;> exact ⟨_, rfl, fun φ hb => by simp (disch := exact hb.mono rfl)⟩

end Sys2Proof.Machine
end

