-- ==== Sys2Proof/Laws/Monitors.lean ====
section
/-! SUPPORT. What each operation of Machine/Monitors.lean leaves alone, and that each of its commands goes on. -/

set_option maxRecDepth 4000
set_option linter.unusedSimpArgs false

namespace Sys2Proof.Machine

open Sys2Proof

@[simp ↓] theorem State.setAm_see {γ : Type} (φ : State → γ) (hb : Blind φ [.am]) (s : State) (n : Nat) (v : AmChannel) :
    see φ (State.setAm s n v) = see φ s := by
  unfold State.setAm
  (repeat' split) <;> simp (disch := exact hb.mono rfl)

@[simp ↓] theorem State.i32_see {γ : Type} (φ : State → γ) (hb : Blind φ [.draws]) (s : State) (v : Int) :
    see φ (State.i32 s v).1 = see φ s := by
  unfold State.i32
  (repeat' split) <;> simp (disch := exact hb.mono rfl)

@[simp ↓] theorem State.u64_see {γ : Type} (φ : State → γ) (hb : Blind φ [.draws]) (s : State) (v : Nat) :
    see φ (State.u64 s v).1 = see φ s := by
  unfold State.u64
  (repeat' split) <;> simp (disch := exact hb.mono rfl)

@[simp ↓] theorem State.amReport_see {γ : Type} (φ : State → γ) (hb : Blind φ [.fresh, .dict, .errName, .out, .draws, .lattice, .cxl, .tim, .ch, .bank, .lg, .holdBy]) (s : State) (n : Nat) :
    see φ (State.amReport s n) = see φ s := by
  unfold State.amReport
  (repeat' split) <;> simp (disch := exact hb.mono rfl)

@[simp ↓] theorem State.pressTake_see {γ : Type} (φ : State → γ) (hb : Blind φ [.am]) (s : State) (n : Nat) :
    see φ (State.pressTake s n) = see φ s := by
  unfold State.pressTake
  (repeat' split) <;> simp (disch := exact hb.mono rfl)

@[simp ↓] theorem State.amCompare_see {γ : Type} (φ : State → γ) (hb : Blind φ [.fresh, .dict, .errName, .out, .draws, .lattice, .cxl, .tim, .ch, .bank, .lg, .holdBy, .am]) (s : State) (n : Nat) (v : Int) :
    see φ (State.amCompare s n v) = see φ s := by
  unfold State.amCompare
  (repeat' split) <;> simp (disch := exact hb.mono rfl)

@[simp ↓] theorem State.amDetect_see {γ : Type} (φ : State → γ) (hb : Blind φ [.dict, .draws]) (s : State) (n : Nat) (v : Int) :
    see φ (State.amDetect s n v) = see φ s := by
  unfold State.amDetect
  (repeat' split) <;> simp (disch := exact hb.mono rfl)

@[simp ↓] theorem State.amPublish_see {γ : Type} (φ : State → γ) (hb : Blind φ [.dict, .draws]) (s : State) (n : Nat) (c : AmChannel) :
    see φ (State.amPublish s n c) = see φ s := by
  unfold State.amPublish
  (repeat' split) <;> simp (disch := exact hb.mono rfl)

@[simp ↓] theorem State.amBlock_see {γ : Type} (φ : State → γ) (hb : Blind φ [.dict, .draws, .am]) (s : State) (n : Nat) (v : Int) :
    see φ (State.amBlock s n v) = see φ s := by
  unfold State.amBlock
  (repeat' split) <;> simp (disch := exact hb.mono rfl)

@[simp ↓] theorem State.amDcBlock_see {γ : Type} (φ : State → γ) (hb : Blind φ [.dict, .draws, .am]) (s : State) (n : Nat) (v : Int) :
    see φ (State.amDcBlock s n v).1 = see φ s := by
  unfold State.amDcBlock
  (repeat' split) <;> simp (disch := exact hb.mono rfl)

@[simp ↓] theorem State.amValue_see {γ : Type} (φ : State → γ) (hb : Blind φ [.fresh, .dict, .errName, .out, .draws, .lattice, .cxl, .tim, .ch, .bank, .lg, .holdBy, .am]) (s : State) (n : Nat) (raw : Int) :
    see φ (State.amValue s n raw) = see φ s := by
  unfold State.amValue
  (repeat' split) <;> simp (disch := exact hb.mono rfl)

@[simp ↓] theorem State.amFilter_see {γ : Type} (φ : State → γ) (hb : Blind φ [.am]) (s : State) (n : Nat) (codes : List Nat) :
    see φ (State.amFilter s n codes).1 = see φ s := by
  unfold State.amFilter
  (repeat' split) <;> simp (disch := exact hb.mono rfl)

theorem execAmOutputSample_next (t : Nat) (channel : Fin 16) (codes : List Nat) (s : State) :
    ∃ u, (execAmOutputSample t channel codes s) = .next u ∧ ∀ {γ : Type} (φ : State → γ), Blind φ [.fresh, .dict, .errName, .out, .draws, .lattice, .cxl, .tim, .ch, .bank, .lg, .holdBy, .am] → see φ u = see φ (State.at s t) := by
  unfold execAmOutputSample
  simp only []
  (repeat' split) <;> exact ⟨_, rfl, fun φ hb => by simp (disch := exact hb.mono rfl)⟩

theorem execAmSettled_next (t : Nat) (channel : Fin 16) (s : State) :
    ∃ u, (execAmSettled t channel s) = .next u ∧ ∀ {γ : Type} (φ : State → γ), Blind φ [.fresh, .dict, .errName, .out, .draws, .lattice, .cxl, .tim, .ch, .bank, .lg, .holdBy] → see φ u = see φ (State.at s t) := by
  unfold execAmSettled
  simp only []
  (repeat' split) <;> exact ⟨_, rfl, fun φ hb => by simp (disch := exact hb.mono rfl)⟩

theorem execAmOverload_next (t : Nat) (channel : Fin 16) (high : Bool) (s : State) :
    ∃ u, (execAmOverload t channel high s) = .next u ∧ ∀ {γ : Type} (φ : State → γ), Blind φ [.fresh, .dict, .errName, .out, .draws, .lattice, .cxl, .tim, .ch, .bank, .lg, .holdBy, .am] → see φ u = see φ (State.at s t) := by
  unfold execAmOverload
  simp only []
  (repeat' split) <;> exact ⟨_, rfl, fun φ hb => by simp (disch := exact hb.mono rfl)⟩

theorem execAmOverloadClear_next (t : Nat) (channel : Fin 16) (s : State) :
    ∃ u, (execAmOverloadClear t channel s) = .next u ∧ ∀ {γ : Type} (φ : State → γ), Blind φ [.fresh, .dict, .errName, .out, .draws, .lattice, .cxl, .tim, .ch, .bank, .lg, .holdBy] → see φ u = see φ (State.at s t) := by
  unfold execAmOverloadClear
  simp only []
  (repeat' split) <;> exact ⟨_, rfl, fun φ hb => by simp (disch := exact hb.mono rfl)⟩

theorem execAmFreezeMax_next (t : Nat) (channel : Fin 16) (s : State) :
    ∃ u, (execAmFreezeMax t channel s) = .next u ∧ ∀ {γ : Type} (φ : State → γ), Blind φ [.fresh, .dict] → see φ u = see φ (State.at s t) := by
  unfold execAmFreezeMax
  simp only []
  (repeat' split) <;> exact ⟨_, rfl, fun φ hb => by simp (disch := exact hb.mono rfl)⟩

theorem execAmPeakClear_next (t : Nat) (path : Path) (value : List Byte) (s : State) :
    ∃ u, (execAmPeakClear t path value s) = .next u ∧ ∀ {γ : Type} (φ : State → γ), Blind φ [.dict, .out, .access] → see φ u = see φ (State.at s t) := by
  unfold execAmPeakClear
  simp only []
  (repeat' split) <;> refine ⟨_, rfl, fun φ hb => ?_⟩ <;> simp (disch := exact hb.mono rfl) <;> (repeat rw [foldl_see]) <;> intros <;> (repeat' split) <;> simp (disch := exact hb.mono rfl)

@[simp ↓] theorem State.amReports_see {γ : Type} (φ : State → γ) (hb : Blind φ [.fresh, .dict, .errName, .out, .draws, .lattice, .cxl, .tim, .ch, .bank, .lg, .holdBy]) (s : State) :
    see φ (State.amReports s) = see φ s := by
  unfold State.amReports
  (try simp only [])
  repeat' first | with_reducible rfl | split | (rw [foldl_see]) | (rw [foldl_fst_see]) | intro _ | simp (disch := exact hb.mono rfl)

@[simp ↓] theorem State.amArm_see {γ : Type} (φ : State → γ) (hb : Blind φ [.fresh, .dict, .errName, .out, .draws, .lattice, .cxl, .tim, .ch, .bank, .lg, .holdBy, .am]) (s : State) :
    see φ (State.amArm s) = see φ s := by
  unfold State.amArm
  (try simp only [])
  repeat' first | with_reducible rfl | split | (rw [foldl_see]) | (rw [foldl_fst_see]) | intro _ | simp (disch := exact hb.mono rfl)

end Sys2Proof.Machine
end

