-- ==== Sys2Proof/Laws/Links.lean ====
section
/-! SUPPORT. What each operation of Machine/Links.lean leaves alone, and that each of its commands goes on. -/

set_option maxRecDepth 4000
set_option linter.unusedSimpArgs false

namespace Sys2Proof.Machine

open Sys2Proof

@[simp ↓] theorem State.setChBit_see {γ : Type} (φ : State → γ) (hb : Blind φ [.dict]) (s : State) (k i : Nat) (v : Bool) :
    see φ (State.setChBit s k i v) = see φ s := by
  unfold State.setChBit
  (repeat' split) <;> simp (disch := exact hb.mono rfl)

@[simp ↓] theorem State.loanEndsHome_see {γ : Type} (φ : State → γ) (hb : Blind φ [.fresh, .dict, .errName, .out, .lattice, .cxl, .st, .cont]) (s : State) (k : Nat) :
    see φ (State.loanEndsHome s k) = see φ s := by
  unfold State.loanEndsHome
  simp only []
  (repeat' split) <;> simp (disch := exact hb.mono rfl) <;> (repeat' split) <;> simp (disch := exact hb.mono rfl)

@[simp ↓] theorem State.loanEndsServed_see {γ : Type} (φ : State → γ) (hb : Blind φ [.dict, .tim, .cams, .rc, .rg, .sg, .st, .judged, .cont]) (s : State) (k : Nat) :
    see φ (State.loanEndsServed s k) = see φ s := by
  unfold State.loanEndsServed
  (repeat' split) <;> simp (disch := exact hb.mono rfl)

@[simp ↓] theorem State.loanEnds_see {γ : Type} (φ : State → γ) (hb : Blind φ [.fresh, .dict, .errName, .out, .lattice, .cxl, .tim, .cams, .rc, .rg, .sg, .st, .judged, .cont]) (s : State) (k : Nat) :
    see φ (State.loanEnds s k) = see φ s := by
  unfold State.loanEnds
  (repeat' split) <;> simp (disch := exact hb.mono rfl)

@[simp ↓] theorem State.sendHello_see {γ : Type} (φ : State → γ) (hb : Blind φ [.fresh, .dict, .out, .ch]) (s : State) (k : Nat) :
    see φ (State.sendHello s k) = see φ s := by
  unfold State.sendHello
  (repeat' split) <;> simp (disch := exact hb.mono rfl)

theorem execChTrainDone_next (t : Nat) (link : Fin 2) (full half : List LaneTraining) (far : List (Fin 8 × Bool)) (s : State) :
    ∃ u, (execChTrainDone t link full half far s) = .next u ∧ ∀ {γ : Type} (φ : State → γ), Blind φ [.fresh, .dict, .out, .ch] → see φ u = see φ (State.at s t) := by
  unfold execChTrainDone
  (try simp only [])
  (repeat' split) <;> refine ⟨_, rfl, fun φ hb => ?_⟩ <;> repeat' first | with_reducible rfl | split | (rw [foldl_see]) | (rw [foldl_fst_see]) | intro _ | simp (disch := exact hb.mono rfl)

theorem execTapRequest_next (t : Nat) (link : Fin 2) (lane : Fin 8) (request : TapRequest) (s : State) :
    ∃ u, (execTapRequest t link lane request s) = .next u ∧ ∀ {γ : Type} (φ : State → γ), Blind φ [.dict, .out] → see φ u = see φ (State.at s t) := by
  unfold execTapRequest
  simp only []
  (repeat' split) <;> exact ⟨_, rfl, fun φ hb => by simp (disch := exact hb.mono rfl)⟩

@[simp ↓] theorem State.seamCheck_see {γ : Type} (φ : State → γ) (hb : Blind φ [.fresh, .dict, .errName, .out, .lattice, .cxl, .ch, .lg]) (s : State) (k : Nat) (h : Hello) :
    see φ (State.seamCheck s k h) = see φ s := by
  unfold State.seamCheck
  (repeat' split) <;> simp (disch := exact hb.mono rfl)

theorem execHello_next (t : Nat) (link : Fin 2) (hello : Hello) (s : State) :
    ∃ u, (execHello t link hello s) = .next u ∧ ∀ {γ : Type} (φ : State → γ), Blind φ [.fresh, .dict, .errName, .out, .lattice, .cxl, .ch, .lg, .cont] → see φ u = see φ (State.at s t) := by
  unfold execHello
  simp only []
  (repeat' split) <;> exact ⟨_, rfl, fun φ hb => by simp (disch := exact hb.mono rfl)⟩

@[simp ↓] theorem State.chLoss_see {γ : Type} (φ : State → γ) (hb : Blind φ [.fresh, .dict, .errName, .out, .lattice, .cxl, .tim, .cams, .rc, .rg, .sg, .ch, .st, .judged, .cont]) (s : State) (k : Nat) :
    see φ (State.chLoss s k) = see φ s := by
  unfold State.chLoss
  (repeat' split) <;> simp (disch := exact hb.mono rfl)

theorem execChLinkLoss_next (t : LinkSilence) (link : Fin 2) (s : State) :
    ∃ u, (execChLinkLoss t link s) = .next u ∧ ∀ {γ : Type} (φ : State → γ), Blind φ [.fresh, .dict, .errName, .out, .lattice, .cxl, .tim, .cams, .rc, .rg, .sg, .ch, .st, .judged, .cont] → see φ u = see φ (State.at s t.time) := by
  unfold execChLinkLoss
  exact ⟨_, rfl, fun φ hb => by simp (disch := exact hb.mono rfl)⟩

@[simp ↓] theorem State.chHeard_see {γ : Type} (φ : State → γ) (hb : Blind φ [.ch]) (s : State) (k : Nat) :
    see φ (State.chHeard s k) = see φ s := by
  unfold State.chHeard
  (repeat' split) <;> simp (disch := exact hb.mono rfl)

@[simp ↓] theorem State.chTaken_see {γ : Type} (φ : State → γ) (hb : Blind φ [.ch]) (s : State) (k cls : Nat) :
    see φ (State.chTaken s k cls) = see φ s := by
  unfold State.chTaken
  (repeat' split) <;> simp (disch := exact hb.mono rfl)

@[simp ↓] theorem State.chAcked_see {γ : Type} (φ : State → γ) (hb : Blind φ [.fresh, .dict, .out, .ch]) (s : State) (k seq : Nat) :
    see φ (State.chAcked s k seq) = see φ s := by
  unfold State.chAcked
  (repeat' split) <;> simp (disch := exact hb.mono rfl)

@[simp ↓] theorem State.chResend_see {γ : Type} (φ : State → γ) (hb : Blind φ [.fresh, .dict, .out]) (s : State) (k : Nat) (x : ChPacket) :
    see φ (State.chResend s k x) = see φ s := by
  unfold State.chResend
  (repeat' split) <;> simp (disch := exact hb.mono rfl)

@[simp ↓] theorem State.chNaked_see {γ : Type} (φ : State → γ) (hb : Blind φ [.fresh, .dict, .errName, .out, .lattice, .cxl, .tim, .cams, .rc, .rg, .sg, .ch, .st, .judged, .cont]) (s : State) (k seq : Nat) :
    see φ (State.chNaked s k seq) = see φ s := by
  unfold State.chNaked
  (repeat' split) <;> simp (disch := exact hb.mono rfl) <;> (repeat rw [foldl_see]) <;> intros <;> (repeat' split) <;> simp (disch := exact hb.mono rfl)

@[simp ↓] theorem State.l1Request_see {γ : Type} (φ : State → γ) (hb : Blind φ [.fresh, .dict, .out, .ch]) (s : State) (k : Nat) :
    see φ (State.l1Request s k) = see φ s := by
  unfold State.l1Request
  (repeat' split) <;> simp (disch := exact hb.mono rfl)

@[simp ↓] theorem State.l1Agree_see {γ : Type} (φ : State → γ) (hb : Blind φ [.dict, .ch]) (s : State) (k : Nat) :
    see φ (State.l1Agree s k) = see φ s := by
  unfold State.l1Agree
  (repeat' split) <;> simp (disch := exact hb.mono rfl)

theorem execChPacket_next (t : Nat) (link : Fin 2) (cls typ seq : Nat) (payload : List Byte) (crc : Nat) (s : State) :
    ∃ u, (execChPacket t link cls typ seq payload crc s) = .next u ∧ ∀ {γ : Type} (φ : State → γ), Blind φ [.fresh, .dict, .errName, .out, .lattice, .cxl, .tim, .cams, .rc, .rg, .sg, .ch, .st, .judged, .cont] → see φ u = see φ (State.at s t) := by
  unfold execChPacket
  simp only []
  (repeat' split) <;> exact ⟨_, rfl, fun φ hb => by simp (disch := exact hb.mono rfl)⟩

theorem execChAck_next (t : Nat) (link : Fin 2) (seq : Nat) (s : State) :
    ∃ u, (execChAck t link seq s) = .next u ∧ ∀ {γ : Type} (φ : State → γ), Blind φ [.fresh, .dict, .out, .ch] → see φ u = see φ (State.at s t) := by
  unfold execChAck
  exact ⟨_, rfl, fun φ hb => by simp (disch := exact hb.mono rfl)⟩

theorem execChNak_next (t : Nat) (link : Fin 2) (seq : Nat) (s : State) :
    ∃ u, (execChNak t link seq s) = .next u ∧ ∀ {γ : Type} (φ : State → γ), Blind φ [.fresh, .dict, .errName, .out, .lattice, .cxl, .tim, .cams, .rc, .rg, .sg, .ch, .st, .judged, .cont] → see φ u = see φ (State.at s t) := by
  unfold execChNak
  (try simp only [])
  (repeat' split) <;> refine ⟨_, rfl, fun φ hb => ?_⟩ <;> repeat' first | with_reducible rfl | split | (rw [foldl_see]) | (rw [foldl_fst_see]) | intro _ | simp (disch := exact hb.mono rfl)

theorem execChAckSend_next (t : Nat) (link : Fin 2) (s : State) :
    ∃ u, (execChAckSend t link s) = .next u ∧ ∀ {γ : Type} (φ : State → γ), Blind φ [.fresh, .dict, .out, .ch] → see φ u = see φ (State.at s t) := by
  unfold execChAckSend
  simp only []
  (repeat' split) <;> exact ⟨_, rfl, fun φ hb => by simp (disch := exact hb.mono rfl)⟩

theorem execL1Req_next (t : Nat) (link : Fin 2) (s : State) :
    ∃ u, (execL1Req t link s) = .next u ∧ ∀ {γ : Type} (φ : State → γ), Blind φ [.fresh, .dict, .out, .ch] → see φ u = see φ (State.at s t) := by
  unfold execL1Req
  (try simp only [])
  (repeat' split) <;> refine ⟨_, rfl, fun φ hb => ?_⟩ <;> repeat' first | with_reducible rfl | split | (rw [foldl_see]) | (rw [foldl_fst_see]) | intro _ | simp (disch := exact hb.mono rfl)

theorem execL1Ack_next (t : Nat) (link : Fin 2) (s : State) :
    ∃ u, (execL1Ack t link s) = .next u ∧ ∀ {γ : Type} (φ : State → γ), Blind φ [.dict, .ch] → see φ u = see φ (State.at s t) := by
  unfold execL1Ack
  (try simp only [])
  (repeat' split) <;> refine ⟨_, rfl, fun φ hb => ?_⟩ <;> repeat' first | with_reducible rfl | split | (rw [foldl_see]) | (rw [foldl_fst_see]) | intro _ | simp (disch := exact hb.mono rfl)

theorem execChL1Idle_next (t : Nat) (link : Fin 2) (s : State) :
    ∃ u, (execChL1Idle t link s) = .next u ∧ ∀ {γ : Type} (φ : State → γ), Blind φ [.fresh, .dict, .out, .ch] → see φ u = see φ (State.at s t) := by
  unfold execChL1Idle
  simp only []
  (repeat' split) <;> exact ⟨_, rfl, fun φ hb => by simp (disch := exact hb.mono rfl)⟩

theorem execChL0sEntry_next (t : Nat) (link : Fin 2) (s : State) :
    ∃ u, (execChL0sEntry t link s) = .next u ∧ ∀ {γ : Type} (φ : State → γ), Blind φ [.dict] → see φ u = see φ (State.at s t) := by
  unfold execChL0sEntry
  simp only []
  (repeat' split) <;> exact ⟨_, rfl, fun φ hb => by simp (disch := exact hb.mono rfl)⟩

theorem execChWakeProbe_next (t : Nat) (link : Fin 2) (answered : Bool) (s : State) :
    ∃ u, (execChWakeProbe t link answered s) = .next u ∧ ∀ {γ : Type} (φ : State → γ), Blind φ [.fresh, .dict, .errName, .out, .lattice, .cxl, .tim, .cams, .rc, .rg, .sg, .ch, .st, .judged, .cont] → see φ u = see φ (State.at s t) := by
  unfold execChWakeProbe
  simp only []
  (repeat' split) <;> exact ⟨_, rfl, fun φ hb => by simp (disch := exact hb.mono rfl)⟩

@[simp ↓] theorem State.sendLoanLine_see {γ : Type} (φ : State → γ) (hb : Blind φ [.fresh, .dict, .out, .ch]) (s : State) (k : Nat) (l : CapLine) :
    see φ (State.sendLoanLine s k l) = see φ s := by
  unfold State.sendLoanLine
  (repeat' split) <;> simp (disch := exact hb.mono rfl) <;> (repeat rw [foldl_see]) <;> intros <;> (repeat' split) <;> simp (disch := exact hb.mono rfl)

@[simp ↓] theorem State.sendSettings_see {γ : Type} (φ : State → γ) (hb : Blind φ [.fresh, .dict, .out, .ch]) (s : State) (k p : Nat) (f : Failover) (snap : Option RcSnapshot) :
    see φ (State.sendSettings s k p f snap) = see φ s := by
  unfold State.sendSettings
  (repeat' split) <;> simp (disch := exact hb.mono rfl) <;> (repeat rw [foldl_see]) <;> intros <;> (repeat' split) <;> simp (disch := exact hb.mono rfl)

@[simp ↓] theorem State.lend_see {γ : Type} (φ : State → γ) (hb : Blind φ [.fresh, .dict, .blobs, .errName, .out, .mem, .lost, .dramBad, .dram, .lattice, .cxl, .cams, .rc, .atl, .ch, .st, .bank, .lg, .cont, .slots, .hist, .rt]) (s : State) (k p : Nat) :
    see φ (State.lend s k p) = see φ s := by
  unfold State.lend
  (repeat' split) <;> simp (disch := exact hb.mono rfl) <;> (repeat rw [foldl_see]) <;> intros <;> (repeat' split) <;> simp (disch := exact hb.mono rfl)

theorem execLoanStart_next (t : Nat) (link : Fin 2) (p : Fin 12) (s : State) :
    ∃ u, (execLoanStart t link p s) = .next u ∧ ∀ {γ : Type} (φ : State → γ), Blind φ [.fresh, .dict, .blobs, .errName, .out, .mem, .lost, .dramBad, .dram, .lattice, .cxl, .cams, .rc, .atl, .ch, .st, .bank, .lg, .cont, .slots, .hist, .rt] → see φ u = see φ (State.at s t) := by
  unfold execLoanStart
  simp only []
  (repeat' split) <;> exact ⟨_, rfl, fun φ hb => by simp (disch := exact hb.mono rfl)⟩

theorem execLoanSettings_next (t : Nat) (link : Fin 2) (settings : LoanSettings) (s : State) :
    ∃ u, (execLoanSettings t link settings s) = .next u ∧ ∀ {γ : Type} (φ : State → γ), Blind φ [.dict, .blobs, .tim, .cams, .rc, .rg, .atl, .apipes, .sg, .st, .cont, .hist] → see φ u = see φ (State.at s t) := by
  unfold execLoanSettings
  simp only []
  (repeat' split) <;> refine ⟨_, rfl, fun φ hb => ?_⟩ <;> simp (disch := exact hb.mono rfl) <;> (repeat rw [foldl_see]) <;> intros <;> (repeat' split) <;> simp (disch := exact hb.mono rfl)

theorem execLoanLine_next (t : Nat) (link : Fin 2) (line : LoanLine) (s : State) :
    ∃ u, (execLoanLine t link line s) = .next u ∧ ∀ {γ : Type} (φ : State → γ), Blind φ [.dict, .tim, .cams] → see φ u = see φ (State.at s t) := by
  unfold execLoanLine
  simp only []
  (repeat' split) <;> exact ⟨_, rfl, fun φ hb => by simp (disch := exact hb.mono rfl)⟩

@[simp ↓] theorem State.chordOff_see {γ : Type} (φ : State → γ) (hb : Blind φ [.fresh, .dict, .errName, .out, .lattice, .cxl, .tim, .cams, .rc, .rg, .sg, .ch, .st, .judged, .cont]) (s : State) (k : Nat) :
    see φ (State.chordOff s k) = see φ s := by
  unfold State.chordOff
  (repeat' split) <;> simp (disch := exact hb.mono rfl)

@[simp ↓] theorem State.chordArm_see {γ : Type} (φ : State → γ) (hb : Blind φ [.fresh, .dict, .errName, .out, .lattice, .cxl, .tim, .cams, .rc, .rg, .sg, .ch, .st, .judged, .cont]) (s : State) (k : Nat) :
    see φ (State.chordArm s k) = see φ s := by
  unfold State.chordArm
  (repeat' split) <;> simp (disch := exact hb.mono rfl)

@[simp ↓] theorem State.chordTest_see {γ : Type} (φ : State → γ) (hb : Blind φ [.fresh, .dict, .errName, .out, .lattice, .cxl, .tim, .cams, .rc, .rg, .sg, .ch, .st, .judged, .cont]) (s : State) (k : Nat) :
    see φ (State.chordTest s k) = see φ s := by
  unfold State.chordTest
  (repeat' split) <;> simp (disch := exact hb.mono rfl)

theorem execLnPatternWrite_next (t : Nat) (path : Path) (lane : Fin 80) (value : List Byte) (s : State) :
    ∃ u, (execLnPatternWrite t path lane value s) = .next u ∧ ∀ {γ : Type} (φ : State → γ), Blind φ [.fresh, .dict, .errName, .out, .lattice, .cxl, .access, .tim, .cams, .rc, .rg, .sg, .ch, .lanes, .st, .judged, .cont] → see φ u = see φ (State.at s t) := by
  unfold execLnPatternWrite
  simp only []
  (repeat' split) <;> exact ⟨_, rfl, fun φ hb => by simp (disch := exact hb.mono rfl)⟩

@[simp ↓] theorem State.laneInject_see {γ : Type} (φ : State → γ) (hb : Blind φ [.fresh, .dict, .lanes]) (s : State) (n sent : Nat) :
    see φ (State.laneInject s n sent).2 = see φ s := by
  unfold State.laneInject
  simp only []
  split
  · rfl
  · simp (disch := exact hb.mono rfl)

theorem execLnEyeUpdate_next (t : Nat) (lane : Fin 80) (height width bits errors sent : Nat) (s : State) :
    ∃ u, (execLnEyeUpdate t lane height width bits errors sent s) = .next u ∧ ∀ {γ : Type} (φ : State → γ), Blind φ [.fresh, .dict, .lanes] → see φ u = see φ (State.at s t) := by
  unfold execLnEyeUpdate
  exact ⟨_, rfl, fun φ hb => by simp (disch := exact hb.mono rfl)⟩

theorem execLnLockGained_next (t : Nat) (lane : Fin 80) (s : State) :
    ∃ u, (execLnLockGained t lane s) = .next u ∧ ∀ {γ : Type} (φ : State → γ), Blind φ [.dict] → see φ u = see φ (State.at s t) := by
  unfold execLnLockGained
  exact ⟨_, rfl, fun φ hb => by simp (disch := exact hb.mono rfl)⟩

theorem execLnLockLost_next (t : Nat) (lane : Fin 80) (s : State) :
    ∃ u, (execLnLockLost t lane s) = .next u ∧ ∀ {γ : Type} (φ : State → γ), Blind φ [.fresh, .dict] → see φ u = see φ (State.at s t) := by
  unfold execLnLockLost
  exact ⟨_, rfl, fun φ hb => by simp (disch := exact hb.mono rfl)⟩

end Sys2Proof.Machine
end

