-- ==== Sys2Proof/Laws/Calibration.lean ====
section
/-! SUPPORT. What each operation of Machine/Calibration.lean leaves alone, and that each of its commands goes on. -/

set_option maxRecDepth 4000
set_option linter.unusedSimpArgs false

namespace Sys2Proof.Machine

open Sys2Proof

@[simp ↓] theorem State.calBegin_see {γ : Type} (φ : State → γ) (hb : Blind φ [.dict, .st, .cont, .cal]) (s : State) (r : CalRequest) :
    see φ (State.calBegin s r) = see φ s := by
  unfold State.calBegin
  (repeat' split) <;> simp (disch := exact hb.mono rfl) <;> (repeat rw [foldl_see]) <;> intros <;> (repeat' split) <;> simp (disch := exact hb.mono rfl)

@[simp ↓] theorem State.calServe_see {γ : Type} (φ : State → γ) (hb : Blind φ [.dict, .st, .cont, .cal]) (s : State) :
    see φ (State.calServe s) = see φ s := by
  unfold State.calServe
  (repeat' split) <;> simp (disch := exact hb.mono rfl) <;> (repeat rw [foldl_see]) <;> intros <;> (repeat' split) <;> simp (disch := exact hb.mono rfl)

@[simp ↓] theorem State.calWrite_see {γ : Type} (φ : State → γ) (hb : Blind φ [.dict, .out, .access, .st, .cont, .cal]) (s : State) (path : Path) (task : Nat) (forced : Bool) (target deadline : Nat) :
    see φ (State.calWrite s path task forced target deadline) = see φ s := by
  unfold State.calWrite
  simp only []
  split
  · split
    · simp (disch := exact hb.mono rfl)
    · split
      · simp (disch := exact hb.mono rfl)
      · split
        · simp (disch := exact hb.mono rfl)
        · rename_i h
          have hk := State.calEnqueue_see φ (hb.mono rfl) _ _ _ h
          simp (disch := exact hb.mono rfl) [hk]
  · simp (disch := exact hb.mono rfl)

theorem execPlateRef_next (t : Nat) (path : Path) (forced : Bool) (target deadline : Nat) (s : State) :
    ∃ u, (execPlateRef t path forced target deadline s) = .next u ∧ ∀ {γ : Type} (φ : State → γ), Blind φ [.dict, .out, .access, .st, .cont, .cal] → see φ u = see φ (State.at s t) := by
  unfold execPlateRef
  exact ⟨_, rfl, fun φ hb => by simp (disch := exact hb.mono rfl)⟩

theorem execDefectMerge_next (t : Nat) (path : Path) (forced : Bool) (target deadline : Nat) (s : State) :
    ∃ u, (execDefectMerge t path forced target deadline s) = .next u ∧ ∀ {γ : Type} (φ : State → γ), Blind φ [.dict, .out, .access, .st, .cont, .cal] → see φ u = see φ (State.at s t) := by
  unfold execDefectMerge
  exact ⟨_, rfl, fun φ hb => by simp (disch := exact hb.mono rfl)⟩

theorem execStitch_next (t : Nat) (path : Path) (forced : Bool) (target deadline : Nat) (s : State) :
    ∃ u, (execStitch t path forced target deadline s) = .next u ∧ ∀ {γ : Type} (φ : State → γ), Blind φ [.dict, .out, .access, .st, .cont, .cal] → see φ u = see φ (State.at s t) := by
  unfold execStitch
  exact ⟨_, rfl, fun φ hb => by simp (disch := exact hb.mono rfl)⟩

theorem execValveLatency_next (t : Nat) (path : Path) (forced : Bool) (target deadline : Nat) (s : State) :
    ∃ u, (execValveLatency t path forced target deadline s) = .next u ∧ ∀ {γ : Type} (φ : State → γ), Blind φ [.dict, .out, .access, .st, .cont, .cal] → see φ u = see φ (State.at s t) := by
  unfold execValveLatency
  exact ⟨_, rfl, fun φ hb => by simp (disch := exact hb.mono rfl)⟩

theorem execValveThreshold_next (t : Nat) (path : Path) (forced : Bool) (target deadline : Nat) (s : State) :
    ∃ u, (execValveThreshold t path forced target deadline s) = .next u ∧ ∀ {γ : Type} (φ : State → γ), Blind φ [.dict, .out, .access, .st, .cont, .cal] → see φ u = see φ (State.at s t) := by
  unfold execValveThreshold
  exact ⟨_, rfl, fun φ hb => by simp (disch := exact hb.mono rfl)⟩

theorem execPipeBist_next (t : Nat) (path : Path) (forced : Bool) (target deadline : Nat) (s : State) :
    ∃ u, (execPipeBist t path forced target deadline s) = .next u ∧ ∀ {γ : Type} (φ : State → γ), Blind φ [.dict, .out, .access, .st, .cont, .cal] → see φ u = see φ (State.at s t) := by
  unfold execPipeBist
  exact ⟨_, rfl, fun φ hb => by simp (disch := exact hb.mono rfl)⟩

theorem execVernier_next (t : Nat) (path : Path) (forced : Bool) (target deadline : Nat) (s : State) :
    ∃ u, (execVernier t path forced target deadline s) = .next u ∧ ∀ {γ : Type} (φ : State → γ), Blind φ [.dict, .out, .access, .st, .cont, .cal] → see φ u = see φ (State.at s t) := by
  unfold execVernier
  exact ⟨_, rfl, fun φ hb => by simp (disch := exact hb.mono rfl)⟩

@[simp ↓] theorem State.calStarve_see {γ : Type} (φ : State → γ) (hb : Blind φ [.fresh, .dict, .errName, .out, .lattice, .cxl, .cal]) (s : State) (r : CalRequest) :
    see φ (State.calStarve s r) = see φ s := by
  unfold State.calStarve
  (repeat' split) <;> simp (disch := exact hb.mono rfl) <;> (repeat rw [foldl_see]) <;> intros <;> (repeat' split) <;> simp (disch := exact hb.mono rfl)

@[simp ↓] theorem State.calForce_see {γ : Type} (φ : State → γ) (hb : Blind φ [.fresh, .dict, .blobs, .errName, .out, .mem, .lost, .dramBad, .dram, .lattice, .cxl, .cams, .rc, .atl, .apipes, .cont, .slots, .hist, .rt, .cal]) (s : State) (r : CalRequest) :
    see φ (State.calForce s r) = see φ s := by
  unfold State.calForce
  simp only []
  (repeat' split) <;> simp (disch := exact hb.mono rfl) <;> (repeat' split) <;> simp (disch := exact hb.mono rfl)

@[simp ↓] theorem State.calExpire_see {γ : Type} (φ : State → γ) (hb : Blind φ [.fresh, .dict, .blobs, .errName, .out, .mem, .lost, .dramBad, .dram, .lattice, .cxl, .cams, .rc, .atl, .apipes, .cont, .slots, .hist, .rt, .cal]) (s : State) (r : CalRequest) :
    see φ (State.calExpire s r) = see φ s := by
  unfold State.calExpire
  (repeat' split) <;> simp (disch := exact hb.mono rfl)

theorem execCalDeadline_next (t : Nat) (s : State) :
    ∃ u, (execCalDeadline t s) = .next u ∧ ∀ {γ : Type} (φ : State → γ), Blind φ [.fresh, .dict, .blobs, .errName, .out, .mem, .lost, .dramBad, .dram, .lattice, .cxl, .cams, .rc, .atl, .apipes, .st, .cont, .slots, .hist, .rt, .cal] → see φ u = see φ (State.at s t) := by
  unfold execCalDeadline
  simp only []
  (repeat' split) <;> refine ⟨_, rfl, fun φ hb => ?_⟩ <;> simp (disch := exact hb.mono rfl) <;> (repeat rw [foldl_see]) <;> intros <;> (repeat' split) <;> simp (disch := exact hb.mono rfl)

@[simp ↓] theorem State.calAbortOne_see {γ : Type} (φ : State → γ) (hb : Blind φ [.fresh, .dict, .errName, .out, .lattice, .cxl, .cal]) (s : State) (r : CalRequest) :
    see φ (State.calAbortOne s r) = see φ s := by
  unfold State.calAbortOne
  (repeat' split) <;> simp (disch := exact hb.mono rfl)

@[simp ↓] theorem State.calAbort_see {γ : Type} (φ : State → γ) (hb : Blind φ [.fresh, .dict, .errName, .out, .lattice, .cxl, .cal]) (s : State) :
    see φ (State.calAbort s) = see φ s := by
  unfold State.calAbort
  (try simp only [])
  repeat' first | with_reducible rfl | split | (rw [foldl_see]) | (rw [foldl_fst_see]) | intro _ | simp (disch := exact hb.mono rfl)

@[simp ↓] theorem State.calReset_see {γ : Type} (φ : State → γ) (hb : Blind φ [.fresh, .dict, .errName, .out, .lattice, .cxl, .cal]) (s : State) :
    see φ (State.calReset s) = see φ s := by
  unfold State.calReset
  (repeat' split) <;> simp (disch := exact hb.mono rfl) <;> (repeat rw [foldl_see]) <;> intros <;> (repeat' split) <;> simp (disch := exact hb.mono rfl)

@[simp ↓] theorem State.calPlate_see {γ : Type} (φ : State → γ) (hb : Blind φ [.fresh, .dict, .cal]) (s : State) (p : Nat) (l : RegLine) :
    see φ (State.calPlate s p l) = see φ s := by
  unfold State.calPlate
  (repeat' split) <;> simp (disch := exact hb.mono rfl)

@[simp ↓] theorem State.calLatency_see {γ : Type} (φ : State → γ) (hb : Blind φ [.cal]) (s : State) (v w : Nat) :
    see φ (State.calLatency s v w) = see φ s := by
  unfold State.calLatency
  simp only []
  (repeat' split) <;> simp (disch := exact hb.mono rfl) <;> (repeat' split) <;> simp (disch := exact hb.mono rfl)

@[simp ↓] theorem State.calThreshold_see {γ : Type} (φ : State → γ) (hb : Blind φ [.cal]) (s : State) (v w : Nat) :
    see φ (State.calThreshold s v w) = see φ s := by
  unfold State.calThreshold
  (repeat' split) <;> simp (disch := exact hb.mono rfl)

theorem execValveStatus_next (t : Nat) (link : Fin 32) (words : List Nat) (board : Nat) (crcOk : Bool) (s : State) :
    ∃ u, (execValveStatus t link words board crcOk s) = .next u ∧ ∀ {γ : Type} (φ : State → γ), Blind φ [.fresh, .dict, .errName, .out, .lattice, .cxl, .ch, .bank, .lg, .cont, .cal] → see φ u = see φ (State.at s t) := by
  unfold execValveStatus
  simp only []
  (repeat' split) <;> refine ⟨_, rfl, fun φ hb => ?_⟩ <;> simp (disch := exact hb.mono rfl) <;> (repeat rw [foldl_see]) <;> intros <;> (repeat' split) <;> simp (disch := exact hb.mono rfl)

@[simp ↓] theorem State.markTests_see {γ : Type} (φ : State → γ) (hb : Blind φ [.fresh, .dict, .cal]) (s : State) (target : Nat) (time : Int) :
    see φ (State.markTests s target time) = see φ s := by
  unfold State.markTests
  (repeat' split) <;> simp (disch := exact hb.mono rfl) <;> (repeat rw [foldl_see]) <;> intros <;> (repeat' split) <;> simp (disch := exact hb.mono rfl)

@[simp ↓] theorem State.planTest_see {γ : Type} (φ : State → γ) (hb : Blind φ [.fresh, .dict, .bank, .cal]) (s : State) (r : CalRequest) (v k : Nat) :
    see φ (State.planTest s r v k) = see φ s := by
  unfold State.planTest
  (repeat' split) <;> simp (disch := exact hb.mono rfl)

@[simp ↓] theorem State.planTests_see {γ : Type} (φ : State → γ) (hb : Blind φ [.fresh, .dict, .bank, .cal]) (s : State) (link k : Nat) :
    see φ (State.planTests s link k) = see φ s := by
  unfold State.planTests
  (try simp only [])
  repeat' first | with_reducible rfl | split | (rw [foldl_see]) | (rw [foldl_fst_see]) | intro _ | simp (disch := exact hb.mono rfl)

@[simp ↓] theorem State.retest_see {γ : Type} (φ : State → γ) (hb : Blind φ [.cal]) (s : State) :
    see φ (State.retest s) = see φ s := by
  unfold State.retest
  (repeat' split) <;> simp (disch := exact hb.mono rfl)

theorem execFrameFreeze_next (t : Nat) (link : Fin 32) (k : Nat) (s : State) :
    ∃ u, (execFrameFreeze t link k s) = .next u ∧ ∀ {γ : Type} (φ : State → γ), Blind φ [.fresh, .dict, .out, .ch, .bank, .lg, .cont, .cal] → see φ u = see φ (State.at s t) := by
  unfold execFrameFreeze
  simp only []
  (repeat' split) <;> exact ⟨_, rfl, fun φ hb => by simp (disch := exact hb.mono rfl)⟩

@[simp ↓] theorem State.resultPlate_see {γ : Type} (φ : State → γ) (hb : Blind φ [.fresh, .dict, .epochs, .errName, .out, .lattice, .cxl, .cal]) (s : State) (p : Nat) :
    see φ (State.resultPlate s p) = see φ s := by
  unfold State.resultPlate
  (repeat' split) <;> simp (disch := exact hb.mono rfl)

@[simp ↓] theorem State.resultMerge_see {γ : Type} (φ : State → γ) (hb : Blind φ [.fresh, .dict, .epochs, .errName, .out, .lattice, .cxl, .cal]) (s : State) (p : Nat) :
    see φ (State.resultMerge s p) = see φ s := by
  unfold State.resultMerge
  (repeat' split) <;> simp (disch := exact hb.mono rfl)

@[simp ↓] theorem State.resultLatency_see {γ : Type} (φ : State → γ) (hb : Blind φ [.fresh, .dict, .errName, .out, .lattice, .cxl, .cal]) (s : State) (v : Nat) :
    see φ (State.resultLatency s v) = see φ s := by
  unfold State.resultLatency
  (repeat' split) <;> simp (disch := exact hb.mono rfl)

@[simp ↓] theorem State.resultThreshold_see {γ : Type} (φ : State → γ) (hb : Blind φ [.fresh, .dict, .errName, .out, .lattice, .cxl, .cal]) (s : State) (v : Nat) :
    see φ (State.resultThreshold s v) = see φ s := by
  unfold State.resultThreshold
  (repeat' split) <;> simp (disch := exact hb.mono rfl)

@[simp ↓] theorem State.resultBist_see {γ : Type} (φ : State → γ) (hb : Blind φ [.fresh, .dict, .cal]) (s : State) (q : Nat) :
    see φ (State.resultBist s q) = see φ s := by
  unfold State.resultBist
  (repeat' split) <;> simp (disch := exact hb.mono rfl)

@[simp ↓] theorem State.vernier_see {γ : Type} (φ : State → γ) (hb : Blind φ [.fresh, .dict, .errName, .out, .lattice, .cxl, .cal]) (s : State) (l : Nat) (delays : List Nat) (cells : Nat) :
    see φ (State.vernier s l delays cells) = see φ s := by
  unfold State.vernier
  (repeat' split) <;> simp (disch := exact hb.mono rfl)

@[simp ↓] theorem State.resultVernier_see {γ : Type} (φ : State → γ) (hb : Blind φ [.fresh, .dict, .errName, .out, .lattice, .cxl, .cal]) (s : State) (l : Nat) (delays : List Nat) (cells : Nat) :
    see φ (State.resultVernier s l delays cells) = see φ s := by
  unfold State.resultVernier
  (repeat' split) <;> simp (disch := exact hb.mono rfl)

theorem execCalResult_next (t : Nat) (outcome : CalOutcome) (s : State) :
    ∃ u, (execCalResult t outcome s) = .next u ∧ ∀ {γ : Type} (φ : State → γ), Blind φ [.fresh, .dict, .epochs, .errName, .out, .lattice, .cxl, .st, .cont, .cal] → see φ u = see φ (State.at s t) := by
  unfold execCalResult
  simp only []
  (repeat' split) <;> exact ⟨_, rfl, fun φ hb => by simp (disch := exact hb.mono rfl)⟩

theorem execVernierPeriodic_next (t : Nat) (link : Fin 32) (delays : List Nat) (cells : Nat) (s : State) :
    ∃ u, (execVernierPeriodic t link delays cells s) = .next u ∧ ∀ {γ : Type} (φ : State → γ), Blind φ [.fresh, .dict, .errName, .out, .lattice, .cxl, .cal] → see φ u = see φ (State.at s t) := by
  unfold execVernierPeriodic
  exact ⟨_, rfl, fun φ hb => by simp (disch := exact hb.mono rfl)⟩

theorem execModulatorRotate_next (t : Nat) (channel : Fin 16) (elements : List Nat) (s : State) :
    ∃ u, (execModulatorRotate t channel elements s) = .next u ∧ ∀ {γ : Type} (φ : State → γ), Blind φ [.fresh, .dict, .errName, .out, .lattice, .cxl, .cal] → see φ u = see φ (State.at s t) := by
  unfold execModulatorRotate
  simp only []
  (repeat' split) <;> exact ⟨_, rfl, fun φ hb => by simp (disch := exact hb.mono rfl)⟩

@[simp ↓] theorem State.storeAbandon_see {γ : Type} (φ : State → γ) (hb : Blind φ [.vault, .cal]) (s : State) :
    see φ (State.storeAbandon s) = see φ s := by
  unfold State.storeAbandon
  (repeat' split) <;> simp (disch := exact hb.mono rfl)

theorem execCalStatusRead_next (t : Nat) (path : Path) (s : State) :
    ∃ u, (execCalStatusRead t path s) = .next u ∧ ∀ {γ : Type} (φ : State → γ), Blind φ [.dict, .out, .access] → see φ u = see φ (State.at s t) := by
  unfold execCalStatusRead
  exact ⟨_, rfl, fun φ hb => by simp (disch := exact hb.mono rfl)⟩

@[simp ↓] theorem State.storeCmd_see {γ : Type} (φ : State → γ) (hb : Blind φ [.out, .access]) (s : State) (path : Path) (f : State → State) (h_f : ∀ a, see φ (f a) = see φ a) :
    see φ (State.storeCmd s path f) = see φ s := by
  unfold State.storeCmd
  simp only []
  (repeat' split) <;> simp (disch := exact hb.mono rfl) <;> (repeat' split) <;> simp (disch := exact hb.mono rfl) [*]

theorem execCalStore_next (t : Nat) (path : Path) (s : State) :
    ∃ u, (execCalStore t path s) = .next u ∧ ∀ {γ : Type} (φ : State → γ), Blind φ [.out, .access, .vault, .cal] → see φ u = see φ (State.at s t) := by
  unfold execCalStore
  refine ⟨_, rfl, fun φ hb => ?_⟩
  refine (State.storeCmd_see φ (hb.mono rfl) _ _ _ ?_).trans rfl
  intro a
  (try simp only [])
  (repeat' split) <;> simp (disch := exact hb.mono rfl)

theorem execCalStoreClear_next (t : Nat) (path : Path) (s : State) :
    ∃ u, (execCalStoreClear t path s) = .next u ∧ ∀ {γ : Type} (φ : State → γ), Blind φ [.out, .access, .vault, .cal] → see φ u = see φ (State.at s t) := by
  unfold execCalStoreClear
  refine ⟨_, rfl, fun φ hb => ?_⟩
  refine (State.storeCmd_see φ (hb.mono rfl) _ _ _ ?_).trans rfl
  intro a
  (try simp only [])
  (repeat' split) <;> simp (disch := exact hb.mono rfl)

theorem State.storeInt_see {γ : Type} (φ : State → γ) (hb : Blind φ [.dict, .staged, .epochs]) (s t : State) (k : Nat)
    (v : Int) (h : s.storeInt k v = some t) : see φ t = see φ s := by
  unfold State.storeInt at h
  (repeat' split at h) <;> cases h <;> simp (disch := exact hb.mono rfl)

theorem State.storeBytes_see {γ : Type} (φ : State → γ) (hb : Blind φ [.dict, .blobs, .stagedBlobs, .epochs, .cal])
    (s t : State) (k : Nat) (v : List Byte) (h : s.storeBytes k v = some t) : see φ t = see φ s := by
  unfold State.storeBytes at h
  (repeat' split at h) <;> cases h <;> simp (disch := exact hb.mono rfl)

@[simp ↓] theorem State.storeRestore_see {γ : Type} (φ : State → γ) (hb : Blind φ [.fresh, .dict, .blobs, .staged, .stagedBlobs, .epochs, .cal]) (s : State) :
    see φ (State.storeRestore s) = see φ s := by
  unfold State.storeRestore
  have h : ∀ (a : State) (x : Option State), (∀ t, x = some t → see φ t = see φ a) →
      see φ (x.getD (a.count Obj.CAL_STORE_SKIPPED 0 0 1)) = see φ a := by
    intro a x hx
    cases x with
    | none => simp (disch := exact hb.mono rfl)
    | some t => simp [hx]
  split
  · rfl
  · simp only []
    rw [foldl_see, foldl_see]
    · intro a x
      exact h a _ (fun t ht => State.storeInt_see φ (hb.mono rfl) _ _ _ _ ht)
    · intro a x
      exact h a _ (fun t ht => State.storeBytes_see φ (hb.mono rfl) _ _ _ _ ht)

@[simp ↓] theorem State.almLoad_see {γ : Type} (φ : State → γ) (hb : Blind φ [.dict, .cal]) (s : State) (b : List Byte) :
    see φ (State.almLoad s b) = see φ s := by
  unfold State.almLoad
  (repeat' split) <;> simp (disch := exact hb.mono rfl) <;> (repeat rw [foldl_see]) <;> intros <;> (repeat' split) <;> simp (disch := exact hb.mono rfl)

@[simp ↓] theorem State.almanacWrite_see {γ : Type} (φ : State → γ) (hb : Blind φ [.dict, .vault, .cal]) (s : State) :
    see φ (State.almanacWrite s) = see φ s := by
  unfold State.almanacWrite
  (repeat' split) <;> simp (disch := exact hb.mono rfl)

@[simp ↓] theorem State.almAbandon_see {γ : Type} (φ : State → γ) (hb : Blind φ [.dict, .vault, .cal]) (s : State) :
    see φ (State.almAbandon s) = see φ s := by
  unfold State.almAbandon
  (repeat' split) <;> simp (disch := exact hb.mono rfl)

theorem execAlmanacWrite_next (t : Nat) (s : State) :
    ∃ u, (execAlmanacWrite t s) = .next u ∧ ∀ {γ : Type} (φ : State → γ), Blind φ [.dict, .vault, .cal] → see φ u = see φ (State.at s t) := by
  unfold execAlmanacWrite
  exact ⟨_, rfl, fun φ hb => by simp (disch := exact hb.mono rfl)⟩

@[simp ↓] theorem State.almBin_see {γ : Type} (φ : State → γ) (hb : Blind φ [.dict]) (s : State) (o : ObjRow) (b h i : Nat) :
    see φ (State.almBin s o b h i) = see φ s := by
  unfold State.almBin
  (repeat' split) <;> simp (disch := exact hb.mono rfl)

@[simp ↓] theorem State.almSecond_see {γ : Type} (φ : State → γ) (hb : Blind φ [.fresh, .dict, .cal]) (s : State) :
    see φ (State.almSecond s) = see φ s := by
  unfold State.almSecond
  (repeat' split) <;> simp (disch := exact hb.mono rfl)

@[simp ↓] theorem State.almSample_see {γ : Type} (φ : State → γ) (hb : Blind φ [.dict, .cams]) (s : State) :
    see φ (State.almSample s) = see φ s := by
  unfold State.almSample
  (try simp only [])
  repeat' first | with_reducible rfl | split | (rw [foldl_see]) | (rw [foldl_fst_see]) | intro _ | simp (disch := exact hb.mono rfl)

theorem execAlmanacSample_next (t : Nat) (s : State) :
    ∃ u, (execAlmanacSample t s) = .next u ∧ ∀ {γ : Type} (φ : State → γ), Blind φ [.fresh, .dict, .cams, .cal] → see φ u = see φ (State.at s t) := by
  unfold execAlmanacSample
  simp only []
  (repeat' split) <;> exact ⟨_, rfl, fun φ hb => by simp (disch := exact hb.mono rfl)⟩

end Sys2Proof.Machine
end

