-- ==== Sys2Proof/Laws/Lines.lean ====
section
/-! SUPPORT. What each operation of Machine/Lines.lean leaves alone, and that each of its commands goes on. -/

set_option maxRecDepth 4000
set_option linter.unusedSimpArgs false

namespace Sys2Proof.Machine

open Sys2Proof

@[simp ↓] theorem State.portEpoch_see {γ : Type} (φ : State → γ) (hb : Blind φ [.fresh, .dict, .blobs, .epochs, .errName, .out, .lattice, .cxl, .rc, .atl, .apipes]) (s : State) (g ep f : Nat) (x : PortBlobs) :
    see φ (State.portEpoch s g ep f x) = see φ s := by
  unfold State.portEpoch
  (repeat' split) <;> simp (disch := exact hb.mono rfl)

@[simp ↓] theorem State.openEpoch_see {γ : Type} (φ : State → γ) (hb : Blind φ [.fresh, .dict, .blobs, .epochs, .errName, .out, .lattice, .cxl, .rc, .vd, .atl, .apipes, .st, .cont, .cal]) (s : State) (g ep f : Nat) :
    see φ (State.openEpoch s g ep f) = see φ s := by
  unfold State.openEpoch
  simp (disch := exact hb.mono rfl)
  rw [foldl_see]
  · simp (disch := exact hb.mono rfl)
  · intro a x
    simp (disch := exact hb.mono rfl)

@[simp ↓] theorem State.camEpochWrites_see {γ : Type} (φ : State → γ) (hb : Blind φ [.fresh, .dict, .errName, .out, .lattice, .cxl, .cams, .rc, .rg]) (s : State) (p ep f : Nat) (v : ObjRow → Int) :
    see φ (State.camEpochWrites s p ep f v) = see φ s := by
  unfold State.camEpochWrites
  (repeat' split) <;> simp (disch := exact hb.mono rfl)

@[simp ↓] theorem State.camReadbacks_see {γ : Type} (φ : State → γ) (hb : Blind φ [.fresh, .dict, .errName, .out, .lattice, .cxl, .cams, .rc, .rg]) (s : State) (p : Nat) :
    see φ (State.camReadbacks s p) = see φ s := by
  unfold State.camReadbacks
  (repeat' split) <;> simp (disch := exact hb.mono rfl) <;> (repeat rw [foldl_see]) <;> intros <;> (repeat' split) <;> simp (disch := exact hb.mono rfl)

@[simp ↓] theorem State.countGroup_see {γ : Type} (φ : State → γ) (hb : Blind φ [.fresh, .dict]) (s : State) (g : Nat) (o : ObjRow) (n : Nat) :
    see φ (State.countGroup s g o n) = see φ s := by
  unfold State.countGroup
  (try simp only [])
  repeat' first | with_reducible rfl | split | (rw [foldl_see]) | (rw [foldl_fst_see]) | intro _ | simp (disch := exact hb.mono rfl)

@[simp ↓] theorem State.tgRephase_see {γ : Type} (φ : State → γ) (hb : Blind φ [.fresh, .dict, .tim]) (s : State) (g due : Nat) :
    see φ (State.tgRephase s g due) = see φ s := by
  unfold State.tgRephase
  (repeat' split) <;> simp (disch := exact hb.mono rfl)

@[simp ↓] theorem State.portTrigger_see {γ : Type} (φ : State → γ) (hb : Blind φ [.fresh, .dict, .errName, .out, .lattice, .cxl, .cams, .rc, .rg]) (s : State) (g p line : Nat) (belt : Int) (opens : Bool) :
    see φ (State.portTrigger s g p line belt opens) = see φ s := by
  unfold State.portTrigger
  (repeat' split) <;> simp (disch := exact hb.mono rfl)

@[simp ↓] theorem State.issueTrigger_see {γ : Type} (φ : State → γ) (hb : Blind φ [.fresh, .dict, .blobs, .epochs, .errName, .out, .lattice, .cxl, .tim, .cams, .rc, .rg, .vd, .atl, .apipes, .st, .cont, .cal]) (s : State) (g : Nat) (belt : Int) (due : Nat) :
    see φ (State.issueTrigger s g belt due) = see φ s := by
  unfold State.issueTrigger
  (repeat' split) <;> simp (disch := exact hb.mono rfl) <;> (repeat rw [foldl_see]) <;> intros <;> (repeat' split) <;> simp (disch := exact hb.mono rfl)

@[simp ↓] theorem State.releaseTrigger_see {γ : Type} (φ : State → γ) (hb : Blind φ [.fresh, .dict, .blobs, .epochs, .errName, .out, .lattice, .cxl, .tim, .cams, .rc, .rg, .vd, .atl, .apipes, .st, .cont, .cal]) (s : State) (g : Nat) :
    see φ (State.releaseTrigger s g) = see φ s := by
  unfold State.releaseTrigger
  simp only []
  (repeat' split) <;> simp (disch := exact hb.mono rfl) <;> (repeat' split) <;> simp (disch := exact hb.mono rfl)

@[simp ↓] theorem State.dueTrigger_see {γ : Type} (φ : State → γ) (hb : Blind φ [.fresh, .dict, .blobs, .epochs, .errName, .out, .lattice, .cxl, .tim, .cams, .rc, .rg, .vd, .atl, .apipes, .st, .cont, .cal]) (s : State) (g : Nat) (belt : Int) (due : Nat) :
    see φ (State.dueTrigger s g belt due) = see φ s := by
  unfold State.dueTrigger
  (repeat' split) <;> simp (disch := exact hb.mono rfl)

theorem execLineTrigger_next (t : Nat) (g : Fin 12) (s : State) :
    ∃ u, (execLineTrigger t g s) = .next u ∧ ∀ {γ : Type} (φ : State → γ), Blind φ [.fresh, .dict, .blobs, .epochs, .errName, .out, .lattice, .cxl, .tim, .cams, .rc, .rg, .vd, .atl, .apipes, .st, .cont, .cal] → see φ u = see φ (State.at s t) := by
  unfold execLineTrigger
  simp only []
  (repeat' split) <;> exact ⟨_, rfl, fun φ hb => by simp (disch := exact hb.mono rfl)⟩

theorem execTriggerDeferredIssue_next (t : Nat) (g : Fin 12) (s : State) :
    ∃ u, (execTriggerDeferredIssue t g s) = .next u ∧ ∀ {γ : Type} (φ : State → γ), Blind φ [.fresh, .dict, .blobs, .epochs, .errName, .out, .lattice, .cxl, .tim, .cams, .rc, .rg, .vd, .atl, .apipes, .st, .cont, .cal] → see φ u = see φ (State.at s t) := by
  unfold execTriggerDeferredIssue
  exact ⟨_, rfl, fun φ hb => by simp (disch := exact hb.mono rfl)⟩

@[simp ↓] theorem State.countTrigger_see {γ : Type} (φ : State → γ) (hb : Blind φ [.fresh, .dict, .blobs, .epochs, .errName, .out, .lattice, .cxl, .tim, .cams, .rc, .rg, .vd, .atl, .apipes, .st, .cont, .cal]) (s : State) (g q : Nat) :
    see φ (State.countTrigger s g q) = see φ s := by
  unfold State.countTrigger
  (repeat' split) <;> simp (disch := exact hb.mono rfl)

theorem execQeCount_next (t : QeSample) (q : Fin 4) (a b : Bool) (s : State) :
    ∃ u, (execQeCount t q a b s) = .next u ∧ ∀ {γ : Type} (φ : State → γ), Blind φ [.fresh, .dict, .blobs, .epochs, .errName, .out, .lattice, .cxl, .tim, .cams, .rc, .rg, .vd, .atl, .apipes, .st, .bank, .cont, .cal] → see φ u = see φ (State.at s t.time) := by
  unfold execQeCount
  simp only []
  (repeat' split) <;> refine ⟨_, rfl, fun φ hb => ?_⟩ <;> simp (disch := exact hb.mono rfl) <;> (repeat rw [foldl_see]) <;> intros <;> (repeat' split) <;> simp (disch := exact hb.mono rfl)

@[simp ↓] theorem State.tgArm_see {γ : Type} (φ : State → γ) (hb : Blind φ [.tim]) (s : State) (g : Nat) :
    see φ (State.tgArm s g) = see φ s := by
  unfold State.tgArm
  (repeat' split) <;> simp (disch := exact hb.mono rfl)

@[simp ↓] theorem State.stopTriggers_see {γ : Type} (φ : State → γ) (hb : Blind φ [.tim]) (s : State) :
    see φ (State.stopTriggers s) = see φ s := by
  unfold State.stopTriggers
  (repeat' split) <;> simp (disch := exact hb.mono rfl) <;> (repeat rw [foldl_see]) <;> intros <;> (repeat' split) <;> simp (disch := exact hb.mono rfl)

@[simp ↓] theorem State.cutHistory_see {γ : Type} (φ : State → γ) (hb : Blind φ [.sg]) (s : State) (l : RegLine) :
    see φ (State.cutHistory s l) = see φ s := by
  unfold State.cutHistory
  (repeat' split) <;> simp (disch := exact hb.mono rfl)

@[simp ↓] theorem State.rcOut_see {γ : Type} (φ : State → γ) (hb : Blind φ [.fresh, .dict, .out, .draws, .dramBad, .cxl, .rc, .rg, .sg, .slots, .rt, .cal]) (s : State) (p : Nat) :
    see φ (State.rcOut s p) = see φ s := by
  unfold State.rcOut
  (repeat' split) <;> simp (disch := exact hb.mono rfl) <;> (repeat rw [foldl_see]) <;> intros <;> (repeat' split) <;> simp (disch := exact hb.mono rfl)

@[simp ↓] theorem State.drainPort_see {γ : Type} (φ : State → γ) (hb : Blind φ [.fresh, .dict, .errName, .out, .draws, .dramBad, .lattice, .cxl, .rc, .rg, .sg, .st, .slots, .rt, .cal]) (s : State) (p : Nat) :
    see φ (State.drainPort s p) = see φ s := by
  unfold State.drainPort
  (repeat' split) <;> simp (disch := exact hb.mono rfl)

@[simp ↓] theorem State.snapshotHeld_see {γ : Type} (φ : State → γ) (hb : Blind φ [.out, .dramBad, .cxl]) (s : State) (p m : Nat) :
    see φ (State.snapshotHeld s p m) = see φ s := by
  unfold State.snapshotHeld
  (repeat' split) <;> simp (disch := exact hb.mono rfl)

theorem execRcLine_next (t : LineTake) (p : Fin 14) (s : State) :
    ∃ u, (execRcLine t p s) = .next u ∧ ∀ {γ : Type} (φ : State → γ), Blind φ [.fresh, .dict, .errName, .out, .draws, .dramBad, .lattice, .cxl, .cams, .rc, .rg, .sg, .ch, .st, .slots, .rt, .cal] → see φ u = see φ (State.at s t.time) := by
  unfold execRcLine
  simp only []
  (repeat' split) <;> exact ⟨_, rfl, fun φ hb => by simp (disch := exact hb.mono rfl)⟩

theorem execRgLine_next (t : Nat) (p : Fin 14) (errors : SramErrors) (s : State) :
    ∃ u, (execRgLine t p errors s) = .next u ∧ ∀ {γ : Type} (φ : State → γ), Blind φ [.fresh, .dict, .errName, .out, .draws, .dramBad, .lattice, .cxl, .rc, .rg, .apipes, .sg, .st, .cont, .slots, .hist, .rt, .cal] → see φ u = see φ (State.at s t) := by
  unfold execRgLine
  simp only []
  (repeat' split) <;> exact ⟨_, rfl, fun φ hb => by simp (disch := exact hb.mono rfl)⟩

theorem execAtlasScrubPass_next (t : Nat) (pipeline : Fin 13) (upsets : List AtlasUpset) (s : State) :
    ∃ u, (execAtlasScrubPass t pipeline upsets s) = .next u ∧ ∀ {γ : Type} (φ : State → γ), Blind φ [.fresh, .dict, .errName, .out, .draws, .lattice, .cxl, .rc, .rg, .apipes, .sg, .cont] → see φ u = see φ (State.at s t) := by
  unfold execAtlasScrubPass
  simp only []
  (repeat' split) <;> exact ⟨_, rfl, fun φ hb => by simp (disch := exact hb.mono rfl)⟩

end Sys2Proof.Machine
end

