-- ==== Sys2Proof/Laws/Reset.lean ====
section
/-! SUPPORT. What each operation of Machine/Reset.lean leaves alone, and that each of its commands goes on. -/

set_option maxRecDepth 4000
set_option linter.unusedSimpArgs false

namespace Sys2Proof.Machine

open Sys2Proof

@[simp ↓] theorem State.clearCounters_see {γ : Type} (φ : State → γ) (hb : Blind φ [.dict]) (s : State) (rows : List ObjRow) (f : Nat → Nat → Bool) :
    see φ (State.clearCounters s rows f) = see φ s := by
  unfold State.clearCounters
  (repeat' split) <;> simp (disch := exact hb.mono rfl)

@[simp ↓] theorem State.clearObjects_see {γ : Type} (φ : State → γ) (hb : Blind φ [.dict, .blobs]) (s : State) (rows : List ObjRow) (f : Nat → Nat → Bool) :
    see φ (State.clearObjects s rows f) = see φ s := by
  unfold State.clearObjects
  (repeat' split) <;> simp (disch := exact hb.mono rfl)

@[simp ↓] theorem State.clearPort_see {γ : Type} (φ : State → γ) (hb : Blind φ [.dict]) (s : State) (rows : List ObjRow) (p : Nat) :
    see φ (State.clearPort s rows p) = see φ s := by
  unfold State.clearPort
  (repeat' split) <;> simp (disch := exact hb.mono rfl)

@[simp ↓] theorem State.pipeClear_see {γ : Type} (φ : State → γ) (hb : Blind φ [.dict, .rc, .rg, .sg]) (s : State) (p : Nat) :
    see φ (State.pipeClear s p) = see φ s := by
  unfold State.pipeClear
  (repeat' split) <;> simp (disch := exact hb.mono rfl) <;> (repeat rw [foldl_see]) <;> intros <;> (repeat' split) <;> simp (disch := exact hb.mono rfl)

@[simp ↓] theorem State.statClear_see {γ : Type} (φ : State → γ) (hb : Blind φ [.dict, .blobs]) (s : State) (p : Nat) :
    see φ (State.statClear s p) = see φ s := by
  unfold State.statClear
  (repeat' split) <;> simp (disch := exact hb.mono rfl)

@[simp ↓] theorem State.cxpClear_see {γ : Type} (φ : State → γ) (hb : Blind φ [.fresh, .dict, .blobs, .errName, .out, .lattice, .cxl, .cams, .rc, .rg]) (s : State) (p : Nat) :
    see φ (State.cxpClear s p) = see φ s := by
  unfold State.cxpClear
  (repeat' split) <;> simp (disch := exact hb.mono rfl) <;> (repeat rw [foldl_see]) <;> intros <;> (repeat' split) <;> simp (disch := exact hb.mono rfl)

@[simp ↓] theorem State.islandDown_see {γ : Type} (φ : State → γ) (hb : Blind φ [.fresh, .dict, .blobs, .errName, .out, .lattice, .cxl, .tim, .cams, .rc, .rg, .sg, .ch, .st, .judged, .lg, .cont, .mer]) (s : State) (i : Nat) :
    see φ (State.islandDown s i) = see φ s := by
  unfold State.islandDown
  (repeat' split) <;> simp (disch := exact hb.mono rfl) <;> (repeat rw [foldl_see]) <;> intros <;> (repeat' split) <;> simp (disch := exact hb.mono rfl)

@[simp ↓] theorem State.islandUp_see {γ : Type} (φ : State → γ) (hb : Blind φ [.fresh, .dict, .blobs, .errName, .out, .draws, .mem, .lost, .dramBad, .dram, .lattice, .cxl, .tim, .cams, .rc, .rg, .atl, .apipes, .sg, .ch, .st, .judged, .bank, .lg, .cont, .slots, .hist, .rt]) (s : State) (i : Nat) :
    see φ (State.islandUp s i) = see φ s := by
  unfold State.islandUp
  (repeat' split) <;> simp (disch := exact hb.mono rfl) <;> (repeat rw [foldl_see]) <;> intros <;> (repeat' split) <;> simp (disch := exact hb.mono rfl)

theorem execIslandReset_next (t : Nat) (path : Path) (value : List Byte) (s : State) :
    ∃ u, (execIslandReset t path value s) = .next u ∧ ∀ {γ : Type} (φ : State → γ), Blind φ [.fresh, .dict, .blobs, .errName, .out, .lattice, .cxl, .access, .tim, .cams, .rc, .rg, .sg, .ch, .st, .judged, .lg, .cont, .mer] → see φ u = see φ (State.at s t) := by
  unfold execIslandReset
  simp only []
  (repeat' split) <;> exact ⟨_, rfl, fun φ hb => by simp (disch := exact hb.mono rfl)⟩

theorem execIslandResetEnter_next (t : Nat) (island : Fin 40) (flushed : Nat) (s : State) :
    ∃ u, (execIslandResetEnter t island flushed s) = .next u ∧ ∀ {γ : Type} (φ : State → γ), Blind φ [.fresh, .dict] → see φ u = see φ (State.at s t) := by
  unfold execIslandResetEnter
  exact ⟨_, rfl, fun φ hb => by simp (disch := exact hb.mono rfl)⟩

theorem execIslandReady_next (t : Nat) (island : Fin 40) (s : State) :
    ∃ u, (execIslandReady t island s) = .next u ∧ ∀ {γ : Type} (φ : State → γ), Blind φ [.fresh, .dict, .blobs, .errName, .out, .draws, .mem, .lost, .dramBad, .dram, .lattice, .cxl, .tim, .cams, .rc, .rg, .atl, .apipes, .sg, .ch, .st, .judged, .bank, .lg, .cont, .slots, .hist, .rt] → see φ u = see φ (State.at s t) := by
  unfold execIslandReady
  exact ⟨_, rfl, fun φ hb => by simp (disch := exact hb.mono rfl)⟩

@[simp ↓] theorem State.gateIslands_see {γ : Type} (φ : State → γ) (hb : Blind φ [.dict, .out, .draws]) (s : State) :
    see φ (State.gateIslands s) = see φ s := by
  unfold State.gateIslands
  (repeat' split) <;> simp (disch := exact hb.mono rfl) <;> (repeat rw [foldl_see]) <;> intros <;> (repeat' split) <;> simp (disch := exact hb.mono rfl)

@[simp ↓] theorem State.wakeIslands_see {γ : Type} (φ : State → γ) (hb : Blind φ [.dict, .out, .draws, .apipes]) (s : State) :
    see φ (State.wakeIslands s) = see φ s := by
  unfold State.wakeIslands
  (repeat' split) <;> simp (disch := exact hb.mono rfl) <;> (repeat rw [foldl_see]) <;> intros <;> (repeat' split) <;> simp (disch := exact hb.mono rfl)

@[simp ↓] theorem State.preopEntry_see {γ : Type} (φ : State → γ) (hb : Blind φ [.fresh, .dict, .blobs, .errName, .out, .draws, .mem, .lost, .dramBad, .dram, .lattice, .cxl, .tim, .cams, .rc, .atl, .apipes, .cont, .slots, .hist, .rt]) (s : State) :
    see φ (State.preopEntry s) = see φ s := by
  unfold State.preopEntry
  (repeat' split) <;> simp (disch := exact hb.mono rfl)

@[simp ↓] theorem State.timReset_see {γ : Type} (φ : State → γ) (hb : Blind φ [.fresh, .dict, .errName, .out, .lattice, .cxl, .tim]) (s : State) :
    see φ (State.timReset s) = see φ s := by
  unfold State.timReset
  (repeat' split) <;> simp (disch := exact hb.mono rfl) <;> (repeat rw [foldl_see]) <;> intros <;> (repeat' split) <;> simp (disch := exact hb.mono rfl)

@[simp ↓] theorem State.latticeReset_see {γ : Type} (φ : State → γ) (hb : Blind φ [.dict, .blobs, .lattice]) (s : State) :
    see φ (State.latticeReset s) = see φ s := by
  unfold State.latticeReset
  (repeat' split) <;> simp (disch := exact hb.mono rfl)

@[simp ↓] theorem State.amReset_see {γ : Type} (φ : State → γ) (hb : Blind φ [.dict, .blobs]) (s : State) :
    see φ (State.amReset s) = see φ s := by
  unfold State.amReset
  (repeat' split) <;> simp (disch := exact hb.mono rfl)

@[simp ↓] theorem State.linksReset_see {γ : Type} (φ : State → γ) (hb : Blind φ [.fresh, .dict, .blobs, .errName, .out, .lattice, .cxl, .tim, .cams, .rc, .rg, .sg, .ch, .lanes, .st, .judged, .cont]) (s : State) :
    see φ (State.linksReset s) = see φ s := by
  unfold State.linksReset
  (repeat' split) <;> simp (disch := exact hb.mono rfl) <;> (repeat rw [foldl_see]) <;> intros <;> (repeat' split) <;> simp (disch := exact hb.mono rfl)

@[simp ↓] theorem State.accessReset_see {γ : Type} (φ : State → γ) (hb : Blind φ [.dict, .latches, .access]) (s : State) :
    see φ (State.accessReset s) = see φ s := by
  unfold State.accessReset
  (repeat' split) <;> simp (disch := exact hb.mono rfl)

@[simp ↓] theorem State.dramSleep_see {γ : Type} (φ : State → γ) (hb : Blind φ [.dict]) (s : State) :
    see φ (State.dramSleep s) = see φ s := by
  unfold State.dramSleep
  (try simp only [])
  repeat' first | with_reducible rfl | split | (rw [foldl_see]) | (rw [foldl_fst_see]) | intro _ | simp (disch := exact hb.mono rfl)

@[simp ↓] theorem State.bankStop_see {γ : Type} (φ : State → γ) (hb : Blind φ [.fresh, .dict, .out, .ch, .bank, .lg]) (s : State) (cause : Cause) (sent : Bool) :
    see φ (State.bankStop s cause sent) = see φ s := by
  unfold State.bankStop
  (repeat' split) <;> simp (disch := exact hb.mono rfl) <;> (repeat rw [foldl_see]) <;> intros <;> (repeat' split) <;> simp (disch := exact hb.mono rfl)

@[simp ↓] theorem State.portsReset_see {γ : Type} (φ : State → γ) (hb : Blind φ [.fresh, .dict, .blobs, .errName, .out, .lattice, .cxl, .cams, .rc, .rg, .atl, .sg, .st, .judged, .cont, .thumbs, .rt]) (s : State) :
    see φ (State.portsReset s) = see φ s := by
  unfold State.portsReset
  (repeat' split) <;> simp (disch := exact hb.mono rfl) <;> (repeat rw [foldl_see]) <;> intros <;> (repeat' split) <;> simp (disch := exact hb.mono rfl)

@[simp ↓] theorem State.warmReset_see {γ : Type} (φ : State → γ) (hb : Blind φ [.fresh, .dict, .blobs, .errName, .latches, .out, .draws, .lattice, .cxl, .access, .tim, .cams, .rc, .rg, .atl, .sg, .ch, .lanes, .st, .judged, .bank, .lg, .vault, .cont, .thumbs, .rt, .holdBy, .mer, .fw, .trans, .cal, .power]) (s : State) :
    see φ (State.warmReset s) = see φ s := by
  unfold State.warmReset
  (repeat' split) <;> simp (disch := exact hb.mono rfl) <;> (repeat rw [foldl_see]) <;> intros <;> (repeat' split) <;> simp (disch := exact hb.mono rfl)

@[simp ↓] theorem State.resetNow_see {γ : Type} (φ : State → γ) (hb : Blind φ [.fresh, .dict, .blobs, .errName, .latches, .out, .draws, .lattice, .cxl, .access, .tim, .cams, .rc, .rg, .atl, .sg, .ch, .lanes, .st, .judged, .bank, .lg, .vault, .cont, .thumbs, .rt, .holdBy, .mer, .fw, .trans, .cal, .power]) (s : State) :
    see φ (State.resetNow s) = see φ s := by
  unfold State.resetNow
  (repeat' split) <;> simp (disch := exact hb.mono rfl)

theorem execDeviceReset_next (t : Nat) (path : Path) (value : List Byte) (s : State) :
    ∃ u, (execDeviceReset t path value s) = .next u ∧ ∀ {γ : Type} (φ : State → γ), Blind φ [.fresh, .dict, .blobs, .errName, .latches, .out, .draws, .lattice, .cxl, .access, .tim, .cams, .rc, .rg, .atl, .sg, .ch, .lanes, .st, .judged, .bank, .lg, .vault, .cont, .thumbs, .rt, .holdBy, .mer, .fw, .trans, .cal, .power] → see φ u = see φ (State.at s t) := by
  unfold execDeviceReset
  simp only []
  (repeat' split) <;> exact ⟨_, rfl, fun φ hb => by simp (disch := exact hb.mono rfl)⟩

theorem execNreset_next (t : Nat) (s : State) :
    ∃ u, (execNreset t s) = .next u ∧ ∀ {γ : Type} (φ : State → γ), Blind φ [.fresh, .dict, .blobs, .errName, .latches, .out, .draws, .lattice, .cxl, .access, .tim, .cams, .rc, .rg, .atl, .sg, .ch, .lanes, .st, .judged, .bank, .lg, .vault, .cont, .thumbs, .rt, .holdBy, .mer, .fw, .trans, .cal, .power] → see φ u = see φ (State.at s t) := by
  unfold execNreset
  exact ⟨_, rfl, fun φ hb => by simp (disch := exact hb.mono rfl)⟩

theorem execNresetRelease_next (t : Nat) (s : State) :
    ∃ u, (execNresetRelease t s) = .next u ∧ ∀ {γ : Type} (φ : State → γ), Blind φ [.power] → see φ u = see φ (State.at s t) := by
  unfold execNresetRelease
  exact ⟨_, rfl, fun φ hb => by simp (disch := exact hb.mono rfl)⟩

@[simp ↓] theorem State.powerLost_see {γ : Type} (φ : State → γ) (hb : Blind φ [.fresh, .dict, .blobs, .staged, .stagedBlobs, .epochs, .errName, .latches, .mem, .lost, .dramBad, .dram, .scrubFrom, .lattice, .cxl, .access, .tim, .cams, .rc, .rg, .vd, .atl, .apipes, .sg, .ch, .lanes, .st, .judged, .bank, .lg, .vault, .cont, .place, .slots, .hist, .thumbs, .rt, .holdBy, .mer, .fw, .trans, .am, .cal, .power]) (s : State) (standby : Bool) :
    see φ (State.powerLost s standby) = see φ s := by
  unfold State.powerLost
  rw [foldl_see]
  · have e : see φ s.almAbandon.storeAbandon = see φ s := by simp (disch := exact hb.mono rfl)
    exact (hb s.almAbandon.storeAbandon _ (fun f hf => by cases f <;> first | rfl | cases hf)).trans e
  · intro a x
    simp (disch := exact hb.mono rfl)

@[simp ↓] theorem State.railsSend_see {γ : Type} (φ : State → γ) (hb : Blind φ [.out]) (s : State) (step : Nat) (on : Bool) :
    see φ (State.railsSend s step on) = see φ s := by
  unfold State.railsSend
  (try simp only [])
  repeat' first | with_reducible rfl | split | (rw [foldl_see]) | (rw [foldl_fst_see]) | intro _ | simp (disch := exact hb.mono rfl)

@[simp ↓] theorem State.railsOn_see {γ : Type} (φ : State → γ) (hb : Blind φ [.out, .power]) (s : State) (n : Nat) :
    see φ (State.railsOn s n) = see φ s := by
  unfold State.railsOn
  (repeat' split) <;> simp (disch := exact hb.mono rfl)

@[simp ↓] theorem State.railsOff_see {γ : Type} (φ : State → γ) (hb : Blind φ [.out]) (s : State) (n : Nat) :
    see φ (State.railsOff s n) = see φ s := by
  induction n generalizing s with
  | zero => rfl
  | succ k ih => simp (disch := exact hb.mono rfl) [State.railsOff, ih]

@[simp ↓] theorem State.startUp_see {γ : Type} (φ : State → γ) (hb : Blind φ [.dict, .blobs, .out, .draws, .lattice, .access, .power]) (s : State) :
    see φ (State.startUp s) = see φ s := by
  unfold State.startUp
  (repeat' split) <;> simp (disch := exact hb.mono rfl)

end Sys2Proof.Machine
end

