-- ==== Sys2Proof/Laws/Power.lean ====
section
/-! SUPPORT. What each operation of Machine/Power.lean leaves alone, and that each of its commands goes on. -/

set_option maxRecDepth 4000
set_option linter.unusedSimpArgs false

namespace Sys2Proof.Machine

open Sys2Proof

@[simp ↓] theorem State.pwBit_see {γ : Type} (φ : State → γ) (hb : Blind φ [.dict]) (s : State) (i : Nat) (v : Bool) :
    see φ (State.pwBit s i v) = see φ s := by
  unfold State.pwBit
  (repeat' split) <;> simp (disch := exact hb.mono rfl)

@[simp ↓] theorem State.saveGate_see {γ : Type} (φ : State → γ) (hb : Blind φ [.fresh, .dict, .errName, .out, .draws, .lattice, .cxl, .cams, .rc, .rg]) (s : State) :
    see φ (State.saveGate s) = see φ s := by
  unfold State.saveGate
  (try simp only [])
  repeat' first | with_reducible rfl | split | (rw [foldl_see]) | (rw [foldl_fst_see]) | intro _ | simp (disch := exact hb.mono rfl)

@[simp ↓] theorem State.enterSave_see {γ : Type} (φ : State → γ) (hb : Blind φ [.fresh, .dict, .errName, .out, .draws, .lattice, .cxl, .tim, .cams, .rc, .rg, .ch, .st, .judged, .bank, .lg, .vault, .holdBy, .trans, .cal, .power]) (s : State) (cause : Nat) :
    see φ (State.enterSave s cause) = see φ s := by
  unfold State.enterSave
  (repeat' split) <;> simp (disch := exact hb.mono rfl) <;> (repeat rw [foldl_see]) <;> intros <;> (repeat' split) <;> simp (disch := exact hb.mono rfl)

@[simp ↓] theorem State.railsDown_see {γ : Type} (φ : State → γ) (hb : Blind φ [.fresh, .dict, .blobs, .staged, .stagedBlobs, .epochs, .errName, .latches, .mem, .lost, .dramBad, .dram, .scrubFrom, .lattice, .cxl, .access, .tim, .cams, .rc, .rg, .vd, .atl, .apipes, .sg, .ch, .lanes, .st, .judged, .bank, .lg, .vault, .cont, .place, .slots, .hist, .thumbs, .rt, .holdBy, .mer, .fw, .trans, .am, .cal, .power]) (s : State) :
    see φ (State.railsDown s) = see φ s := by
  unfold State.railsDown
  (repeat' split) <;> simp (disch := exact hb.mono rfl)

@[simp ↓] theorem State.powerDown_see {γ : Type} (φ : State → γ) (hb : Blind φ [.fresh, .dict, .blobs, .staged, .stagedBlobs, .epochs, .errName, .latches, .out, .mem, .lost, .dramBad, .dram, .scrubFrom, .lattice, .cxl, .access, .tim, .cams, .rc, .rg, .vd, .atl, .apipes, .sg, .ch, .lanes, .st, .judged, .bank, .lg, .vault, .cont, .place, .slots, .hist, .thumbs, .rt, .holdBy, .mer, .fw, .trans, .am, .cal, .power]) (s : State) :
    see φ (State.powerDown s) = see φ s := by
  unfold State.powerDown
  (repeat' split) <;> simp (disch := exact hb.mono rfl)

theorem execPowerOn_next (t : Nat) (s : State) :
    ∃ u, (execPowerOn t s) = .next u ∧ ∀ {γ : Type} (φ : State → γ), Blind φ [.dict, .blobs, .out, .draws, .lattice, .access, .power] → see φ u = see φ (State.at s t) := by
  unfold execPowerOn
  exact ⟨_, rfl, fun φ hb => by simp (disch := exact hb.mono rfl)⟩

theorem execRailStepGood_next (t : Nat) (s : State) :
    ∃ u, (execRailStepGood t s) = .next u ∧ ∀ {γ : Type} (φ : State → γ), Blind φ [.dict, .out, .power] → see φ u = see φ (State.at s t) := by
  unfold execRailStepGood
  simp only []
  (repeat' split) <;> exact ⟨_, rfl, fun φ hb => by simp (disch := exact hb.mono rfl)⟩

theorem execPwPgTimeout_next (t : Nat) (late : List (Fin 10)) (s : State) :
    ∃ u, (execPwPgTimeout t late s) = .next u ∧ ∀ {γ : Type} (φ : State → γ), Blind φ [.fresh, .dict, .errName, .out, .lattice, .cxl, .power] → see φ u = see φ (State.at s t) := by
  unfold execPwPgTimeout
  simp only []
  (repeat' split) <;> refine ⟨_, rfl, fun φ hb => ?_⟩ <;> simp (disch := exact hb.mono rfl) <;> (repeat rw [foldl_see]) <;> intros <;> (repeat' split) <;> simp (disch := exact hb.mono rfl)

theorem execPwRetry_next (t : Nat) (s : State) :
    ∃ u, (execPwRetry t s) = .next u ∧ ∀ {γ : Type} (φ : State → γ), Blind φ [.out, .power] → see φ u = see φ (State.at s t) := by
  unfold execPwRetry
  simp only []
  (repeat' split) <;> exact ⟨_, rfl, fun φ hb => by simp (disch := exact hb.mono rfl)⟩

@[simp ↓] theorem State.fwPublish_see {γ : Type} (φ : State → γ) (hb : Blind φ [.dict]) (s : State) :
    see φ (State.fwPublish s) = see φ s := by
  unfold State.fwPublish
  simp only []
  (repeat' split) <;> simp (disch := exact hb.mono rfl) <;> (repeat' split) <;> simp (disch := exact hb.mono rfl)

@[simp ↓] theorem State.startFirmware_see {γ : Type} (φ : State → γ) (hb : Blind φ [.dict, .fw, .power]) (s : State) (r : StartReport) :
    see φ (State.startFirmware s r) = see φ s := by
  unfold State.startFirmware
  (repeat' split) <;> simp (disch := exact hb.mono rfl)

@[simp ↓] theorem State.trainDram_see {γ : Type} (φ : State → γ) (hb : Blind φ [.dict]) (s : State) :
    see φ (State.trainDram s) = see φ s := by
  unfold State.trainDram
  (repeat' split) <;> simp (disch := exact hb.mono rfl) <;> (repeat rw [foldl_see]) <;> intros <;> (repeat' split) <;> simp (disch := exact hb.mono rfl)

@[simp ↓] theorem State.startBist_see {γ : Type} (φ : State → γ) (hb : Blind φ [.fresh, .dict, .errName, .out, .draws, .lattice, .cxl, .tim, .cams, .rc, .rg, .sg, .ch, .st, .judged, .cont, .power]) (s : State) (r : StartReport) :
    see φ (State.startBist s r) = see φ s := by
  unfold State.startBist
  (repeat' split) <;> simp (disch := exact hb.mono rfl) <;> (repeat rw [foldl_see]) <;> intros <;> (repeat' split) <;> simp (disch := exact hb.mono rfl)

@[simp ↓] theorem State.startDram_see {γ : Type} (φ : State → γ) (hb : Blind φ [.fresh, .dict, .blobs, .errName, .out, .mem, .lost, .dramBad, .dram, .lattice, .cxl, .cams, .rc, .atl, .cont, .slots, .hist, .rt, .power]) (s : State) (r : StartReport) :
    see φ (State.startDram s r) = see φ s := by
  unfold State.startDram
  (repeat' split) <;> simp (disch := exact hb.mono rfl) <;> (repeat rw [foldl_see]) <;> intros <;> (repeat' split) <;> simp (disch := exact hb.mono rfl)

@[simp ↓] theorem State.restoreAlmanac_see {γ : Type} (φ : State → γ) (hb : Blind φ [.fresh, .dict, .errName, .out, .lattice, .cxl, .cal]) (s : State) :
    see φ (State.restoreAlmanac s) = see φ s := by
  unfold State.restoreAlmanac
  (try simp only [])
  repeat' first | with_reducible rfl | split | (rw [foldl_see]) | (rw [foldl_fst_see]) | intro _ | simp (disch := exact hb.mono rfl)

@[simp ↓] theorem State.ledgerRestore_see {γ : Type} (φ : State → γ) (hb : Blind φ [.fresh, .dict, .lg]) (s : State) (x : LedgerCopy) (mirrored : Bool) :
    see φ (State.ledgerRestore s x mirrored) = see φ s := by
  unfold State.ledgerRestore
  (repeat' split) <;> simp (disch := exact hb.mono rfl)

@[simp ↓] theorem State.ledgerGone_see {γ : Type} (φ : State → γ) (hb : Blind φ [.fresh, .dict, .lg]) (s : State) (mirror : Option LedgerCopy) :
    see φ (State.ledgerGone s mirror) = see φ s := by
  unfold State.ledgerGone
  (repeat' split) <;> simp (disch := exact hb.mono rfl)

@[simp ↓] theorem State.restoreEpochs_see {γ : Type} (φ : State → γ) (hb : Blind φ [.dict, .epochs]) (s : State) (x : SaveArea) :
    see φ (State.restoreEpochs s x) = see φ s := by
  unfold State.restoreEpochs
  (repeat' split) <;> simp (disch := exact hb.mono rfl)

@[simp ↓] theorem State.noSave_see {γ : Type} (φ : State → γ) (hb : Blind φ [.fresh, .dict, .lg]) (s : State) (mirror : Option LedgerCopy) :
    see φ (State.noSave s mirror) = see φ s := by
  unfold State.noSave
  (repeat' split) <;> simp (disch := exact hb.mono rfl)

@[simp ↓] theorem State.restoreSave_see {γ : Type} (φ : State → γ) (hb : Blind φ [.fresh, .dict, .epochs, .errName, .out, .lattice, .cxl, .lg, .vault]) (s : State) (mirror : Option LedgerCopy) :
    see φ (State.restoreSave s mirror) = see φ s := by
  unfold State.restoreSave
  simp only []
  (repeat' split) <;> simp (disch := exact hb.mono rfl) <;> (repeat' split) <;> simp (disch := exact hb.mono rfl)

@[simp ↓] theorem State.startVault_see {γ : Type} (φ : State → γ) (hb : Blind φ [.fresh, .dict, .epochs, .errName, .out, .lattice, .cxl, .lg, .vault, .cal, .power]) (s : State) (r : StartReport) :
    see φ (State.startVault s r) = see φ s := by
  unfold State.startVault
  (repeat' split) <;> simp (disch := exact hb.mono rfl)

@[simp ↓] theorem State.warmup_see {γ : Type} (φ : State → γ) (hb : Blind φ [.dict]) (s : State) (on : Bool) :
    see φ (State.warmup s on) = see φ s := by
  unfold State.warmup
  (try simp only [])
  repeat' first | with_reducible rfl | split | (rw [foldl_see]) | (rw [foldl_fst_see]) | intro _ | simp (disch := exact hb.mono rfl)

@[simp ↓] theorem State.enterInit_see {γ : Type} (φ : State → γ) (hb : Blind φ [.fresh, .dict, .errName, .out, .draws, .lattice, .cxl, .tim]) (s : State) :
    see φ (State.enterInit s) = see φ s := by
  unfold State.enterInit
  (repeat' split) <;> simp (disch := exact hb.mono rfl)

@[simp ↓] theorem State.showRefusal_see {γ : Type} (φ : State → γ) (hb : Blind φ [.dict, .blobs]) (s : State) (ident : Nat) (e : Ev) :
    see φ (State.showRefusal s ident e) = see φ s := by
  unfold State.showRefusal
  (repeat' split) <;> simp (disch := exact hb.mono rfl)

@[simp ↓] theorem State.refuse_see {γ : Type} (φ : State → γ) (hb : Blind φ [.fresh, .dict, .blobs, .errName, .out, .lattice, .cxl]) (s : State) (l : List (Nat × Ev)) :
    see φ (State.refuse s l) = see φ s := by
  unfold State.refuse
  (repeat' split) <;> simp (disch := exact hb.mono rfl) <;> (repeat rw [foldl_see]) <;> intros <;> (repeat' split) <;> simp (disch := exact hb.mono rfl)

@[simp ↓] theorem State.startInit_see {γ : Type} (φ : State → γ) (hb : Blind φ [.fresh, .dict, .blobs, .errName, .out, .draws, .lattice, .cxl, .tim, .power]) (s : State) :
    see φ (State.startInit s) = see φ s := by
  unfold State.startInit
  (repeat' split) <;> simp (disch := exact hb.mono rfl)

@[simp ↓] theorem State.bootPreop_see {γ : Type} (φ : State → γ) (hb : Blind φ [.fresh, .dict, .blobs, .staged, .stagedBlobs, .epochs, .errName, .out, .draws, .mem, .lost, .dramBad, .dram, .lattice, .cxl, .tim, .cams, .rc, .atl, .apipes, .cont, .slots, .hist, .rt, .cal, .power]) (s : State) :
    see φ (State.bootPreop s) = see φ s := by
  unfold State.bootPreop
  (repeat' split) <;> simp (disch := exact hb.mono rfl)

@[simp ↓] theorem State.startPreop_see {γ : Type} (φ : State → γ) (hb : Blind φ [.fresh, .dict, .blobs, .staged, .stagedBlobs, .epochs, .errName, .out, .draws, .mem, .lost, .dramBad, .dram, .lattice, .cxl, .tim, .cams, .rc, .atl, .apipes, .cont, .slots, .hist, .rt, .cal, .power]) (s : State) :
    see φ (State.startPreop s) = see φ s := by
  unfold State.startPreop
  (repeat' split) <;> simp (disch := exact hb.mono rfl)

@[simp ↓] theorem State.startControl_see {γ : Type} (φ : State → γ) (hb : Blind φ [.fresh, .dict, .errName, .out, .lattice, .cxl, .mer, .power]) (s : State) (r : StartReport) :
    see φ (State.startControl s r) = see φ s := by
  unfold State.startControl
  (repeat' split) <;> simp (disch := exact hb.mono rfl)

theorem execStartupStepDone_next (t : Nat) (report : StartReport) (s : State) :
    ∃ u, (execStartupStepDone t report s) = .next u ∧ ∀ {γ : Type} (φ : State → γ), Blind φ [.fresh, .dict, .blobs, .staged, .stagedBlobs, .epochs, .errName, .out, .draws, .mem, .lost, .dramBad, .dram, .lattice, .cxl, .tim, .cams, .rc, .rg, .atl, .apipes, .sg, .ch, .st, .judged, .lg, .vault, .cont, .slots, .hist, .rt, .mer, .fw, .cal, .power] → see φ u = see φ (State.at s t) := by
  unfold execStartupStepDone
  simp only []
  (repeat' split) <;> exact ⟨_, rfl, fun φ hb => by simp (disch := exact hb.mono rfl)⟩

theorem execPwWarmupTimeout_next (t : Nat) (s : State) :
    ∃ u, (execPwWarmupTimeout t s) = .next u ∧ ∀ {γ : Type} (φ : State → γ), Blind φ [.fresh, .dict, .blobs, .errName, .out, .lattice, .cxl, .power] → see φ u = see φ (State.at s t) := by
  unfold execPwWarmupTimeout
  simp only []
  (repeat' split) <;> exact ⟨_, rfl, fun φ hb => by simp (disch := exact hb.mono rfl)⟩

@[simp ↓] theorem State.railFault_see {γ : Type} (φ : State → γ) (hb : Blind φ [.fresh, .dict, .blobs, .staged, .stagedBlobs, .epochs, .errName, .latches, .out, .draws, .mem, .lost, .dramBad, .dram, .scrubFrom, .lattice, .cxl, .access, .tim, .cams, .rc, .rg, .vd, .atl, .apipes, .sg, .ch, .lanes, .st, .judged, .bank, .lg, .vault, .cont, .place, .slots, .hist, .thumbs, .rt, .holdBy, .mer, .fw, .trans, .am, .cal, .power]) (s : State) (low : List Nat) :
    see φ (State.railFault s low) = see φ s := by
  unfold State.railFault
  (repeat' split) <;> simp (disch := exact hb.mono rfl)

theorem execPgFall_next (t : Nat) (low : List (Fin 10)) (s : State) :
    ∃ u, (execPgFall t low s) = .next u ∧ ∀ {γ : Type} (φ : State → γ), Blind φ [.fresh, .dict, .blobs, .staged, .stagedBlobs, .epochs, .errName, .latches, .out, .draws, .mem, .lost, .dramBad, .dram, .scrubFrom, .lattice, .cxl, .access, .tim, .cams, .rc, .rg, .vd, .atl, .apipes, .sg, .ch, .lanes, .st, .judged, .bank, .lg, .vault, .cont, .place, .slots, .hist, .thumbs, .rt, .holdBy, .mer, .fw, .trans, .am, .cal, .power] → see φ u = see φ (State.at s t) := by
  unfold execPgFall
  simp only []
  (repeat' split) <;> exact ⟨_, rfl, fun φ hb => by simp (disch := exact hb.mono rfl)⟩

theorem execTempSample_next (t : Nat) (temps : List Int) (s : State) :
    ∃ u, (execTempSample t temps s) = .next u ∧ ∀ {γ : Type} (φ : State → γ), Blind φ [.fresh, .dict, .blobs, .staged, .stagedBlobs, .epochs, .errName, .latches, .out, .draws, .mem, .lost, .dramBad, .dram, .scrubFrom, .lattice, .cxl, .access, .tim, .cams, .rc, .rg, .vd, .atl, .apipes, .sg, .ch, .lanes, .st, .judged, .bank, .lg, .vault, .cont, .place, .slots, .hist, .thumbs, .rt, .holdBy, .mer, .fw, .trans, .am, .cal, .power] → see φ u = see φ (State.at s t) := by
  unfold execTempSample
  (try simp only [])
  (repeat' split) <;> refine ⟨_, rfl, fun φ hb => ?_⟩ <;> repeat' first | with_reducible rfl | split | (rw [foldl_see]) | (rw [foldl_fst_see]) | intro _ | simp (disch := exact hb.mono rfl)

theorem execThermalRestart_next (t : Nat) (s : State) :
    ∃ u, (execThermalRestart t s) = .next u ∧ ∀ {γ : Type} (φ : State → γ), Blind φ [.dict, .blobs, .out, .draws, .lattice, .access, .power] → see φ u = see φ (State.at s t) := by
  unfold execThermalRestart
  simp only []
  (repeat' split) <;> exact ⟨_, rfl, fun φ hb => by simp (disch := exact hb.mono rfl)⟩

@[simp ↓] theorem State.vinRead_see {γ : Type} (φ : State → γ) (hb : Blind φ [.dict]) (s : State) (mv : Nat) :
    see φ (State.vinRead s mv) = see φ s := by
  unfold State.vinRead
  (repeat' split) <;> simp (disch := exact hb.mono rfl)

@[simp ↓] theorem State.sagSample_see {γ : Type} (φ : State → γ) (hb : Blind φ [.dict]) (s : State) (lowest : Nat) :
    see φ (State.sagSample s lowest) = see φ s := by
  unfold State.sagSample
  (repeat' split) <;> simp (disch := exact hb.mono rfl)

theorem execVinFall_next (t : Nat) (millivolts : Nat) (s : State) :
    ∃ u, (execVinFall t millivolts s) = .next u ∧ ∀ {γ : Type} (φ : State → γ), Blind φ [.dict, .power] → see φ u = see φ (State.at s t) := by
  unfold execVinFall
  simp only []
  (repeat' split) <;> exact ⟨_, rfl, fun φ hb => by simp (disch := exact hb.mono rfl)⟩

theorem execVinRise_next (t : Nat) (millivolts lowest : Nat) (s : State) :
    ∃ u, (execVinRise t millivolts lowest s) = .next u ∧ ∀ {γ : Type} (φ : State → γ), Blind φ [.fresh, .dict, .errName, .out, .lattice, .cxl, .power] → see φ u = see φ (State.at s t) := by
  unfold execVinRise
  simp only []
  (repeat' split) <;> exact ⟨_, rfl, fun φ hb => by simp (disch := exact hb.mono rfl)⟩

theorem execVinSag_next (t : Nat) (lowest : Nat) (s : State) :
    ∃ u, (execVinSag t lowest s) = .next u ∧ ∀ {γ : Type} (φ : State → γ), Blind φ [.fresh, .dict, .errName, .out, .draws, .lattice, .cxl, .tim, .cams, .rc, .rg, .ch, .st, .judged, .bank, .lg, .vault, .holdBy, .trans, .cal, .power] → see φ u = see φ (State.at s t) := by
  unfold execVinSag
  simp only []
  (repeat' split) <;> exact ⟨_, rfl, fun φ hb => by simp (disch := exact hb.mono rfl)⟩

theorem execSaveWriteDone_next (t : Nat) (millivolts : Nat) (s : State) :
    ∃ u, (execSaveWriteDone t millivolts s) = .next u ∧ ∀ {γ : Type} (φ : State → γ), Blind φ [.fresh, .dict, .blobs, .staged, .stagedBlobs, .epochs, .errName, .latches, .out, .mem, .lost, .dramBad, .dram, .scrubFrom, .lattice, .cxl, .access, .tim, .cams, .rc, .rg, .vd, .atl, .apipes, .sg, .ch, .lanes, .st, .judged, .bank, .lg, .vault, .cont, .place, .slots, .hist, .thumbs, .rt, .holdBy, .mer, .fw, .trans, .am, .cal, .power] → see φ u = see φ (State.at s t) := by
  unfold execSaveWriteDone
  simp only []
  (repeat' split) <;> exact ⟨_, rfl, fun φ hb => by simp (disch := exact hb.mono rfl)⟩

theorem execSaveResume_next (t : Nat) (s : State) :
    ∃ u, (execSaveResume t s) = .next u ∧ ∀ {γ : Type} (φ : State → γ), Blind φ [.fresh, .dict, .blobs, .staged, .stagedBlobs, .epochs, .errName, .latches, .out, .draws, .mem, .lost, .dramBad, .dram, .scrubFrom, .lattice, .cxl, .access, .tim, .cams, .rc, .rg, .vd, .atl, .apipes, .sg, .ch, .lanes, .st, .judged, .bank, .lg, .vault, .cont, .place, .slots, .hist, .thumbs, .rt, .holdBy, .mer, .fw, .trans, .am, .cal, .power] → see φ u = see φ (State.at s t) := by
  unfold execSaveResume
  simp only []
  (repeat' split) <;> exact ⟨_, rfl, fun φ hb => by simp (disch := exact hb.mono rfl)⟩

theorem execVinCollapse_next (t : Nat) (s : State) :
    ∃ u, (execVinCollapse t s) = .next u ∧ ∀ {γ : Type} (φ : State → γ), Blind φ [.fresh, .dict, .blobs, .staged, .stagedBlobs, .epochs, .errName, .latches, .mem, .lost, .dramBad, .dram, .scrubFrom, .lattice, .cxl, .access, .tim, .cams, .rc, .rg, .vd, .atl, .apipes, .sg, .ch, .lanes, .st, .judged, .bank, .lg, .vault, .cont, .place, .slots, .hist, .thumbs, .rt, .holdBy, .mer, .fw, .trans, .am, .cal, .power] → see φ u = see φ (State.at s t) := by
  unfold execVinCollapse
  exact ⟨_, rfl, fun φ hb => by simp (disch := exact hb.mono rfl)⟩

theorem execStandbyLoss_next (t : Nat) (s : State) :
    ∃ u, (execStandbyLoss t s) = .next u ∧ ∀ {γ : Type} (φ : State → γ), Blind φ [.fresh, .dict, .blobs, .staged, .stagedBlobs, .epochs, .errName, .latches, .mem, .lost, .dramBad, .dram, .scrubFrom, .lattice, .cxl, .access, .tim, .cams, .rc, .rg, .vd, .atl, .apipes, .sg, .ch, .lanes, .st, .judged, .bank, .lg, .vault, .cont, .place, .slots, .hist, .thumbs, .rt, .holdBy, .mer, .fw, .trans, .am, .cal, .power] → see φ u = see φ (State.at s t) := by
  unfold execStandbyLoss
  exact ⟨_, rfl, fun φ hb => by simp (disch := exact hb.mono rfl)⟩

theorem execPwSleepCmd_next (t : Nat) (path : Path) (value : List Byte) (s : State) :
    ∃ u, (execPwSleepCmd t path value s) = .next u ∧ ∀ {γ : Type} (φ : State → γ), Blind φ [.fresh, .dict, .errName, .out, .draws, .lattice, .cxl, .access, .tim, .cams, .rc, .rg, .ch, .st, .judged, .bank, .lg, .vault, .holdBy, .trans, .cal, .power] → see φ u = see φ (State.at s t) := by
  unfold execPwSleepCmd
  simp only []
  (repeat' split) <;> exact ⟨_, rfl, fun φ hb => by simp (disch := exact hb.mono rfl)⟩

@[simp ↓] theorem State.wakeUp_see {γ : Type} (φ : State → γ) (hb : Blind φ [.dict, .blobs, .out, .draws, .lattice, .access, .power]) (s : State) :
    see φ (State.wakeUp s) = see φ s := by
  unfold State.wakeUp
  (repeat' split) <;> simp (disch := exact hb.mono rfl)

theorem execPwStatusRead_next (t : Nat) (path : Path) (s : State) :
    ∃ u, (execPwStatusRead t path s) = .next u ∧ ∀ {γ : Type} (φ : State → γ), Blind φ [.dict, .out, .access] → see φ u = see φ (State.at s t) := by
  unfold execPwStatusRead
  exact ⟨_, rfl, fun φ hb => by simp (disch := exact hb.mono rfl)⟩

end Sys2Proof.Machine
end

