-- ==== Sys2Proof/Laws/States.lean ====
section
/-! SUPPORT. What each operation of Machine/States.lean leaves alone, and that each of its commands goes on. -/

set_option maxRecDepth 4000
set_option linter.unusedSimpArgs false

namespace Sys2Proof.Machine

open Sys2Proof

@[simp ↓] theorem State.leaveBits_see {γ : Type} (φ : State → γ) (hb : Blind φ [.dict]) (s : State) (l : List (Nat × Ev)) :
    see φ (State.leaveBits s l) = see φ s := by
  unfold State.leaveBits
  (repeat' split) <;> simp (disch := exact hb.mono rfl) <;> (repeat rw [foldl_see]) <;> intros <;> (repeat' split) <;> simp (disch := exact hb.mono rfl)

@[simp ↓] theorem State.toState_see {γ : Type} (φ : State → γ) (hb : Blind φ [.trans]) (s : State) (target : Nat) :
    see φ (State.toState s target) = see φ s := by
  unfold State.toState
  (repeat' split) <;> simp (disch := exact hb.mono rfl)

@[simp ↓] theorem State.stateRequest_see {γ : Type} (φ : State → γ) (hb : Blind φ [.dict, .out, .access]) (s : State) (path : Path) (target : Nat) (f : State → State) (h_f : ∀ a, see φ (f a) = see φ a) :
    see φ (State.stateRequest s path target f) = see φ s := by
  unfold State.stateRequest
  (repeat' split) <;> simp (disch := exact hb.mono rfl) <;> (repeat rw [foldl_see]) <;> intros <;> (repeat' split) <;> simp (disch := exact hb.mono rfl) [*]

theorem execReqInit_next (t : Nat) (path : Path) (s : State) :
    ∃ u, (execReqInit t path s) = .next u ∧ ∀ {γ : Type} (φ : State → γ), Blind φ [.dict, .out, .access, .trans] → see φ u = see φ (State.at s t) := by
  unfold execReqInit
  refine ⟨_, rfl, fun φ hb => ?_⟩
  refine (State.stateRequest_see φ (hb.mono rfl) _ _ _ _ ?_).trans rfl
  intro a
  (try simp only [])
  (repeat' split) <;> simp (disch := exact hb.mono rfl)

@[simp ↓] theorem State.stopLines_see {γ : Type} (φ : State → γ) (hb : Blind φ [.fresh, .dict, .errName, .out, .draws, .dramBad, .lattice, .cxl, .tim, .rc, .rg, .sg, .st, .slots, .rt, .trans, .cal]) (s : State) :
    see φ (State.stopLines s) = see φ s := by
  unfold State.stopLines
  (try simp only [])
  repeat' first | with_reducible rfl | split | (rw [foldl_see]) | (rw [foldl_fst_see]) | intro _ | simp (disch := exact hb.mono rfl)

@[simp ↓] theorem State.requestPreop_see {γ : Type} (φ : State → γ) (hb : Blind φ [.fresh, .dict, .blobs, .errName, .out, .draws, .dramBad, .lattice, .cxl, .tim, .rc, .rg, .sg, .st, .slots, .rt, .trans, .cal]) (s : State) :
    see φ (State.requestPreop s) = see φ s := by
  unfold State.requestPreop
  (repeat' split) <;> simp (disch := exact hb.mono rfl)

theorem execReqPreop_next (t : Nat) (path : Path) (s : State) :
    ∃ u, (execReqPreop t path s) = .next u ∧ ∀ {γ : Type} (φ : State → γ), Blind φ [.fresh, .dict, .blobs, .errName, .out, .draws, .dramBad, .lattice, .cxl, .access, .tim, .rc, .rg, .sg, .st, .slots, .rt, .trans, .cal] → see φ u = see φ (State.at s t) := by
  unfold execReqPreop
  refine ⟨_, rfl, fun φ hb => ?_⟩
  refine (State.stateRequest_see φ (hb.mono rfl) _ _ _ _ ?_).trans rfl
  intro a
  (try simp only [])
  (repeat' split) <;> simp (disch := exact hb.mono rfl)

@[simp ↓] theorem State.armWrites_see {γ : Type} (φ : State → γ) (hb : Blind φ [.fresh, .dict, .errName, .out, .lattice, .cxl, .cams, .rc, .rg]) (s : State) (p : Nat) :
    see φ (State.armWrites s p) = see φ s := by
  unfold State.armWrites
  (repeat' split) <;> simp (disch := exact hb.mono rfl)

@[simp ↓] theorem State.armWriteAll_see {γ : Type} (φ : State → γ) (hb : Blind φ [.fresh, .dict, .errName, .out, .lattice, .cxl, .cams, .rc, .rg]) (s : State) :
    see φ (State.armWriteAll s) = see φ s := by
  unfold State.armWriteAll
  (try simp only [])
  repeat' first | with_reducible rfl | split | (rw [foldl_see]) | (rw [foldl_fst_see]) | intro _ | simp (disch := exact hb.mono rfl)

@[simp ↓] theorem State.leavePreop_see {γ : Type} (φ : State → γ) (hb : Blind φ [.fresh, .dict, .blobs, .staged, .stagedBlobs, .errName, .out, .draws, .lattice, .cxl, .tim, .mer]) (s : State) :
    see φ (State.leavePreop s) = see φ s := by
  unfold State.leavePreop
  (repeat' split) <;> simp (disch := exact hb.mono rfl)

@[simp ↓] theorem State.requestArmed_see {γ : Type} (φ : State → γ) (hb : Blind φ [.fresh, .dict, .blobs, .staged, .stagedBlobs, .errName, .out, .draws, .lattice, .cxl, .tim, .cams, .rc, .rg, .mer, .trans]) (s : State) :
    see φ (State.requestArmed s) = see φ s := by
  unfold State.requestArmed
  (try simp only [])
  repeat' first | with_reducible rfl | split | (rw [foldl_see]) | (rw [foldl_fst_see]) | intro _ | simp (disch := exact hb.mono rfl)

theorem execReqArmed_next (t : Nat) (path : Path) (s : State) :
    ∃ u, (execReqArmed t path s) = .next u ∧ ∀ {γ : Type} (φ : State → γ), Blind φ [.fresh, .dict, .blobs, .staged, .stagedBlobs, .errName, .out, .draws, .lattice, .cxl, .access, .tim, .cams, .rc, .rg, .mer, .trans] → see φ u = see φ (State.at s t) := by
  unfold execReqArmed
  refine ⟨_, rfl, fun φ hb => ?_⟩
  refine (State.stateRequest_see φ (hb.mono rfl) _ _ _ _ ?_).trans rfl
  intro a
  (try simp only [])
  (repeat' split) <;> simp (disch := exact hb.mono rfl)

@[simp ↓] theorem State.requestRun_see {γ : Type} (φ : State → γ) (hb : Blind φ [.fresh, .dict, .blobs, .errName, .out, .lattice, .cxl, .trans]) (s : State) :
    see φ (State.requestRun s) = see φ s := by
  unfold State.requestRun
  simp only []
  (repeat' split) <;> simp (disch := exact hb.mono rfl) <;> (repeat' split) <;> simp (disch := exact hb.mono rfl)

theorem execReqRun_next (t : Nat) (path : Path) (s : State) :
    ∃ u, (execReqRun t path s) = .next u ∧ ∀ {γ : Type} (φ : State → γ), Blind φ [.fresh, .dict, .blobs, .errName, .out, .lattice, .cxl, .access, .trans] → see φ u = see φ (State.at s t) := by
  unfold execReqRun
  refine ⟨_, rfl, fun φ hb => ?_⟩
  refine (State.stateRequest_see φ (hb.mono rfl) _ _ _ _ ?_).trans rfl
  intro a
  (try simp only [])
  (repeat' split) <;> simp (disch := exact hb.mono rfl)

theorem execReqHold_next (t : Nat) (path : Path) (s : State) :
    ∃ u, (execReqHold t path s) = .next u ∧ ∀ {γ : Type} (φ : State → γ), Blind φ [.dict, .out, .access, .trans] → see φ u = see φ (State.at s t) := by
  unfold execReqHold
  refine ⟨_, rfl, fun φ hb => ?_⟩
  refine (State.stateRequest_see φ (hb.mono rfl) _ _ _ _ ?_).trans rfl
  intro a
  (try simp only [])
  (repeat' split) <;> simp (disch := exact hb.mono rfl)

@[simp ↓] theorem State.armPort_see {γ : Type} (φ : State → γ) (hb : Blind φ [.dict, .cams, .rc, .rg, .sg]) (s : State) (p : Nat) :
    see φ (State.armPort s p) = see φ s := by
  unfold State.armPort
  (repeat' split) <;> simp (disch := exact hb.mono rfl)

@[simp ↓] theorem State.armEpoch_see {γ : Type} (φ : State → γ) (hb : Blind φ [.fresh, .dict, .blobs, .epochs, .errName, .out, .lattice, .cxl, .rc, .vd, .atl, .apipes, .st, .cont, .cal]) (s : State) (g : Nat) :
    see φ (State.armEpoch s g) = see φ s := by
  unfold State.armEpoch
  (repeat' split) <;> simp (disch := exact hb.mono rfl)

@[simp ↓] theorem State.armSeen_see {γ : Type} (φ : State → γ) (hb : Blind φ [.dict]) (s : State) :
    see φ (State.armSeen s) = see φ s := by
  unfold State.armSeen
  (repeat' split) <;> simp (disch := exact hb.mono rfl)

@[simp ↓] theorem State.enterArmed_see {γ : Type} (φ : State → γ) (hb : Blind φ [.fresh, .dict, .blobs, .epochs, .errName, .out, .draws, .lattice, .cxl, .tim, .cams, .rc, .rg, .vd, .atl, .apipes, .sg, .ch, .st, .judged, .bank, .lg, .cont, .place, .slots, .hist, .thumbs, .rt, .holdBy, .am, .cal]) (s : State) :
    see φ (State.enterArmed s) = see φ s := by
  unfold State.enterArmed
  (try simp only [])
  repeat' first | with_reducible rfl | split | (rw [foldl_see]) | (rw [foldl_fst_see]) | intro _ | simp (disch := exact hb.mono rfl)

@[simp ↓] theorem State.enterPreop_see {γ : Type} (φ : State → γ) (hb : Blind φ [.fresh, .dict, .blobs, .errName, .out, .draws, .mem, .lost, .dramBad, .dram, .lattice, .cxl, .tim, .cams, .rc, .vd, .atl, .apipes, .cont, .slots, .hist, .rt, .cal]) (s : State) :
    see φ (State.enterPreop s) = see φ s := by
  unfold State.enterPreop
  (try simp only [])
  repeat' first | with_reducible rfl | split | (rw [foldl_see]) | (rw [foldl_fst_see]) | intro _ | simp (disch := exact hb.mono rfl)

@[simp ↓] theorem State.completeArmed_see {γ : Type} (φ : State → γ) (hb : Blind φ [.fresh, .dict, .blobs, .staged, .stagedBlobs, .epochs, .errName, .out, .draws, .lattice, .cxl, .tim, .cams, .rc, .rg, .vd, .atl, .apipes, .sg, .ch, .st, .judged, .bank, .lg, .cont, .place, .slots, .hist, .thumbs, .rt, .holdBy, .mer, .trans, .am, .cal]) (s : State) :
    see φ (State.completeArmed s) = see φ s := by
  unfold State.completeArmed
  simp only []
  (repeat' split) <;> simp (disch := exact hb.mono rfl) <;> (repeat' split) <;> simp (disch := exact hb.mono rfl)

theorem execStateTransitionDone_next (t : Nat) (s : State) :
    ∃ u, (execStateTransitionDone t s) = .next u ∧ ∀ {γ : Type} (φ : State → γ), Blind φ [.fresh, .dict, .blobs, .staged, .stagedBlobs, .epochs, .errName, .out, .draws, .mem, .lost, .dramBad, .dram, .lattice, .cxl, .tim, .cams, .rc, .rg, .vd, .atl, .apipes, .sg, .ch, .st, .judged, .bank, .lg, .cont, .place, .slots, .hist, .thumbs, .rt, .holdBy, .mer, .trans, .am, .cal, .power] → see φ u = see φ (State.at s t) := by
  unfold execStateTransitionDone
  simp only []
  (repeat' split) <;> exact ⟨_, rfl, fun φ hb => by simp (disch := exact hb.mono rfl)⟩

theorem execFaultEntry_next (t : Nat) (s : State) :
    ∃ u, (execFaultEntry t s) = .next u ∧ ∀ {γ : Type} (φ : State → γ), Blind φ [.fresh, .dict, .errName, .out, .draws, .dramBad, .lattice, .cxl, .tim, .rc, .rg, .sg, .ch, .st, .bank, .lg, .slots, .rt, .trans, .cal] → see φ u = see φ (State.at s t) := by
  unfold execFaultEntry
  simp only []
  (repeat' split) <;> refine ⟨_, rfl, fun φ hb => ?_⟩ <;> simp (disch := exact hb.mono rfl) <;> (repeat rw [foldl_see]) <;> intros <;> (repeat' split) <;> simp (disch := exact hb.mono rfl)

theorem execTimeUnlock_next (t : Nat) (s : State) :
    ∃ u, (execTimeUnlock t s) = .next u ∧ ∀ {γ : Type} (φ : State → γ), Blind φ [.fresh, .dict, .errName, .out, .draws, .lattice, .cxl, .tim, .holdBy] → see φ u = see φ (State.at s t) := by
  unfold execTimeUnlock
  simp only []
  (repeat' split) <;> exact ⟨_, rfl, fun φ hb => by simp (disch := exact hb.mono rfl)⟩

theorem execTimeRelock_next (t : Nat) (s : State) :
    ∃ u, (execTimeRelock t s) = .next u ∧ ∀ {γ : Type} (φ : State → γ), Blind φ [.fresh, .dict, .errName, .out, .draws, .lattice, .cxl, .tim, .mer] → see φ u = see φ (State.at s t) := by
  unfold execTimeRelock
  simp only []
  (repeat' split) <;> exact ⟨_, rfl, fun φ hb => by simp (disch := exact hb.mono rfl)⟩

end Sys2Proof.Machine
end

