-- ==== Sys2Proof/Laws/Security.lean ====
section
/-! SUPPORT. What each operation of Machine/Security.lean leaves alone, and that each of its commands goes on. -/

set_option maxRecDepth 4000
set_option linter.unusedSimpArgs false

namespace Sys2Proof.Machine

open Sys2Proof

@[simp ↓] theorem State.setFails_see {γ : Type} (φ : State → γ) (hb : Blind φ [.access]) (s : State) (host : Bool) (fails lock : Nat) :
    see φ (State.setFails s host fails lock) = see φ s := by
  unfold State.setFails
  (repeat' split) <;> simp (disch := exact hb.mono rfl)

@[simp ↓] theorem State.attempt_see {γ : Type} (φ : State → γ) (hb : Blind φ [.fresh, .dict, .blobs, .draws, .access]) (s : State) (host ok : Bool) (level : Nat) :
    see φ (State.attempt s host ok level) = see φ s := by
  unfold State.attempt
  (repeat' split) <;> simp (disch := exact hb.mono rfl)

theorem execAccessCodeWrite_next (t : Nat) (path : Path) (value : List Byte) (s : State) :
    ∃ u, (execAccessCodeWrite t path value s) = .next u ∧ ∀ {γ : Type} (φ : State → γ), Blind φ [.fresh, .dict, .blobs, .out, .draws, .access] → see φ u = see φ (State.at s t) := by
  unfold execAccessCodeWrite
  simp only []
  (repeat' split) <;> exact ⟨_, rfl, fun φ hb => by simp (disch := exact hb.mono rfl)⟩

theorem execAccessUnlockWrite_next (t : Nat) (path : Path) (value : List Byte) (s : State) :
    ∃ u, (execAccessUnlockWrite t path value s) = .next u ∧ ∀ {γ : Type} (φ : State → γ), Blind φ [.fresh, .dict, .blobs, .out, .draws, .access] → see φ u = see φ (State.at s t) := by
  unfold execAccessUnlockWrite
  simp only []
  (repeat' split) <;> exact ⟨_, rfl, fun φ hb => by simp (disch := exact hb.mono rfl)⟩

theorem execAccessLevelWrite_next (t : Nat) (path : Path) (value : List Byte) (s : State) :
    ∃ u, (execAccessLevelWrite t path value s) = .next u ∧ ∀ {γ : Type} (φ : State → γ), Blind φ [.dict, .out, .access] → see φ u = see φ (State.at s t) := by
  unfold execAccessLevelWrite
  simp only []
  (repeat' split) <;> exact ⟨_, rfl, fun φ hb => by simp (disch := exact hb.mono rfl)⟩

theorem execAccessLevelTimeout_next (t : Nat) (host : Bool) (s : State) :
    ∃ u, (execAccessLevelTimeout t host s) = .next u ∧ ∀ {γ : Type} (φ : State → γ), Blind φ [.dict] → see φ u = see φ (State.at s t) := by
  unfold execAccessLevelTimeout
  exact ⟨_, rfl, fun φ hb => by simp (disch := exact hb.mono rfl)⟩

theorem execNonceRefresh_next (t : Nat) (s : State) :
    ∃ u, (execNonceRefresh t s) = .next u ∧ ∀ {γ : Type} (φ : State → γ), Blind φ [.blobs, .draws, .access] → see φ u = see φ (State.at s t) := by
  unfold execNonceRefresh
  exact ⟨_, rfl, fun φ hb => by simp (disch := exact hb.mono rfl)⟩

theorem execUnlockLockoutEnd_next (t : Nat) (host : Bool) (s : State) :
    ∃ u, (execUnlockLockoutEnd t host s) = .next u ∧ ∀ {γ : Type} (φ : State → γ), Blind φ [.access] → see φ u = see φ (State.at s t) := by
  unfold execUnlockLockoutEnd
  exact ⟨_, rfl, fun φ hb => by simp (disch := exact hb.mono rfl)⟩

theorem execSecKeyWrite_next (t : Nat) (path : Path) (slot : Fin 8) (value : List Byte) (s : State) :
    ∃ u, (execSecKeyWrite t path slot value s) = .next u ∧ ∀ {γ : Type} (φ : State → γ), Blind φ [.blobs, .out, .access] → see φ u = see φ (State.at s t) := by
  unfold execSecKeyWrite
  simp only []
  (repeat' split) <;> exact ⟨_, rfl, fun φ hb => by simp (disch := exact hb.mono rfl)⟩

@[simp ↓] theorem State.imageRefused_see {γ : Type} (φ : State → γ) (hb : Blind φ [.dict, .fw]) (s : State) (code : Nat) :
    see φ (State.imageRefused s code) = see φ s := by
  unfold State.imageRefused
  (repeat' split) <;> simp (disch := exact hb.mono rfl)

@[simp ↓] theorem State.imageWrite_see {γ : Type} (φ : State → γ) (hb : Blind φ [.dict, .out, .access, .fw]) (s : State) (path : Path) (o : ObjRow) (busy : Bool) (image : List Byte) :
    see φ (State.imageWrite s path o busy image) = see φ s := by
  unfold State.imageWrite
  simp only []
  (repeat' split) <;> simp (disch := exact hb.mono rfl) <;> (repeat' split) <;> simp (disch := exact hb.mono rfl)

theorem execFwImageWrite_next (t : Nat) (path : Path) (image : List Byte) (s : State) :
    ∃ u, (execFwImageWrite t path image s) = .next u ∧ ∀ {γ : Type} (φ : State → γ), Blind φ [.dict, .out, .access, .fw] → see φ u = see φ (State.at s t) := by
  unfold execFwImageWrite
  exact ⟨_, rfl, fun φ hb => by simp (disch := exact hb.mono rfl)⟩

theorem execFwImageHostWrite_next (t : Nat) (path : Path) (image : List Byte) (s : State) :
    ∃ u, (execFwImageHostWrite t path image s) = .next u ∧ ∀ {γ : Type} (φ : State → γ), Blind φ [.dict, .out, .access, .fw] → see φ u = see φ (State.at s t) := by
  unfold execFwImageHostWrite
  exact ⟨_, rfl, fun φ hb => by simp (disch := exact hb.mono rfl)⟩

theorem execFwFlashDone_next (t : Nat) (ok : Bool) (s : State) :
    ∃ u, (execFwFlashDone t ok s) = .next u ∧ ∀ {γ : Type} (φ : State → γ), Blind φ [.dict, .fw] → see φ u = see φ (State.at s t) := by
  unfold execFwFlashDone
  simp only []
  (repeat' split) <;> exact ⟨_, rfl, fun φ hb => by simp (disch := exact hb.mono rfl)⟩

theorem execFwActivate_next (t : Nat) (path : Path) (value : List Byte) (s : State) :
    ∃ u, (execFwActivate t path value s) = .next u ∧ ∀ {γ : Type} (φ : State → γ), Blind φ [.fresh, .dict, .blobs, .errName, .latches, .out, .draws, .lattice, .cxl, .access, .tim, .cams, .rc, .rg, .atl, .sg, .ch, .lanes, .st, .judged, .bank, .lg, .vault, .cont, .thumbs, .rt, .holdBy, .mer, .fw, .trans, .cal, .power] → see φ u = see φ (State.at s t) := by
  unfold execFwActivate
  simp only []
  (repeat' split) <;> exact ⟨_, rfl, fun φ hb => by simp (disch := exact hb.mono rfl)⟩

theorem execFwConfirm_next (t : Nat) (path : Path) (value : List Byte) (s : State) :
    ∃ u, (execFwConfirm t path value s) = .next u ∧ ∀ {γ : Type} (φ : State → γ), Blind φ [.dict, .out, .access, .fw] → see φ u = see φ (State.at s t) := by
  unfold execFwConfirm
  simp only []
  (repeat' split) <;> exact ⟨_, rfl, fun φ hb => by simp (disch := exact hb.mono rfl)⟩

theorem execFwTrialTimeout_next (t : Nat) (s : State) :
    ∃ u, (execFwTrialTimeout t s) = .next u ∧ ∀ {γ : Type} (φ : State → γ), Blind φ [.dict, .fw] → see φ u = see φ (State.at s t) := by
  unfold execFwTrialTimeout
  exact ⟨_, rfl, fun φ hb => by simp (disch := exact hb.mono rfl)⟩

end Sys2Proof.Machine
end

