-- ==== Sys2Proof/Laws/Lattice.lean ====
section
/-! SUPPORT. What each operation of Machine/Lattice.lean leaves alone, and that each of its commands goes on. -/

set_option maxRecDepth 4000
set_option linter.unusedSimpArgs false

namespace Sys2Proof.Machine

open Sys2Proof

theorem execEvChConfigWrite_next (t : Nat) (path : Path) (channel : Fin 64) (value : List Byte) (s : State) :
    ∃ u, (execEvChConfigWrite t path channel value s) = .next u ∧ ∀ {γ : Type} (φ : State → γ), Blind φ [.dict, .out, .lattice, .access] → see φ u = see φ (State.at s t) := by
  unfold execEvChConfigWrite
  simp only []
  (repeat' split) <;> exact ⟨_, rfl, fun φ hb => by simp (disch := exact hb.mono rfl)⟩

@[simp ↓] theorem State.taskFlush_see {γ : Type} (φ : State → γ) (hb : Blind φ [.lattice]) (s : State) (task : Nat) :
    see φ (State.taskFlush s task) = see φ s := by
  unfold State.taskFlush
  (repeat' split) <;> simp (disch := exact hb.mono rfl)

@[simp ↓] theorem State.takeTask_see {γ : Type} (φ : State → γ) (hb : Blind φ [.fresh, .dict, .lattice]) (s : State) (task : Nat) :
    see φ (State.takeTask s task).1 = see φ s := by
  unfold State.takeTask
  (repeat' split) <;> simp (disch := exact hb.mono rfl)

@[simp ↓] theorem State.task_see {γ : Type} (φ : State → γ) (hb : Blind φ [.fresh, .dict, .lattice]) (s : State) (task : Nat)
    (f : List Activation → State → State) (h : ∀ l a, see φ (f l a) = see φ a) :
    see φ (State.task s task f) = see φ s := by
  unfold State.task
  simp only []
  have e : see φ ((s.taskFlush task).takeTask task).1 = see φ s := by simp (disch := exact hb.mono rfl)
  split <;> simp [h, e]

theorem execDmaStart_next (t : Nat) (n : Fin 32) (s : State) :
    ∃ u, (execDmaStart t n s) = .next u ∧ ∀ {γ : Type} (φ : State → γ), Blind φ [.fresh, .dict, .errName, .out, .lattice, .cxl] → see φ u = see φ (State.at s t) := by
  unfold execDmaStart
  refine ⟨_, rfl, fun φ hb => ?_⟩
  refine (State.task_see φ (hb.mono rfl) _ _ _ ?_).trans rfl
  intro l a
  (try simp only [])
  (repeat' split) <;> simp (disch := exact hb.mono rfl)

theorem execHostIrq_next (t : Nat) (n : Fin 16) (s : State) :
    ∃ u, (execHostIrq t n s) = .next u ∧ ∀ {γ : Type} (φ : State → γ), Blind φ [.fresh, .dict, .out, .lattice, .cxl] → see φ u = see φ (State.at s t) := by
  unfold execHostIrq
  refine ⟨_, rfl, fun φ hb => ?_⟩
  refine (State.task_see φ (hb.mono rfl) _ _ _ ?_).trans rfl
  intro l a
  (try simp only [])
  (repeat' split) <;> simp (disch := exact hb.mono rfl)

theorem execEpochDeclare_next (t : Nat) (g : Fin 12) (s : State) :
    ∃ u, (execEpochDeclare t g s) = .next u ∧ ∀ {γ : Type} (φ : State → γ), Blind φ [.fresh, .dict, .lattice] → see φ u = see φ (State.at s t) := by
  unfold execEpochDeclare
  refine ⟨_, rfl, fun φ hb => ?_⟩
  refine (State.task_see φ (hb.mono rfl) _ _ _ ?_).trans rfl
  intro l a
  (try simp only [])
  (repeat' split) <;> simp (disch := exact hb.mono rfl)

theorem execStateHold_next (t : Nat) (s : State) :
    ∃ u, (execStateHold t s) = .next u ∧ ∀ {γ : Type} (φ : State → γ), Blind φ [.fresh, .dict, .lattice, .trans] → see φ u = see φ (State.at s t) := by
  unfold execStateHold
  refine ⟨_, rfl, fun φ hb => ?_⟩
  refine (State.task_see φ (hb.mono rfl) _ _ _ ?_).trans rfl
  intro l a
  (try simp only [])
  (repeat' split) <;> simp (disch := exact hb.mono rfl)

theorem execStateRun_next (t : Nat) (s : State) :
    ∃ u, (execStateRun t s) = .next u ∧ ∀ {γ : Type} (φ : State → γ), Blind φ [.fresh, .dict, .lattice, .trans] → see φ u = see φ (State.at s t) := by
  unfold execStateRun
  refine ⟨_, rfl, fun φ hb => ?_⟩
  refine (State.task_see φ (hb.mono rfl) _ _ _ ?_).trans rfl
  intro l a
  (try simp only [])
  (repeat' split) <;> simp (disch := exact hb.mono rfl)

theorem execTimeCapture_next (t : Nat) (n : Fin 8) (s : State) :
    ∃ u, (execTimeCapture t n s) = .next u ∧ ∀ {γ : Type} (φ : State → γ), Blind φ [.fresh, .dict, .lattice] → see φ u = see φ (State.at s t) := by
  unfold execTimeCapture
  refine ⟨_, rfl, fun φ hb => ?_⟩
  refine (State.task_see φ (hb.mono rfl) _ _ _ ?_).trans rfl
  intro l a
  (try simp only [])
  (repeat' split) <;> simp (disch := exact hb.mono rfl)

theorem execWake_next (t : Nat) (s : State) :
    ∃ u, (execWake t s) = .next u ∧ ∀ {γ : Type} (φ : State → γ), Blind φ [.fresh, .dict, .blobs, .out, .draws, .lattice, .access, .power] → see φ u = see φ (State.at s t) := by
  unfold execWake
  refine ⟨_, rfl, fun φ hb => ?_⟩
  refine (State.task_see φ (hb.mono rfl) _ _ _ ?_).trans rfl
  intro l a
  (try simp only [])
  (repeat' split) <;> simp (disch := exact hb.mono rfl)

@[simp ↓] theorem State.setEvtPin_see {γ : Type} (φ : State → γ) (hb : Blind φ [.lattice]) (s : State) (n : Nat) (p : EvtPin) :
    see φ (State.setEvtPin s n p) = see φ s := by
  unfold State.setEvtPin
  (repeat' split) <;> simp (disch := exact hb.mono rfl)

@[simp ↓] theorem State.evtOut_see {γ : Type} (φ : State → γ) (hb : Blind φ [.lattice]) (s : State) (n : Nat) (async : Bool) :
    see φ (State.evtOut s n async) = see φ s := by
  unfold State.evtOut
  (repeat' split) <;> simp (disch := exact hb.mono rfl)

theorem execEvtOut_next (t : Nat) (n : Fin 8) (s : State) :
    ∃ u, (execEvtOut t n s) = .next u ∧ ∀ {γ : Type} (φ : State → γ), Blind φ [.fresh, .dict, .lattice] → see φ u = see φ (State.at s t) := by
  unfold execEvtOut
  refine ⟨_, rfl, fun φ hb => ?_⟩
  refine (State.task_see φ (hb.mono rfl) _ _ _ ?_).trans rfl
  intro l a
  (try simp only [])
  (repeat' split) <;> simp (disch := exact hb.mono rfl)

theorem execEvtPulseEnd_next (t : Nat) (n : Fin 8) (async : Bool) (s : State) :
    ∃ u, (execEvtPulseEnd t n async s) = .next u ∧ ∀ {γ : Type} (φ : State → γ), Blind φ [.lattice] → see φ u = see φ (State.at s t) := by
  unfold execEvtPulseEnd
  simp only []
  (repeat' split) <;> exact ⟨_, rfl, fun φ hb => by simp (disch := exact hb.mono rfl)⟩

theorem execEvtIn_next (t : Nat) (n : Fin 8) (high : Bool) (stable : Nat) (s : State) :
    ∃ u, (execEvtIn t n high stable s) = .next u ∧ ∀ {γ : Type} (φ : State → γ), Blind φ [.fresh, .dict, .blobs, .errName, .out, .draws, .lattice, .cxl, .access, .power] → see φ u = see φ (State.at s t) := by
  unfold execEvtIn
  simp only []
  (repeat' split) <;> exact ⟨_, rfl, fun φ hb => by simp (disch := exact hb.mono rfl)⟩

theorem execTimer_next (t : Nat) (n : Fin 8) (s : State) :
    ∃ u, (execTimer t n s) = .next u ∧ ∀ {γ : Type} (φ : State → γ), Blind φ [.fresh, .dict, .errName, .out, .lattice, .cxl] → see φ u = see φ (State.at s t) := by
  unfold execTimer
  exact ⟨_, rfl, fun φ hb => by simp (disch := exact hb.mono rfl)⟩

theorem execEvTimerApply_next (t : Nat) (n : Fin 8) (s : State) :
    ∃ u, (execEvTimerApply t n s) = .next u ∧ ∀ {γ : Type} (φ : State → γ), Blind φ [.lattice] → see φ u = see φ (State.at s t) := by
  unfold execEvTimerApply
  simp only []
  (repeat' split) <;> exact ⟨_, rfl, fun φ hb => by simp (disch := exact hb.mono rfl)⟩

end Sys2Proof.Machine
end

