-- ==== Sys2Proof/Laws/TwoWire.lean ====
section
/-! SUPPORT. What each operation of Machine/TwoWire.lean leaves alone, and that each of its commands goes on. -/

set_option maxRecDepth 4000
set_option linter.unusedSimpArgs false

namespace Sys2Proof.Machine

open Sys2Proof

@[simp ↓] theorem State.setTwPort_see {γ : Type} (φ : State → γ) (hb : Blind φ [.lattice]) (s : State) (p : Nat) (v : TwPort) :
    see φ (State.setTwPort s p v) = see φ s := by
  unfold State.setTwPort
  (repeat' split) <;> simp (disch := exact hb.mono rfl)

@[simp ↓] theorem State.setTw_see {γ : Type} (φ : State → γ) (hb : Blind φ [.lattice]) (s : State) (v : TwoWire) :
    see φ (State.setTw s v) = see φ s := by
  unfold State.setTw
  (repeat' split) <;> simp (disch := exact hb.mono rfl)

@[simp ↓] theorem State.twEnd_see {γ : Type} (φ : State → γ) (hb : Blind φ [.fresh, .dict, .errName, .out, .lattice, .cxl]) (s : State) (p status : Nat) :
    see φ (State.twEnd s p status) = see φ s := by
  unfold State.twEnd
  (repeat' split) <;> simp (disch := exact hb.mono rfl)

@[simp ↓] theorem State.twBegin_see {γ : Type} (φ : State → γ) (hb : Blind φ [.lattice]) (s : State) (p : Nat) :
    see φ (State.twBegin s p) = see φ s := by
  unfold State.twBegin
  (repeat' split) <;> simp (disch := exact hb.mono rfl)

@[simp ↓] theorem State.twClear_see {γ : Type} (φ : State → γ) (hb : Blind φ [.out, .lattice]) (s : State) (p : Nat) (stuck : Bool) :
    see φ (State.twClear s p stuck) = see φ s := by
  unfold State.twClear
  (repeat' split) <;> simp (disch := exact hb.mono rfl)

@[simp ↓] theorem State.pollRead_see {γ : Type} (φ : State → γ) (hb : Blind φ [.fresh, .dict, .errName, .out, .lattice, .cxl, .cams, .rc, .rg, .cont]) (s : State) (addr reg status value : Nat) :
    see φ (State.pollRead s addr reg status value) = see φ s := by
  unfold State.pollRead
  (repeat' split) <;> simp (disch := exact hb.mono rfl) <;> (repeat rw [foldl_see]) <;> intros <;> (repeat' split) <;> simp (disch := exact hb.mono rfl)

@[simp ↓] theorem State.xferEnd_see {γ : Type} (φ : State → γ) (hb : Blind φ [.dict, .blobs, .lattice]) (s : State) (status : Nat) (data : List Byte) :
    see φ (State.xferEnd s status data) = see φ s := by
  unfold State.xferEnd
  simp only []
  (repeat' split) <;> simp (disch := exact hb.mono rfl) <;> (repeat' split) <;> simp (disch := exact hb.mono rfl)

@[simp ↓] theorem State.tw0Next_see {γ : Type} (φ : State → γ) (hb : Blind φ [.fresh, .dict, .blobs, .errName, .out, .lattice, .cxl, .cams, .rc, .rg, .cont]) (s : State) :
    see φ (State.tw0Next s) = see φ s := by
  unfold State.tw0Next
  (repeat' split) <;> simp (disch := exact hb.mono rfl) <;> (repeat rw [foldl_see]) <;> intros <;> (repeat' split) <;> simp (disch := exact hb.mono rfl)

@[simp ↓] theorem State.tw0Send_see {γ : Type} (φ : State → γ) (hb : Blind φ [.out]) (s : State) :
    see φ (State.tw0Send s) = see φ s := by
  unfold State.tw0Send
  (repeat' split) <;> simp (disch := exact hb.mono rfl)

@[simp ↓] theorem State.tw0End_see {γ : Type} (φ : State → γ) (hb : Blind φ [.fresh, .dict, .blobs, .errName, .out, .lattice, .cxl, .cams, .rc, .rg, .cont]) (s : State) (status value : Nat) (data : List Byte) :
    see φ (State.tw0End s status value data) = see φ s := by
  unfold State.tw0End
  simp only []
  (repeat' split) <;> simp (disch := exact hb.mono rfl) <;> (repeat' split) <;> simp (disch := exact hb.mono rfl)

@[simp ↓] theorem State.xferStart_see {γ : Type} (φ : State → γ) (hb : Blind φ [.fresh, .dict, .blobs, .errName, .out, .lattice, .cxl, .cams, .rc, .rg, .cont]) (s : State) :
    see φ (State.xferStart s) = see φ s := by
  unfold State.xferStart
  (repeat' split) <;> simp (disch := exact hb.mono rfl)

theorem execTw0Start_next (t : Nat) (s : State) :
    ∃ u, (execTw0Start t s) = .next u ∧ ∀ {γ : Type} (φ : State → γ), Blind φ [.fresh, .dict, .blobs, .errName, .out, .lattice, .cxl, .cams, .rc, .rg, .cont] → see φ u = see φ (State.at s t) := by
  unfold execTw0Start
  refine ⟨_, rfl, fun φ hb => ?_⟩
  refine (State.task_see φ (hb.mono rfl) _ _ _ ?_).trans rfl
  intro l a
  (try simp only [])
  (repeat' split) <;> simp (disch := exact hb.mono rfl)

theorem execTw0XferCmd_next (t : Nat) (path : Path) (value : List Byte) (s : State) :
    ∃ u, (execTw0XferCmd t path value s) = .next u ∧ ∀ {γ : Type} (φ : State → γ), Blind φ [.fresh, .dict, .blobs, .errName, .out, .lattice, .cxl, .access, .cams, .rc, .rg, .cont] → see φ u = see φ (State.at s t) := by
  unfold execTw0XferCmd
  simp only []
  (repeat' split) <;> exact ⟨_, rfl, fun φ hb => by simp (disch := exact hb.mono rfl)⟩

theorem execTw0XferDone_next (t : Nat) (acknowledged : Bool) (data : List Byte) (s : State) :
    ∃ u, (execTw0XferDone t acknowledged data s) = .next u ∧ ∀ {γ : Type} (φ : State → γ), Blind φ [.fresh, .dict, .blobs, .errName, .out, .lattice, .cxl, .cams, .rc, .rg, .cont] → see φ u = see φ (State.at s t) := by
  unfold execTw0XferDone
  exact ⟨_, rfl, fun φ hb => by simp (disch := exact hb.mono rfl)⟩

theorem execTw0Poll_next (t : Nat) (s : State) :
    ∃ u, (execTw0Poll t s) = .next u ∧ ∀ {γ : Type} (φ : State → γ), Blind φ [.fresh, .dict, .blobs, .errName, .out, .lattice, .cxl, .cams, .rc, .rg, .cont] → see φ u = see φ (State.at s t) := by
  unfold execTw0Poll
  simp only []
  (repeat' split) <;> exact ⟨_, rfl, fun φ hb => by simp (disch := exact hb.mono rfl)⟩

theorem execTw0PollDone_next (t : Nat) (acknowledged : Bool) (value : Nat) (s : State) :
    ∃ u, (execTw0PollDone t acknowledged value s) = .next u ∧ ∀ {γ : Type} (φ : State → γ), Blind φ [.fresh, .dict, .blobs, .errName, .out, .lattice, .cxl, .cams, .rc, .rg, .cont] → see φ u = see φ (State.at s t) := by
  unfold execTw0PollDone
  exact ⟨_, rfl, fun φ hb => by simp (disch := exact hb.mono rfl)⟩

@[simp ↓] theorem State.twAbort_see {γ : Type} (φ : State → γ) (hb : Blind φ [.fresh, .dict, .blobs, .errName, .out, .lattice, .cxl, .cams, .rc, .rg, .cont]) (s : State) (port status : Nat) :
    see φ (State.twAbort s port status) = see φ s := by
  unfold State.twAbort
  (repeat' split) <;> simp (disch := exact hb.mono rfl)

theorem execTwStretchTimeout_next (t : Nat) (port : Fin 3) (held : TwHeld) (stuck : Bool) (s : State) :
    ∃ u, (execTwStretchTimeout t port held stuck s) = .next u ∧ ∀ {γ : Type} (φ : State → γ), Blind φ [.fresh, .dict, .blobs, .errName, .out, .lattice, .cxl, .cams, .rc, .rg, .cont] → see φ u = see φ (State.at s t) := by
  unfold execTwStretchTimeout
  simp only []
  (repeat' split) <;> exact ⟨_, rfl, fun φ hb => by simp (disch := exact hb.mono rfl)⟩

theorem execTwBusError_next (t : Nat) (port : Fin 3) (s : State) :
    ∃ u, (execTwBusError t port s) = .next u ∧ ∀ {γ : Type} (φ : State → γ), Blind φ [.fresh, .dict, .blobs, .errName, .out, .lattice, .cxl, .cams, .rc, .rg, .cont] → see φ u = see φ (State.at s t) := by
  unfold execTwBusError
  simp only []
  (repeat' split) <;> exact ⟨_, rfl, fun φ hb => by simp (disch := exact hb.mono rfl)⟩

theorem execTwArbLost_next (t : Nat) (port : Fin 2) (bit : Nat) (s : State) :
    ∃ u, (execTwArbLost t port bit s) = .next u ∧ ∀ {γ : Type} (φ : State → γ), Blind φ [.fresh, .dict, .blobs, .errName, .out, .lattice, .cxl, .cams, .rc, .rg, .cont] → see φ u = see φ (State.at s t) := by
  unfold execTwArbLost
  simp only []
  (repeat' split) <;> exact ⟨_, rfl, fun φ hb => by simp (disch := exact hb.mono rfl)⟩

theorem execTwStopSeen_next (t : Nat) (port : Fin 2) (s : State) :
    ∃ u, (execTwStopSeen t port s) = .next u ∧ ∀ {γ : Type} (φ : State → γ), Blind φ [.fresh, .dict, .blobs, .errName, .out, .lattice, .cxl, .cams, .rc, .rg, .cont] → see φ u = see φ (State.at s t) := by
  unfold execTwStopSeen
  exact ⟨_, rfl, fun φ hb => by simp (disch := exact hb.mono rfl)⟩

theorem execTw2Match_next (t : TwAddress) (s : State) :
    ∃ u, (execTw2Match t s) = .next u ∧ ∀ {γ : Type} (φ : State → γ), Blind φ [.fresh, .dict, .blobs, .errName, .out, .draws, .lattice, .cxl, .access, .power] → see φ u = see φ (State.at s t.time) := by
  unfold execTw2Match
  simp only []
  (repeat' split) <;> exact ⟨_, rfl, fun φ hb => by simp (disch := exact hb.mono rfl)⟩

theorem execTw2Transfer_next (t : Nat) (write : List Byte) (read : Nat) (s : State) :
    ∃ u, (execTw2Transfer t write read s) = .next u ∧ ∀ {γ : Type} (φ : State → γ), Blind φ [.fresh, .dict, .out, .lattice] → see φ u = see φ (State.at s t) := by
  unfold execTw2Transfer
  simp only []
  (repeat' split) <;> exact ⟨_, rfl, fun φ hb => by simp (disch := exact hb.mono rfl)⟩

@[simp ↓] theorem State.tw1Run_see {γ : Type} (φ : State → γ) (hb : Blind φ [.fresh, .dict, .errName, .out, .lattice, .cxl]) (s : State) (n : Nat) (f : State → State) (h_f : ∀ a, see φ (f a) = see φ a) :
    see φ (State.tw1Run s n f) = see φ s := by
  unfold State.tw1Run
  (repeat' split) <;> simp (disch := exact hb.mono rfl) <;> (repeat rw [foldl_see]) <;> intros <;> (repeat' split) <;> simp (disch := exact hb.mono rfl) [*]

theorem execRailPoll_next (t : Nat) (millivolts milliamps : List Nat) (s : State) :
    ∃ u, (execRailPoll t millivolts milliamps s) = .next u ∧ ∀ {γ : Type} (φ : State → γ), Blind φ [.fresh, .dict, .errName, .out, .lattice, .cxl] → see φ u = see φ (State.at s t) := by
  unfold execRailPoll
  refine ⟨_, rfl, fun φ hb => ?_⟩
  rw [State.tw1Run_see φ (hb.mono rfl)]
  intro a
  simp only []
  (repeat' split) <;> simp (disch := exact hb.mono rfl)

theorem execPmbusAlert_next (t : Nat) (words : List Nat) (s : State) :
    ∃ u, (execPmbusAlert t words s) = .next u ∧ ∀ {γ : Type} (φ : State → γ), Blind φ [.fresh, .dict, .blobs, .staged, .stagedBlobs, .epochs, .errName, .latches, .out, .draws, .mem, .lost, .dramBad, .dram, .scrubFrom, .lattice, .cxl, .access, .tim, .cams, .rc, .rg, .vd, .atl, .apipes, .sg, .ch, .lanes, .st, .judged, .bank, .lg, .vault, .cont, .place, .slots, .hist, .thumbs, .rt, .holdBy, .mer, .fw, .trans, .am, .cal, .power] → see φ u = see φ (State.at s t) := by
  unfold execPmbusAlert
  refine ⟨_, rfl, fun φ hb => ?_⟩
  rw [State.tw1Run_see φ (hb.mono rfl)]
  intro a
  simp only []
  (repeat' split) <;> simp (disch := exact hb.mono rfl)

end Sys2Proof.Machine
end

