-- ==== Sys2Proof/Laws/Dictionary.lean ====
section
/-! SUPPORT. What each operation of Machine/Dictionary.lean leaves alone, and that each of its commands goes on. -/

set_option maxRecDepth 4000
set_option linter.unusedSimpArgs false

namespace Sys2Proof.Machine

open Sys2Proof

@[simp ↓] theorem State.latch_see {γ : Type} (φ : State → γ) (hb : Blind φ [.latches]) (s : State) (path : Path) (w : Nat) :
    see φ (State.latch s path w) = see φ s := by
  unfold State.latch
  (repeat' split) <;> simp (disch := exact hb.mono rfl)

@[simp ↓] theorem State.readClears_see {γ : Type} (φ : State → γ) (hb : Blind φ [.dict]) (s : State) (o : ObjRow) :
    see φ (State.readClears s o) = see φ s := by
  unfold State.readClears
  (repeat' split) <;> simp (disch := exact hb.mono rfl)

@[simp ↓] theorem State.readReq_see {γ : Type} (φ : State → γ) (hb : Blind φ [.dict, .latches]) (s : State) (path : Path) (k offset length : Nat) :
    see φ (State.readReq s path k offset length).1 = see φ s := by
  unfold State.readReq
  (repeat' split) <;> simp (disch := exact hb.mono rfl)

theorem execWideReadLatch_next (t : Nat) (path : Path) (object : Nat) (s : State) :
    ∃ u, (execWideReadLatch t path object s) = .next u ∧ ∀ {γ : Type} (φ : State → γ), Blind φ [.dict, .latches, .out, .access] → see φ u = see φ (State.at s t) := by
  unfold execWideReadLatch
  simp only []
  (repeat' split) <;> exact ⟨_, rfl, fun φ hb => by simp (disch := exact hb.mono rfl)⟩

theorem State.at_now (s : State) : s.at s.now = s := by simp [State.at]

theorem afterRow_see {γ : Type} {φ : State → γ} {l : List Part} {r : Result} {s : State}
    (h : ∃ u, r = .next u ∧ ∀ {γ : Type} (φ : State → γ), Blind φ l → see φ u = see φ (s.at s.now)) (hb : Blind φ l) :
    see φ (afterRow r s) = see φ s := by
  obtain ⟨u, rfl, h⟩ := h
  rw [State.at_now] at h
  exact h φ hb

@[simp ↓] theorem State.pendingWrite_see {γ : Type} (φ : State → γ) (hb : Blind φ [.fresh, .dict, .errName, .out, .lattice, .cxl, .access]) (s : State) (path : Path) (g : Nat) (value : List Byte) :
    see φ (State.pendingWrite s path g value) = see φ s := by
  unfold State.pendingWrite
  simp only []
  (repeat' split) <;> simp (disch := exact hb.mono rfl) <;> (repeat' split) <;> simp (disch := exact hb.mono rfl)

@[simp ↓] theorem State.calRequestWrite_see {γ : Type} (φ : State → γ) (hb : Blind φ [.dict, .out, .access, .st, .cont, .cal]) (s : State) (path : Path) (value : List Byte) :
    see φ (State.calRequestWrite s path value) = see φ s := by
  unfold State.calRequestWrite
  (repeat' split) <;> simp (disch := exact hb.mono rfl)

@[simp ↓] theorem State.stateWrite_see {γ : Type} (φ : State → γ) (hb : Blind φ [.fresh, .dict, .blobs, .staged, .stagedBlobs, .errName, .out, .draws, .dramBad, .lattice, .cxl, .access, .tim, .cams, .rc, .rg, .sg, .st, .slots, .rt, .mer, .trans, .cal]) (s : State) (path : Path) (value : List Byte) :
    see φ (State.stateWrite s path value) = see φ s := by
  unfold State.stateWrite
  simp only []
  split
  · split
    · exact afterRow_see (execReqInit_next _ _ _) (hb.mono rfl)
    · exact afterRow_see (execReqPreop_next _ _ _) (hb.mono rfl)
    · exact afterRow_see (execReqArmed_next _ _ _) (hb.mono rfl)
    · exact afterRow_see (execReqRun_next _ _ _) (hb.mono rfl)
    · exact afterRow_see (execReqHold_next _ _ _) (hb.mono rfl)
  · simp (disch := exact hb.mono rfl)

theorem State.commandWrite_see {γ : Type} (φ : State → γ) (hb : Blind φ [.out, .access]) (s : State) (path : Path)
    (o : ObjRow) (b : Nat) (value : List Byte) (f : Nat → Result) (h : ∀ c, see φ (afterRow (f c) s) = see φ s) :
    see φ (State.commandWrite s path o b value f) = see φ s := by
  unfold State.commandWrite
  split
  · exact h _
  · simp (disch := exact hb.mono rfl)

@[simp ↓] theorem State.writeUnit_see {γ : Type} (φ : State → γ) (hb : Blind φ [.fresh, .dict, .blobs, .staged, .stagedBlobs, .epochs, .errName, .latches, .out, .draws, .dramBad, .lattice, .cxl, .access, .tim, .cams, .rc, .rg, .atl, .sg, .ch, .lanes, .st, .judged, .bank, .lg, .vault, .cont, .slots, .thumbs, .rt, .holdBy, .mer, .fw, .trans, .cal, .power]) (s : State) (path : Path) (o : ObjRow) (b e k : Nat) (value : List Byte) :
    see φ (State.writeUnit s path o b e k value) = see φ s := by
  unfold State.writeUnit
  simp only []
  repeat' first
    | ((with_reducible refine afterRow_see (execAccessCodeWrite_next _ _ _ _) ?_); exact hb.mono rfl)
    | ((with_reducible refine afterRow_see (execAccessLevelWrite_next _ _ _ _) ?_); exact hb.mono rfl)
    | ((with_reducible refine afterRow_see (execAccessUnlockWrite_next _ _ _ _) ?_); exact hb.mono rfl)
    | ((with_reducible refine afterRow_see (execDeviceReset_next _ _ _ _) ?_); exact hb.mono rfl)
    | ((with_reducible refine afterRow_see (execPwSleepCmd_next _ _ _ _) ?_); exact hb.mono rfl)
    | (with_reducible refine State.commandWrite_see φ ?_ _ _ _ _ _ _ ?_; exact hb.mono rfl; intro c; try simp only [])
    | split
    | (simp (disch := exact hb.mono rfl); done)

@[simp ↓] theorem State.writeLines_see {γ : Type} (φ : State → γ) (hb : Blind φ [.fresh, .dict, .blobs, .staged, .stagedBlobs, .epochs, .errName, .out, .lattice, .cxl, .access, .cams, .rc, .rg, .cal]) (s : State) (path : Path) (o : ObjRow) (b e : Nat) (value : List Byte) :
    see φ (State.writeLines s path o b e value) = see φ s := by
  unfold State.writeLines
  simp only []
  repeat' first
    | ((with_reducible refine afterRow_see (execCamEnableWrite_next _ _ _ _ _) ?_); exact hb.mono rfl)
    | ((with_reducible refine afterRow_see (execCamLanesWrite_next _ _ _ _ _) ?_); exact hb.mono rfl)
    | ((with_reducible refine afterRow_see (execCamRateWrite_next _ _ _ _ _) ?_); exact hb.mono rfl)
    | ((with_reducible refine afterRow_see (execCamRegAbort_next _ _ _ _) ?_); exact hb.mono rfl)
    | ((with_reducible refine afterRow_see (execCamRegRead_next _ _ _ _) ?_); exact hb.mono rfl)
    | ((with_reducible refine afterRow_see (execCamRegWrite_next _ _ _ _) ?_); exact hb.mono rfl)
    | ((with_reducible refine afterRow_see (execSpEnableWrite_next _ _ _ _ _ _) ?_); exact hb.mono rfl)
    | ((with_reducible refine afterRow_see (execTgDividerWrite_next _ _ _ _ _) ?_); exact hb.mono rfl)
    | ((with_reducible refine afterRow_see (execTgPeriodWrite_next _ _ _ _ _) ?_); exact hb.mono rfl)
    | (with_reducible refine State.commandWrite_see φ ?_ _ _ _ _ _ _ ?_; exact hb.mono rfl; intro c; try simp only [])
    | split
    | (simp (disch := exact hb.mono rfl); done)

@[simp ↓] theorem State.writeImage_see {γ : Type} (φ : State → γ) (hb : Blind φ [.fresh, .dict, .blobs, .staged, .stagedBlobs, .epochs, .errName, .out, .lattice, .cxl, .access, .atl, .st, .cal]) (s : State) (path : Path) (o : ObjRow) (b e : Nat) (value : List Byte) :
    see φ (State.writeImage s path o b e value) = see φ s := by
  unfold State.writeImage
  simp only []
  repeat' first
    | ((with_reducible refine afterRow_see (execAtBlobWrite_next _ _ _ _ _) ?_); exact hb.mono rfl)
    | ((with_reducible refine afterRow_see (execAtLoad_next _ _ _ _) ?_); exact hb.mono rfl)
    | ((with_reducible refine afterRow_see (execAtLoadCancel_next _ _ _ _) ?_); exact hb.mono rfl)
    | ((with_reducible refine afterRow_see (execClassTableWrite_next _ _ _ _ _ _) ?_); exact hb.mono rfl)
    | ((with_reducible refine afterRow_see (execDefectMapWrite_next _ _ _ _ _) ?_); exact hb.mono rfl)
    | ((with_reducible refine afterRow_see (execPlateRefWrite_next _ _ _ _ _) ?_); exact hb.mono rfl)
    | ((with_reducible refine afterRow_see (execStCalCancel_next _ _ _) ?_); exact hb.mono rfl)
    | ((with_reducible refine afterRow_see (execStCalStart_next _ _ _) ?_); exact hb.mono rfl)
    | ((with_reducible refine afterRow_see (execStMapWrite_next _ _ _ _ _) ?_); exact hb.mono rfl)
    | ((with_reducible refine afterRow_see (execVdProgramWrite_next _ _ _ _ _) ?_); exact hb.mono rfl)
    | (with_reducible refine State.commandWrite_see φ ?_ _ _ _ _ _ _ ?_; exact hb.mono rfl; intro c; try simp only [])
    | split
    | (simp (disch := exact hb.mono rfl); done)

@[simp ↓] theorem State.writeValves_see {γ : Type} (φ : State → γ) (hb : Blind φ [.fresh, .dict, .blobs, .staged, .stagedBlobs, .epochs, .errName, .out, .lattice, .cxl, .access, .tim, .cams, .rc, .rg, .sg, .ch, .st, .judged, .bank, .lg, .cont, .mer, .cal]) (s : State) (path : Path) (o : ObjRow) (b e : Nat) (value : List Byte) :
    see φ (State.writeValves s path o b e value) = see φ s := by
  unfold State.writeValves
  simp only []
  repeat' first
    | ((with_reducible refine afterRow_see (execEjLinkLeadWrite_next _ _ _ _) ?_); exact hb.mono rfl)
    | ((with_reducible refine afterRow_see (execEjValveStateWrite_next _ _ _ _ _) ?_); exact hb.mono rfl)
    | ((with_reducible refine afterRow_see (execIslandReset_next _ _ _ _) ?_); exact hb.mono rfl)
    | ((with_reducible refine afterRow_see (execLgDiscard_next _ _ _ _) ?_); exact hb.mono rfl)
    | ((with_reducible refine afterRow_see (execOutAckOrderWrite_next _ _ _ _) ?_); exact hb.mono rfl)
    | ((with_reducible refine afterRow_see (execRecAckSeqWrite_next _ _ _ _) ?_); exact hb.mono rfl)
    | (with_reducible refine State.commandWrite_see φ ?_ _ _ _ _ _ _ ?_; exact hb.mono rfl; intro c; try simp only [])
    | split
    | (simp (disch := exact hb.mono rfl); done)

@[simp ↓] theorem State.writeOther_see {γ : Type} (φ : State → γ) (hb : Blind φ [.fresh, .dict, .blobs, .staged, .stagedBlobs, .epochs, .errName, .latches, .out, .draws, .lattice, .cxl, .access, .tim, .cams, .rc, .rg, .atl, .sg, .ch, .lanes, .st, .judged, .bank, .lg, .vault, .cont, .thumbs, .rt, .holdBy, .mer, .fw, .trans, .cal, .power]) (s : State) (path : Path) (o : ObjRow) (b e : Nat) (value : List Byte) :
    see φ (State.writeOther s path o b e value) = see φ s := by
  unfold State.writeOther
  simp only []
  repeat' first
    | ((with_reducible refine afterRow_see (execAmPeakClear_next _ _ _ _) ?_); exact hb.mono rfl)
    | ((with_reducible refine afterRow_see (execCalStore_next _ _ _) ?_); exact hb.mono rfl)
    | ((with_reducible refine afterRow_see (execCalStoreClear_next _ _ _) ?_); exact hb.mono rfl)
    | ((with_reducible refine afterRow_see (execEvChConfigWrite_next _ _ _ _ _) ?_); exact hb.mono rfl)
    | ((with_reducible refine afterRow_see (execFwActivate_next _ _ _ _) ?_); exact hb.mono rfl)
    | ((with_reducible refine afterRow_see (execFwConfirm_next _ _ _ _) ?_); exact hb.mono rfl)
    | ((with_reducible refine afterRow_see (execFwImageHostWrite_next _ _ _ _) ?_); exact hb.mono rfl)
    | ((with_reducible refine afterRow_see (execFwImageWrite_next _ _ _ _) ?_); exact hb.mono rfl)
    | ((with_reducible refine afterRow_see (execLnPatternWrite_next _ _ _ _ _) ?_); exact hb.mono rfl)
    | ((with_reducible refine afterRow_see (execSecKeyWrite_next _ _ _ _ _) ?_); exact hb.mono rfl)
    | ((with_reducible refine afterRow_see (execTw0XferCmd_next _ _ _ _) ?_); exact hb.mono rfl)
    | (with_reducible refine State.commandWrite_see φ ?_ _ _ _ _ _ _ ?_; exact hb.mono rfl; intro c; try simp only [])
    | split
    | (simp (disch := exact hb.mono rfl); done)

@[simp ↓] theorem State.writeAny_see {γ : Type} (φ : State → γ) (hb : Blind φ [.fresh, .dict, .blobs, .staged, .stagedBlobs, .epochs, .errName, .latches, .out, .draws, .dramBad, .lattice, .cxl, .access, .tim, .cams, .rc, .rg, .atl, .sg, .ch, .lanes, .st, .judged, .bank, .lg, .vault, .cont, .slots, .thumbs, .rt, .holdBy, .mer, .fw, .trans, .cal, .power]) (s : State) (path : Path) (k : Nat) (value : List Byte) :
    see φ (State.writeAny s path k value) = see φ s := by
  unfold State.writeAny
  (repeat' split) <;> simp (disch := exact hb.mono rfl)

theorem execObjectWrite_next (t : Nat) (path : Path) (object : Nat) (value : List Byte) (s : State) :
    ∃ u, (execObjectWrite t path object value s) = .next u ∧ ∀ {γ : Type} (φ : State → γ), Blind φ [.fresh, .dict, .blobs, .staged, .stagedBlobs, .epochs, .errName, .latches, .out, .draws, .dramBad, .lattice, .cxl, .access, .tim, .cams, .rc, .rg, .atl, .sg, .ch, .lanes, .st, .judged, .bank, .lg, .vault, .cont, .slots, .thumbs, .rt, .holdBy, .mer, .fw, .trans, .cal, .power] → see φ u = see φ (State.at s t) := by
  unfold execObjectWrite
  exact ⟨_, rfl, fun φ hb => by simp (disch := exact hb.mono rfl)⟩

theorem execCounterClear_next (t : Nat) (path : Path) (object : Nat) (value : List Byte) (s : State) :
    ∃ u, (execCounterClear t path object value s) = .next u ∧ ∀ {γ : Type} (φ : State → γ), Blind φ [.dict, .blobs, .staged, .stagedBlobs, .epochs, .out, .access, .cal] → see φ u = see φ (State.at s t) := by
  unfold execCounterClear
  simp only []
  (repeat' split) <;> exact ⟨_, rfl, fun φ hb => by simp (disch := exact hb.mono rfl)⟩

theorem execRweWrite_next (t : Nat) (path : Path) (object : Nat) (value : List Byte) (s : State) :
    ∃ u, (execRweWrite t path object value s) = .next u ∧ ∀ {γ : Type} (φ : State → γ), Blind φ [.fresh, .dict, .blobs, .staged, .stagedBlobs, .epochs, .errName, .latches, .out, .draws, .dramBad, .lattice, .cxl, .access, .tim, .cams, .rc, .rg, .atl, .sg, .ch, .lanes, .st, .judged, .bank, .lg, .vault, .cont, .slots, .thumbs, .rt, .holdBy, .mer, .fw, .trans, .cal, .power] → see φ u = see φ (State.at s t) := by
  unfold execRweWrite
  simp only []
  (repeat' split) <;> exact ⟨_, rfl, fun φ hb => by simp (disch := exact hb.mono rfl)⟩

theorem execEpochPendingWrite_next (t : Nat) (path : Path) (g : Fin 12) (value : List Byte) (s : State) :
    ∃ u, (execEpochPendingWrite t path g value s) = .next u ∧ ∀ {γ : Type} (φ : State → γ), Blind φ [.fresh, .dict, .errName, .out, .lattice, .cxl, .access] → see φ u = see φ (State.at s t) := by
  unfold execEpochPendingWrite
  exact ⟨_, rfl, fun φ hb => by simp (disch := exact hb.mono rfl)⟩

@[simp ↓] theorem State.setPartials_see {γ : Type} (φ : State → γ) (hb : Blind φ [.cxl, .mer]) (s : State) (path : Path) (l : List (Nat × List Byte × Nat)) :
    see φ (State.setPartials s path l) = see φ s := by
  unfold State.setPartials
  (repeat' split) <;> simp (disch := exact hb.mono rfl)

@[simp ↓] theorem State.closeTransfer_see {γ : Type} (φ : State → γ) (hb : Blind φ [.cxl, .mer]) (s : State) (path : Path) (k : Nat) :
    see φ (State.closeTransfer s path k) = see φ s := by
  unfold State.closeTransfer
  (repeat' split) <;> simp (disch := exact hb.mono rfl)

@[simp ↓] theorem State.abortTransfer_see {γ : Type} (φ : State → γ) (hb : Blind φ [.dict, .cxl, .mer, .fw]) (s : State) (path : Path) (k : Nat) :
    see φ (State.abortTransfer s path k) = see φ s := by
  unfold State.abortTransfer
  (repeat' split) <;> simp (disch := exact hb.mono rfl)

@[simp ↓] theorem State.writeWhole_see {γ : Type} (φ : State → γ) (hb : Blind φ [.fresh, .dict, .blobs, .staged, .stagedBlobs, .epochs, .errName, .latches, .out, .draws, .dramBad, .lattice, .cxl, .access, .tim, .cams, .rc, .rg, .atl, .sg, .ch, .lanes, .st, .judged, .bank, .lg, .vault, .cont, .slots, .thumbs, .rt, .holdBy, .mer, .fw, .trans, .cal, .power]) (s : State) (path : Path) (k : Nat) (value : List Byte) :
    see φ (State.writeWhole s path k value).1 = see φ s := by
  unfold State.writeWhole
  (repeat' split) <;> simp (disch := exact hb.mono rfl)

@[simp ↓] theorem State.mapRefused_see {γ : Type} (φ : State → γ) (hb : Blind φ [.fresh, .dict, .errName, .out, .lattice, .cxl]) (s : State) (k : Nat) :
    see φ (State.mapRefused s k) = see φ s := by
  unfold State.mapRefused
  (repeat' split) <;> simp (disch := exact hb.mono rfl)

@[simp ↓] theorem State.segment_see {γ : Type} (φ : State → γ) (hb : Blind φ [.fresh, .dict, .blobs, .staged, .stagedBlobs, .epochs, .errName, .latches, .out, .draws, .dramBad, .lattice, .cxl, .access, .tim, .cams, .rc, .rg, .atl, .sg, .ch, .lanes, .st, .judged, .bank, .lg, .vault, .cont, .slots, .thumbs, .rt, .holdBy, .mer, .fw, .trans, .cal, .power]) (s : State) (path : Path) (k offset : Nat) (final : Bool) (data : List Byte) :
    see φ (State.segment s path k offset final data).1 = see φ s := by
  unfold State.segment
  simp only []
  (repeat' split) <;> simp (disch := exact hb.mono rfl) <;> (repeat' split) <;> simp (disch := exact hb.mono rfl)

@[simp ↓] theorem State.serve_see {γ : Type} (φ : State → γ) (hb : Blind φ [.fresh, .dict, .blobs, .staged, .stagedBlobs, .epochs, .errName, .latches, .out, .draws, .dramBad, .lattice, .cxl, .access, .tim, .cams, .rc, .rg, .atl, .sg, .ch, .lanes, .st, .judged, .bank, .lg, .vault, .cont, .slots, .thumbs, .rt, .holdBy, .mer, .fw, .trans, .cal, .power]) (s : State) (path : Path) (r : MbRequest) :
    see φ (State.serve s path r).1 = see φ s := by
  unfold State.serve
  (repeat' split) <;> simp (disch := exact hb.mono rfl)

@[simp ↓] theorem State.mailboxDone_see {γ : Type} (φ : State → γ) (hb : Blind φ [.fresh, .dict, .blobs, .staged, .stagedBlobs, .epochs, .errName, .latches, .out, .draws, .dramBad, .lattice, .cxl, .access, .tim, .cams, .rc, .rg, .atl, .sg, .ch, .lanes, .st, .judged, .bank, .lg, .vault, .cont, .slots, .thumbs, .rt, .holdBy, .mer, .fw, .trans, .cal, .power]) (s : State) :
    see φ (State.mailboxDone s) = see φ s := by
  unfold State.mailboxDone
  (repeat' split) <;> simp (disch := exact hb.mono rfl)

@[simp ↓] theorem State.mailboxGo_see {γ : Type} (φ : State → γ) (hb : Blind φ [.fresh, .dict, .blobs, .staged, .stagedBlobs, .epochs, .errName, .latches, .out, .draws, .dramBad, .lattice, .cxl, .access, .tim, .cams, .rc, .rg, .atl, .sg, .ch, .lanes, .st, .judged, .bank, .lg, .vault, .cont, .slots, .thumbs, .rt, .holdBy, .mer, .fw, .trans, .cal, .power]) (s : State) (r : MbRequest) :
    see φ (State.mailboxGo s r) = see φ s := by
  unfold State.mailboxGo
  (repeat' split) <;> simp (disch := exact hb.mono rfl)

theorem execMbRead_next (t : Nat) (tag object offset length : Nat) (s : State) :
    ∃ u, (execMbRead t tag object offset length s) = .next u ∧ ∀ {γ : Type} (φ : State → γ), Blind φ [.fresh, .dict, .blobs, .staged, .stagedBlobs, .epochs, .errName, .latches, .out, .draws, .dramBad, .lattice, .cxl, .access, .tim, .cams, .rc, .rg, .atl, .sg, .ch, .lanes, .st, .judged, .bank, .lg, .vault, .cont, .slots, .thumbs, .rt, .holdBy, .mer, .fw, .trans, .cal, .power] → see φ u = see φ (State.at s t) := by
  unfold execMbRead
  exact ⟨_, rfl, fun φ hb => by simp (disch := exact hb.mono rfl)⟩

theorem execMbWrite_next (t : Nat) (tag object offset : Nat) (final : Bool) (data : List Byte) (s : State) :
    ∃ u, (execMbWrite t tag object offset final data s) = .next u ∧ ∀ {γ : Type} (φ : State → γ), Blind φ [.fresh, .dict, .blobs, .staged, .stagedBlobs, .epochs, .errName, .latches, .out, .draws, .dramBad, .lattice, .cxl, .access, .tim, .cams, .rc, .rg, .atl, .sg, .ch, .lanes, .st, .judged, .bank, .lg, .vault, .cont, .slots, .thumbs, .rt, .holdBy, .mer, .fw, .trans, .cal, .power] → see φ u = see φ (State.at s t) := by
  unfold execMbWrite
  exact ⟨_, rfl, fun φ hb => by simp (disch := exact hb.mono rfl)⟩

theorem execMbAbort_next (t : Nat) (tag object : Nat) (s : State) :
    ∃ u, (execMbAbort t tag object s) = .next u ∧ ∀ {γ : Type} (φ : State → γ), Blind φ [.fresh, .dict, .blobs, .staged, .stagedBlobs, .epochs, .errName, .latches, .out, .draws, .dramBad, .lattice, .cxl, .access, .tim, .cams, .rc, .rg, .atl, .sg, .ch, .lanes, .st, .judged, .bank, .lg, .vault, .cont, .slots, .thumbs, .rt, .holdBy, .mer, .fw, .trans, .cal, .power] → see φ u = see φ (State.at s t) := by
  unfold execMbAbort
  exact ⟨_, rfl, fun φ hb => by simp (disch := exact hb.mono rfl)⟩

theorem execMailboxComplete_next (t : Nat) (s : State) :
    ∃ u, (execMailboxComplete t s) = .next u ∧ ∀ {γ : Type} (φ : State → γ), Blind φ [.fresh, .dict, .blobs, .staged, .stagedBlobs, .epochs, .errName, .latches, .out, .draws, .dramBad, .lattice, .cxl, .access, .tim, .cams, .rc, .rg, .atl, .sg, .ch, .lanes, .st, .judged, .bank, .lg, .vault, .cont, .slots, .thumbs, .rt, .holdBy, .mer, .fw, .trans, .cal, .power] → see φ u = see φ (State.at s t) := by
  unfold execMailboxComplete
  exact ⟨_, rfl, fun φ hb => by simp (disch := exact hb.mono rfl)⟩

theorem execSegmentTimeout_next (t : Nat) (s : State) :
    ∃ u, (execSegmentTimeout t s) = .next u ∧ ∀ {γ : Type} (φ : State → γ), Blind φ [.dict, .cxl, .mer, .fw] → see φ u = see φ (State.at s t) := by
  unfold execSegmentTimeout
  (try simp only [])
  (repeat' split) <;> refine ⟨_, rfl, fun φ hb => ?_⟩ <;> repeat' first | with_reducible rfl | split | (rw [foldl_see]) | (rw [foldl_fst_see]) | intro _ | simp (disch := exact hb.mono rfl)

end Sys2Proof.Machine
end

