-- ==== Sys2Proof/Laws/Chain.lean ====
section
/-! SUPPORT. What each operation of Machine/Chain.lean leaves alone, and that each of its commands goes on. -/

set_option maxRecDepth 4000
set_option linter.unusedSimpArgs false

namespace Sys2Proof.Machine

open Sys2Proof

@[simp ↓] theorem State.stationWrite_see {γ : Type} (φ : State → γ) (hb : Blind φ [.fresh, .dict, .blobs, .staged, .stagedBlobs, .epochs, .errName, .latches, .out, .draws, .dramBad, .lattice, .cxl, .access, .tim, .cams, .rc, .rg, .atl, .sg, .ch, .lanes, .st, .judged, .bank, .lg, .vault, .cont, .slots, .thumbs, .rt, .holdBy, .mer, .fw, .trans, .cal, .power]) (s : State) (d : Datagram) :
    see φ (State.stationWrite s d).1 = see φ s := by
  unfold State.stationWrite
  (repeat' split) <;> simp (disch := exact hb.mono rfl)

@[simp ↓] theorem State.imageStore_see {γ : Type} (φ : State → γ) (hb : Blind φ [.fresh, .dict, .blobs, .staged, .stagedBlobs, .epochs, .errName, .latches, .out, .draws, .dramBad, .lattice, .cxl, .access, .tim, .cams, .rc, .rg, .atl, .sg, .ch, .lanes, .st, .judged, .bank, .lg, .vault, .cont, .slots, .thumbs, .rt, .holdBy, .mer, .fw, .trans, .cal, .power])
    (d : Datagram) (p : State × Bool) (x : Nat × Nat) : see φ (State.imageStore d p x).1 = see φ p.1 := by
  unfold State.imageStore
  simp only []
  (repeat' split) <;> simp (disch := exact hb.mono rfl)

@[simp ↓] theorem State.imageWriteAll_see {γ : Type} (φ : State → γ) (hb : Blind φ [.fresh, .dict, .blobs, .staged, .stagedBlobs, .epochs, .errName, .latches, .out, .draws, .dramBad, .lattice, .cxl, .access, .tim, .cams, .rc, .rg, .atl, .sg, .ch, .lanes, .st, .judged, .bank, .lg, .vault, .cont, .slots, .thumbs, .rt, .holdBy, .mer, .fw, .trans, .cal, .power]) (s : State) (d : Datagram) :
    see φ (State.imageWriteAll s d).1 = see φ s := by
  unfold State.imageWriteAll
  extract_lets p s1 s2 w m s3
  have h : see φ p.1 = see φ s := by
    simp only [p]
    rw [foldl_fst_see]
    intro a x
    exact State.imageStore_see φ (hb.mono rfl) d a x
  have h1 : see φ s1 = see φ s := by simp (disch := exact hb.mono rfl) [s1, h]
  clear_value s1
  have h2 : see φ s2 = see φ s := by simp (disch := exact hb.mono rfl) [s2, h1]
  clear_value s2
  simp only [s3]
  split <;> simp (disch := exact hb.mono rfl) [h2]

@[simp ↓] theorem State.imageClears_see {γ : Type} (φ : State → γ) (hb : Blind φ [.dict]) (s : State) (d : Datagram) :
    see φ (State.imageClears s d) = see φ s := by
  unfold State.imageClears
  (try simp only [])
  repeat' first | with_reducible rfl | split | (rw [foldl_see]) | (rw [foldl_fst_see]) | intro _ | simp (disch := exact hb.mono rfl)

@[simp ↓] theorem State.merReadDone_see {γ : Type} (φ : State → γ) (hb : Blind φ [.dict]) (s : State) (d : Datagram) :
    see φ (State.merReadDone s d) = see φ s := by
  unfold State.merReadDone
  (repeat' split) <;> simp (disch := exact hb.mono rfl)

@[simp ↓] theorem State.merWrite_see {γ : Type} (φ : State → γ) (hb : Blind φ [.fresh, .dict, .blobs, .staged, .stagedBlobs, .epochs, .errName, .latches, .out, .draws, .dramBad, .lattice, .cxl, .access, .tim, .cams, .rc, .rg, .atl, .sg, .ch, .lanes, .st, .judged, .bank, .lg, .vault, .cont, .slots, .thumbs, .rt, .holdBy, .mer, .fw, .trans, .cal, .power]) (s : State) (d : Datagram) :
    see φ (State.merWrite s d).1 = see φ s := by
  unfold State.merWrite
  (repeat' split) <;> simp (disch := exact hb.mono rfl)

@[simp ↓] theorem State.askTaken_see {γ : Type} (φ : State → γ) (hb : Blind φ [.mer]) (s : State) (r : MbRequest) :
    see φ (State.askTaken s r) = see φ s := by
  unfold State.askTaken
  (repeat' split) <;> simp (disch := exact hb.mono rfl)

@[simp ↓] theorem State.heldWrite_see {γ : Type} (φ : State → γ) (hb : Blind φ [.fresh, .dict, .blobs, .staged, .stagedBlobs, .epochs, .errName, .latches, .out, .draws, .dramBad, .lattice, .cxl, .access, .tim, .cams, .rc, .rg, .atl, .sg, .ch, .lanes, .st, .judged, .bank, .lg, .vault, .cont, .slots, .thumbs, .rt, .holdBy, .mer, .fw, .trans, .cal, .power]) (s : State) (x : Nat × Datagram) :
    see φ (State.heldWrite s x) = see φ s := by
  unfold State.heldWrite
  (repeat' split) <;> simp (disch := exact hb.mono rfl)

@[simp ↓] theorem State.hold_see {γ : Type} (φ : State → γ) (hb : Blind φ [.mer]) (s : State) (action : Nat) (d : Datagram) :
    see φ (State.hold s action d) = see φ s := by
  unfold State.hold
  (repeat' split) <;> simp (disch := exact hb.mono rfl)

@[simp ↓] theorem State.merEnd_see {γ : Type} (φ : State → γ) (hb : Blind φ [.fresh, .dict, .blobs, .staged, .stagedBlobs, .epochs, .errName, .latches, .out, .draws, .dramBad, .lattice, .cxl, .access, .tim, .cams, .rc, .rg, .atl, .sg, .ch, .lanes, .st, .judged, .bank, .lg, .vault, .cont, .slots, .thumbs, .rt, .holdBy, .mer, .fw, .trans, .cal, .power]) (s : State) (d : Datagram) :
    see φ (State.merEnd s d) = see φ s := by
  unfold State.merEnd
  (repeat' split) <;> simp (disch := exact hb.mono rfl) <;> (repeat rw [foldl_see]) <;> intros <;> (repeat' split) <;> simp (disch := exact hb.mono rfl)

@[simp ↓] theorem State.merOn_see {γ : Type} (φ : State → γ) (hb : Blind φ [.fresh, .dict, .blobs, .staged, .stagedBlobs, .epochs, .errName, .latches, .out, .draws, .dramBad, .lattice, .cxl, .access, .tim, .cams, .rc, .rg, .atl, .sg, .ch, .lanes, .st, .judged, .bank, .lg, .vault, .cont, .slots, .thumbs, .rt, .holdBy, .mer, .fw, .trans, .cal, .power]) (s : State) (action : Nat) (d : Datagram) :
    see φ (State.merOn s action d) = see φ s := by
  unfold State.merOn
  (repeat' split) <;> simp (disch := exact hb.mono rfl)

@[simp ↓] theorem State.merPass_see {γ : Type} (φ : State → γ) (hb : Blind φ [.out]) (s : State) (action : Nat) (d : Datagram) :
    see φ (State.merPass s action d) = see φ s := by
  unfold State.merPass
  (repeat' split) <;> simp (disch := exact hb.mono rfl)

@[simp ↓] theorem State.merBadAction_see {γ : Type} (φ : State → γ) (hb : Blind φ [.fresh, .dict, .blobs, .staged, .stagedBlobs, .epochs, .errName, .latches, .out, .draws, .dramBad, .lattice, .cxl, .access, .tim, .cams, .rc, .rg, .atl, .sg, .ch, .lanes, .st, .judged, .bank, .lg, .vault, .cont, .slots, .thumbs, .rt, .holdBy, .mer, .fw, .trans, .cal, .power]) (s : State) (action : Nat) (d : Datagram) :
    see φ (State.merBadAction s action d) = see φ s := by
  unfold State.merBadAction
  (repeat' split) <;> simp (disch := exact hb.mono rfl)

theorem execMerFrameForward_next (t : Nat) (port : Fin 2) (destination source : List Byte) (etherType : Nat) (body : List Byte) (s : State) :
    ∃ u, (execMerFrameForward t port destination source etherType body s) = .next u ∧ ∀ {γ : Type} (φ : State → γ), Blind φ [.fresh, .dict, .out] → see φ u = see φ (State.at s t) := by
  unfold execMerFrameForward
  simp only []
  (repeat' split) <;> exact ⟨_, rfl, fun φ hb => by simp (disch := exact hb.mono rfl)⟩

theorem execPass_next (t : Nat) (d : Datagram) (s : State) :
    ∃ u, (execPass t d s) = .next u ∧ ∀ {γ : Type} (φ : State → γ), Blind φ [.fresh, .dict, .blobs, .staged, .stagedBlobs, .epochs, .errName, .latches, .out, .draws, .dramBad, .lattice, .cxl, .access, .tim, .cams, .rc, .rg, .atl, .sg, .ch, .lanes, .st, .judged, .bank, .lg, .vault, .cont, .slots, .thumbs, .rt, .holdBy, .mer, .fw, .trans, .cal, .power] → see φ u = see φ (State.at s t) := by
  unfold execPass
  simp only []
  (repeat' split) <;> exact ⟨_, rfl, fun φ hb => by simp (disch := exact hb.mono rfl)⟩

@[simp ↓] theorem State.marked_see {γ : Type} (φ : State → γ) (hb : Blind φ [.mer]) (s : State) (port entry : Nat) :
    see φ (State.marked s port entry) = see φ s := by
  unfold State.marked
  (repeat' split) <;> simp (disch := exact hb.mono rfl)

theorem execMark_next (t : Nat) (d : Datagram) (entry offset : Nat) (s : State) :
    ∃ u, (execMark t d entry offset s) = .next u ∧ ∀ {γ : Type} (φ : State → γ), Blind φ [.fresh, .dict, .blobs, .staged, .stagedBlobs, .epochs, .errName, .latches, .out, .draws, .dramBad, .lattice, .cxl, .access, .tim, .cams, .rc, .rg, .atl, .sg, .ch, .lanes, .st, .judged, .bank, .lg, .vault, .cont, .slots, .thumbs, .rt, .holdBy, .mer, .fw, .trans, .cal, .power] → see φ u = see φ (State.at s t) := by
  unfold execMark
  simp only []
  (repeat' split) <;> exact ⟨_, rfl, fun φ hb => by simp (disch := exact hb.mono rfl)⟩

theorem execSpread_next (t : Nat) (d : Datagram) (entry : Nat) (s : State) :
    ∃ u, (execSpread t d entry s) = .next u ∧ ∀ {γ : Type} (φ : State → γ), Blind φ [.now, .fresh, .dict, .blobs, .staged, .stagedBlobs, .epochs, .errName, .latches, .out, .draws, .dramBad, .lattice, .cxl, .access, .tim, .cams, .rc, .rg, .atl, .sg, .ch, .lanes, .st, .judged, .bank, .lg, .vault, .cont, .slots, .thumbs, .rt, .holdBy, .mer, .fw, .trans, .cal, .power] → see φ u = see φ (State.at s t) := by
  unfold execSpread
  simp only []
  (repeat' split) <;> exact ⟨_, rfl, fun φ hb => by simp (disch := exact hb.mono rfl)⟩

theorem execFetch_next (t : Nat) (d : Datagram) (s : State) :
    ∃ u, (execFetch t d s) = .next u ∧ ∀ {γ : Type} (φ : State → γ), Blind φ [.fresh, .dict, .blobs, .staged, .stagedBlobs, .epochs, .errName, .latches, .out, .draws, .dramBad, .lattice, .cxl, .access, .tim, .cams, .rc, .rg, .atl, .sg, .ch, .lanes, .st, .judged, .bank, .lg, .vault, .cont, .slots, .thumbs, .rt, .holdBy, .mer, .fw, .trans, .cal, .power] → see φ u = see φ (State.at s t) := by
  unfold execFetch
  simp only []
  (repeat' split) <;> exact ⟨_, rfl, fun φ hb => by simp (disch := exact hb.mono rfl)⟩

theorem execStore_next (t : Nat) (d : Datagram) (s : State) :
    ∃ u, (execStore t d s) = .next u ∧ ∀ {γ : Type} (φ : State → γ), Blind φ [.fresh, .dict, .blobs, .staged, .stagedBlobs, .epochs, .errName, .latches, .out, .draws, .dramBad, .lattice, .cxl, .access, .tim, .cams, .rc, .rg, .atl, .sg, .ch, .lanes, .st, .judged, .bank, .lg, .vault, .cont, .slots, .thumbs, .rt, .holdBy, .mer, .fw, .trans, .cal, .power] → see φ u = see φ (State.at s t) := by
  unfold execStore
  simp only []
  (repeat' split) <;> exact ⟨_, rfl, fun φ hb => by simp (disch := exact hb.mono rfl)⟩

theorem execTrade_next (t : Nat) (d : Datagram) (s : State) :
    ∃ u, (execTrade t d s) = .next u ∧ ∀ {γ : Type} (φ : State → γ), Blind φ [.fresh, .dict, .blobs, .staged, .stagedBlobs, .epochs, .errName, .latches, .out, .draws, .dramBad, .lattice, .cxl, .access, .tim, .cams, .rc, .rg, .atl, .sg, .ch, .lanes, .st, .judged, .bank, .lg, .vault, .cont, .slots, .thumbs, .rt, .holdBy, .mer, .fw, .trans, .cal, .power] → see φ u = see φ (State.at s t) := by
  unfold execTrade
  simp only []
  (repeat' split) <;> exact ⟨_, rfl, fun φ hb => by simp (disch := exact hb.mono rfl)⟩

theorem execAsk_next (t : Nat) (d : Datagram) (s : State) :
    ∃ u, (execAsk t d s) = .next u ∧ ∀ {γ : Type} (φ : State → γ), Blind φ [.fresh, .dict, .blobs, .staged, .stagedBlobs, .epochs, .errName, .latches, .out, .draws, .dramBad, .lattice, .cxl, .access, .tim, .cams, .rc, .rg, .atl, .sg, .ch, .lanes, .st, .judged, .bank, .lg, .vault, .cont, .slots, .thumbs, .rt, .holdBy, .mer, .fw, .trans, .cal, .power] → see φ u = see φ (State.at s t) := by
  unfold execAsk
  simp only []
  (repeat' split) <;> exact ⟨_, rfl, fun φ hb => by simp (disch := exact hb.mono rfl)⟩

theorem execCollect_next (t : Nat) (d : Datagram) (s : State) :
    ∃ u, (execCollect t d s) = .next u ∧ ∀ {γ : Type} (φ : State → γ), Blind φ [.fresh, .dict, .blobs, .staged, .stagedBlobs, .epochs, .errName, .latches, .out, .draws, .dramBad, .lattice, .cxl, .access, .tim, .cams, .rc, .rg, .atl, .sg, .ch, .lanes, .st, .judged, .bank, .lg, .vault, .cont, .slots, .thumbs, .rt, .holdBy, .mer, .fw, .trans, .cal, .power] → see φ u = see φ (State.at s t) := by
  unfold execCollect
  simp only []
  (repeat' split) <;> exact ⟨_, rfl, fun φ hb => by simp (disch := exact hb.mono rfl)⟩

theorem execChainMbxComplete_next (t : Nat) (s : State) :
    ∃ u, (execChainMbxComplete t s) = .next u ∧ ∀ {γ : Type} (φ : State → γ), Blind φ [.fresh, .dict, .blobs, .staged, .stagedBlobs, .epochs, .errName, .latches, .out, .draws, .dramBad, .lattice, .cxl, .access, .tim, .cams, .rc, .rg, .atl, .sg, .ch, .lanes, .st, .judged, .bank, .lg, .vault, .cont, .slots, .thumbs, .rt, .holdBy, .mer, .fw, .trans, .cal, .power] → see φ u = see φ (State.at s t) := by
  unfold execChainMbxComplete
  simp only []
  (repeat' split) <;> exact ⟨_, rfl, fun φ hb => by simp (disch := exact hb.mono rfl)⟩

end Sys2Proof.Machine
end

