-- ==== Sys2Proof/Laws/Memory.lean ====
section
/-! SUPPORT. Sparse tables and device memory: reads after writes, and the canonical form that every write keeps. -/

set_option maxRecDepth 4000
set_option linter.unusedSimpArgs false

namespace Sys2Proof.Machine

open Sys2Proof

/-! ## Sparse tables -/

theorem look_unlist_same {α : Type} (t : Tab α) (d : α) (k : Nat) : look (unlist t k) d k = d := by
  induction t with
  | nil => rfl
  | cons c r ih =>
    obtain ⟨k', v⟩ := c
    rw [unlist]
    split
    · exact ih
    · rename_i h
      rw [look, if_neg h]
      exact ih

theorem look_unlist_other {α : Type} (t : Tab α) (d : α) (k j : Nat) (h : j ≠ k) :
    look (unlist t k) d j = look t d j := by
  induction t with
  | nil => rfl
  | cons c r ih =>
    obtain ⟨k', v⟩ := c
    rw [unlist]
    split
    · rename_i hk
      rw [ih, look, if_neg (by omega)]
    · rw [look, look, ih]

theorem look_enlist_same {α : Type} (t : Tab α) (d v : α) (k : Nat) : look (enlist t k v) d k = v := by
  induction t with
  | nil => simp [enlist, look]
  | cons c r ih =>
    obtain ⟨k', w⟩ := c
    rw [enlist]
    split
    · simp [look]
    · split
      · simp [look]
      · rename_i h1 h2
        rw [look, if_neg h2]
        exact ih

theorem look_enlist_other {α : Type} (t : Tab α) (d v : α) (k j : Nat) (h : j ≠ k) :
    look (enlist t k v) d j = look t d j := by
  induction t with
  | nil => simp [enlist, look, h]
  | cons c r ih =>
    obtain ⟨k', w⟩ := c
    rw [enlist]
    split
    · rw [look, if_neg h]
    · split
      · rename_i h1 h2
        subst h2
        rw [look, if_neg h, look, if_neg h]
      · rw [look, look, ih]

/-- A table reads as what was stored. -/
@[simp] theorem look_store_same {α : Type} [DecidableEq α] (t : Tab α) (d v : α) (k : Nat) : look (store t d k v) d k = v := by
  unfold store
  split
  · rename_i h
    rw [look_unlist_same, h]
  · exact look_enlist_same t d v k

/-- Storing at one key leaves every other key as it was, whatever default it is read with. -/
@[simp] theorem look_store_other {α : Type} [DecidableEq α] (t : Tab α) (d d' v : α) (k j : Nat) (h : j ≠ k) :
    look (store t d k v) d' j = look t d' j := by
  unfold store
  split
  · exact look_unlist_other t d' k j h
  · exact look_enlist_other t d' v k j h
/-! ## Device memory: its canonical form -/

/-- Every address of a memory lies above `a`. -/
def above (a : Nat) (m : List Host.Cell) : Bool := m.all (fun c => decide (a < c.1))

theorem rising_cons (k : Nat) (v : BitVec 8) (r : List Host.Cell) :
    rising ((k, v) :: r) = (above k r && rising r) := by
  induction r generalizing k v with
  | nil => simp [rising, above]
  | cons c r ih =>
    obtain ⟨k', v'⟩ := c
    rw [rising]
    simp only [ih, above, List.all_cons]
    by_cases h : k < k'
    · simp only [h, decide_true, Bool.true_and]
      cases hr : r.all (fun c => decide (k' < c.1)) with
      | false => simp
      | true =>
        have : r.all (fun c => decide (k < c.1)) = true := by
          rw [List.all_eq_true] at hr ⊢
          intro x hx
          have := hr x hx
          simp only [decide_eq_true_eq] at this ⊢
          omega
        simp [this]
    · simp [h]

theorem above_mono {a b : Nat} (h : a ≤ b) (m : List Host.Cell) (hm : above b m = true) : above a m = true := by
  rw [above, List.all_eq_true] at hm ⊢
  intro x hx
  have := hm x hx
  simp only [decide_eq_true_eq] at this ⊢
  omega

theorem above_erase (a b : Nat) (m : List Host.Cell) (h : above b m = true) : above b (memErase m a) = true := by
  induction m with
  | nil => rfl
  | cons c r ih =>
    obtain ⟨k, v⟩ := c
    simp only [above, List.all_cons, Bool.and_eq_true] at h
    rw [memErase]
    split
    · exact ih h.2
    · simp only [above, List.all_cons, Bool.and_eq_true]
      exact ⟨h.1, ih h.2⟩

theorem above_insert (a b : Nat) (v : BitVec 8) (m : List Host.Cell) (hb : b < a) (h : above b m = true) :
    above b (memInsert m a v) = true := by
  induction m with
  | nil => simp [memInsert, above, hb]
  | cons c r ih =>
    obtain ⟨k, w⟩ := c
    simp only [above, List.all_cons, Bool.and_eq_true] at h
    rw [memInsert]
    split
    · simp only [above, List.all_cons, Bool.and_eq_true]
      exact ⟨by simpa using hb, h⟩
    · split
      · simp only [above, List.all_cons, Bool.and_eq_true]
        exact ⟨by simpa using hb, h.2⟩
      · simp only [above, List.all_cons, Bool.and_eq_true]
        exact ⟨h.1, ih h.2⟩

theorem wf_cons (lost k : Nat) (v : BitVec 8) (r : List Host.Cell) :
    Memory.wf lost ((k, v) :: r) = true ↔ above k r = true ∧ v ≠ blankByte lost k ∧ Memory.wf lost r = true := by
  simp only [Memory.wf, rising_cons, List.all_cons, Bool.and_eq_true, decide_eq_true_eq]
  constructor
  · rintro ⟨⟨a, b⟩, c, d⟩; exact ⟨a, c, b, d⟩
  · rintro ⟨a, c, b, d⟩; exact ⟨⟨a, b⟩, c, d⟩

theorem memErase_wf (lost a : Nat) (m : List Host.Cell) (h : Memory.wf lost m = true) :
    Memory.wf lost (memErase m a) = true := by
  induction m with
  | nil => exact h
  | cons c r ih =>
    obtain ⟨k, v⟩ := c
    rw [wf_cons] at h
    rw [memErase]
    split
    · exact ih h.2.2
    · rw [wf_cons]
      exact ⟨above_erase _ _ _ h.1, h.2.1, ih h.2.2⟩

theorem memInsert_wf (lost a : Nat) (v : BitVec 8) (m : List Host.Cell) (hv : v ≠ blankByte lost a)
    (h : Memory.wf lost m = true) : Memory.wf lost (memInsert m a v) = true := by
  induction m with
  | nil => rw [memInsert, wf_cons]; exact ⟨rfl, hv, h⟩
  | cons c r ih =>
    obtain ⟨k, w⟩ := c
    have h' := (wf_cons _ _ _ _).1 h
    rw [memInsert]
    split
    · rename_i hk
      rw [wf_cons]
      refine ⟨?_, hv, h⟩
      simp only [above, List.all_cons, Bool.and_eq_true, decide_eq_true_eq]
      exact ⟨hk, above_mono (Nat.le_of_lt hk) r h'.1⟩
    · split
      · rename_i hk
        subst hk
        rw [wf_cons]
        exact ⟨h'.1, hv, h'.2.2⟩
      · rename_i h1 h2
        rw [wf_cons]
        exact ⟨above_insert _ _ _ _ (by omega) h'.1, h'.2.1, ih h'.2.2⟩

/-- R375: writing a byte keeps the canonical form. -/
theorem memWrite_wf (lost a : Nat) (v : BitVec 8) (m : List Host.Cell) (h : Memory.wf lost m = true) :
    Memory.wf lost (memWrite lost m a v) = true := by
  unfold memWrite
  split
  · exact memErase_wf lost a m h
  · rename_i hv
    exact memInsert_wf lost a v m hv h

/-- R375: writing bytes keeps the canonical form. -/
theorem memWriteList_wf (lost a : Nat) (bs : List Byte) (m : List Host.Cell) (h : Memory.wf lost m = true) :
    Memory.wf lost (memWriteList lost m a bs) = true := by
  induction bs generalizing m a with
  | nil => exact h
  | cons b r ih => exact ih _ _ (memWrite_wf lost a _ m h)

/-! ## Device memory: a read after a write -/

theorem memRead_erase_same (lost a : Nat) (m : List Host.Cell) : memRead lost (memErase m a) a = blankByte lost a := by
  induction m with
  | nil => rfl
  | cons c r ih =>
    obtain ⟨k, v⟩ := c
    rw [memErase]
    split
    · exact ih
    · rename_i h
      rw [memRead, if_neg h]
      exact ih

theorem memRead_erase_other (lost a b : Nat) (m : List Host.Cell) (h : b ≠ a) :
    memRead lost (memErase m a) b = memRead lost m b := by
  induction m with
  | nil => rfl
  | cons c r ih =>
    obtain ⟨k, v⟩ := c
    rw [memErase]
    split
    · rename_i hk
      rw [ih, memRead, if_neg (by omega)]
    · rw [memRead, memRead]
      split
      · rfl
      · exact ih

theorem memRead_insert_same (lost a : Nat) (v : BitVec 8) (m : List Host.Cell) :
    memRead lost (memInsert m a v) a = v := by
  induction m with
  | nil => simp [memInsert, memRead]
  | cons c r ih =>
    obtain ⟨k, w⟩ := c
    rw [memInsert]
    split
    · simp [memRead]
    · split
      · simp [memRead]
      · rename_i h1 h2
        rw [memRead, if_neg h2]
        exact ih

theorem memRead_insert_other (lost a b : Nat) (v : BitVec 8) (m : List Host.Cell) (h : b ≠ a) :
    memRead lost (memInsert m a v) b = memRead lost m b := by
  induction m with
  | nil => simp [memInsert, memRead, h]
  | cons c r ih =>
    obtain ⟨k, w⟩ := c
    rw [memInsert]
    split
    · rw [memRead, if_neg h]
    · split
      · rename_i h1 h2
        subst h2
        rw [memRead, if_neg h, memRead, if_neg h]
      · rw [memRead, memRead]
        split
        · rfl
        · exact ih

/-- A byte reads as what was written to it. -/
@[simp] theorem memRead_write_same (lost a : Nat) (v : BitVec 8) (m : List Host.Cell) :
    memRead lost (memWrite lost m a v) a = v := by
  unfold memWrite
  split
  · rename_i h
    rw [memRead_erase_same, h]
  · exact memRead_insert_same lost a v m

/-- A write leaves every other byte as it was. -/
@[simp] theorem memRead_write_other (lost a b : Nat) (v : BitVec 8) (m : List Host.Cell) (h : b ≠ a) :
    memRead lost (memWrite lost m a v) b = memRead lost m b := by
  unfold memWrite
  split
  · exact memRead_erase_other lost a b m h
  · exact memRead_insert_other lost a b v m h

/-- Bytes written at rising addresses leave every byte outside them as it was. -/
theorem memRead_writeList_other (lost a b : Nat) (bs : List Byte) (m : List Host.Cell) (h : b < a ∨ a + bs.length ≤ b) :
    memRead lost (memWriteList lost m a bs) b = memRead lost m b := by
  induction bs generalizing m a with
  | nil => rfl
  | cons x r ih =>
    simp only [List.length_cons] at h
    rw [memWriteList, ih _ _ (by omega), memRead_write_other _ _ _ _ _ (by omega)]

/-- Byte `i` of bytes written at rising addresses. -/
theorem memRead_writeList_at (lost a i : Nat) (bs : List Byte) (m : List Host.Cell) (h : i < bs.length) :
    memRead lost (memWriteList lost m a bs) (a + i) = BitVec.ofNat 8 (bs.getD i 0) := by
  induction bs generalizing m a i with
  | nil => simp at h
  | cons x r ih =>
    rw [memWriteList]
    cases i with
    | zero => rw [memRead_writeList_other _ _ _ _ _ (by omega)]; simp
    | succ j =>
      have e : a + (j + 1) = a + 1 + j := by omega
      rw [e, ih _ _ _ (by simpa using h)]
      simp

end Sys2Proof.Machine
end

