-- ==== Sys2Proof/Laws/MemoryKept.lean ====
section
/-! SUPPORT. Each operation and command that changes device memory keeps its canonical form. -/

set_option maxRecDepth 4000
set_option linter.unusedSimpArgs false

namespace Sys2Proof.Machine

open Sys2Proof

/-- Memory in its canonical form depends on memory and on how often it was lost. -/
theorem memOk_blind : Blind State.memOk [.pending, .now, .fresh, .dict, .blobs, .staged, .stagedBlobs, .epochs, .errName, .latches, .out, .draws, .dramBad, .dram, .scrubFrom, .lattice, .cxl, .access, .tim, .cams, .rc, .rg, .vd, .atl, .apipes, .sg, .ch, .lanes, .st, .judged, .bank, .lg, .vault, .cont, .place, .slots, .hist, .thumbs, .rt, .holdBy, .mer, .fw, .trans, .am, .cal, .power] := by
  intro s u h
  have h1 : u.mem = s.mem := h .mem rfl
  have h2 : u.lost = s.lost := h .lost rfl
  simp [State.memOk, h1, h2]

theorem foldl_mem {β : Type} (f : State → β → State) (l : List β) (s : State)
    (hf : ∀ a x, see State.memOk a = true → see State.memOk (f a x) = true) (h : see State.memOk s = true) :
    see State.memOk (l.foldl f s) = true := by
  induction l generalizing s with
  | nil => exact h
  | cons x r ih => exact ih _ (hf _ _ h)

theorem State.memStore_mem (s : State) (a : Nat) (b : List Byte) (h : see State.memOk s = true) : see State.memOk (State.memStore s a b) = true := by
  unfold State.memStore
  exact memWriteList_wf _ _ _ _ h

theorem State.memLose_mem (s : State) : see State.memOk (State.memLose s) = true := rfl

theorem State.dmaWrite_mem (s : State) (device : Bool) (a : Nat) (b : List Byte) (h : see State.memOk s = true) : see State.memOk (State.dmaWrite s device a b) = true := by
  unfold State.dmaWrite
  repeat' first
    | (with_reducible exact h)
    | split
    | (with_reducible refine State.memStore_mem _ _ _ ?_)
    | (with_reducible refine State.memLose_mem _)
    | (with_reducible refine foldl_mem _ _ _ (fun a x h => ?_) ?_)
    | (simp only [])
    | (simp (disch := exact memOk_blind.mono rfl) [*]; done)
    | (simp (disch := exact memOk_blind.mono rfl))

theorem State.dmaPut_mem (s : State) (device : Bool) (l : List (Nat × Nat × Nat)) (data : List Byte) (h : see State.memOk s = true) : see State.memOk (State.dmaPut s device l data) = true := by
  induction l generalizing s data with
  | nil => exact h
  | cons x r ih =>
    obtain ⟨a, b, c⟩ := x
    exact ih _ _ (State.dmaWrite_mem _ _ _ _ h)

theorem State.dmaAdvance_mem (s : State) (n moved : Nat) (data : List Byte) (h : see State.memOk s = true) : see State.memOk (State.dmaAdvance s n moved data) = true := by
  unfold State.dmaAdvance
  repeat' first
    | (with_reducible exact h)
    | split
    | (with_reducible refine State.memStore_mem _ _ _ ?_)
    | (with_reducible refine State.memLose_mem _)
    | (with_reducible refine State.dmaWrite_mem _ _ _ _ ?_)
    | (with_reducible refine State.dmaPut_mem _ _ _ _ ?_)
    | (with_reducible refine foldl_mem _ _ _ (fun a x h => ?_) ?_)
    | (simp only [])
    | (simp (disch := exact memOk_blind.mono rfl) [*]; done)
    | (simp (disch := exact memOk_blind.mono rfl))

theorem State.dmaProgress_mem (s : State) (p : DmaProgress) (h : see State.memOk s = true) : see State.memOk (State.dmaProgress s p) = true := by
  unfold State.dmaProgress
  repeat' first
    | (with_reducible exact h)
    | split
    | (with_reducible refine State.memStore_mem _ _ _ ?_)
    | (with_reducible refine State.memLose_mem _)
    | (with_reducible refine State.dmaWrite_mem _ _ _ _ ?_)
    | (with_reducible refine State.dmaPut_mem _ _ _ _ ?_)
    | (with_reducible refine State.dmaAdvance_mem _ _ _ _ ?_)
    | (with_reducible refine foldl_mem _ _ _ (fun a x h => ?_) ?_)
    | (simp only [])
    | (simp (disch := exact memOk_blind.mono rfl) [*]; done)
    | (simp (disch := exact memOk_blind.mono rfl))

theorem State.dmaCheck_mem (s : State) (j : DmaJob) (h : see State.memOk s = true) : see State.memOk (State.dmaCheck s j) = true := by
  unfold State.dmaCheck
  repeat' first
    | (with_reducible exact h)
    | split
    | (with_reducible refine State.memStore_mem _ _ _ ?_)
    | (with_reducible refine State.memLose_mem _)
    | (with_reducible refine State.dmaWrite_mem _ _ _ _ ?_)
    | (with_reducible refine State.dmaPut_mem _ _ _ _ ?_)
    | (with_reducible refine State.dmaAdvance_mem _ _ _ _ ?_)
    | (with_reducible refine State.dmaProgress_mem _ _ ?_)
    | (with_reducible refine foldl_mem _ _ _ (fun a x h => ?_) ?_)
    | (simp only [])
    | (simp (disch := exact memOk_blind.mono rfl) [*]; done)
    | (simp (disch := exact memOk_blind.mono rfl))

theorem State.czWrite_mem (s : State) (n engine : Nat) (j : DmaJob) (src b : List Byte) (stored : Bool) (h : see State.memOk s = true) : see State.memOk (State.czWrite s n engine j src b stored) = true := by
  unfold State.czWrite
  repeat' first
    | (with_reducible exact h)
    | split
    | (with_reducible refine State.memStore_mem _ _ _ ?_)
    | (with_reducible refine State.memLose_mem _)
    | (with_reducible refine State.dmaWrite_mem _ _ _ _ ?_)
    | (with_reducible refine State.dmaPut_mem _ _ _ _ ?_)
    | (with_reducible refine State.dmaAdvance_mem _ _ _ _ ?_)
    | (with_reducible refine State.dmaProgress_mem _ _ ?_)
    | (with_reducible refine State.dmaCheck_mem _ _ ?_)
    | (with_reducible refine foldl_mem _ _ _ (fun a x h => ?_) ?_)
    | (simp only [])
    | (simp (disch := exact memOk_blind.mono rfl) [*]; done)
    | (simp (disch := exact memOk_blind.mono rfl))

theorem State.czTake_mem (s : State) (n : Nat) (j : DmaJob) (x : CzBlock) (h : see State.memOk s = true) : see State.memOk (State.czTake s n j x) = true := by
  unfold State.czTake
  repeat' first
    | (with_reducible exact h)
    | split
    | (with_reducible refine State.memStore_mem _ _ _ ?_)
    | (with_reducible refine State.memLose_mem _)
    | (with_reducible refine State.dmaWrite_mem _ _ _ _ ?_)
    | (with_reducible refine State.dmaPut_mem _ _ _ _ ?_)
    | (with_reducible refine State.dmaAdvance_mem _ _ _ _ ?_)
    | (with_reducible refine State.dmaProgress_mem _ _ ?_)
    | (with_reducible refine State.dmaCheck_mem _ _ ?_)
    | (with_reducible refine State.czWrite_mem _ _ _ _ _ _ _ ?_)
    | (with_reducible refine foldl_mem _ _ _ (fun a x h => ?_) ?_)
    | (simp only [])
    | (simp (disch := exact memOk_blind.mono rfl) [*]; done)
    | (simp (disch := exact memOk_blind.mono rfl))

theorem State.czFlush_mem (s : State) (fuel n : Nat) (h : see State.memOk s = true) : see State.memOk (State.czFlush s fuel n) = true := by
  induction fuel generalizing s with
  | zero => exact h
  | succ f ih =>
    unfold State.czFlush
    (repeat' split) <;> first | exact h | exact ih _ (State.czTake_mem _ _ _ _ h)

theorem State.dmaStart_mem (s : State) (n mover : Nat) (h : see State.memOk s = true) : see State.memOk (State.dmaStart s n mover) = true := by
  unfold State.dmaStart
  repeat' first
    | (with_reducible exact h)
    | split
    | (with_reducible refine State.memStore_mem _ _ _ ?_)
    | (with_reducible refine State.memLose_mem _)
    | (with_reducible refine State.dmaWrite_mem _ _ _ _ ?_)
    | (with_reducible refine State.dmaPut_mem _ _ _ _ ?_)
    | (with_reducible refine State.dmaAdvance_mem _ _ _ _ ?_)
    | (with_reducible refine State.dmaProgress_mem _ _ ?_)
    | (with_reducible refine State.dmaCheck_mem _ _ ?_)
    | (with_reducible refine State.czWrite_mem _ _ _ _ _ _ _ ?_)
    | (with_reducible refine State.czTake_mem _ _ _ _ ?_)
    | (with_reducible refine State.czFlush_mem _ _ _ ?_)
    | (with_reducible refine foldl_mem _ _ _ (fun a x h => ?_) ?_)
    | (simp only [])
    | (simp (disch := exact memOk_blind.mono rfl) [*]; done)
    | (simp (disch := exact memOk_blind.mono rfl))

theorem State.interleavedLost_mem (s : State) : see State.memOk (State.interleavedLost s) = true := by
  unfold State.interleavedLost
  repeat' first
    | (with_reducible exact h)
    | split
    | (with_reducible refine State.memStore_mem _ _ _ ?_)
    | (with_reducible refine State.memLose_mem _)
    | (with_reducible refine State.dmaWrite_mem _ _ _ _ ?_)
    | (with_reducible refine State.dmaPut_mem _ _ _ _ ?_)
    | (with_reducible refine State.dmaAdvance_mem _ _ _ _ ?_)
    | (with_reducible refine State.dmaProgress_mem _ _ ?_)
    | (with_reducible refine State.dmaCheck_mem _ _ ?_)
    | (with_reducible refine State.czWrite_mem _ _ _ _ _ _ _ ?_)
    | (with_reducible refine State.czTake_mem _ _ _ _ ?_)
    | (with_reducible refine State.czFlush_mem _ _ _ ?_)
    | (with_reducible refine State.dmaStart_mem _ _ _ ?_)
    | (with_reducible refine foldl_mem _ _ _ (fun a x h => ?_) ?_)
    | (simp only [])
    | (simp (disch := exact memOk_blind.mono rfl) [*]; done)
    | (simp (disch := exact memOk_blind.mono rfl))

theorem State.channelFault_mem (s : State) (c : Nat) (h : see State.memOk s = true) : see State.memOk (State.channelFault s c) = true := by
  unfold State.channelFault
  repeat' first
    | (with_reducible exact h)
    | split
    | (with_reducible refine State.memStore_mem _ _ _ ?_)
    | (with_reducible refine State.memLose_mem _)
    | (with_reducible refine State.dmaWrite_mem _ _ _ _ ?_)
    | (with_reducible refine State.dmaPut_mem _ _ _ _ ?_)
    | (with_reducible refine State.dmaAdvance_mem _ _ _ _ ?_)
    | (with_reducible refine State.dmaProgress_mem _ _ ?_)
    | (with_reducible refine State.dmaCheck_mem _ _ ?_)
    | (with_reducible refine State.czWrite_mem _ _ _ _ _ _ _ ?_)
    | (with_reducible refine State.czTake_mem _ _ _ _ ?_)
    | (with_reducible refine State.czFlush_mem _ _ _ ?_)
    | (with_reducible refine State.dmaStart_mem _ _ _ ?_)
    | (with_reducible refine State.interleavedLost_mem _)
    | (with_reducible refine foldl_mem _ _ _ (fun a x h => ?_) ?_)
    | (simp only [])
    | (simp (disch := exact memOk_blind.mono rfl) [*]; done)
    | (simp (disch := exact memOk_blind.mono rfl))

theorem State.dramPreop_mem (s : State) (h : see State.memOk s = true) : see State.memOk (State.dramPreop s) = true := by
  unfold State.dramPreop
  repeat' first
    | (with_reducible exact h)
    | split
    | (with_reducible refine State.memStore_mem _ _ _ ?_)
    | (with_reducible refine State.memLose_mem _)
    | (with_reducible refine State.dmaWrite_mem _ _ _ _ ?_)
    | (with_reducible refine State.dmaPut_mem _ _ _ _ ?_)
    | (with_reducible refine State.dmaAdvance_mem _ _ _ _ ?_)
    | (with_reducible refine State.dmaProgress_mem _ _ ?_)
    | (with_reducible refine State.dmaCheck_mem _ _ ?_)
    | (with_reducible refine State.czWrite_mem _ _ _ _ _ _ _ ?_)
    | (with_reducible refine State.czTake_mem _ _ _ _ ?_)
    | (with_reducible refine State.czFlush_mem _ _ _ ?_)
    | (with_reducible refine State.dmaStart_mem _ _ _ ?_)
    | (with_reducible refine State.interleavedLost_mem _)
    | (with_reducible refine State.channelFault_mem _ _ ?_)
    | (with_reducible refine foldl_mem _ _ _ (fun a x h => ?_) ?_)
    | (simp only [])
    | (simp (disch := exact memOk_blind.mono rfl) [*]; done)
    | (simp (disch := exact memOk_blind.mono rfl))

theorem State.dramError_mem (s : State) (e : DramError) (h : see State.memOk s = true) : see State.memOk (State.dramError s e) = true := by
  unfold State.dramError
  repeat' first
    | (with_reducible exact h)
    | split
    | (with_reducible refine State.memStore_mem _ _ _ ?_)
    | (with_reducible refine State.memLose_mem _)
    | (with_reducible refine State.dmaWrite_mem _ _ _ _ ?_)
    | (with_reducible refine State.dmaPut_mem _ _ _ _ ?_)
    | (with_reducible refine State.dmaAdvance_mem _ _ _ _ ?_)
    | (with_reducible refine State.dmaProgress_mem _ _ ?_)
    | (with_reducible refine State.dmaCheck_mem _ _ ?_)
    | (with_reducible refine State.czWrite_mem _ _ _ _ _ _ _ ?_)
    | (with_reducible refine State.czTake_mem _ _ _ _ ?_)
    | (with_reducible refine State.czFlush_mem _ _ _ ?_)
    | (with_reducible refine State.dmaStart_mem _ _ _ ?_)
    | (with_reducible refine State.interleavedLost_mem _)
    | (with_reducible refine State.channelFault_mem _ _ ?_)
    | (with_reducible refine State.dramPreop_mem _ ?_)
    | (with_reducible refine foldl_mem _ _ _ (fun a x h => ?_) ?_)
    | (simp only [])
    | (simp (disch := exact memOk_blind.mono rfl) [*]; done)
    | (simp (disch := exact memOk_blind.mono rfl))

theorem State.dramErrors_mem (s : State) (l : List DramError) (h : see State.memOk s = true) : see State.memOk (State.dramErrors s l) = true := by
  unfold State.dramErrors
  repeat' first
    | (with_reducible exact h)
    | split
    | (with_reducible refine State.memStore_mem _ _ _ ?_)
    | (with_reducible refine State.memLose_mem _)
    | (with_reducible refine State.dmaWrite_mem _ _ _ _ ?_)
    | (with_reducible refine State.dmaPut_mem _ _ _ _ ?_)
    | (with_reducible refine State.dmaAdvance_mem _ _ _ _ ?_)
    | (with_reducible refine State.dmaProgress_mem _ _ ?_)
    | (with_reducible refine State.dmaCheck_mem _ _ ?_)
    | (with_reducible refine State.czWrite_mem _ _ _ _ _ _ _ ?_)
    | (with_reducible refine State.czTake_mem _ _ _ _ ?_)
    | (with_reducible refine State.czFlush_mem _ _ _ ?_)
    | (with_reducible refine State.dmaStart_mem _ _ _ ?_)
    | (with_reducible refine State.interleavedLost_mem _)
    | (with_reducible refine State.channelFault_mem _ _ ?_)
    | (with_reducible refine State.dramPreop_mem _ ?_)
    | (with_reducible refine State.dramError_mem _ _ ?_)
    | (with_reducible refine foldl_mem _ _ _ (fun a x h => ?_) ?_)
    | (simp only [])
    | (simp (disch := exact memOk_blind.mono rfl) [*]; done)
    | (simp (disch := exact memOk_blind.mono rfl))

theorem State.dramMeet_mem (s : State) (ranges : List (Nat × Nat)) (errors : List DramError) (h : see State.memOk s = true) : see State.memOk (State.dramMeet s ranges errors) = true := by
  unfold State.dramMeet
  repeat' first
    | (with_reducible exact h)
    | split
    | (with_reducible refine State.memStore_mem _ _ _ ?_)
    | (with_reducible refine State.memLose_mem _)
    | (with_reducible refine State.dmaWrite_mem _ _ _ _ ?_)
    | (with_reducible refine State.dmaPut_mem _ _ _ _ ?_)
    | (with_reducible refine State.dmaAdvance_mem _ _ _ _ ?_)
    | (with_reducible refine State.dmaProgress_mem _ _ ?_)
    | (with_reducible refine State.dmaCheck_mem _ _ ?_)
    | (with_reducible refine State.czWrite_mem _ _ _ _ _ _ _ ?_)
    | (with_reducible refine State.czTake_mem _ _ _ _ ?_)
    | (with_reducible refine State.czFlush_mem _ _ _ ?_)
    | (with_reducible refine State.dmaStart_mem _ _ _ ?_)
    | (with_reducible refine State.interleavedLost_mem _)
    | (with_reducible refine State.channelFault_mem _ _ ?_)
    | (with_reducible refine State.dramPreop_mem _ ?_)
    | (with_reducible refine State.dramError_mem _ _ ?_)
    | (with_reducible refine State.dramErrors_mem _ _ ?_)
    | (with_reducible refine foldl_mem _ _ _ (fun a x h => ?_) ?_)
    | (simp only [])
    | (simp (disch := exact memOk_blind.mono rfl) [*]; done)
    | (simp (disch := exact memOk_blind.mono rfl))

theorem State.dmaMeet_mem (s : State) (j : DmaJob) (fault : Option ReadFault) (h : see State.memOk s = true) : see State.memOk (State.dmaMeet s j fault) = true := by
  unfold State.dmaMeet
  repeat' first
    | (with_reducible exact h)
    | split
    | (with_reducible refine State.memStore_mem _ _ _ ?_)
    | (with_reducible refine State.memLose_mem _)
    | (with_reducible refine State.dmaWrite_mem _ _ _ _ ?_)
    | (with_reducible refine State.dmaPut_mem _ _ _ _ ?_)
    | (with_reducible refine State.dmaAdvance_mem _ _ _ _ ?_)
    | (with_reducible refine State.dmaProgress_mem _ _ ?_)
    | (with_reducible refine State.dmaCheck_mem _ _ ?_)
    | (with_reducible refine State.czWrite_mem _ _ _ _ _ _ _ ?_)
    | (with_reducible refine State.czTake_mem _ _ _ _ ?_)
    | (with_reducible refine State.czFlush_mem _ _ _ ?_)
    | (with_reducible refine State.dmaStart_mem _ _ _ ?_)
    | (with_reducible refine State.interleavedLost_mem _)
    | (with_reducible refine State.channelFault_mem _ _ ?_)
    | (with_reducible refine State.dramPreop_mem _ ?_)
    | (with_reducible refine State.dramError_mem _ _ ?_)
    | (with_reducible refine State.dramErrors_mem _ _ ?_)
    | (with_reducible refine State.dramMeet_mem _ _ _ ?_)
    | (with_reducible refine foldl_mem _ _ _ (fun a x h => ?_) ?_)
    | (simp only [])
    | (simp (disch := exact memOk_blind.mono rfl) [*]; done)
    | (simp (disch := exact memOk_blind.mono rfl))

theorem State.replayRead_mem (s : State) (p a : Nat) (errors : List DramError) (h : see State.memOk s = true) : see State.memOk (State.replayRead s p a errors) = true := by
  unfold State.replayRead
  repeat' first
    | (with_reducible exact h)
    | split
    | (with_reducible refine State.memStore_mem _ _ _ ?_)
    | (with_reducible refine State.memLose_mem _)
    | (with_reducible refine State.dmaWrite_mem _ _ _ _ ?_)
    | (with_reducible refine State.dmaPut_mem _ _ _ _ ?_)
    | (with_reducible refine State.dmaAdvance_mem _ _ _ _ ?_)
    | (with_reducible refine State.dmaProgress_mem _ _ ?_)
    | (with_reducible refine State.dmaCheck_mem _ _ ?_)
    | (with_reducible refine State.czWrite_mem _ _ _ _ _ _ _ ?_)
    | (with_reducible refine State.czTake_mem _ _ _ _ ?_)
    | (with_reducible refine State.czFlush_mem _ _ _ ?_)
    | (with_reducible refine State.dmaStart_mem _ _ _ ?_)
    | (with_reducible refine State.interleavedLost_mem _)
    | (with_reducible refine State.channelFault_mem _ _ ?_)
    | (with_reducible refine State.dramPreop_mem _ ?_)
    | (with_reducible refine State.dramError_mem _ _ ?_)
    | (with_reducible refine State.dramErrors_mem _ _ ?_)
    | (with_reducible refine State.dramMeet_mem _ _ _ ?_)
    | (with_reducible refine State.dmaMeet_mem _ _ _ ?_)
    | (with_reducible refine foldl_mem _ _ _ (fun a x h => ?_) ?_)
    | (simp only [])
    | (simp (disch := exact memOk_blind.mono rfl) [*]; done)
    | (simp (disch := exact memOk_blind.mono rfl))

theorem State.takeOver_mem (s : State) (f : PipeFault) (q : Nat) (errors : List DramError) (h : see State.memOk s = true) : see State.memOk (State.takeOver s f q errors) = true := by
  unfold State.takeOver
  extract_lets p live s1 g snap m x r s2 bad lost before s3 s4 c5 s6 s7 s8 s9 s10 s11 s12 c13 s14 s15
  have h1 : see State.memOk s1 = true := by simp (disch := exact memOk_blind.mono rfl) [s1, State.dramMeet_mem _ _ _ h]
  have h2 : see State.memOk s2 = true := State.replayRead_mem _ _ _ _ h1
  clear_value s2
  have h4 : see State.memOk s4 = true := by
    simp only [s4, s3]; clear_value snap; split <;> simp (disch := exact memOk_blind.mono rfl) [h2]
  clear_value s4
  have h6 : see State.memOk s6 = true := by simp (disch := exact memOk_blind.mono rfl) [s6, h4]
  clear_value s6
  have h7 : see State.memOk s7 = true := by
    simp only [s7]; split <;> simp (disch := exact memOk_blind.mono rfl) [h6]
  clear_value s7
  have h9 : see State.memOk s9 = true := by simp (disch := exact memOk_blind.mono rfl) [s9, s8, h7]
  clear_value s9
  have h10 : see State.memOk s10 = true := by
    simp only [s10]; split <;> simp (disch := exact memOk_blind.mono rfl) [h9]
  clear_value s10
  have h11 : see State.memOk s11 = true := by
    simp only [s11]; split <;> simp (disch := exact memOk_blind.mono rfl) [h10]
  clear_value s11
  have h14 : see State.memOk s14 = true := by simp (disch := exact memOk_blind.mono rfl) [s14, s12, h11]
  clear_value s14
  have h15 : see State.memOk s15 = true := by simp (disch := exact memOk_blind.mono rfl) [s15, h14]
  clear_value s15
  (repeat' split) <;> first | exact h15 | (simp (disch := exact memOk_blind.mono rfl) [h15])

theorem State.startRotation_mem (s : State) (p : Nat) (errors : List DramError) (h : see State.memOk s = true) : see State.memOk (State.startRotation s p errors) = true := by
  unfold State.startRotation
  repeat' first
    | (with_reducible exact h)
    | split
    | (with_reducible refine State.memStore_mem _ _ _ ?_)
    | (with_reducible refine State.memLose_mem _)
    | (with_reducible refine State.dmaWrite_mem _ _ _ _ ?_)
    | (with_reducible refine State.dmaPut_mem _ _ _ _ ?_)
    | (with_reducible refine State.dmaAdvance_mem _ _ _ _ ?_)
    | (with_reducible refine State.dmaProgress_mem _ _ ?_)
    | (with_reducible refine State.dmaCheck_mem _ _ ?_)
    | (with_reducible refine State.czWrite_mem _ _ _ _ _ _ _ ?_)
    | (with_reducible refine State.czTake_mem _ _ _ _ ?_)
    | (with_reducible refine State.czFlush_mem _ _ _ ?_)
    | (with_reducible refine State.dmaStart_mem _ _ _ ?_)
    | (with_reducible refine State.interleavedLost_mem _)
    | (with_reducible refine State.channelFault_mem _ _ ?_)
    | (with_reducible refine State.dramPreop_mem _ ?_)
    | (with_reducible refine State.dramError_mem _ _ ?_)
    | (with_reducible refine State.dramErrors_mem _ _ ?_)
    | (with_reducible refine State.dramMeet_mem _ _ _ ?_)
    | (with_reducible refine State.dmaMeet_mem _ _ _ ?_)
    | (with_reducible refine State.replayRead_mem _ _ _ _ ?_)
    | (with_reducible refine State.takeOver_mem _ _ _ _ ?_)
    | (with_reducible refine foldl_mem _ _ _ (fun a x h => ?_) ?_)
    | (simp only [])
    | (simp (disch := exact memOk_blind.mono rfl) [*]; done)
    | (simp (disch := exact memOk_blind.mono rfl))

theorem State.lend_mem (s : State) (k p : Nat) (h : see State.memOk s = true) : see State.memOk (State.lend s k p) = true := by
  unfold State.lend
  repeat' first
    | (with_reducible exact h)
    | split
    | (with_reducible refine State.memStore_mem _ _ _ ?_)
    | (with_reducible refine State.memLose_mem _)
    | (with_reducible refine State.dmaWrite_mem _ _ _ _ ?_)
    | (with_reducible refine State.dmaPut_mem _ _ _ _ ?_)
    | (with_reducible refine State.dmaAdvance_mem _ _ _ _ ?_)
    | (with_reducible refine State.dmaProgress_mem _ _ ?_)
    | (with_reducible refine State.dmaCheck_mem _ _ ?_)
    | (with_reducible refine State.czWrite_mem _ _ _ _ _ _ _ ?_)
    | (with_reducible refine State.czTake_mem _ _ _ _ ?_)
    | (with_reducible refine State.czFlush_mem _ _ _ ?_)
    | (with_reducible refine State.dmaStart_mem _ _ _ ?_)
    | (with_reducible refine State.interleavedLost_mem _)
    | (with_reducible refine State.channelFault_mem _ _ ?_)
    | (with_reducible refine State.dramPreop_mem _ ?_)
    | (with_reducible refine State.dramError_mem _ _ ?_)
    | (with_reducible refine State.dramErrors_mem _ _ ?_)
    | (with_reducible refine State.dramMeet_mem _ _ _ ?_)
    | (with_reducible refine State.dmaMeet_mem _ _ _ ?_)
    | (with_reducible refine State.replayRead_mem _ _ _ _ ?_)
    | (with_reducible refine State.takeOver_mem _ _ _ _ ?_)
    | (with_reducible refine State.startRotation_mem _ _ _ ?_)
    | (with_reducible refine foldl_mem _ _ _ (fun a x h => ?_) ?_)
    | (simp only [])
    | (simp (disch := exact memOk_blind.mono rfl) [*]; done)
    | (simp (disch := exact memOk_blind.mono rfl))

theorem State.calForce_mem (s : State) (r : CalRequest) (h : see State.memOk s = true) : see State.memOk (State.calForce s r) = true := by
  unfold State.calForce
  repeat' first
    | (with_reducible exact h)
    | split
    | (with_reducible refine State.memStore_mem _ _ _ ?_)
    | (with_reducible refine State.memLose_mem _)
    | (with_reducible refine State.dmaWrite_mem _ _ _ _ ?_)
    | (with_reducible refine State.dmaPut_mem _ _ _ _ ?_)
    | (with_reducible refine State.dmaAdvance_mem _ _ _ _ ?_)
    | (with_reducible refine State.dmaProgress_mem _ _ ?_)
    | (with_reducible refine State.dmaCheck_mem _ _ ?_)
    | (with_reducible refine State.czWrite_mem _ _ _ _ _ _ _ ?_)
    | (with_reducible refine State.czTake_mem _ _ _ _ ?_)
    | (with_reducible refine State.czFlush_mem _ _ _ ?_)
    | (with_reducible refine State.dmaStart_mem _ _ _ ?_)
    | (with_reducible refine State.interleavedLost_mem _)
    | (with_reducible refine State.channelFault_mem _ _ ?_)
    | (with_reducible refine State.dramPreop_mem _ ?_)
    | (with_reducible refine State.dramError_mem _ _ ?_)
    | (with_reducible refine State.dramErrors_mem _ _ ?_)
    | (with_reducible refine State.dramMeet_mem _ _ _ ?_)
    | (with_reducible refine State.dmaMeet_mem _ _ _ ?_)
    | (with_reducible refine State.replayRead_mem _ _ _ _ ?_)
    | (with_reducible refine State.takeOver_mem _ _ _ _ ?_)
    | (with_reducible refine State.startRotation_mem _ _ _ ?_)
    | (with_reducible refine State.lend_mem _ _ _ ?_)
    | (with_reducible refine foldl_mem _ _ _ (fun a x h => ?_) ?_)
    | (simp only [])
    | (simp (disch := exact memOk_blind.mono rfl) [*]; done)
    | (simp (disch := exact memOk_blind.mono rfl))

theorem State.calExpire_mem (s : State) (r : CalRequest) (h : see State.memOk s = true) : see State.memOk (State.calExpire s r) = true := by
  unfold State.calExpire
  repeat' first
    | (with_reducible exact h)
    | split
    | (with_reducible refine State.memStore_mem _ _ _ ?_)
    | (with_reducible refine State.memLose_mem _)
    | (with_reducible refine State.dmaWrite_mem _ _ _ _ ?_)
    | (with_reducible refine State.dmaPut_mem _ _ _ _ ?_)
    | (with_reducible refine State.dmaAdvance_mem _ _ _ _ ?_)
    | (with_reducible refine State.dmaProgress_mem _ _ ?_)
    | (with_reducible refine State.dmaCheck_mem _ _ ?_)
    | (with_reducible refine State.czWrite_mem _ _ _ _ _ _ _ ?_)
    | (with_reducible refine State.czTake_mem _ _ _ _ ?_)
    | (with_reducible refine State.czFlush_mem _ _ _ ?_)
    | (with_reducible refine State.dmaStart_mem _ _ _ ?_)
    | (with_reducible refine State.interleavedLost_mem _)
    | (with_reducible refine State.channelFault_mem _ _ ?_)
    | (with_reducible refine State.dramPreop_mem _ ?_)
    | (with_reducible refine State.dramError_mem _ _ ?_)
    | (with_reducible refine State.dramErrors_mem _ _ ?_)
    | (with_reducible refine State.dramMeet_mem _ _ _ ?_)
    | (with_reducible refine State.dmaMeet_mem _ _ _ ?_)
    | (with_reducible refine State.replayRead_mem _ _ _ _ ?_)
    | (with_reducible refine State.takeOver_mem _ _ _ _ ?_)
    | (with_reducible refine State.startRotation_mem _ _ _ ?_)
    | (with_reducible refine State.lend_mem _ _ _ ?_)
    | (with_reducible refine State.calForce_mem _ _ ?_)
    | (with_reducible refine foldl_mem _ _ _ (fun a x h => ?_) ?_)
    | (simp only [])
    | (simp (disch := exact memOk_blind.mono rfl) [*]; done)
    | (simp (disch := exact memOk_blind.mono rfl))

theorem State.powerLost_mem (s : State) (standby : Bool) : see State.memOk (State.powerLost s standby) = true := by
  unfold State.powerLost
  refine foldl_mem _ _ _ (fun a x h => ?_) rfl
  simp (disch := exact memOk_blind.mono rfl) [h]

theorem State.railsDown_mem (s : State) : see State.memOk (State.railsDown s) = true := by
  unfold State.railsDown
  repeat' first
    | (with_reducible exact h)
    | split
    | (with_reducible refine State.memStore_mem _ _ _ ?_)
    | (with_reducible refine State.memLose_mem _)
    | (with_reducible refine State.dmaWrite_mem _ _ _ _ ?_)
    | (with_reducible refine State.dmaPut_mem _ _ _ _ ?_)
    | (with_reducible refine State.dmaAdvance_mem _ _ _ _ ?_)
    | (with_reducible refine State.dmaProgress_mem _ _ ?_)
    | (with_reducible refine State.dmaCheck_mem _ _ ?_)
    | (with_reducible refine State.czWrite_mem _ _ _ _ _ _ _ ?_)
    | (with_reducible refine State.czTake_mem _ _ _ _ ?_)
    | (with_reducible refine State.czFlush_mem _ _ _ ?_)
    | (with_reducible refine State.dmaStart_mem _ _ _ ?_)
    | (with_reducible refine State.interleavedLost_mem _)
    | (with_reducible refine State.channelFault_mem _ _ ?_)
    | (with_reducible refine State.dramPreop_mem _ ?_)
    | (with_reducible refine State.dramError_mem _ _ ?_)
    | (with_reducible refine State.dramErrors_mem _ _ ?_)
    | (with_reducible refine State.dramMeet_mem _ _ _ ?_)
    | (with_reducible refine State.dmaMeet_mem _ _ _ ?_)
    | (with_reducible refine State.replayRead_mem _ _ _ _ ?_)
    | (with_reducible refine State.takeOver_mem _ _ _ _ ?_)
    | (with_reducible refine State.startRotation_mem _ _ _ ?_)
    | (with_reducible refine State.lend_mem _ _ _ ?_)
    | (with_reducible refine State.calForce_mem _ _ ?_)
    | (with_reducible refine State.calExpire_mem _ _ ?_)
    | (with_reducible refine State.powerLost_mem _ _)
    | (with_reducible refine foldl_mem _ _ _ (fun a x h => ?_) ?_)
    | (simp only [])
    | (simp (disch := exact memOk_blind.mono rfl) [*]; done)
    | (simp (disch := exact memOk_blind.mono rfl))

theorem State.powerDown_mem (s : State) (h : see State.memOk s = true) : see State.memOk (State.powerDown s) = true := by
  unfold State.powerDown
  repeat' first
    | (with_reducible exact h)
    | split
    | (with_reducible refine State.memStore_mem _ _ _ ?_)
    | (with_reducible refine State.memLose_mem _)
    | (with_reducible refine State.dmaWrite_mem _ _ _ _ ?_)
    | (with_reducible refine State.dmaPut_mem _ _ _ _ ?_)
    | (with_reducible refine State.dmaAdvance_mem _ _ _ _ ?_)
    | (with_reducible refine State.dmaProgress_mem _ _ ?_)
    | (with_reducible refine State.dmaCheck_mem _ _ ?_)
    | (with_reducible refine State.czWrite_mem _ _ _ _ _ _ _ ?_)
    | (with_reducible refine State.czTake_mem _ _ _ _ ?_)
    | (with_reducible refine State.czFlush_mem _ _ _ ?_)
    | (with_reducible refine State.dmaStart_mem _ _ _ ?_)
    | (with_reducible refine State.interleavedLost_mem _)
    | (with_reducible refine State.channelFault_mem _ _ ?_)
    | (with_reducible refine State.dramPreop_mem _ ?_)
    | (with_reducible refine State.dramError_mem _ _ ?_)
    | (with_reducible refine State.dramErrors_mem _ _ ?_)
    | (with_reducible refine State.dramMeet_mem _ _ _ ?_)
    | (with_reducible refine State.dmaMeet_mem _ _ _ ?_)
    | (with_reducible refine State.replayRead_mem _ _ _ _ ?_)
    | (with_reducible refine State.takeOver_mem _ _ _ _ ?_)
    | (with_reducible refine State.startRotation_mem _ _ _ ?_)
    | (with_reducible refine State.lend_mem _ _ _ ?_)
    | (with_reducible refine State.calForce_mem _ _ ?_)
    | (with_reducible refine State.calExpire_mem _ _ ?_)
    | (with_reducible refine State.powerLost_mem _ _)
    | (with_reducible refine State.railsDown_mem _)
    | (with_reducible refine foldl_mem _ _ _ (fun a x h => ?_) ?_)
    | (simp only [])
    | (simp (disch := exact memOk_blind.mono rfl) [*]; done)
    | (simp (disch := exact memOk_blind.mono rfl))

theorem State.railFault_mem (s : State) (low : List Nat) (h : see State.memOk s = true) : see State.memOk (State.railFault s low) = true := by
  unfold State.railFault
  repeat' first
    | (with_reducible exact h)
    | split
    | (with_reducible refine State.memStore_mem _ _ _ ?_)
    | (with_reducible refine State.memLose_mem _)
    | (with_reducible refine State.dmaWrite_mem _ _ _ _ ?_)
    | (with_reducible refine State.dmaPut_mem _ _ _ _ ?_)
    | (with_reducible refine State.dmaAdvance_mem _ _ _ _ ?_)
    | (with_reducible refine State.dmaProgress_mem _ _ ?_)
    | (with_reducible refine State.dmaCheck_mem _ _ ?_)
    | (with_reducible refine State.czWrite_mem _ _ _ _ _ _ _ ?_)
    | (with_reducible refine State.czTake_mem _ _ _ _ ?_)
    | (with_reducible refine State.czFlush_mem _ _ _ ?_)
    | (with_reducible refine State.dmaStart_mem _ _ _ ?_)
    | (with_reducible refine State.interleavedLost_mem _)
    | (with_reducible refine State.channelFault_mem _ _ ?_)
    | (with_reducible refine State.dramPreop_mem _ ?_)
    | (with_reducible refine State.dramError_mem _ _ ?_)
    | (with_reducible refine State.dramErrors_mem _ _ ?_)
    | (with_reducible refine State.dramMeet_mem _ _ _ ?_)
    | (with_reducible refine State.dmaMeet_mem _ _ _ ?_)
    | (with_reducible refine State.replayRead_mem _ _ _ _ ?_)
    | (with_reducible refine State.takeOver_mem _ _ _ _ ?_)
    | (with_reducible refine State.startRotation_mem _ _ _ ?_)
    | (with_reducible refine State.lend_mem _ _ _ ?_)
    | (with_reducible refine State.calForce_mem _ _ ?_)
    | (with_reducible refine State.calExpire_mem _ _ ?_)
    | (with_reducible refine State.powerLost_mem _ _)
    | (with_reducible refine State.railsDown_mem _)
    | (with_reducible refine State.powerDown_mem _ ?_)
    | (with_reducible refine foldl_mem _ _ _ (fun a x h => ?_) ?_)
    | (simp only [])
    | (simp (disch := exact memOk_blind.mono rfl) [*]; done)
    | (simp (disch := exact memOk_blind.mono rfl))

theorem State.islandUp_mem (s : State) (i : Nat) (h : see State.memOk s = true) : see State.memOk (State.islandUp s i) = true := by
  unfold State.islandUp
  repeat' first
    | (with_reducible exact h)
    | split
    | (with_reducible refine State.memStore_mem _ _ _ ?_)
    | (with_reducible refine State.memLose_mem _)
    | (with_reducible refine State.dmaWrite_mem _ _ _ _ ?_)
    | (with_reducible refine State.dmaPut_mem _ _ _ _ ?_)
    | (with_reducible refine State.dmaAdvance_mem _ _ _ _ ?_)
    | (with_reducible refine State.dmaProgress_mem _ _ ?_)
    | (with_reducible refine State.dmaCheck_mem _ _ ?_)
    | (with_reducible refine State.czWrite_mem _ _ _ _ _ _ _ ?_)
    | (with_reducible refine State.czTake_mem _ _ _ _ ?_)
    | (with_reducible refine State.czFlush_mem _ _ _ ?_)
    | (with_reducible refine State.dmaStart_mem _ _ _ ?_)
    | (with_reducible refine State.interleavedLost_mem _)
    | (with_reducible refine State.channelFault_mem _ _ ?_)
    | (with_reducible refine State.dramPreop_mem _ ?_)
    | (with_reducible refine State.dramError_mem _ _ ?_)
    | (with_reducible refine State.dramErrors_mem _ _ ?_)
    | (with_reducible refine State.dramMeet_mem _ _ _ ?_)
    | (with_reducible refine State.dmaMeet_mem _ _ _ ?_)
    | (with_reducible refine State.replayRead_mem _ _ _ _ ?_)
    | (with_reducible refine State.takeOver_mem _ _ _ _ ?_)
    | (with_reducible refine State.startRotation_mem _ _ _ ?_)
    | (with_reducible refine State.lend_mem _ _ _ ?_)
    | (with_reducible refine State.calForce_mem _ _ ?_)
    | (with_reducible refine State.calExpire_mem _ _ ?_)
    | (with_reducible refine State.powerLost_mem _ _)
    | (with_reducible refine State.railsDown_mem _)
    | (with_reducible refine State.powerDown_mem _ ?_)
    | (with_reducible refine State.railFault_mem _ _ ?_)
    | (with_reducible refine foldl_mem _ _ _ (fun a x h => ?_) ?_)
    | (simp only [])
    | (simp (disch := exact memOk_blind.mono rfl) [*]; done)
    | (simp (disch := exact memOk_blind.mono rfl))

theorem State.startDram_mem (s : State) (r : StartReport) (h : see State.memOk s = true) : see State.memOk (State.startDram s r) = true := by
  unfold State.startDram
  repeat' first
    | (with_reducible exact h)
    | split
    | (with_reducible refine State.memStore_mem _ _ _ ?_)
    | (with_reducible refine State.memLose_mem _)
    | (with_reducible refine State.dmaWrite_mem _ _ _ _ ?_)
    | (with_reducible refine State.dmaPut_mem _ _ _ _ ?_)
    | (with_reducible refine State.dmaAdvance_mem _ _ _ _ ?_)
    | (with_reducible refine State.dmaProgress_mem _ _ ?_)
    | (with_reducible refine State.dmaCheck_mem _ _ ?_)
    | (with_reducible refine State.czWrite_mem _ _ _ _ _ _ _ ?_)
    | (with_reducible refine State.czTake_mem _ _ _ _ ?_)
    | (with_reducible refine State.czFlush_mem _ _ _ ?_)
    | (with_reducible refine State.dmaStart_mem _ _ _ ?_)
    | (with_reducible refine State.interleavedLost_mem _)
    | (with_reducible refine State.channelFault_mem _ _ ?_)
    | (with_reducible refine State.dramPreop_mem _ ?_)
    | (with_reducible refine State.dramError_mem _ _ ?_)
    | (with_reducible refine State.dramErrors_mem _ _ ?_)
    | (with_reducible refine State.dramMeet_mem _ _ _ ?_)
    | (with_reducible refine State.dmaMeet_mem _ _ _ ?_)
    | (with_reducible refine State.replayRead_mem _ _ _ _ ?_)
    | (with_reducible refine State.takeOver_mem _ _ _ _ ?_)
    | (with_reducible refine State.startRotation_mem _ _ _ ?_)
    | (with_reducible refine State.lend_mem _ _ _ ?_)
    | (with_reducible refine State.calForce_mem _ _ ?_)
    | (with_reducible refine State.calExpire_mem _ _ ?_)
    | (with_reducible refine State.powerLost_mem _ _)
    | (with_reducible refine State.railsDown_mem _)
    | (with_reducible refine State.powerDown_mem _ ?_)
    | (with_reducible refine State.railFault_mem _ _ ?_)
    | (with_reducible refine State.islandUp_mem _ _ ?_)
    | (with_reducible refine foldl_mem _ _ _ (fun a x h => ?_) ?_)
    | (simp only [])
    | (simp (disch := exact memOk_blind.mono rfl) [*]; done)
    | (simp (disch := exact memOk_blind.mono rfl))

theorem State.preopEntry_mem (s : State) (h : see State.memOk s = true) : see State.memOk (State.preopEntry s) = true := by
  unfold State.preopEntry
  repeat' first
    | (with_reducible exact h)
    | split
    | (with_reducible refine State.memStore_mem _ _ _ ?_)
    | (with_reducible refine State.memLose_mem _)
    | (with_reducible refine State.dmaWrite_mem _ _ _ _ ?_)
    | (with_reducible refine State.dmaPut_mem _ _ _ _ ?_)
    | (with_reducible refine State.dmaAdvance_mem _ _ _ _ ?_)
    | (with_reducible refine State.dmaProgress_mem _ _ ?_)
    | (with_reducible refine State.dmaCheck_mem _ _ ?_)
    | (with_reducible refine State.czWrite_mem _ _ _ _ _ _ _ ?_)
    | (with_reducible refine State.czTake_mem _ _ _ _ ?_)
    | (with_reducible refine State.czFlush_mem _ _ _ ?_)
    | (with_reducible refine State.dmaStart_mem _ _ _ ?_)
    | (with_reducible refine State.interleavedLost_mem _)
    | (with_reducible refine State.channelFault_mem _ _ ?_)
    | (with_reducible refine State.dramPreop_mem _ ?_)
    | (with_reducible refine State.dramError_mem _ _ ?_)
    | (with_reducible refine State.dramErrors_mem _ _ ?_)
    | (with_reducible refine State.dramMeet_mem _ _ _ ?_)
    | (with_reducible refine State.dmaMeet_mem _ _ _ ?_)
    | (with_reducible refine State.replayRead_mem _ _ _ _ ?_)
    | (with_reducible refine State.takeOver_mem _ _ _ _ ?_)
    | (with_reducible refine State.startRotation_mem _ _ _ ?_)
    | (with_reducible refine State.lend_mem _ _ _ ?_)
    | (with_reducible refine State.calForce_mem _ _ ?_)
    | (with_reducible refine State.calExpire_mem _ _ ?_)
    | (with_reducible refine State.powerLost_mem _ _)
    | (with_reducible refine State.railsDown_mem _)
    | (with_reducible refine State.powerDown_mem _ ?_)
    | (with_reducible refine State.railFault_mem _ _ ?_)
    | (with_reducible refine State.islandUp_mem _ _ ?_)
    | (with_reducible refine State.startDram_mem _ _ ?_)
    | (with_reducible refine foldl_mem _ _ _ (fun a x h => ?_) ?_)
    | (simp only [])
    | (simp (disch := exact memOk_blind.mono rfl) [*]; done)
    | (simp (disch := exact memOk_blind.mono rfl))

theorem State.enterPreop_mem (s : State) (h : see State.memOk s = true) : see State.memOk (State.enterPreop s) = true := by
  unfold State.enterPreop
  repeat' first
    | (with_reducible exact h)
    | split
    | (with_reducible refine State.memStore_mem _ _ _ ?_)
    | (with_reducible refine State.memLose_mem _)
    | (with_reducible refine State.dmaWrite_mem _ _ _ _ ?_)
    | (with_reducible refine State.dmaPut_mem _ _ _ _ ?_)
    | (with_reducible refine State.dmaAdvance_mem _ _ _ _ ?_)
    | (with_reducible refine State.dmaProgress_mem _ _ ?_)
    | (with_reducible refine State.dmaCheck_mem _ _ ?_)
    | (with_reducible refine State.czWrite_mem _ _ _ _ _ _ _ ?_)
    | (with_reducible refine State.czTake_mem _ _ _ _ ?_)
    | (with_reducible refine State.czFlush_mem _ _ _ ?_)
    | (with_reducible refine State.dmaStart_mem _ _ _ ?_)
    | (with_reducible refine State.interleavedLost_mem _)
    | (with_reducible refine State.channelFault_mem _ _ ?_)
    | (with_reducible refine State.dramPreop_mem _ ?_)
    | (with_reducible refine State.dramError_mem _ _ ?_)
    | (with_reducible refine State.dramErrors_mem _ _ ?_)
    | (with_reducible refine State.dramMeet_mem _ _ _ ?_)
    | (with_reducible refine State.dmaMeet_mem _ _ _ ?_)
    | (with_reducible refine State.replayRead_mem _ _ _ _ ?_)
    | (with_reducible refine State.takeOver_mem _ _ _ _ ?_)
    | (with_reducible refine State.startRotation_mem _ _ _ ?_)
    | (with_reducible refine State.lend_mem _ _ _ ?_)
    | (with_reducible refine State.calForce_mem _ _ ?_)
    | (with_reducible refine State.calExpire_mem _ _ ?_)
    | (with_reducible refine State.powerLost_mem _ _)
    | (with_reducible refine State.railsDown_mem _)
    | (with_reducible refine State.powerDown_mem _ ?_)
    | (with_reducible refine State.railFault_mem _ _ ?_)
    | (with_reducible refine State.islandUp_mem _ _ ?_)
    | (with_reducible refine State.startDram_mem _ _ ?_)
    | (with_reducible refine State.preopEntry_mem _ ?_)
    | (with_reducible refine foldl_mem _ _ _ (fun a x h => ?_) ?_)
    | (simp only [])
    | (simp (disch := exact memOk_blind.mono rfl) [*]; done)
    | (simp (disch := exact memOk_blind.mono rfl))

theorem State.bootPreop_mem (s : State) (h : see State.memOk s = true) : see State.memOk (State.bootPreop s) = true := by
  unfold State.bootPreop
  repeat' first
    | (with_reducible exact h)
    | split
    | (with_reducible refine State.memStore_mem _ _ _ ?_)
    | (with_reducible refine State.memLose_mem _)
    | (with_reducible refine State.dmaWrite_mem _ _ _ _ ?_)
    | (with_reducible refine State.dmaPut_mem _ _ _ _ ?_)
    | (with_reducible refine State.dmaAdvance_mem _ _ _ _ ?_)
    | (with_reducible refine State.dmaProgress_mem _ _ ?_)
    | (with_reducible refine State.dmaCheck_mem _ _ ?_)
    | (with_reducible refine State.czWrite_mem _ _ _ _ _ _ _ ?_)
    | (with_reducible refine State.czTake_mem _ _ _ _ ?_)
    | (with_reducible refine State.czFlush_mem _ _ _ ?_)
    | (with_reducible refine State.dmaStart_mem _ _ _ ?_)
    | (with_reducible refine State.interleavedLost_mem _)
    | (with_reducible refine State.channelFault_mem _ _ ?_)
    | (with_reducible refine State.dramPreop_mem _ ?_)
    | (with_reducible refine State.dramError_mem _ _ ?_)
    | (with_reducible refine State.dramErrors_mem _ _ ?_)
    | (with_reducible refine State.dramMeet_mem _ _ _ ?_)
    | (with_reducible refine State.dmaMeet_mem _ _ _ ?_)
    | (with_reducible refine State.replayRead_mem _ _ _ _ ?_)
    | (with_reducible refine State.takeOver_mem _ _ _ _ ?_)
    | (with_reducible refine State.startRotation_mem _ _ _ ?_)
    | (with_reducible refine State.lend_mem _ _ _ ?_)
    | (with_reducible refine State.calForce_mem _ _ ?_)
    | (with_reducible refine State.calExpire_mem _ _ ?_)
    | (with_reducible refine State.powerLost_mem _ _)
    | (with_reducible refine State.railsDown_mem _)
    | (with_reducible refine State.powerDown_mem _ ?_)
    | (with_reducible refine State.railFault_mem _ _ ?_)
    | (with_reducible refine State.islandUp_mem _ _ ?_)
    | (with_reducible refine State.startDram_mem _ _ ?_)
    | (with_reducible refine State.preopEntry_mem _ ?_)
    | (with_reducible refine State.enterPreop_mem _ ?_)
    | (with_reducible refine foldl_mem _ _ _ (fun a x h => ?_) ?_)
    | (simp only [])
    | (simp (disch := exact memOk_blind.mono rfl) [*]; done)
    | (simp (disch := exact memOk_blind.mono rfl))

theorem State.startPreop_mem (s : State) (h : see State.memOk s = true) : see State.memOk (State.startPreop s) = true := by
  unfold State.startPreop
  repeat' first
    | (with_reducible exact h)
    | split
    | (with_reducible refine State.memStore_mem _ _ _ ?_)
    | (with_reducible refine State.memLose_mem _)
    | (with_reducible refine State.dmaWrite_mem _ _ _ _ ?_)
    | (with_reducible refine State.dmaPut_mem _ _ _ _ ?_)
    | (with_reducible refine State.dmaAdvance_mem _ _ _ _ ?_)
    | (with_reducible refine State.dmaProgress_mem _ _ ?_)
    | (with_reducible refine State.dmaCheck_mem _ _ ?_)
    | (with_reducible refine State.czWrite_mem _ _ _ _ _ _ _ ?_)
    | (with_reducible refine State.czTake_mem _ _ _ _ ?_)
    | (with_reducible refine State.czFlush_mem _ _ _ ?_)
    | (with_reducible refine State.dmaStart_mem _ _ _ ?_)
    | (with_reducible refine State.interleavedLost_mem _)
    | (with_reducible refine State.channelFault_mem _ _ ?_)
    | (with_reducible refine State.dramPreop_mem _ ?_)
    | (with_reducible refine State.dramError_mem _ _ ?_)
    | (with_reducible refine State.dramErrors_mem _ _ ?_)
    | (with_reducible refine State.dramMeet_mem _ _ _ ?_)
    | (with_reducible refine State.dmaMeet_mem _ _ _ ?_)
    | (with_reducible refine State.replayRead_mem _ _ _ _ ?_)
    | (with_reducible refine State.takeOver_mem _ _ _ _ ?_)
    | (with_reducible refine State.startRotation_mem _ _ _ ?_)
    | (with_reducible refine State.lend_mem _ _ _ ?_)
    | (with_reducible refine State.calForce_mem _ _ ?_)
    | (with_reducible refine State.calExpire_mem _ _ ?_)
    | (with_reducible refine State.powerLost_mem _ _)
    | (with_reducible refine State.railsDown_mem _)
    | (with_reducible refine State.powerDown_mem _ ?_)
    | (with_reducible refine State.railFault_mem _ _ ?_)
    | (with_reducible refine State.islandUp_mem _ _ ?_)
    | (with_reducible refine State.startDram_mem _ _ ?_)
    | (with_reducible refine State.preopEntry_mem _ ?_)
    | (with_reducible refine State.enterPreop_mem _ ?_)
    | (with_reducible refine State.bootPreop_mem _ ?_)
    | (with_reducible refine foldl_mem _ _ _ (fun a x h => ?_) ?_)
    | (simp only [])
    | (simp (disch := exact memOk_blind.mono rfl) [*]; done)
    | (simp (disch := exact memOk_blind.mono rfl))

theorem execDmaMoverGrant_mem (t : Nat) (toHost : Bool) (victim : Option DmaProgress) (s : State) (h : see State.memOk s = true) (u : State) (hu : execDmaMoverGrant t toHost victim s = .next u) : see State.memOk u = true := by
  have h' : see State.memOk (s.at t) = true := h
  clear h
  unfold execDmaMoverGrant at hu
  (try simp only [] at hu)
  generalize State.at s t = s at *
  have h := h'
  (repeat' split at hu) <;> (have e := Host.Outcome.next.inj hu; subst e) <;> repeat' first
    | (with_reducible exact h)
    | split
    | (with_reducible refine State.memStore_mem _ _ _ ?_)
    | (with_reducible refine State.memLose_mem _)
    | (with_reducible refine State.dmaWrite_mem _ _ _ _ ?_)
    | (with_reducible refine State.dmaPut_mem _ _ _ _ ?_)
    | (with_reducible refine State.dmaAdvance_mem _ _ _ _ ?_)
    | (with_reducible refine State.dmaProgress_mem _ _ ?_)
    | (with_reducible refine State.dmaCheck_mem _ _ ?_)
    | (with_reducible refine State.czWrite_mem _ _ _ _ _ _ _ ?_)
    | (with_reducible refine State.czTake_mem _ _ _ _ ?_)
    | (with_reducible refine State.czFlush_mem _ _ _ ?_)
    | (with_reducible refine State.dmaStart_mem _ _ _ ?_)
    | (with_reducible refine State.interleavedLost_mem _)
    | (with_reducible refine State.channelFault_mem _ _ ?_)
    | (with_reducible refine State.dramPreop_mem _ ?_)
    | (with_reducible refine State.dramError_mem _ _ ?_)
    | (with_reducible refine State.dramErrors_mem _ _ ?_)
    | (with_reducible refine State.dramMeet_mem _ _ _ ?_)
    | (with_reducible refine State.dmaMeet_mem _ _ _ ?_)
    | (with_reducible refine State.replayRead_mem _ _ _ _ ?_)
    | (with_reducible refine State.takeOver_mem _ _ _ _ ?_)
    | (with_reducible refine State.startRotation_mem _ _ _ ?_)
    | (with_reducible refine State.lend_mem _ _ _ ?_)
    | (with_reducible refine State.calForce_mem _ _ ?_)
    | (with_reducible refine State.calExpire_mem _ _ ?_)
    | (with_reducible refine State.powerLost_mem _ _)
    | (with_reducible refine State.railsDown_mem _)
    | (with_reducible refine State.powerDown_mem _ ?_)
    | (with_reducible refine State.railFault_mem _ _ ?_)
    | (with_reducible refine State.islandUp_mem _ _ ?_)
    | (with_reducible refine State.startDram_mem _ _ ?_)
    | (with_reducible refine State.preopEntry_mem _ ?_)
    | (with_reducible refine State.enterPreop_mem _ ?_)
    | (with_reducible refine State.bootPreop_mem _ ?_)
    | (with_reducible refine State.startPreop_mem _ ?_)
    | (with_reducible refine foldl_mem _ _ _ (fun a x h => ?_) ?_)
    | (simp only [])
    | (simp (disch := exact memOk_blind.mono rfl) [*]; done)
    | (simp (disch := exact memOk_blind.mono rfl))

theorem execDmaHalf_mem (t : Nat) (channel : Fin 32) (data : List Byte) (s : State) (h : see State.memOk s = true) (u : State) (hu : execDmaHalf t channel data s = .next u) : see State.memOk u = true := by
  have h' : see State.memOk (s.at t) = true := h
  clear h
  unfold execDmaHalf at hu
  (try simp only [] at hu)
  generalize State.at s t = s at *
  have h := h'
  (repeat' split at hu) <;> (have e := Host.Outcome.next.inj hu; subst e) <;> repeat' first
    | (with_reducible exact h)
    | split
    | (with_reducible refine State.memStore_mem _ _ _ ?_)
    | (with_reducible refine State.memLose_mem _)
    | (with_reducible refine State.dmaWrite_mem _ _ _ _ ?_)
    | (with_reducible refine State.dmaPut_mem _ _ _ _ ?_)
    | (with_reducible refine State.dmaAdvance_mem _ _ _ _ ?_)
    | (with_reducible refine State.dmaProgress_mem _ _ ?_)
    | (with_reducible refine State.dmaCheck_mem _ _ ?_)
    | (with_reducible refine State.czWrite_mem _ _ _ _ _ _ _ ?_)
    | (with_reducible refine State.czTake_mem _ _ _ _ ?_)
    | (with_reducible refine State.czFlush_mem _ _ _ ?_)
    | (with_reducible refine State.dmaStart_mem _ _ _ ?_)
    | (with_reducible refine State.interleavedLost_mem _)
    | (with_reducible refine State.channelFault_mem _ _ ?_)
    | (with_reducible refine State.dramPreop_mem _ ?_)
    | (with_reducible refine State.dramError_mem _ _ ?_)
    | (with_reducible refine State.dramErrors_mem _ _ ?_)
    | (with_reducible refine State.dramMeet_mem _ _ _ ?_)
    | (with_reducible refine State.dmaMeet_mem _ _ _ ?_)
    | (with_reducible refine State.replayRead_mem _ _ _ _ ?_)
    | (with_reducible refine State.takeOver_mem _ _ _ _ ?_)
    | (with_reducible refine State.startRotation_mem _ _ _ ?_)
    | (with_reducible refine State.lend_mem _ _ _ ?_)
    | (with_reducible refine State.calForce_mem _ _ ?_)
    | (with_reducible refine State.calExpire_mem _ _ ?_)
    | (with_reducible refine State.powerLost_mem _ _)
    | (with_reducible refine State.railsDown_mem _)
    | (with_reducible refine State.powerDown_mem _ ?_)
    | (with_reducible refine State.railFault_mem _ _ ?_)
    | (with_reducible refine State.islandUp_mem _ _ ?_)
    | (with_reducible refine State.startDram_mem _ _ ?_)
    | (with_reducible refine State.preopEntry_mem _ ?_)
    | (with_reducible refine State.enterPreop_mem _ ?_)
    | (with_reducible refine State.bootPreop_mem _ ?_)
    | (with_reducible refine State.startPreop_mem _ ?_)
    | (with_reducible refine foldl_mem _ _ _ (fun a x h => ?_) ?_)
    | (simp only [])
    | (simp (disch := exact memOk_blind.mono rfl) [*]; done)
    | (simp (disch := exact memOk_blind.mono rfl))

theorem execDmaJobDone_mem (t : Nat) (channel : Fin 32) (data : List Byte) (sourceError : Option (Nat × ReadFault)) (s : State) (h : see State.memOk s = true) (u : State) (hu : execDmaJobDone t channel data sourceError s = .next u) : see State.memOk u = true := by
  have h' : see State.memOk (s.at t) = true := h
  clear h
  unfold execDmaJobDone at hu
  (try simp only [] at hu)
  generalize State.at s t = s at *
  have h := h'
  (repeat' split at hu) <;> (have e := Host.Outcome.next.inj hu; subst e) <;> repeat' first
    | (with_reducible exact h)
    | split
    | (with_reducible refine State.memStore_mem _ _ _ ?_)
    | (with_reducible refine State.memLose_mem _)
    | (with_reducible refine State.dmaWrite_mem _ _ _ _ ?_)
    | (with_reducible refine State.dmaPut_mem _ _ _ _ ?_)
    | (with_reducible refine State.dmaAdvance_mem _ _ _ _ ?_)
    | (with_reducible refine State.dmaProgress_mem _ _ ?_)
    | (with_reducible refine State.dmaCheck_mem _ _ ?_)
    | (with_reducible refine State.czWrite_mem _ _ _ _ _ _ _ ?_)
    | (with_reducible refine State.czTake_mem _ _ _ _ ?_)
    | (with_reducible refine State.czFlush_mem _ _ _ ?_)
    | (with_reducible refine State.dmaStart_mem _ _ _ ?_)
    | (with_reducible refine State.interleavedLost_mem _)
    | (with_reducible refine State.channelFault_mem _ _ ?_)
    | (with_reducible refine State.dramPreop_mem _ ?_)
    | (with_reducible refine State.dramError_mem _ _ ?_)
    | (with_reducible refine State.dramErrors_mem _ _ ?_)
    | (with_reducible refine State.dramMeet_mem _ _ _ ?_)
    | (with_reducible refine State.dmaMeet_mem _ _ _ ?_)
    | (with_reducible refine State.replayRead_mem _ _ _ _ ?_)
    | (with_reducible refine State.takeOver_mem _ _ _ _ ?_)
    | (with_reducible refine State.startRotation_mem _ _ _ ?_)
    | (with_reducible refine State.lend_mem _ _ _ ?_)
    | (with_reducible refine State.calForce_mem _ _ ?_)
    | (with_reducible refine State.calExpire_mem _ _ ?_)
    | (with_reducible refine State.powerLost_mem _ _)
    | (with_reducible refine State.railsDown_mem _)
    | (with_reducible refine State.powerDown_mem _ ?_)
    | (with_reducible refine State.railFault_mem _ _ ?_)
    | (with_reducible refine State.islandUp_mem _ _ ?_)
    | (with_reducible refine State.startDram_mem _ _ ?_)
    | (with_reducible refine State.preopEntry_mem _ ?_)
    | (with_reducible refine State.enterPreop_mem _ ?_)
    | (with_reducible refine State.bootPreop_mem _ ?_)
    | (with_reducible refine State.startPreop_mem _ ?_)
    | (with_reducible refine foldl_mem _ _ _ (fun a x h => ?_) ?_)
    | (simp only [])
    | (simp (disch := exact memOk_blind.mono rfl) [*]; done)
    | (simp (disch := exact memOk_blind.mono rfl))

theorem execDmaDestError_mem (t : Nat) (channel : Fin 32) (progress : Option DmaProgress) (s : State) (h : see State.memOk s = true) (u : State) (hu : execDmaDestError t channel progress s = .next u) : see State.memOk u = true := by
  have h' : see State.memOk (s.at t) = true := h
  clear h
  unfold execDmaDestError at hu
  (try simp only [] at hu)
  generalize State.at s t = s at *
  have h := h'
  (repeat' split at hu) <;> (have e := Host.Outcome.next.inj hu; subst e) <;> repeat' first
    | (with_reducible exact h)
    | split
    | (with_reducible refine State.memStore_mem _ _ _ ?_)
    | (with_reducible refine State.memLose_mem _)
    | (with_reducible refine State.dmaWrite_mem _ _ _ _ ?_)
    | (with_reducible refine State.dmaPut_mem _ _ _ _ ?_)
    | (with_reducible refine State.dmaAdvance_mem _ _ _ _ ?_)
    | (with_reducible refine State.dmaProgress_mem _ _ ?_)
    | (with_reducible refine State.dmaCheck_mem _ _ ?_)
    | (with_reducible refine State.czWrite_mem _ _ _ _ _ _ _ ?_)
    | (with_reducible refine State.czTake_mem _ _ _ _ ?_)
    | (with_reducible refine State.czFlush_mem _ _ _ ?_)
    | (with_reducible refine State.dmaStart_mem _ _ _ ?_)
    | (with_reducible refine State.interleavedLost_mem _)
    | (with_reducible refine State.channelFault_mem _ _ ?_)
    | (with_reducible refine State.dramPreop_mem _ ?_)
    | (with_reducible refine State.dramError_mem _ _ ?_)
    | (with_reducible refine State.dramErrors_mem _ _ ?_)
    | (with_reducible refine State.dramMeet_mem _ _ _ ?_)
    | (with_reducible refine State.dmaMeet_mem _ _ _ ?_)
    | (with_reducible refine State.replayRead_mem _ _ _ _ ?_)
    | (with_reducible refine State.takeOver_mem _ _ _ _ ?_)
    | (with_reducible refine State.startRotation_mem _ _ _ ?_)
    | (with_reducible refine State.lend_mem _ _ _ ?_)
    | (with_reducible refine State.calForce_mem _ _ ?_)
    | (with_reducible refine State.calExpire_mem _ _ ?_)
    | (with_reducible refine State.powerLost_mem _ _)
    | (with_reducible refine State.railsDown_mem _)
    | (with_reducible refine State.powerDown_mem _ ?_)
    | (with_reducible refine State.railFault_mem _ _ ?_)
    | (with_reducible refine State.islandUp_mem _ _ ?_)
    | (with_reducible refine State.startDram_mem _ _ ?_)
    | (with_reducible refine State.preopEntry_mem _ ?_)
    | (with_reducible refine State.enterPreop_mem _ ?_)
    | (with_reducible refine State.bootPreop_mem _ ?_)
    | (with_reducible refine State.startPreop_mem _ ?_)
    | (with_reducible refine foldl_mem _ _ _ (fun a x h => ?_) ?_)
    | (simp only [])
    | (simp (disch := exact memOk_blind.mono rfl) [*]; done)
    | (simp (disch := exact memOk_blind.mono rfl))

theorem execDmaAbort_mem (t : Nat) (channel : Fin 32) (progress : Option DmaProgress) (s : State) (h : see State.memOk s = true) (u : State) (hu : execDmaAbort t channel progress s = .next u) : see State.memOk u = true := by
  have h' : see State.memOk (s.at t) = true := h
  clear h
  unfold execDmaAbort at hu
  (try simp only [] at hu)
  generalize State.at s t = s at *
  have h := h'
  (repeat' split at hu) <;> (have e := Host.Outcome.next.inj hu; subst e) <;> repeat' first
    | (with_reducible exact h)
    | split
    | (with_reducible refine State.memStore_mem _ _ _ ?_)
    | (with_reducible refine State.memLose_mem _)
    | (with_reducible refine State.dmaWrite_mem _ _ _ _ ?_)
    | (with_reducible refine State.dmaPut_mem _ _ _ _ ?_)
    | (with_reducible refine State.dmaAdvance_mem _ _ _ _ ?_)
    | (with_reducible refine State.dmaProgress_mem _ _ ?_)
    | (with_reducible refine State.dmaCheck_mem _ _ ?_)
    | (with_reducible refine State.czWrite_mem _ _ _ _ _ _ _ ?_)
    | (with_reducible refine State.czTake_mem _ _ _ _ ?_)
    | (with_reducible refine State.czFlush_mem _ _ _ ?_)
    | (with_reducible refine State.dmaStart_mem _ _ _ ?_)
    | (with_reducible refine State.interleavedLost_mem _)
    | (with_reducible refine State.channelFault_mem _ _ ?_)
    | (with_reducible refine State.dramPreop_mem _ ?_)
    | (with_reducible refine State.dramError_mem _ _ ?_)
    | (with_reducible refine State.dramErrors_mem _ _ ?_)
    | (with_reducible refine State.dramMeet_mem _ _ _ ?_)
    | (with_reducible refine State.dmaMeet_mem _ _ _ ?_)
    | (with_reducible refine State.replayRead_mem _ _ _ _ ?_)
    | (with_reducible refine State.takeOver_mem _ _ _ _ ?_)
    | (with_reducible refine State.startRotation_mem _ _ _ ?_)
    | (with_reducible refine State.lend_mem _ _ _ ?_)
    | (with_reducible refine State.calForce_mem _ _ ?_)
    | (with_reducible refine State.calExpire_mem _ _ ?_)
    | (with_reducible refine State.powerLost_mem _ _)
    | (with_reducible refine State.railsDown_mem _)
    | (with_reducible refine State.powerDown_mem _ ?_)
    | (with_reducible refine State.railFault_mem _ _ ?_)
    | (with_reducible refine State.islandUp_mem _ _ ?_)
    | (with_reducible refine State.startDram_mem _ _ ?_)
    | (with_reducible refine State.preopEntry_mem _ ?_)
    | (with_reducible refine State.enterPreop_mem _ ?_)
    | (with_reducible refine State.bootPreop_mem _ ?_)
    | (with_reducible refine State.startPreop_mem _ ?_)
    | (with_reducible refine foldl_mem _ _ _ (fun a x h => ?_) ?_)
    | (simp only [])
    | (simp (disch := exact memOk_blind.mono rfl) [*]; done)
    | (simp (disch := exact memOk_blind.mono rfl))

theorem execCxlLinkDown_mem (t : Nat) (progress : List DmaProgress) (s : State) (h : see State.memOk s = true) (u : State) (hu : execCxlLinkDown t progress s = .next u) : see State.memOk u = true := by
  have h0 : see State.memOk (s.at t) = true := h
  unfold execCxlLinkDown at hu
  simp only [] at hu
  have hp : see State.memOk (progress.foldl (fun s p => s.dmaProgress p) (s.at t)) = true :=
    foldl_mem _ _ _ (fun a x h => State.dmaProgress_mem _ _ h) h0
  generalize progress.foldl (fun s p => s.dmaProgress p) (s.at t) = v at *
  generalize State.at s t = w at *
  (repeat' split at hu) <;> have hu := Host.Outcome.next.inj hu
  · exact hu ▸ h0
  · exact hu ▸ h0
  · rw [← hu]
    simp (disch := exact memOk_blind.mono rfl) [hp]

theorem execCzBlockDone_mem (t : Nat) (channel : Fin 32) (engine : Fin 4) (data : List Byte) (sourceError : Option ReadFault) (verifyFail : Bool) (s : State) (h : see State.memOk s = true) (u : State) (hu : execCzBlockDone t channel engine data sourceError verifyFail s = .next u) : see State.memOk u = true := by
  have h' : see State.memOk (s.at t) = true := h
  clear h
  unfold execCzBlockDone at hu
  (try simp only [] at hu)
  generalize State.at s t = s at *
  have h := h'
  (repeat' split at hu) <;> (have e := Host.Outcome.next.inj hu; subst e) <;> repeat' first
    | (with_reducible exact h)
    | split
    | (with_reducible refine State.memStore_mem _ _ _ ?_)
    | (with_reducible refine State.memLose_mem _)
    | (with_reducible refine State.dmaWrite_mem _ _ _ _ ?_)
    | (with_reducible refine State.dmaPut_mem _ _ _ _ ?_)
    | (with_reducible refine State.dmaAdvance_mem _ _ _ _ ?_)
    | (with_reducible refine State.dmaProgress_mem _ _ ?_)
    | (with_reducible refine State.dmaCheck_mem _ _ ?_)
    | (with_reducible refine State.czWrite_mem _ _ _ _ _ _ _ ?_)
    | (with_reducible refine State.czTake_mem _ _ _ _ ?_)
    | (with_reducible refine State.czFlush_mem _ _ _ ?_)
    | (with_reducible refine State.dmaStart_mem _ _ _ ?_)
    | (with_reducible refine State.interleavedLost_mem _)
    | (with_reducible refine State.channelFault_mem _ _ ?_)
    | (with_reducible refine State.dramPreop_mem _ ?_)
    | (with_reducible refine State.dramError_mem _ _ ?_)
    | (with_reducible refine State.dramErrors_mem _ _ ?_)
    | (with_reducible refine State.dramMeet_mem _ _ _ ?_)
    | (with_reducible refine State.dmaMeet_mem _ _ _ ?_)
    | (with_reducible refine State.replayRead_mem _ _ _ _ ?_)
    | (with_reducible refine State.takeOver_mem _ _ _ _ ?_)
    | (with_reducible refine State.startRotation_mem _ _ _ ?_)
    | (with_reducible refine State.lend_mem _ _ _ ?_)
    | (with_reducible refine State.calForce_mem _ _ ?_)
    | (with_reducible refine State.calExpire_mem _ _ ?_)
    | (with_reducible refine State.powerLost_mem _ _)
    | (with_reducible refine State.railsDown_mem _)
    | (with_reducible refine State.powerDown_mem _ ?_)
    | (with_reducible refine State.railFault_mem _ _ ?_)
    | (with_reducible refine State.islandUp_mem _ _ ?_)
    | (with_reducible refine State.startDram_mem _ _ ?_)
    | (with_reducible refine State.preopEntry_mem _ ?_)
    | (with_reducible refine State.enterPreop_mem _ ?_)
    | (with_reducible refine State.bootPreop_mem _ ?_)
    | (with_reducible refine State.startPreop_mem _ ?_)
    | (with_reducible refine foldl_mem _ _ _ (fun a x h => ?_) ?_)
    | (simp only [])
    | (simp (disch := exact memOk_blind.mono rfl) [*]; done)
    | (simp (disch := exact memOk_blind.mono rfl))

theorem execDrChannelFault_mem (t : Nat) (loss : ChannelLoss) (s : State) (h : see State.memOk s = true) (u : State) (hu : execDrChannelFault t loss s = .next u) : see State.memOk u = true := by
  have h' : see State.memOk (s.at t) = true := h
  clear h
  unfold execDrChannelFault at hu
  (try simp only [] at hu)
  generalize State.at s t = s at *
  have h := h'
  (repeat' split at hu) <;> (have e := Host.Outcome.next.inj hu; subst e) <;> repeat' first
    | (with_reducible exact h)
    | split
    | (with_reducible refine State.memStore_mem _ _ _ ?_)
    | (with_reducible refine State.memLose_mem _)
    | (with_reducible refine State.dmaWrite_mem _ _ _ _ ?_)
    | (with_reducible refine State.dmaPut_mem _ _ _ _ ?_)
    | (with_reducible refine State.dmaAdvance_mem _ _ _ _ ?_)
    | (with_reducible refine State.dmaProgress_mem _ _ ?_)
    | (with_reducible refine State.dmaCheck_mem _ _ ?_)
    | (with_reducible refine State.czWrite_mem _ _ _ _ _ _ _ ?_)
    | (with_reducible refine State.czTake_mem _ _ _ _ ?_)
    | (with_reducible refine State.czFlush_mem _ _ _ ?_)
    | (with_reducible refine State.dmaStart_mem _ _ _ ?_)
    | (with_reducible refine State.interleavedLost_mem _)
    | (with_reducible refine State.channelFault_mem _ _ ?_)
    | (with_reducible refine State.dramPreop_mem _ ?_)
    | (with_reducible refine State.dramError_mem _ _ ?_)
    | (with_reducible refine State.dramErrors_mem _ _ ?_)
    | (with_reducible refine State.dramMeet_mem _ _ _ ?_)
    | (with_reducible refine State.dmaMeet_mem _ _ _ ?_)
    | (with_reducible refine State.replayRead_mem _ _ _ _ ?_)
    | (with_reducible refine State.takeOver_mem _ _ _ _ ?_)
    | (with_reducible refine State.startRotation_mem _ _ _ ?_)
    | (with_reducible refine State.lend_mem _ _ _ ?_)
    | (with_reducible refine State.calForce_mem _ _ ?_)
    | (with_reducible refine State.calExpire_mem _ _ ?_)
    | (with_reducible refine State.powerLost_mem _ _)
    | (with_reducible refine State.railsDown_mem _)
    | (with_reducible refine State.powerDown_mem _ ?_)
    | (with_reducible refine State.railFault_mem _ _ ?_)
    | (with_reducible refine State.islandUp_mem _ _ ?_)
    | (with_reducible refine State.startDram_mem _ _ ?_)
    | (with_reducible refine State.preopEntry_mem _ ?_)
    | (with_reducible refine State.enterPreop_mem _ ?_)
    | (with_reducible refine State.bootPreop_mem _ ?_)
    | (with_reducible refine State.startPreop_mem _ ?_)
    | (with_reducible refine foldl_mem _ _ _ (fun a x h => ?_) ?_)
    | (simp only [])
    | (simp (disch := exact memOk_blind.mono rfl) [*]; done)
    | (simp (disch := exact memOk_blind.mono rfl))

theorem execDramScrubPass_mem (t : Nat) (late : Bool) (errors : List DramError) (s : State) (h : see State.memOk s = true) (u : State) (hu : execDramScrubPass t late errors s = .next u) : see State.memOk u = true := by
  have h' : see State.memOk (s.at t) = true := h
  clear h
  unfold execDramScrubPass at hu
  (try simp only [] at hu)
  generalize State.at s t = s at *
  have h := h'
  (repeat' split at hu) <;> (have e := Host.Outcome.next.inj hu; subst e) <;> repeat' first
    | (with_reducible exact h)
    | split
    | (with_reducible refine State.memStore_mem _ _ _ ?_)
    | (with_reducible refine State.memLose_mem _)
    | (with_reducible refine State.dmaWrite_mem _ _ _ _ ?_)
    | (with_reducible refine State.dmaPut_mem _ _ _ _ ?_)
    | (with_reducible refine State.dmaAdvance_mem _ _ _ _ ?_)
    | (with_reducible refine State.dmaProgress_mem _ _ ?_)
    | (with_reducible refine State.dmaCheck_mem _ _ ?_)
    | (with_reducible refine State.czWrite_mem _ _ _ _ _ _ _ ?_)
    | (with_reducible refine State.czTake_mem _ _ _ _ ?_)
    | (with_reducible refine State.czFlush_mem _ _ _ ?_)
    | (with_reducible refine State.dmaStart_mem _ _ _ ?_)
    | (with_reducible refine State.interleavedLost_mem _)
    | (with_reducible refine State.channelFault_mem _ _ ?_)
    | (with_reducible refine State.dramPreop_mem _ ?_)
    | (with_reducible refine State.dramError_mem _ _ ?_)
    | (with_reducible refine State.dramErrors_mem _ _ ?_)
    | (with_reducible refine State.dramMeet_mem _ _ _ ?_)
    | (with_reducible refine State.dmaMeet_mem _ _ _ ?_)
    | (with_reducible refine State.replayRead_mem _ _ _ _ ?_)
    | (with_reducible refine State.takeOver_mem _ _ _ _ ?_)
    | (with_reducible refine State.startRotation_mem _ _ _ ?_)
    | (with_reducible refine State.lend_mem _ _ _ ?_)
    | (with_reducible refine State.calForce_mem _ _ ?_)
    | (with_reducible refine State.calExpire_mem _ _ ?_)
    | (with_reducible refine State.powerLost_mem _ _)
    | (with_reducible refine State.railsDown_mem _)
    | (with_reducible refine State.powerDown_mem _ ?_)
    | (with_reducible refine State.railFault_mem _ _ ?_)
    | (with_reducible refine State.islandUp_mem _ _ ?_)
    | (with_reducible refine State.startDram_mem _ _ ?_)
    | (with_reducible refine State.preopEntry_mem _ ?_)
    | (with_reducible refine State.enterPreop_mem _ ?_)
    | (with_reducible refine State.bootPreop_mem _ ?_)
    | (with_reducible refine State.startPreop_mem _ ?_)
    | (with_reducible refine foldl_mem _ _ _ (fun a x h => ?_) ?_)
    | (simp only [])
    | (simp (disch := exact memOk_blind.mono rfl) [*]; done)
    | (simp (disch := exact memOk_blind.mono rfl))

theorem execDramRequestTimeout_mem (t : Nat) (error : DramError) (s : State) (h : see State.memOk s = true) (u : State) (hu : execDramRequestTimeout t error s = .next u) : see State.memOk u = true := by
  have h' : see State.memOk (s.at t) = true := h
  clear h
  unfold execDramRequestTimeout at hu
  (try simp only [] at hu)
  generalize State.at s t = s at *
  have h := h'
  (repeat' split at hu) <;> (have e := Host.Outcome.next.inj hu; subst e) <;> repeat' first
    | (with_reducible exact h)
    | split
    | (with_reducible refine State.memStore_mem _ _ _ ?_)
    | (with_reducible refine State.memLose_mem _)
    | (with_reducible refine State.dmaWrite_mem _ _ _ _ ?_)
    | (with_reducible refine State.dmaPut_mem _ _ _ _ ?_)
    | (with_reducible refine State.dmaAdvance_mem _ _ _ _ ?_)
    | (with_reducible refine State.dmaProgress_mem _ _ ?_)
    | (with_reducible refine State.dmaCheck_mem _ _ ?_)
    | (with_reducible refine State.czWrite_mem _ _ _ _ _ _ _ ?_)
    | (with_reducible refine State.czTake_mem _ _ _ _ ?_)
    | (with_reducible refine State.czFlush_mem _ _ _ ?_)
    | (with_reducible refine State.dmaStart_mem _ _ _ ?_)
    | (with_reducible refine State.interleavedLost_mem _)
    | (with_reducible refine State.channelFault_mem _ _ ?_)
    | (with_reducible refine State.dramPreop_mem _ ?_)
    | (with_reducible refine State.dramError_mem _ _ ?_)
    | (with_reducible refine State.dramErrors_mem _ _ ?_)
    | (with_reducible refine State.dramMeet_mem _ _ _ ?_)
    | (with_reducible refine State.dmaMeet_mem _ _ _ ?_)
    | (with_reducible refine State.replayRead_mem _ _ _ _ ?_)
    | (with_reducible refine State.takeOver_mem _ _ _ _ ?_)
    | (with_reducible refine State.startRotation_mem _ _ _ ?_)
    | (with_reducible refine State.lend_mem _ _ _ ?_)
    | (with_reducible refine State.calForce_mem _ _ ?_)
    | (with_reducible refine State.calExpire_mem _ _ ?_)
    | (with_reducible refine State.powerLost_mem _ _)
    | (with_reducible refine State.railsDown_mem _)
    | (with_reducible refine State.powerDown_mem _ ?_)
    | (with_reducible refine State.railFault_mem _ _ ?_)
    | (with_reducible refine State.islandUp_mem _ _ ?_)
    | (with_reducible refine State.startDram_mem _ _ ?_)
    | (with_reducible refine State.preopEntry_mem _ ?_)
    | (with_reducible refine State.enterPreop_mem _ ?_)
    | (with_reducible refine State.bootPreop_mem _ ?_)
    | (with_reducible refine State.startPreop_mem _ ?_)
    | (with_reducible refine foldl_mem _ _ _ (fun a x h => ?_) ?_)
    | (simp only [])
    | (simp (disch := exact memOk_blind.mono rfl) [*]; done)
    | (simp (disch := exact memOk_blind.mono rfl))

theorem execDramCalibrate_mem (t : Nat) (channel : Fin 8) (drift : Fin 3) (s : State) (h : see State.memOk s = true) (u : State) (hu : execDramCalibrate t channel drift s = .next u) : see State.memOk u = true := by
  have h' : see State.memOk (s.at t) = true := h
  clear h
  unfold execDramCalibrate at hu
  (try simp only [] at hu)
  generalize State.at s t = s at *
  have h := h'
  (repeat' split at hu) <;> (have e := Host.Outcome.next.inj hu; subst e) <;> repeat' first
    | (with_reducible exact h)
    | split
    | (with_reducible refine State.memStore_mem _ _ _ ?_)
    | (with_reducible refine State.memLose_mem _)
    | (with_reducible refine State.dmaWrite_mem _ _ _ _ ?_)
    | (with_reducible refine State.dmaPut_mem _ _ _ _ ?_)
    | (with_reducible refine State.dmaAdvance_mem _ _ _ _ ?_)
    | (with_reducible refine State.dmaProgress_mem _ _ ?_)
    | (with_reducible refine State.dmaCheck_mem _ _ ?_)
    | (with_reducible refine State.czWrite_mem _ _ _ _ _ _ _ ?_)
    | (with_reducible refine State.czTake_mem _ _ _ _ ?_)
    | (with_reducible refine State.czFlush_mem _ _ _ ?_)
    | (with_reducible refine State.dmaStart_mem _ _ _ ?_)
    | (with_reducible refine State.interleavedLost_mem _)
    | (with_reducible refine State.channelFault_mem _ _ ?_)
    | (with_reducible refine State.dramPreop_mem _ ?_)
    | (with_reducible refine State.dramError_mem _ _ ?_)
    | (with_reducible refine State.dramErrors_mem _ _ ?_)
    | (with_reducible refine State.dramMeet_mem _ _ _ ?_)
    | (with_reducible refine State.dmaMeet_mem _ _ _ ?_)
    | (with_reducible refine State.replayRead_mem _ _ _ _ ?_)
    | (with_reducible refine State.takeOver_mem _ _ _ _ ?_)
    | (with_reducible refine State.startRotation_mem _ _ _ ?_)
    | (with_reducible refine State.lend_mem _ _ _ ?_)
    | (with_reducible refine State.calForce_mem _ _ ?_)
    | (with_reducible refine State.calExpire_mem _ _ ?_)
    | (with_reducible refine State.powerLost_mem _ _)
    | (with_reducible refine State.railsDown_mem _)
    | (with_reducible refine State.powerDown_mem _ ?_)
    | (with_reducible refine State.railFault_mem _ _ ?_)
    | (with_reducible refine State.islandUp_mem _ _ ?_)
    | (with_reducible refine State.startDram_mem _ _ ?_)
    | (with_reducible refine State.preopEntry_mem _ ?_)
    | (with_reducible refine State.enterPreop_mem _ ?_)
    | (with_reducible refine State.bootPreop_mem _ ?_)
    | (with_reducible refine State.startPreop_mem _ ?_)
    | (with_reducible refine foldl_mem _ _ _ (fun a x h => ?_) ?_)
    | (simp only [])
    | (simp (disch := exact memOk_blind.mono rfl) [*]; done)
    | (simp (disch := exact memOk_blind.mono rfl))

theorem execStartupStepDone_mem (t : Nat) (report : StartReport) (s : State) (h : see State.memOk s = true) (u : State) (hu : execStartupStepDone t report s = .next u) : see State.memOk u = true := by
  have h' : see State.memOk (s.at t) = true := h
  clear h
  unfold execStartupStepDone at hu
  (try simp only [] at hu)
  generalize State.at s t = s at *
  have h := h'
  (repeat' split at hu) <;> (have e := Host.Outcome.next.inj hu; subst e) <;> repeat' first
    | (with_reducible exact h)
    | split
    | (with_reducible refine State.memStore_mem _ _ _ ?_)
    | (with_reducible refine State.memLose_mem _)
    | (with_reducible refine State.dmaWrite_mem _ _ _ _ ?_)
    | (with_reducible refine State.dmaPut_mem _ _ _ _ ?_)
    | (with_reducible refine State.dmaAdvance_mem _ _ _ _ ?_)
    | (with_reducible refine State.dmaProgress_mem _ _ ?_)
    | (with_reducible refine State.dmaCheck_mem _ _ ?_)
    | (with_reducible refine State.czWrite_mem _ _ _ _ _ _ _ ?_)
    | (with_reducible refine State.czTake_mem _ _ _ _ ?_)
    | (with_reducible refine State.czFlush_mem _ _ _ ?_)
    | (with_reducible refine State.dmaStart_mem _ _ _ ?_)
    | (with_reducible refine State.interleavedLost_mem _)
    | (with_reducible refine State.channelFault_mem _ _ ?_)
    | (with_reducible refine State.dramPreop_mem _ ?_)
    | (with_reducible refine State.dramError_mem _ _ ?_)
    | (with_reducible refine State.dramErrors_mem _ _ ?_)
    | (with_reducible refine State.dramMeet_mem _ _ _ ?_)
    | (with_reducible refine State.dmaMeet_mem _ _ _ ?_)
    | (with_reducible refine State.replayRead_mem _ _ _ _ ?_)
    | (with_reducible refine State.takeOver_mem _ _ _ _ ?_)
    | (with_reducible refine State.startRotation_mem _ _ _ ?_)
    | (with_reducible refine State.lend_mem _ _ _ ?_)
    | (with_reducible refine State.calForce_mem _ _ ?_)
    | (with_reducible refine State.calExpire_mem _ _ ?_)
    | (with_reducible refine State.powerLost_mem _ _)
    | (with_reducible refine State.railsDown_mem _)
    | (with_reducible refine State.powerDown_mem _ ?_)
    | (with_reducible refine State.railFault_mem _ _ ?_)
    | (with_reducible refine State.islandUp_mem _ _ ?_)
    | (with_reducible refine State.startDram_mem _ _ ?_)
    | (with_reducible refine State.preopEntry_mem _ ?_)
    | (with_reducible refine State.enterPreop_mem _ ?_)
    | (with_reducible refine State.bootPreop_mem _ ?_)
    | (with_reducible refine State.startPreop_mem _ ?_)
    | (with_reducible refine foldl_mem _ _ _ (fun a x h => ?_) ?_)
    | (simp only [])
    | (simp (disch := exact memOk_blind.mono rfl) [*]; done)
    | (simp (disch := exact memOk_blind.mono rfl))

theorem execPgFall_mem (t : Nat) (low : List (Fin 10)) (s : State) (h : see State.memOk s = true) (u : State) (hu : execPgFall t low s = .next u) : see State.memOk u = true := by
  have h' : see State.memOk (s.at t) = true := h
  clear h
  unfold execPgFall at hu
  (try simp only [] at hu)
  generalize State.at s t = s at *
  have h := h'
  (repeat' split at hu) <;> (have e := Host.Outcome.next.inj hu; subst e) <;> repeat' first
    | (with_reducible exact h)
    | split
    | (with_reducible refine State.memStore_mem _ _ _ ?_)
    | (with_reducible refine State.memLose_mem _)
    | (with_reducible refine State.dmaWrite_mem _ _ _ _ ?_)
    | (with_reducible refine State.dmaPut_mem _ _ _ _ ?_)
    | (with_reducible refine State.dmaAdvance_mem _ _ _ _ ?_)
    | (with_reducible refine State.dmaProgress_mem _ _ ?_)
    | (with_reducible refine State.dmaCheck_mem _ _ ?_)
    | (with_reducible refine State.czWrite_mem _ _ _ _ _ _ _ ?_)
    | (with_reducible refine State.czTake_mem _ _ _ _ ?_)
    | (with_reducible refine State.czFlush_mem _ _ _ ?_)
    | (with_reducible refine State.dmaStart_mem _ _ _ ?_)
    | (with_reducible refine State.interleavedLost_mem _)
    | (with_reducible refine State.channelFault_mem _ _ ?_)
    | (with_reducible refine State.dramPreop_mem _ ?_)
    | (with_reducible refine State.dramError_mem _ _ ?_)
    | (with_reducible refine State.dramErrors_mem _ _ ?_)
    | (with_reducible refine State.dramMeet_mem _ _ _ ?_)
    | (with_reducible refine State.dmaMeet_mem _ _ _ ?_)
    | (with_reducible refine State.replayRead_mem _ _ _ _ ?_)
    | (with_reducible refine State.takeOver_mem _ _ _ _ ?_)
    | (with_reducible refine State.startRotation_mem _ _ _ ?_)
    | (with_reducible refine State.lend_mem _ _ _ ?_)
    | (with_reducible refine State.calForce_mem _ _ ?_)
    | (with_reducible refine State.calExpire_mem _ _ ?_)
    | (with_reducible refine State.powerLost_mem _ _)
    | (with_reducible refine State.railsDown_mem _)
    | (with_reducible refine State.powerDown_mem _ ?_)
    | (with_reducible refine State.railFault_mem _ _ ?_)
    | (with_reducible refine State.islandUp_mem _ _ ?_)
    | (with_reducible refine State.startDram_mem _ _ ?_)
    | (with_reducible refine State.preopEntry_mem _ ?_)
    | (with_reducible refine State.enterPreop_mem _ ?_)
    | (with_reducible refine State.bootPreop_mem _ ?_)
    | (with_reducible refine State.startPreop_mem _ ?_)
    | (with_reducible refine foldl_mem _ _ _ (fun a x h => ?_) ?_)
    | (simp only [])
    | (simp (disch := exact memOk_blind.mono rfl) [*]; done)
    | (simp (disch := exact memOk_blind.mono rfl))

theorem execTempSample_mem (t : Nat) (temps : List Int) (s : State) (h : see State.memOk s = true) (u : State) (hu : execTempSample t temps s = .next u) : see State.memOk u = true := by
  have h' : see State.memOk (s.at t) = true := h
  clear h
  unfold execTempSample at hu
  (try simp only [] at hu)
  generalize State.at s t = s at *
  have h := h'
  (repeat' split at hu) <;> (have e := Host.Outcome.next.inj hu; subst e) <;> repeat' first
    | (with_reducible exact h)
    | split
    | (with_reducible refine State.memStore_mem _ _ _ ?_)
    | (with_reducible refine State.memLose_mem _)
    | (with_reducible refine State.dmaWrite_mem _ _ _ _ ?_)
    | (with_reducible refine State.dmaPut_mem _ _ _ _ ?_)
    | (with_reducible refine State.dmaAdvance_mem _ _ _ _ ?_)
    | (with_reducible refine State.dmaProgress_mem _ _ ?_)
    | (with_reducible refine State.dmaCheck_mem _ _ ?_)
    | (with_reducible refine State.czWrite_mem _ _ _ _ _ _ _ ?_)
    | (with_reducible refine State.czTake_mem _ _ _ _ ?_)
    | (with_reducible refine State.czFlush_mem _ _ _ ?_)
    | (with_reducible refine State.dmaStart_mem _ _ _ ?_)
    | (with_reducible refine State.interleavedLost_mem _)
    | (with_reducible refine State.channelFault_mem _ _ ?_)
    | (with_reducible refine State.dramPreop_mem _ ?_)
    | (with_reducible refine State.dramError_mem _ _ ?_)
    | (with_reducible refine State.dramErrors_mem _ _ ?_)
    | (with_reducible refine State.dramMeet_mem _ _ _ ?_)
    | (with_reducible refine State.dmaMeet_mem _ _ _ ?_)
    | (with_reducible refine State.replayRead_mem _ _ _ _ ?_)
    | (with_reducible refine State.takeOver_mem _ _ _ _ ?_)
    | (with_reducible refine State.startRotation_mem _ _ _ ?_)
    | (with_reducible refine State.lend_mem _ _ _ ?_)
    | (with_reducible refine State.calForce_mem _ _ ?_)
    | (with_reducible refine State.calExpire_mem _ _ ?_)
    | (with_reducible refine State.powerLost_mem _ _)
    | (with_reducible refine State.railsDown_mem _)
    | (with_reducible refine State.powerDown_mem _ ?_)
    | (with_reducible refine State.railFault_mem _ _ ?_)
    | (with_reducible refine State.islandUp_mem _ _ ?_)
    | (with_reducible refine State.startDram_mem _ _ ?_)
    | (with_reducible refine State.preopEntry_mem _ ?_)
    | (with_reducible refine State.enterPreop_mem _ ?_)
    | (with_reducible refine State.bootPreop_mem _ ?_)
    | (with_reducible refine State.startPreop_mem _ ?_)
    | (with_reducible refine foldl_mem _ _ _ (fun a x h => ?_) ?_)
    | (simp only [])
    | (simp (disch := exact memOk_blind.mono rfl) [*]; done)
    | (simp (disch := exact memOk_blind.mono rfl))

theorem execSaveWriteDone_mem (t : Nat) (millivolts : Nat) (s : State) (h : see State.memOk s = true) (u : State) (hu : execSaveWriteDone t millivolts s = .next u) : see State.memOk u = true := by
  have h' : see State.memOk (s.at t) = true := h
  clear h
  unfold execSaveWriteDone at hu
  (try simp only [] at hu)
  generalize State.at s t = s at *
  have h := h'
  (repeat' split at hu) <;> (have e := Host.Outcome.next.inj hu; subst e) <;> repeat' first
    | (with_reducible exact h)
    | split
    | (with_reducible refine State.memStore_mem _ _ _ ?_)
    | (with_reducible refine State.memLose_mem _)
    | (with_reducible refine State.dmaWrite_mem _ _ _ _ ?_)
    | (with_reducible refine State.dmaPut_mem _ _ _ _ ?_)
    | (with_reducible refine State.dmaAdvance_mem _ _ _ _ ?_)
    | (with_reducible refine State.dmaProgress_mem _ _ ?_)
    | (with_reducible refine State.dmaCheck_mem _ _ ?_)
    | (with_reducible refine State.czWrite_mem _ _ _ _ _ _ _ ?_)
    | (with_reducible refine State.czTake_mem _ _ _ _ ?_)
    | (with_reducible refine State.czFlush_mem _ _ _ ?_)
    | (with_reducible refine State.dmaStart_mem _ _ _ ?_)
    | (with_reducible refine State.interleavedLost_mem _)
    | (with_reducible refine State.channelFault_mem _ _ ?_)
    | (with_reducible refine State.dramPreop_mem _ ?_)
    | (with_reducible refine State.dramError_mem _ _ ?_)
    | (with_reducible refine State.dramErrors_mem _ _ ?_)
    | (with_reducible refine State.dramMeet_mem _ _ _ ?_)
    | (with_reducible refine State.dmaMeet_mem _ _ _ ?_)
    | (with_reducible refine State.replayRead_mem _ _ _ _ ?_)
    | (with_reducible refine State.takeOver_mem _ _ _ _ ?_)
    | (with_reducible refine State.startRotation_mem _ _ _ ?_)
    | (with_reducible refine State.lend_mem _ _ _ ?_)
    | (with_reducible refine State.calForce_mem _ _ ?_)
    | (with_reducible refine State.calExpire_mem _ _ ?_)
    | (with_reducible refine State.powerLost_mem _ _)
    | (with_reducible refine State.railsDown_mem _)
    | (with_reducible refine State.powerDown_mem _ ?_)
    | (with_reducible refine State.railFault_mem _ _ ?_)
    | (with_reducible refine State.islandUp_mem _ _ ?_)
    | (with_reducible refine State.startDram_mem _ _ ?_)
    | (with_reducible refine State.preopEntry_mem _ ?_)
    | (with_reducible refine State.enterPreop_mem _ ?_)
    | (with_reducible refine State.bootPreop_mem _ ?_)
    | (with_reducible refine State.startPreop_mem _ ?_)
    | (with_reducible refine foldl_mem _ _ _ (fun a x h => ?_) ?_)
    | (simp only [])
    | (simp (disch := exact memOk_blind.mono rfl) [*]; done)
    | (simp (disch := exact memOk_blind.mono rfl))

theorem execSaveResume_mem (t : Nat) (s : State) (h : see State.memOk s = true) (u : State) (hu : execSaveResume t s = .next u) : see State.memOk u = true := by
  have h' : see State.memOk (s.at t) = true := h
  clear h
  unfold execSaveResume at hu
  (try simp only [] at hu)
  generalize State.at s t = s at *
  have h := h'
  (repeat' split at hu) <;> (have e := Host.Outcome.next.inj hu; subst e) <;> repeat' first
    | (with_reducible exact h)
    | split
    | (with_reducible refine State.memStore_mem _ _ _ ?_)
    | (with_reducible refine State.memLose_mem _)
    | (with_reducible refine State.dmaWrite_mem _ _ _ _ ?_)
    | (with_reducible refine State.dmaPut_mem _ _ _ _ ?_)
    | (with_reducible refine State.dmaAdvance_mem _ _ _ _ ?_)
    | (with_reducible refine State.dmaProgress_mem _ _ ?_)
    | (with_reducible refine State.dmaCheck_mem _ _ ?_)
    | (with_reducible refine State.czWrite_mem _ _ _ _ _ _ _ ?_)
    | (with_reducible refine State.czTake_mem _ _ _ _ ?_)
    | (with_reducible refine State.czFlush_mem _ _ _ ?_)
    | (with_reducible refine State.dmaStart_mem _ _ _ ?_)
    | (with_reducible refine State.interleavedLost_mem _)
    | (with_reducible refine State.channelFault_mem _ _ ?_)
    | (with_reducible refine State.dramPreop_mem _ ?_)
    | (with_reducible refine State.dramError_mem _ _ ?_)
    | (with_reducible refine State.dramErrors_mem _ _ ?_)
    | (with_reducible refine State.dramMeet_mem _ _ _ ?_)
    | (with_reducible refine State.dmaMeet_mem _ _ _ ?_)
    | (with_reducible refine State.replayRead_mem _ _ _ _ ?_)
    | (with_reducible refine State.takeOver_mem _ _ _ _ ?_)
    | (with_reducible refine State.startRotation_mem _ _ _ ?_)
    | (with_reducible refine State.lend_mem _ _ _ ?_)
    | (with_reducible refine State.calForce_mem _ _ ?_)
    | (with_reducible refine State.calExpire_mem _ _ ?_)
    | (with_reducible refine State.powerLost_mem _ _)
    | (with_reducible refine State.railsDown_mem _)
    | (with_reducible refine State.powerDown_mem _ ?_)
    | (with_reducible refine State.railFault_mem _ _ ?_)
    | (with_reducible refine State.islandUp_mem _ _ ?_)
    | (with_reducible refine State.startDram_mem _ _ ?_)
    | (with_reducible refine State.preopEntry_mem _ ?_)
    | (with_reducible refine State.enterPreop_mem _ ?_)
    | (with_reducible refine State.bootPreop_mem _ ?_)
    | (with_reducible refine State.startPreop_mem _ ?_)
    | (with_reducible refine foldl_mem _ _ _ (fun a x h => ?_) ?_)
    | (simp only [])
    | (simp (disch := exact memOk_blind.mono rfl) [*]; done)
    | (simp (disch := exact memOk_blind.mono rfl))

theorem execVinCollapse_mem (t : Nat) (s : State) (h : see State.memOk s = true) (u : State) (hu : execVinCollapse t s = .next u) : see State.memOk u = true := by
  have h' : see State.memOk (s.at t) = true := h
  clear h
  unfold execVinCollapse at hu
  (try simp only [] at hu)
  generalize State.at s t = s at *
  have h := h'
  (repeat' split at hu) <;> (have e := Host.Outcome.next.inj hu; subst e) <;> repeat' first
    | (with_reducible exact h)
    | split
    | (with_reducible refine State.memStore_mem _ _ _ ?_)
    | (with_reducible refine State.memLose_mem _)
    | (with_reducible refine State.dmaWrite_mem _ _ _ _ ?_)
    | (with_reducible refine State.dmaPut_mem _ _ _ _ ?_)
    | (with_reducible refine State.dmaAdvance_mem _ _ _ _ ?_)
    | (with_reducible refine State.dmaProgress_mem _ _ ?_)
    | (with_reducible refine State.dmaCheck_mem _ _ ?_)
    | (with_reducible refine State.czWrite_mem _ _ _ _ _ _ _ ?_)
    | (with_reducible refine State.czTake_mem _ _ _ _ ?_)
    | (with_reducible refine State.czFlush_mem _ _ _ ?_)
    | (with_reducible refine State.dmaStart_mem _ _ _ ?_)
    | (with_reducible refine State.interleavedLost_mem _)
    | (with_reducible refine State.channelFault_mem _ _ ?_)
    | (with_reducible refine State.dramPreop_mem _ ?_)
    | (with_reducible refine State.dramError_mem _ _ ?_)
    | (with_reducible refine State.dramErrors_mem _ _ ?_)
    | (with_reducible refine State.dramMeet_mem _ _ _ ?_)
    | (with_reducible refine State.dmaMeet_mem _ _ _ ?_)
    | (with_reducible refine State.replayRead_mem _ _ _ _ ?_)
    | (with_reducible refine State.takeOver_mem _ _ _ _ ?_)
    | (with_reducible refine State.startRotation_mem _ _ _ ?_)
    | (with_reducible refine State.lend_mem _ _ _ ?_)
    | (with_reducible refine State.calForce_mem _ _ ?_)
    | (with_reducible refine State.calExpire_mem _ _ ?_)
    | (with_reducible refine State.powerLost_mem _ _)
    | (with_reducible refine State.railsDown_mem _)
    | (with_reducible refine State.powerDown_mem _ ?_)
    | (with_reducible refine State.railFault_mem _ _ ?_)
    | (with_reducible refine State.islandUp_mem _ _ ?_)
    | (with_reducible refine State.startDram_mem _ _ ?_)
    | (with_reducible refine State.preopEntry_mem _ ?_)
    | (with_reducible refine State.enterPreop_mem _ ?_)
    | (with_reducible refine State.bootPreop_mem _ ?_)
    | (with_reducible refine State.startPreop_mem _ ?_)
    | (with_reducible refine foldl_mem _ _ _ (fun a x h => ?_) ?_)
    | (simp only [])
    | (simp (disch := exact memOk_blind.mono rfl) [*]; done)
    | (simp (disch := exact memOk_blind.mono rfl))

theorem execStandbyLoss_mem (t : Nat) (s : State) (h : see State.memOk s = true) (u : State) (hu : execStandbyLoss t s = .next u) : see State.memOk u = true := by
  have h' : see State.memOk (s.at t) = true := h
  clear h
  unfold execStandbyLoss at hu
  (try simp only [] at hu)
  generalize State.at s t = s at *
  have h := h'
  (repeat' split at hu) <;> (have e := Host.Outcome.next.inj hu; subst e) <;> repeat' first
    | (with_reducible exact h)
    | split
    | (with_reducible refine State.memStore_mem _ _ _ ?_)
    | (with_reducible refine State.memLose_mem _)
    | (with_reducible refine State.dmaWrite_mem _ _ _ _ ?_)
    | (with_reducible refine State.dmaPut_mem _ _ _ _ ?_)
    | (with_reducible refine State.dmaAdvance_mem _ _ _ _ ?_)
    | (with_reducible refine State.dmaProgress_mem _ _ ?_)
    | (with_reducible refine State.dmaCheck_mem _ _ ?_)
    | (with_reducible refine State.czWrite_mem _ _ _ _ _ _ _ ?_)
    | (with_reducible refine State.czTake_mem _ _ _ _ ?_)
    | (with_reducible refine State.czFlush_mem _ _ _ ?_)
    | (with_reducible refine State.dmaStart_mem _ _ _ ?_)
    | (with_reducible refine State.interleavedLost_mem _)
    | (with_reducible refine State.channelFault_mem _ _ ?_)
    | (with_reducible refine State.dramPreop_mem _ ?_)
    | (with_reducible refine State.dramError_mem _ _ ?_)
    | (with_reducible refine State.dramErrors_mem _ _ ?_)
    | (with_reducible refine State.dramMeet_mem _ _ _ ?_)
    | (with_reducible refine State.dmaMeet_mem _ _ _ ?_)
    | (with_reducible refine State.replayRead_mem _ _ _ _ ?_)
    | (with_reducible refine State.takeOver_mem _ _ _ _ ?_)
    | (with_reducible refine State.startRotation_mem _ _ _ ?_)
    | (with_reducible refine State.lend_mem _ _ _ ?_)
    | (with_reducible refine State.calForce_mem _ _ ?_)
    | (with_reducible refine State.calExpire_mem _ _ ?_)
    | (with_reducible refine State.powerLost_mem _ _)
    | (with_reducible refine State.railsDown_mem _)
    | (with_reducible refine State.powerDown_mem _ ?_)
    | (with_reducible refine State.railFault_mem _ _ ?_)
    | (with_reducible refine State.islandUp_mem _ _ ?_)
    | (with_reducible refine State.startDram_mem _ _ ?_)
    | (with_reducible refine State.preopEntry_mem _ ?_)
    | (with_reducible refine State.enterPreop_mem _ ?_)
    | (with_reducible refine State.bootPreop_mem _ ?_)
    | (with_reducible refine State.startPreop_mem _ ?_)
    | (with_reducible refine foldl_mem _ _ _ (fun a x h => ?_) ?_)
    | (simp only [])
    | (simp (disch := exact memOk_blind.mono rfl) [*]; done)
    | (simp (disch := exact memOk_blind.mono rfl))

theorem execStateTransitionDone_mem (t : Nat) (s : State) (h : see State.memOk s = true) (u : State) (hu : execStateTransitionDone t s = .next u) : see State.memOk u = true := by
  have h' : see State.memOk (s.at t) = true := h
  clear h
  unfold execStateTransitionDone at hu
  (try simp only [] at hu)
  generalize State.at s t = s at *
  have h := h'
  (repeat' split at hu) <;> (have e := Host.Outcome.next.inj hu; subst e) <;> repeat' first
    | (with_reducible exact h)
    | split
    | (with_reducible refine State.memStore_mem _ _ _ ?_)
    | (with_reducible refine State.memLose_mem _)
    | (with_reducible refine State.dmaWrite_mem _ _ _ _ ?_)
    | (with_reducible refine State.dmaPut_mem _ _ _ _ ?_)
    | (with_reducible refine State.dmaAdvance_mem _ _ _ _ ?_)
    | (with_reducible refine State.dmaProgress_mem _ _ ?_)
    | (with_reducible refine State.dmaCheck_mem _ _ ?_)
    | (with_reducible refine State.czWrite_mem _ _ _ _ _ _ _ ?_)
    | (with_reducible refine State.czTake_mem _ _ _ _ ?_)
    | (with_reducible refine State.czFlush_mem _ _ _ ?_)
    | (with_reducible refine State.dmaStart_mem _ _ _ ?_)
    | (with_reducible refine State.interleavedLost_mem _)
    | (with_reducible refine State.channelFault_mem _ _ ?_)
    | (with_reducible refine State.dramPreop_mem _ ?_)
    | (with_reducible refine State.dramError_mem _ _ ?_)
    | (with_reducible refine State.dramErrors_mem _ _ ?_)
    | (with_reducible refine State.dramMeet_mem _ _ _ ?_)
    | (with_reducible refine State.dmaMeet_mem _ _ _ ?_)
    | (with_reducible refine State.replayRead_mem _ _ _ _ ?_)
    | (with_reducible refine State.takeOver_mem _ _ _ _ ?_)
    | (with_reducible refine State.startRotation_mem _ _ _ ?_)
    | (with_reducible refine State.lend_mem _ _ _ ?_)
    | (with_reducible refine State.calForce_mem _ _ ?_)
    | (with_reducible refine State.calExpire_mem _ _ ?_)
    | (with_reducible refine State.powerLost_mem _ _)
    | (with_reducible refine State.railsDown_mem _)
    | (with_reducible refine State.powerDown_mem _ ?_)
    | (with_reducible refine State.railFault_mem _ _ ?_)
    | (with_reducible refine State.islandUp_mem _ _ ?_)
    | (with_reducible refine State.startDram_mem _ _ ?_)
    | (with_reducible refine State.preopEntry_mem _ ?_)
    | (with_reducible refine State.enterPreop_mem _ ?_)
    | (with_reducible refine State.bootPreop_mem _ ?_)
    | (with_reducible refine State.startPreop_mem _ ?_)
    | (with_reducible refine foldl_mem _ _ _ (fun a x h => ?_) ?_)
    | (simp only [])
    | (simp (disch := exact memOk_blind.mono rfl) [*]; done)
    | (simp (disch := exact memOk_blind.mono rfl))

theorem execCalDeadline_mem (t : Nat) (s : State) (h : see State.memOk s = true) (u : State) (hu : execCalDeadline t s = .next u) : see State.memOk u = true := by
  have h' : see State.memOk (s.at t) = true := h
  clear h
  unfold execCalDeadline at hu
  (try simp only [] at hu)
  generalize State.at s t = s at *
  have h := h'
  (repeat' split at hu) <;> (have e := Host.Outcome.next.inj hu; subst e) <;> repeat' first
    | (with_reducible exact h)
    | split
    | (with_reducible refine State.memStore_mem _ _ _ ?_)
    | (with_reducible refine State.memLose_mem _)
    | (with_reducible refine State.dmaWrite_mem _ _ _ _ ?_)
    | (with_reducible refine State.dmaPut_mem _ _ _ _ ?_)
    | (with_reducible refine State.dmaAdvance_mem _ _ _ _ ?_)
    | (with_reducible refine State.dmaProgress_mem _ _ ?_)
    | (with_reducible refine State.dmaCheck_mem _ _ ?_)
    | (with_reducible refine State.czWrite_mem _ _ _ _ _ _ _ ?_)
    | (with_reducible refine State.czTake_mem _ _ _ _ ?_)
    | (with_reducible refine State.czFlush_mem _ _ _ ?_)
    | (with_reducible refine State.dmaStart_mem _ _ _ ?_)
    | (with_reducible refine State.interleavedLost_mem _)
    | (with_reducible refine State.channelFault_mem _ _ ?_)
    | (with_reducible refine State.dramPreop_mem _ ?_)
    | (with_reducible refine State.dramError_mem _ _ ?_)
    | (with_reducible refine State.dramErrors_mem _ _ ?_)
    | (with_reducible refine State.dramMeet_mem _ _ _ ?_)
    | (with_reducible refine State.dmaMeet_mem _ _ _ ?_)
    | (with_reducible refine State.replayRead_mem _ _ _ _ ?_)
    | (with_reducible refine State.takeOver_mem _ _ _ _ ?_)
    | (with_reducible refine State.startRotation_mem _ _ _ ?_)
    | (with_reducible refine State.lend_mem _ _ _ ?_)
    | (with_reducible refine State.calForce_mem _ _ ?_)
    | (with_reducible refine State.calExpire_mem _ _ ?_)
    | (with_reducible refine State.powerLost_mem _ _)
    | (with_reducible refine State.railsDown_mem _)
    | (with_reducible refine State.powerDown_mem _ ?_)
    | (with_reducible refine State.railFault_mem _ _ ?_)
    | (with_reducible refine State.islandUp_mem _ _ ?_)
    | (with_reducible refine State.startDram_mem _ _ ?_)
    | (with_reducible refine State.preopEntry_mem _ ?_)
    | (with_reducible refine State.enterPreop_mem _ ?_)
    | (with_reducible refine State.bootPreop_mem _ ?_)
    | (with_reducible refine State.startPreop_mem _ ?_)
    | (with_reducible refine foldl_mem _ _ _ (fun a x h => ?_) ?_)
    | (simp only [])
    | (simp (disch := exact memOk_blind.mono rfl) [*]; done)
    | (simp (disch := exact memOk_blind.mono rfl))

theorem execFailover_mem (t : Nat) (errors : List DramError) (imageBad : Bool) (s : State) (h : see State.memOk s = true) (u : State) (hu : execFailover t errors imageBad s = .next u) : see State.memOk u = true := by
  have h' : see State.memOk (s.at t) = true := h
  clear h
  unfold execFailover at hu
  (try simp only [] at hu)
  generalize State.at s t = s at *
  have h := h'
  (repeat' split at hu) <;> (have e := Host.Outcome.next.inj hu; subst e) <;> repeat' first
    | (with_reducible exact h)
    | split
    | (with_reducible refine State.memStore_mem _ _ _ ?_)
    | (with_reducible refine State.memLose_mem _)
    | (with_reducible refine State.dmaWrite_mem _ _ _ _ ?_)
    | (with_reducible refine State.dmaPut_mem _ _ _ _ ?_)
    | (with_reducible refine State.dmaAdvance_mem _ _ _ _ ?_)
    | (with_reducible refine State.dmaProgress_mem _ _ ?_)
    | (with_reducible refine State.dmaCheck_mem _ _ ?_)
    | (with_reducible refine State.czWrite_mem _ _ _ _ _ _ _ ?_)
    | (with_reducible refine State.czTake_mem _ _ _ _ ?_)
    | (with_reducible refine State.czFlush_mem _ _ _ ?_)
    | (with_reducible refine State.dmaStart_mem _ _ _ ?_)
    | (with_reducible refine State.interleavedLost_mem _)
    | (with_reducible refine State.channelFault_mem _ _ ?_)
    | (with_reducible refine State.dramPreop_mem _ ?_)
    | (with_reducible refine State.dramError_mem _ _ ?_)
    | (with_reducible refine State.dramErrors_mem _ _ ?_)
    | (with_reducible refine State.dramMeet_mem _ _ _ ?_)
    | (with_reducible refine State.dmaMeet_mem _ _ _ ?_)
    | (with_reducible refine State.replayRead_mem _ _ _ _ ?_)
    | (with_reducible refine State.takeOver_mem _ _ _ _ ?_)
    | (with_reducible refine State.startRotation_mem _ _ _ ?_)
    | (with_reducible refine State.lend_mem _ _ _ ?_)
    | (with_reducible refine State.calForce_mem _ _ ?_)
    | (with_reducible refine State.calExpire_mem _ _ ?_)
    | (with_reducible refine State.powerLost_mem _ _)
    | (with_reducible refine State.railsDown_mem _)
    | (with_reducible refine State.powerDown_mem _ ?_)
    | (with_reducible refine State.railFault_mem _ _ ?_)
    | (with_reducible refine State.islandUp_mem _ _ ?_)
    | (with_reducible refine State.startDram_mem _ _ ?_)
    | (with_reducible refine State.preopEntry_mem _ ?_)
    | (with_reducible refine State.enterPreop_mem _ ?_)
    | (with_reducible refine State.bootPreop_mem _ ?_)
    | (with_reducible refine State.startPreop_mem _ ?_)
    | (with_reducible refine foldl_mem _ _ _ (fun a x h => ?_) ?_)
    | (simp only [])
    | (simp (disch := exact memOk_blind.mono rfl) [*]; done)
    | (simp (disch := exact memOk_blind.mono rfl))

theorem execRotate_mem (t : RotationStart) (s : State) (h : see State.memOk s = true) (u : State) (hu : execRotate t s = .next u) : see State.memOk u = true := by
  have h' : see State.memOk (s.at t.time) = true := h
  clear h
  unfold execRotate at hu
  (try simp only [] at hu)
  generalize State.at s t.time = s at *
  have h := h'
  (repeat' split at hu) <;> (have e := Host.Outcome.next.inj hu; subst e) <;> repeat' first
    | (with_reducible exact h)
    | split
    | (with_reducible refine State.memStore_mem _ _ _ ?_)
    | (with_reducible refine State.memLose_mem _)
    | (with_reducible refine State.dmaWrite_mem _ _ _ _ ?_)
    | (with_reducible refine State.dmaPut_mem _ _ _ _ ?_)
    | (with_reducible refine State.dmaAdvance_mem _ _ _ _ ?_)
    | (with_reducible refine State.dmaProgress_mem _ _ ?_)
    | (with_reducible refine State.dmaCheck_mem _ _ ?_)
    | (with_reducible refine State.czWrite_mem _ _ _ _ _ _ _ ?_)
    | (with_reducible refine State.czTake_mem _ _ _ _ ?_)
    | (with_reducible refine State.czFlush_mem _ _ _ ?_)
    | (with_reducible refine State.dmaStart_mem _ _ _ ?_)
    | (with_reducible refine State.interleavedLost_mem _)
    | (with_reducible refine State.channelFault_mem _ _ ?_)
    | (with_reducible refine State.dramPreop_mem _ ?_)
    | (with_reducible refine State.dramError_mem _ _ ?_)
    | (with_reducible refine State.dramErrors_mem _ _ ?_)
    | (with_reducible refine State.dramMeet_mem _ _ _ ?_)
    | (with_reducible refine State.dmaMeet_mem _ _ _ ?_)
    | (with_reducible refine State.replayRead_mem _ _ _ _ ?_)
    | (with_reducible refine State.takeOver_mem _ _ _ _ ?_)
    | (with_reducible refine State.startRotation_mem _ _ _ ?_)
    | (with_reducible refine State.lend_mem _ _ _ ?_)
    | (with_reducible refine State.calForce_mem _ _ ?_)
    | (with_reducible refine State.calExpire_mem _ _ ?_)
    | (with_reducible refine State.powerLost_mem _ _)
    | (with_reducible refine State.railsDown_mem _)
    | (with_reducible refine State.powerDown_mem _ ?_)
    | (with_reducible refine State.railFault_mem _ _ ?_)
    | (with_reducible refine State.islandUp_mem _ _ ?_)
    | (with_reducible refine State.startDram_mem _ _ ?_)
    | (with_reducible refine State.preopEntry_mem _ ?_)
    | (with_reducible refine State.enterPreop_mem _ ?_)
    | (with_reducible refine State.bootPreop_mem _ ?_)
    | (with_reducible refine State.startPreop_mem _ ?_)
    | (with_reducible refine foldl_mem _ _ _ (fun a x h => ?_) ?_)
    | (simp only [])
    | (simp (disch := exact memOk_blind.mono rfl) [*]; done)
    | (simp (disch := exact memOk_blind.mono rfl))

theorem execLoanStart_mem (t : Nat) (link : Fin 2) (p : Fin 12) (s : State) (h : see State.memOk s = true) (u : State) (hu : execLoanStart t link p s = .next u) : see State.memOk u = true := by
  have h' : see State.memOk (s.at t) = true := h
  clear h
  unfold execLoanStart at hu
  (try simp only [] at hu)
  generalize State.at s t = s at *
  have h := h'
  (repeat' split at hu) <;> (have e := Host.Outcome.next.inj hu; subst e) <;> repeat' first
    | (with_reducible exact h)
    | split
    | (with_reducible refine State.memStore_mem _ _ _ ?_)
    | (with_reducible refine State.memLose_mem _)
    | (with_reducible refine State.dmaWrite_mem _ _ _ _ ?_)
    | (with_reducible refine State.dmaPut_mem _ _ _ _ ?_)
    | (with_reducible refine State.dmaAdvance_mem _ _ _ _ ?_)
    | (with_reducible refine State.dmaProgress_mem _ _ ?_)
    | (with_reducible refine State.dmaCheck_mem _ _ ?_)
    | (with_reducible refine State.czWrite_mem _ _ _ _ _ _ _ ?_)
    | (with_reducible refine State.czTake_mem _ _ _ _ ?_)
    | (with_reducible refine State.czFlush_mem _ _ _ ?_)
    | (with_reducible refine State.dmaStart_mem _ _ _ ?_)
    | (with_reducible refine State.interleavedLost_mem _)
    | (with_reducible refine State.channelFault_mem _ _ ?_)
    | (with_reducible refine State.dramPreop_mem _ ?_)
    | (with_reducible refine State.dramError_mem _ _ ?_)
    | (with_reducible refine State.dramErrors_mem _ _ ?_)
    | (with_reducible refine State.dramMeet_mem _ _ _ ?_)
    | (with_reducible refine State.dmaMeet_mem _ _ _ ?_)
    | (with_reducible refine State.replayRead_mem _ _ _ _ ?_)
    | (with_reducible refine State.takeOver_mem _ _ _ _ ?_)
    | (with_reducible refine State.startRotation_mem _ _ _ ?_)
    | (with_reducible refine State.lend_mem _ _ _ ?_)
    | (with_reducible refine State.calForce_mem _ _ ?_)
    | (with_reducible refine State.calExpire_mem _ _ ?_)
    | (with_reducible refine State.powerLost_mem _ _)
    | (with_reducible refine State.railsDown_mem _)
    | (with_reducible refine State.powerDown_mem _ ?_)
    | (with_reducible refine State.railFault_mem _ _ ?_)
    | (with_reducible refine State.islandUp_mem _ _ ?_)
    | (with_reducible refine State.startDram_mem _ _ ?_)
    | (with_reducible refine State.preopEntry_mem _ ?_)
    | (with_reducible refine State.enterPreop_mem _ ?_)
    | (with_reducible refine State.bootPreop_mem _ ?_)
    | (with_reducible refine State.startPreop_mem _ ?_)
    | (with_reducible refine foldl_mem _ _ _ (fun a x h => ?_) ?_)
    | (simp only [])
    | (simp (disch := exact memOk_blind.mono rfl) [*]; done)
    | (simp (disch := exact memOk_blind.mono rfl))

theorem execIslandReady_mem (t : Nat) (island : Fin 40) (s : State) (h : see State.memOk s = true) (u : State) (hu : execIslandReady t island s = .next u) : see State.memOk u = true := by
  have h' : see State.memOk (s.at t) = true := h
  clear h
  unfold execIslandReady at hu
  (try simp only [] at hu)
  generalize State.at s t = s at *
  have h := h'
  (repeat' split at hu) <;> (have e := Host.Outcome.next.inj hu; subst e) <;> repeat' first
    | (with_reducible exact h)
    | split
    | (with_reducible refine State.memStore_mem _ _ _ ?_)
    | (with_reducible refine State.memLose_mem _)
    | (with_reducible refine State.dmaWrite_mem _ _ _ _ ?_)
    | (with_reducible refine State.dmaPut_mem _ _ _ _ ?_)
    | (with_reducible refine State.dmaAdvance_mem _ _ _ _ ?_)
    | (with_reducible refine State.dmaProgress_mem _ _ ?_)
    | (with_reducible refine State.dmaCheck_mem _ _ ?_)
    | (with_reducible refine State.czWrite_mem _ _ _ _ _ _ _ ?_)
    | (with_reducible refine State.czTake_mem _ _ _ _ ?_)
    | (with_reducible refine State.czFlush_mem _ _ _ ?_)
    | (with_reducible refine State.dmaStart_mem _ _ _ ?_)
    | (with_reducible refine State.interleavedLost_mem _)
    | (with_reducible refine State.channelFault_mem _ _ ?_)
    | (with_reducible refine State.dramPreop_mem _ ?_)
    | (with_reducible refine State.dramError_mem _ _ ?_)
    | (with_reducible refine State.dramErrors_mem _ _ ?_)
    | (with_reducible refine State.dramMeet_mem _ _ _ ?_)
    | (with_reducible refine State.dmaMeet_mem _ _ _ ?_)
    | (with_reducible refine State.replayRead_mem _ _ _ _ ?_)
    | (with_reducible refine State.takeOver_mem _ _ _ _ ?_)
    | (with_reducible refine State.startRotation_mem _ _ _ ?_)
    | (with_reducible refine State.lend_mem _ _ _ ?_)
    | (with_reducible refine State.calForce_mem _ _ ?_)
    | (with_reducible refine State.calExpire_mem _ _ ?_)
    | (with_reducible refine State.powerLost_mem _ _)
    | (with_reducible refine State.railsDown_mem _)
    | (with_reducible refine State.powerDown_mem _ ?_)
    | (with_reducible refine State.railFault_mem _ _ ?_)
    | (with_reducible refine State.islandUp_mem _ _ ?_)
    | (with_reducible refine State.startDram_mem _ _ ?_)
    | (with_reducible refine State.preopEntry_mem _ ?_)
    | (with_reducible refine State.enterPreop_mem _ ?_)
    | (with_reducible refine State.bootPreop_mem _ ?_)
    | (with_reducible refine State.startPreop_mem _ ?_)
    | (with_reducible refine foldl_mem _ _ _ (fun a x h => ?_) ?_)
    | (simp only [])
    | (simp (disch := exact memOk_blind.mono rfl) [*]; done)
    | (simp (disch := exact memOk_blind.mono rfl))

theorem State.tw1Run_mem (s : State) (n : Nat) (f : State → State)
    (hf : ∀ a, see State.memOk a = true → see State.memOk (f a) = true) (h : see State.memOk s = true) :
    see State.memOk (s.tw1Run n f) = true := by
  unfold State.tw1Run
  simp only []
  have hb : see State.memOk (s.twBegin 1) = true := by simp (disch := exact memOk_blind.mono rfl) [h]
  (repeat' split) <;> first
    | exact h
    | refine foldl_mem _ _ _ (fun a x ha => ?_) (by first | exact h | exact hf _ hb)
      simp (disch := exact memOk_blind.mono rfl) [ha]

theorem execPmbusAlert_mem (t : Nat) (words : List Nat) (s : State) (h : see State.memOk s = true) (u : State) (hu : execPmbusAlert t words s = .next u) : see State.memOk u = true := by
  have h0 : see State.memOk (s.at t) = true := h
  unfold execPmbusAlert at hu
  rw [← Host.Outcome.next.inj hu]
  refine State.tw1Run_mem _ _ _ (fun a ha => ?_) h0
  extract_lets s1 s2
  have hgm : see State.memOk s2 = true := by
    simp only [s2, s1]
    split <;> simp (disch := exact memOk_blind.mono rfl) [ha]
  split
  · exact State.railFault_mem _ _ hgm
  · exact hgm

theorem execWindowWrite_mem (t : Nat) (address : Nat) (data : List Byte) (s : State) (h : see State.memOk s = true)
    (u : State) (hu : execWindowWrite t address data s = .next u) : see State.memOk u = true := by
  have h' : see State.memOk (s.at t) = true := h
  unfold execWindowWrite at hu
  simp only [] at hu
  (repeat' split at hu) <;> cases hu
  · exact h'
  · exact State.memStore_mem _ _ _ h'
  · simp (disch := exact memOk_blind.mono rfl)
    exact h

theorem execWindowRead_mem (t : Nat) (address length : Nat) (errors : List DramError) (s : State)
    (h : see State.memOk s = true) (u : State) (hu : execWindowRead t address length errors s = .next u) :
    see State.memOk u = true := by
  have h' : see State.memOk (s.at t) = true := h
  unfold execWindowRead at hu
  simp only [] at hu
  (repeat' split at hu) <;> cases hu
  · exact h'
  all_goals simp (disch := exact memOk_blind.mono rfl) [State.dramMeet_mem _ _ _ h']

end Sys2Proof.Machine
end

