-- ==== Sys2Proof/Laws/State.lean ====
section
/-! SUPPORT. One lemma per field per update: an update of one part of the state leaves every other field as it was. -/

set_option maxRecDepth 4000
set_option linter.unusedSimpArgs false

namespace Sys2Proof.Machine

open Sys2Proof

@[simp] theorem State.at_pending (s : State) (t : Nat) : (State.at s t).pending = s.pending := rfl
@[simp] theorem State.at_dict (s : State) (t : Nat) : (State.at s t).dict = s.dict := rfl
@[simp] theorem State.at_blobs (s : State) (t : Nat) : (State.at s t).blobs = s.blobs := rfl
@[simp] theorem State.at_staged (s : State) (t : Nat) : (State.at s t).staged = s.staged := rfl
@[simp] theorem State.at_stagedBlobs (s : State) (t : Nat) : (State.at s t).stagedBlobs = s.stagedBlobs := rfl
@[simp] theorem State.at_epochs (s : State) (t : Nat) : (State.at s t).epochs = s.epochs := rfl
@[simp] theorem State.at_errName (s : State) (t : Nat) : (State.at s t).errName = s.errName := rfl
@[simp] theorem State.at_latches (s : State) (t : Nat) : (State.at s t).latches = s.latches := rfl
@[simp] theorem State.at_out (s : State) (t : Nat) : (State.at s t).out = s.out := rfl
@[simp] theorem State.at_draws (s : State) (t : Nat) : (State.at s t).draws = s.draws := rfl
@[simp] theorem State.at_mem (s : State) (t : Nat) : (State.at s t).mem = s.mem := rfl
@[simp] theorem State.at_lost (s : State) (t : Nat) : (State.at s t).lost = s.lost := rfl
@[simp] theorem State.at_dramBad (s : State) (t : Nat) : (State.at s t).dramBad = s.dramBad := rfl
@[simp] theorem State.at_dram (s : State) (t : Nat) : (State.at s t).dram = s.dram := rfl
@[simp] theorem State.at_scrubFrom (s : State) (t : Nat) : (State.at s t).scrubFrom = s.scrubFrom := rfl
@[simp] theorem State.at_lattice (s : State) (t : Nat) : (State.at s t).lattice = s.lattice := rfl
@[simp] theorem State.at_cxl (s : State) (t : Nat) : (State.at s t).cxl = s.cxl := rfl
@[simp] theorem State.at_access (s : State) (t : Nat) : (State.at s t).access = s.access := rfl
@[simp] theorem State.at_tim (s : State) (t : Nat) : (State.at s t).tim = s.tim := rfl
@[simp] theorem State.at_cams (s : State) (t : Nat) : (State.at s t).cams = s.cams := rfl
@[simp] theorem State.at_rc (s : State) (t : Nat) : (State.at s t).rc = s.rc := rfl
@[simp] theorem State.at_rg (s : State) (t : Nat) : (State.at s t).rg = s.rg := rfl
@[simp] theorem State.at_vd (s : State) (t : Nat) : (State.at s t).vd = s.vd := rfl
@[simp] theorem State.at_atl (s : State) (t : Nat) : (State.at s t).atl = s.atl := rfl
@[simp] theorem State.at_apipes (s : State) (t : Nat) : (State.at s t).apipes = s.apipes := rfl
@[simp] theorem State.at_sg (s : State) (t : Nat) : (State.at s t).sg = s.sg := rfl
@[simp] theorem State.at_ch (s : State) (t : Nat) : (State.at s t).ch = s.ch := rfl
@[simp] theorem State.at_lanes (s : State) (t : Nat) : (State.at s t).lanes = s.lanes := rfl
@[simp] theorem State.at_st (s : State) (t : Nat) : (State.at s t).st = s.st := rfl
@[simp] theorem State.at_judged (s : State) (t : Nat) : (State.at s t).judged = s.judged := rfl
@[simp] theorem State.at_bank (s : State) (t : Nat) : (State.at s t).bank = s.bank := rfl
@[simp] theorem State.at_lg (s : State) (t : Nat) : (State.at s t).lg = s.lg := rfl
@[simp] theorem State.at_vault (s : State) (t : Nat) : (State.at s t).vault = s.vault := rfl
@[simp] theorem State.at_cont (s : State) (t : Nat) : (State.at s t).cont = s.cont := rfl
@[simp] theorem State.at_place (s : State) (t : Nat) : (State.at s t).place = s.place := rfl
@[simp] theorem State.at_slots (s : State) (t : Nat) : (State.at s t).slots = s.slots := rfl
@[simp] theorem State.at_hist (s : State) (t : Nat) : (State.at s t).hist = s.hist := rfl
@[simp] theorem State.at_thumbs (s : State) (t : Nat) : (State.at s t).thumbs = s.thumbs := rfl
@[simp] theorem State.at_rt (s : State) (t : Nat) : (State.at s t).rt = s.rt := rfl
@[simp] theorem State.at_holdBy (s : State) (t : Nat) : (State.at s t).holdBy = s.holdBy := rfl
@[simp] theorem State.at_mer (s : State) (t : Nat) : (State.at s t).mer = s.mer := rfl
@[simp] theorem State.at_fw (s : State) (t : Nat) : (State.at s t).fw = s.fw := rfl
@[simp] theorem State.at_trans (s : State) (t : Nat) : (State.at s t).trans = s.trans := rfl
@[simp] theorem State.at_am (s : State) (t : Nat) : (State.at s t).am = s.am := rfl
@[simp] theorem State.at_cal (s : State) (t : Nat) : (State.at s t).cal = s.cal := rfl
@[simp] theorem State.at_power (s : State) (t : Nat) : (State.at s t).power = s.power := rfl
@[simp] theorem State.put_pending (s : State) (o : ObjRow) (b e : Nat) (v : Int) : (State.put s o b e v).pending = s.pending := rfl
@[simp] theorem State.put_now (s : State) (o : ObjRow) (b e : Nat) (v : Int) : (State.put s o b e v).now = s.now := rfl
@[simp] theorem State.put_fresh (s : State) (o : ObjRow) (b e : Nat) (v : Int) : (State.put s o b e v).fresh = s.fresh := rfl
@[simp] theorem State.put_blobs (s : State) (o : ObjRow) (b e : Nat) (v : Int) : (State.put s o b e v).blobs = s.blobs := rfl
@[simp] theorem State.put_staged (s : State) (o : ObjRow) (b e : Nat) (v : Int) : (State.put s o b e v).staged = s.staged := rfl
@[simp] theorem State.put_stagedBlobs (s : State) (o : ObjRow) (b e : Nat) (v : Int) : (State.put s o b e v).stagedBlobs = s.stagedBlobs := rfl
@[simp] theorem State.put_epochs (s : State) (o : ObjRow) (b e : Nat) (v : Int) : (State.put s o b e v).epochs = s.epochs := rfl
@[simp] theorem State.put_errName (s : State) (o : ObjRow) (b e : Nat) (v : Int) : (State.put s o b e v).errName = s.errName := rfl
@[simp] theorem State.put_latches (s : State) (o : ObjRow) (b e : Nat) (v : Int) : (State.put s o b e v).latches = s.latches := rfl
@[simp] theorem State.put_out (s : State) (o : ObjRow) (b e : Nat) (v : Int) : (State.put s o b e v).out = s.out := rfl
@[simp] theorem State.put_draws (s : State) (o : ObjRow) (b e : Nat) (v : Int) : (State.put s o b e v).draws = s.draws := rfl
@[simp] theorem State.put_mem (s : State) (o : ObjRow) (b e : Nat) (v : Int) : (State.put s o b e v).mem = s.mem := rfl
@[simp] theorem State.put_lost (s : State) (o : ObjRow) (b e : Nat) (v : Int) : (State.put s o b e v).lost = s.lost := rfl
@[simp] theorem State.put_dramBad (s : State) (o : ObjRow) (b e : Nat) (v : Int) : (State.put s o b e v).dramBad = s.dramBad := rfl
@[simp] theorem State.put_dram (s : State) (o : ObjRow) (b e : Nat) (v : Int) : (State.put s o b e v).dram = s.dram := rfl
@[simp] theorem State.put_scrubFrom (s : State) (o : ObjRow) (b e : Nat) (v : Int) : (State.put s o b e v).scrubFrom = s.scrubFrom := rfl
@[simp] theorem State.put_lattice (s : State) (o : ObjRow) (b e : Nat) (v : Int) : (State.put s o b e v).lattice = s.lattice := rfl
@[simp] theorem State.put_cxl (s : State) (o : ObjRow) (b e : Nat) (v : Int) : (State.put s o b e v).cxl = s.cxl := rfl
@[simp] theorem State.put_access (s : State) (o : ObjRow) (b e : Nat) (v : Int) : (State.put s o b e v).access = s.access := rfl
@[simp] theorem State.put_tim (s : State) (o : ObjRow) (b e : Nat) (v : Int) : (State.put s o b e v).tim = s.tim := rfl
@[simp] theorem State.put_cams (s : State) (o : ObjRow) (b e : Nat) (v : Int) : (State.put s o b e v).cams = s.cams := rfl
@[simp] theorem State.put_rc (s : State) (o : ObjRow) (b e : Nat) (v : Int) : (State.put s o b e v).rc = s.rc := rfl
@[simp] theorem State.put_rg (s : State) (o : ObjRow) (b e : Nat) (v : Int) : (State.put s o b e v).rg = s.rg := rfl
@[simp] theorem State.put_vd (s : State) (o : ObjRow) (b e : Nat) (v : Int) : (State.put s o b e v).vd = s.vd := rfl
@[simp] theorem State.put_atl (s : State) (o : ObjRow) (b e : Nat) (v : Int) : (State.put s o b e v).atl = s.atl := rfl
@[simp] theorem State.put_apipes (s : State) (o : ObjRow) (b e : Nat) (v : Int) : (State.put s o b e v).apipes = s.apipes := rfl
@[simp] theorem State.put_sg (s : State) (o : ObjRow) (b e : Nat) (v : Int) : (State.put s o b e v).sg = s.sg := rfl
@[simp] theorem State.put_ch (s : State) (o : ObjRow) (b e : Nat) (v : Int) : (State.put s o b e v).ch = s.ch := rfl
@[simp] theorem State.put_lanes (s : State) (o : ObjRow) (b e : Nat) (v : Int) : (State.put s o b e v).lanes = s.lanes := rfl
@[simp] theorem State.put_st (s : State) (o : ObjRow) (b e : Nat) (v : Int) : (State.put s o b e v).st = s.st := rfl
@[simp] theorem State.put_judged (s : State) (o : ObjRow) (b e : Nat) (v : Int) : (State.put s o b e v).judged = s.judged := rfl
@[simp] theorem State.put_bank (s : State) (o : ObjRow) (b e : Nat) (v : Int) : (State.put s o b e v).bank = s.bank := rfl
@[simp] theorem State.put_lg (s : State) (o : ObjRow) (b e : Nat) (v : Int) : (State.put s o b e v).lg = s.lg := rfl
@[simp] theorem State.put_vault (s : State) (o : ObjRow) (b e : Nat) (v : Int) : (State.put s o b e v).vault = s.vault := rfl
@[simp] theorem State.put_cont (s : State) (o : ObjRow) (b e : Nat) (v : Int) : (State.put s o b e v).cont = s.cont := rfl
@[simp] theorem State.put_place (s : State) (o : ObjRow) (b e : Nat) (v : Int) : (State.put s o b e v).place = s.place := rfl
@[simp] theorem State.put_slots (s : State) (o : ObjRow) (b e : Nat) (v : Int) : (State.put s o b e v).slots = s.slots := rfl
@[simp] theorem State.put_hist (s : State) (o : ObjRow) (b e : Nat) (v : Int) : (State.put s o b e v).hist = s.hist := rfl
@[simp] theorem State.put_thumbs (s : State) (o : ObjRow) (b e : Nat) (v : Int) : (State.put s o b e v).thumbs = s.thumbs := rfl
@[simp] theorem State.put_rt (s : State) (o : ObjRow) (b e : Nat) (v : Int) : (State.put s o b e v).rt = s.rt := rfl
@[simp] theorem State.put_holdBy (s : State) (o : ObjRow) (b e : Nat) (v : Int) : (State.put s o b e v).holdBy = s.holdBy := rfl
@[simp] theorem State.put_mer (s : State) (o : ObjRow) (b e : Nat) (v : Int) : (State.put s o b e v).mer = s.mer := rfl
@[simp] theorem State.put_fw (s : State) (o : ObjRow) (b e : Nat) (v : Int) : (State.put s o b e v).fw = s.fw := rfl
@[simp] theorem State.put_trans (s : State) (o : ObjRow) (b e : Nat) (v : Int) : (State.put s o b e v).trans = s.trans := rfl
@[simp] theorem State.put_am (s : State) (o : ObjRow) (b e : Nat) (v : Int) : (State.put s o b e v).am = s.am := rfl
@[simp] theorem State.put_cal (s : State) (o : ObjRow) (b e : Nat) (v : Int) : (State.put s o b e v).cal = s.cal := rfl
@[simp] theorem State.put_power (s : State) (o : ObjRow) (b e : Nat) (v : Int) : (State.put s o b e v).power = s.power := rfl
@[simp] theorem State.putBlob_pending (s : State) (o : ObjRow) (b e : Nat) (v : List Byte) : (State.putBlob s o b e v).pending = s.pending := rfl
@[simp] theorem State.putBlob_now (s : State) (o : ObjRow) (b e : Nat) (v : List Byte) : (State.putBlob s o b e v).now = s.now := rfl
@[simp] theorem State.putBlob_fresh (s : State) (o : ObjRow) (b e : Nat) (v : List Byte) : (State.putBlob s o b e v).fresh = s.fresh := rfl
@[simp] theorem State.putBlob_dict (s : State) (o : ObjRow) (b e : Nat) (v : List Byte) : (State.putBlob s o b e v).dict = s.dict := rfl
@[simp] theorem State.putBlob_staged (s : State) (o : ObjRow) (b e : Nat) (v : List Byte) : (State.putBlob s o b e v).staged = s.staged := rfl
@[simp] theorem State.putBlob_stagedBlobs (s : State) (o : ObjRow) (b e : Nat) (v : List Byte) : (State.putBlob s o b e v).stagedBlobs = s.stagedBlobs := rfl
@[simp] theorem State.putBlob_epochs (s : State) (o : ObjRow) (b e : Nat) (v : List Byte) : (State.putBlob s o b e v).epochs = s.epochs := rfl
@[simp] theorem State.putBlob_errName (s : State) (o : ObjRow) (b e : Nat) (v : List Byte) : (State.putBlob s o b e v).errName = s.errName := rfl
@[simp] theorem State.putBlob_latches (s : State) (o : ObjRow) (b e : Nat) (v : List Byte) : (State.putBlob s o b e v).latches = s.latches := rfl
@[simp] theorem State.putBlob_out (s : State) (o : ObjRow) (b e : Nat) (v : List Byte) : (State.putBlob s o b e v).out = s.out := rfl
@[simp] theorem State.putBlob_draws (s : State) (o : ObjRow) (b e : Nat) (v : List Byte) : (State.putBlob s o b e v).draws = s.draws := rfl
@[simp] theorem State.putBlob_mem (s : State) (o : ObjRow) (b e : Nat) (v : List Byte) : (State.putBlob s o b e v).mem = s.mem := rfl
@[simp] theorem State.putBlob_lost (s : State) (o : ObjRow) (b e : Nat) (v : List Byte) : (State.putBlob s o b e v).lost = s.lost := rfl
@[simp] theorem State.putBlob_dramBad (s : State) (o : ObjRow) (b e : Nat) (v : List Byte) : (State.putBlob s o b e v).dramBad = s.dramBad := rfl
@[simp] theorem State.putBlob_dram (s : State) (o : ObjRow) (b e : Nat) (v : List Byte) : (State.putBlob s o b e v).dram = s.dram := rfl
@[simp] theorem State.putBlob_scrubFrom (s : State) (o : ObjRow) (b e : Nat) (v : List Byte) : (State.putBlob s o b e v).scrubFrom = s.scrubFrom := rfl
@[simp] theorem State.putBlob_lattice (s : State) (o : ObjRow) (b e : Nat) (v : List Byte) : (State.putBlob s o b e v).lattice = s.lattice := rfl
@[simp] theorem State.putBlob_cxl (s : State) (o : ObjRow) (b e : Nat) (v : List Byte) : (State.putBlob s o b e v).cxl = s.cxl := rfl
@[simp] theorem State.putBlob_access (s : State) (o : ObjRow) (b e : Nat) (v : List Byte) : (State.putBlob s o b e v).access = s.access := rfl
@[simp] theorem State.putBlob_tim (s : State) (o : ObjRow) (b e : Nat) (v : List Byte) : (State.putBlob s o b e v).tim = s.tim := rfl
@[simp] theorem State.putBlob_cams (s : State) (o : ObjRow) (b e : Nat) (v : List Byte) : (State.putBlob s o b e v).cams = s.cams := rfl
@[simp] theorem State.putBlob_rc (s : State) (o : ObjRow) (b e : Nat) (v : List Byte) : (State.putBlob s o b e v).rc = s.rc := rfl
@[simp] theorem State.putBlob_rg (s : State) (o : ObjRow) (b e : Nat) (v : List Byte) : (State.putBlob s o b e v).rg = s.rg := rfl
@[simp] theorem State.putBlob_vd (s : State) (o : ObjRow) (b e : Nat) (v : List Byte) : (State.putBlob s o b e v).vd = s.vd := rfl
@[simp] theorem State.putBlob_atl (s : State) (o : ObjRow) (b e : Nat) (v : List Byte) : (State.putBlob s o b e v).atl = s.atl := rfl
@[simp] theorem State.putBlob_apipes (s : State) (o : ObjRow) (b e : Nat) (v : List Byte) : (State.putBlob s o b e v).apipes = s.apipes := rfl
@[simp] theorem State.putBlob_sg (s : State) (o : ObjRow) (b e : Nat) (v : List Byte) : (State.putBlob s o b e v).sg = s.sg := rfl
@[simp] theorem State.putBlob_ch (s : State) (o : ObjRow) (b e : Nat) (v : List Byte) : (State.putBlob s o b e v).ch = s.ch := rfl
@[simp] theorem State.putBlob_lanes (s : State) (o : ObjRow) (b e : Nat) (v : List Byte) : (State.putBlob s o b e v).lanes = s.lanes := rfl
@[simp] theorem State.putBlob_st (s : State) (o : ObjRow) (b e : Nat) (v : List Byte) : (State.putBlob s o b e v).st = s.st := rfl
@[simp] theorem State.putBlob_judged (s : State) (o : ObjRow) (b e : Nat) (v : List Byte) : (State.putBlob s o b e v).judged = s.judged := rfl
@[simp] theorem State.putBlob_bank (s : State) (o : ObjRow) (b e : Nat) (v : List Byte) : (State.putBlob s o b e v).bank = s.bank := rfl
@[simp] theorem State.putBlob_lg (s : State) (o : ObjRow) (b e : Nat) (v : List Byte) : (State.putBlob s o b e v).lg = s.lg := rfl
@[simp] theorem State.putBlob_vault (s : State) (o : ObjRow) (b e : Nat) (v : List Byte) : (State.putBlob s o b e v).vault = s.vault := rfl
@[simp] theorem State.putBlob_cont (s : State) (o : ObjRow) (b e : Nat) (v : List Byte) : (State.putBlob s o b e v).cont = s.cont := rfl
@[simp] theorem State.putBlob_place (s : State) (o : ObjRow) (b e : Nat) (v : List Byte) : (State.putBlob s o b e v).place = s.place := rfl
@[simp] theorem State.putBlob_slots (s : State) (o : ObjRow) (b e : Nat) (v : List Byte) : (State.putBlob s o b e v).slots = s.slots := rfl
@[simp] theorem State.putBlob_hist (s : State) (o : ObjRow) (b e : Nat) (v : List Byte) : (State.putBlob s o b e v).hist = s.hist := rfl
@[simp] theorem State.putBlob_thumbs (s : State) (o : ObjRow) (b e : Nat) (v : List Byte) : (State.putBlob s o b e v).thumbs = s.thumbs := rfl
@[simp] theorem State.putBlob_rt (s : State) (o : ObjRow) (b e : Nat) (v : List Byte) : (State.putBlob s o b e v).rt = s.rt := rfl
@[simp] theorem State.putBlob_holdBy (s : State) (o : ObjRow) (b e : Nat) (v : List Byte) : (State.putBlob s o b e v).holdBy = s.holdBy := rfl
@[simp] theorem State.putBlob_mer (s : State) (o : ObjRow) (b e : Nat) (v : List Byte) : (State.putBlob s o b e v).mer = s.mer := rfl
@[simp] theorem State.putBlob_fw (s : State) (o : ObjRow) (b e : Nat) (v : List Byte) : (State.putBlob s o b e v).fw = s.fw := rfl
@[simp] theorem State.putBlob_trans (s : State) (o : ObjRow) (b e : Nat) (v : List Byte) : (State.putBlob s o b e v).trans = s.trans := rfl
@[simp] theorem State.putBlob_am (s : State) (o : ObjRow) (b e : Nat) (v : List Byte) : (State.putBlob s o b e v).am = s.am := rfl
@[simp] theorem State.putBlob_cal (s : State) (o : ObjRow) (b e : Nat) (v : List Byte) : (State.putBlob s o b e v).cal = s.cal := rfl
@[simp] theorem State.putBlob_power (s : State) (o : ObjRow) (b e : Nat) (v : List Byte) : (State.putBlob s o b e v).power = s.power := rfl
@[simp] theorem State.putN_pending (s : State) (o : ObjRow) (b e v : Nat) : (State.putN s o b e v).pending = s.pending := rfl
@[simp] theorem State.putN_now (s : State) (o : ObjRow) (b e v : Nat) : (State.putN s o b e v).now = s.now := rfl
@[simp] theorem State.putN_fresh (s : State) (o : ObjRow) (b e v : Nat) : (State.putN s o b e v).fresh = s.fresh := rfl
@[simp] theorem State.putN_blobs (s : State) (o : ObjRow) (b e v : Nat) : (State.putN s o b e v).blobs = s.blobs := rfl
@[simp] theorem State.putN_staged (s : State) (o : ObjRow) (b e v : Nat) : (State.putN s o b e v).staged = s.staged := rfl
@[simp] theorem State.putN_stagedBlobs (s : State) (o : ObjRow) (b e v : Nat) : (State.putN s o b e v).stagedBlobs = s.stagedBlobs := rfl
@[simp] theorem State.putN_epochs (s : State) (o : ObjRow) (b e v : Nat) : (State.putN s o b e v).epochs = s.epochs := rfl
@[simp] theorem State.putN_errName (s : State) (o : ObjRow) (b e v : Nat) : (State.putN s o b e v).errName = s.errName := rfl
@[simp] theorem State.putN_latches (s : State) (o : ObjRow) (b e v : Nat) : (State.putN s o b e v).latches = s.latches := rfl
@[simp] theorem State.putN_out (s : State) (o : ObjRow) (b e v : Nat) : (State.putN s o b e v).out = s.out := rfl
@[simp] theorem State.putN_draws (s : State) (o : ObjRow) (b e v : Nat) : (State.putN s o b e v).draws = s.draws := rfl
@[simp] theorem State.putN_mem (s : State) (o : ObjRow) (b e v : Nat) : (State.putN s o b e v).mem = s.mem := rfl
@[simp] theorem State.putN_lost (s : State) (o : ObjRow) (b e v : Nat) : (State.putN s o b e v).lost = s.lost := rfl
@[simp] theorem State.putN_dramBad (s : State) (o : ObjRow) (b e v : Nat) : (State.putN s o b e v).dramBad = s.dramBad := rfl
@[simp] theorem State.putN_dram (s : State) (o : ObjRow) (b e v : Nat) : (State.putN s o b e v).dram = s.dram := rfl
@[simp] theorem State.putN_scrubFrom (s : State) (o : ObjRow) (b e v : Nat) : (State.putN s o b e v).scrubFrom = s.scrubFrom := rfl
@[simp] theorem State.putN_lattice (s : State) (o : ObjRow) (b e v : Nat) : (State.putN s o b e v).lattice = s.lattice := rfl
@[simp] theorem State.putN_cxl (s : State) (o : ObjRow) (b e v : Nat) : (State.putN s o b e v).cxl = s.cxl := rfl
@[simp] theorem State.putN_access (s : State) (o : ObjRow) (b e v : Nat) : (State.putN s o b e v).access = s.access := rfl
@[simp] theorem State.putN_tim (s : State) (o : ObjRow) (b e v : Nat) : (State.putN s o b e v).tim = s.tim := rfl
@[simp] theorem State.putN_cams (s : State) (o : ObjRow) (b e v : Nat) : (State.putN s o b e v).cams = s.cams := rfl
@[simp] theorem State.putN_rc (s : State) (o : ObjRow) (b e v : Nat) : (State.putN s o b e v).rc = s.rc := rfl
@[simp] theorem State.putN_rg (s : State) (o : ObjRow) (b e v : Nat) : (State.putN s o b e v).rg = s.rg := rfl
@[simp] theorem State.putN_vd (s : State) (o : ObjRow) (b e v : Nat) : (State.putN s o b e v).vd = s.vd := rfl
@[simp] theorem State.putN_atl (s : State) (o : ObjRow) (b e v : Nat) : (State.putN s o b e v).atl = s.atl := rfl
@[simp] theorem State.putN_apipes (s : State) (o : ObjRow) (b e v : Nat) : (State.putN s o b e v).apipes = s.apipes := rfl
@[simp] theorem State.putN_sg (s : State) (o : ObjRow) (b e v : Nat) : (State.putN s o b e v).sg = s.sg := rfl
@[simp] theorem State.putN_ch (s : State) (o : ObjRow) (b e v : Nat) : (State.putN s o b e v).ch = s.ch := rfl
@[simp] theorem State.putN_lanes (s : State) (o : ObjRow) (b e v : Nat) : (State.putN s o b e v).lanes = s.lanes := rfl
@[simp] theorem State.putN_st (s : State) (o : ObjRow) (b e v : Nat) : (State.putN s o b e v).st = s.st := rfl
@[simp] theorem State.putN_judged (s : State) (o : ObjRow) (b e v : Nat) : (State.putN s o b e v).judged = s.judged := rfl
@[simp] theorem State.putN_bank (s : State) (o : ObjRow) (b e v : Nat) : (State.putN s o b e v).bank = s.bank := rfl
@[simp] theorem State.putN_lg (s : State) (o : ObjRow) (b e v : Nat) : (State.putN s o b e v).lg = s.lg := rfl
@[simp] theorem State.putN_vault (s : State) (o : ObjRow) (b e v : Nat) : (State.putN s o b e v).vault = s.vault := rfl
@[simp] theorem State.putN_cont (s : State) (o : ObjRow) (b e v : Nat) : (State.putN s o b e v).cont = s.cont := rfl
@[simp] theorem State.putN_place (s : State) (o : ObjRow) (b e v : Nat) : (State.putN s o b e v).place = s.place := rfl
@[simp] theorem State.putN_slots (s : State) (o : ObjRow) (b e v : Nat) : (State.putN s o b e v).slots = s.slots := rfl
@[simp] theorem State.putN_hist (s : State) (o : ObjRow) (b e v : Nat) : (State.putN s o b e v).hist = s.hist := rfl
@[simp] theorem State.putN_thumbs (s : State) (o : ObjRow) (b e v : Nat) : (State.putN s o b e v).thumbs = s.thumbs := rfl
@[simp] theorem State.putN_rt (s : State) (o : ObjRow) (b e v : Nat) : (State.putN s o b e v).rt = s.rt := rfl
@[simp] theorem State.putN_holdBy (s : State) (o : ObjRow) (b e v : Nat) : (State.putN s o b e v).holdBy = s.holdBy := rfl
@[simp] theorem State.putN_mer (s : State) (o : ObjRow) (b e v : Nat) : (State.putN s o b e v).mer = s.mer := rfl
@[simp] theorem State.putN_fw (s : State) (o : ObjRow) (b e v : Nat) : (State.putN s o b e v).fw = s.fw := rfl
@[simp] theorem State.putN_trans (s : State) (o : ObjRow) (b e v : Nat) : (State.putN s o b e v).trans = s.trans := rfl
@[simp] theorem State.putN_am (s : State) (o : ObjRow) (b e v : Nat) : (State.putN s o b e v).am = s.am := rfl
@[simp] theorem State.putN_cal (s : State) (o : ObjRow) (b e v : Nat) : (State.putN s o b e v).cal = s.cal := rfl
@[simp] theorem State.putN_power (s : State) (o : ObjRow) (b e v : Nat) : (State.putN s o b e v).power = s.power := rfl
@[simp] theorem State.emit_pending (s : State) (x : Out) : (State.emit s x).pending = s.pending := rfl
@[simp] theorem State.emit_now (s : State) (x : Out) : (State.emit s x).now = s.now := rfl
@[simp] theorem State.emit_fresh (s : State) (x : Out) : (State.emit s x).fresh = s.fresh := rfl
@[simp] theorem State.emit_dict (s : State) (x : Out) : (State.emit s x).dict = s.dict := rfl
@[simp] theorem State.emit_blobs (s : State) (x : Out) : (State.emit s x).blobs = s.blobs := rfl
@[simp] theorem State.emit_staged (s : State) (x : Out) : (State.emit s x).staged = s.staged := rfl
@[simp] theorem State.emit_stagedBlobs (s : State) (x : Out) : (State.emit s x).stagedBlobs = s.stagedBlobs := rfl
@[simp] theorem State.emit_epochs (s : State) (x : Out) : (State.emit s x).epochs = s.epochs := rfl
@[simp] theorem State.emit_errName (s : State) (x : Out) : (State.emit s x).errName = s.errName := rfl
@[simp] theorem State.emit_latches (s : State) (x : Out) : (State.emit s x).latches = s.latches := rfl
@[simp] theorem State.emit_draws (s : State) (x : Out) : (State.emit s x).draws = s.draws := rfl
@[simp] theorem State.emit_mem (s : State) (x : Out) : (State.emit s x).mem = s.mem := rfl
@[simp] theorem State.emit_lost (s : State) (x : Out) : (State.emit s x).lost = s.lost := rfl
@[simp] theorem State.emit_dramBad (s : State) (x : Out) : (State.emit s x).dramBad = s.dramBad := rfl
@[simp] theorem State.emit_dram (s : State) (x : Out) : (State.emit s x).dram = s.dram := rfl
@[simp] theorem State.emit_scrubFrom (s : State) (x : Out) : (State.emit s x).scrubFrom = s.scrubFrom := rfl
@[simp] theorem State.emit_lattice (s : State) (x : Out) : (State.emit s x).lattice = s.lattice := rfl
@[simp] theorem State.emit_cxl (s : State) (x : Out) : (State.emit s x).cxl = s.cxl := rfl
@[simp] theorem State.emit_access (s : State) (x : Out) : (State.emit s x).access = s.access := rfl
@[simp] theorem State.emit_tim (s : State) (x : Out) : (State.emit s x).tim = s.tim := rfl
@[simp] theorem State.emit_cams (s : State) (x : Out) : (State.emit s x).cams = s.cams := rfl
@[simp] theorem State.emit_rc (s : State) (x : Out) : (State.emit s x).rc = s.rc := rfl
@[simp] theorem State.emit_rg (s : State) (x : Out) : (State.emit s x).rg = s.rg := rfl
@[simp] theorem State.emit_vd (s : State) (x : Out) : (State.emit s x).vd = s.vd := rfl
@[simp] theorem State.emit_atl (s : State) (x : Out) : (State.emit s x).atl = s.atl := rfl
@[simp] theorem State.emit_apipes (s : State) (x : Out) : (State.emit s x).apipes = s.apipes := rfl
@[simp] theorem State.emit_sg (s : State) (x : Out) : (State.emit s x).sg = s.sg := rfl
@[simp] theorem State.emit_ch (s : State) (x : Out) : (State.emit s x).ch = s.ch := rfl
@[simp] theorem State.emit_lanes (s : State) (x : Out) : (State.emit s x).lanes = s.lanes := rfl
@[simp] theorem State.emit_st (s : State) (x : Out) : (State.emit s x).st = s.st := rfl
@[simp] theorem State.emit_judged (s : State) (x : Out) : (State.emit s x).judged = s.judged := rfl
@[simp] theorem State.emit_bank (s : State) (x : Out) : (State.emit s x).bank = s.bank := rfl
@[simp] theorem State.emit_lg (s : State) (x : Out) : (State.emit s x).lg = s.lg := rfl
@[simp] theorem State.emit_vault (s : State) (x : Out) : (State.emit s x).vault = s.vault := rfl
@[simp] theorem State.emit_cont (s : State) (x : Out) : (State.emit s x).cont = s.cont := rfl
@[simp] theorem State.emit_place (s : State) (x : Out) : (State.emit s x).place = s.place := rfl
@[simp] theorem State.emit_slots (s : State) (x : Out) : (State.emit s x).slots = s.slots := rfl
@[simp] theorem State.emit_hist (s : State) (x : Out) : (State.emit s x).hist = s.hist := rfl
@[simp] theorem State.emit_thumbs (s : State) (x : Out) : (State.emit s x).thumbs = s.thumbs := rfl
@[simp] theorem State.emit_rt (s : State) (x : Out) : (State.emit s x).rt = s.rt := rfl
@[simp] theorem State.emit_holdBy (s : State) (x : Out) : (State.emit s x).holdBy = s.holdBy := rfl
@[simp] theorem State.emit_mer (s : State) (x : Out) : (State.emit s x).mer = s.mer := rfl
@[simp] theorem State.emit_fw (s : State) (x : Out) : (State.emit s x).fw = s.fw := rfl
@[simp] theorem State.emit_trans (s : State) (x : Out) : (State.emit s x).trans = s.trans := rfl
@[simp] theorem State.emit_am (s : State) (x : Out) : (State.emit s x).am = s.am := rfl
@[simp] theorem State.emit_cal (s : State) (x : Out) : (State.emit s x).cal = s.cal := rfl
@[simp] theorem State.emit_power (s : State) (x : Out) : (State.emit s x).power = s.power := rfl
@[simp] theorem State.touch_pending (s : State) (p : Path) : (State.touch s p).pending = s.pending := rfl
@[simp] theorem State.touch_now (s : State) (p : Path) : (State.touch s p).now = s.now := rfl
@[simp] theorem State.touch_fresh (s : State) (p : Path) : (State.touch s p).fresh = s.fresh := rfl
@[simp] theorem State.touch_dict (s : State) (p : Path) : (State.touch s p).dict = s.dict := rfl
@[simp] theorem State.touch_blobs (s : State) (p : Path) : (State.touch s p).blobs = s.blobs := rfl
@[simp] theorem State.touch_staged (s : State) (p : Path) : (State.touch s p).staged = s.staged := rfl
@[simp] theorem State.touch_stagedBlobs (s : State) (p : Path) : (State.touch s p).stagedBlobs = s.stagedBlobs := rfl
@[simp] theorem State.touch_epochs (s : State) (p : Path) : (State.touch s p).epochs = s.epochs := rfl
@[simp] theorem State.touch_errName (s : State) (p : Path) : (State.touch s p).errName = s.errName := rfl
@[simp] theorem State.touch_latches (s : State) (p : Path) : (State.touch s p).latches = s.latches := rfl
@[simp] theorem State.touch_out (s : State) (p : Path) : (State.touch s p).out = s.out := rfl
@[simp] theorem State.touch_draws (s : State) (p : Path) : (State.touch s p).draws = s.draws := rfl
@[simp] theorem State.touch_mem (s : State) (p : Path) : (State.touch s p).mem = s.mem := rfl
@[simp] theorem State.touch_lost (s : State) (p : Path) : (State.touch s p).lost = s.lost := rfl
@[simp] theorem State.touch_dramBad (s : State) (p : Path) : (State.touch s p).dramBad = s.dramBad := rfl
@[simp] theorem State.touch_dram (s : State) (p : Path) : (State.touch s p).dram = s.dram := rfl
@[simp] theorem State.touch_scrubFrom (s : State) (p : Path) : (State.touch s p).scrubFrom = s.scrubFrom := rfl
@[simp] theorem State.touch_lattice (s : State) (p : Path) : (State.touch s p).lattice = s.lattice := rfl
@[simp] theorem State.touch_cxl (s : State) (p : Path) : (State.touch s p).cxl = s.cxl := rfl
@[simp] theorem State.touch_tim (s : State) (p : Path) : (State.touch s p).tim = s.tim := rfl
@[simp] theorem State.touch_cams (s : State) (p : Path) : (State.touch s p).cams = s.cams := rfl
@[simp] theorem State.touch_rc (s : State) (p : Path) : (State.touch s p).rc = s.rc := rfl
@[simp] theorem State.touch_rg (s : State) (p : Path) : (State.touch s p).rg = s.rg := rfl
@[simp] theorem State.touch_vd (s : State) (p : Path) : (State.touch s p).vd = s.vd := rfl
@[simp] theorem State.touch_atl (s : State) (p : Path) : (State.touch s p).atl = s.atl := rfl
@[simp] theorem State.touch_apipes (s : State) (p : Path) : (State.touch s p).apipes = s.apipes := rfl
@[simp] theorem State.touch_sg (s : State) (p : Path) : (State.touch s p).sg = s.sg := rfl
@[simp] theorem State.touch_ch (s : State) (p : Path) : (State.touch s p).ch = s.ch := rfl
@[simp] theorem State.touch_lanes (s : State) (p : Path) : (State.touch s p).lanes = s.lanes := rfl
@[simp] theorem State.touch_st (s : State) (p : Path) : (State.touch s p).st = s.st := rfl
@[simp] theorem State.touch_judged (s : State) (p : Path) : (State.touch s p).judged = s.judged := rfl
@[simp] theorem State.touch_bank (s : State) (p : Path) : (State.touch s p).bank = s.bank := rfl
@[simp] theorem State.touch_lg (s : State) (p : Path) : (State.touch s p).lg = s.lg := rfl
@[simp] theorem State.touch_vault (s : State) (p : Path) : (State.touch s p).vault = s.vault := rfl
@[simp] theorem State.touch_cont (s : State) (p : Path) : (State.touch s p).cont = s.cont := rfl
@[simp] theorem State.touch_place (s : State) (p : Path) : (State.touch s p).place = s.place := rfl
@[simp] theorem State.touch_slots (s : State) (p : Path) : (State.touch s p).slots = s.slots := rfl
@[simp] theorem State.touch_hist (s : State) (p : Path) : (State.touch s p).hist = s.hist := rfl
@[simp] theorem State.touch_thumbs (s : State) (p : Path) : (State.touch s p).thumbs = s.thumbs := rfl
@[simp] theorem State.touch_rt (s : State) (p : Path) : (State.touch s p).rt = s.rt := rfl
@[simp] theorem State.touch_holdBy (s : State) (p : Path) : (State.touch s p).holdBy = s.holdBy := rfl
@[simp] theorem State.touch_mer (s : State) (p : Path) : (State.touch s p).mer = s.mer := rfl
@[simp] theorem State.touch_fw (s : State) (p : Path) : (State.touch s p).fw = s.fw := rfl
@[simp] theorem State.touch_trans (s : State) (p : Path) : (State.touch s p).trans = s.trans := rfl
@[simp] theorem State.touch_am (s : State) (p : Path) : (State.touch s p).am = s.am := rfl
@[simp] theorem State.touch_cal (s : State) (p : Path) : (State.touch s p).cal = s.cal := rfl
@[simp] theorem State.touch_power (s : State) (p : Path) : (State.touch s p).power = s.power := rfl
@[simp] theorem State.answer_pending (s : State) (p : Path) (k r : Nat) : (State.answer s p k r).pending = s.pending := rfl
@[simp] theorem State.answer_now (s : State) (p : Path) (k r : Nat) : (State.answer s p k r).now = s.now := rfl
@[simp] theorem State.answer_fresh (s : State) (p : Path) (k r : Nat) : (State.answer s p k r).fresh = s.fresh := rfl
@[simp] theorem State.answer_dict (s : State) (p : Path) (k r : Nat) : (State.answer s p k r).dict = s.dict := rfl
@[simp] theorem State.answer_blobs (s : State) (p : Path) (k r : Nat) : (State.answer s p k r).blobs = s.blobs := rfl
@[simp] theorem State.answer_staged (s : State) (p : Path) (k r : Nat) : (State.answer s p k r).staged = s.staged := rfl
@[simp] theorem State.answer_stagedBlobs (s : State) (p : Path) (k r : Nat) : (State.answer s p k r).stagedBlobs = s.stagedBlobs := rfl
@[simp] theorem State.answer_epochs (s : State) (p : Path) (k r : Nat) : (State.answer s p k r).epochs = s.epochs := rfl
@[simp] theorem State.answer_errName (s : State) (p : Path) (k r : Nat) : (State.answer s p k r).errName = s.errName := rfl
@[simp] theorem State.answer_latches (s : State) (p : Path) (k r : Nat) : (State.answer s p k r).latches = s.latches := rfl
@[simp] theorem State.answer_draws (s : State) (p : Path) (k r : Nat) : (State.answer s p k r).draws = s.draws := rfl
@[simp] theorem State.answer_mem (s : State) (p : Path) (k r : Nat) : (State.answer s p k r).mem = s.mem := rfl
@[simp] theorem State.answer_lost (s : State) (p : Path) (k r : Nat) : (State.answer s p k r).lost = s.lost := rfl
@[simp] theorem State.answer_dramBad (s : State) (p : Path) (k r : Nat) : (State.answer s p k r).dramBad = s.dramBad := rfl
@[simp] theorem State.answer_dram (s : State) (p : Path) (k r : Nat) : (State.answer s p k r).dram = s.dram := rfl
@[simp] theorem State.answer_scrubFrom (s : State) (p : Path) (k r : Nat) : (State.answer s p k r).scrubFrom = s.scrubFrom := rfl
@[simp] theorem State.answer_lattice (s : State) (p : Path) (k r : Nat) : (State.answer s p k r).lattice = s.lattice := rfl
@[simp] theorem State.answer_cxl (s : State) (p : Path) (k r : Nat) : (State.answer s p k r).cxl = s.cxl := rfl
@[simp] theorem State.answer_access (s : State) (p : Path) (k r : Nat) : (State.answer s p k r).access = s.access := rfl
@[simp] theorem State.answer_tim (s : State) (p : Path) (k r : Nat) : (State.answer s p k r).tim = s.tim := rfl
@[simp] theorem State.answer_cams (s : State) (p : Path) (k r : Nat) : (State.answer s p k r).cams = s.cams := rfl
@[simp] theorem State.answer_rc (s : State) (p : Path) (k r : Nat) : (State.answer s p k r).rc = s.rc := rfl
@[simp] theorem State.answer_rg (s : State) (p : Path) (k r : Nat) : (State.answer s p k r).rg = s.rg := rfl
@[simp] theorem State.answer_vd (s : State) (p : Path) (k r : Nat) : (State.answer s p k r).vd = s.vd := rfl
@[simp] theorem State.answer_atl (s : State) (p : Path) (k r : Nat) : (State.answer s p k r).atl = s.atl := rfl
@[simp] theorem State.answer_apipes (s : State) (p : Path) (k r : Nat) : (State.answer s p k r).apipes = s.apipes := rfl
@[simp] theorem State.answer_sg (s : State) (p : Path) (k r : Nat) : (State.answer s p k r).sg = s.sg := rfl
@[simp] theorem State.answer_ch (s : State) (p : Path) (k r : Nat) : (State.answer s p k r).ch = s.ch := rfl
@[simp] theorem State.answer_lanes (s : State) (p : Path) (k r : Nat) : (State.answer s p k r).lanes = s.lanes := rfl
@[simp] theorem State.answer_st (s : State) (p : Path) (k r : Nat) : (State.answer s p k r).st = s.st := rfl
@[simp] theorem State.answer_judged (s : State) (p : Path) (k r : Nat) : (State.answer s p k r).judged = s.judged := rfl
@[simp] theorem State.answer_bank (s : State) (p : Path) (k r : Nat) : (State.answer s p k r).bank = s.bank := rfl
@[simp] theorem State.answer_lg (s : State) (p : Path) (k r : Nat) : (State.answer s p k r).lg = s.lg := rfl
@[simp] theorem State.answer_vault (s : State) (p : Path) (k r : Nat) : (State.answer s p k r).vault = s.vault := rfl
@[simp] theorem State.answer_cont (s : State) (p : Path) (k r : Nat) : (State.answer s p k r).cont = s.cont := rfl
@[simp] theorem State.answer_place (s : State) (p : Path) (k r : Nat) : (State.answer s p k r).place = s.place := rfl
@[simp] theorem State.answer_slots (s : State) (p : Path) (k r : Nat) : (State.answer s p k r).slots = s.slots := rfl
@[simp] theorem State.answer_hist (s : State) (p : Path) (k r : Nat) : (State.answer s p k r).hist = s.hist := rfl
@[simp] theorem State.answer_thumbs (s : State) (p : Path) (k r : Nat) : (State.answer s p k r).thumbs = s.thumbs := rfl
@[simp] theorem State.answer_rt (s : State) (p : Path) (k r : Nat) : (State.answer s p k r).rt = s.rt := rfl
@[simp] theorem State.answer_holdBy (s : State) (p : Path) (k r : Nat) : (State.answer s p k r).holdBy = s.holdBy := rfl
@[simp] theorem State.answer_mer (s : State) (p : Path) (k r : Nat) : (State.answer s p k r).mer = s.mer := rfl
@[simp] theorem State.answer_fw (s : State) (p : Path) (k r : Nat) : (State.answer s p k r).fw = s.fw := rfl
@[simp] theorem State.answer_trans (s : State) (p : Path) (k r : Nat) : (State.answer s p k r).trans = s.trans := rfl
@[simp] theorem State.answer_am (s : State) (p : Path) (k r : Nat) : (State.answer s p k r).am = s.am := rfl
@[simp] theorem State.answer_cal (s : State) (p : Path) (k r : Nat) : (State.answer s p k r).cal = s.cal := rfl
@[simp] theorem State.answer_power (s : State) (p : Path) (k r : Nat) : (State.answer s p k r).power = s.power := rfl
@[simp] theorem State.setBit_pending (s : State) (o : ObjRow) (b e i : Nat) (v : Bool) : (State.setBit s o b e i v).pending = s.pending := rfl
@[simp] theorem State.setBit_now (s : State) (o : ObjRow) (b e i : Nat) (v : Bool) : (State.setBit s o b e i v).now = s.now := rfl
@[simp] theorem State.setBit_fresh (s : State) (o : ObjRow) (b e i : Nat) (v : Bool) : (State.setBit s o b e i v).fresh = s.fresh := rfl
@[simp] theorem State.setBit_blobs (s : State) (o : ObjRow) (b e i : Nat) (v : Bool) : (State.setBit s o b e i v).blobs = s.blobs := rfl
@[simp] theorem State.setBit_staged (s : State) (o : ObjRow) (b e i : Nat) (v : Bool) : (State.setBit s o b e i v).staged = s.staged := rfl
@[simp] theorem State.setBit_stagedBlobs (s : State) (o : ObjRow) (b e i : Nat) (v : Bool) : (State.setBit s o b e i v).stagedBlobs = s.stagedBlobs := rfl
@[simp] theorem State.setBit_epochs (s : State) (o : ObjRow) (b e i : Nat) (v : Bool) : (State.setBit s o b e i v).epochs = s.epochs := rfl
@[simp] theorem State.setBit_errName (s : State) (o : ObjRow) (b e i : Nat) (v : Bool) : (State.setBit s o b e i v).errName = s.errName := rfl
@[simp] theorem State.setBit_latches (s : State) (o : ObjRow) (b e i : Nat) (v : Bool) : (State.setBit s o b e i v).latches = s.latches := rfl
@[simp] theorem State.setBit_out (s : State) (o : ObjRow) (b e i : Nat) (v : Bool) : (State.setBit s o b e i v).out = s.out := rfl
@[simp] theorem State.setBit_draws (s : State) (o : ObjRow) (b e i : Nat) (v : Bool) : (State.setBit s o b e i v).draws = s.draws := rfl
@[simp] theorem State.setBit_mem (s : State) (o : ObjRow) (b e i : Nat) (v : Bool) : (State.setBit s o b e i v).mem = s.mem := rfl
@[simp] theorem State.setBit_lost (s : State) (o : ObjRow) (b e i : Nat) (v : Bool) : (State.setBit s o b e i v).lost = s.lost := rfl
@[simp] theorem State.setBit_dramBad (s : State) (o : ObjRow) (b e i : Nat) (v : Bool) : (State.setBit s o b e i v).dramBad = s.dramBad := rfl
@[simp] theorem State.setBit_dram (s : State) (o : ObjRow) (b e i : Nat) (v : Bool) : (State.setBit s o b e i v).dram = s.dram := rfl
@[simp] theorem State.setBit_scrubFrom (s : State) (o : ObjRow) (b e i : Nat) (v : Bool) : (State.setBit s o b e i v).scrubFrom = s.scrubFrom := rfl
@[simp] theorem State.setBit_lattice (s : State) (o : ObjRow) (b e i : Nat) (v : Bool) : (State.setBit s o b e i v).lattice = s.lattice := rfl
@[simp] theorem State.setBit_cxl (s : State) (o : ObjRow) (b e i : Nat) (v : Bool) : (State.setBit s o b e i v).cxl = s.cxl := rfl
@[simp] theorem State.setBit_access (s : State) (o : ObjRow) (b e i : Nat) (v : Bool) : (State.setBit s o b e i v).access = s.access := rfl
@[simp] theorem State.setBit_tim (s : State) (o : ObjRow) (b e i : Nat) (v : Bool) : (State.setBit s o b e i v).tim = s.tim := rfl
@[simp] theorem State.setBit_cams (s : State) (o : ObjRow) (b e i : Nat) (v : Bool) : (State.setBit s o b e i v).cams = s.cams := rfl
@[simp] theorem State.setBit_rc (s : State) (o : ObjRow) (b e i : Nat) (v : Bool) : (State.setBit s o b e i v).rc = s.rc := rfl
@[simp] theorem State.setBit_rg (s : State) (o : ObjRow) (b e i : Nat) (v : Bool) : (State.setBit s o b e i v).rg = s.rg := rfl
@[simp] theorem State.setBit_vd (s : State) (o : ObjRow) (b e i : Nat) (v : Bool) : (State.setBit s o b e i v).vd = s.vd := rfl
@[simp] theorem State.setBit_atl (s : State) (o : ObjRow) (b e i : Nat) (v : Bool) : (State.setBit s o b e i v).atl = s.atl := rfl
@[simp] theorem State.setBit_apipes (s : State) (o : ObjRow) (b e i : Nat) (v : Bool) : (State.setBit s o b e i v).apipes = s.apipes := rfl
@[simp] theorem State.setBit_sg (s : State) (o : ObjRow) (b e i : Nat) (v : Bool) : (State.setBit s o b e i v).sg = s.sg := rfl
@[simp] theorem State.setBit_ch (s : State) (o : ObjRow) (b e i : Nat) (v : Bool) : (State.setBit s o b e i v).ch = s.ch := rfl
@[simp] theorem State.setBit_lanes (s : State) (o : ObjRow) (b e i : Nat) (v : Bool) : (State.setBit s o b e i v).lanes = s.lanes := rfl
@[simp] theorem State.setBit_st (s : State) (o : ObjRow) (b e i : Nat) (v : Bool) : (State.setBit s o b e i v).st = s.st := rfl
@[simp] theorem State.setBit_judged (s : State) (o : ObjRow) (b e i : Nat) (v : Bool) : (State.setBit s o b e i v).judged = s.judged := rfl
@[simp] theorem State.setBit_bank (s : State) (o : ObjRow) (b e i : Nat) (v : Bool) : (State.setBit s o b e i v).bank = s.bank := rfl
@[simp] theorem State.setBit_lg (s : State) (o : ObjRow) (b e i : Nat) (v : Bool) : (State.setBit s o b e i v).lg = s.lg := rfl
@[simp] theorem State.setBit_vault (s : State) (o : ObjRow) (b e i : Nat) (v : Bool) : (State.setBit s o b e i v).vault = s.vault := rfl
@[simp] theorem State.setBit_cont (s : State) (o : ObjRow) (b e i : Nat) (v : Bool) : (State.setBit s o b e i v).cont = s.cont := rfl
@[simp] theorem State.setBit_place (s : State) (o : ObjRow) (b e i : Nat) (v : Bool) : (State.setBit s o b e i v).place = s.place := rfl
@[simp] theorem State.setBit_slots (s : State) (o : ObjRow) (b e i : Nat) (v : Bool) : (State.setBit s o b e i v).slots = s.slots := rfl
@[simp] theorem State.setBit_hist (s : State) (o : ObjRow) (b e i : Nat) (v : Bool) : (State.setBit s o b e i v).hist = s.hist := rfl
@[simp] theorem State.setBit_thumbs (s : State) (o : ObjRow) (b e i : Nat) (v : Bool) : (State.setBit s o b e i v).thumbs = s.thumbs := rfl
@[simp] theorem State.setBit_rt (s : State) (o : ObjRow) (b e i : Nat) (v : Bool) : (State.setBit s o b e i v).rt = s.rt := rfl
@[simp] theorem State.setBit_holdBy (s : State) (o : ObjRow) (b e i : Nat) (v : Bool) : (State.setBit s o b e i v).holdBy = s.holdBy := rfl
@[simp] theorem State.setBit_mer (s : State) (o : ObjRow) (b e i : Nat) (v : Bool) : (State.setBit s o b e i v).mer = s.mer := rfl
@[simp] theorem State.setBit_fw (s : State) (o : ObjRow) (b e i : Nat) (v : Bool) : (State.setBit s o b e i v).fw = s.fw := rfl
@[simp] theorem State.setBit_trans (s : State) (o : ObjRow) (b e i : Nat) (v : Bool) : (State.setBit s o b e i v).trans = s.trans := rfl
@[simp] theorem State.setBit_am (s : State) (o : ObjRow) (b e i : Nat) (v : Bool) : (State.setBit s o b e i v).am = s.am := rfl
@[simp] theorem State.setBit_cal (s : State) (o : ObjRow) (b e i : Nat) (v : Bool) : (State.setBit s o b e i v).cal = s.cal := rfl
@[simp] theorem State.setBit_power (s : State) (o : ObjRow) (b e i : Nat) (v : Bool) : (State.setBit s o b e i v).power = s.power := rfl
@[simp] theorem State.setField_pending (s : State) (o : ObjRow) (b e lo n v : Nat) : (State.setField s o b e lo n v).pending = s.pending := rfl
@[simp] theorem State.setField_now (s : State) (o : ObjRow) (b e lo n v : Nat) : (State.setField s o b e lo n v).now = s.now := rfl
@[simp] theorem State.setField_fresh (s : State) (o : ObjRow) (b e lo n v : Nat) : (State.setField s o b e lo n v).fresh = s.fresh := rfl
@[simp] theorem State.setField_blobs (s : State) (o : ObjRow) (b e lo n v : Nat) : (State.setField s o b e lo n v).blobs = s.blobs := rfl
@[simp] theorem State.setField_staged (s : State) (o : ObjRow) (b e lo n v : Nat) : (State.setField s o b e lo n v).staged = s.staged := rfl
@[simp] theorem State.setField_stagedBlobs (s : State) (o : ObjRow) (b e lo n v : Nat) : (State.setField s o b e lo n v).stagedBlobs = s.stagedBlobs := rfl
@[simp] theorem State.setField_epochs (s : State) (o : ObjRow) (b e lo n v : Nat) : (State.setField s o b e lo n v).epochs = s.epochs := rfl
@[simp] theorem State.setField_errName (s : State) (o : ObjRow) (b e lo n v : Nat) : (State.setField s o b e lo n v).errName = s.errName := rfl
@[simp] theorem State.setField_latches (s : State) (o : ObjRow) (b e lo n v : Nat) : (State.setField s o b e lo n v).latches = s.latches := rfl
@[simp] theorem State.setField_out (s : State) (o : ObjRow) (b e lo n v : Nat) : (State.setField s o b e lo n v).out = s.out := rfl
@[simp] theorem State.setField_draws (s : State) (o : ObjRow) (b e lo n v : Nat) : (State.setField s o b e lo n v).draws = s.draws := rfl
@[simp] theorem State.setField_mem (s : State) (o : ObjRow) (b e lo n v : Nat) : (State.setField s o b e lo n v).mem = s.mem := rfl
@[simp] theorem State.setField_lost (s : State) (o : ObjRow) (b e lo n v : Nat) : (State.setField s o b e lo n v).lost = s.lost := rfl
@[simp] theorem State.setField_dramBad (s : State) (o : ObjRow) (b e lo n v : Nat) : (State.setField s o b e lo n v).dramBad = s.dramBad := rfl
@[simp] theorem State.setField_dram (s : State) (o : ObjRow) (b e lo n v : Nat) : (State.setField s o b e lo n v).dram = s.dram := rfl
@[simp] theorem State.setField_scrubFrom (s : State) (o : ObjRow) (b e lo n v : Nat) : (State.setField s o b e lo n v).scrubFrom = s.scrubFrom := rfl
@[simp] theorem State.setField_lattice (s : State) (o : ObjRow) (b e lo n v : Nat) : (State.setField s o b e lo n v).lattice = s.lattice := rfl
@[simp] theorem State.setField_cxl (s : State) (o : ObjRow) (b e lo n v : Nat) : (State.setField s o b e lo n v).cxl = s.cxl := rfl
@[simp] theorem State.setField_access (s : State) (o : ObjRow) (b e lo n v : Nat) : (State.setField s o b e lo n v).access = s.access := rfl
@[simp] theorem State.setField_tim (s : State) (o : ObjRow) (b e lo n v : Nat) : (State.setField s o b e lo n v).tim = s.tim := rfl
@[simp] theorem State.setField_cams (s : State) (o : ObjRow) (b e lo n v : Nat) : (State.setField s o b e lo n v).cams = s.cams := rfl
@[simp] theorem State.setField_rc (s : State) (o : ObjRow) (b e lo n v : Nat) : (State.setField s o b e lo n v).rc = s.rc := rfl
@[simp] theorem State.setField_rg (s : State) (o : ObjRow) (b e lo n v : Nat) : (State.setField s o b e lo n v).rg = s.rg := rfl
@[simp] theorem State.setField_vd (s : State) (o : ObjRow) (b e lo n v : Nat) : (State.setField s o b e lo n v).vd = s.vd := rfl
@[simp] theorem State.setField_atl (s : State) (o : ObjRow) (b e lo n v : Nat) : (State.setField s o b e lo n v).atl = s.atl := rfl
@[simp] theorem State.setField_apipes (s : State) (o : ObjRow) (b e lo n v : Nat) : (State.setField s o b e lo n v).apipes = s.apipes := rfl
@[simp] theorem State.setField_sg (s : State) (o : ObjRow) (b e lo n v : Nat) : (State.setField s o b e lo n v).sg = s.sg := rfl
@[simp] theorem State.setField_ch (s : State) (o : ObjRow) (b e lo n v : Nat) : (State.setField s o b e lo n v).ch = s.ch := rfl
@[simp] theorem State.setField_lanes (s : State) (o : ObjRow) (b e lo n v : Nat) : (State.setField s o b e lo n v).lanes = s.lanes := rfl
@[simp] theorem State.setField_st (s : State) (o : ObjRow) (b e lo n v : Nat) : (State.setField s o b e lo n v).st = s.st := rfl
@[simp] theorem State.setField_judged (s : State) (o : ObjRow) (b e lo n v : Nat) : (State.setField s o b e lo n v).judged = s.judged := rfl
@[simp] theorem State.setField_bank (s : State) (o : ObjRow) (b e lo n v : Nat) : (State.setField s o b e lo n v).bank = s.bank := rfl
@[simp] theorem State.setField_lg (s : State) (o : ObjRow) (b e lo n v : Nat) : (State.setField s o b e lo n v).lg = s.lg := rfl
@[simp] theorem State.setField_vault (s : State) (o : ObjRow) (b e lo n v : Nat) : (State.setField s o b e lo n v).vault = s.vault := rfl
@[simp] theorem State.setField_cont (s : State) (o : ObjRow) (b e lo n v : Nat) : (State.setField s o b e lo n v).cont = s.cont := rfl
@[simp] theorem State.setField_place (s : State) (o : ObjRow) (b e lo n v : Nat) : (State.setField s o b e lo n v).place = s.place := rfl
@[simp] theorem State.setField_slots (s : State) (o : ObjRow) (b e lo n v : Nat) : (State.setField s o b e lo n v).slots = s.slots := rfl
@[simp] theorem State.setField_hist (s : State) (o : ObjRow) (b e lo n v : Nat) : (State.setField s o b e lo n v).hist = s.hist := rfl
@[simp] theorem State.setField_thumbs (s : State) (o : ObjRow) (b e lo n v : Nat) : (State.setField s o b e lo n v).thumbs = s.thumbs := rfl
@[simp] theorem State.setField_rt (s : State) (o : ObjRow) (b e lo n v : Nat) : (State.setField s o b e lo n v).rt = s.rt := rfl
@[simp] theorem State.setField_holdBy (s : State) (o : ObjRow) (b e lo n v : Nat) : (State.setField s o b e lo n v).holdBy = s.holdBy := rfl
@[simp] theorem State.setField_mer (s : State) (o : ObjRow) (b e lo n v : Nat) : (State.setField s o b e lo n v).mer = s.mer := rfl
@[simp] theorem State.setField_fw (s : State) (o : ObjRow) (b e lo n v : Nat) : (State.setField s o b e lo n v).fw = s.fw := rfl
@[simp] theorem State.setField_trans (s : State) (o : ObjRow) (b e lo n v : Nat) : (State.setField s o b e lo n v).trans = s.trans := rfl
@[simp] theorem State.setField_am (s : State) (o : ObjRow) (b e lo n v : Nat) : (State.setField s o b e lo n v).am = s.am := rfl
@[simp] theorem State.setField_cal (s : State) (o : ObjRow) (b e lo n v : Nat) : (State.setField s o b e lo n v).cal = s.cal := rfl
@[simp] theorem State.setField_power (s : State) (o : ObjRow) (b e lo n v : Nat) : (State.setField s o b e lo n v).power = s.power := rfl
@[simp] theorem State.count_pending (s : State) (o : ObjRow) (b e n : Nat) : (State.count s o b e n).pending = s.pending := rfl
@[simp] theorem State.count_now (s : State) (o : ObjRow) (b e n : Nat) : (State.count s o b e n).now = s.now := rfl
@[simp] theorem State.count_blobs (s : State) (o : ObjRow) (b e n : Nat) : (State.count s o b e n).blobs = s.blobs := rfl
@[simp] theorem State.count_staged (s : State) (o : ObjRow) (b e n : Nat) : (State.count s o b e n).staged = s.staged := rfl
@[simp] theorem State.count_stagedBlobs (s : State) (o : ObjRow) (b e n : Nat) : (State.count s o b e n).stagedBlobs = s.stagedBlobs := rfl
@[simp] theorem State.count_epochs (s : State) (o : ObjRow) (b e n : Nat) : (State.count s o b e n).epochs = s.epochs := rfl
@[simp] theorem State.count_errName (s : State) (o : ObjRow) (b e n : Nat) : (State.count s o b e n).errName = s.errName := rfl
@[simp] theorem State.count_latches (s : State) (o : ObjRow) (b e n : Nat) : (State.count s o b e n).latches = s.latches := rfl
@[simp] theorem State.count_out (s : State) (o : ObjRow) (b e n : Nat) : (State.count s o b e n).out = s.out := rfl
@[simp] theorem State.count_draws (s : State) (o : ObjRow) (b e n : Nat) : (State.count s o b e n).draws = s.draws := rfl
@[simp] theorem State.count_mem (s : State) (o : ObjRow) (b e n : Nat) : (State.count s o b e n).mem = s.mem := rfl
@[simp] theorem State.count_lost (s : State) (o : ObjRow) (b e n : Nat) : (State.count s o b e n).lost = s.lost := rfl
@[simp] theorem State.count_dramBad (s : State) (o : ObjRow) (b e n : Nat) : (State.count s o b e n).dramBad = s.dramBad := rfl
@[simp] theorem State.count_dram (s : State) (o : ObjRow) (b e n : Nat) : (State.count s o b e n).dram = s.dram := rfl
@[simp] theorem State.count_scrubFrom (s : State) (o : ObjRow) (b e n : Nat) : (State.count s o b e n).scrubFrom = s.scrubFrom := rfl
@[simp] theorem State.count_lattice (s : State) (o : ObjRow) (b e n : Nat) : (State.count s o b e n).lattice = s.lattice := rfl
@[simp] theorem State.count_cxl (s : State) (o : ObjRow) (b e n : Nat) : (State.count s o b e n).cxl = s.cxl := rfl
@[simp] theorem State.count_access (s : State) (o : ObjRow) (b e n : Nat) : (State.count s o b e n).access = s.access := rfl
@[simp] theorem State.count_tim (s : State) (o : ObjRow) (b e n : Nat) : (State.count s o b e n).tim = s.tim := rfl
@[simp] theorem State.count_cams (s : State) (o : ObjRow) (b e n : Nat) : (State.count s o b e n).cams = s.cams := rfl
@[simp] theorem State.count_rc (s : State) (o : ObjRow) (b e n : Nat) : (State.count s o b e n).rc = s.rc := rfl
@[simp] theorem State.count_rg (s : State) (o : ObjRow) (b e n : Nat) : (State.count s o b e n).rg = s.rg := rfl
@[simp] theorem State.count_vd (s : State) (o : ObjRow) (b e n : Nat) : (State.count s o b e n).vd = s.vd := rfl
@[simp] theorem State.count_atl (s : State) (o : ObjRow) (b e n : Nat) : (State.count s o b e n).atl = s.atl := rfl
@[simp] theorem State.count_apipes (s : State) (o : ObjRow) (b e n : Nat) : (State.count s o b e n).apipes = s.apipes := rfl
@[simp] theorem State.count_sg (s : State) (o : ObjRow) (b e n : Nat) : (State.count s o b e n).sg = s.sg := rfl
@[simp] theorem State.count_ch (s : State) (o : ObjRow) (b e n : Nat) : (State.count s o b e n).ch = s.ch := rfl
@[simp] theorem State.count_lanes (s : State) (o : ObjRow) (b e n : Nat) : (State.count s o b e n).lanes = s.lanes := rfl
@[simp] theorem State.count_st (s : State) (o : ObjRow) (b e n : Nat) : (State.count s o b e n).st = s.st := rfl
@[simp] theorem State.count_judged (s : State) (o : ObjRow) (b e n : Nat) : (State.count s o b e n).judged = s.judged := rfl
@[simp] theorem State.count_bank (s : State) (o : ObjRow) (b e n : Nat) : (State.count s o b e n).bank = s.bank := rfl
@[simp] theorem State.count_lg (s : State) (o : ObjRow) (b e n : Nat) : (State.count s o b e n).lg = s.lg := rfl
@[simp] theorem State.count_vault (s : State) (o : ObjRow) (b e n : Nat) : (State.count s o b e n).vault = s.vault := rfl
@[simp] theorem State.count_cont (s : State) (o : ObjRow) (b e n : Nat) : (State.count s o b e n).cont = s.cont := rfl
@[simp] theorem State.count_place (s : State) (o : ObjRow) (b e n : Nat) : (State.count s o b e n).place = s.place := rfl
@[simp] theorem State.count_slots (s : State) (o : ObjRow) (b e n : Nat) : (State.count s o b e n).slots = s.slots := rfl
@[simp] theorem State.count_hist (s : State) (o : ObjRow) (b e n : Nat) : (State.count s o b e n).hist = s.hist := rfl
@[simp] theorem State.count_thumbs (s : State) (o : ObjRow) (b e n : Nat) : (State.count s o b e n).thumbs = s.thumbs := rfl
@[simp] theorem State.count_rt (s : State) (o : ObjRow) (b e n : Nat) : (State.count s o b e n).rt = s.rt := rfl
@[simp] theorem State.count_holdBy (s : State) (o : ObjRow) (b e n : Nat) : (State.count s o b e n).holdBy = s.holdBy := rfl
@[simp] theorem State.count_mer (s : State) (o : ObjRow) (b e n : Nat) : (State.count s o b e n).mer = s.mer := rfl
@[simp] theorem State.count_fw (s : State) (o : ObjRow) (b e n : Nat) : (State.count s o b e n).fw = s.fw := rfl
@[simp] theorem State.count_trans (s : State) (o : ObjRow) (b e n : Nat) : (State.count s o b e n).trans = s.trans := rfl
@[simp] theorem State.count_am (s : State) (o : ObjRow) (b e n : Nat) : (State.count s o b e n).am = s.am := rfl
@[simp] theorem State.count_cal (s : State) (o : ObjRow) (b e n : Nat) : (State.count s o b e n).cal = s.cal := rfl
@[simp] theorem State.count_power (s : State) (o : ObjRow) (b e n : Nat) : (State.count s o b e n).power = s.power := rfl

end Sys2Proof.Machine
end

