-- ==== Sys2Proof/Laws/Registers.lean ====
section
/-! SUPPORT. Registers: what a write of one leaves of the others, and which of them a named event can change. -/

set_option maxRecDepth 4000
set_option linter.unusedSimpArgs false

namespace Sys2Proof.Machine

open Sys2Proof

/-- R449, R453: the registers that a named event or a source's event can change. -/
def isEventReg (k : Nat) : Bool :=
  [0x1020, 0x1021, 0xa000, 0xa003, 0xa004, 0xa005, 0xa006, 0xa007, 0xa00a].contains (k / 256) ||
    (decide (0xa100 ≤ k / 256) && decide (k / 256 < 0xa140))

/-- What the dictionary lists at a key. -/
def State.reg (d : Int) (k : Nat) (s : State) : Int := look s.dict d k

theorem reg_blind (d : Int) (k : Nat) : Blind (State.reg d k) [.pending, .now, .blobs, .staged, .stagedBlobs, .epochs, .errName, .latches, .out, .draws, .mem, .lost, .dram, .lattice, .cxl, .access, .tim, .cams, .rc, .rg, .vd, .atl, .sg, .ch, .st, .judged, .bank, .lg, .vault, .cont, .place, .slots, .hist, .thumbs, .rt, .holdBy, .mer, .fw, .trans, .am, .cal, .power] := by
  intro s u h
  have h1 : u.dict = s.dict := h .dict rfl
  simp [State.reg, h1]

theorem foldl_keep {α β : Type} (φ : State → α) (f : State → β → State) (l : List β) (s : State)
    (h : ∀ a, ∀ x ∈ l, φ (f a x) = φ a) : φ (l.foldl f s) = φ s := by
  induction l generalizing s with
  | nil => rfl
  | cons x r ih =>
    rw [List.foldl_cons, ih _ (fun a y hy => h a y (List.mem_cons_of_mem x hy)), h s x (List.mem_cons_self ..)]

@[simp] theorem reg_put (d : Int) (k : Nat) (s : State) (o : ObjRow) (b e : Nat) (v : Int) (h : k ≠ o.key b e) :
    State.reg d k (s.put o b e v) = State.reg d k s := by
  simp [State.reg, State.put, look_store_other, h]

@[simp] theorem reg_putN (d : Int) (k : Nat) (s : State) (o : ObjRow) (b e v : Nat) (h : k ≠ o.key b e) :
    State.reg d k (s.putN o b e v) = State.reg d k s := reg_put d k s o b e _ h

@[simp] theorem reg_count (d : Int) (k : Nat) (s : State) (o : ObjRow) (b e n : Nat) (h : k ≠ o.key b e) :
    State.reg d k (s.count o b e n) = State.reg d k s := reg_put d k s o b e _ h

@[simp] theorem reg_setBit (d : Int) (k : Nat) (s : State) (o : ObjRow) (b e i : Nat) (v : Bool) (h : k ≠ o.key b e) :
    State.reg d k (s.setBit o b e i v) = State.reg d k s := reg_put d k s o b e _ h

@[simp] theorem reg_setField (d : Int) (k : Nat) (s : State) (o : ObjRow) (b e lo n v : Nat) (h : k ≠ o.key b e) :
    State.reg d k (s.setField o b e lo n v) = State.reg d k s := reg_put d k s o b e _ h

theorem ne_of_div {a b : Nat} (h : a / 256 ≠ b / 256) : a ≠ b := fun e => h (e ▸ rfl)

theorem eventReg_ne {k j : Nat} (hk : isEventReg k = false) (hj : isEventReg j = true) : k ≠ j := by
  intro e
  rw [e, hj] at hk
  cases hk

theorem reg_see (d : Int) (k : Nat) (s : State) : see (State.reg d k) s = State.reg d k s := rfl

@[simp] theorem reg_emit (d : Int) (k : Nat) (s : State) (x : Out) : State.reg d k (s.emit x) = State.reg d k s := rfl

@[simp] theorem reg_causeOf (d : Int) (k : Nat) (s : State) (n : Nat) : State.reg d k (s.causeOf n) = State.reg d k s :=
  by rw [← reg_see, State.causeOf_see _ ((reg_blind d k).mono rfl), reg_see]

@[simp] theorem reg_vector (d : Int) (k : Nat) (s : State) (n : Nat) : State.reg d k (s.vector n) = State.reg d k s :=
  State.vector_see (State.reg d k) ((reg_blind d k).mono rfl) s n

theorem evCh_reg (o : ObjRow) (n : Nat) (hn : n < 64) (h : o.sub = 0 ∧ o.stride = 0 ∧ isEventReg (o.index * 256) = true) :
    isEventReg (o.key 0 n) = true := by
  obtain ⟨h0, h1, h2⟩ := h
  have : o.key 0 n / 256 = o.index * 256 / 256 := by
    simp only [ObjRow.key, h0, h1]; omega
  unfold isEventReg at h2 ⊢
  rw [this]; exact h2

theorem evCfg_reg (n : Nat) (hn : n < 64) : isEventReg (Obj.EV_CH_CONFIG.key n 0) = true := by
  have : Obj.EV_CH_CONFIG.key n 0 / 256 = 0xa100 + n := by
    simp only [ObjRow.key, Obj.EV_CH_CONFIG]; omega
  unfold isEventReg
  rw [this]
  have h1 : 0xa100 + n < 0xa140 := by omega
  simp [h1]

theorem reg_channelLoop (d : Int) (k : Nat) (s : State) (n cfg : Nat) (hn : n < 64) (hk : isEventReg k = false) :
    State.reg d k (s.channelLoop n cfg).1 = State.reg d k s := by
  unfold State.channelLoop
  simp only []
  split
  · rw [reg_putN, reg_putN, reg_putN, reg_count]
    · exact eventReg_ne hk (evCh_reg Obj.EV_CH_LOOP n hn (by decide))
    · exact eventReg_ne hk (evCfg_reg n hn)
    · exact eventReg_ne hk (evCh_reg Obj.EV_CH_STATE n hn (by decide))
    · exact eventReg_ne hk (by decide)
  · exact reg_count d k s _ 0 n 1 (eventReg_ne hk (evCh_reg Obj.EV_CH_LOOP n hn (by decide)))

theorem reg_channelEvent (d : Int) (k : Nat) (s : State) (src : Nat) (tags : List Nat) (n : Nat) (hn : n < 64)
    (hk : isEventReg k = false) : State.reg d k (s.channelEvent src tags n).1 = State.reg d k s := by
  have hc : ∀ (a : State) (o : ObjRow), (o.sub = 0 ∧ o.stride = 0 ∧ isEventReg (o.index * 256) = true) →
      State.reg d k (a.count o 0 n 1) = State.reg d k a :=
    fun a o h => reg_count d k a o 0 n 1 (eventReg_ne hk (evCh_reg o n hn h))
  unfold State.channelEvent
  simp only []
  split
  · split
    · rfl
    · split
      · exact reg_channelLoop d k s n _ hn hk
      · split
        · exact hc s _ (by decide)
        · split
          · exact hc s _ (by decide)
          · exact hc s Obj.EV_CH_FIRED (by decide)
  · rfl

theorem reg_channels (d : Int) (k : Nat) (s : State) (src : Nat) (tags : List Nat) (m : Nat) (hm : m ≤ 64)
    (hk : isEventReg k = false) :
    State.reg d k (s.channels src tags m).1 = State.reg d k s ∧ ∀ n ∈ (s.channels src tags m).2, n < 64 := by
  unfold State.channels
  have h : ∀ (l : List Nat) (p : State × List Nat), (∀ x ∈ l, x < 64) → (∀ x ∈ p.2, x < 64) →
      State.reg d k (l.foldl (fun p n =>
        let q := p.1.channelEvent src tags n
        (q.1, if q.2 then p.2 ++ [n] else p.2)) p).1 = State.reg d k p.1 ∧
      ∀ n ∈ (l.foldl (fun p n =>
        let q := p.1.channelEvent src tags n
        (q.1, if q.2 then p.2 ++ [n] else p.2)) p).2, n < 64 := by
    intro l
    induction l with
    | nil => intro p _ hp; exact ⟨rfl, hp⟩
    | cons x r ih =>
      intro p hl hp
      have hx : x < 64 := hl x (List.mem_cons_self ..)
      have := ih ((p.1.channelEvent src tags x).1, if (p.1.channelEvent src tags x).2 then p.2 ++ [x] else p.2)
        (fun y hy => hl y (List.mem_cons_of_mem x hy))
        (by
          intro y hy
          simp only [] at hy
          split at hy
          · rcases List.mem_append.mp hy with h | h
            · exact hp y h
            · rw [List.mem_singleton.mp h]; exact hx
          · exact hp y hy)
      refine ⟨?_, this.2⟩
      rw [List.foldl_cons, this.1]
      exact reg_channelEvent d k p.1 src tags x hx hk
  exact h _ (s, []) (fun x hx => Nat.lt_of_lt_of_le (List.mem_range.mp hx) hm) (fun x hx => by cases hx)

theorem reg_errName (d : Int) (k : Nat) (s : State) (e : Option Ev) :
    State.reg d k { s with errName := e } = State.reg d k s := rfl

theorem reg_raiseWith (d : Int) (k : Nat) (fuel : Nat) (s : State) (e : Ev) (obj : Nat) (hk : isEventReg k = false) :
    State.reg d k (raiseWith fuel s e obj) = State.reg d k s := by
  have hbase : ∀ (s : State) (e : Ev) (obj : Nat), State.reg d k ((({ (((s.putN Obj.ERR_LAST 0 0 s.now).putN
      Obj.ERR_LAST 0 1 obj).count Obj.ERR_COUNT 0 0 1) with errName := some e } : State).causeOf
        (Config.eventSlot e.ctorIdx + 256)).causeOf 119) = State.reg d k s := by
    intro s e obj
    rw [reg_causeOf, reg_causeOf]
    rw [reg_errName, reg_count _ _ _ _ _ _ _ (eventReg_ne hk (by decide)), reg_putN _ _ _ _ _ _ _ (eventReg_ne hk (by decide)),
      reg_putN _ _ _ _ _ _ _ (eventReg_ne hk (by decide))]
  induction fuel generalizing s e obj with
  | zero =>
    unfold raiseWith
    exact (reg_channels d k _ 118 _ _ (Nat.le_refl 64) hk).1.trans (hbase s e obj)
  | succ f ih =>
    unfold raiseWith
    simp only []
    refine (foldl_keep (State.reg d k) _ _ _ (fun a x _ => ih a _ _)).trans ?_
    exact (reg_channels d k _ 118 _ _ (Nat.le_refl 64) hk).1.trans (hbase s e obj)

/-- R449: a named event changes no register but those of events. -/
theorem reg_raise (d : Int) (k : Nat) (s : State) (e : Ev) (obj : Nat) (hk : isEventReg k = false) :
    State.reg d k (s.raise e obj) = State.reg d k s := reg_raiseWith d k 64 s e obj hk

/-- R453: a source's event changes no register but those of events. -/
theorem reg_fire (d : Int) (k : Nat) (s : State) (src : Nat) (m : Nat) (hm : m ≤ 64) (hk : isEventReg k = false) :
    State.reg d k (s.fire src m) = State.reg d k s := by
  unfold State.fire
  simp only []
  refine (foldl_keep (State.reg d k) _ _ _ (fun a x _ => reg_raise d k a _ _ hk)).trans ?_
  exact (reg_channels d k _ src _ _ hm hk).1.trans (reg_causeOf d k s _)

/-- R454: a level changes no register but those of events. -/
theorem reg_setLevel (d : Int) (k : Nat) (s : State) (src : Nat) (v : Bool) (m : Nat) (hm : m ≤ 64) (h : src < 128)
    (hk : isEventReg k = false) : State.reg d k (s.setLevel src v m) = State.reg d k s := by
  have hl : isEventReg (Obj.EV_SOURCE_LEVEL.key 0 (src / 32)) = true := evCh_reg _ _ (by omega) (by decide)
  unfold State.setLevel
  simp only []
  split
  · rfl
  · split
    · rw [reg_putN _ _ _ _ _ _ _ (eventReg_ne hk hl), reg_fire _ _ _ _ _ hm hk]
      rfl
    · rw [reg_putN _ _ _ _ _ _ _ (eventReg_ne hk hl)]
      rfl


theorem evReg_false (k : Nat) (h : k / 256 ≠ 0x1020 ∧ k / 256 ≠ 0x1021 ∧ k / 256 ≠ 0xa000 ∧ k / 256 ≠ 0xa003 ∧
    k / 256 ≠ 0xa004 ∧ k / 256 ≠ 0xa005 ∧ k / 256 ≠ 0xa006 ∧ k / 256 ≠ 0xa007 ∧ k / 256 ≠ 0xa00a ∧
    (k / 256 < 0xa100 ∨ 0xa140 ≤ k / 256)) : isEventReg k = false := by
  simp [isEventReg]; omega

@[simp] theorem look_raise (s : State) (x : Ev) (n : Nat) (d : Int) (k : Nat) (h : isEventReg k = false) :
    look (s.raise x n).dict d k = look s.dict d k := reg_raise d k s x n h

@[simp] theorem look_fire (s : State) (n : Nat) (d : Int) (k : Nat) (h : isEventReg k = false) :
    look (s.fire n).dict d k = look s.dict d k := reg_fire d k s n 64 (Nat.le_refl _) h

@[simp] theorem look_setLevel (s : State) (n : Nat) (v : Bool) (d : Int) (k : Nat) (hn : n < 128) (h : isEventReg k = false) :
    look (s.setLevel n v).dict d k = look s.dict d k := reg_setLevel d k s n v 64 (Nat.le_refl _) hn h

theorem rd_reg (s : State) (o : ObjRow) (b e : Nat) : s.rd o b e = State.reg (o.dfltAt e) (o.key b e) s := rfl

@[simp] theorem rd_put_same (s : State) (o : ObjRow) (b e : Nat) (v : Int) : (s.put o b e v).rd o b e = v := by
  simp [State.rd, State.put]

@[simp] theorem rdN_putN_same (s : State) (o : ObjRow) (b e v : Nat) : (s.putN o b e v).rdN o b e = v := by
  simp [State.rdN, State.putN]

@[simp] theorem rd_putN_same (s : State) (o : ObjRow) (b e v : Nat) : (s.putN o b e v).rd o b e = v := by
  simp [State.putN]

@[simp] theorem rdN_put_same (s : State) (o : ObjRow) (b e : Nat) (v : Int) : (s.put o b e v).rdN o b e = v.toNat := by
  simp [State.rdN]

@[simp] theorem rd_put_other (s : State) (o o' : ObjRow) (b e b' e' : Nat) (v : Int) (h : o'.key b' e' ≠ o.key b e) :
    (s.put o b e v).rd o' b' e' = s.rd o' b' e' := reg_put _ _ s o b e v h

@[simp] theorem rdN_put_other (s : State) (o o' : ObjRow) (b e b' e' : Nat) (v : Int) (h : o'.key b' e' ≠ o.key b e) :
    (s.put o b e v).rdN o' b' e' = s.rdN o' b' e' := by simp [State.rdN, h]

@[simp] theorem rd_putN_other (s : State) (o o' : ObjRow) (b e b' e' v : Nat) (h : o'.key b' e' ≠ o.key b e) :
    (s.putN o b e v).rd o' b' e' = s.rd o' b' e' := by simp [State.putN, h]

@[simp] theorem rdN_putN_other (s : State) (o o' : ObjRow) (b e b' e' v : Nat) (h : o'.key b' e' ≠ o.key b e) :
    (s.putN o b e v).rdN o' b' e' = s.rdN o' b' e' := by simp [State.rdN, h]

@[simp] theorem rdN_count_same (s : State) (o : ObjRow) (b e n : Nat) :
    (s.count o b e n).rdN o b e = satCount (s.rdN o b e) n := by
  show (s.putN o b e (satCount (s.rdN o b e) n)).rdN o b e = _
  simp

@[simp] theorem rd_count_other (s : State) (o o' : ObjRow) (b e b' e' n : Nat) (h : o'.key b' e' ≠ o.key b e) :
    (s.count o b e n).rd o' b' e' = s.rd o' b' e' := by
  show (s.putN o b e (satCount (s.rdN o b e) n)).rd o' b' e' = _
  simp [h]

@[simp] theorem rdN_count_other (s : State) (o o' : ObjRow) (b e b' e' n : Nat) (h : o'.key b' e' ≠ o.key b e) :
    (s.count o b e n).rdN o' b' e' = s.rdN o' b' e' := by
  show (s.putN o b e (satCount (s.rdN o b e) n)).rdN o' b' e' = _
  simp [h]

@[simp] theorem rd_raise (s : State) (x : Ev) (n : Nat) (o : ObjRow) (b e : Nat) (h : isEventReg (o.key b e) = false) :
    (s.raise x n).rd o b e = s.rd o b e := reg_raise _ _ s x n h

@[simp] theorem rdN_raise (s : State) (x : Ev) (n : Nat) (o : ObjRow) (b e : Nat) (h : isEventReg (o.key b e) = false) :
    (s.raise x n).rdN o b e = s.rdN o b e := by simp [State.rdN, h]

@[simp] theorem rd_fire (s : State) (n : Nat) (o : ObjRow) (b e : Nat) (h : isEventReg (o.key b e) = false) :
    (s.fire n).rd o b e = s.rd o b e := reg_fire _ _ s n 64 (Nat.le_refl _) h

@[simp] theorem rdN_fire (s : State) (n : Nat) (o : ObjRow) (b e : Nat) (h : isEventReg (o.key b e) = false) :
    (s.fire n).rdN o b e = s.rdN o b e := by simp [State.rdN, h]

@[simp] theorem rd_setLevel (s : State) (n : Nat) (v : Bool) (o : ObjRow) (b e : Nat) (hn : n < 128)
    (h : isEventReg (o.key b e) = false) : (s.setLevel n v).rd o b e = s.rd o b e := reg_setLevel _ _ s n v 64 (Nat.le_refl _) hn h

@[simp] theorem rdN_setLevel (s : State) (n : Nat) (v : Bool) (o : ObjRow) (b e : Nat) (hn : n < 128)
    (h : isEventReg (o.key b e) = false) : (s.setLevel n v).rdN o b e = s.rdN o b e := by simp [State.rdN, hn, h]

@[simp] theorem rd_setBit_other (s : State) (o o' : ObjRow) (b e b' e' i : Nat) (v : Bool) (h : o'.key b' e' ≠ o.key b e) :
    (s.setBit o b e i v).rd o' b' e' = s.rd o' b' e' := reg_setBit _ _ s o b e i v h

@[simp] theorem rdN_setBit_other (s : State) (o o' : ObjRow) (b e b' e' i : Nat) (v : Bool)
    (h : o'.key b' e' ≠ o.key b e) : (s.setBit o b e i v).rdN o' b' e' = s.rdN o' b' e' := by simp [State.rdN, h]

@[simp] theorem rd_at (s : State) (t : Nat) (o : ObjRow) (b e : Nat) : (s.at t).rd o b e = s.rd o b e := rfl
@[simp] theorem rdN_at (s : State) (t : Nat) (o : ObjRow) (b e : Nat) : (s.at t).rdN o b e = s.rdN o b e := rfl
@[simp] theorem flag_at (s : State) (t : Nat) (o : ObjRow) (b e : Nat) : (s.at t).flag o b e = s.flag o b e := rfl
@[simp] theorem bit_at (s : State) (t : Nat) (o : ObjRow) (b e i : Nat) : (s.at t).bit o b e i = s.bit o b e i := rfl
@[simp] theorem mode_at (s : State) (t : Nat) : (s.at t).mode = s.mode := rfl
@[simp] theorem lining_at (s : State) (t : Nat) : (s.at t).lining = s.lining := rfl
@[simp] theorem now_at (s : State) (t : Nat) : (s.at t).now = max s.now t := rfl
@[simp] theorem rd_emit (s : State) (x : Out) (o : ObjRow) (b e : Nat) : (s.emit x).rd o b e = s.rd o b e := rfl
@[simp] theorem rdN_emit (s : State) (x : Out) (o : ObjRow) (b e : Nat) : (s.emit x).rdN o b e = s.rdN o b e := rfl

theorem testBit_withBit_same (n i : Nat) (v : Bool) : (withBit n i v).testBit i = v := by
  unfold withBit
  cases hn : n.testBit i <;> cases v <;> simp [hn]
  · rw [Nat.add_comm, Nat.testBit_two_pow_add_eq, hn]; rfl
  · have h : 2 ^ i ≤ n := Nat.ge_two_pow_of_testBit hn
    have h2 : (2 ^ i + (n - 2 ^ i)).testBit i = true := by rw [Nat.add_sub_cancel' h]; exact hn
    rw [Nat.testBit_two_pow_add_eq] at h2
    simpa using h2

@[simp] theorem bit_setBit_same (s : State) (o : ObjRow) (b e i : Nat) (v : Bool) : (s.setBit o b e i v).bit o b e i = v := by
  simp [State.setBit, State.bit, testBit_withBit_same]

/-- What a view shows alike, it is alike on. -/
theorem of_see {α : Type} (φ : State → α) {s u : State} (h : see φ u = see φ s) : φ u = φ s := h

@[simp] theorem State.raise_pending (s : State) (e : Ev) (obj : Nat) : (State.raise s e obj).pending = s.pending :=
  of_see (fun s => s.pending) (State.raise_see _ (fun _ _ h => h .pending rfl) s e obj)
@[simp] theorem State.raise_now (s : State) (e : Ev) (obj : Nat) : (State.raise s e obj).now = s.now :=
  of_see (fun s => s.now) (State.raise_see _ (fun _ _ h => h .now rfl) s e obj)
@[simp] theorem State.raise_blobs (s : State) (e : Ev) (obj : Nat) : (State.raise s e obj).blobs = s.blobs :=
  of_see (fun s => s.blobs) (State.raise_see _ (fun _ _ h => h .blobs rfl) s e obj)
@[simp] theorem State.raise_staged (s : State) (e : Ev) (obj : Nat) : (State.raise s e obj).staged = s.staged :=
  of_see (fun s => s.staged) (State.raise_see _ (fun _ _ h => h .staged rfl) s e obj)
@[simp] theorem State.raise_stagedBlobs (s : State) (e : Ev) (obj : Nat) : (State.raise s e obj).stagedBlobs = s.stagedBlobs :=
  of_see (fun s => s.stagedBlobs) (State.raise_see _ (fun _ _ h => h .stagedBlobs rfl) s e obj)
@[simp] theorem State.raise_epochs (s : State) (e : Ev) (obj : Nat) : (State.raise s e obj).epochs = s.epochs :=
  of_see (fun s => s.epochs) (State.raise_see _ (fun _ _ h => h .epochs rfl) s e obj)
@[simp] theorem State.raise_latches (s : State) (e : Ev) (obj : Nat) : (State.raise s e obj).latches = s.latches :=
  of_see (fun s => s.latches) (State.raise_see _ (fun _ _ h => h .latches rfl) s e obj)
@[simp] theorem State.raise_draws (s : State) (e : Ev) (obj : Nat) : (State.raise s e obj).draws = s.draws :=
  of_see (fun s => s.draws) (State.raise_see _ (fun _ _ h => h .draws rfl) s e obj)
@[simp] theorem State.raise_mem (s : State) (e : Ev) (obj : Nat) : (State.raise s e obj).mem = s.mem :=
  of_see (fun s => s.mem) (State.raise_see _ (fun _ _ h => h .mem rfl) s e obj)
@[simp] theorem State.raise_lost (s : State) (e : Ev) (obj : Nat) : (State.raise s e obj).lost = s.lost :=
  of_see (fun s => s.lost) (State.raise_see _ (fun _ _ h => h .lost rfl) s e obj)
@[simp] theorem State.raise_dramBad (s : State) (e : Ev) (obj : Nat) : (State.raise s e obj).dramBad = s.dramBad :=
  of_see (fun s => s.dramBad) (State.raise_see _ (fun _ _ h => h .dramBad rfl) s e obj)
@[simp] theorem State.raise_dram (s : State) (e : Ev) (obj : Nat) : (State.raise s e obj).dram = s.dram :=
  of_see (fun s => s.dram) (State.raise_see _ (fun _ _ h => h .dram rfl) s e obj)
@[simp] theorem State.raise_scrubFrom (s : State) (e : Ev) (obj : Nat) : (State.raise s e obj).scrubFrom = s.scrubFrom :=
  of_see (fun s => s.scrubFrom) (State.raise_see _ (fun _ _ h => h .scrubFrom rfl) s e obj)
@[simp] theorem State.raise_access (s : State) (e : Ev) (obj : Nat) : (State.raise s e obj).access = s.access :=
  of_see (fun s => s.access) (State.raise_see _ (fun _ _ h => h .access rfl) s e obj)
@[simp] theorem State.raise_tim (s : State) (e : Ev) (obj : Nat) : (State.raise s e obj).tim = s.tim :=
  of_see (fun s => s.tim) (State.raise_see _ (fun _ _ h => h .tim rfl) s e obj)
@[simp] theorem State.raise_cams (s : State) (e : Ev) (obj : Nat) : (State.raise s e obj).cams = s.cams :=
  of_see (fun s => s.cams) (State.raise_see _ (fun _ _ h => h .cams rfl) s e obj)
@[simp] theorem State.raise_rc (s : State) (e : Ev) (obj : Nat) : (State.raise s e obj).rc = s.rc :=
  of_see (fun s => s.rc) (State.raise_see _ (fun _ _ h => h .rc rfl) s e obj)
@[simp] theorem State.raise_rg (s : State) (e : Ev) (obj : Nat) : (State.raise s e obj).rg = s.rg :=
  of_see (fun s => s.rg) (State.raise_see _ (fun _ _ h => h .rg rfl) s e obj)
@[simp] theorem State.raise_vd (s : State) (e : Ev) (obj : Nat) : (State.raise s e obj).vd = s.vd :=
  of_see (fun s => s.vd) (State.raise_see _ (fun _ _ h => h .vd rfl) s e obj)
@[simp] theorem State.raise_atl (s : State) (e : Ev) (obj : Nat) : (State.raise s e obj).atl = s.atl :=
  of_see (fun s => s.atl) (State.raise_see _ (fun _ _ h => h .atl rfl) s e obj)
@[simp] theorem State.raise_apipes (s : State) (e : Ev) (obj : Nat) : (State.raise s e obj).apipes = s.apipes :=
  of_see (fun s => s.apipes) (State.raise_see _ (fun _ _ h => h .apipes rfl) s e obj)
@[simp] theorem State.raise_sg (s : State) (e : Ev) (obj : Nat) : (State.raise s e obj).sg = s.sg :=
  of_see (fun s => s.sg) (State.raise_see _ (fun _ _ h => h .sg rfl) s e obj)
@[simp] theorem State.raise_ch (s : State) (e : Ev) (obj : Nat) : (State.raise s e obj).ch = s.ch :=
  of_see (fun s => s.ch) (State.raise_see _ (fun _ _ h => h .ch rfl) s e obj)
@[simp] theorem State.raise_lanes (s : State) (e : Ev) (obj : Nat) : (State.raise s e obj).lanes = s.lanes :=
  of_see (fun s => s.lanes) (State.raise_see _ (fun _ _ h => h .lanes rfl) s e obj)
@[simp] theorem State.raise_st (s : State) (e : Ev) (obj : Nat) : (State.raise s e obj).st = s.st :=
  of_see (fun s => s.st) (State.raise_see _ (fun _ _ h => h .st rfl) s e obj)
@[simp] theorem State.raise_judged (s : State) (e : Ev) (obj : Nat) : (State.raise s e obj).judged = s.judged :=
  of_see (fun s => s.judged) (State.raise_see _ (fun _ _ h => h .judged rfl) s e obj)
@[simp] theorem State.raise_bank (s : State) (e : Ev) (obj : Nat) : (State.raise s e obj).bank = s.bank :=
  of_see (fun s => s.bank) (State.raise_see _ (fun _ _ h => h .bank rfl) s e obj)
@[simp] theorem State.raise_lg (s : State) (e : Ev) (obj : Nat) : (State.raise s e obj).lg = s.lg :=
  of_see (fun s => s.lg) (State.raise_see _ (fun _ _ h => h .lg rfl) s e obj)
@[simp] theorem State.raise_vault (s : State) (e : Ev) (obj : Nat) : (State.raise s e obj).vault = s.vault :=
  of_see (fun s => s.vault) (State.raise_see _ (fun _ _ h => h .vault rfl) s e obj)
@[simp] theorem State.raise_cont (s : State) (e : Ev) (obj : Nat) : (State.raise s e obj).cont = s.cont :=
  of_see (fun s => s.cont) (State.raise_see _ (fun _ _ h => h .cont rfl) s e obj)
@[simp] theorem State.raise_place (s : State) (e : Ev) (obj : Nat) : (State.raise s e obj).place = s.place :=
  of_see (fun s => s.place) (State.raise_see _ (fun _ _ h => h .place rfl) s e obj)
@[simp] theorem State.raise_slots (s : State) (e : Ev) (obj : Nat) : (State.raise s e obj).slots = s.slots :=
  of_see (fun s => s.slots) (State.raise_see _ (fun _ _ h => h .slots rfl) s e obj)
@[simp] theorem State.raise_hist (s : State) (e : Ev) (obj : Nat) : (State.raise s e obj).hist = s.hist :=
  of_see (fun s => s.hist) (State.raise_see _ (fun _ _ h => h .hist rfl) s e obj)
@[simp] theorem State.raise_thumbs (s : State) (e : Ev) (obj : Nat) : (State.raise s e obj).thumbs = s.thumbs :=
  of_see (fun s => s.thumbs) (State.raise_see _ (fun _ _ h => h .thumbs rfl) s e obj)
@[simp] theorem State.raise_rt (s : State) (e : Ev) (obj : Nat) : (State.raise s e obj).rt = s.rt :=
  of_see (fun s => s.rt) (State.raise_see _ (fun _ _ h => h .rt rfl) s e obj)
@[simp] theorem State.raise_holdBy (s : State) (e : Ev) (obj : Nat) : (State.raise s e obj).holdBy = s.holdBy :=
  of_see (fun s => s.holdBy) (State.raise_see _ (fun _ _ h => h .holdBy rfl) s e obj)
@[simp] theorem State.raise_mer (s : State) (e : Ev) (obj : Nat) : (State.raise s e obj).mer = s.mer :=
  of_see (fun s => s.mer) (State.raise_see _ (fun _ _ h => h .mer rfl) s e obj)
@[simp] theorem State.raise_fw (s : State) (e : Ev) (obj : Nat) : (State.raise s e obj).fw = s.fw :=
  of_see (fun s => s.fw) (State.raise_see _ (fun _ _ h => h .fw rfl) s e obj)
@[simp] theorem State.raise_trans (s : State) (e : Ev) (obj : Nat) : (State.raise s e obj).trans = s.trans :=
  of_see (fun s => s.trans) (State.raise_see _ (fun _ _ h => h .trans rfl) s e obj)
@[simp] theorem State.raise_am (s : State) (e : Ev) (obj : Nat) : (State.raise s e obj).am = s.am :=
  of_see (fun s => s.am) (State.raise_see _ (fun _ _ h => h .am rfl) s e obj)
@[simp] theorem State.raise_cal (s : State) (e : Ev) (obj : Nat) : (State.raise s e obj).cal = s.cal :=
  of_see (fun s => s.cal) (State.raise_see _ (fun _ _ h => h .cal rfl) s e obj)
@[simp] theorem State.raise_power (s : State) (e : Ev) (obj : Nat) : (State.raise s e obj).power = s.power :=
  of_see (fun s => s.power) (State.raise_see _ (fun _ _ h => h .power rfl) s e obj)
@[simp] theorem State.fire_pending (s : State) (src : Nat) (n : Nat) : (State.fire s src n).pending = s.pending :=
  of_see (fun s => s.pending) (State.fire_see _ (fun _ _ h => h .pending rfl) s src n)
@[simp] theorem State.fire_now (s : State) (src : Nat) (n : Nat) : (State.fire s src n).now = s.now :=
  of_see (fun s => s.now) (State.fire_see _ (fun _ _ h => h .now rfl) s src n)
@[simp] theorem State.fire_blobs (s : State) (src : Nat) (n : Nat) : (State.fire s src n).blobs = s.blobs :=
  of_see (fun s => s.blobs) (State.fire_see _ (fun _ _ h => h .blobs rfl) s src n)
@[simp] theorem State.fire_staged (s : State) (src : Nat) (n : Nat) : (State.fire s src n).staged = s.staged :=
  of_see (fun s => s.staged) (State.fire_see _ (fun _ _ h => h .staged rfl) s src n)
@[simp] theorem State.fire_stagedBlobs (s : State) (src : Nat) (n : Nat) : (State.fire s src n).stagedBlobs = s.stagedBlobs :=
  of_see (fun s => s.stagedBlobs) (State.fire_see _ (fun _ _ h => h .stagedBlobs rfl) s src n)
@[simp] theorem State.fire_epochs (s : State) (src : Nat) (n : Nat) : (State.fire s src n).epochs = s.epochs :=
  of_see (fun s => s.epochs) (State.fire_see _ (fun _ _ h => h .epochs rfl) s src n)
@[simp] theorem State.fire_latches (s : State) (src : Nat) (n : Nat) : (State.fire s src n).latches = s.latches :=
  of_see (fun s => s.latches) (State.fire_see _ (fun _ _ h => h .latches rfl) s src n)
@[simp] theorem State.fire_draws (s : State) (src : Nat) (n : Nat) : (State.fire s src n).draws = s.draws :=
  of_see (fun s => s.draws) (State.fire_see _ (fun _ _ h => h .draws rfl) s src n)
@[simp] theorem State.fire_mem (s : State) (src : Nat) (n : Nat) : (State.fire s src n).mem = s.mem :=
  of_see (fun s => s.mem) (State.fire_see _ (fun _ _ h => h .mem rfl) s src n)
@[simp] theorem State.fire_lost (s : State) (src : Nat) (n : Nat) : (State.fire s src n).lost = s.lost :=
  of_see (fun s => s.lost) (State.fire_see _ (fun _ _ h => h .lost rfl) s src n)
@[simp] theorem State.fire_dramBad (s : State) (src : Nat) (n : Nat) : (State.fire s src n).dramBad = s.dramBad :=
  of_see (fun s => s.dramBad) (State.fire_see _ (fun _ _ h => h .dramBad rfl) s src n)
@[simp] theorem State.fire_dram (s : State) (src : Nat) (n : Nat) : (State.fire s src n).dram = s.dram :=
  of_see (fun s => s.dram) (State.fire_see _ (fun _ _ h => h .dram rfl) s src n)
@[simp] theorem State.fire_scrubFrom (s : State) (src : Nat) (n : Nat) : (State.fire s src n).scrubFrom = s.scrubFrom :=
  of_see (fun s => s.scrubFrom) (State.fire_see _ (fun _ _ h => h .scrubFrom rfl) s src n)
@[simp] theorem State.fire_access (s : State) (src : Nat) (n : Nat) : (State.fire s src n).access = s.access :=
  of_see (fun s => s.access) (State.fire_see _ (fun _ _ h => h .access rfl) s src n)
@[simp] theorem State.fire_tim (s : State) (src : Nat) (n : Nat) : (State.fire s src n).tim = s.tim :=
  of_see (fun s => s.tim) (State.fire_see _ (fun _ _ h => h .tim rfl) s src n)
@[simp] theorem State.fire_cams (s : State) (src : Nat) (n : Nat) : (State.fire s src n).cams = s.cams :=
  of_see (fun s => s.cams) (State.fire_see _ (fun _ _ h => h .cams rfl) s src n)
@[simp] theorem State.fire_rc (s : State) (src : Nat) (n : Nat) : (State.fire s src n).rc = s.rc :=
  of_see (fun s => s.rc) (State.fire_see _ (fun _ _ h => h .rc rfl) s src n)
@[simp] theorem State.fire_rg (s : State) (src : Nat) (n : Nat) : (State.fire s src n).rg = s.rg :=
  of_see (fun s => s.rg) (State.fire_see _ (fun _ _ h => h .rg rfl) s src n)
@[simp] theorem State.fire_vd (s : State) (src : Nat) (n : Nat) : (State.fire s src n).vd = s.vd :=
  of_see (fun s => s.vd) (State.fire_see _ (fun _ _ h => h .vd rfl) s src n)
@[simp] theorem State.fire_atl (s : State) (src : Nat) (n : Nat) : (State.fire s src n).atl = s.atl :=
  of_see (fun s => s.atl) (State.fire_see _ (fun _ _ h => h .atl rfl) s src n)
@[simp] theorem State.fire_apipes (s : State) (src : Nat) (n : Nat) : (State.fire s src n).apipes = s.apipes :=
  of_see (fun s => s.apipes) (State.fire_see _ (fun _ _ h => h .apipes rfl) s src n)
@[simp] theorem State.fire_sg (s : State) (src : Nat) (n : Nat) : (State.fire s src n).sg = s.sg :=
  of_see (fun s => s.sg) (State.fire_see _ (fun _ _ h => h .sg rfl) s src n)
@[simp] theorem State.fire_ch (s : State) (src : Nat) (n : Nat) : (State.fire s src n).ch = s.ch :=
  of_see (fun s => s.ch) (State.fire_see _ (fun _ _ h => h .ch rfl) s src n)
@[simp] theorem State.fire_lanes (s : State) (src : Nat) (n : Nat) : (State.fire s src n).lanes = s.lanes :=
  of_see (fun s => s.lanes) (State.fire_see _ (fun _ _ h => h .lanes rfl) s src n)
@[simp] theorem State.fire_st (s : State) (src : Nat) (n : Nat) : (State.fire s src n).st = s.st :=
  of_see (fun s => s.st) (State.fire_see _ (fun _ _ h => h .st rfl) s src n)
@[simp] theorem State.fire_judged (s : State) (src : Nat) (n : Nat) : (State.fire s src n).judged = s.judged :=
  of_see (fun s => s.judged) (State.fire_see _ (fun _ _ h => h .judged rfl) s src n)
@[simp] theorem State.fire_bank (s : State) (src : Nat) (n : Nat) : (State.fire s src n).bank = s.bank :=
  of_see (fun s => s.bank) (State.fire_see _ (fun _ _ h => h .bank rfl) s src n)
@[simp] theorem State.fire_lg (s : State) (src : Nat) (n : Nat) : (State.fire s src n).lg = s.lg :=
  of_see (fun s => s.lg) (State.fire_see _ (fun _ _ h => h .lg rfl) s src n)
@[simp] theorem State.fire_vault (s : State) (src : Nat) (n : Nat) : (State.fire s src n).vault = s.vault :=
  of_see (fun s => s.vault) (State.fire_see _ (fun _ _ h => h .vault rfl) s src n)
@[simp] theorem State.fire_cont (s : State) (src : Nat) (n : Nat) : (State.fire s src n).cont = s.cont :=
  of_see (fun s => s.cont) (State.fire_see _ (fun _ _ h => h .cont rfl) s src n)
@[simp] theorem State.fire_place (s : State) (src : Nat) (n : Nat) : (State.fire s src n).place = s.place :=
  of_see (fun s => s.place) (State.fire_see _ (fun _ _ h => h .place rfl) s src n)
@[simp] theorem State.fire_slots (s : State) (src : Nat) (n : Nat) : (State.fire s src n).slots = s.slots :=
  of_see (fun s => s.slots) (State.fire_see _ (fun _ _ h => h .slots rfl) s src n)
@[simp] theorem State.fire_hist (s : State) (src : Nat) (n : Nat) : (State.fire s src n).hist = s.hist :=
  of_see (fun s => s.hist) (State.fire_see _ (fun _ _ h => h .hist rfl) s src n)
@[simp] theorem State.fire_thumbs (s : State) (src : Nat) (n : Nat) : (State.fire s src n).thumbs = s.thumbs :=
  of_see (fun s => s.thumbs) (State.fire_see _ (fun _ _ h => h .thumbs rfl) s src n)
@[simp] theorem State.fire_rt (s : State) (src : Nat) (n : Nat) : (State.fire s src n).rt = s.rt :=
  of_see (fun s => s.rt) (State.fire_see _ (fun _ _ h => h .rt rfl) s src n)
@[simp] theorem State.fire_holdBy (s : State) (src : Nat) (n : Nat) : (State.fire s src n).holdBy = s.holdBy :=
  of_see (fun s => s.holdBy) (State.fire_see _ (fun _ _ h => h .holdBy rfl) s src n)
@[simp] theorem State.fire_mer (s : State) (src : Nat) (n : Nat) : (State.fire s src n).mer = s.mer :=
  of_see (fun s => s.mer) (State.fire_see _ (fun _ _ h => h .mer rfl) s src n)
@[simp] theorem State.fire_fw (s : State) (src : Nat) (n : Nat) : (State.fire s src n).fw = s.fw :=
  of_see (fun s => s.fw) (State.fire_see _ (fun _ _ h => h .fw rfl) s src n)
@[simp] theorem State.fire_trans (s : State) (src : Nat) (n : Nat) : (State.fire s src n).trans = s.trans :=
  of_see (fun s => s.trans) (State.fire_see _ (fun _ _ h => h .trans rfl) s src n)
@[simp] theorem State.fire_am (s : State) (src : Nat) (n : Nat) : (State.fire s src n).am = s.am :=
  of_see (fun s => s.am) (State.fire_see _ (fun _ _ h => h .am rfl) s src n)
@[simp] theorem State.fire_cal (s : State) (src : Nat) (n : Nat) : (State.fire s src n).cal = s.cal :=
  of_see (fun s => s.cal) (State.fire_see _ (fun _ _ h => h .cal rfl) s src n)
@[simp] theorem State.fire_power (s : State) (src : Nat) (n : Nat) : (State.fire s src n).power = s.power :=
  of_see (fun s => s.power) (State.fire_see _ (fun _ _ h => h .power rfl) s src n)
@[simp] theorem State.setLevel_pending (s : State) (src : Nat) (v : Bool) (n : Nat) : (State.setLevel s src v n).pending = s.pending :=
  of_see (fun s => s.pending) (State.setLevel_see _ (fun _ _ h => h .pending rfl) s src v n)
@[simp] theorem State.setLevel_now (s : State) (src : Nat) (v : Bool) (n : Nat) : (State.setLevel s src v n).now = s.now :=
  of_see (fun s => s.now) (State.setLevel_see _ (fun _ _ h => h .now rfl) s src v n)
@[simp] theorem State.setLevel_blobs (s : State) (src : Nat) (v : Bool) (n : Nat) : (State.setLevel s src v n).blobs = s.blobs :=
  of_see (fun s => s.blobs) (State.setLevel_see _ (fun _ _ h => h .blobs rfl) s src v n)
@[simp] theorem State.setLevel_staged (s : State) (src : Nat) (v : Bool) (n : Nat) : (State.setLevel s src v n).staged = s.staged :=
  of_see (fun s => s.staged) (State.setLevel_see _ (fun _ _ h => h .staged rfl) s src v n)
@[simp] theorem State.setLevel_stagedBlobs (s : State) (src : Nat) (v : Bool) (n : Nat) : (State.setLevel s src v n).stagedBlobs = s.stagedBlobs :=
  of_see (fun s => s.stagedBlobs) (State.setLevel_see _ (fun _ _ h => h .stagedBlobs rfl) s src v n)
@[simp] theorem State.setLevel_epochs (s : State) (src : Nat) (v : Bool) (n : Nat) : (State.setLevel s src v n).epochs = s.epochs :=
  of_see (fun s => s.epochs) (State.setLevel_see _ (fun _ _ h => h .epochs rfl) s src v n)
@[simp] theorem State.setLevel_latches (s : State) (src : Nat) (v : Bool) (n : Nat) : (State.setLevel s src v n).latches = s.latches :=
  of_see (fun s => s.latches) (State.setLevel_see _ (fun _ _ h => h .latches rfl) s src v n)
@[simp] theorem State.setLevel_draws (s : State) (src : Nat) (v : Bool) (n : Nat) : (State.setLevel s src v n).draws = s.draws :=
  of_see (fun s => s.draws) (State.setLevel_see _ (fun _ _ h => h .draws rfl) s src v n)
@[simp] theorem State.setLevel_mem (s : State) (src : Nat) (v : Bool) (n : Nat) : (State.setLevel s src v n).mem = s.mem :=
  of_see (fun s => s.mem) (State.setLevel_see _ (fun _ _ h => h .mem rfl) s src v n)
@[simp] theorem State.setLevel_lost (s : State) (src : Nat) (v : Bool) (n : Nat) : (State.setLevel s src v n).lost = s.lost :=
  of_see (fun s => s.lost) (State.setLevel_see _ (fun _ _ h => h .lost rfl) s src v n)
@[simp] theorem State.setLevel_dramBad (s : State) (src : Nat) (v : Bool) (n : Nat) : (State.setLevel s src v n).dramBad = s.dramBad :=
  of_see (fun s => s.dramBad) (State.setLevel_see _ (fun _ _ h => h .dramBad rfl) s src v n)
@[simp] theorem State.setLevel_dram (s : State) (src : Nat) (v : Bool) (n : Nat) : (State.setLevel s src v n).dram = s.dram :=
  of_see (fun s => s.dram) (State.setLevel_see _ (fun _ _ h => h .dram rfl) s src v n)
@[simp] theorem State.setLevel_scrubFrom (s : State) (src : Nat) (v : Bool) (n : Nat) : (State.setLevel s src v n).scrubFrom = s.scrubFrom :=
  of_see (fun s => s.scrubFrom) (State.setLevel_see _ (fun _ _ h => h .scrubFrom rfl) s src v n)
@[simp] theorem State.setLevel_access (s : State) (src : Nat) (v : Bool) (n : Nat) : (State.setLevel s src v n).access = s.access :=
  of_see (fun s => s.access) (State.setLevel_see _ (fun _ _ h => h .access rfl) s src v n)
@[simp] theorem State.setLevel_tim (s : State) (src : Nat) (v : Bool) (n : Nat) : (State.setLevel s src v n).tim = s.tim :=
  of_see (fun s => s.tim) (State.setLevel_see _ (fun _ _ h => h .tim rfl) s src v n)
@[simp] theorem State.setLevel_cams (s : State) (src : Nat) (v : Bool) (n : Nat) : (State.setLevel s src v n).cams = s.cams :=
  of_see (fun s => s.cams) (State.setLevel_see _ (fun _ _ h => h .cams rfl) s src v n)
@[simp] theorem State.setLevel_rc (s : State) (src : Nat) (v : Bool) (n : Nat) : (State.setLevel s src v n).rc = s.rc :=
  of_see (fun s => s.rc) (State.setLevel_see _ (fun _ _ h => h .rc rfl) s src v n)
@[simp] theorem State.setLevel_rg (s : State) (src : Nat) (v : Bool) (n : Nat) : (State.setLevel s src v n).rg = s.rg :=
  of_see (fun s => s.rg) (State.setLevel_see _ (fun _ _ h => h .rg rfl) s src v n)
@[simp] theorem State.setLevel_vd (s : State) (src : Nat) (v : Bool) (n : Nat) : (State.setLevel s src v n).vd = s.vd :=
  of_see (fun s => s.vd) (State.setLevel_see _ (fun _ _ h => h .vd rfl) s src v n)
@[simp] theorem State.setLevel_atl (s : State) (src : Nat) (v : Bool) (n : Nat) : (State.setLevel s src v n).atl = s.atl :=
  of_see (fun s => s.atl) (State.setLevel_see _ (fun _ _ h => h .atl rfl) s src v n)
@[simp] theorem State.setLevel_apipes (s : State) (src : Nat) (v : Bool) (n : Nat) : (State.setLevel s src v n).apipes = s.apipes :=
  of_see (fun s => s.apipes) (State.setLevel_see _ (fun _ _ h => h .apipes rfl) s src v n)
@[simp] theorem State.setLevel_sg (s : State) (src : Nat) (v : Bool) (n : Nat) : (State.setLevel s src v n).sg = s.sg :=
  of_see (fun s => s.sg) (State.setLevel_see _ (fun _ _ h => h .sg rfl) s src v n)
@[simp] theorem State.setLevel_ch (s : State) (src : Nat) (v : Bool) (n : Nat) : (State.setLevel s src v n).ch = s.ch :=
  of_see (fun s => s.ch) (State.setLevel_see _ (fun _ _ h => h .ch rfl) s src v n)
@[simp] theorem State.setLevel_lanes (s : State) (src : Nat) (v : Bool) (n : Nat) : (State.setLevel s src v n).lanes = s.lanes :=
  of_see (fun s => s.lanes) (State.setLevel_see _ (fun _ _ h => h .lanes rfl) s src v n)
@[simp] theorem State.setLevel_st (s : State) (src : Nat) (v : Bool) (n : Nat) : (State.setLevel s src v n).st = s.st :=
  of_see (fun s => s.st) (State.setLevel_see _ (fun _ _ h => h .st rfl) s src v n)
@[simp] theorem State.setLevel_judged (s : State) (src : Nat) (v : Bool) (n : Nat) : (State.setLevel s src v n).judged = s.judged :=
  of_see (fun s => s.judged) (State.setLevel_see _ (fun _ _ h => h .judged rfl) s src v n)
@[simp] theorem State.setLevel_bank (s : State) (src : Nat) (v : Bool) (n : Nat) : (State.setLevel s src v n).bank = s.bank :=
  of_see (fun s => s.bank) (State.setLevel_see _ (fun _ _ h => h .bank rfl) s src v n)
@[simp] theorem State.setLevel_lg (s : State) (src : Nat) (v : Bool) (n : Nat) : (State.setLevel s src v n).lg = s.lg :=
  of_see (fun s => s.lg) (State.setLevel_see _ (fun _ _ h => h .lg rfl) s src v n)
@[simp] theorem State.setLevel_vault (s : State) (src : Nat) (v : Bool) (n : Nat) : (State.setLevel s src v n).vault = s.vault :=
  of_see (fun s => s.vault) (State.setLevel_see _ (fun _ _ h => h .vault rfl) s src v n)
@[simp] theorem State.setLevel_cont (s : State) (src : Nat) (v : Bool) (n : Nat) : (State.setLevel s src v n).cont = s.cont :=
  of_see (fun s => s.cont) (State.setLevel_see _ (fun _ _ h => h .cont rfl) s src v n)
@[simp] theorem State.setLevel_place (s : State) (src : Nat) (v : Bool) (n : Nat) : (State.setLevel s src v n).place = s.place :=
  of_see (fun s => s.place) (State.setLevel_see _ (fun _ _ h => h .place rfl) s src v n)
@[simp] theorem State.setLevel_slots (s : State) (src : Nat) (v : Bool) (n : Nat) : (State.setLevel s src v n).slots = s.slots :=
  of_see (fun s => s.slots) (State.setLevel_see _ (fun _ _ h => h .slots rfl) s src v n)
@[simp] theorem State.setLevel_hist (s : State) (src : Nat) (v : Bool) (n : Nat) : (State.setLevel s src v n).hist = s.hist :=
  of_see (fun s => s.hist) (State.setLevel_see _ (fun _ _ h => h .hist rfl) s src v n)
@[simp] theorem State.setLevel_thumbs (s : State) (src : Nat) (v : Bool) (n : Nat) : (State.setLevel s src v n).thumbs = s.thumbs :=
  of_see (fun s => s.thumbs) (State.setLevel_see _ (fun _ _ h => h .thumbs rfl) s src v n)
@[simp] theorem State.setLevel_rt (s : State) (src : Nat) (v : Bool) (n : Nat) : (State.setLevel s src v n).rt = s.rt :=
  of_see (fun s => s.rt) (State.setLevel_see _ (fun _ _ h => h .rt rfl) s src v n)
@[simp] theorem State.setLevel_holdBy (s : State) (src : Nat) (v : Bool) (n : Nat) : (State.setLevel s src v n).holdBy = s.holdBy :=
  of_see (fun s => s.holdBy) (State.setLevel_see _ (fun _ _ h => h .holdBy rfl) s src v n)
@[simp] theorem State.setLevel_mer (s : State) (src : Nat) (v : Bool) (n : Nat) : (State.setLevel s src v n).mer = s.mer :=
  of_see (fun s => s.mer) (State.setLevel_see _ (fun _ _ h => h .mer rfl) s src v n)
@[simp] theorem State.setLevel_fw (s : State) (src : Nat) (v : Bool) (n : Nat) : (State.setLevel s src v n).fw = s.fw :=
  of_see (fun s => s.fw) (State.setLevel_see _ (fun _ _ h => h .fw rfl) s src v n)
@[simp] theorem State.setLevel_trans (s : State) (src : Nat) (v : Bool) (n : Nat) : (State.setLevel s src v n).trans = s.trans :=
  of_see (fun s => s.trans) (State.setLevel_see _ (fun _ _ h => h .trans rfl) s src v n)
@[simp] theorem State.setLevel_am (s : State) (src : Nat) (v : Bool) (n : Nat) : (State.setLevel s src v n).am = s.am :=
  of_see (fun s => s.am) (State.setLevel_see _ (fun _ _ h => h .am rfl) s src v n)
@[simp] theorem State.setLevel_cal (s : State) (src : Nat) (v : Bool) (n : Nat) : (State.setLevel s src v n).cal = s.cal :=
  of_see (fun s => s.cal) (State.setLevel_see _ (fun _ _ h => h .cal rfl) s src v n)
@[simp] theorem State.setLevel_power (s : State) (src : Nat) (v : Bool) (n : Nat) : (State.setLevel s src v n).power = s.power :=
  of_see (fun s => s.power) (State.setLevel_see _ (fun _ _ h => h .power rfl) s src v n)
@[simp] theorem State.vector_pending (s : State) (v : Nat) : (State.vector s v).pending = s.pending :=
  of_see (fun s => s.pending) (State.vector_see _ (fun _ _ h => h .pending rfl) s v)
@[simp] theorem State.vector_now (s : State) (v : Nat) : (State.vector s v).now = s.now :=
  of_see (fun s => s.now) (State.vector_see _ (fun _ _ h => h .now rfl) s v)
@[simp] theorem State.vector_fresh (s : State) (v : Nat) : (State.vector s v).fresh = s.fresh :=
  of_see (fun s => s.fresh) (State.vector_see _ (fun _ _ h => h .fresh rfl) s v)
@[simp] theorem State.vector_dict (s : State) (v : Nat) : (State.vector s v).dict = s.dict :=
  of_see (fun s => s.dict) (State.vector_see _ (fun _ _ h => h .dict rfl) s v)
@[simp] theorem State.vector_blobs (s : State) (v : Nat) : (State.vector s v).blobs = s.blobs :=
  of_see (fun s => s.blobs) (State.vector_see _ (fun _ _ h => h .blobs rfl) s v)
@[simp] theorem State.vector_staged (s : State) (v : Nat) : (State.vector s v).staged = s.staged :=
  of_see (fun s => s.staged) (State.vector_see _ (fun _ _ h => h .staged rfl) s v)
@[simp] theorem State.vector_stagedBlobs (s : State) (v : Nat) : (State.vector s v).stagedBlobs = s.stagedBlobs :=
  of_see (fun s => s.stagedBlobs) (State.vector_see _ (fun _ _ h => h .stagedBlobs rfl) s v)
@[simp] theorem State.vector_epochs (s : State) (v : Nat) : (State.vector s v).epochs = s.epochs :=
  of_see (fun s => s.epochs) (State.vector_see _ (fun _ _ h => h .epochs rfl) s v)
@[simp] theorem State.vector_errName (s : State) (v : Nat) : (State.vector s v).errName = s.errName :=
  of_see (fun s => s.errName) (State.vector_see _ (fun _ _ h => h .errName rfl) s v)
@[simp] theorem State.vector_latches (s : State) (v : Nat) : (State.vector s v).latches = s.latches :=
  of_see (fun s => s.latches) (State.vector_see _ (fun _ _ h => h .latches rfl) s v)
@[simp] theorem State.vector_draws (s : State) (v : Nat) : (State.vector s v).draws = s.draws :=
  of_see (fun s => s.draws) (State.vector_see _ (fun _ _ h => h .draws rfl) s v)
@[simp] theorem State.vector_mem (s : State) (v : Nat) : (State.vector s v).mem = s.mem :=
  of_see (fun s => s.mem) (State.vector_see _ (fun _ _ h => h .mem rfl) s v)
@[simp] theorem State.vector_lost (s : State) (v : Nat) : (State.vector s v).lost = s.lost :=
  of_see (fun s => s.lost) (State.vector_see _ (fun _ _ h => h .lost rfl) s v)
@[simp] theorem State.vector_dramBad (s : State) (v : Nat) : (State.vector s v).dramBad = s.dramBad :=
  of_see (fun s => s.dramBad) (State.vector_see _ (fun _ _ h => h .dramBad rfl) s v)
@[simp] theorem State.vector_dram (s : State) (v : Nat) : (State.vector s v).dram = s.dram :=
  of_see (fun s => s.dram) (State.vector_see _ (fun _ _ h => h .dram rfl) s v)
@[simp] theorem State.vector_scrubFrom (s : State) (v : Nat) : (State.vector s v).scrubFrom = s.scrubFrom :=
  of_see (fun s => s.scrubFrom) (State.vector_see _ (fun _ _ h => h .scrubFrom rfl) s v)
@[simp] theorem State.vector_lattice (s : State) (v : Nat) : (State.vector s v).lattice = s.lattice :=
  of_see (fun s => s.lattice) (State.vector_see _ (fun _ _ h => h .lattice rfl) s v)
@[simp] theorem State.vector_access (s : State) (v : Nat) : (State.vector s v).access = s.access :=
  of_see (fun s => s.access) (State.vector_see _ (fun _ _ h => h .access rfl) s v)
@[simp] theorem State.vector_tim (s : State) (v : Nat) : (State.vector s v).tim = s.tim :=
  of_see (fun s => s.tim) (State.vector_see _ (fun _ _ h => h .tim rfl) s v)
@[simp] theorem State.vector_cams (s : State) (v : Nat) : (State.vector s v).cams = s.cams :=
  of_see (fun s => s.cams) (State.vector_see _ (fun _ _ h => h .cams rfl) s v)
@[simp] theorem State.vector_rc (s : State) (v : Nat) : (State.vector s v).rc = s.rc :=
  of_see (fun s => s.rc) (State.vector_see _ (fun _ _ h => h .rc rfl) s v)
@[simp] theorem State.vector_rg (s : State) (v : Nat) : (State.vector s v).rg = s.rg :=
  of_see (fun s => s.rg) (State.vector_see _ (fun _ _ h => h .rg rfl) s v)
@[simp] theorem State.vector_vd (s : State) (v : Nat) : (State.vector s v).vd = s.vd :=
  of_see (fun s => s.vd) (State.vector_see _ (fun _ _ h => h .vd rfl) s v)
@[simp] theorem State.vector_atl (s : State) (v : Nat) : (State.vector s v).atl = s.atl :=
  of_see (fun s => s.atl) (State.vector_see _ (fun _ _ h => h .atl rfl) s v)
@[simp] theorem State.vector_apipes (s : State) (v : Nat) : (State.vector s v).apipes = s.apipes :=
  of_see (fun s => s.apipes) (State.vector_see _ (fun _ _ h => h .apipes rfl) s v)
@[simp] theorem State.vector_sg (s : State) (v : Nat) : (State.vector s v).sg = s.sg :=
  of_see (fun s => s.sg) (State.vector_see _ (fun _ _ h => h .sg rfl) s v)
@[simp] theorem State.vector_ch (s : State) (v : Nat) : (State.vector s v).ch = s.ch :=
  of_see (fun s => s.ch) (State.vector_see _ (fun _ _ h => h .ch rfl) s v)
@[simp] theorem State.vector_lanes (s : State) (v : Nat) : (State.vector s v).lanes = s.lanes :=
  of_see (fun s => s.lanes) (State.vector_see _ (fun _ _ h => h .lanes rfl) s v)
@[simp] theorem State.vector_st (s : State) (v : Nat) : (State.vector s v).st = s.st :=
  of_see (fun s => s.st) (State.vector_see _ (fun _ _ h => h .st rfl) s v)
@[simp] theorem State.vector_judged (s : State) (v : Nat) : (State.vector s v).judged = s.judged :=
  of_see (fun s => s.judged) (State.vector_see _ (fun _ _ h => h .judged rfl) s v)
@[simp] theorem State.vector_bank (s : State) (v : Nat) : (State.vector s v).bank = s.bank :=
  of_see (fun s => s.bank) (State.vector_see _ (fun _ _ h => h .bank rfl) s v)
@[simp] theorem State.vector_lg (s : State) (v : Nat) : (State.vector s v).lg = s.lg :=
  of_see (fun s => s.lg) (State.vector_see _ (fun _ _ h => h .lg rfl) s v)
@[simp] theorem State.vector_vault (s : State) (v : Nat) : (State.vector s v).vault = s.vault :=
  of_see (fun s => s.vault) (State.vector_see _ (fun _ _ h => h .vault rfl) s v)
@[simp] theorem State.vector_cont (s : State) (v : Nat) : (State.vector s v).cont = s.cont :=
  of_see (fun s => s.cont) (State.vector_see _ (fun _ _ h => h .cont rfl) s v)
@[simp] theorem State.vector_place (s : State) (v : Nat) : (State.vector s v).place = s.place :=
  of_see (fun s => s.place) (State.vector_see _ (fun _ _ h => h .place rfl) s v)
@[simp] theorem State.vector_slots (s : State) (v : Nat) : (State.vector s v).slots = s.slots :=
  of_see (fun s => s.slots) (State.vector_see _ (fun _ _ h => h .slots rfl) s v)
@[simp] theorem State.vector_hist (s : State) (v : Nat) : (State.vector s v).hist = s.hist :=
  of_see (fun s => s.hist) (State.vector_see _ (fun _ _ h => h .hist rfl) s v)
@[simp] theorem State.vector_thumbs (s : State) (v : Nat) : (State.vector s v).thumbs = s.thumbs :=
  of_see (fun s => s.thumbs) (State.vector_see _ (fun _ _ h => h .thumbs rfl) s v)
@[simp] theorem State.vector_rt (s : State) (v : Nat) : (State.vector s v).rt = s.rt :=
  of_see (fun s => s.rt) (State.vector_see _ (fun _ _ h => h .rt rfl) s v)
@[simp] theorem State.vector_holdBy (s : State) (v : Nat) : (State.vector s v).holdBy = s.holdBy :=
  of_see (fun s => s.holdBy) (State.vector_see _ (fun _ _ h => h .holdBy rfl) s v)
@[simp] theorem State.vector_mer (s : State) (v : Nat) : (State.vector s v).mer = s.mer :=
  of_see (fun s => s.mer) (State.vector_see _ (fun _ _ h => h .mer rfl) s v)
@[simp] theorem State.vector_fw (s : State) (v : Nat) : (State.vector s v).fw = s.fw :=
  of_see (fun s => s.fw) (State.vector_see _ (fun _ _ h => h .fw rfl) s v)
@[simp] theorem State.vector_trans (s : State) (v : Nat) : (State.vector s v).trans = s.trans :=
  of_see (fun s => s.trans) (State.vector_see _ (fun _ _ h => h .trans rfl) s v)
@[simp] theorem State.vector_am (s : State) (v : Nat) : (State.vector s v).am = s.am :=
  of_see (fun s => s.am) (State.vector_see _ (fun _ _ h => h .am rfl) s v)
@[simp] theorem State.vector_cal (s : State) (v : Nat) : (State.vector s v).cal = s.cal :=
  of_see (fun s => s.cal) (State.vector_see _ (fun _ _ h => h .cal rfl) s v)
@[simp] theorem State.vector_power (s : State) (v : Nat) : (State.vector s v).power = s.power :=
  of_see (fun s => s.power) (State.vector_see _ (fun _ _ h => h .power rfl) s v)

end Sys2Proof.Machine
end

