-- ==== Sys2Proof/WellFormed.lean ====
section
/-! DEFINITION. Which commands are well formed: every value within the width of the field that carries it. -/

namespace Sys2Proof

/-- R12, R22: device time is a U64. -/
def timeOk (t : Nat) : Bool := decide (t < 2 ^ 64)

/-- R5: a list of bytes. -/
def bytesOk (l : List Byte) : Bool := l.all (fun b => decide (b < 256))

/-- A value of `n` bits. -/
def bitsOk (n v : Nat) : Bool := decide (v < 2 ^ n)

/-- A list of values of `n` bits. -/
def listOk (n : Nat) (l : List Nat) : Bool := l.all (fun v => decide (v < 2 ^ n))

/-- A signed value of `n` bits. -/
def signedOk (n : Nat) (v : Int) : Bool := decide (-(2 ^ (n - 1) : Int) ≤ v) && decide (v < (2 ^ (n - 1) : Int))

/-- R370: a doorbell value fits its width. -/
def AckWrite.ok (w : AckWrite) : Bool :=
  match w with
  | .whole v => bitsOk 64 v
  | .low v => bitsOk 32 v
  | .high v => bitsOk 32 v

/-- A progress fits its fields. -/
def DmaProgress.ok (p : DmaProgress) : Bool := bitsOk 64 p.moved && bytesOk p.data && decide (p.staged ≤ 2048)

/-- R410: an error fits `DR_LAST_ERROR`. -/
def DramError.ok (e : DramError) : Bool :=
  match e.site with
  | .shared a => decide (a < 66035122176)
  | .own _ o => decide (8254390272 ≤ o) && decide (o < 8321499136)

/-- R399: the error of a read that fails in DRAM is uncorrectable. -/
def ReadFault.ok (f : ReadFault) : Bool :=
  match f with
  | .host => true
  | .dram e => e.ok && e.uncorrectable

/-- R417: a datagram fits its fields. -/
def Datagram.ok (d : Datagram) : Bool :=
  bitsOk 8 d.hops && bitsOk 8 d.tag && bitsOk 16 d.select && bitsOk 32 d.address && decide (d.data.length ≤ 1480) &&
    bytesOk d.data && bitsOk 8 d.served && bitsOk 8 d.refused && bitsOk 16 d.first && bitsOk 8 d.faults

/-- R503: the requests and the margin of a lane's training fit. -/
def LaneTraining.ok (x : LaneTraining) : Bool := decide (x.requests.length ≤ 256) && bitsOk 16 x.margin

/-- A calibration result fits its fields: 32 cells a link (R530). -/
def CalOutcome.ok (c : CalOutcome) : Bool :=
  match c with
  | .vernier _ delays cells => decide (delays.length = 32) && listOk 16 delays && bitsOk 32 cells
  | _ => true

/-- R343: a copy of a ledger fits its fields. -/
def LedgerCopy.wf (x : LedgerCopy) : Bool :=
  bitsOk 64 x.nextSeq && bitsOk 64 x.nextOrder && bitsOk 64 x.recAck && bitsOk 64 x.outAck &&
    x.records.all (fun r => bitsOk 64 r.1 && bytesOk r.2) &&
    x.orders.all (fun o => bitsOk 64 o.1 && bitsOk 64 o.2.1 && bitsOk 8 o.2.2.1 && bytesOk o.2.2.2)

/-- R540: repairs and spares are U16. -/
def StartReport.ok (r : StartReport) : Bool :=
  r.repairs.all (fun x => bitsOk 16 x.2.1 && bitsOk 16 x.2.2) && r.mirror.all LedgerCopy.wf


/-- R354, R355: what a loan carries of a failover fits its fields. -/
def LoanPart.ok (k : LoanPart) : Bool :=
  bitsOk 64 k.first && bitsOk 16 k.anchor && bitsOk 32 k.index && bitsOk 64 k.last && bitsOk 16 k.lo && bitsOk 16 k.hi

/-- R115: a snapshot fits its fields. -/
def RcSnapshot.ok (x : RcSnapshot) : Bool :=
  bitsOk 64 x.line && bitsOk 32 x.epoch && bitsOk 16 x.width && bitsOk 16 x.status && decide (x.online.length ≤ 64) &&
    x.sites.all (fun v => bitsOk 16 v.age && bitsOk 16 v.drun && bitsOk 5 v.reacq)

/-- R207, R355: a SETTINGS packet fits its fields. -/
def LoanSettings.ok (x : LoanSettings) : Bool :=
  x.values.all (fun v => bitsOk 24 v.1 && signedOk 64 v.2) && x.blobs.all (fun v => bitsOk 24 v.1 && bytesOk v.2) &&
    bitsOk 64 x.line && bitsOk 64 x.since && bitsOk 64 x.restart && x.snapshot.all RcSnapshot.ok && x.kept.all LoanPart.ok

/-- The shape every command must have before it is queued: its time a U64 (R12), its values inside their fields. -/
def Instr.wf (i : Instr) : Bool :=
  match i with
  | .objectWrite t _ object value => timeOk t && bitsOk 24 object && bytesOk value
  | .wideReadLatch t _ object => timeOk t && bitsOk 24 object
  | .counterClear t _ object value => timeOk t && bitsOk 24 object && bytesOk value
  | .rweWrite t _ object value => timeOk t && bitsOk 24 object && bytesOk value
  | .epochPendingWrite t _ _ value => timeOk t && bytesOk value
  | .timeUnlock t => timeOk t
  | .timeRelock t => timeOk t
  | .qeCount t _ _ _ => timeOk t.time && timeOk t.stable
  | .qeStandstillTimeout t _ => timeOk t
  | .qeIndex t _ => timeOk t.time && timeOk t.stable
  | .spWordStart t _ => timeOk t
  | .spWord t _ word startTime => timeOk t && bitsOk 40 word && timeOk startTime
  | .spTimeout t _ => timeOk t
  | .spEnableWrite t _ _ _ value => timeOk t && bytesOk value
  | .lineTrigger t _ => timeOk t
  | .triggerDeferredIssue t _ => timeOk t
  | .tgPeriodWrite t _ _ value => timeOk t && bytesOk value
  | .tgDividerWrite t _ _ value => timeOk t && bytesOk value
  | .camEnableWrite t _ _ value => timeOk t && bytesOk value
  | .camLanesWrite t _ _ value => timeOk t && bytesOk value
  | .camRateWrite t _ _ value => timeOk t && bytesOk value
  | .discoveryDone t _ found => timeOk t && bytesOk found.vendor && bytesOk found.model && bytesOk found.serial
  | .discoveryRetry t _ => timeOk t
  | .linkRetry t _ => timeOk t
  | .camLinkReturn t _ => timeOk t
  | .camRegRead t _ _ => timeOk t
  | .camRegWrite t _ _ => timeOk t
  | .camRegAbort t _ _ => timeOk t
  | .camRegComplete t _ code data => timeOk t && bitsOk 8 code && bytesOk data
  | .camRegTimeout t _ => timeOk t
  | .camAck t _ _ code => timeOk t && bitsOk 8 code
  | .skewReadback t _ _ code value => timeOk t && bitsOk 8 code && bitsOk 32 value
  | .camEventPacket t _ id data => timeOk t && bitsOk 16 id && bytesOk data
  | .camHeartbeat t _ => timeOk t
  | .camHbTimeout t _ => timeOk t
  | .laneLockLoss t _ _ => timeOk t
  | .streamPacket t _ packet => timeOk t && listOk 14 packet.samples
  | .lineDeadline t _ line => timeOk t && bitsOk 64 line
  | .replayCommit t _ line => timeOk t && bitsOk 64 line
  | .rcLine t _ => timeOk t.time && decide (t.ahead ≤ 65536)
  | .defectMapWrite t _ _ blob => timeOk t && bytesOk blob
  | .plateRefWrite t _ _ blob => timeOk t && bytesOk blob
  | .rgLine t _ _ => timeOk t
  | .objectLeaveSeg t _ => timeOk t
  | .atlasScrubPass t _ _ => timeOk t
  | .atBlobWrite t _ _ blob => timeOk t && bytesOk blob
  | .atLoad t _ _ => timeOk t
  | .atLoadCancel t _ _ => timeOk t
  | .atLoadDone t _ => timeOk t
  | .atlasHoldEnd t _ => timeOk t
  | .atlasShadowReload t _ _ => timeOk t
  | .stMapWrite t _ _ blob => timeOk t && bytesOk blob
  | .stCalStart t _ => timeOk t
  | .stCalCancel t _ => timeOk t
  | .stCalDone t _ levels => timeOk t && levels.all (fun x => bitsOk 16 x.1 && bitsOk 16 x.2)
  | .groupResolve t => timeOk t
  | .summary t _ payload => timeOk t && bytesOk payload
  | .watermark t _ time => timeOk t && bitsOk 64 time
  | .watermarkSend t _ => timeOk t
  | .taken t _ seq parts orders => timeOk t && bitsOk 64 seq && listOk 64 parts && orders.all bytesOk
  | .takenAck t _ part _ => timeOk t && bitsOk 64 part
  | .seamWaitTimeout t => timeOk t
  | .takenTimeout t => timeOk t
  | .loanStart t _ _ => timeOk t
  | .loanLine t _ line => timeOk t && bitsOk 64 line.line && bitsOk 64 line.trig && signedOk 48 line.belt && bitsOk 32 line.epoch && bitsOk 8 line.flags && line.rows.all (listOk 14)
  | .loanSettings t _ settings => timeOk t && settings.ok
  | .objectAccept t => timeOk t
  | .vdProgramWrite t _ _ blob => timeOk t && bytesOk blob
  | .classTableWrite t _ _ _ values => timeOk t && bytesOk values
  | .programHoldEnd t _ => timeOk t
  | .frameFreeze t _ k => timeOk t && bitsOk 64 k
  | .frameTransmit t _ => timeOk t
  | .surfaceWaitTimeout t => timeOk t
  | .prechargePeriodic t _ => timeOk t
  | .echo t _ frame flags executed _ => timeOk t && bitsOk 16 frame && bitsOk 8 flags && bitsOk 64 executed
  | .echoTimeout t _ => timeOk t
  | .statusTimeout t _ => timeOk t
  | .valveStatus t _ words board _ => timeOk t && decide (words.length = 64) && listOk 32 words && bitsOk 32 board
  | .ping t _ => timeOk t
  | .pingReturn t _ => timeOk t
  | .interlockOpen t _ => timeOk t
  | .interlockRelease t => timeOk t
  | .ejValveStateWrite t _ _ value => timeOk t && bytesOk value
  | .ejLinkLeadWrite t _ value => timeOk t && bytesOk value
  | .remoteOrder t _ payload => timeOk t && bytesOk payload
  | .subResult t _ payload => timeOk t && bytesOk payload
  | .remoteWaitTimeout t orderId => timeOk t && bitsOk 64 orderId
  | .recordWrite t => timeOk t
  | .outcomeWrite t => timeOk t
  | .recAckSeqWrite t _ value => timeOk t && bytesOk value
  | .outAckOrderWrite t _ value => timeOk t && bytesOk value
  | .recAck t write => timeOk t && write.ok
  | .outAck t write => timeOk t && write.ok
  | .ringIrqTimeout t _ => timeOk t
  | .thumbWrite t => timeOk t
  | .czBlockDone t _ _ data sourceError _ => timeOk t && bytesOk data && sourceError.all ReadFault.ok
  | .islandReset t _ value => timeOk t && bytesOk value
  | .islandResetEnter t _ flushed => timeOk t && bitsOk 48 flushed
  | .islandReady t _ => timeOk t
  | .pipeHeartbeatTimeout t _ last => timeOk t && timeOk last
  | .failover t errors _ => timeOk t && errors.all DramError.ok
  | .spareCaughtUp t _ => timeOk t
  | .rotate t => timeOk t.time && t.errors.all DramError.ok
  | .rotationCompareDone t _ => timeOk t
  | .rotateEpochWaitTimeout t => timeOk t
  | .pipeBistDone t _ result => timeOk t && bitsOk 8 result
  | .ledgerCommit t => timeOk t
  | .ledgerCopyDone t => timeOk t
  | .reissue t => timeOk t
  | .lgDiscard t _ value => timeOk t && bytesOk value
  | .mirrorEntry t _ _ payload => timeOk t && bytesOk payload
  | .mirrorConfirm t _ seq => timeOk t && bitsOk 64 seq
  | .mirrorConfirmTimeout t => timeOk t
  | .cxlLinkUp t _ _ report => timeOk t && bitsOk 64 report.corrected
  | .cxlLinkDown t progress => timeOk t && progress.all DmaProgress.ok
  | .cxlPerst t _ => timeOk t
  | .ideCheckFail t => timeOk t
  | .functionLevelReset t => timeOk t
  | .causeClear t mask => timeOk t && bitsOk 64 mask
  | .mbRead t tag object offset length => timeOk t && bitsOk 16 tag && bitsOk 32 object && bitsOk 32 offset && bitsOk 32 length
  | .mbWrite t tag object offset _ data => timeOk t && bitsOk 16 tag && bitsOk 32 object && bitsOk 32 offset && decide (1 ≤ data.length) && decide (data.length ≤ 4096) && bytesOk data
  | .mbAbort t tag object => timeOk t && bitsOk 16 tag && bitsOk 32 object
  | .mailboxComplete t => timeOk t
  | .segmentTimeout t => timeOk t
  | .windowWrite t address data => timeOk t && bitsOk 64 address && decide (1 ≤ data.length) && bytesOk data
  | .windowRead t address length errors => timeOk t && bitsOk 64 address && decide (1 ≤ length) && bitsOk 64 length && errors.all DramError.ok
  | .dmaCommit t _ block => timeOk t && block.shadow.all (fun b => decide (b.length = 64) && bytesOk b)
  | .dmaAbort t _ progress => timeOk t && progress.all DmaProgress.ok
  | .dmaListFetched t _ elements => timeOk t && elements.all (fun b => decide (b.length = 64) && bytesOk b)
  | .dmaMoverGrant t _ victim => timeOk t && victim.all DmaProgress.ok
  | .dmaHalf t _ data => timeOk t && bytesOk data
  | .dmaDestError t _ progress => timeOk t && progress.all DmaProgress.ok
  | .dmaJobDone t _ data sourceError => timeOk t && bytesOk data && sourceError.all (fun x => bitsOk 64 x.1 && x.2.ok)
  | .refreshDue t _ _ _ _ _ => timeOk t
  | .dramScrubPass t _ errors => timeOk t && errors.all DramError.ok
  | .dramCalibrate t _ _ => timeOk t
  | .dramRequestTimeout t error => timeOk t && error.ok
  | .drChannelFault t loss => timeOk t && loss.ledger.all (fun o => decide (8254390272 ≤ o) && decide (o < 8321499136))
  | .dramRemapDone t => timeOk t
  | .merFrameForward t _ destination source etherType body => timeOk t && decide (destination.length = 6) && bytesOk destination && decide (source.length = 6) && bytesOk source && bitsOk 16 etherType && decide (50 ≤ body.length) && decide (body.length ≤ 1504) && bytesOk body
  | .pass t d => timeOk t && d.ok
  | .fetch t d => timeOk t && d.ok
  | .store t d => timeOk t && d.ok
  | .trade t d => timeOk t && d.ok
  | .mark t d entry offset => timeOk t && d.ok && timeOk (entry + offset)
  | .spread t d entry => timeOk t && d.ok && timeOk entry
  | .ask t d => timeOk t && d.ok
  | .collect t d => timeOk t && d.ok
  | .chainMbxComplete t => timeOk t
  | .merLinkLoss t _ => timeOk t
  | .merLinkUp t _ _ => timeOk t
  | .merTimeTimeout t => timeOk t
  | .merWatchdog t => timeOk t
  | .accessCodeWrite t _ value => timeOk t && bytesOk value
  | .accessUnlockWrite t _ value => timeOk t && bytesOk value
  | .accessLevelWrite t _ value => timeOk t && bytesOk value
  | .accessLevelTimeout t _ => timeOk t
  | .nonceRefresh t => timeOk t
  | .unlockLockoutEnd t _ => timeOk t
  | .reqInit t _ => timeOk t
  | .reqPreop t _ => timeOk t
  | .reqArmed t _ => timeOk t
  | .reqRun t _ => timeOk t
  | .reqHold t _ => timeOk t
  | .stateTransitionDone t => timeOk t
  | .faultEntry t => timeOk t
  | .deviceReset t _ value => timeOk t && bytesOk value
  | .nreset t => timeOk t
  | .fwImageWrite t _ image => timeOk t && bytesOk image
  | .fwImageHostWrite t _ image => timeOk t && bytesOk image
  | .fwFlashDone t _ => timeOk t
  | .fwActivate t _ value => timeOk t && bytesOk value
  | .fwConfirm t _ value => timeOk t && bytesOk value
  | .fwTrialTimeout t => timeOk t
  | .secKeyWrite t _ _ value => timeOk t && bytesOk value
  | .evChConfigWrite t _ _ value => timeOk t && bytesOk value
  | .dmaStart t _ => timeOk t
  | .hostIrq t _ => timeOk t
  | .evtOut t _ => timeOk t
  | .epochDeclare t _ => timeOk t
  | .tw0Start t => timeOk t
  | .stateHold t => timeOk t
  | .stateRun t => timeOk t
  | .timeCapture t _ => timeOk t
  | .wake t => timeOk t
  | .evtIn t _ _ stable => timeOk t && timeOk stable
  | .evtPulseEnd t _ _ => timeOk t
  | .timer t _ => timeOk t
  | .twStretchTimeout t _ held _ => timeOk t && timeOk held.low
  | .twBusError t _ => timeOk t
  | .twArbLost t _ bit => timeOk t && bitsOk 16 bit
  | .twStopSeen t _ => timeOk t
  | .tw0Poll t => timeOk t
  | .tw0PollDone t _ value => timeOk t && bitsOk 8 value
  | .tw0XferCmd t _ value => timeOk t && bytesOk value
  | .tw0XferDone t _ data => timeOk t && bytesOk data && decide (data.length ≤ 32)
  | .tw2Match t => timeOk t.time
  | .tw2Transfer t write read => timeOk t && bytesOk write && bitsOk 16 read
  | .pmbusAlert t words => timeOk t && decide (words.length = 10) && listOk 16 words
  | .amOutputSample t _ codes => timeOk t && listOk 3 codes
  | .amSettled t _ => timeOk t
  | .amOverload t _ _ => timeOk t
  | .amOverloadClear t _ => timeOk t
  | .amFreezeMax t _ => timeOk t
  | .amPeakClear t _ value => timeOk t && bytesOk value
  | .chTrainDone t _ full half _ => timeOk t && full.all LaneTraining.ok && half.all LaneTraining.ok
  | .tapRequest t _ _ _ => timeOk t
  | .hello t _ said => timeOk t && bitsOk 16 said.station && bitsOk 8 said.mode && signedOk 32 said.seamX && listOk 64 said.calIds && listOk 64 said.periods && listOk 64 said.phases
  | .chPacket t _ cls typ seq payload crc => timeOk t && bitsOk 4 cls && bitsOk 8 typ && bitsOk 24 seq && bytesOk payload && decide (payload.length ≤ 4095) && bitsOk 32 crc
  | .chAck t _ seq => timeOk t && bitsOk 32 seq
  | .chNak t _ seq => timeOk t && bitsOk 32 seq
  | .chAckSend t _ => timeOk t
  | .l1Req t _ => timeOk t
  | .l1Ack t _ => timeOk t
  | .chL0sEntry t _ => timeOk t
  | .chWakeProbe t _ _ => timeOk t
  | .chLinkLoss t _ => timeOk t.time
  | .lnPatternWrite t _ _ value => timeOk t && bytesOk value
  | .lnEyeUpdate t _ height width bits errors sent => timeOk t && bitsOk 16 height && bitsOk 16 width && bitsOk 48 bits && bitsOk 48 errors && bitsOk 48 sent
  | .plateRef t _ _ target deadline => timeOk t && bitsOk 12 target && bitsOk 12 deadline
  | .defectMerge t _ _ target deadline => timeOk t && bitsOk 12 target && bitsOk 12 deadline
  | .stitch t _ _ target deadline => timeOk t && bitsOk 12 target && bitsOk 12 deadline
  | .valveLatency t _ _ target deadline => timeOk t && bitsOk 12 target && bitsOk 12 deadline
  | .valveThreshold t _ _ target deadline => timeOk t && bitsOk 12 target && bitsOk 12 deadline
  | .pipeBist t _ _ target deadline => timeOk t && bitsOk 12 target && bitsOk 12 deadline
  | .vernier t _ _ target deadline => timeOk t && bitsOk 12 target && bitsOk 12 deadline
  | .vernierPeriodic t _ delays cells => timeOk t && decide (delays.length = 32) && listOk 16 delays && bitsOk 32 cells
  | .modulatorRotate t _ elements => timeOk t && decide (elements.length = 9) && listOk 32 elements
  | .calDeadline t => timeOk t
  | .calResult t outcome => timeOk t && outcome.ok
  | .calStore t _ => timeOk t
  | .calStoreClear t _ => timeOk t
  | .almanacWrite t => timeOk t
  | .almanacSample t => timeOk t
  | .powerOn t => timeOk t
  | .railStepGood t => timeOk t
  | .pwPgTimeout t _ => timeOk t
  | .pwRetry t => timeOk t
  | .startupStepDone t report => timeOk t && report.ok
  | .pgFall t _ => timeOk t
  | .railPoll t millivolts milliamps => timeOk t && decide (millivolts.length = 10) && decide (milliamps.length = 10) && listOk 16 millivolts && listOk 32 milliamps
  | .tempSample t temps => timeOk t && decide (temps.length = 4) && temps.all (signedOk 16)
  | .thermalRestart t => timeOk t
  | .pwWarmupTimeout t => timeOk t
  | .vinFall t millivolts => timeOk t && bitsOk 32 millivolts
  | .vinRise t millivolts lowest => timeOk t && bitsOk 32 millivolts && bitsOk 32 lowest
  | .vinSag t lowest => timeOk t && bitsOk 32 lowest
  | .saveWriteDone t millivolts => timeOk t && bitsOk 32 millivolts
  | .saveResume t => timeOk t
  | .pwSleepCmd t _ value => timeOk t && bytesOk value
  | .ilkLoopClose t _ => timeOk t
  | .nresetRelease t => timeOk t
  | .standbyLoss t => timeOk t
  | .vinCollapse t => timeOk t
  | .camAckTimeout t _ _ _ => timeOk t
  | .lnLockGained t _ => timeOk t
  | .lnLockLost t _ => timeOk t
  | .msixUnmask t entry => timeOk t && bitsOk 64 entry.address && bitsOk 32 entry.data
  | .chL1Idle t _ => timeOk t
  | .calStatusRead t _ => timeOk t
  | .pwStatusRead t _ => timeOk t
  | .evTimerApply t _ => timeOk t
  | .cxlLinkRecovery t => timeOk t
  | .ideKeyProgram t io _ _ => timeOk t && io.all (bitsOk 8)

end Sys2Proof
end

