-- ==== Sys2Proof/Tests/Slice0.lean ====
section
/-! SUPPORT. The model's own tests: terms the well-formedness check refuses, single steps whose results the spec prints, and for
each clause of a statement a state and operands that meet its hypotheses. -/

set_option maxRecDepth 200000

namespace Sys2Proof.Tests

open Sys2Proof Sys2Proof.Machine

/-! ## Results the spec prints -/

/-- R278: the check value over the ASCII bytes of 123456789. -/
theorem test_crc16_check : crc16 [0x31, 0x32, 0x33, 0x34, 0x35, 0x36, 0x37, 0x38, 0x39] = 0x29b1 := by decide

/-- R50's worked example: the word of POSITION 1 is good; with POSITION 3 in it, it is not. -/
theorem test_serial_word : spGood 0x8000008056 = true ∧ spGood 0x8000018056 = false := by decide

/-- R151's worked example: the address of the site (60, 75, 58). -/
theorem test_atlas_address : RgSite.address { u := 60, v := 75, w := 58 } = 0x000f25ba := by decide

/-- R257's worked example: 74 counts of grace. -/
theorem test_grace_counts :
    ((State.reset.putN Obj.RG_BELT_NM_PER_COUNT 4 0 26667).putN Obj.EJ_GRACE_UM 0 0 2000).graceOf 4 1 = 74 := by decide

/-- R83's worked example: 1,024 replay slots of 24,640 bytes. -/
theorem test_replay_slots :
    let s := ((State.reset.putN Obj.CAM_WIDTH 4 0 16384).putN Obj.CAM_DEPTH 4 0 12).putN Obj.TG_MIN_PERIOD_NS 0 4 8333
    (s.replaySlots 4, s.replaySlotBytes 4) = (1024, 24640) := by decide

/-- R13's worked example: a saturated counter reads 0xffff_ffff and then 0x8000_ffff. -/
theorem test_saturated_words :
    let v := satCount 281474976710650 9
    (v % 2 ^ 32, v / 2 ^ 32) = (0xffffffff, 0x8000ffff) := by decide

/-- R11: the count wraps at 2⁴⁷. -/
theorem test_count_wraps : wrap48 (2 ^ 47 - 1 + 1) = -(2 ^ 47) := by decide

/-- The state after a command, where it goes on. -/
def after (c : Instr) (s : State) : State :=
  match exec c s with
  | .next u => u
  | _ => s

/-- R41: A before B counts up in mode ×4. -/
theorem test_count_up : (after (.qeCount ⟨5, 5000⟩ 1 true false) (State.reset.putN Obj.QE_MODE 0 1 3)).rd Obj.QE_POSITION 0 1 = 1 := by
  decide

/-- R41: both lines changing in one sample count as a phase error only. -/
theorem test_phase_error :
    let u := after (.qeCount ⟨5, 5000⟩ 1 true true) (State.reset.putN Obj.QE_MODE 0 1 3)
    (u.rd Obj.QE_POSITION 0 1, u.rd Obj.QE_PHASE_ERRORS 0 1) = (0, 1) := by decide

/-- R10: zero clears a saturated counter; another value is refused with RESULT 5. -/
theorem test_counter_clear :
    let s := (State.reset.putN Obj.ACCESS_LEVEL_CHAIN 0 0 2).putN Obj.QE_PHASE_ERRORS 0 1 (2 ^ 63 + 281474976710655)
    let k := Obj.QE_PHASE_ERRORS.key 0 1
    ((after (.counterClear 5 .chain k (toLe 8 0)) s).rd Obj.QE_PHASE_ERRORS 0 1,
      (after (.counterClear 5 .chain k (toLe 8 1)) s).out) = (0, [.result .chain k 5]) := by decide

/-- R372: a request while STATE is 1 is discarded and counted. -/
theorem test_mailbox_busy :
    let s := { State.reset with cxl := { linkUp := true, mb := { state := 1 } } }
    let u := after (.mbRead 5 7 0x10100000 0 1) s
    (u.rd Obj.CX_MB_REFUSED, u.cxl.mb.request, u.cxl.mb.object) = (1, none, 0x10100000) := by decide

/-- The worked example of the event chapter: channel 5's word names TASK 51 and TASK 72 and no minimum interval. -/
theorem test_channel_word :
    channelTasks 0xa001219c8fffc000 = [51, 72] ∧ channelInterval 5 0xa001219c8fffc000 = 0 := by decide

/-- No word spells a command (log entry 2), so a fetch word changes nothing. -/
theorem test_no_word (n w : Nat) : decodeTableWord n w = none := rfl

/-- An idle step leaves the state as it is (log entry 1). -/
theorem test_idle : step State.reset = .next State.reset := rfl

/-- One step takes the front command and leaves the rest. -/
theorem test_front_runs :
    (match step { State.reset with pending := [.qeCount ⟨5, 5000⟩ 1 true false, .mailboxComplete 9] } with
      | .next u => u.pending
      | _ => []) = [.mailboxComplete 9] := by decide

/-- R375: an access beyond the window faults. -/
theorem test_outside_window :
    (match exec (.windowRead 5 (2 ^ 50) 4 [])
        (State.setBit { State.reset with cxl := { State.reset.cxl with linkUp := true } } Obj.CX_LINK_STATUS 0 0 clHdm true) with
      | .fault (.outsideWindow a) => a
      | _ => 0) = 2 ^ 50 := by decide

/-- FIPS 180-4's example message "abc" and its SHA-384. -/
theorem test_sha384_abc : (sha384 [0x61, 0x62, 0x63]).take 8 = [0xcb, 0x00, 0x75, 0x3f, 0x45, 0xa3, 0x5e, 0x8b] := by
  unfold sha384
  decide +kernel

/-! ## What the well-formedness check refuses -/

/-- A datagram with `n` bytes of data. -/
def dgram (n : Nat) : Datagram :=
  { port := 0, hops := 0, scope := 0, tag := 0, select := 0, address := 0, data := List.replicate n 0, served := 0,
    refused := 0, first := 0, more := false, fcsOk := true }

/-- Commands with one value outside its field each. -/
theorem test_refuses_ill_formed_a : ([
    .timeUnlock (2 ^ 64),
    .objectWrite 0 .chain (2 ^ 24) [],
    .objectWrite 0 .chain 0 [256],
    .wideReadLatch 0 .chain (2 ^ 24),
    .counterClear 0 .chain (2 ^ 24) [],
    .counterClear 0 .chain 0 [256],
    .rweWrite 0 .chain (2 ^ 24) [],
    .rweWrite 0 .chain 0 [256],
    .epochPendingWrite 0 .chain 0 [256],
    .qeCount ⟨0, 2 ^ 64⟩ 0 false false,
    .qeIndex ⟨0, 2 ^ 64⟩ 0,
    .spWord 0 0 (2 ^ 40) 0,
    .spWord 0 0 0 (2 ^ 64),
    .spEnableWrite 0 .chain 0 false [256],
    .tgPeriodWrite 0 .chain 0 [256],
    .tgDividerWrite 0 .chain 0 [256],
    .camEnableWrite 0 .chain 0 [256],
    .camLanesWrite 0 .chain 0 [256],
    .camRateWrite 0 .chain 0 [256],
    .discoveryDone 0 0 { (⟨[], 1, false, false, true, [], [], []⟩ : Discovery) with vendor := [256] },
    .discoveryDone 0 0 { (⟨[], 1, false, false, true, [], [], []⟩ : Discovery) with model := [256] },
    .discoveryDone 0 0 { (⟨[], 1, false, false, true, [], [], []⟩ : Discovery) with serial := [256] },
    .camRegComplete 0 0 (2 ^ 8) [],
    .camRegComplete 0 0 0 [256],
    .camAck 0 0 false (2 ^ 8),
    .skewReadback 0 0 false (2 ^ 8) 0,
    .skewReadback 0 0 false 0 (2 ^ 32),
    .camEventPacket 0 0 (2 ^ 16) [],
    .camEventPacket 0 0 0 [256],
    .streamPacket 0 0 { (⟨0, 0, true, true, true, true, []⟩ : StreamPacket) with samples := [2 ^ 14] }] : List Instr).all (fun i => !i.wf) = true := by decide

/-- Commands with one value outside its field each. -/
theorem test_refuses_ill_formed_b : ([
    .lineDeadline 0 0 (2 ^ 64),
    .replayCommit 0 0 (2 ^ 64),
    .rcLine ⟨0, 65537⟩ 0,
    .defectMapWrite 0 .chain 0 [256],
    .plateRefWrite 0 .chain 0 [256],
    .atBlobWrite 0 .chain 0 [256],
    .stMapWrite 0 .chain 0 [256],
    .summary 0 0 [256],
    .watermark 0 0 (2 ^ 64),
    .taken 0 0 (2 ^ 64) [] [],
    .taken 0 0 0 [2 ^ 64] [],
    .taken 0 0 0 [] [[256]],
    .takenAck 0 0 (2 ^ 64) false,
    .loanLine 0 0 { (⟨0, 0, 0, 0, 0, [], []⟩ : LoanLine) with line := 2 ^ 64 },
    .loanLine 0 0 { (⟨0, 0, 0, 0, 0, [], []⟩ : LoanLine) with trig := 2 ^ 64 },
    .loanLine 0 0 { (⟨0, 0, 0, 0, 0, [], []⟩ : LoanLine) with belt := 2 ^ 48 },
    .loanLine 0 0 { (⟨0, 0, 0, 0, 0, [], []⟩ : LoanLine) with epoch := 2 ^ 32 },
    .loanLine 0 0 { (⟨0, 0, 0, 0, 0, [], []⟩ : LoanLine) with flags := 2 ^ 8 },
    .vdProgramWrite 0 .chain 0 [256],
    .classTableWrite 0 .chain 0 0 [256],
    .frameFreeze 0 0 (2 ^ 64),
    .echo 0 0 (2 ^ 16) 0 0 false,
    .echo 0 0 0 (2 ^ 8) 0 false,
    .echo 0 0 0 0 (2 ^ 64) false,
    .valveStatus 0 0 (List.replicate 65 0) 0 false,
    .valveStatus 0 0 (2 ^ 32 :: List.replicate 63 0) 0 false,
    .valveStatus 0 0 (List.replicate 64 0) (2 ^ 32) false,
    .ejValveStateWrite 0 .chain 0 [256],
    .ejLinkLeadWrite 0 .chain [256],
    .remoteOrder 0 0 [256]] : List Instr).all (fun i => !i.wf) = true := by decide

/-- Commands with one value outside its field each. -/
theorem test_refuses_ill_formed_c : ([
    .subResult 0 0 [256],
    .remoteWaitTimeout 0 (2 ^ 64),
    .recAckSeqWrite 0 .chain [256],
    .outAckOrderWrite 0 .chain [256],
    .recAck 0 (.low (2 ^ 32)),
    .outAck 0 (.high (2 ^ 32)),
    .czBlockDone 0 0 0 [256] none false,
    .czBlockDone 0 0 0 [] (some (.dram ⟨.shared 0, false⟩)) false,
    .islandReset 0 .chain [256],
    .islandResetEnter 0 0 (2 ^ 48),
    .pipeHeartbeatTimeout 0 0 (2 ^ 64),
    .failover 0 [⟨.shared 66035122176, false⟩] false,
    .rotate ⟨0, false, [⟨.own 0 8254390271, false⟩]⟩,
    .pipeBistDone 0 0 (2 ^ 8),
    .lgDiscard 0 .chain [256],
    .mirrorEntry 0 0 false [256],
    .mirrorConfirm 0 0 (2 ^ 64),
    .cxlLinkUp 0 0 0 ⟨true, 2 ^ 64⟩,
    .cxlLinkDown 0 [⟨0, 2 ^ 64, [], 0⟩],
    .causeClear 0 (2 ^ 64),
    .mbRead 0 (2 ^ 16) 0 0 0,
    .mbRead 0 0 (2 ^ 32) 0 0,
    .mbRead 0 0 0 (2 ^ 32) 0,
    .mbRead 0 0 0 0 (2 ^ 32),
    .mbWrite 0 (2 ^ 16) 0 0 false [1],
    .mbWrite 0 0 (2 ^ 32) 0 false [1],
    .mbWrite 0 0 0 (2 ^ 32) false [1],
    .mbWrite 0 0 0 0 false [],
    .mbWrite 0 0 0 0 false (List.replicate 4097 0),
    .mbWrite 0 0 0 0 false [256]] : List Instr).all (fun i => !i.wf) = true := by decide

/-- Commands with one value outside its field each. -/
theorem test_refuses_ill_formed_d : ([
    .mbAbort 0 (2 ^ 16) 0,
    .mbAbort 0 0 (2 ^ 32),
    .windowWrite 0 (2 ^ 64) [1],
    .windowWrite 0 0 [],
    .windowWrite 0 0 [256],
    .windowRead 0 (2 ^ 64) 1 [],
    .windowRead 0 0 0 [],
    .windowRead 0 0 (2 ^ 64) [],
    .windowRead 0 0 1 [⟨.shared 66035122176, false⟩],
    .dmaCommit 0 0 ⟨some [], true⟩,
    .dmaAbort 0 0 (some ⟨0, 0, [256], 0⟩),
    .dmaListFetched 0 0 [[]],
    .dmaMoverGrant 0 false (some ⟨0, 0, [256], 0⟩),
    .dmaHalf 0 0 [256],
    .dmaDestError 0 0 (some ⟨0, 0, [256], 0⟩),
    .dmaJobDone 0 0 [256] none,
    .dmaJobDone 0 0 [] (some (2 ^ 64, .host)),
    .dmaJobDone 0 0 [] (some (0, .dram ⟨.own 0 0, true⟩)),
    .dramScrubPass 0 false [⟨.shared 66035122176, false⟩],
    .dramRequestTimeout 0 ⟨.own 0 8321499136, false⟩,
    .drChannelFault 0 ⟨0, some 8254390271⟩,
    .drChannelFault 0 ⟨0, some 8321499136⟩,
    .merFrameForward 0 0 (List.replicate 7 0) (List.replicate 6 0) 0 (List.replicate 50 0),
    .merFrameForward 0 0 (256 :: List.replicate 5 0) (List.replicate 6 0) 0 (List.replicate 50 0),
    .merFrameForward 0 0 (List.replicate 6 0) (List.replicate 7 0) 0 (List.replicate 50 0),
    .merFrameForward 0 0 (List.replicate 6 0) (256 :: List.replicate 5 0) 0 (List.replicate 50 0),
    .merFrameForward 0 0 (List.replicate 6 0) (List.replicate 6 0) (2 ^ 16) (List.replicate 50 0),
    .merFrameForward 0 0 (List.replicate 6 0) (List.replicate 6 0) 0 (List.replicate 49 0),
    .merFrameForward 0 0 (List.replicate 6 0) (List.replicate 6 0) 0 (List.replicate 1505 0),
    .merFrameForward 0 0 (List.replicate 6 0) (List.replicate 6 0) 0 (256 :: List.replicate 49 0)] : List Instr).all (fun i => !i.wf) = true := by decide

/-- Commands with one value outside its field each. -/
theorem test_refuses_ill_formed_e : ([
    .pass 0 (dgram 1481),
    .fetch 0 (dgram 1481),
    .store 0 (dgram 1481),
    .trade 0 (dgram 1481),
    .mark 0 (dgram 1481) 0 0,
    .mark 0 (dgram 0) (2 ^ 64) 0,
    .spread 0 (dgram 1481) 0,
    .spread 0 (dgram 0) (2 ^ 64),
    .ask 0 (dgram 1481),
    .collect 0 (dgram 1481),
    .accessCodeWrite 0 .chain [256],
    .accessUnlockWrite 0 .chain [256],
    .accessLevelWrite 0 .chain [256],
    .deviceReset 0 .chain [256],
    .fwImageWrite 0 .chain [256],
    .fwImageHostWrite 0 .chain [256],
    .fwActivate 0 .chain [256],
    .fwConfirm 0 .chain [256],
    .secKeyWrite 0 .chain 0 [256],
    .evChConfigWrite 0 .chain 0 [256],
    .evtIn 0 0 false (2 ^ 64),
    .twStretchTimeout 0 0 ⟨2 ^ 64, false⟩ false,
    .twArbLost 0 0 (2 ^ 16),
    .tw0PollDone 0 false (2 ^ 8),
    .tw0XferCmd 0 .chain [256],
    .tw0XferDone 0 false [256],
    .tw0XferDone 0 false (List.replicate 33 0),
    .tw2Transfer 0 [256] 0,
    .tw2Transfer 0 [] (2 ^ 16),
    .pmbusAlert 0 (List.replicate 11 0)] : List Instr).all (fun i => !i.wf) = true := by decide

/-- Commands with one value outside its field each. -/
theorem test_refuses_ill_formed_f : ([
    .pmbusAlert 0 (2 ^ 16 :: List.replicate 9 0),
    .amOutputSample 0 0 [2 ^ 3],
    .amPeakClear 0 .chain [256],
    .chTrainDone 0 0 [⟨0, List.replicate 257 (.preset 0), 0⟩] [] [],
    .chTrainDone 0 0 [] [⟨0, [], 2 ^ 16⟩] [],
    .hello 0 0 { (⟨true, 0, 0, 0, [], [], []⟩ : Hello) with station := 2 ^ 16 },
    .hello 0 0 { (⟨true, 0, 0, 0, [], [], []⟩ : Hello) with mode := 2 ^ 8 },
    .hello 0 0 { (⟨true, 0, 0, 0, [], [], []⟩ : Hello) with seamX := 2 ^ 32 },
    .hello 0 0 { (⟨true, 0, 0, 0, [], [], []⟩ : Hello) with calIds := [2 ^ 64] },
    .hello 0 0 { (⟨true, 0, 0, 0, [], [], []⟩ : Hello) with periods := [2 ^ 64] },
    .hello 0 0 { (⟨true, 0, 0, 0, [], [], []⟩ : Hello) with phases := [2 ^ 64] },
    .chPacket 0 0 (2 ^ 4) 0 0 [] 0,
    .chPacket 0 0 0 (2 ^ 8) 0 [] 0,
    .chPacket 0 0 0 0 (2 ^ 24) [] 0,
    .chPacket 0 0 0 0 0 [256] 0,
    .chPacket 0 0 0 0 0 (List.replicate 4096 0) 0,
    .chPacket 0 0 0 0 0 [] (2 ^ 32),
    .chAck 0 0 (2 ^ 32),
    .chNak 0 0 (2 ^ 32),
    .lnPatternWrite 0 .chain 0 [256],
    .lnEyeUpdate 0 0 (2 ^ 16) 0 0 0 0,
    .lnEyeUpdate 0 0 0 (2 ^ 16) 0 0 0,
    .lnEyeUpdate 0 0 0 0 (2 ^ 48) 0 0,
    .lnEyeUpdate 0 0 0 0 0 (2 ^ 48) 0,
    .lnEyeUpdate 0 0 0 0 0 0 (2 ^ 48),
    .plateRef 0 .chain false (2 ^ 12) 0,
    .plateRef 0 .chain false 0 (2 ^ 12),
    .defectMerge 0 .chain false (2 ^ 12) 0,
    .defectMerge 0 .chain false 0 (2 ^ 12),
    .stitch 0 .chain false (2 ^ 12) 0] : List Instr).all (fun i => !i.wf) = true := by decide

/-- Commands with one value outside its field each. -/
theorem test_refuses_ill_formed_g : ([
    .stitch 0 .chain false 0 (2 ^ 12),
    .valveLatency 0 .chain false (2 ^ 12) 0,
    .valveLatency 0 .chain false 0 (2 ^ 12),
    .valveThreshold 0 .chain false (2 ^ 12) 0,
    .valveThreshold 0 .chain false 0 (2 ^ 12),
    .pipeBist 0 .chain false (2 ^ 12) 0,
    .pipeBist 0 .chain false 0 (2 ^ 12),
    .vernier 0 .chain false (2 ^ 12) 0,
    .vernier 0 .chain false 0 (2 ^ 12),
    .vernierPeriodic 0 0 (List.replicate 33 0) 0,
    .vernierPeriodic 0 0 (2 ^ 16 :: List.replicate 31 0) 0,
    .vernierPeriodic 0 0 (List.replicate 32 0) (2 ^ 32),
    .modulatorRotate 0 0 (List.replicate 10 0),
    .modulatorRotate 0 0 (2 ^ 32 :: List.replicate 8 0),
    .calResult 0 (.vernier 0 [] 0),
    .startupStepDone 0 ⟨true, true, [(0, 2 ^ 16, 0)], [], [], [], none⟩,
    .railPoll 0 (List.replicate 11 0) (List.replicate 10 0),
    .railPoll 0 (List.replicate 10 0) (List.replicate 11 0),
    .railPoll 0 (2 ^ 16 :: List.replicate 9 0) (List.replicate 10 0),
    .railPoll 0 (List.replicate 10 0) (2 ^ 32 :: List.replicate 9 0),
    .tempSample 0 (List.replicate 5 0),
    .tempSample 0 [0, 0, 0, 2 ^ 16],
    .vinFall 0 (2 ^ 32),
    .vinRise 0 (2 ^ 32) 0,
    .vinRise 0 0 (2 ^ 32),
    .vinSag 0 (2 ^ 32),
    .saveWriteDone 0 (2 ^ 32),
    .pwSleepCmd 0 .chain [256],
    .msixUnmask 0 ⟨0, 2 ^ 64, 0, false⟩,
    .msixUnmask 0 ⟨0, 0, 2 ^ 32, false⟩] : List Instr).all (fun i => !i.wf) = true := by decide

/-- Commands with one value outside its field each. -/
theorem test_refuses_ill_formed_h : ([
    .ideKeyProgram 0 (some 256) none none,
    .stCalDone 0 0 [(2 ^ 16, 0)],
    .stCalDone 0 0 [(0, 2 ^ 16)],
    .loanSettings 0 0 { homePort := 0, values := [], blobs := [], line := 2 ^ 64 },
    .loanSettings 0 0 { homePort := 0, values := [], blobs := [], restart := 2 ^ 64 },
    .loanSettings 0 0 { homePort := 0, values := [], blobs := [], since := 2 ^ 64 },
    .loanSettings 0 0 { homePort := 0, values := [], blobs := [], kept := [⟨2 ^ 64, 0, 0, 0, 0, 0⟩] },
    .loanLine 0 0 { (⟨0, 0, 0, 0, 0, [], []⟩ : LoanLine) with rows := [[2 ^ 14]] },
    .loanSettings 0 0 { homePort := 0, values := [(2 ^ 24, 0)], blobs := [] },
    .loanSettings 0 0 { homePort := 0, values := [(0, 2 ^ 63)], blobs := [] },
    .loanSettings 0 0 { homePort := 0, values := [], blobs := [(0, [256])] }] : List Instr).all (fun i => !i.wf) = true := by decide

/-! ## The hypotheses of the statements are met -/

def wReset : State := State.reset

def wQe : State := State.reset.putN Obj.QE_MODE 0 1 3

def wIdx : State := ((State.reset.putN Obj.QE_REHOME 0 0 1).put Obj.QE_POSITION 0 0 100).putN Obj.QE_INDEX_TOL 0 0 4

def wChain : State := State.reset.putN Obj.ACCESS_LEVEL_CHAIN 0 0 2

def wPreop : State := wChain.putN Obj.DEVICE_STATE 0 0 stPreop

def wLine : State :=
  (({ wChain with now := 50000 }.putN Obj.DEVICE_STATE 0 0 stRun).putN Obj.CAM_ENABLE 2 0 1).putN Obj.PORT_GROUP 0 2 1

def wUp : State := ((wLine.putN Obj.CAM_LINK_STATUS 2 0 31).putN Obj.CAM_PRESENT 0 0 4).putN Obj.ISLAND_STATE 0 17 1

def wCamRuns (s : State) : State := s.putN Obj.ISLAND_STATE 0 17 1

def wTalk : State := (wCamRuns wPreop).putN Obj.CAM_LINK_STATUS 2 0 31

def wWin : State := (wTalk.putN Obj.CAM_REG_STATUS 2 0 1).setCam 2 { winOn := true }

def wSlot : Slot := { line := 7, trig := 100, belt := 0, epoch := 1 }

def wFound (refused : Bool) (n : Nat) : Discovery :=
  { answers := ([0, 1, 2, 3].take n).map (fun i => { lane := Fin.ofNat 4 i, identity := 9, connId := i }), refused := refused, streams := 1,
    areaScan := false,
    trained := true, vendor := [65], model := [66], serial := [67] }

def wPacket (start good : Bool) (xs : List Nat) : StreamPacket :=
  { stream := 0, row := 0, lineStart := start, headerOk := good, payloadOk := true, rowEnd := true, samples := xs }

def wWrite (rb : Bool) : CamWrite := { gain := false, value := 192, epoch := 3, first := 90, readback := rb }

def wLate : CapLine :=
  { line := 1, trig := 5, belt := 0, epoch := 1, flags := 0, port := 2, group := 1, spans := [(0, 0)], arrival := 9, rows := [[]] }

def wCap : CapLine :=
  { line := 1, trig := 5, belt := 0, epoch := 0, flags := 0, port := 2, group := 1, spans := [(0, 4)], arrival := 9,
    rows := [[1, 2, 3, 4]] }

def wRl : RegLine := { cap := wCap, rows := [[{ v := 9, inv := false }]] }

def wPipe : State := (wUp.putN Obj.RV_PORT_PIPELINE 0 2 2).putN Obj.ISLAND_STATE 0 4 1

def wRg : State :=
  (wPipe.putN Obj.CAM_WIDTH 2 0 4).setRg 2 { queue := [(7, wRl)] }

def wRgHeld : State := wRg.setRg 2 { wRg.rgp 2 with tracks := [{ id := 0, first := 0, col := 0, group := 1, epoch := 0 }] }

def wAtlasHead : List Byte :=
  toLe 4 0x534c5441 ++ [1, 0, 1, 0] ++ toLe 4 96 ++ toLe 4 0 ++ toLe 8 77 ++ List.replicate 36 0

def wAtlas : List Byte :=
  wAtlasHead ++ toLe 4 (crc32c wAtlasHead) ++ (List.replicate 32 [255, 255, 3]).flatten

def wAt : State := wPreop.putN Obj.SEC_UNSIGNED_POLICY 0 0 0

def wAtMem : State :=
  ((wAt.putN Obj.AT_LOAD_ADDR 2 0 (wAt.scratchBase)).putN Obj.AT_LOAD_BYTES 2 0 160).memStore wAt.scratchBase wAtlas

def wMapBody (id : Nat) : List Byte :=
  toLe 4 0x50414d58 ++ toLe 2 2 ++ toLe 2 0 ++ toLe 8 0 ++ toLe 8 1000 ++ List.replicate 32 0 ++ List.replicate 1024 0 ++ toLe 8 id

def wMap : List Byte := wMapBody 0 ++ toLe 4 (crc32c (wMapBody 0))

def wTargetHead : List Byte :=
  toLe 4 0x47545358 ++ toLe 2 15 ++ toLe 2 0 ++ toLe 8 7 ++
    (List.range 15).flatMap (fun (i : Nat) => toLe 4 (unsignedOf 4 (16 * (i : Int) - 120)))

def wTarget : List Byte := wTargetHead ++ toLe 4 (crc32c wTargetHead)

def wCalMapBody : List Byte :=
  toLe 4 0x50414d58 ++ toLe 2 16 ++ toLe 2 0 ++ toLe 8 0 ++ toLe 8 1280 ++ List.replicate 32 0 ++ List.replicate 1024 0 ++ toLe 8 0

def wCalMap : List Byte := wCalMapBody ++ toLe 4 (crc32c wCalMapBody)

def wArmed : State := (wChain.putN Obj.DEVICE_STATE 0 0 stArmed).putN Obj.CAM_ENABLE 2 0 1

def wCalPort : State := (wArmed.putN Obj.ST_CAL_STATE 0 0 1).putN Obj.CAM_WIDTH 2 0 16

def wCalRun : State :=
  let s := (wCalPort.putBlob Obj.ST_MAP 2 0 wCalMap).putBlob Obj.ST_CAL_TARGET 0 0 wTarget
  { s with st := { s.st with
    calLines := [(2, 65535)], calSums := [(2, (List.range 16).map (fun c => (20 * (c % 2), 1)))] } }

def wPart : SgObj :=
  { id := 1, key := some 0, port := 2, group := 1, epoch := 0, first := 3, last := 4, anchorLine := 3, anchorCol := 1,
    acc := { area := 3, minCol := some 1, maxCol := 2 } }

def wPartState : State := (wUp.setSg 2 { done := [wPart] }).putBlob Obj.ST_MAP 2 0 wMap

def wTraffic : State := (wLine.putN Obj.ST_STATUS 0 0 6).putN Obj.CH_STATUS 0 1 1

def wSummary : List Byte := List.replicate 200 0 ++ toLe 4 (crc32c (List.replicate 200 0))

def wHalf (link : Option Nat) (x : Int) : Half :=
  { link := link, port := 2, group := 1, epoch := 0, first := 3, last := 4, firstTime := 5, closeLine := 5, closeTime := 9,
    left := 9, contacts := [{ seam := 0, west := link.isSome, first := 5, last := 6 }], x := x, centre := 0, slope := 0,
    acc := { area := 3, minCol := some 0 }, edge := 0, part := 0, result := {}, anchorCol := 0, anchorX := 0 }

def wPair (x : Int) : SeamGroup := { halves := [wHalf (some 0) x, wHalf none x], closed := 9, waiting := none }

def wStitch (g : SeamGroup) : State :=
  let s := (((wTraffic.putN Obj.ST_ORDER 0 0 2).putBlob Obj.ST_MAP 2 0 wMap).putN Obj.ST_MATCH_NS 0 0 1).setSg 2 { time := 100 }
  { s with st := { s.st with groups := [g], marks := [(0, 100)] } }

def wSent : State := { wTraffic with st := { wTraffic.st with sentAt := [(1, 55000)] } }

def wStitchOpen : State :=
  ((wStitch (wPair 50)).putN Obj.SG_STATUS 2 0 65535).setSg 2
    { time := 1, objs := [{ wPart with contacts := [{ east := false, first := 2, last := 3 }] }] }

def wStitchLate (g : SeamGroup) : State := { wStitch g with st := { (wStitch g).st with marks := [] } }

def wProgHead : List Byte := toLe 4 0x47525053 ++ toLe 2 1 ++ [0, 0] ++ List.replicate 52 0

def wProg : List Byte := wProgHead ++ toLe 4 (crc32c wProgHead)

def wVd : State := wLine.putN Obj.SEC_UNSIGNED_POLICY 0 0 0

def wJudged : Judged :=
  { port := 2, group := 1, epoch := 0, first := 3, last := 4, firstTime := 5, closeLine := 5, closeTime := 9, anchorCol := 1,
    acc := { area := 3, minCol := some 1, maxCol := 2 }, facets := [], flags := 0, mask := 4, result := {}, centroid := 0,
    west := 0, east := 9, wait := 0 }

def wAcc : State := { wPartState with judged := [wJudged] }

def wAccArmed : State := { (wPartState.putN Obj.DEVICE_STATE 0 0 stArmed) with judged := [wJudged] }

def wRec (seq : Nat) : LedgerRecord := { seq := seq, record := [], ext := [] }

def wPartialJudged : Judged := { wJudged with flags := 4 }

def wRejects : State := { (wPartState.putN Obj.ST_PARTIAL_POLICY 0 0 1) with judged := [wPartialJudged] }

def wFull : State :=
  { (wPartState.putN Obj.VD_OVERFLOW_POLICY 0 0 2) with judged := [wJudged], lg := { records := List.replicate 2048 (wRec 0) } }

def wNamed : State :=
  { wTraffic with st := { wTraffic.st with groups := [{ wPair 50 with halves := [{ wHalf none 50 with ids := [(1, 7)] }] }] } }

def wOwn : Flight :=
  { id := 4, kind := .own, seq := 1, orderId := 8, port := 2, accepted := 5,
    transit := { row := 1, lead := 50000, centre := 60000, trail := 70000 }, west := 0, east := 9 }

def wFlight : Flight := { wOwn with remote := [1, 0], named := [(1, 7)] }

def wWaits : State := { wTraffic with bank := { wTraffic.bank with flights := [wFlight] } }

def wLinkUp : State :=
  (((wTraffic.putN Obj.EJ_LINK_ENABLE 0 0 2).putN Obj.EJ_LINK_STATUS 0 1 3).putN Obj.EJ_ILK_STATE 0 0 0).putN Obj.EJ_STATUS 0 0 0

def wFrame (es : List FrameEdge) : Frame := { k := 3, lead := 1000, edges := es }

def wFrozen : State := wLinkUp.setVbl 1 { frozen := [wFrame []] }

def wSentFrame (es : List FrameEdge) (missing : Nat) : State := wLinkUp.setVbl 1 { sent := [wFrame es], missing := missing }

def wEdge : FrameEdge := { channel := 5, code := 1, offset := 0, pulse := 7, on := true }

def wPulse (on : Edge) : Pulse := { id := 7, valve := 69, on := 20000, off := 90000, onEdge := on, orders := [4] }

def wSentEdge : State :=
  { wSentFrame [wEdge] 0 with bank := { (wSentFrame [wEdge] 0).bank with pulses := [wPulse (.frozen 3)] } }

def wGated : State := (wLinkUp.putN Obj.EJ_ILK_STATE 0 0 2).setBit Obj.EJ_STATUS 0 0 ejGated true

def wClosed : State :=
  let s := (wLinkUp.setBit Obj.EJ_STATUS 0 0 ejGated true).putN Obj.DEVICE_STATE 0 0 stHold
  { s with bank := { s.bank with closedAt := some 9 }, holdBy := 1 }

def wCharge : State :=
  (((wLinkUp.putN Obj.EJ_VALVE_STATE 0 69 1).putN Obj.EJ_VALVE_PC_MODE 0 69 2).putN Obj.EJ_VALVE_OPEN_THRESH_NS 0 69
    1000000).putN Obj.EJ_VALVE_PC_WIDTH_NS 0 69 100000

def wRemoteBody : List Byte := List.replicate 52 0 ++ [1] ++ List.replicate 7 0

def wRemotePayload : List Byte := wRemoteBody ++ toLe 4 (crc32c wRemoteBody)

def wRoom : State := { wTraffic with lg := { orders := [{ orderId := 1, seq := 1, row := 1 }] } }

def wSubBody : List Byte := toLe 8 8 ++ toLe 8 60000 ++ toLe 4 20000 ++ [0, 2] ++ List.replicate 6 0

def wSub : List Byte := wSubBody ++ toLe 4 (crc32c wSubBody)

def wSurface : Flight := { wOwn with transit := { wOwn.transit with surface := true } }

def wSurfaceState : State :=
  { wTraffic with bank := { wTraffic.bank with flights := [wSurface], pulses := [wPulse .planned] } }

def wRemoteOnly (l : List Nat) : State := { wTraffic with bank := { wTraffic.bank with flights := [{ wOwn with remote := l }] } }

def wRunning (s : State) : State := (List.range 38).foldl (fun s i => s.putN Obj.ISLAND_STATE 0 i 1) s

def wLedger : State :=
  let s := ((wLine.putN Obj.REC_RING_BASE 0 0 65536).putN Obj.OUT_RING_BASE 0 0 131072).putN Obj.REC_HEAD_SEQ 0 0 3
  { s with cxl := { s.cxl with linkUp := true, unmasked := [1] } }

def wDram : State := wRunning wLedger

def wEntry (stored : Bool) : LedgerRecord := { seq := 4, record := [9, 9], ext := [], stored := stored }

def wLg (stored : Bool) : State := { wDram with lg := { records := [wEntry stored] } }

def wOrder : LedgerOrder := { orderId := 8, seq := 3, row := 1, outcome := [7] }

def wLgOut : State := { wDram with lg := { orders := [wOrder], closed := [8] } }

def wLgOutEarly : State := wLgOut.putN Obj.REC_HEAD_SEQ 0 0 2

def wIrq : State := { wLedger with lg := { recIrq := { count := 2, since := 9 }, outIrq := { count := 1, since := 9 } } }

def wAckable : State := { ((wLedger.putN Obj.OUT_LOW_ORDER 0 0 9).putN Obj.ACCESS_LEVEL_HOST 0 0 2) with lg := { records := [wEntry true], orders := [wOrder], recLow := some 3, outLow := some 8 } }

def wThumbJob : ThumbJob :=
  { seq := 5, port := 2, home := 2, facets := [], row0 := 0, rows := 1, col0 := 0, cols := 1, clipped := false, partial_ := false }

def wThumb : State := { wRunning wLine with thumbs := [wThumbJob], hist := [(2, { rows := [{ row := 0, planes := [[1]] }] })] }

def wCopying : State := { wLine with cont := { wLine.cont with copying := some (1, 3) } }

def wReissue : State :=
  { ((wLg true).putN Obj.ISLAND_STATE 0 35 1).setBit Obj.LG_STATUS 0 0 3 true with draws := 0 }

def wReissueOut : State := wReissue.putN Obj.OUT_RING_BASE 0 0 0

def wInit : State := wChain.putN Obj.DEVICE_STATE 0 0 stInit

def wMirror : State := { (wTraffic.putN Obj.LG_MIRROR_ENABLE 0 0 1).setBit Obj.CH_STATUS 0 0 0 true with lg := { records := [{ wEntry true with mirror := some 9 }] } }

def wServe : State :=
  (((wPipe.putN Obj.RV_SPARE 0 0 12).putN Obj.RV_PIPE_STATE 0 12 1).putN Obj.ISLAND_STATE 0 14 1).putN Obj.RV_ROTATE_MS 0 0 1000

def wFaultOf : PipeFault := { port := 2, pipeline := 2, detected := 60000, since := 50000, cause := 0 }

def wFault : State := { wServe with cont := { wServe.cont with faults := [wFaultOf] } }

def wNoSpare : State := wFault.putN Obj.RV_SPARE 0 0 255

def wReplay : State := (wServe.putN Obj.RV_PIPE_STATE 0 2 5).putN Obj.RV_FAILSAFE_POLICY 0 0 1

def wFail : Failover := { detected := 1, since := 1, committed := 1, restart := 1, start := 1, cut := false }

def wRotation : Rotation := { port := 2, spare := 12, snapshot := 0, begun := some 98 }

def wRotating (c : Option Nat) : State :=
  { wServe with cont := { wServe.cont with rotation := some { wRotation with compared := c } } }

def wTesting : State := (wServe.putN Obj.RV_PIPE_STATE 0 5 3).putN Obj.ISLAND_STATE 0 7 2

def wHeld (i : Nat) : State := wServe.putN Obj.ISLAND_STATE 0 i 2

def wCxl (c : Cxl) : State := { wLine.putN Obj.ISLAND_STATE 0 35 1 with cxl := c }

def wMemState : State := { wLine.setBit Obj.CX_LINK_STATUS 0 0 clHdm true with cxl := { linkUp := true } }

def wBase : Nat := wLine.scratchBase

def wDesc (n : Nat) : List Byte :=
  toLe 8 wBase ++ toLe 8 (wBase + 4096) ++ toLe 4 n ++ List.replicate 40 0 ++ toLe 4 (2 ^ 11 + 2 ^ 12)

def wListDesc : List Byte := toLe 8 wBase ++ toLe 8 (wBase + 4096) ++ toLe 4 8 ++ List.replicate 12 0 ++ toLe 8 wBase ++ List.replicate 20 0 ++ toLe 4 (2 + 2 ^ 11 + 2 ^ 12)

def wJobOf (n : Nat) : DmaJob := dmaJob 1 (wDesc n) []

def wDma (c : DmaChannel) : State := { wLine with cxl := { linkUp := true, dma := [(3, c)] } }

def wJobRun (j : DmaJob) : State := wDma { state := dsRunning, job := some j }

def wHostJob : DmaJob := { wJobOf 8 with dstDev := false }

def wPreempt : State :=
  let c := fun (st p m : Nat) => ({ state := st, job := some { wJobOf 8 with prio := p, mover := m } } : DmaChannel)
  { wLine with cxl := { dma := [(1, c 4 0 2), (2, c 4 0 3), (3, c 3 2 0)] } }

def wCzJob : DmaJob := { wJobOf 100 with czCtrl := 513, outLimit := 4096 }

def wCz : State := { wJobRun wCzJob with cxl := { (wJobRun wCzJob).cxl with engines := [(1, 3, 0)] } }

def wPrio : Nat × Nat → Nat × Nat → Bool := fun b a => decide (a.1 < b.1)

def wDramCh : State := (wLine.putN Obj.DR_CH_STATE 0 3 drReady).putN Obj.DR_UNCORR_LIMIT 0 0 2

def wDebt (l : List Nat) : State := wDramCh.setDram 3 { owed := l, bank := 5 }

def wDramErr (u : Bool) : DramError := { site := .own 3 4160, uncorrectable := u }

def wMer : State := (wLine.putN Obj.ISLAND_STATE 0 islandMer 1).putN Obj.MER_STATION 0 0 7

def wLinked : State := (wMer.setBit Obj.MER_PORT_STATUS 0 0 (mpLink 0) true).setBit Obj.MER_PORT_STATUS 0 0 (mpLink 1) true

def wD (scope : Fin 4) (select address : Nat) (data : List Byte) : Datagram :=
  { port := 0, hops := 2, scope := scope, tag := 1, select := select, address := address, data := data, served := 0, refused := 0,
    first := 0, more := false, fcsOk := true }

def wImage : State := wMer.putN Obj.MAP_IN 0 0 (256 * Obj.DEVICE_STATE.key 0 0)

def wAsk : List Byte := [1, 5, 0, 32, 0, 0, 0, 0, 0, 0, 0, 0, 4, 0, 0, 0]

def wMerBody (version hops : Nat) (area : List Byte) : List Byte := [area.length, 0, version, hops] ++ area ++ [0, 0, 0, 0]

def wMerFrame (version hops : Nat) (area : List Byte) : List Byte := List.replicate 12 0 ++ [0x88, 0xb5] ++ wMerBody version hops area

def wAsked (n : Nat) : State := { wMer with mer := { request := some { askRequest wAsk with length := n } } }

def wReadReq : MbRequest := { askRequest wAsk with object := 256 * Obj.DEVICE_STATE.key 0 0, length := 1 }

def wLongReq : MbRequest := { askRequest wAsk with object := 256 * Obj.DEVICE_STATE.key 0 0, length := 600 }

def wSpread (t0 : Option Nat) (armed : Bool) : State :=
  { wMer with mer := { spread := t0, loop := 600 }, tim := { wMer.tim with armedSinceReset := armed } }

def wSpreadData (texp : Nat) : List Byte := toLe 4 800 ++ toLe 4 0 ++ toLe 8 texp

def wAm (status : Nat) (n : Nat) : State :=
  ((wLine.putN Obj.AM_STATUS 0 n status).putN Obj.AM_CIC_LOG2R 0 n 0).putN Obj.AM_CIC_ORDER 0 n 3

def wAmVal : State := (((wAm 3 9).putN Obj.AM_FIR_MODE 0 9 0).put Obj.AM_OFFSET 0 9 5).put Obj.AM_SCALE 0 9 65536

def wAmIn (n : Nat) : State := (((wAm 3 n).putN Obj.AM_FIR_MODE 0 n 0).putN Obj.AM_RANK 0 n 1).putN Obj.AM_SCALE 0 n (2 ^ 20)

def wAmPress (k : Nat) : State :=
  ((wAmIn 3).putN Obj.EJ_ILK_PRESS_SOURCE 0 0 3).setAm 3 { low := false, lowRun := 1, press := { low := 500, hyst := 9, count := k } }

def wAmBlock : State := (wAmIn 3).setAm 3 { count := 3, block := 4, hi := 7, lo := 2, sum := 12, squares := 60 }

def wFreeze : State := (wAm 3 9).setAm 9 { frozen := some 9 }

def wOver : State := (wAm 7 3).setAm 3 { overAt := 9 }

def wDropped (k : Nat) : State := (wAm 1 3).setAm 3 { dropped := k }

def wCh (width power : Nat) (c : ChPort) : State :=
  ({ wLine with ch := [(1, c)] }.putN Obj.CH_ENABLE 0 1 1).putN Obj.CH_STATUS 0 1 (1 + 4 * width + 512 * power)

def wChd (v : Nat) : State := ((wCh 0 0 {}).putN Obj.ISLAND_STATE 0 islandChd 1).putN Obj.CH_RATE_MAX 0 1 v

def wLanes : List LaneTraining := (List.finRange 8).map (fun n => ⟨n, [], 65535⟩)

def wFar : List (Fin 8 × Bool) := (List.finRange 8).map (fun n => (n, false))

def wCrc (cls typ seq : Nat) (payload : List Byte) : Nat := crc32c (toLe 8 (chordHeader cls typ seq payload.length) ++ payload)

def wPk (n tries : Nat) : ChPacket := { cls := 1, typ := 0, seq := n, payload := [1], tries := tries }

def wReplayCh (tries : Nat) : State := (wCh 3 0 { replay := [wPk 4 tries, wPk 5 tries] }).putN Obj.CH_RETRY_LIMIT 0 0 3

def wHello (east : Bool) : Hello := { east := east, station := 9, mode := 0, seamX := 0, calIds := [], periods := [], phases := [] }

def wIdle : State := (wCh 3 0 {}).putN Obj.CH_L1_MS 0 0 10

def wLoan : State :=
  ((((wCh 3 0 {}).putN Obj.ST_LOAN_ENABLE 0 0 1).putN Obj.ST_STATUS 0 0 6).putN Obj.RV_PORT_PIPELINE 0 2 255).putN
    Obj.CAM_WIDTH 2 0 2048

def wLoanFits (period : Nat) : State := (wLoan.putN Obj.CAM_DEPTH 2 0 8).putN Obj.TG_MIN_PERIOD_NS 0 2 period

def wServes : State := wLoan.putN Obj.RV_SPARE 0 0 12

def wSettings : LoanSettings := { homePort := 3, values := [], blobs := [] }

def wLoanLine : LoanLine := { line := 8, trig := 9, belt := 0, epoch := 1, flags := 0, spans := [], rows := [] }

def wServed : State := { wLoan with st := { wLoan.st with served := [(1, some 3)] } }

def wCal : State := wPreop

def wCalFull : State := { wPreop with cal := { queue := List.replicate 16 { task := 1, target := 3, forced := false, due := 9 } } }

def wReq (task target : Nat) : CalRequest := { task := task, target := target, forced := false, due := 9, started := true, left := [target] }

def wCalQ (r : CalRequest) : State := { wLinkUp with cal := { queue := [r] } }

def wLat : State := { ((wLinkUp.putN Obj.EJ_VALVE_STATE 0 69 1).putN Obj.CAL_LAT_SAMPLES 0 0 4).put Obj.EJ_VALVE_OPEN_LAT_NS 0 69 200000 with cal := { latency := [(69, 4, 8008)] } }

def wCalTwo (r : CalRequest) : State := { wLine with cal := { queue := [{ task := 4, target := 7, forced := false, due := 99999 }, r] } }

def wCalOf (k x : Nat) : State := { wLine.putN Obj.CAM_ENABLE 2 0 1 with cal := { queue := [wReq k x] } }

def wStitchEnd : State := { (wCalOf 3 0).putN Obj.ST_CAL_STATE 0 0 1 with st := { calDone := List.range 12 } }

def wThresh : State := { wLinkUp.putN Obj.EJ_VALVE_STATE 0 69 1 with cal := { queue := [wReq 5 69], sweeps := [(69, { found := [300000, 200000, 400000] })] } }

def wVernAt (t : Nat) : State := { wLinkUp with cal := { vernierAt := [(1, t)] } }

def wRotAt (t : Nat) : State := { wAm 1 3 with cal := { rotatedAt := [(3, t)] } }

def wCells : List Nat := List.replicate 24 250

def wAmOn : State := wAm 1 3

def wPow (p : Power) : State := { wPreop with power := p }

def wQuiet : State := { wPreop with power := { step := 9 } }

def wOff : State := {}

def wRail (r : Nat) : State := { wOff with power := { step := 1, rail := r } }

def wFailed : State := { wOff with power := { step := 1, tries := 1, failed := some 9 } }

def wGaveUp : State := { wOff with power := { step := 1, tries := 3, failed := some 9 } }

def wSaveRun : SaveRun := { cause := 0, since := 9, area := 0 }

def wSaveDone : SaveRun := { wSaveRun with done := some 9 }

def wStep (n : Nat) : State := { wOff with power := { step := n } }

def wLast : State := ({ wOff with power := { step := 8 } }.putN Obj.DEVICE_STATE 0 0 stInit).setBit Obj.LG_STATUS 0 0 lgValid true

def wCopy : LedgerCopy := { nextSeq := 1, nextOrder := 1, recAck := 0, outAck := 0, records := [], orders := [] }

def wReport : StartReport := { slotA := true, slotB := true, repairs := [], failed := [], dram := [] }

def wLastManual : State := wLast.putN Obj.CAL_STORE_AUTO 0 0 0

def wLastCold : State := wLast.put Obj.PW_TEMP 0 1 (-5)

def wCold : State := { wLastCold with power := { step := 8, coldAt := some 9 } }

def wTripped : State := { wOff with power := { tripped := some 9 } }

def wBelow (b : Nat) : State := wPow { step := 9, below := some b }

def wArea : SaveArea := wPreop.saveArea 0 stPreop

def wStuck : State := { wQuiet with lattice := { wQuiet.lattice with ports := [(1, { stuck := true })] } }

def wSave (done : Option Nat) : State :=
  { (wPreop.putN Obj.DEVICE_STATE 0 0 stSave) with
    power := { step := 9, save := some { cause := 0, since := 9, area := 0, done := done } }, vault := { wPreop.vault with saveA := some wArea } }

def wResume : State := (wSave (some 9)).putN Obj.PW_VIN_MV 0 0 65535

def wHold : State := { (wLine.putN Obj.DEVICE_STATE 0 0 stHold) with holdBy := 0 }

def wFreeHold : State := (wHold.putN Obj.EJ_ILK_STATE 0 0 0).setBit Obj.EJ_STATUS 0 0 ejGated false

def wTrans (target : Nat) : State := { wPreop with trans := some { target := target, since := 9 } }

def wGone (from_ target : Nat) : State :=
  { (wPreop.putN Obj.DEVICE_STATE 0 0 from_) with trans := some { target := target, since := 9 } }

def wAsked2 (s : State) (t : Nat) (path : Path) (target : Nat) : State :=
  (((s.at t).touch path).putN Obj.STATE_REQUEST 0 0 target).answer path (Obj.STATE_REQUEST.key 0 0) 0

def wLive (s : State) : State := (s.preopLive).setBit Obj.TIME_STATUS 0 0 tsReference s.preopLive.timeReference

def wReady : State := (wAsked2 wPreop 60000 .chain stArmed).leavePreop

def wArmWrite : CamWrite := { gain := false, value := 5, epoch := 0, first := 1, arming := true }

def wNoCap : State := wPreop.putN Obj.PW_HOLDUP_CAP_UF 0 0 1

def wUnready : State := (wAsked2 wNoCap 60000 .chain stArmed).leavePreop

def wGoing : State := ((wTrans stArmed).at 60000).leavePreop

def wStuckArm : State := { wNoCap with trans := some { target := stArmed, since := 9 } }

def wBack : State := (wStuckArm.at 60000).leavePreop

def wValid : State := (wPreop.putN Obj.DEVICE_STATE 0 0 stInit).setBit Obj.LG_STATUS 0 0 lgValid true

def wInvalid : State := wPreop.putN Obj.DEVICE_STATE 0 0 stInit

def wUnlocked : State := { wLine with tim := { wLine.tim with oscillator := true } }

def wBooted : State := { wPreop with power := { step := 9 } }

def wLevel (n : Nat) : State := wPreop.putN Obj.ACCESS_LEVEL_CHAIN 0 0 n

def wFails (n : Nat) : State := { wLevel 0 with access := { failsChain := n } }

def wLocked : State := { wLevel 0 with access := { lockChain := 90000 } }

def wHashed : State := (wLevel 0).putBlob Obj.SEC_ACCESS_HASH 0 0 (List.replicate 48 7)

def wCode (level : Nat) : List Byte := level :: List.replicate 16 5

def wKey : List Byte := [1, 0, 4, 4] ++ List.replicate 96 9

def wSlots (f : Firmware) : State := { wPreop with fw := f, power := { step := 9 } }

def wFw : Firmware := { slotA := some { version := 3, rollback := 1 }, running := some false }

def wFw2 : Firmware := { wFw with slotB := some { version := 4, rollback := 2 } }

def wFwWriting : Firmware := { wFw with writing := some { version := 9, rollback := 9 } }

def wTrial : Firmware := { wFw2 with running := some true, trial := some true }

def wAct (task : Nat) (tag : Nat) : State :=
  { wLine with lattice := { activations := [{ task := task, time := 50000, tags := [tag] }] } }

def wActOf (task tag : Nat) : Activation := { task := task, time := 50000, tags := [tag] }

def wBusyDma : State := { wAct 3 1 with cxl := { dma := [(3, { state := 4 })] } }

def wEpochAct : State := wAct 57 1

def wHoldAct : State := (wAct 71 1).putN Obj.DEVICE_STATE 0 0 stHold

def wHoldFree : State := (wHoldAct.putN Obj.EJ_ILK_STATE 0 0 0).setBit Obj.EJ_STATUS 0 0 ejGated false

def wSleep (task : Nat) : State := { wAct task 60 with power := { asleep := true } }

def wPin (mode : Nat) (p : EvtPin) : State :=
  { (wAct 51 1).putN Obj.EV_PIN_MODE 0 3 mode with lattice := { (wAct 51 1).lattice with pins := [(3, p)] } }

def wTimer (p : Nat × Nat) : State := { wLine with lattice := { timers := [(2, p)] } }

def wWord (flags src gate task rate : Nat) : Nat := flags * 2 ^ 60 + src * 2 ^ 49 + gate * 2 ^ 42 + task * 2 ^ 35 + (2 ^ 21 - 1) * 2 ^ 14 + rate

def wCfg (flags src gate task rate : Nat) : State :=
  ((wLine.putN Obj.EV_CH_CONFIG 5 0 (wWord flags src gate task rate)).putN Obj.ISLAND_STATE 0 38 1).putN Obj.ISLAND_STATE 0 1 1

def wLimited : State := { wCfg 8 3 0 72 (4096 + 100) with lattice := { lastFwd := [(5, 49991)] } }

def wTw (tw : TwoWire) (p : TwPort) : State := { wPreop with lattice := { tw := tw, ports := [(0, p)] } }

def wTwPort (k : Nat) (p : TwPort) : State := { wPreop with lattice := { ports := [(k, p)] } }

def wXfer : TwXfer := { address := 33, write := [1], read := 2 }

def wTwAct : State := { wPreop with lattice := { activations := [{ task := 68, time := 50000, tags := [1] }] } }

def wTwActOf : Activation := { task := 68, time := 50000, tags := [1] }

def wMapped (tw : TwoWire) : State := (wTw tw {}).putN Obj.TW0_POCXP_MAP 0 4 (32 * 65536 + 7 * 256 + 16 + 8 + 3)

def wAddr : State := wPreop.putN Obj.TW2_ADDR 0 0 40

def wBusy : State := wTw { xfer := some wXfer, running := 2 } { busy := true }

def wPolling : State := wMapped { polls := [(32, 7)], running := 1 }

def wTw2 : State := wTwPort 2 { busy := true }

def wPmb : State := { wPreop with power := { step := 9 } }

def wHostPath : State := wPreop.putN Obj.ACCESS_LEVEL_HOST 0 0 2

def wMb : State := { wLine with cxl := { linkUp := true } }

def wMbBusy : State := { wMb with cxl := { linkUp := true, mb := { state := 1 } } }

def wMbReq (op object offset length : Nat) (final : Bool) (data : List Byte) : MbRequest :=
  { tag := 7, op := op, object := object, offset := offset, length := length, final := final, data := data }

def wMbAsked (r : MbRequest) : State := { wMb with cxl := { linkUp := true, mb := { state := 1, request := some r } } }

def wMbWith (m : Mailbox) : State := { wMb.putN Obj.ACCESS_LEVEL_HOST 0 0 3 with cxl := { linkUp := true, mb := m } }

def wSeg (offset : Nat) : MbRequest := wMbReq 2 (256 * Obj.SEC_ACCESS_HASH.key 0 1) offset 2 false [3, 4]

def wAbortReq : MbRequest := wMbReq 3 (256 * Obj.SEC_ACCESS_HASH.key 0 1) 0 0 false []

def wLong : MbRequest := wMbReq 1 (256 * Obj.DEVICE_STATE.key 0 0) 0 4097 false []

def wEmpty : MbRequest := { wLong with length := 0 }

def wOne : MbRequest := { wLong with length := 1 }

def wOpen (t : Nat) : State := { wMer with mer := { wMer.mer with partials := [(Obj.ST_MAP.key 2 0, [1], t)] } }

def wQueued : State := { wPreop with pending := [.causeClear 9 0, .mailboxComplete 9] }

def wNext : State := match exec (.causeClear 9 0) wPreop with | .next u => u | _ => wPreop

def wAfter : State := match step wQueued with | .next u => u | _ => wPreop

theorem allocation_fits_of (s : State) (h : s.rdN Obj.CX_HDM_SIZE + sumNat (s.buffers.map (fun b => b.2)) + s.imageBytes ≤ 35971137536)
    (g : sumNat (s.buffers.map (fun b => upTo 4096 b.2)) ≤ s.scratchBase) : s.allocationFits = true := by
  have := Config.firmwareBytes.isLt
  simp only [State.allocationFits, Bool.and_eq_true, decide_eq_true_eq]
  exact ⟨by omega, g⟩

theorem ready_fits : wReady.allocationFits = true := allocation_fits_of _ (by decide) (by decide)

theorem ready_leaves : wReady.leaveRefusals = [] := by
  unfold State.leaveRefusals
  rw [ready_fits]
  decide

theorem going_fits : wGoing.allocationFits = true := allocation_fits_of _ (by decide) (by decide)

theorem going_leaves : wGoing.leaveRefusals = [] := by
  unfold State.leaveRefusals
  rw [going_fits]
  decide

theorem back_refused : wBack.leaveRefusals ≠ [] := by
  intro h
  unfold State.leaveRefusals at h
  exact absurd (List.append_eq_nil_iff.mp h).2 (by decide)

theorem unready_refused : wUnready.leaveRefusals ≠ [] := by
  intro h
  unfold State.leaveRefusals at h
  exact absurd (List.append_eq_nil_iff.mp h).2 (by decide)

/-- Each clause of `Obligations.EncoderPorts` with hypotheses: a state and operands that meet them. -/
theorem witness_EncoderPorts :
    -- step
    (∃ (s : State) (q : Fin 4) (a : Bool) (b : Bool) (stable : Nat) (d : Int),
      s.rdN Obj.QE_FILTER_NS 0 q ≤ stable ∧
      s.rdN Obj.QE_MODE 0 q ≠ 0 ∧
      qeStep (s.rdN Obj.QE_MODE 0 q) (s.qe q).a (s.qe q).b a b = some d ∧
      d ≠ 0 ∧
      ((∀ g, g < 12 → (s.tg g).running = false))) ∧
    -- both change
    (∃ (s : State) (q : Fin 4) (stable : Nat),
      s.rdN Obj.QE_FILTER_NS 0 q ≤ stable ∧
      s.rdN Obj.QE_MODE 0 q ≠ 0) ∧
    -- mode 0
    (∃ (s : State) (q : Fin 4),
      s.rdN Obj.QE_MODE 0 q = 0) ∧
    -- filter
    (∃ (s : State) (q : Fin 4) (stable : Nat),
      stable < s.rdN Obj.QE_FILTER_NS 0 q) ∧
    -- standstill
    (∃ (s : State) (t : Nat) (q : Fin 4) (tn : Nat) (r : List Nat),
      (s.qe q).window = tn :: r ∧
      1000000000 / s.rdN Obj.QE_SPEED_FLOOR 0 q ≤ max s.now t - tn) ∧
    -- gate
    (∃ (s : State) (q : Fin 4),
      indexGate (s.rdN Obj.QE_INDEX_GATE 0 q) (s.qe q).a (s.qe q).b = false) ∧
    -- mismatch
    (∃ (s : State) (q : Fin 4) (stable : Nat) (d : Int),
      s.rdN Obj.QE_FILTER_NS 0 q ≤ stable ∧
      indexGate (s.rdN Obj.QE_INDEX_GATE 0 q) (s.qe q).a (s.qe q).b = true ∧
      indexDiff (s.rd Obj.QE_POSITION 0 q) (s.rd Obj.QE_INDEX_POS 0 q) (s.rdN Obj.QE_INDEX_PERIOD 0 q) = d ∧
      s.rdN Obj.QE_INDEX_TOL 0 q < absNat d) ∧
    -- snap
    (∃ (s : State) (q : Fin 4) (stable : Nat) (d : Int),
      s.rdN Obj.QE_FILTER_NS 0 q ≤ stable ∧
      indexGate (s.rdN Obj.QE_INDEX_GATE 0 q) (s.qe q).a (s.qe q).b = true ∧
      indexDiff (s.rd Obj.QE_POSITION 0 q) (s.rd Obj.QE_INDEX_POS 0 q) (s.rdN Obj.QE_INDEX_PERIOD 0 q) = d ∧
      s.rdN Obj.QE_REHOME 0 q ≠ 0 ∧
      s.rehomeWaits q = false) ∧
    -- source
    (∃ (s : State) (q : Fin 4),
      s.isTriggerSource q = true ∧
      (s.lining = true ∨ s.tim.lined = true)) :=
  ⟨⟨wQe, 1, true, false, 100, 1, by decide⟩,
   ⟨wQe, 1, 100, by decide⟩,
   ⟨(State.reset.putN Obj.QE_MODE 0 2 0), 2, by decide⟩,
   ⟨(State.reset.putN Obj.QE_FILTER_NS 0 1 50), 1, 49, by decide⟩,
   ⟨((State.reset.setQe 3 { window := [7] })), 2000000000, 3, 7, [], by decide⟩,
   ⟨(State.reset.putN Obj.QE_INDEX_GATE 0 1 3), 1, by decide⟩,
   ⟨wIdx, 0, 100, 100, by decide⟩,
   ⟨wIdx, 0, 100, 100, by decide⟩,
   ⟨(wLine.putN Obj.TG_SOURCE 0 2 1), 0, by decide⟩⟩

/-- Each clause of `Obligations.SerialWords` with hypotheses: a state and operands that meet them. -/
theorem witness_SerialWords :
    -- start
    (∃ (s : State) (t : Nat) (n : Fin 4),
      s.flag Obj.SP_ENABLE 0 n = true ∧
      stInit ≤ s.mode ∧
      (s.sp n).busy = false ∧
      (s.at t).spDue n = true) ∧
    -- good
    (∃ (s : State) (n : Fin 4) (word : Nat) (startTime : Nat),
      (s.sp n).busy = true ∧
      spGood word = true ∧
      startTime ≤ s.spLimit n) ∧
    -- bad
    (∃ (s : State) (n : Fin 4) (word : Nat) (startTime : Nat),
      (s.sp n).busy = true ∧
      (spGood word = false ∨ s.spLimit n < startTime)) ∧
    -- silent
    (∃ (s : State) (t : Nat) (n : Fin 4),
      (s.sp n).busy = true ∧
      s.spLimit n ≤ max s.now t) ∧
    -- third
    (∃ (s : State) (t : Nat) (n : Fin 4),
      (s.sp n).busy = true ∧
      (s.sp n).badRun = 2 ∧
      s.spLimit n ≤ max s.now t) ∧
    -- enable
    (∃ (s : State) (path : Path) (n : Fin 4) (value : List Byte),
      s.checkWrite path Obj.SP_ENABLE 0 n value = 0) ∧
    -- clock
    (∃ (s : State) (path : Path) (n : Fin 4) (value : List Byte),
      s.checkWrite path Obj.SP_CLOCK_KHZ 0 n value = 0) :=
  ⟨⟨((State.reset.putN Obj.SP_ENABLE 0 1 1).putN Obj.DEVICE_STATE 0 0 stInit), 9, 1, by decide⟩,
   ⟨(State.reset.setSp 1 { busy := true }), 1, (2 ^ 39 + 2 * (63 - spCrc (2 ^ 39))), 3, by decide⟩,
   ⟨(State.reset.setSp 1 { busy := true, badRun := 2 }), 1, 0, 3, by decide⟩,
   ⟨(State.reset.setSp 1 { busy := true, badRun := 2 }), 9000000, 1, by decide⟩,
   ⟨(State.reset.setSp 1 { busy := true, badRun := 2 }), 9000000, 1, by decide⟩,
   ⟨wPreop, .chain, 1, [1], by decide⟩,
   ⟨wPreop, .chain, 1, (toLe 2 4000), by decide⟩⟩

/-- Each clause of `Obligations.LineTriggers` with hypotheses: a state and operands that meet them. -/
theorem witness_LineTriggers :
    -- issued
    (∃ (s : State) (t : Nat) (g : Fin 12),
      (s.tg g).running = true ∧
      (s.tg g).held = none ∧
      s.rdN Obj.TG_SOURCE 0 (s.leadPort g) = 0 ∧
      nearestNs (s.tg g).due ≤ max s.now t ∧
      (s.tg g).free (max s.now t) (s.rdN Obj.TG_MIN_PERIOD_NS 0 (s.leadPort g)) = true) ∧
    -- held
    (∃ (s : State) (t : Nat) (g : Fin 12) (p : Nat),
      (s.tg g).running = true ∧
      (s.tg g).held = none ∧
      s.rdN Obj.TG_SOURCE 0 (s.leadPort g) = 0 ∧
      nearestNs (s.tg g).due ≤ max s.now t ∧
      (s.tg g).free (max s.now t) (s.rdN Obj.TG_MIN_PERIOD_NS 0 (s.leadPort g)) = false ∧
      s.groupPorts g = [p]) ∧
    -- dropped
    (∃ (s : State) (t : Nat) (g : Fin 12) (p : Nat) (h : Int × Nat),
      (s.tg g).running = true ∧
      (s.tg g).held = some h ∧
      s.rdN Obj.TG_SOURCE 0 (s.leadPort g) = 0 ∧
      nearestNs (s.tg g).due ≤ max s.now t ∧
      (s.tg g).free (max s.now t) (s.rdN Obj.TG_MIN_PERIOD_NS 0 (s.leadPort g)) = false ∧
      s.groupPorts g = [p]) ∧
    -- released
    (∃ (s : State) (t : Nat) (g : Fin 12) (h : Int × Nat),
      (s.tg g).running = true ∧
      (s.tg g).held = some h ∧
      (s.tg g).free (max s.now t) (s.rdN Obj.TG_MIN_PERIOD_NS 0 (s.leadPort g)) = true) ∧
    -- period
    (∃ (s : State) (path : Path) (p : Fin 12) (k : Fin 12) (value : List Byte),
      s.checkWrite path Obj.TG_PERIOD 0 p value = 0 ∧
      s.lining = true ∧
      s.portGroup k = s.portGroup p) ∧
    -- divider
    (∃ (s : State) (path : Path) (p : Fin 12) (k : Fin 12) (value : List Byte),
      s.checkWrite path Obj.TG_DIVIDER 0 p value = 0 ∧
      s.lining = true ∧
      s.portGroup k = s.portGroup p) :=
  ⟨⟨(wLine.setTg 1 { running := true, origin := 0, period := 1 }), 9, 1, by decide⟩,
   ⟨((wLine.setTg 1 { running := true, origin := 0, period := 1, last := some 49999 }).putN Obj.TG_MIN_PERIOD_NS 0 2 5000),
     9, 1, 2, by decide⟩,
   ⟨((wLine.setTg 1 { running := true, origin := 0, period := 1, last := some 49999, held := some (0, 3) }).putN
     Obj.TG_MIN_PERIOD_NS 0 2 5000), 9, 1, 2, (0, 3), by decide⟩,
   ⟨(wLine.setTg 1 { running := true, origin := 0, period := 1, held := some (7, 3) }), 9, 1, (7, 3), by decide⟩,
   ⟨wLine, .chain, 2, 2, (toLe 8 (20000 * 2 ^ 32)), by decide⟩,
   ⟨(wLine.putN Obj.PORT_GROUP 0 3 1), .chain, 2, 3, (toLe 4 131072), by decide⟩⟩

/-- Each clause of `Obligations.CameraLink` with hypotheses: a state and operands that meet them. -/
theorem witness_CameraLink :
    -- enable
    (∃ (s : State) (path : Path) (p : Fin 12) (value : List Byte),
      s.checkWrite path Obj.CAM_ENABLE p 0 value = 0 ∧
      s.flag Obj.CAM_ENABLE p = false ∧
      Obj.CAM_ENABLE.decodeValue value ≠ 0 ∧
      s.islandRuns (15 + p.val) = true) ∧
    -- enable in reset
    (∃ (s : State) (path : Path) (p : Fin 12) (value : List Byte),
      s.checkWrite path Obj.CAM_ENABLE p 0 value = 0 ∧
      s.flag Obj.CAM_ENABLE p = false ∧
      Obj.CAM_ENABLE.decodeValue value ≠ 0 ∧
      s.islandRuns (15 + p.val) = false) ∧
    -- disable
    (∃ (s : State) (path : Path) (p : Fin 12) (value : List Byte),
      s.checkWrite path Obj.CAM_ENABLE p 0 value = 0 ∧
      s.flag Obj.CAM_ENABLE p = true ∧
      Obj.CAM_ENABLE.decodeValue value = 0) ∧
    -- lanes
    (∃ (s : State) (path : Path) (p : Fin 12) (value : List Byte),
      s.checkWrite path Obj.CAM_LANES p 0 value = 0 ∧
      s.flag Obj.CAM_ENABLE p = true ∧
      s.islandRuns (15 + p.val) = true) ∧
    -- rate
    (∃ (s : State) (path : Path) (p : Fin 12) (value : List Byte),
      s.checkWrite path Obj.CAM_RATE p 0 value = 0 ∧
      s.flag Obj.CAM_ENABLE p = true ∧
      s.islandRuns (15 + p.val) = true) ∧
    -- up
    (∃ (s : State) (p : Fin 12) (found : Discovery),
      s.bit Obj.CAM_LINK_STATUS p 0 camDiscovering = true ∧
      s.islandRuns (15 + p.val) = true ∧
      cableError found.answers (s.rdN Obj.CAM_LANES p) = false ∧
      found.refused = false ∧
      discoveryUnsupported found = false ∧
      found.trained = true) ∧
    -- cable
    (∃ (s : State) (p : Fin 12) (found : Discovery),
      s.bit Obj.CAM_LINK_STATUS p 0 camDiscovering = true ∧
      s.islandRuns (15 + p.val) = true ∧
      cableError found.answers (s.rdN Obj.CAM_LANES p) = true) ∧
    -- refused
    (∃ (s : State) (p : Fin 12) (found : Discovery),
      s.bit Obj.CAM_LINK_STATUS p 0 camDiscovering = true ∧
      s.islandRuns (15 + p.val) = true ∧
      cableError found.answers (s.rdN Obj.CAM_LANES p) = false ∧
      (found.refused = true ∨ discoveryUnsupported found = true)) ∧
    -- retry
    (∃ (s : State) (t : Nat) (p : Fin 12),
      (s.mode = stInit ∨ s.mode = stPreop) ∧
      (s.at t).attemptDue p 1000000000 = true) ∧
    -- link retry
    (∃ (s : State) (t : Nat) (p : Fin 12),
      s.lining = true ∧
      (s.at t).attemptDue p 100000000 = true) ∧
    -- heartbeat
    (∃ (s : State) (p : Fin 12),
      s.camIsUp p = true) ∧
    -- silence
    (∃ (s : State) (t : Nat) (p : Fin 12),
      s.camIsUp p = true ∧
      s.rdN Obj.CAM_HB_TIMEOUT_MS p ≠ 0 ∧
      (s.cam p).heartbeat + s.rdN Obj.CAM_HB_TIMEOUT_MS p * 1000000 ≤ max s.now t) ∧
    -- lane
    (∃ (s : State) (p : Fin 12) (lane : Fin 4),
      s.camIsUp p = true ∧
      s.bit Obj.CAM_LINK_STATUS p 0 lane = true) ∧
    -- return
    (∃ (s : State) (p : Fin 12),
      (s.cam p).returned = true ∧
      s.camIsUp p = true ∧
      s.lining = true ∧
      s.rdN Obj.CAM_EXPOSURE_REG p ≠ 0 ∧
      (s.cam p).writes = [] ∧
      (s.cam p).winOn = false) ∧
    -- settings acknowledged
    (∃ (s : State) (p : Fin 12) (w : CamWrite),
      (s.cam p).writes = [w] ∧
      (s.cam p).winOn = false ∧
      w.readback = false ∧
      w.relink = true) ∧
    -- settings not yet acknowledged
    (∃ (s : State) (p : Fin 12) (w : CamWrite) (w' : CamWrite) (r : List CamWrite),
      (s.cam p).writes = w :: w' :: r ∧
      (s.cam p).winOn = false ∧
      w.readback = false ∧
      w'.relink = true) :=
  ⟨⟨(wCamRuns wPreop), .chain, 2, [1], by decide⟩,
   ⟨(wPreop.putN Obj.ISLAND_STATE 0 17 2), .chain, 2, [1], by decide⟩,
   ⟨(wPreop.putN Obj.CAM_ENABLE 2 0 1), .chain, 2, [0], by decide⟩,
   ⟨((wCamRuns wPreop).putN Obj.CAM_ENABLE 2 0 1), .chain, 2, [2], by decide⟩,
   ⟨((wCamRuns wPreop).putN Obj.CAM_ENABLE 2 0 1), .chain, 2, [3], by decide⟩,
   ⟨((wCamRuns wPreop).putN Obj.CAM_LINK_STATUS 2 0 32), 2, (wFound false 4), by decide⟩,
   ⟨((wCamRuns wPreop).putN Obj.CAM_LINK_STATUS 2 0 32), 2, (wFound false 1), by decide⟩,
   ⟨((wCamRuns wPreop).putN Obj.CAM_LINK_STATUS 2 0 32), 2, (wFound true 4), by decide⟩,
   ⟨((wCamRuns wPreop).putN Obj.CAM_ENABLE 2 0 1), 1000000000, 2, by decide⟩,
   ⟨(wCamRuns wLine), 1000000000, 2, by decide⟩,
   ⟨wUp, 2, by decide⟩,
   ⟨(wUp.putN Obj.CAM_HB_TIMEOUT_MS 2 0 1), 60000000000, 2, by decide⟩,
   ⟨wUp, 2, 1, by decide⟩,
   ⟨((wUp.setCam 2 { returned := true }).putN Obj.CAM_EXPOSURE_REG 2 0 64), 2, by decide⟩,
   ⟨(wUp.setCam 2 { writes := [{ wWrite false with relink := true }], relinking := true }), 2,
     { wWrite false with relink := true }, by decide⟩,
   ⟨(wUp.setCam 2 { writes := [{ wWrite false with
     relink := true }, { wWrite false with relink := true }], relinking := true }), 2, { wWrite false with relink := true },
     { wWrite false with relink := true }, [], by decide⟩⟩

/-- Each clause of `Obligations.CameraRegisterWindow` with hypotheses: a state and operands that meet them. -/
theorem witness_CameraRegisterWindow :
    -- read
    (∃ (s : State) (path : Path) (p : Fin 12),
      s.checkAccess path Obj.CAM_REG_CMD p 0 1 = 0 ∧
      s.rdN Obj.CAM_REG_STATUS p ≠ 1 ∧
      (s.cam p).writes = [] ∧
      s.camIsUp p = true) ∧
    -- read on a stopped uplink
    (∃ (s : State) (path : Path) (p : Fin 12),
      s.checkAccess path Obj.CAM_REG_CMD p 0 1 = 0 ∧
      s.rdN Obj.CAM_REG_STATUS p ≠ 1 ∧
      (s.cam p).writes = [] ∧
      s.camIsUp p = false) ∧
    -- busy
    (∃ (s : State) (path : Path) (p : Fin 12),
      s.checkAccess path Obj.CAM_REG_CMD p 0 1 = 0 ∧
      s.rdN Obj.CAM_REG_STATUS p = 1) ∧
    -- write
    (∃ (s : State) (path : Path) (p : Fin 12),
      s.checkAccess path Obj.CAM_REG_CMD p 0 1 = 0 ∧
      s.rdN Obj.CAM_REG_STATUS p ≠ 1 ∧
      (s.lining = false ∨ s.epochRegister p (s.rdN Obj.CAM_REG_ADDR p) = false) ∧
      (s.cam p).writes = [] ∧
      s.camIsUp p = true) ∧
    -- after own commands
    (∃ (s : State) (path : Path) (p : Fin 12) (w : CamWrite) (r : List CamWrite),
      s.checkAccess path Obj.CAM_REG_CMD p 0 1 = 0 ∧
      s.rdN Obj.CAM_REG_STATUS p ≠ 1 ∧
      (s.cam p).writes = w :: r) ∧
    -- epoch register
    (∃ (s : State) (path : Path) (p : Fin 12),
      s.checkAccess path Obj.CAM_REG_CMD p 0 1 = 0 ∧
      s.rdN Obj.CAM_REG_STATUS p ≠ 1 ∧
      s.lining = true ∧
      s.rdN Obj.CAM_REG_ADDR p ≠ 0 ∧
      (s.rdN Obj.CAM_REG_ADDR p = s.rdN Obj.CAM_EXPOSURE_REG p ∨ s.rdN Obj.CAM_REG_ADDR p = s.rdN Obj.CAM_GAIN_REG p)) ∧
    -- abort
    (∃ (s : State) (path : Path) (p : Fin 12),
      s.checkAccess path Obj.CAM_REG_CMD p 0 1 = 0 ∧
      s.rdN Obj.CAM_REG_STATUS p = 1 ∧
      (s.cam p).writes = []) ∧
    -- nothing to abort
    (∃ (s : State) (path : Path) (p : Fin 12),
      s.checkAccess path Obj.CAM_REG_CMD p 0 1 = 0 ∧
      s.rdN Obj.CAM_REG_STATUS p ≠ 1) ∧
    -- write done
    (∃ (s : State) (p : Fin 12),
      s.rdN Obj.CAM_REG_STATUS p = 1 ∧
      (s.cam p).winOn = true ∧
      s.camIsUp p = true ∧
      (s.cam p).winWrite = true) ∧
    -- read done
    (∃ (s : State) (p : Fin 12) (data : List Byte),
      s.rdN Obj.CAM_REG_STATUS p = 1 ∧
      (s.cam p).winOn = true ∧
      s.camIsUp p = true ∧
      (s.cam p).winWrite = false ∧
      data.length = (s.cam p).winLen) ∧
    -- code
    (∃ (s : State) (p : Fin 12) (code : Nat),
      s.rdN Obj.CAM_REG_STATUS p = 1 ∧
      (s.cam p).winOn = true ∧
      s.camIsUp p = true ∧
      code ≠ 0) ∧
    -- timeout
    (∃ (s : State) (p : Fin 12),
      s.rdN Obj.CAM_REG_STATUS p = 1 ∧
      (s.cam p).winOn = true) :=
  ⟨⟨wTalk, .chain, 2, by decide⟩,
   ⟨wPreop, .chain, 2, by decide⟩,
   ⟨wWin, .chain, 2, by decide⟩,
   ⟨wTalk, .chain, 2, by decide⟩,
   ⟨(wPreop.setCam 2 { writes := [wWrite false] }), .chain, 2, (wWrite false), [], by decide⟩,
   ⟨((wLine.putN Obj.CAM_REG_ADDR 2 0 64).putN Obj.CAM_EXPOSURE_REG 2 0 64), .chain, 2, by decide⟩,
   ⟨wWin, .chain, 2, by decide⟩,
   ⟨wPreop, .chain, 2, by decide⟩,
   ⟨(wWin.setCam 2 { winOn := true, winWrite := true }), 2, by decide⟩,
   ⟨(wWin.setCam 2 { winOn := true, winLen := 4 }), 2, [1, 2, 3, 4], by decide⟩,
   ⟨wWin, 2, 3, by decide⟩,
   ⟨wWin, 2, by decide⟩⟩

/-- Each clause of `Obligations.CameraSettings` with hypotheses: a state and operands that meet them. -/
theorem witness_CameraSettings :
    -- in time
    (∃ (s : State) (p : Fin 12) (w : CamWrite) (r : List CamWrite),
      (s.cam p).writes = w :: r ∧
      (s.cam p).winOn = false ∧
      w.readback = false ∧
      s.rdN Obj.CAM_LINE_NOW p < w.first) ∧
    -- code
    (∃ (s : State) (p : Fin 12) (w : CamWrite) (r : List CamWrite) (code : Nat),
      (s.cam p).writes = w :: r ∧
      (s.cam p).winOn = false ∧
      w.readback = false ∧
      code ≠ 0 ∧
      (s.cam p).skewed.contains w.epoch = false) ∧
    -- timeout
    (∃ (s : State) (p : Fin 12) (w : CamWrite) (r : List CamWrite),
      (s.cam p).writes = w :: r ∧
      (s.cam p).winOn = false ∧
      (s.cam p).skewed.contains w.epoch = false) ∧
    -- readback agrees
    (∃ (s : State) (p : Fin 12) (w : CamWrite) (r : List CamWrite) (value : Nat),
      (s.cam p).writes = w :: r ∧
      (s.cam p).winOn = false ∧
      w.readback = true ∧
      natDist value w.value ≤ s.rdN Obj.CAM_SKEW_TOL p) ∧
    -- readback differs
    (∃ (s : State) (p : Fin 12) (w : CamWrite) (r : List CamWrite) (value : Nat),
      (s.cam p).writes = w :: r ∧
      (s.cam p).winOn = false ∧
      w.readback = true ∧
      s.rdN Obj.CAM_SKEW_TOL p < natDist value w.value ∧
      (s.cam p).skewed.contains w.epoch = false) ∧
    -- already skewed
    (∃ (s : State) (p : Fin 12) (w : CamWrite) (r : List CamWrite),
      (s.cam p).writes = w :: r ∧
      (s.cam p).winOn = false ∧
      w.readback = true ∧
      (s.cam p).skewed.contains w.epoch = true) ∧
    -- event
    (∃ (s : State) (p : Fin 12),
      s.camIsUp p = true ∧
      s.rdN Obj.CAM_SKEW_SOURCE p ≠ 2) ∧
    -- event skew
    (∃ (s : State) (p : Fin 12) (data : List Byte) (v : Nat),
      s.camIsUp p = true ∧
      s.rdN Obj.CAM_SKEW_SOURCE p = 2 ∧
      s.lining = true ∧
      s.eventReference p = some v ∧
      s.rdN Obj.CAM_SKEW_TOL p < natDist (leAt data 0 4) v ∧
      (s.cam p).skewed.contains (s.rdN Obj.EPOCH_ID 0 (s.portGroup p)) = false) :=
  ⟨⟨(State.reset.setCam 2 { writes := [wWrite false] }), 2, (wWrite false), [], by decide⟩,
   ⟨(State.reset.setCam 2 { writes := [wWrite false] }), 2, (wWrite false), [], 5, by decide⟩,
   ⟨(State.reset.setCam 2 { writes := [wWrite true] }), 2, (wWrite true), [], by decide⟩,
   ⟨(State.reset.setCam 2 { writes := [wWrite true] }), 2, (wWrite true), [], 192, by decide⟩,
   ⟨(State.reset.setCam 2 { writes := [wWrite true] }), 2, (wWrite true), [], 9999, by decide⟩,
   ⟨(State.reset.setCam 2 { writes := [wWrite true], skewed := [3] }), 2, (wWrite true), [], by decide⟩,
   ⟨wUp, 2, by decide⟩,
   ⟨((wUp.putN Obj.CAM_SKEW_SOURCE 2 0 2).putN Obj.CAM_EXPOSURE_REG 2 0 64), 2, [255, 255, 255, 0], 20000, by decide⟩⟩

/-- Each clause of `Obligations.CameraLines` with hypotheses: a state and operands that meet them. -/
theorem witness_CameraLines :
    -- line
    (∃ (s : State) (p : Fin 12) (x : Slot) (k : StreamPacket),
      s.camIsUp p = true ∧
      s.rdN Obj.CAM_LAYOUT p = 0 ∧
      s.rdN Obj.CAM_ROW_DELIVERY p = 0 ∧
      (s.cam p).slots = [x] ∧
      x.started = [] ∧
      x.rows = [] ∧
      look (s.cam p).current none k.stream = none ∧
      (s.cam p).waiting.length < 4 ∧
      k.headerOk = true ∧
      k.payloadOk = true ∧
      k.lineStart = true ∧
      k.rowEnd = true ∧
      k.row = 0 ∧
      k.stream = 0 ∧
      k.samples.length = s.camC p ∧
      k.samples ≠ []) ∧
    -- bad header
    (∃ (s : State) (p : Fin 12) (x : Slot) (r : List Slot) (k : StreamPacket),
      s.camIsUp p = true ∧
      (s.cam p).slots = x :: r ∧
      k.headerOk = false) ∧
    -- unknown stream
    (∃ (s : State) (p : Fin 12) (x : Slot) (r : List Slot) (k : StreamPacket),
      s.camIsUp p = true ∧
      (s.cam p).slots = x :: r ∧
      s.rdN Obj.CAM_ROW_DELIVERY p < k.stream) ∧
    -- no slot waits
    (∃ (s : State) (p : Fin 12) (k : StreamPacket),
      s.camIsUp p = true ∧
      k.headerOk = true ∧
      k.lineStart = true ∧
      k.stream ≤ s.rdN Obj.CAM_ROW_DELIVERY p ∧
      look (s.cam p).current none k.stream = none ∧
      (s.cam p).slots.find? (fun x => !x.started.contains k.stream) = none ∧
      look (s.cam p).extra 0 (1 - k.stream) = 0) ∧
    -- late
    (∃ (s : State) (p : Fin 12) (k : StreamPacket) (n : Nat),
      s.camIsUp p = true ∧
      k.headerOk = true ∧
      k.stream ≤ s.rdN Obj.CAM_ROW_DELIVERY p ∧
      k.lineStart = false ∧
      look (s.cam p).current none k.stream = some n ∧
      (s.cam p).slots.find? (fun x => x.line == n) = none ∧
      (s.cam p).lateSeen.contains n = false) ∧
    -- deadline
    (∃ (s : State) (t : Nat) (p : Fin 12) (line : Nat) (x : Slot),
      (s.cam p).slots.find? (fun x => x.line == line) = some x ∧
      x.trig + s.rdN Obj.CAM_LINE_DEADLINE_NS p ≤ max s.now t ∧
      s.rdN Obj.CAM_ROW_DELIVERY p = 0) ∧
    -- commit
    (∃ (s : State) (t : Nat) (p : Fin 12) (line : Nat) (l : CapLine),
      (s.cam p).waiting.find? (fun x => x.line == line) = some l ∧
      (s.cam p).committed = [] ∧
      line = s.rdN Obj.CAM_LINE_CLOSED p + 1 ∧
      (s.at t).dramServes ((s.at t).captureRequest p l) = true) ∧
    -- wait
    (∃ (s : State) (t : Nat) (p : Fin 12) (line : Nat) (l : CapLine),
      (s.cam p).waiting.find? (fun x => x.line == line) = some l ∧
      (s.cam p).committed = [] ∧
      s.rdN Obj.CAM_LINE_CLOSED p + 1 < line ∧
      (s.at t).dramServes ((s.at t).captureRequest p l) = true) :=
  ⟨⟨((wUp.setCam 2 { slots := [wSlot] }).putN Obj.CAM_WIDTH 2 0 4), 2, wSlot, (wPacket true true [1, 2, 3, 4]), by decide⟩,
   ⟨(wUp.setCam 2 { slots := [wSlot] }), 2, wSlot, [], (wPacket true false []), by decide⟩,
   ⟨(wUp.setCam 2 { slots := [wSlot] }), 2, wSlot, [], { wPacket true true [] with stream := 1 }, by decide⟩,
   ⟨(wUp.putN Obj.CAM_ROW_DELIVERY 2 0 1), 2, { wPacket true true [] with stream := 1 }, by decide⟩,
   ⟨(wUp.setCam 2 { current := [(0, some 5)] }), 2, (wPacket false true []), 5, by decide⟩,
   ⟨(wUp.setCam 2 { slots := [wSlot] }), 60000000000, 2, 7, wSlot, by decide⟩,
   ⟨(wUp.setCam 2 { waiting := [wLate] }), 60000, 2, 1, wLate, by decide⟩,
   ⟨(wUp.setCam 2 { waiting := [{ wLate with line := 2 }] }), 60000, 2, 2, { wLate with line := 2 }, by decide⟩⟩

/-- Each clause of `Obligations.ImageMaps` with hypotheses: a state and operands that meet them. -/
theorem witness_ImageMaps :
    -- map
    (∃ (s : State) (path : Path) (p : Fin 12) (blob : List Byte),
      s.checkAccess path Obj.RC_DEFECT_MAP p 0 blob.length = 0 ∧
      mapFits blob (s.lastN Obj.CAM_LAYOUT p) (s.lastN Obj.CAM_WIDTH p) = true) ∧
    -- map refused
    (∃ (s : State) (path : Path) (p : Fin 12) (blob : List Byte),
      s.checkAccess path Obj.RC_DEFECT_MAP p 0 blob.length = 0 ∧
      mapFits blob (s.lastN Obj.CAM_LAYOUT p) (s.lastN Obj.CAM_WIDTH p) = false) ∧
    -- reference
    (∃ (s : State) (path : Path) (p : Fin 12) (blob : List Byte),
      s.checkAccess path Obj.RC_FF_PLATE_REF p 0 blob.length = 0 ∧
      blob ≠ [] ∧
      blob.length = 2 * s.lastN Obj.CAM_WIDTH p) ∧
    -- reference refused
    (∃ (s : State) (path : Path) (p : Fin 12) (blob : List Byte),
      s.checkAccess path Obj.RC_FF_PLATE_REF p 0 blob.length = 0 ∧
      blob ≠ [] ∧
      blob.length ≠ 2 * s.lastN Obj.CAM_WIDTH p) :=
  ⟨⟨wPreop, .chain, 2, [], by decide⟩,
   ⟨wPreop, .chain, 2, [1, 2], by decide⟩,
   ⟨(wPreop.putN Obj.CAM_WIDTH 2 0 2), .chain, 2, [1, 2, 3, 4], by decide⟩,
   ⟨wPreop, .chain, 2, [1, 2, 3], by decide⟩⟩

/-- Each clause of `Obligations.PipelineLines` with hypotheses: a state and operands that meet them. -/
theorem witness_PipelineLines :
    -- line
    (∃ (s : State) (p : Fin 14) (l : CapLine) (r : List CapLine),
      (s.cam p).toPipe = l :: r ∧
      l.port = p ∧
      s.pipelineOf p < 13 ∧
      s.islandRuns (2 + s.pipelineOf p) = true ∧
      s.stopping = false) ∧
    -- held in reset
    (∃ (s : State) (p : Fin 14) (l : CapLine) (r : List CapLine),
      (s.cam p).toPipe = l :: r ∧
      s.pipelineOf p < 13 ∧
      s.islandRuns (2 + s.pipelineOf p) = false) ∧
    -- released
    (∃ (s : State) (p : Fin 14) (tl : Nat) (l : RegLine) (r : List (Nat × RegLine)) (upsets : List AtlasUpset),
      (s.rgp p).queue = (tl, l) :: r ∧
      l.cap.port = p ∧
      s.rgHeld p l.cap.line = false ∧
      ((s.pipelineOf p < 13 → s.islandRuns (2 + s.pipelineOf p) = true)) ∧
      s.trans = none ∧
      upsets.any (fun u => u.l0.val == 2 && u.l1.val == 2) = false) ∧
    -- held
    (∃ (s : State) (p : Fin 14) (tl : Nat) (l : RegLine) (r : List (Nat × RegLine)),
      (s.rgp p).queue = (tl, l) :: r ∧
      s.rgHeld p l.cap.line = true ∧
      s.trans = none) :=
  ⟨⟨(wPipe.setCam 2 { toPipe := [wCap] }), 2, wCap, [], by decide⟩,
   ⟨((wPipe.setCam 2 { toPipe := [wCap] }).putN Obj.ISLAND_STATE 0 4 2), 2, wCap, [], by decide⟩,
   ⟨wRg, 2, 7, wRl, [], [], by decide⟩,
   ⟨wRgHeld, 2, 7, wRl, [], by decide⟩⟩

/-- Each clause of `Obligations.Atlases` with hypotheses: a state and operands that meet them. -/
theorem witness_Atlases :
    -- write
    (∃ (s : State) (path : Path) (p : Fin 12) (blob : List Byte),
      s.checkAccess path Obj.AT_BLOB p 0 blob.length = 0 ∧
      s.atCheck p blob = 0 ∧
      (s.atp p).loading = none) ∧
    -- refused
    (∃ (s : State) (path : Path) (p : Fin 12) (blob : List Byte),
      s.checkAccess path Obj.AT_BLOB p 0 blob.length = 0 ∧
      s.atCheck p blob ≠ 0) ∧
    -- load
    (∃ (s : State) (path : Path) (p : Fin 12),
      s.checkAccess path Obj.AT_LOAD_CMD p 0 1 = 0 ∧
      s.inScratch (s.rdN Obj.AT_LOAD_ADDR p) (s.rdN Obj.AT_LOAD_BYTES p) = true ∧
      s.atCheck p (s.memBytes (s.rdN Obj.AT_LOAD_ADDR p) (s.rdN Obj.AT_LOAD_BYTES p)) = 0) ∧
    -- outside scratch
    (∃ (s : State) (path : Path) (p : Fin 12),
      s.checkAccess path Obj.AT_LOAD_CMD p 0 1 = 0 ∧
      s.inScratch (s.rdN Obj.AT_LOAD_ADDR p) (s.rdN Obj.AT_LOAD_BYTES p) = false) ∧
    -- cancel
    (∃ (s : State) (path : Path) (p : Fin 12) (blob : List Byte),
      s.checkAccess path Obj.AT_LOAD_CMD p 0 1 = 0 ∧
      (s.atp p).loading = some blob) ∧
    -- done
    (∃ (s : State) (p : Fin 12) (blob : List Byte) (q : Nat),
      (s.atp p).loading = some blob ∧
      (atSigKind blob = 0 ∨ (atSigKind blob = 1 ∧ s.blobSigned blob (atKeyId blob) 0 = true)) ∧
      atBodyOk blob = true ∧
      (s.atHolders p).contains q = true) ∧
    -- bad body
    (∃ (s : State) (p : Fin 12) (blob : List Byte),
      (s.atp p).loading = some blob ∧
      (atSigKind blob = 0 ∨ (atSigKind blob = 1 ∧ s.blobSigned blob (atKeyId blob) 0 = true)) ∧
      atBodyOk blob = false) ∧
    -- bad signature
    (∃ (s : State) (p : Fin 12) (blob : List Byte),
      (s.atp p).loading = some blob ∧
      atSigKind blob = 1 ∧
      s.blobSigned blob (atKeyId blob) 0 = false) ∧
    -- release
    (∃ (s : State) (p : Fin 12) (l : Nat),
      (s.atp p).holdLine = some l ∧
      l ≤ s.presentLine (s.portGroup p)) ∧
    -- not yet
    (∃ (s : State) (p : Fin 12) (l : Nat),
      (s.atp p).holdLine = some l ∧
      s.presentLine (s.portGroup p) < l) ∧
    -- shadows
    (∃ (s : State) (p : Fin 12),
      s.pipelineOf p < 13) ∧
    -- shadows reloaded
    (∃ (s : State) (p : Fin 12) (i : AtlasImage),
      s.pipelineOf p < 13 ∧
      (s.atPipe (s.pipelineOf p)).ahead = false ∧
      (s.atp p).other = some i) ∧
    -- pass
    (∃ (s : State) (t : Nat) (q : Fin 13) (p : Nat),
      s.scrubbing = true ∧
      (s.atPipe q).scrubFrom + s.scrubPeriod q ≤ max s.now t ∧
      s.islandRuns (2 + q.val) = true ∧
      s.portOf q = some p) ∧
    -- pass of a spare
    (∃ (s : State) (t : Nat) (q : Fin 13),
      s.scrubbing = true ∧
      (s.atPipe q).scrubFrom + s.scrubPeriod q ≤ max s.now t ∧
      s.islandRuns (2 + q.val) = true ∧
      s.portOf q = none) ∧
    -- pass not due
    (∃ (s : State) (t : Nat) (q : Fin 13),
      max s.now t < (s.atPipe q).scrubFrom + s.scrubPeriod q) :=
  ⟨⟨wAt, .chain, 2, wAtlas, by decide⟩,
   ⟨wAt, .chain, 2, [1, 2, 3], by decide⟩,
   ⟨wAtMem, .chain, 2, by decide⟩,
   ⟨(wAt.putN Obj.AT_LOAD_BYTES 2 0 64), .chain, 2, by decide⟩,
   ⟨(wAt.setAt 2 { loading := some [1] }), .chain, 2, [1], by decide⟩,
   ⟨(wAt.setAt 2 { loading := some wAtlas }), 2, wAtlas, 2, by decide⟩,
   ⟨(wAt.setAt 2 { loading := some [1] }), 2, [1], by decide⟩,
   ⟨(wAt.setAt 2 { loading := some [1, 0, 0, 0, 0, 0, 0, 1] }), 2, [1, 0, 0, 0, 0, 0, 0, 1], by decide⟩,
   ⟨((wLine.setAt 2 { holdLine := some 5 }).putN Obj.CAM_LINE_NOW 2 0 5), 2, 5, by decide⟩,
   ⟨(wLine.setAt 2 { holdLine := some 5 }), 2, 5, by decide⟩,
   ⟨wLine, 2, by decide⟩,
   ⟨(wLine.setAt 2 { other := some { blob := [7], crc := 9 } }), 2, { blob := [7], crc := 9 }, by decide⟩,
   ⟨wPipe, 60000000000000, 2, 2, by decide⟩,
   ⟨(wPipe.putN Obj.ISLAND_STATE 0 14 1), 60000000000000, 12, by decide⟩,
   ⟨wPipe, 60000, 2, by decide⟩⟩

/-- Each clause of `Obligations.CoordinateMaps` with hypotheses: a state and operands that meet them. -/
theorem witness_CoordinateMaps :
    -- map
    (∃ (s : State) (path : Path) (p : Fin 12) (blob : List Byte),
      s.checkAccess path Obj.ST_MAP p 0 blob.length = 0 ∧
      mapOk blob (rowWidth (s.lastN Obj.CAM_LAYOUT p) (s.lastN Obj.CAM_WIDTH p)) = true) ∧
    -- map refused
    (∃ (s : State) (path : Path) (p : Fin 12) (blob : List Byte),
      s.checkAccess path Obj.ST_MAP p 0 blob.length = 0 ∧
      mapOk blob (rowWidth (s.lastN Obj.CAM_LAYOUT p) (s.lastN Obj.CAM_WIDTH p)) = false) ∧
    -- start
    (∃ (s : State) (path : Path),
      s.checkAccess path Obj.ST_CAL_CMD 0 0 1 = 0 ∧
      s.mode = stArmed ∧
      s.rdN Obj.ST_CAL_STATE ≠ 1 ∧
      s.calRequest 3 0 = none ∧
      s.cal.queue.length < 16) ∧
    -- not armed
    (∃ (s : State) (path : Path),
      s.checkAccess path Obj.ST_CAL_CMD 0 0 1 = 0 ∧
      s.mode ≠ stArmed) ∧
    -- cancel
    (∃ (s : State) (path : Path),
      s.checkAccess path Obj.ST_CAL_CMD 0 0 1 = 0 ∧
      s.rdN Obj.ST_CAL_STATE = 1) ∧
    -- fit
    (∃ (s : State) (p : Fin 12) (levels : List (Nat × Nat)),
      s.rdN Obj.ST_CAL_STATE = 1 ∧
      s.flag Obj.CAM_ENABLE p = true ∧
      s.st.calDone.contains p.val = false ∧
      s.rdN Obj.ST_CAL_LINES ≤ look s.st.calLines 0 p.val ∧
      s.fitRefused p (s.targetFit p levels) = false ∧
      s.calBeaten (Obj.ST_MAP.key p 0) = false) ∧
    -- fit refused
    (∃ (s : State) (p : Fin 12) (levels : List (Nat × Nat)),
      s.rdN Obj.ST_CAL_STATE = 1 ∧
      s.flag Obj.CAM_ENABLE p = true ∧
      s.st.calDone.contains p.val = false ∧
      s.rdN Obj.ST_CAL_LINES ≤ look s.st.calLines 0 p.val ∧
      s.fitRefused p (s.targetFit p levels) = true) :=
  ⟨⟨(wPreop.putN Obj.CAM_WIDTH 2 0 2), .chain, 2, wMap, by decide +kernel⟩,
   ⟨wPreop, .chain, 2, [1], by decide⟩,
   ⟨wArmed, .chain, by decide⟩,
   ⟨wPreop, .chain, by decide⟩,
   ⟨wCalRun, .chain, by decide⟩,
   ⟨wCalRun, 2, (List.replicate 16 (0, 20)), by decide +kernel⟩,
   ⟨wCalRun, 2, [], by decide⟩⟩

/-- Each clause of `Obligations.SeamTraffic` with hypotheses: a state and operands that meet them. -/
theorem witness_SeamTraffic :
    -- part
    (∃ (s : State) (p : Fin 14) (o : SgObj) (r : List SgObj),
      (s.sgp p).done = o :: r ∧
      o.contacts = [] ∧
      o.regions = [] ∧
      o.result.reason < 16 ∧
      s.replaying p = false) ∧
    -- summary
    (∃ (s : State) (link : Fin 2) (payload : List Byte),
      s.seamTraffic link = true ∧
      payload.length = 204 ∧
      leAt payload 200 4 = crc32c (payload.take 200) ∧
      s.st.groups = []) ∧
    -- not a summary
    (∃ (payload : List Byte),
      (payload.length ≠ 204 ∨ leAt payload 200 4 ≠ crc32c (payload.take 200))) ∧
    -- send
    (∃ (s : State) (t : Nat) (link : Fin 2),
      s.seamTraffic link = true ∧
      look s.st.sentAt 0 link + 10000 ≤ max s.now t ∧
      s.chUp link = true ∧
      (s.chp link).stalled = [] ∧
      (s.chp link).fits (toLe 8 (min (2 ^ 64 - 1) (s.ownMark link))) = true) ∧
    -- too early
    (∃ (s : State) (t : Nat) (link : Fin 2),
      max s.now t < look s.st.sentAt 0 link + 10000) :=
  ⟨⟨wPartState, 2, wPart, [], by decide⟩,
   ⟨wTraffic, 1, wSummary, by decide⟩,
   ⟨[1], by decide⟩,
   ⟨wTraffic, 60000, 1, by decide⟩,
   ⟨wSent, 60000, 1, by decide⟩⟩

/-- Each clause of `Obligations.SeamGroups` with hypotheses: a state and operands that meet them. -/
theorem witness_SeamGroups :
    -- merged
    (∃ (s : State) (g : SeamGroup) (p : Nat),
      s.st.groups = [g] ∧
      g.waiting = none ∧
      2 ≤ g.halves.length ∧
      s.camerasDone g = true ∧
      s.groupStopped g = false ∧
      s.peersDone g = true ∧
      s.zoneOf g.halves (s.groupX g.halves) = .inl p) ∧
    -- the neighbour's
    (∃ (s : State) (g : SeamGroup) (k : Nat),
      s.st.groups = [g] ∧
      g.waiting = none ∧
      s.camerasDone g = true ∧
      s.groupStopped g = false ∧
      s.peersDone g = true ∧
      s.zoneOf g.halves (s.groupX g.halves) = .inr k) ∧
    -- not yet
    (∃ (s : State) (g : SeamGroup),
      s.st.groups = [g] ∧
      s.camerasDone g = false) ∧
    -- no watermark
    (∃ (s : State) (t : Nat) (g : SeamGroup),
      s.st.groups = [g] ∧
      g.waiting = none ∧
      s.peersDone g = false ∧
      g.closed + s.rdN Obj.ST_WAIT_MAX_US * 1000 ≤ max s.now t) ∧
    -- no TAKEN
    (∃ (s : State) (t : Nat) (g : SeamGroup) (w : Nat),
      s.st.groups = [g] ∧
      g.waiting = some w ∧
      w + s.rdN Obj.ST_WAIT_MAX_US * 1000 ≤ max s.now t) :=
  ⟨⟨(wStitch (wPair 50)), (wPair 50), 2, by decide⟩,
   ⟨(wStitch (wPair (-50))), (wPair (-50)), 0, by decide⟩,
   ⟨wStitchOpen, (wPair 50), by decide⟩,
   ⟨(wStitchLate (wPair 50)), 600000000000, (wPair 50), by decide⟩,
   ⟨(wStitch { wPair 50 with waiting := some 9 }), 600000000000, { wPair 50 with waiting := some 9 }, 9, by decide⟩⟩

/-- Each clause of `Obligations.VerdictPrograms` with hypotheses: a state and operands that meet them. -/
theorem witness_VerdictPrograms :
    -- program
    (∃ (s : State) (path : Path) (g : Fin 12) (blob : List Byte),
      s.checkAccess path Obj.VD_PROGRAM g 0 blob.length = 0 ∧
      s.vdCheck g blob = 0) ∧
    -- program refused
    (∃ (s : State) (path : Path) (g : Fin 12) (blob : List Byte),
      s.checkAccess path Obj.VD_PROGRAM g 0 blob.length = 0 ∧
      s.vdCheck g blob ≠ 0) ∧
    -- class entry
    (∃ (s : State) (path : Path) (g : Fin 12) (first : Fin 256) (values : List Byte),
      values.length = 4 ∧
      s.checkAccess path Obj.CLASS_TABLE g first 4 = 0 ∧
      classEntryOk first (leAt values 0 4) = true ∧
      (s.vdg g).tableHold = none) ∧
    -- bad entry
    (∃ (s : State) (path : Path) (g : Fin 12) (first : Fin 256) (values : List Byte),
      values.length = 4 ∧
      s.checkAccess path Obj.CLASS_TABLE g first 4 = 0 ∧
      classEntryOk first (leAt values 0 4) = false) ∧
    -- table held
    (∃ (s : State) (path : Path) (g : Fin 12) (first : Fin 256) (values : List Byte) (l : Nat),
      values.length = 4 ∧
      s.checkAccess path Obj.CLASS_TABLE g first 4 = 0 ∧
      classEntryOk first (leAt values 0 4) = true ∧
      (s.vdg g).tableHold = some l) ∧
    -- hold ends
    (∃ (s : State) (g : Fin 12) (l : Nat),
      (s.vdg g).progHold = some l ∧
      l ≤ s.presentLine g) ∧
    -- hold stays
    (∃ (s : State) (g : Fin 12) (l : Nat),
      (s.vdg g).progHold = some l ∧
      s.presentLine g < l) :=
  ⟨⟨wVd, .chain, 1, wProg, by decide⟩,
   ⟨wVd, .chain, 1, [1, 2], by decide⟩,
   ⟨wVd, .chain, 1, 3, [0, 1, 0, 0], by decide⟩,
   ⟨wVd, .chain, 1, 3, [1, 0, 0, 0], by decide⟩,
   ⟨(wVd.setVdg 1 { tableHold := some 5 }), .chain, 1, 3, [0, 1, 0, 0], 5, by decide⟩,
   ⟨((wVd.setVdg 1 { progHold := some 5 }).putN Obj.CAM_LINE_NOW 2 0 5), 1, 5, by decide⟩,
   ⟨(wVd.setVdg 1 { progHold := some 5 }), 1, 5, by decide⟩⟩

/-- Each clause of `Obligations.Acceptance` with hypotheses: a state and operands that meet them. -/
theorem witness_Acceptance :
    -- armed
    (∃ (s : State) (j : Judged) (r : List Judged),
      s.judged = j :: r ∧
      s.bit Obj.LG_STATUS 0 0 lgReissuing = false ∧
      s.mode = stArmed) ∧
    -- accepted
    (∃ (s : State) (j : Judged) (r : List Judged),
      s.judged = j :: r ∧
      s.bit Obj.LG_STATUS 0 0 lgReissuing = false ∧
      s.mode = stRun ∧
      j.flags.testBit 2 = false ∧
      j.taken = [] ∧
      s.rdEpochBlob j.group j.epoch Obj.VD_PROGRAM j.group = [] ∧
      s.lg.missed = none ∧
      s.recRoom = true) ∧
    -- any verdict
    (∃ (s : State) (j : Judged) (r : List Judged),
      s.judged = j :: r ∧
      s.bit Obj.LG_STATUS 0 0 lgReissuing = false ∧
      (s.mode = stRun ∨ s.mode = stHold) ∧
      s.lg.missed = none ∧
      s.recRoom = true ∧
      0 < s.orderRoom) ∧
    -- rejected
    (∃ (s : State) (j : Judged) (r : List Judged),
      s.judged = j :: r ∧
      s.bit Obj.LG_STATUS 0 0 lgReissuing = false ∧
      s.mode = stRun ∧
      s.lg.missed = none ∧
      s.recRoom = true ∧
      0 < s.orderRoom ∧
      (s.judge { j with flags := s.flagsBefore j }).2.outcome ≠ 0) ∧
    -- no room
    (∃ (s : State) (j : Judged) (r : List Judged),
      s.judged = j :: r ∧
      s.bit Obj.LG_STATUS 0 0 lgReissuing = false ∧
      s.mode = stRun ∧
      j.flags.testBit 2 = false ∧
      s.rdEpochBlob j.group j.epoch Obj.VD_PROGRAM j.group = [] ∧
      s.recRoom = false ∧
      s.rdN Obj.VD_OVERFLOW_POLICY ≠ 0) ∧
    -- issued anew
    (∃ (s : State),
      s.bit Obj.LG_STATUS 0 0 lgReissuing = true) :=
  ⟨⟨wAccArmed, wJudged, [], by decide⟩,
   ⟨wAcc, wJudged, [], by decide⟩,
   ⟨wRejects, wPartialJudged, [], by decide⟩,
   ⟨wRejects, wPartialJudged, [], by decide⟩,
   ⟨wFull, wJudged, [], by decide⟩,
   ⟨(wAcc.setBit Obj.LG_STATUS 0 0 3 true), by decide⟩⟩

/-- Each clause of `Obligations.TakenMessages` with hypotheses: a state and operands that meet them. -/
theorem witness_TakenMessages :
    -- known
    (∃ (s : State) (link : Fin 2) (parts : List Nat) (g : SeamGroup),
      s.chUp link = true ∧
      s.namedGroup link parts = some g ∧
      g.halves.all (fun h => h.link.isSome || h.named link parts) = true) ∧
    -- known in part
    (∃ (s : State) (link : Fin 2) (parts : List Nat) (g : SeamGroup),
      s.chUp link = true ∧
      s.namedGroup link parts = some g ∧
      g.halves.all (fun h => h.link.isSome || h.named link parts) = false) ∧
    -- unknown
    (∃ (s : State) (link : Fin 2) (parts : List Nat),
      s.chUp link = true ∧
      (s.chp link).stalled = [] ∧
      (s.chp link).fits (toLe 8 (parts.headD 0) ++ [1]) = true ∧
      s.namedGroup link parts = none) ∧
    -- refusal
    (∃ (s : State) (link : Fin 2) (part : Nat) (f : Flight),
      s.chUp link = true ∧
      s.bank.flights = [f] ∧
      f.named.contains (link.val, part) = true ∧
      f.remote.contains link.val = true ∧
      f.remote.filter (fun k => k != link.val) ≠ []) :=
  ⟨⟨wNamed, 1, [7], { wPair 50 with halves := [{ wHalf none 50 with ids := [(1, 7)] }] }, by decide⟩,
   ⟨{ wTraffic with
     st := { wTraffic.st with groups := [{ wPair 50 with halves := [{ wHalf none 50 with ids := [(1, 7)] }, wHalf none 50] }] } },
     1, [7], { wPair 50 with halves := [{ wHalf none 50 with ids := [(1, 7)] }, wHalf none 50] }, by decide⟩,
   ⟨wNamed, 1, [8], by decide⟩,
   ⟨wWaits, 1, 7, wFlight, by decide⟩⟩

/-- Each clause of `Obligations.ValveFrames` with hypotheses: a state and operands that meet them. -/
theorem witness_ValveFrames :
    -- freeze
    (∃ (s : State) (t : Nat) (link : Fin 32) (k : Nat),
      s.linkEnabled link = true ∧
      (s.vbl link).next ≤ k ∧
      s.freezeTime link k ≤ (max s.now t : Nat) ∧
      s.bank.pulses = []) ∧
    -- frozen before
    (∃ (s : State) (link : Fin 32) (k : Nat),
      k < (s.vbl link).next) ∧
    -- transmit
    (∃ (s : State) (t : Nat) (link : Fin 32) (f : Frame) (r : List Frame),
      (s.vbl link).frozen = f :: r ∧
      5000 * f.k ≤ max s.now t + 20 * f.lead + s.rdN Obj.EJ_LINK_DELAY_NS 0 link) ∧
    -- too early
    (∃ (s : State) (t : Nat) (link : Fin 32) (f : Frame) (r : List Frame),
      (s.vbl link).frozen = f :: r ∧
      max s.now t + 20 * f.lead + s.rdN Obj.EJ_LINK_DELAY_NS 0 link < 5000 * f.k) ∧
    -- periodic
    (∃ (s : State) (t : Nat) (valve : Fin 2048) (on : Int),
      s.rdN Obj.EJ_VALVE_PC_MODE 0 valve = 2 ∧
      s.mode = stRun ∧
      s.gated = false ∧
      s.valveAble valve = true ∧
      ((∀ p, (s.valve valve).periodic = some p → p + s.rdN Obj.EJ_PC_PERIOD_MS * 1000000 ≤ max s.now t)) ∧
      on = 5000 * ((s.at t).openFrame (valve / 64) : Int) ∧
      ((∀ x, (s.valve valve).lastOff = some x → x + s.rdN Obj.EJ_PC_IDLE_NS ≤ on)) ∧
      ((∀ q ∈ s.pulsesOf valve, q.timed = true → on + (s.chargeWidth valve).1 + s.rdN Obj.EJ_PC_IDLE_NS ≤ q.on ∨ q.off +
        s.rdN Obj.EJ_PC_IDLE_NS ≤ on)) ∧
      (s.chargeWidth valve).1 ≠ 0 ∧
      (s.pulsesOf valve).length < 32) :=
  ⟨⟨wLinkUp, 60000, 1, 3, by decide⟩,
   ⟨(wLinkUp.setVbl 1 { next := 5 }), 1, 3, by decide⟩,
   ⟨wFrozen, 60000, 1, (wFrame []), [], by decide⟩,
   ⟨(wLinkUp.setVbl 1 { frozen := [{ k := 30, lead := 1000, edges := [] }] }), 60000, 1, { k := 30, lead := 1000, edges :=
     [] }, [], by decide⟩,
   ⟨wCharge, 60000, 69, (5000 * ((wCharge.at 60000).openFrame 1 : Int)), by decide⟩⟩

/-- Each clause of `Obligations.ValveEchoes` with hypotheses: a state and operands that meet them. -/
theorem witness_ValveEchoes :
    -- echo
    (∃ (s : State) (link : Fin 32) (f : Frame) (frame : Nat) (flags : Nat),
      (s.vbl link).sent = [f] ∧
      f.k % 65536 = frame ∧
      f.echoed = false ∧
      f.edges = [] ∧
      flags.testBit 0 = false ∧
      s.linkUp link = true ∧
      s.bank.flights = []) ∧
    -- edge
    (∃ (s : State) (link : Fin 32) (f : Frame) (e : FrameEdge) (p : Pulse) (frame : Nat) (flags : Nat) (executed : Nat),
      (s.vbl link).sent = [f] ∧
      f.k % 65536 = frame ∧
      f.echoed = false ∧
      f.edges = [e] ∧
      e.on = true ∧
      executed.testBit e.channel = true ∧
      s.bank.pulses = [p] ∧
      p.id = e.pulse ∧
      p.offEdge = .planned ∧
      flags.testBit 0 = false ∧
      s.linkUp link = true ∧
      s.bank.flights = []) ∧
    -- bad frame
    (∃ (s : State) (link : Fin 32) (f : Frame) (frame : Nat) (flags : Nat),
      (s.vbl link).sent = [f] ∧
      f.k % 65536 = frame ∧
      f.echoed = false ∧
      f.edges = [] ∧
      flags.testBit 0 = true ∧
      (s.vbl link).errors = [] ∧
      s.bank.flights = []) ∧
    -- bad frame after its time
    (∃ (s : State) (link : Fin 32) (flags : Nat),
      (s.vbl link).sent = [] ∧
      flags.testBit 0 = true ∧
      (s.vbl link).errors = []) ∧
    -- crc
    (∃ (s : State) (link : Fin 32),
      (s.vbl link).errors = []) ∧
    -- first missing
    (∃ (s : State) (t : Nat) (link : Fin 32) (f : Frame) (r : List Frame),
      (s.vbl link).sent = f :: r ∧
      5000 * (f.k + 1) + s.rdN Obj.EJ_ECHO_TIMEOUT_NS ≤ max s.now t ∧
      f.echoed = false ∧
      f.edges = [] ∧
      (s.vbl link).missedAt.any (fun k => k + 1 == f.k) = false ∧
      s.bank.flights = []) ∧
    -- missing
    (∃ (s : State) (t : Nat) (link : Fin 32) (f : Frame) (r : List Frame) (m : Nat),
      (s.vbl link).sent = f :: r ∧
      5000 * (f.k + 1) + s.rdN Obj.EJ_ECHO_TIMEOUT_NS ≤ max s.now t ∧
      f.echoed = false ∧
      f.edges = [] ∧
      (s.vbl link).missedAt = some m ∧
      m + 1 = f.k ∧
      (s.vbl link).missing < 2 ∧
      s.bank.flights = []) ∧
    -- third missing
    (∃ (s : State) (t : Nat) (link : Fin 32) (f : Frame) (r : List Frame) (m : Nat),
      (s.vbl link).sent = f :: r ∧
      5000 * (f.k + 1) + s.rdN Obj.EJ_ECHO_TIMEOUT_NS ≤ max s.now t ∧
      f.echoed = false ∧
      f.edges = [] ∧
      (s.vbl link).missedAt = some m ∧
      m + 1 = f.k ∧
      2 ≤ (s.vbl link).missing ∧
      s.linkUp link = true ∧
      s.bank.flights = [] ∧
      s.bank.pulses = []) ∧
    -- no status
    (∃ (s : State) (t : Nat) (link : Fin 32),
      s.linkUp link = true ∧
      (s.vbl link).status + 3000000 ≤ max s.now t ∧
      s.bank.flights = [] ∧
      s.bank.pulses = []) :=
  ⟨⟨(wSentFrame [] 1), 1, (wFrame []), 3, 4, by decide⟩,
   ⟨wSentEdge, 1, (wFrame [wEdge]), wEdge, (wPulse (.frozen 3)), 3, 0, 32, by decide⟩,
   ⟨(wSentFrame [] 1), 1, (wFrame []), 3, 1, by decide⟩,
   ⟨wLinkUp, 1, 1, by decide⟩,
   ⟨(wSentFrame [] 1), 1, by decide⟩,
   ⟨(wSentFrame [] 1), 600000000000, 1, (wFrame []), [], by decide⟩,
   ⟨((wSentFrame [] 1).setVbl 1 { sent := [wFrame []], missing := 1, missedAt := some 2 }), 600000000000, 1, (wFrame []),
     [], 2, by decide⟩,
   ⟨((wSentFrame [] 2).setVbl 1 { sent := [wFrame []], missing := 2, missedAt := some 2 }), 600000000000, 1, (wFrame []),
     [], 2, by decide⟩,
   ⟨wLinkUp, 60000000000, 1, by decide⟩⟩

/-- Each clause of `Obligations.ValveBankLinks` with hypotheses: a state and operands that meet them. -/
theorem witness_ValveBankLinks :
    -- status
    (∃ (s : State) (link : Fin 32) (words : List Nat),
      s.linkEnabled link = true ∧
      words.length = 64) ∧
    -- status refused
    (∃ (s : State) (link : Fin 32),
      s.linkEnabled link = true ∧
      (s.vbl link).errors = []) ∧
    -- ping
    (∃ (s : State) (t : Nat) (link : Fin 32),
      s.linkUp link = true ∧
      (s.vbl link).ping.all (fun x => decide (x + 1000000000 ≤ max s.now t)) = true) ∧
    -- pinged before
    (∃ (s : State) (t : Nat) (link : Fin 32) (x : Nat),
      (s.vbl link).ping = some x ∧
      max s.now t < x + 1000000000) ∧
    -- ping returns
    (∃ (s : State) (link : Fin 32) (sent : Nat),
      (s.vbl link).ping = some sent ∧
      (s.vbl link).pingOut = true) ∧
    -- valve state
    (∃ (s : State) (path : Path) (valve : Fin 2048) (value : List Byte),
      s.checkWrite path Obj.EJ_VALVE_STATE 0 valve value = 0) ∧
    -- lead
    (∃ (s : State) (path : Path) (value : List Byte),
      s.checkWrite path Obj.EJ_LINK_LEAD_NS 0 0 value = 0) ∧
    -- refused
    (∃ (s : State) (path : Path) (value : List Byte),
      s.checkWrite path Obj.EJ_LINK_LEAD_NS 0 0 value ≠ 0) :=
  ⟨⟨wLinkUp, 1, (List.replicate 64 6553600), by decide⟩,
   ⟨wLinkUp, 1, by decide⟩,
   ⟨(wLinkUp.setVbl 1 { ping := some 50000 }), 1000050000, 1, by decide⟩,
   ⟨(wLinkUp.setVbl 1 { ping := some 50000 }), 1000049999, 1, 50000, by decide⟩,
   ⟨(wLinkUp.setVbl 1 { ping := some 50000, pingOut := true }), 1, 50000, by decide⟩,
   ⟨wLinkUp, .chain, 69, [1], by decide⟩,
   ⟨wFrozen, .chain, (toLe 4 40000), by decide⟩,
   ⟨wFrozen, .chain, (toLe 4 40001), by decide⟩⟩

/-- Each clause of `Obligations.InterlockGate` with hypotheses: a state and operands that meet them. -/
theorem witness_InterlockGate :
    -- open
    (∃ (s : State) (source : Fin 4),
      ((source.val = 3 → s.rdN Obj.EJ_ILK_PRESS_SOURCE ≠ 255)) ∧
      s.ilkOpen source = false ∧
      s.mode = stRun ∧
      s.bank.pulses = [] ∧
      s.bank.flights = []) ∧
    -- already open
    (∃ (s : State) (source : Fin 4),
      s.ilkOpen source = true) ∧
    -- close
    (∃ (s : State) (loop : Fin 3),
      s.rdN Obj.EJ_ILK_STATE = 2 ^ loop.val) ∧
    -- release
    (∃ (s : State) (t : Nat) (c : Nat),
      s.bank.closedAt = some c ∧
      s.gated = true ∧
      c + s.rdN Obj.EJ_ILK_CLOSE_MS * 1000000 ≤ max s.now t ∧
      s.flag Obj.EJ_AUTO_RESUME = false) ∧
    -- resume
    (∃ (s : State) (t : Nat) (c : Nat),
      s.bank.closedAt = some c ∧
      s.gated = true ∧
      c + s.rdN Obj.EJ_ILK_CLOSE_MS * 1000000 ≤ max s.now t ∧
      s.flag Obj.EJ_AUTO_RESUME = true ∧
      s.mode = stHold ∧
      s.holdBy = 1 ∧
      s.rdN Obj.EJ_ILK_STATE = 0 ∧
      s.tim.unlocked = false ∧
      s.bit Obj.MER_PORT_STATUS 0 0 0 = false) ∧
    -- not yet
    (∃ (s : State) (t : Nat) (c : Nat),
      s.bank.closedAt = some c ∧
      max s.now t < c + s.rdN Obj.EJ_ILK_CLOSE_MS * 1000000) :=
  ⟨⟨wLinkUp, 1, by decide⟩,
   ⟨wGated, 1, by decide⟩,
   ⟨wGated, 1, by decide⟩,
   ⟨wClosed, 600000000000, 9, by decide⟩,
   ⟨(wClosed.putN Obj.EJ_AUTO_RESUME 0 0 1), 600000000000, 9, by decide⟩,
   ⟨wClosed, 60000, 9, by decide⟩⟩

/-- Each clause of `Obligations.RemoteOrders` with hypotheses: a state and operands that meet them. -/
theorem witness_RemoteOrders :
    -- planned
    (∃ (s : State) (link : Fin 2) (payload : List Byte),
      s.chUp link = true ∧
      payloadOk 64 payload = true ∧
      (payload.getD 52 0 = 1 ∨ payload.getD 52 0 = 2) ∧
      s.orderRoom < 8192 ∧
      s.bank.flights = [] ∧
      s.bank.pulses = []) ∧
    -- no slot
    (∃ (s : State) (link : Fin 2) (payload : List Byte),
      s.chUp link = true ∧
      payloadOk 64 payload = true ∧
      (payload.getD 52 0 = 1 ∨ payload.getD 52 0 = 2) ∧
      8192 - s.bank.flights.length ≤ s.orderRoom) ∧
    -- joined
    (∃ (s : State) (link : Fin 2) (payload : List Byte) (f : Flight),
      s.chUp link = true ∧
      payloadOk 32 payload = true ∧
      s.bank.flights = [f] ∧
      f.kind = .own ∧
      f.orderId = leAt payload 0 8 ∧
      f.remote.contains link.val = true ∧
      f.remote.filter (fun k => k != link.val) ≠ []) ∧
    -- closed
    (∃ (s : State) (link : Fin 2) (payload : List Byte) (f : Flight),
      s.chUp link = true ∧
      payloadOk 32 payload = true ∧
      s.bank.flights = [f] ∧
      s.bank.pulses = [] ∧
      f.kind = .own ∧
      f.orderId = leAt payload 0 8 ∧
      f.remote = [link.val]) ∧
    -- unknown
    (∃ (s : State) (t : Nat) (f : Flight),
      s.bank.flights = [f] ∧
      s.bank.pulses = [] ∧
      f.kind = .own ∧
      f.remote ≠ [] ∧
      (s.at t).remoteOverdue f = true) ∧
    -- surface in any bank
    (∃ (s : State) (t : Nat) (f : Flight),
      f ∈ s.bank.flights ∧
      f.transit.surface = true ∧
      f.accepted + s.rdN Obj.EJ_SURFACE_MAX_WAIT_MS * 1000000 ≤ max s.now t ∧
      f.fired = [] ∧
      ((∀ p ∈ s.bank.pulses, p.orders.contains f.id = true → p.pre = true ∨ p.waiting = true))) ∧
    -- surface
    (∃ (s : State) (t : Nat) (f : Flight) (p : Pulse),
      s.bank.flights = [f] ∧
      s.bank.pulses = [p] ∧
      f.kind = .own ∧
      f.transit.surface = true ∧
      f.accepted + s.rdN Obj.EJ_SURFACE_MAX_WAIT_MS * 1000000 ≤ max s.now t ∧
      f.fired = [] ∧
      f.causes = [] ∧
      f.remote = [] ∧
      f.remoteOk = false ∧
      p.orders = [f.id] ∧
      p.pre = false ∧
      p.waiting = true) :=
  ⟨⟨wRoom, 1, wRemotePayload, by decide⟩,
   ⟨wTraffic, 1, wRemotePayload, by decide⟩,
   ⟨(wRemoteOnly [1, 0]), 1, wSub, { wOwn with remote := [1, 0] }, by decide⟩,
   ⟨(wRemoteOnly [1]), 1, wSub, { wOwn with remote := [1] }, by decide⟩,
   ⟨(wRemoteOnly [1]), 600000000000, { wOwn with remote := [1] }, by decide⟩,
   ⟨wSurfaceState, 600000000000, wSurface, by decide⟩,
   ⟨wSurfaceState, 600000000000, wSurface, (wPulse .planned), by decide⟩⟩

/-- Each clause of `Obligations.LedgerRings` with hypotheses: a state and operands that meet them. -/
theorem witness_LedgerRings :
    -- commit
    (∃ (s : State) (t : Nat) (e : LedgerRecord),
      s.lg.records.find? (fun x => !x.stored) = some e ∧
      s.lg.orders.all (fun o => o.stored || decide (e.since ≤ o.since)) = true ∧
      s.copiesRun = true ∧
      (s.at t).dramServes ((s.at t).ledgerRequest e.since) = true) ∧
    -- commit an order
    (∃ (s : State) (t : Nat) (o : LedgerOrder),
      s.lg.records.all (fun e => e.stored) = true ∧
      oldestOrder (s.lg.orders.filter (fun x => !x.stored)) = some o ∧
      s.copiesRun = true ∧
      (s.at t).dramServes ((s.at t).ledgerRequest o.since) = true) ∧
    -- not served
    (∃ (s : State),
      s.copiesRun = false) ∧
    -- record
    (∃ (s : State) (e : LedgerRecord),
      s.lg.records.find? (fun x => !x.written) = some e ∧
      s.ringOpen Obj.REC_RING_BASE = true ∧
      e.stored = true) ∧
    -- not stored
    (∃ (s : State) (e : LedgerRecord),
      s.lg.records.find? (fun x => !x.written) = some e ∧
      e.stored = false) ∧
    -- outcome
    (∃ (s : State) (id : Nat) (r : List Nat) (o : LedgerOrder),
      s.lg.closed = id :: r ∧
      s.lg.orders.find? (fun x => x.orderId == id) = some o ∧
      s.ringOpen Obj.OUT_RING_BASE = true ∧
      o.seq ≤ s.rdN Obj.REC_HEAD_SEQ) ∧
    -- record first
    (∃ (s : State) (id : Nat) (r : List Nat) (o : LedgerOrder),
      s.lg.closed = id :: r ∧
      s.lg.orders.find? (fun x => x.orderId == id) = some o ∧
      s.rdN Obj.REC_HEAD_SEQ < o.seq) ∧
    -- interrupt
    (∃ (s : State) (t : Nat),
      s.lg.recIrq.count ≠ 0 ∧
      s.lg.recIrq.since + s.rdN Obj.REC_IRQ_NS ≤ max s.now t ∧
      s.cxl.linkUp = true ∧
      s.cxl.unmasked.contains 1 = true) ∧
    -- masked
    (∃ (s : State) (t : Nat),
      s.lg.outIrq.count ≠ 0 ∧
      s.lg.outIrq.since + s.rdN Obj.OUT_IRQ_NS ≤ max s.now t ∧
      s.cxl.unmasked.contains 2 = false) :=
  ⟨⟨(wLg false), 60000, (wEntry false), by decide⟩,
   ⟨wLgOut, 60000, wOrder, by decide⟩,
   ⟨((wLg false).putN Obj.ISLAND_STATE 0 27 2), by decide⟩,
   ⟨(wLg true), (wEntry true), by decide⟩,
   ⟨(wLg false), (wEntry false), by decide⟩,
   ⟨wLgOut, 8, [], wOrder, by decide⟩,
   ⟨wLgOutEarly, 8, [], wOrder, by decide⟩,
   ⟨wIrq, 60000000000, by decide⟩,
   ⟨wIrq, 60000000000, by decide⟩⟩

/-- Each clause of `Obligations.RingAcknowledgements` with hypotheses: a state and operands that meet them. -/
theorem witness_RingAcknowledgements :
    -- records
    (∃ (s : State) (path : Path) (value : List Byte),
      s.checkAccess path Obj.REC_ACK_SEQ 0 0 value.length = 0 ∧
      s.rdN Obj.REC_ACK_SEQ ≤ leNat value ∧
      leNat value ≤ s.rdN Obj.REC_HEAD_SEQ) ∧
    -- records refused
    (∃ (s : State) (path : Path) (value : List Byte),
      s.checkAccess path Obj.REC_ACK_SEQ 0 0 value.length = 0 ∧
      (s.rdN Obj.REC_HEAD_SEQ < leNat value ∨ leNat value < s.rdN Obj.REC_ACK_SEQ)) ∧
    -- outcomes
    (∃ (s : State) (path : Path) (value : List Byte),
      s.checkAccess path Obj.OUT_ACK_ORDER 0 0 value.length = 0 ∧
      s.rdN Obj.OUT_ACK_ORDER ≤ leNat value ∧
      leNat value < s.rdN Obj.OUT_LOW_ORDER) ∧
    -- outcomes refused
    (∃ (s : State) (path : Path) (value : List Byte),
      s.checkAccess path Obj.OUT_ACK_ORDER 0 0 value.length = 0 ∧
      (s.rdN Obj.OUT_LOW_ORDER ≤ leNat value ∨ leNat value < s.rdN Obj.OUT_ACK_ORDER)) ∧
    -- doorbell
    (∃ (s : State) (v : Nat),
      s.rdN Obj.REC_ACK_SEQ ≤ v ∧
      v ≤ s.rdN Obj.REC_HEAD_SEQ) ∧
    -- high half
    (∃ (s : State) (v : Nat) (l : Nat),
      s.lg.outLow = some l ∧
      s.rdN Obj.OUT_ACK_ORDER ≤ v * 2 ^ 32 + l ∧
      v * 2 ^ 32 + l < s.rdN Obj.OUT_LOW_ORDER) ∧
    -- doorbell refused
    (∃ (s : State) (v : Nat),
      (s.rdN Obj.OUT_LOW_ORDER ≤ v ∨ v < s.rdN Obj.OUT_ACK_ORDER)) :=
  ⟨⟨wAckable, .host, (toLe 8 3), by decide⟩,
   ⟨wAckable, .host, (toLe 8 4), by decide⟩,
   ⟨wAckable, .host, (toLe 8 8), by decide⟩,
   ⟨wAckable, .host, (toLe 8 9), by decide⟩,
   ⟨wAckable, 3, by decide⟩,
   ⟨wAckable, 0, 8, by decide⟩,
   ⟨wAckable, 9, by decide⟩⟩

/-- Each clause of `Obligations.LedgerUpkeep` with hypotheses: a state and operands that meet them. -/
theorem witness_LedgerUpkeep :
    -- thumbnail
    (∃ (s : State) (t : Nat) (j : ThumbJob),
      s.thumbs.find? (fun x => s.thumbReady x) = some j ∧
      (s.at t).dramServes ((s.at t).thumbRequest j) = true) ∧
    -- not ready
    (∃ (s : State),
      s.thumbs.find? (fun x => s.thumbReady x) = none) ∧
    -- copied
    (∃ (s : State) (i : Nat) (c : Nat),
      s.cont.copying = some (i, c) ∧
      i < 2) ∧
    -- re-issue ends
    (∃ (s : State),
      s.bit Obj.LG_STATUS 0 0 lgReissuing = true ∧
      s.islandRuns 35 = true ∧
      s.cxl.linkUp = true) ∧
    -- issued anew
    (∃ (s : State),
      s.bit Obj.LG_STATUS 0 0 lgReissuing = true ∧
      s.islandRuns 35 = true ∧
      s.cxl.linkUp = true ∧
      s.bank.flights = [] ∧
      s.rdN Obj.REC_RING_BASE ≠ 0 ∧
      s.rdN Obj.OUT_RING_BASE = 0) ∧
    -- discard
    (∃ (s : State) (path : Path) (value : List Byte),
      s.checkWrite path Obj.LG_DISCARD 0 0 value = 0 ∧
      s.mode = stInit) ∧
    -- discard refused
    (∃ (s : State) (path : Path) (value : List Byte) (r : Nat),
      s.checkWrite path Obj.LG_DISCARD 0 0 value = r ∧
      r ≠ 0) ∧
    -- discard outside INIT
    (∃ (s : State) (path : Path),
      Obj.LG_DISCARD.level ≤ s.pathLevel path ∧
      s.pathOwns path (s.ownerOf Obj.LG_DISCARD 0 0) = true ∧
      s.mode ≠ stInit) ∧
    -- mirrored order
    (∃ (s : State) (link : Fin 2) (payload : List Byte),
      s.chUp link = true ∧
      payload.length < 128) ∧
    -- entry
    (∃ (s : State) (link : Fin 2) (payload : List Byte),
      s.chUp link = true ∧
      128 ≤ payload.length) ∧
    -- confirm
    (∃ (s : State) (link : Fin 2),
      s.chUp link = true ∧
      link.val = s.mirrorLink ∧
      s.flag Obj.LG_MIRROR_ENABLE = true) ∧
    -- all confirmed
    (∃ (s : State) (link : Fin 2) (seq : Nat),
      s.chUp link = true ∧
      link.val = s.mirrorLink ∧
      s.flag Obj.LG_MIRROR_ENABLE = true ∧
      s.lg.records.all (fun e => decide (e.seq ≤ seq)) = true ∧
      s.lg.orders.all (fun o => decide (o.seq ≤ seq)) = true) ∧
    -- no confirmation
    (∃ (s : State) (t : Nat),
      (s.at t).mirrorOverdue = true) :=
  ⟨⟨wThumb, 60000, wThumbJob, by decide⟩,
   ⟨{ wThumb with hist := [] }, by decide⟩,
   ⟨wCopying, 1, 3, by decide⟩,
   ⟨wReissue, by decide⟩,
   ⟨wReissueOut, by decide⟩,
   ⟨wInit, .chain, [1], by decide⟩,
   ⟨wPreop, .chain, [1], 4, by decide⟩,
   ⟨wPreop, .chain, by decide⟩,
   ⟨wTraffic, 1, (List.replicate 32 1), by decide⟩,
   ⟨wTraffic, 1, (List.replicate 128 1), by decide⟩,
   ⟨wMirror, 0, by decide⟩,
   ⟨wMirror, 0, 4, by decide⟩,
   ⟨wMirror, 60000, by decide⟩⟩

/-- Each clause of `Obligations.PipelineFaults` with hypotheses: a state and operands that meet them. -/
theorem witness_PipelineFaults :
    -- silent
    (∃ (s : State) (t : Nat) (pipeline : Fin 13) (last : Nat),
      s.islandRuns (2 + pipeline.val) = true ∧
      last + 150000 ≤ max s.now t ∧
      s.pipeState pipeline ≠ psFaulty) ∧
    -- heartbeat
    (∃ (s : State) (t : Nat) (pipeline : Fin 13) (last : Nat) (p : Nat),
      s.lining = true ∧
      s.islandRuns (2 + pipeline.val) = true ∧
      last + 150000 ≤ max s.now t ∧
      s.pipeState pipeline ≠ psFaulty ∧
      (List.range 12).find? (fun p => s.rdN Obj.RV_PORT_PIPELINE 0 p == pipeline.val) = some p) ∧
    -- in time
    (∃ (s : State) (t : Nat) (last : Nat),
      max s.now t < last + 150000) ∧
    -- failover
    (∃ (s : State) (f : PipeFault) (r : List PipeFault) (q : Nat),
      s.cont.faults = f :: r ∧
      s.cont.rotation = none ∧
      s.freeSpare = some q ∧
      f.port < 12 ∧
      s.imageMissing f.port = false ∧
      q < 13 ∧
      s.islandRuns (2 + q) = true) ∧
    -- unserved
    (∃ (s : State) (f : PipeFault) (r : List PipeFault),
      s.cont.faults = f :: r ∧
      s.cont.rotation = none ∧
      s.freeSpare = none ∧
      f.port < 12 ∧
      s.flag Obj.ST_LOAN_ENABLE = false) ∧
    -- serves
    (∃ (s : State) (p : Fin 14),
      s.replaying p = true ∧
      s.pipelineOf p < 13 ∧
      (s.cam p).toPipe = [] ∧
      (s.rcp p).out = []) ∧
    -- caught up
    (∃ (s : State) (p : Fin 14) (f : Failover),
      s.replaying p = true ∧
      s.pipelineOf p < 13 ∧
      (s.cam p).toPipe = [] ∧
      (s.rcp p).out = [] ∧
      s.failoverOf p = some f ∧
      s.rdN Obj.RV_FAILSAFE_POLICY ≠ 0) :=
  ⟨⟨wServe, 600000, 2, 9, by decide⟩,
   ⟨wServe, 600000, 2, 9, 2, by decide⟩,
   ⟨wServe, 60000, 9, by decide⟩,
   ⟨wFault, wFaultOf, [], 12, by decide⟩,
   ⟨wNoSpare, wFaultOf, [], by decide⟩,
   ⟨wReplay, 2, by decide⟩,
   ⟨(wReplay.setFailover 2 (some wFail)), 2, wFail, by decide⟩⟩

/-- Each clause of `Obligations.PipelineRotation` with hypotheses: a state and operands that meet them. -/
theorem witness_PipelineRotation :
    -- rotate
    (∃ (s : State) (t : Nat) (p : Nat),
      s.lining = true ∧
      s.suspended = false ∧
      s.cont.rotation = none ∧
      s.refilled = true ∧
      s.cont.rotated + s.rdN Obj.RV_ROTATE_MS * 1000000 ≤ max s.now t ∧
      s.rdN Obj.RV_SPARE < 13 ∧
      s.nextEnabled (s.rdN Obj.RV_NEXT_PORT) = some p ∧
      s.imageMissing p = false) ∧
    -- suspended
    (∃ (s : State),
      s.suspended = true) ∧
    -- image bad
    (∃ (s : State) (t : Nat) (p : Nat) (q : Nat),
      s.lining = true ∧
      s.suspended = false ∧
      s.cont.rotation = none ∧
      s.refilled = true ∧
      s.cont.rotated + s.rdN Obj.RV_ROTATE_MS * 1000000 ≤ max s.now t ∧
      s.rdN Obj.RV_SPARE = q ∧
      q < 13 ∧
      s.pipeState q ≠ psFaulty ∧
      s.nextEnabled (s.rdN Obj.RV_NEXT_PORT) = some p) ∧
    -- equal
    (∃ (s : State) (r : Rotation),
      s.cont.rotation = some r ∧
      r.mismatch = false ∧
      r.begun.isSome = true ∧
      r.compared = none ∧
      s.comparedAll r = true) ∧
    -- mismatch
    (∃ (s : State) (r : Rotation),
      s.cont.rotation = some r ∧
      r.mismatch = false ∧
      r.begun.isSome = true ∧
      r.spare < 13) ∧
    -- epoch wait
    (∃ (s : State) (t : Nat) (r : Rotation) (c : Nat),
      s.cont.rotation = some r ∧
      r.compared = some c ∧
      c + s.rdN Obj.RV_EPOCH_WAIT_MS * 1000000 ≤ max s.now t ∧
      s.lining = true ∧
      s.groupPorts (s.portGroup r.port) ≠ [] ∧
      s.rdN Obj.EPOCH_PENDING 0 (s.portGroup r.port) = 0) ∧
    -- pass
    (∃ (s : State) (t : Nat) (pipeline : Fin 13),
      s.pipeState pipeline = psTesting ∧
      s.cont.accuses = none ∧
      ((∀ x ∈ s.cont.testing, x.1 = pipeline.val → x.2 + s.rdN Obj.RV_BIST_MS * 1000000 ≤ max s.now t))) ∧
    -- fail
    (∃ (s : State) (pipeline : Fin 13) (result : Nat),
      s.pipeState pipeline = psTesting ∧
      result ≠ 1) :=
  ⟨⟨wServe, 6000000000, 2, by decide⟩,
   ⟨wNoSpare, by decide⟩,
   ⟨wServe, 6000000000, 2, 12, by decide⟩,
   ⟨{ wRotating none with sg := [(2, { line := 200000 })] }, wRotation, by decide⟩,
   ⟨(wRotating none), wRotation, by decide⟩,
   ⟨(wRotating (some 9)), 600000000000, { wRotation with compared := some 9 }, 9, by decide⟩,
   ⟨wTesting, 60000, 5, by decide⟩,
   ⟨wTesting, 5, 2, by decide⟩⟩

/-- Each clause of `Obligations.IslandResets` with hypotheses: a state and operands that meet them. -/
theorem witness_IslandResets :
    -- any
    (∃ (s : State) (path : Path) (value : List Byte),
      s.checkWrite path Obj.ISLAND_RESET 0 0 value = 0 ∧
      2 ≤ leNat value ∧
      leNat value ≤ 37) ∧
    -- camera port
    (∃ (s : State) (path : Path) (value : List Byte),
      s.checkWrite path Obj.ISLAND_RESET 0 0 value = 0 ∧
      15 ≤ leNat value ∧
      leNat value ≤ 26) ∧
    -- refused
    (∃ (s : State) (path : Path) (value : List Byte),
      s.checkWrite path Obj.ISLAND_RESET 0 0 value = 0 ∧
      (leNat value < 2 ∨ 37 < leNat value)) ∧
    -- flushed
    (∃ (s : State) (island : Fin 40),
      (s.rdN Obj.ISLAND_STATE 0 island = 2 ∨ s.rdN Obj.ISLAND_STATE 0 island = 4)) ∧
    -- runs on
    (∃ (s : State) (island : Fin 40),
      s.rdN Obj.ISLAND_STATE 0 island ≠ 2 ∧
      s.rdN Obj.ISLAND_STATE 0 island ≠ 4) ∧
    -- any ready
    (∃ (s : State) (island : Fin 40),
      s.rdN Obj.ISLAND_STATE 0 island = 2 ∧
      s.power.nreset = false ∧
      2 ≤ island.val ∧
      ((isPipe island = true → s.pipeState (island.val - 2) ≠ psTesting ∧ s.pipeState (island.val - 2) ≠ psFaulty)) ∧
      ((island.val = 35 → s.cxl.perst = true))) ∧
    -- ready
    (∃ (s : State) (island : Fin 40),
      15 ≤ island.val ∧
      island.val ≤ 26 ∧
      s.rdN Obj.ISLAND_STATE 0 island = 2 ∧
      s.power.nreset = false ∧
      s.flag Obj.CAM_ENABLE (island.val - 15) = true) ∧
    -- self-test
    (∃ (s : State) (pipeline : Fin 13) (island : Fin 40),
      island.val = 2 + pipeline.val ∧
      s.pipeState pipeline = psTesting) :=
  ⟨⟨wServe, .chain, [4], by decide⟩,
   ⟨wServe, .chain, [17], by decide⟩,
   ⟨wServe, .chain, [1], by decide⟩,
   ⟨(wHeld 7), 7, by decide⟩,
   ⟨wServe, 7, by decide⟩,
   ⟨(wHeld 30), 30, by decide⟩,
   ⟨(wHeld 17), 17, by decide⟩,
   ⟨wTesting, 5, 7, by decide⟩⟩

/-- Each clause of `Obligations.HostLink` with hypotheses: a state and operands that meet them. -/
theorem witness_HostLink :
    -- up
    (∃ (s : State) (width : Fin 17) (rate : Fin 5),
      s.cxl.linkUp = false ∧
      s.islandRuns islandCxl = true ∧
      s.linkAllowed width rate = true) ∧
    -- not allowed
    (∃ (s : State) (width : Fin 17) (rate : Fin 5),
      s.linkAllowed width rate = false) ∧
    -- recovery
    (∃ (s : State),
      s.cxl.linkUp = true) ∧
    -- down
    (∃ (s : State) (t : Nat) (r : Nat),
      s.cxl.recovery = some r ∧
      r + 1000 * s.rdN Obj.CX_LINK_DOWN_US ≤ max s.now t) ∧
    -- not yet
    (∃ (s : State) (t : Nat) (r : Nat),
      s.cxl.recovery = some r ∧
      max s.now t < r + 1000 * s.rdN Obj.CX_LINK_DOWN_US) ∧
    -- keys
    (∃ (s : State),
      s.cxl.linkUp = true) ∧
    -- check fails
    (∃ (s : State),
      s.cxl.linkUp = true) ∧
    -- unmask
    (∃ (s : State) (e : MsixEntry),
      s.cxl.linkUp = true ∧
      e.masked = false ∧
      s.cxl.pendingVec.contains e.vector.val = true) ∧
    -- mask
    (∃ (s : State) (e : MsixEntry),
      e.masked = true ∧
      s.cxl.pendingVec = []) :=
  ⟨⟨(wCxl {}), 16, 2, by decide⟩,
   ⟨(wCxl {}), 3, 2, by decide⟩,
   ⟨(wCxl { linkUp := true }), by decide⟩,
   ⟨(wCxl { recovery := some 9 }), 60000000000, 9, by decide⟩,
   ⟨(wCxl { recovery := some 59999 }), 60000, 59999, by decide⟩,
   ⟨(wCxl { linkUp := true }), by decide⟩,
   ⟨(wCxl { linkUp := true }), by decide⟩,
   ⟨(wCxl { linkUp := true, pendingVec := [3] }), ⟨3,64,9,false⟩, by decide⟩,
   ⟨(wCxl { linkUp := true, unmasked := [3] }), ⟨3,64,9,true⟩, by decide⟩⟩

/-- Each clause of `Obligations.DeviceMemoryWindow` with hypotheses: a state and operands that meet them. -/
theorem witness_DeviceMemoryWindow :
    -- write
    (∃ (s : State) (address : Nat) (data : List Byte),
      s.windowOpen = true ∧
      address + data.length ≤ s.rdN Obj.CX_HDM_SIZE ∧
      s.inScratch address data.length = true) ∧
    -- read-only
    (∃ (s : State) (address : Nat) (data : List Byte),
      s.windowOpen = true ∧
      address + data.length ≤ s.rdN Obj.CX_HDM_SIZE ∧
      s.inScratch address data.length = false) ∧
    -- write beyond
    (∃ (s : State) (address : Nat) (data : List Byte),
      s.windowOpen = true ∧
      s.rdN Obj.CX_HDM_SIZE < address + data.length) ∧
    -- read
    (∃ (s : State) (address : Nat) (length : Nat),
      s.windowOpen = true ∧
      address + length ≤ s.rdN Obj.CX_HDM_SIZE ∧
      s.unreadable address length = false) ∧
    -- poisoned
    (∃ (s : State) (address : Nat) (length : Nat) (errors : List DramError),
      s.windowOpen = true ∧
      address + length ≤ s.rdN Obj.CX_HDM_SIZE ∧
      (s.unreadable address length = true ∨ errors.any (fun e => e.uncorrectable && siteMeets e.site address length) = true)) ∧
    -- read beyond
    (∃ (s : State) (address : Nat) (length : Nat),
      s.windowOpen = true ∧
      s.rdN Obj.CX_HDM_SIZE < address + length) ∧
    -- link down
    (∃ (s : State),
      s.windowOpen = false) :=
  ⟨⟨wMemState, wBase, [1, 2, 3], by decide⟩,
   ⟨wMemState, 0, [1, 2, 3], by decide⟩,
   ⟨wMemState, (2 ^ 60), [1], by decide⟩,
   ⟨wMemState, wBase, 4, by decide⟩,
   ⟨wMemState, wBase, 4, [⟨.shared wBase,true⟩], by decide⟩,
   ⟨wMemState, (2 ^ 60), 4, by decide⟩,
   ⟨wLine, by decide⟩⟩

/-- Each clause of `Obligations.DmaCommands` with hypotheses: a state and operands that meet them. -/
theorem witness_DmaCommands :
    -- taken
    (∃ (s : State) (channel : Fin 32) (d : List Byte),
      (s.dma channel).state = dsIdle ∧
      (s.dma channel).committed = none ∧
      dsForm d ≠ 2 ∧
      s.dmaRefusal (dmaJob (((s.dma channel).genCommitted + 1) % 2 ^ 32) d []) d = 0) ∧
    -- refused
    (∃ (s : State) (channel : Fin 32) (d : List Byte),
      (s.dma channel).state = dsIdle ∧
      (s.dma channel).committed = none ∧
      dsForm d ≠ 2 ∧
      s.dmaRefusal (dmaJob (((s.dma channel).genCommitted + 1) % 2 ^ 32) d []) d ≠ 0) ∧
    -- list to fetch
    (∃ (s : State) (channel : Fin 32) (d : List Byte),
      (s.dma channel).state = dsIdle ∧
      (s.dma channel).committed = none ∧
      dsForm d = 2 ∧
      leAt d 32 8 ≠ 0) ∧
    -- the set written before
    (∃ (s : State) (channel : Fin 32),
      (s.dma channel).state ≠ dsIdle) ∧
    -- kept
    (∃ (s : State) (channel : Fin 32) (old : List Byte),
      (s.dma channel).state ≠ dsIdle ∧
      (s.dma channel).committed = some old) ∧
    -- list
    (∃ (s : State) (channel : Fin 32) (elements : List (List Byte)),
      (s.dma channel).state = dsFetching ∧
      (leAt (s.dma channel).taken 60 4).testBit 13 = false ∧
      s.dmaRefusal (dmaJob (s.dma channel).genTaken (s.dma channel).taken elements) (s.dma channel).taken = 0) ∧
    -- mover
    (∃ (s : State) (toHost : Bool) (n : Nat) (m : Nat),
      s.dmaPick toHost (fun x => x == dsWaiting || x == dsPreempted) (fun b a => decide (a.1 < b.1)) = some n ∧
      (if toHost then [0, 1] else [2, 3]).find? (fun m => (List.range 32).all (fun k => (s.dma k).state != dsRunning ||
        (s.dma k).job.all (fun j => j.mover != m))) = some m) ∧
    -- pre-empted
    (∃ (s : State) (toHost : Bool) (n : Nat) (v : Nat),
      s.dmaPick toHost (fun x => x == dsWaiting || x == dsPreempted) (fun b a => decide (a.1 < b.1)) = some n ∧
      s.dmaPick toHost (fun x => x == dsRunning) (fun b a => decide (b.1 ≤ a.1)) = some v ∧
      s.dmaPrio v < s.dmaPrio n ∧
      ((∀ m, m < 4 → ∃ k, k < 32 ∧ (s.dma k).state = dsRunning ∧ (s.dma k).job.any (fun j => j.mover == m || (m < 2) !=
        toHost) = true))) :=
  ⟨⟨wLine, 3, (wDesc 8), by decide⟩,
   ⟨wLine, 3, (wDesc (2 ^ 31)), by decide⟩,
   ⟨wLine, 3, wListDesc, by decide⟩,
   ⟨(wDma { state := dsRunning }), 3, by decide⟩,
   ⟨(wDma { state := dsRunning, committed := some [] }), 3, [], by decide⟩,
   ⟨(wDma { state := dsFetching, taken := wDesc 8 }), 3, [], by decide⟩,
   ⟨(wDma { state := dsWaiting, job := some (wJobOf 8) }), false, 3, 2, by decide⟩,
   ⟨wPreempt, false, 3, 2, by decide⟩⟩

/-- Each clause of `Obligations.DmaTransfers` with hypotheses: a state and operands that meet them. -/
theorem witness_DmaTransfers :
    -- half
    (∃ (s : State) (channel : Fin 32) (j : DmaJob) (src : Nat) (dst : Nat) (n : Nat),
      (s.dma channel).job = some j ∧
      (s.dma channel).state = dsRunning ∧
      j.compresses = false ∧
      j.pieces = [(src, dst, n)] ∧
      2 ≤ n ∧
      j.srcDev = true ∧
      j.dstDev = true ∧
      j.down = false ∧
      j.moved = 0 ∧
      j.staged = [] ∧
      (∀ b ∈ s.dramBad, ∀ x ∈ j.pieces, blockMeets b x.1 x.2.2 = false)) ∧
    -- half of any plain job
    (∃ (s : State) (channel : Fin 32) (j : DmaJob),
      (s.dma channel).job = some j ∧
      (s.dma channel).state = dsRunning ∧
      j.compresses = false ∧
      j.srcDev = true ∧
      j.moved ≤ (j.total + 1) / 2 ∧
      2 ≤ j.total ∧
      (∀ b ∈ s.dramBad, ∀ x ∈ j.pieces, blockMeets b x.1 x.2.2 = false)) ∧
    -- done
    (∃ (s : State) (channel : Fin 32) (j : DmaJob) (src : Nat) (dst : Nat) (n : Nat),
      (s.dma channel).job = some j ∧
      (s.dma channel).state = dsRunning ∧
      (s.dma channel).committed = none ∧
      j.compresses = false ∧
      j.pieces = [(src, dst, n)] ∧
      j.srcDev = true ∧
      j.dstDev = true ∧
      j.down = false ∧
      j.moved = 0 ∧
      j.staged = [] ∧
      j.check = 0 ∧
      (∀ b ∈ s.dramBad, ∀ x ∈ j.pieces, blockMeets b x.1 x.2.2 = false)) ∧
    -- completes
    (∃ (s : State) (channel : Fin 32) (j : DmaJob),
      (s.dma channel).job = some j ∧
      (s.dma channel).state = dsRunning ∧
      (s.dma channel).committed = none ∧
      j.compresses = false ∧
      j.srcDev = true ∧
      j.moved ≤ j.total ∧
      (∀ b ∈ s.dramBad, ∀ x ∈ j.pieces, blockMeets b x.1 x.2.2 = false)) ∧
    -- source error
    (∃ (s : State) (channel : Fin 32) (j : DmaJob),
      (s.dma channel).job = some j ∧
      (s.dma channel).state = dsRunning ∧
      (s.dma channel).committed = none ∧
      j.compresses = false) ∧
    -- unreadable source
    (∃ (s : State) (channel : Fin 32) (j : DmaJob) (src : Nat) (dst : Nat) (n : Nat),
      (s.dma channel).job = some j ∧
      (s.dma channel).state = dsRunning ∧
      (s.dma channel).committed = none ∧
      j.compresses = false ∧
      j.srcDev = true ∧
      j.down = false ∧
      j.pieces = [(src, dst, n)] ∧
      0 < n ∧
      s.unreadable src n = true) ∧
    -- destination error
    (∃ (s : State) (channel : Fin 32) (j : DmaJob),
      (s.dma channel).job = some j ∧
      (s.dma channel).state = dsRunning ∧
      (s.dma channel).committed = none ∧
      j.dstDev = false) ∧
    -- abort
    (∃ (s : State) (channel : Fin 32),
      (s.dma channel).state ≠ dsIdle) ∧
    -- block
    (∃ (s : State) (channel : Fin 32) (engine : Fin 4) (j : DmaJob) (src : Nat) (dst : Nat) (n : Nat),
      (s.dma channel).job = some j ∧
      (s.dma channel).state = dsRunning ∧
      s.cxl.engines.find? (fun e => e.1 == engine.val && e.2.1 == channel.val) = some (engine.val, channel.val, j.blocks) ∧
      j.pieces = [(src, dst, n)] ∧
      j.moved = j.blocks * j.blockBytes ∧
      j.moved < n ∧
      j.srcDev = true ∧
      j.early = [] ∧
      j.czCtrl.testBit 9 = true ∧
      j.outBytes + 2 * min j.blockBytes (n - j.moved) + 64 ≤ j.outLimit ∧
      (∀ b ∈ s.dramBad, ∀ x ∈ j.pieces, blockMeets b x.1 x.2.2 = false)) ∧
    -- block waits
    (∃ (s : State) (channel : Fin 32) (engine : Fin 4) (j : DmaJob) (i : Nat),
      (s.dma channel).job = some j ∧
      s.cxl.engines.find? (fun e => e.1 == engine.val && e.2.1 == channel.val) = some (engine.val, channel.val, i) ∧
      i ≠ j.blocks ∧
      j.early = []) ∧
    -- block error
    (∃ (s : State) (channel : Fin 32) (engine : Fin 4) (j : DmaJob),
      (s.dma channel).job = some j ∧
      (s.dma channel).state = dsRunning ∧
      (s.dma channel).committed = none ∧
      s.cxl.engines.find? (fun e => e.1 == engine.val && e.2.1 == channel.val) = some (engine.val, channel.val, j.blocks) ∧
      j.early = []) :=
  ⟨⟨(wJobRun (wJobOf 8)), 3, (wJobOf 8), wBase, (wBase + 4096), 8, by decide⟩,
   ⟨(wJobRun wHostJob), 3, wHostJob, by decide⟩,
   ⟨(wJobRun (wJobOf 8)), 3, (wJobOf 8), wBase, (wBase + 4096), 8, by decide⟩,
   ⟨(wJobRun wHostJob), 3, wHostJob, by decide⟩,
   ⟨(wJobRun (wJobOf 8)), 3, (wJobOf 8), by decide⟩,
   ⟨{ wJobRun (wJobOf 8) with dramBad := [wBase / 64] }, 3, (wJobOf 8), wBase, (wBase + 4096), 8, by decide⟩,
   ⟨(wJobRun wHostJob), 3, wHostJob, by decide⟩,
   ⟨(wJobRun (wJobOf 8)), 3, by decide⟩,
   ⟨wCz, 3, 1, wCzJob, wBase, (wBase + 4096), 100, by decide⟩,
   ⟨{ wCz with cxl := { wCz.cxl with engines := [(1, 3, 2)] } }, 3, 1, wCzJob, 2, by decide⟩,
   ⟨wCz, 3, 1, wCzJob, by decide⟩⟩

/-- Each clause of `Obligations.DramUpkeep` with hypotheses: a state and operands that meet them. -/
theorem witness_DramUpkeep :
    -- owed
    (∃ (s : State) (t : Nat) (channel : Fin 8) (events : List BankEvent),
      s.rdN Obj.DR_CH_STATE 0 channel = drReady ∧
      (s.dramCh channel).due ≤ max s.now t ∧
      ((s.dramCh channel).run (s.rdN Obj.DR_RH_K) events).1.owed.length < 8) ∧
    -- rotation
    (∃ (s : State) (t : Nat) (channel : Fin 8) (events : List BankEvent),
      s.rdN Obj.DR_CH_STATE 0 channel = drReady ∧
      (s.dramCh channel).due ≤ max s.now t ∧
      (s.dramCh channel).due ≠ 0 ∧
      ((s.dramCh channel).run (s.rdN Obj.DR_RH_K) events).1.owed.length < 8) ∧
    -- issued
    (∃ (s : State) (t : Nat) (channel : Fin 8) (bank : Fin 16),
      s.rdN Obj.DR_CH_STATE 0 channel = drReady ∧
      (s.dramCh channel).due ≤ max s.now t ∧
      (s.dramCh channel).owed.contains bank.val = true ∧
      (s.dramCh channel).owed.length ≤ 8) ∧
    -- forced
    (∃ (s : State) (t : Nat) (channel : Fin 8) (events : List BankEvent),
      s.rdN Obj.DR_CH_STATE 0 channel = drReady ∧
      (s.dramCh channel).due ≤ max s.now t ∧
      ((s.dramCh channel).run (s.rdN Obj.DR_RH_K) events).1.owed.length = 8) ∧
    -- skips ahead
    (∃ (s : State) (t : Nat) (channel : Fin 8) (bank : Fin 16),
      s.rdN Obj.DR_CH_STATE 0 channel = drReady ∧
      (s.dramCh channel).due ≤ max s.now t ∧
      (s.dramCh channel).owed.length = 8 ∧
      (s.dramCh channel).bank = bank.val) ∧
    -- neighbours
    (∃ (s : State) (t : Nat) (channel : Fin 8),
      s.rdN Obj.DR_CH_STATE 0 channel = drReady ∧
      (s.dramCh channel).due ≤ max s.now t ∧
      (s.dramCh channel).near.length = 16) ∧
    -- banks
    (∃ (i : Nat) (j : Nat),
      i < 16 ∧
      j < 16 ∧
      i ≠ j) ∧
    -- scrubbed
    (∃ (s : State) (t : Nat),
      s.scrubFrom ≤ max s.now t) ∧
    -- scrub late
    (∃ (s : State) (t : Nat),
      s.scrubFrom + 1000000000 * s.rdN Obj.DR_SCRUB_PERIOD_S ≤ max s.now t) ∧
    -- corrected
    (∃ (s : State) (t : Nat) (e : DramError) (c : Fin 8),
      e.uncorrectable = false ∧
      (s.sitePlace e.site).1 = c.val ∧
      s.scrubFrom + 1000000000 * s.rdN Obj.DR_SCRUB_PERIOD_S ≤ max s.now t) ∧
    -- uncorrectable
    (∃ (s : State) (t : Nat) (address : Nat) (c : Fin 8),
      (s.sitePlace (.shared address)).1 = c.val ∧
      ((s.dramCh c).errors.filter (fun x => decide (max s.now t < x + 1000000000))).length < s.rdN Obj.DR_UNCORR_LIMIT ∧
      s.scrubFrom + 1000000000 * s.rdN Obj.DR_SCRUB_PERIOD_S ≤ max s.now t) ∧
    -- past the limit
    (∃ (s : State) (t : Nat) (c : Fin 8),
      s.rdN Obj.DR_CH_STATE 0 c ≠ drFaulty ∧
      s.rdN Obj.DR_UNCORR_LIMIT ≤ ((s.dramCh c).errors.filter (fun x => decide (max s.now t < x + 1000000000))).length ∧
      s.scrubFrom + 1000000000 * s.rdN Obj.DR_SCRUB_PERIOD_S ≤ max s.now t) ∧
    -- retrained
    (∃ (s : State) (t : Nat) (channel : Fin 8),
      s.rdN Obj.DR_CH_STATE 0 channel = drReady ∧
      (s.dramCh channel).calDue ≤ max s.now t) ∧
    -- drifted
    (∃ (s : State) (t : Nat) (channel : Fin 8),
      s.rdN Obj.DR_CH_STATE 0 channel = drReady ∧
      (s.dramCh channel).calDue ≤ max s.now t) ∧
    -- full retrain
    (∃ (s : State) (channel : Fin 8),
      s.rdN Obj.DR_CH_STATE 0 channel = drFaulty ∧
      s.mode = stPreop) ∧
    -- timeout
    (∃ (s : State) (error : DramError) (c : Fin 8),
      (s.sitePlace error.site).1 = c.val ∧
      s.rdN Obj.DR_CH_STATE 0 c = drReady) ∧
    -- fault
    (∃ (s : State) (loss : ChannelLoss),
      s.rdN Obj.DR_CH_STATE 0 loss.channel ≠ drFaulty ∧
      s.cont.faulty.contains (1, loss.channel.val) = false) ∧
    -- rebuilt
    (∃ (s : State),
      s.bit Obj.DR_STATUS 0 0 dsRemapping = true) :=
  ⟨⟨(wDebt [1, 2, 3, 4, 7, 8, 9]), 60000, 3, [.idle 2], by decide⟩,
   ⟨(wDramCh.setDram 3 { owed := [1], bank := 15, due := 9 }), 60000, 3, [], by decide⟩,
   ⟨(wDebt [1, 2, 3, 4, 7, 8, 9, 10]), 60000, 3, 4, by decide⟩,
   ⟨(wDebt [1, 2, 3, 4, 7, 8, 9, 10]), 60000, 3, [], by decide⟩,
   ⟨(wDebt [1, 2, 3, 4, 7, 8, 9, 10]), 60000, 3, 5, by decide⟩,
   ⟨(wDramCh.setDram 3 { near := List.replicate 16 (1, 2) }), 60000, 3, by decide⟩,
   ⟨4, 5, by decide⟩,
   ⟨wDramCh, 60000, by decide⟩,
   ⟨wDramCh, (2 ^ 60), by decide⟩,
   ⟨wDramCh, (2 ^ 60), (wDramErr false), 3, by decide⟩,
   ⟨wDramCh, (2 ^ 60), 768, 3, by decide⟩,
   ⟨(wDramCh.putN Obj.DR_UNCORR_LIMIT 0 0 0), (2 ^ 60), 3, by decide⟩,
   ⟨wDramCh, 60000, 3, by decide⟩,
   ⟨wDramCh, 60000, 3, by decide⟩,
   ⟨(wPreop.putN Obj.DR_CH_STATE 0 3 drFaulty), 3, by decide⟩,
   ⟨wDramCh, (wDramErr true), 3, by decide⟩,
   ⟨wDramCh, { channel := 3, ledger := some 64 }, by decide⟩,
   ⟨(wDramCh.setBit Obj.DR_STATUS 0 0 dsRemapping true), by decide⟩⟩

/-- Each clause of `Obligations.MeridianFrames` with hypotheses: a state and operands that meet them. -/
theorem witness_MeridianFrames :
    -- foreign
    (∃ (destination : List Byte) (source : List Byte) (etherType : Nat) (body : List Byte) (frame : List Byte),
      frame = etherFrame destination source etherType body ∧
      isMeridian frame = false) ∧
    -- another version
    (∃ (s : State) (port : Fin 2) (destination : List Byte) (source : List Byte) (etherType : Nat) (body : List Byte) (frame : List Byte),
      frame = etherFrame destination source etherType body ∧
      s.merServes = true ∧
      s.merProcessed port = true ∧
      isMeridian frame = true ∧
      leAt frame 16 1 ≠ 1) ∧
    -- bad format
    (∃ (s : State) (port : Fin 2) (destination : List Byte) (source : List Byte) (etherType : Nat) (body : List Byte) (frame : List Byte),
      frame = etherFrame destination source etherType body ∧
      s.merServes = true ∧
      s.merProcessed port = true ∧
      isMeridian frame = true ∧
      leAt frame 16 1 = 1) ∧
    -- return path
    (∃ (s : State) (port : Fin 2) (destination : List Byte) (source : List Byte) (etherType : Nat) (body : List Byte) (frame : List Byte),
      frame = etherFrame destination source etherType body ∧
      s.merProcessed port = false) ∧
    -- not served
    (∃ (s : State),
      s.merServes = false) ∧
    -- pass
    (∃ (s : State) (d : Datagram),
      s.merServes = true ∧
      s.merProcessed d.port = true ∧
      s.addressed d = true ∧
      s.mer.held = []) ∧
    -- not addressed
    (∃ (s : State) (d : Datagram),
      s.merServes = true ∧
      s.merProcessed d.port = true ∧
      s.addressed d = false ∧
      s.mer.held = []) ∧
    -- fetch
    (∃ (s : State) (d : Datagram),
      s.merServes = true ∧
      s.merProcessed d.port = true ∧
      s.addressed d = true ∧
      d.scope.val < 2 ∧
      d.address + d.data.length ≤ 4096 ∧
      s.mer.held = []) ∧
    -- fetch by all
    (∃ (s : State) (d : Datagram),
      s.merServes = true ∧
      s.merProcessed d.port = true ∧
      d.scope.val = 2 ∧
      d.address + d.data.length ≤ 4096 ∧
      s.mer.held = []) ∧
    -- fetch of the image
    (∃ (s : State) (d : Datagram),
      s.merServes = true ∧
      s.merProcessed d.port = true ∧
      d.scope.val = 3 ∧
      s.addressed d = true ∧
      s.mer.held = []) ∧
    -- store of the image
    (∃ (s : State) (t : Nat) (d : Datagram),
      s.merServes = true ∧
      s.merProcessed d.port = true ∧
      d.scope.val = 3 ∧
      s.addressed d = true ∧
      ((s.at t).imageWriteAll d).2 = true) ∧
    -- refused bytes
    (∃ (s : State) (d : Datagram),
      s.merServes = true ∧
      s.merProcessed d.port = true ∧
      s.addressed d = true ∧
      d.scope.val < 3 ∧
      16 ≤ d.address ∧
      d.data ≠ [] ∧
      s.mer.held = []) ∧
    -- station
    (∃ (s : State) (a : Nat) (b : Nat) (d : Datagram),
      s.merServes = true ∧
      s.merProcessed d.port = true ∧
      d.scope = 0 ∧
      d.hops = d.select ∧
      d.address = 8 ∧
      d.data = [a, b] ∧
      d.fcsOk = true ∧
      (s.mode = stInit ∨ s.mode = stPreop) ∧
      1 ≤ s.pathLevel .chain ∧
      s.mer.held = [] ∧
      d.more = false) ∧
    -- trade
    (∃ (s : State) (a : Nat) (b : Nat) (d : Datagram),
      s.merServes = true ∧
      s.merProcessed d.port = true ∧
      d.scope = 0 ∧
      d.hops = d.select ∧
      d.address = 8 ∧
      d.data = [a, b] ∧
      d.fcsOk = true ∧
      (s.mode = stInit ∨ s.mode = stPreop) ∧
      1 ≤ s.pathLevel .chain ∧
      s.mer.held = [] ∧
      d.more = false) ∧
    -- any trade
    (∃ (s : State) (d : Datagram),
      s.merServes = true ∧
      s.merProcessed d.port = true ∧
      s.addressed d = true ∧
      d.scope.val < 3 ∧
      d.more = true) :=
  ⟨⟨[1], [2], 5, [], [1, 2, 0, 5], by decide⟩,
   ⟨wMer, 0, (zeros 6), (zeros 6), 0x88b5, (wMerBody 2 9 [1]), (wMerFrame 2 9 [1]), by decide⟩,
   ⟨wMer, 0, (zeros 6), (zeros 6), 0x88b5, (wMerBody 1 9 [1]), (wMerFrame 1 9 [1]), by decide⟩,
   ⟨wLinked, 1, (zeros 6), (zeros 6), 0x88b5, (wMerBody 1 9 [1]), (wMerFrame 1 9 [1]), by decide⟩,
   ⟨State.reset, by decide⟩,
   ⟨wMer, (wD 1 7 5 [1]), by decide⟩,
   ⟨wMer, (wD 1 8 5 [1]), by decide⟩,
   ⟨wMer, (wD 1 7 4 [0, 0]), by decide⟩,
   ⟨wMer, (wD 2 7 4 [9, 9]), by decide⟩,
   ⟨wImage, (wD 3 0 (wImage.rdN Obj.MAP_IN_BASE) [0]), by decide⟩,
   ⟨wImage, 60000, (wD 3 0 (wImage.rdN Obj.MAP_IN_BASE) [0]), by decide⟩,
   ⟨wMer, (wD 1 7 16 [1]), by decide⟩,
   ⟨((wMer.putN Obj.DEVICE_STATE 0 0 stInit).putN Obj.ACCESS_LEVEL_CHAIN 0 0 1), 9, 1, (wD 0 2 8 [9, 1]), by decide⟩,
   ⟨((wMer.putN Obj.DEVICE_STATE 0 0 stInit).putN Obj.ACCESS_LEVEL_CHAIN 0 0 1), 9, 1, (wD 0 2 8 [9, 1]), by decide⟩,
   ⟨wMer, { wD 1 7 4 [0, 0] with more := true }, by decide⟩⟩

/-- Each clause of `Obligations.MeridianRequests` with hypotheses: a state and operands that meet them. -/
theorem witness_MeridianRequests :
    -- asked
    (∃ (s : State) (d : Datagram),
      s.merServes = true ∧
      s.merProcessed d.port = true ∧
      s.addressed d = true ∧
      d.scope.val < 2 ∧
      s.mer.request = none ∧
      16 ≤ d.data.length ∧
      d.fcsOk = true ∧
      s.mer.lastTag ≠ some (askRequest d.data).tag ∧
      s.mer.held = [] ∧
      d.more = false) ∧
    -- more to come
    (∃ (s : State) (d : Datagram),
      s.merServes = true ∧
      s.merProcessed d.port = true ∧
      s.addressed d = true ∧
      d.more = true) ∧
    -- bad FCS
    (∃ (s : State) (d : Datagram),
      s.merServes = true ∧
      s.merProcessed d.port = true ∧
      s.addressed d = true ∧
      d.more = false ∧
      d.fcsOk = false) ∧
    -- asked again
    (∃ (s : State) (d : Datagram),
      s.merServes = true ∧
      s.merProcessed d.port = true ∧
      s.addressed d = true ∧
      d.scope.val < 2 ∧
      s.mer.request = none ∧
      16 ≤ d.data.length ∧
      d.fcsOk = true ∧
      s.mer.lastTag = some (askRequest d.data).tag ∧
      s.mer.held = [] ∧
      d.more = false) ∧
    -- busy
    (∃ (s : State) (d : Datagram),
      s.merServes = true ∧
      s.merProcessed d.port = true ∧
      s.addressed d = true ∧
      d.scope.val < 2 ∧
      s.mer.request ≠ none ∧
      s.mer.held = []) ∧
    -- to all
    (∃ (s : State) (d : Datagram),
      s.merServes = true ∧
      s.merProcessed d.port = true ∧
      2 ≤ d.scope.val ∧
      s.mer.held = []) ∧
    -- too long
    (∃ (s : State) (r : MbRequest),
      s.mer.request = some r ∧
      r.op = 1 ∧
      r.object / 256 = Obj.DEVICE_STATE.key 0 0 ∧
      s.mode ≠ stSave ∧
      496 < r.length) ∧
    -- read
    (∃ (s : State) (r : MbRequest),
      s.mer.request = some r ∧
      r.op = 1 ∧
      r.object / 256 = Obj.DEVICE_STATE.key 0 0 ∧
      r.offset = 0 ∧
      r.length = 1 ∧
      0 ≤ s.rd Obj.DEVICE_STATE ∧
      s.mode ≠ stSave) ∧
    -- collected
    (∃ (s : State) (d : Datagram),
      s.merServes = true ∧
      s.merProcessed d.port = true ∧
      s.addressed d = true ∧
      d.scope.val < 2 ∧
      s.mer.ready = true ∧
      s.mer.response.length ≤ d.data.length ∧
      s.mer.held = []) :=
  ⟨⟨wMer, (wD 1 7 0 wAsk), by decide⟩,
   ⟨wMer, { wD 1 7 5 [1] with more := true }, by decide⟩,
   ⟨{ wMer with mer := { held := [(6, wD 1 7 0 [])] } }, { wD 1 7 5 [1] with fcsOk := false }, by decide⟩,
   ⟨{ wMer with mer := { lastTag := some 5, response := [1] } }, (wD 1 7 0 wAsk), by decide⟩,
   ⟨(wAsked 4), (wD 1 7 0 wAsk), by decide⟩,
   ⟨wMer, (wD 2 7 0 wAsk), by decide⟩,
   ⟨{ wMer with mer := { request := some wLongReq } }, wLongReq, by decide⟩,
   ⟨{ wMer with mer := { request := some wReadReq } }, wReadReq, by decide⟩,
   ⟨{ wMer with mer := { ready := true, response := [1] } }, (wD 1 7 0 wAsk), by decide⟩⟩

/-- Each clause of `Obligations.ChainTime` with hypotheses: a state and operands that meet them. -/
theorem witness_ChainTime :
    -- mark
    (∃ (s : State) (d : Datagram),
      s.merServes = true ∧
      d.port = 0 ∧
      d.scope = 2 ∧
      s.merLink 1 = true ∧
      s.mer.held = []) ∧
    -- mark returned
    (∃ (s : State) (d : Datagram) (entry : Nat) (offset : Nat),
      s.merServes = true ∧
      d.port = 1 ∧
      d.scope = 2 ∧
      s.merLink 0 = true ∧
      s.mer.markFwd ≤ entry + offset ∧
      entry + offset - s.mer.markFwd < 2 ^ 32) ∧
    -- mark turned
    (∃ (s : State) (d : Datagram),
      s.merServes = true ∧
      d.port = 0 ∧
      d.scope = 2 ∧
      s.merLink 1 = false ∧
      s.mer.held = []) ∧
    -- reference
    (∃ (s : State) (d : Datagram),
      s.merServes = true ∧
      s.merProcessed d.port = true ∧
      d.scope = 2 ∧
      d.data.length = 16 ∧
      s.timeReference = true ∧
      s.mer.held = []) ∧
    -- before the reference
    (∃ (s : State) (d : Datagram),
      s.merServes = true ∧
      s.merProcessed d.port = true ∧
      d.scope = 2 ∧
      d.data.length = 16 ∧
      s.timeReference = false ∧
      leAt d.data 8 8 = 0 ∧
      s.mer.held = []) ∧
    -- by rate
    (∃ (s : State) (t : Nat) (t0 : Nat) (d : Datagram) (entry : Nat) (e : Int),
      s.merServes = true ∧
      s.merProcessed d.port = true ∧
      d.scope = 2 ∧
      d.data.length = 16 ∧
      s.timeReference = false ∧
      leAt d.data 8 8 ≠ 0 ∧
      s.tim.armedSinceReset = true ∧
      s.mer.spread = some t0 ∧
      t0 < max s.now t ∧
      e = entry - (leAt d.data 8 8 + Int.tdiv ((leAt d.data 0 4 : Int) - s.mer.loop) 2) ∧
      s.mer.held = []) ∧
    -- by step
    (∃ (s : State) (d : Datagram) (entry : Nat) (e : Int),
      s.merServes = true ∧
      s.merProcessed d.port = true ∧
      d.scope = 2 ∧
      d.data.length = 16 ∧
      s.timeReference = false ∧
      leAt d.data 8 8 ≠ 0 ∧
      s.tim.armedSinceReset = false ∧
      e = entry - (leAt d.data 8 8 + Int.tdiv ((leAt d.data 0 4 : Int) - s.mer.loop) 2) ∧
      e < -1000 ∧
      s.mer.held = []) ∧
    -- no spread
    (∃ (s : State) (t : Nat),
      s.timeReference = false ∧
      s.mer.spread.getD 0 + s.rdN Obj.MER_TIME_TIMEOUT_MS * 1000000 ≤ max s.now t) ∧
    -- watchdog
    (∃ (s : State) (t : Nat),
      0 < s.rdN Obj.MER_WATCHDOG_US ∧
      s.mode = stRun ∧
      s.mer.cyclic + s.rdN Obj.MER_WATCHDOG_US * 1000 ≤ max s.now t) ∧
    -- watchdog off
    (∃ (s : State),
      s.rdN Obj.MER_WATCHDOG_US = 0) ∧
    -- lost
    (∃ (s : State) (port : Fin 2),
      s.merLink port = true ∧
      (s.rdN Obj.MER_PORT_EXPECTED).testBit port = true ∧
      stInit ≤ s.mode) ∧
    -- returned
    (∃ (s : State) (port : Fin 2),
      s.merLink port = false) :=
  ⟨⟨wLinked, (wD 2 0 0 []), by decide⟩,
   ⟨{ wLinked with mer := { markFwd := 50000 } }, { wD 2 0 0 [] with port := 1 }, 50880, 20, by decide⟩,
   ⟨wMer, (wD 2 0 0 []), by decide⟩,
   ⟨(wMer.putN Obj.MER_TIME_REFERENCE 0 0 1), (wD 2 0 0 (wSpreadData 0)), by decide⟩,
   ⟨wMer, (wD 2 0 0 (wSpreadData 0)), by decide⟩,
   ⟨(wSpread (some 40000) true), 60000, 40000, (wD 2 0 0 (wSpreadData 54890)), 55000, 10, by decide⟩,
   ⟨(wSpread none false), (wD 2 0 0 (wSpreadData 90000)), 55000, (-35100), by decide⟩,
   ⟨wMer, 6000000000000, by decide⟩,
   ⟨(wMer.putN Obj.MER_WATCHDOG_US 0 0 100), 60000000, by decide⟩,
   ⟨wMer, by decide⟩,
   ⟨(wLinked.putN Obj.MER_PORT_EXPECTED 0 0 3), 1, by decide⟩,
   ⟨wMer, 1, by decide⟩⟩

/-- Each clause of `Obligations.MonitorSamples` with hypotheses: a state and operands that meet them. -/
theorem witness_MonitorSamples :
    -- unsettled
    (∃ (s : State) (channel : Fin 16) (codes : List Nat),
      s.amBit channel amEnabled = true ∧
      s.amBit channel amSettled = false ∧
      codes.length = 2 ^ s.rdN Obj.AM_CIC_LOG2R 0 channel ∧
      s.mode ≠ stSave) ∧
    -- value
    (∃ (s : State) (channel : Fin 16) (codes : List Nat) (v : Int),
      s.amBit channel amEnabled = true ∧
      s.amBit channel amSettled = true ∧
      codes.length = 2 ^ s.rdN Obj.AM_CIC_LOG2R 0 channel ∧
      s.mode ≠ stSave ∧
      v = s.rd Obj.AM_OFFSET 0 channel + ((s.amFilter channel codes).2 * s.rd Obj.AM_SCALE 0 channel + 2 ^ 35) / 2 ^ 36 ∧
      -2147483648 ≤ v ∧
      v ≤ 2147483647) ∧
    -- peaks
    (∃ (s : State) (channel : Fin 8) (codes : List Nat) (v : Int),
      s.amBit channel amEnabled = true ∧
      s.amBit channel amSettled = true ∧
      codes.length = 2 ^ s.rdN Obj.AM_CIC_LOG2R 0 channel ∧
      s.mode ≠ stSave ∧
      v = s.rd Obj.AM_OFFSET 0 channel + ((s.amFilter channel codes).2 * s.rd Obj.AM_SCALE 0 channel + 2 ^ 35) / 2 ^ 36 ∧
      -2147483647 ≤ v ∧
      v ≤ 2147483647) ∧
    -- pressure low
    (∃ (s : State) (channel : Fin 8) (codes : List Nat) (v : Int),
      s.amBit channel amEnabled = true ∧
      s.amBit channel amSettled = true ∧
      codes.length = 2 ^ s.rdN Obj.AM_CIC_LOG2R 0 channel ∧
      s.mode ≠ stSave ∧
      v = s.rd Obj.AM_OFFSET 0 channel + ((s.amFilter channel codes).2 * s.rd Obj.AM_SCALE 0 channel + 2 ^ 35) / 2 ^ 36 ∧
      -2147483647 ≤ v ∧
      v ≤ 2147483647 ∧
      s.rdN Obj.EJ_ILK_PRESS_SOURCE = channel.val ∧
      (s.amCh channel).low = false ∧
      v < (s.amCh channel).press.low ∧
      (s.amCh channel).press.count ≤ (s.amCh channel).lowRun + 1) ∧
    -- pressure not yet low
    (∃ (s : State) (channel : Fin 8) (codes : List Nat) (v : Int),
      s.amBit channel amEnabled = true ∧
      s.amBit channel amSettled = true ∧
      codes.length = 2 ^ s.rdN Obj.AM_CIC_LOG2R 0 channel ∧
      s.mode ≠ stSave ∧
      v = s.rd Obj.AM_OFFSET 0 channel + ((s.amFilter channel codes).2 * s.rd Obj.AM_SCALE 0 channel + 2 ^ 35) / 2 ^ 36 ∧
      -2147483647 ≤ v ∧
      v ≤ 2147483647 ∧
      s.rdN Obj.EJ_ILK_PRESS_SOURCE = channel.val ∧
      (s.amCh channel).low = false ∧
      v < (s.amCh channel).press.low ∧
      (s.amCh channel).lowRun + 1 < (s.amCh channel).press.count ∧
      s.amBit channel amOverLow = false ∧
      s.amBit channel amOverHigh = false) ∧
    -- block
    (∃ (s : State) (channel : Fin 8) (codes : List Nat) (v : Int),
      s.amBit channel amEnabled = true ∧
      s.amBit channel amSettled = true ∧
      codes.length = 2 ^ s.rdN Obj.AM_CIC_LOG2R 0 channel ∧
      s.mode ≠ stSave ∧
      v = s.rd Obj.AM_OFFSET 0 channel + ((s.amFilter channel codes).2 * s.rd Obj.AM_SCALE 0 channel + 2 ^ 35) / 2 ^ 36 ∧
      -2147483647 ≤ v ∧
      v ≤ 2147483647 ∧
      (s.amCh channel).count ≠ 0 ∧
      (s.amCh channel).count + 1 = (s.amCh channel).block ∧
      (s.amCh channel).squares + v.natAbs * v.natAbs < 2 ^ 64 ∧
      -2147483648 ≤ (s.amCh channel).lo ∧
      (s.amCh channel).lo ≤ 2147483647 ∧
      -2147483648 ≤ (s.amCh channel).hi ∧
      (s.amCh channel).hi ≤ 2147483647) ∧
    -- stopped
    (∃ (s : State) (channel : Fin 16),
      s.amBit channel amEnabled = false) ∧
    -- settles
    (∃ (s : State) (channel : Fin 16),
      s.amBit channel amEnabled = true ∧
      s.rdN Obj.AM_CIC_ORDER 0 channel + 63 ≤ (s.amCh channel).dropped) ∧
    -- not settled
    (∃ (s : State) (channel : Fin 16),
      (s.amCh channel).dropped < s.rdN Obj.AM_CIC_ORDER 0 channel + 63) ∧
    -- overload
    (∃ (s : State) (channel : Fin 16) (high : Bool),
      s.amBit channel amEnabled = true ∧
      s.amBit channel (if high then amOverHigh else amOverLow) = false) ∧
    -- goes on
    (∃ (s : State) (channel : Fin 16) (high : Bool),
      s.amBit channel amEnabled = true ∧
      s.amBit channel (if high then amOverHigh else amOverLow) = true) ∧
    -- clears
    (∃ (s : State) (t : Nat) (channel : Fin 16),
      (s.amCh channel).overAt + 1000000 ≤ max s.now t) ∧
    -- lasts
    (∃ (s : State) (t : Nat) (channel : Fin 16),
      max s.now t < (s.amCh channel).overAt + 1000000) ∧
    -- forced
    (∃ (s : State) (t : Nat) (f : Nat) (channel : Fin 16),
      (s.amCh channel).frozen = some f ∧
      8 ≤ channel.val ∧
      s.amBit channel amForced = false ∧
      f + s.rdN Obj.AM_FREEZE_MAX_MS * 1000000 ≤ max s.now t) ∧
    -- peak clear
    (∃ (s : State) (path : Path) (value : List Byte) (n : Fin 8),
      s.checkWrite path Obj.AM_PEAK_CLEAR 0 0 value = 0 ∧
      (leNat value).testBit n = true) :=
  ⟨⟨(wAm 1 3), 3, [7], by decide⟩,
   ⟨wAmVal, 9, [7], 12, by decide⟩,
   ⟨(wAmIn 3), 3, [7], 112, by decide⟩,
   ⟨(wAmPress 2), 3, [7], 112, by decide⟩,
   ⟨(wAmPress 3), 3, [7], 112, by decide⟩,
   ⟨wAmBlock, 3, [7], 112, by decide⟩,
   ⟨(wAm 0 3), 3, by decide⟩,
   ⟨(wDropped 66), 3, by decide⟩,
   ⟨(wDropped 65), 3, by decide⟩,
   ⟨(wAm 3 3), 3, true, by decide⟩,
   ⟨(wAm 7 3), 3, false, by decide⟩,
   ⟨wOver, 6000000, 3, by decide⟩,
   ⟨wOver, 60000, 3, by decide⟩,
   ⟨wFreeze, 600000000000, 9, 9, by decide⟩,
   ⟨(wAm 3 3), .chain, [8], 3, by decide⟩⟩

/-- Each clause of `Obligations.ChordPackets` with hypotheses: a state and operands that meet them. -/
theorem witness_ChordPackets :
    -- taken
    (∃ (s : State) (link : Fin 2) (cls : Nat) (typ : Nat) (seq : Nat) (payload : List Byte) (crc : Nat),
      s.chWidth link ≠ 0 ∧
      chordCrcOk (chordBytes cls typ seq payload crc) = true ∧
      1 ≤ cls ∧
      cls ≤ 4 ∧
      seq = (s.chp link).expect) ∧
    -- bad CRC
    (∃ (s : State) (link : Fin 2) (cls : Nat) (typ : Nat) (seq : Nat) (payload : List Byte) (crc : Nat),
      s.chWidth link ≠ 0 ∧
      chordCrcOk (chordBytes cls typ seq payload crc) = false) ∧
    -- out of turn
    (∃ (s : State) (link : Fin 2) (cls : Nat) (typ : Nat) (seq : Nat) (payload : List Byte) (crc : Nat),
      s.chWidth link ≠ 0 ∧
      chordCrcOk (chordBytes cls typ seq payload crc) = true ∧
      cls ≠ 0 ∧
      (seq ≠ (s.chp link).expect ∨ 5 ≤ cls)) ∧
    -- ACK packet
    (∃ (s : State) (link : Fin 2) (cls : Nat) (typ : Nat) (seq : Nat) (payload : List Byte) (crc : Nat),
      s.chWidth link ≠ 0 ∧
      (s.chp link).stalled = [] ∧
      chordCrcOk (chordBytes cls typ seq payload crc) = true ∧
      cls = 0 ∧
      typ = 1) ∧
    -- a packet reads back
    (∃ (cls : Nat) (typ : Nat) (seq : Nat) (payload : List Byte),
      cls < 16 ∧
      typ < 256 ∧
      seq < 16777216 ∧
      payload.length ≤ 2048) ∧
    -- acknowledged
    (∃ (s : State) (link : Fin 2),
      (s.chp link).stalled = []) ∧
    -- resent
    (∃ (s : State) (link : Fin 2) (seq : Nat) (l : List ChPacket),
      (s.chp link).stalled = [] ∧
      l = (s.chp link).replay.filter (fun x => seqUpTo (seq % 16777216) x.seq) ∧
      (∀ x ∈ l, x.tries + 1 ≤ s.rdN Obj.CH_RETRY_LIMIT)) ∧
    -- too often
    (∃ (s : State) (link : Fin 2) (seq : Nat) (x : ChPacket),
      x ∈ (s.chp link).replay ∧
      seqUpTo (seq % 16777216) x.seq = true ∧
      s.rdN Obj.CH_RETRY_LIMIT ≤ x.tries ∧
      s.chWidth link ≠ 0 ∧
      s.st.lent = [] ∧
      s.st.served = []) ∧
    -- ACK goes out
    (∃ (s : State) (link : Fin 2),
      s.chWidth link ≠ 0 ∧
      s.chPower link ≠ 2 ∧
      (s.chp link).ackDue = true) ∧
    -- L1 asked for
    (∃ (s : State) (t : Nat) (link : Fin 2),
      (s.at t).l1Allowed link = true ∧
      s.chPower link ≠ 2 ∧
      s.rdN Obj.CH_INJECT 0 link = 0) ∧
    -- L1 agreed to
    (∃ (s : State) (t : Nat) (link : Fin 2),
      (s.at t).l1Allowed link = true ∧
      s.rdN Obj.CH_INJECT 0 link = 0) ∧
    -- L1 entered
    (∃ (s : State) (link : Fin 2),
      (s.chp link).l1Asked = true ∧
      (s.chp link).stalled = [] ∧
      (∀ x ∈ (s.chp link).replay, x.cls = 0)) ∧
    -- L0s
    (∃ (s : State) (t : Nat) (link : Fin 2),
      s.chUp link = true ∧
      s.chPower link = 0 ∧
      (s.chp link).stalled = [] ∧
      (s.chp link).ackDue = false ∧
      (s.chp link).lastSend + s.rdN Obj.CH_L0S_NS ≤ max s.now t) ∧
    -- probe
    (∃ (s : State) (t : Nat) (link : Fin 2),
      s.chPower link = 2 ∧
      (s.chp link).lastSend + 1000000 ≤ max s.now t) ∧
    -- no answer
    (∃ (s : State) (t : Nat) (link : Fin 2),
      s.chPower link = 2 ∧
      (s.chp link).lastSend + 1000000 ≤ max s.now t ∧
      s.chWidth link ≠ 0 ∧
      s.st.lent = [] ∧
      s.st.served = []) :=
  ⟨⟨(wCh 3 0 { expect := 7 }), 1, 1, 1, 7, [8], (wCrc 1 1 7 [8]), by decide⟩,
   ⟨(wCh 3 0 { expect := 7 }), 1, 1, 1, 7, [8], 5, by decide⟩,
   ⟨(wCh 3 0 { expect := 7 }), 1, 1, 1, 8, [8], (wCrc 1 1 8 [8]), by decide⟩,
   ⟨(wReplayCh 0), 1, 0, 1, 0, (toLe 4 4), (wCrc 0 1 0 (toLe 4 4)), by decide⟩,
   ⟨1, 3, 7, [8, 9], by decide⟩,
   ⟨(wReplayCh 0), 1, by decide⟩,
   ⟨(wReplayCh 0), 1, 5, [wPk 5 0], by decide⟩,
   ⟨(wReplayCh 3), 1, 4, (wPk 4 3), by decide⟩,
   ⟨(wCh 3 0 { expect := 7, ackDue := true }), 1, by decide⟩,
   ⟨wIdle, 60000000, 1, by decide⟩,
   ⟨wIdle, 60000000, 1, by decide⟩,
   ⟨(wCh 3 0 { l1Asked := true }), 1, by decide⟩,
   ⟨(wCh 3 0 {}), 600000000, 1, by decide⟩,
   ⟨(wCh 3 2 {}), 6000000, 1, by decide⟩,
   ⟨(wCh 3 2 {}), 6000000, 1, by decide⟩⟩

/-- Each clause of `Obligations.ChordLinks` with hypotheses: a state and operands that meet them. -/
theorem witness_ChordLinks :
    -- trained
    (∃ (s : State) (link : Fin 2) (full : List LaneTraining) (half : List LaneTraining) (far : List (Fin 8 × Bool)) (width : Nat) (rate16 : Bool) (l : List Nat),
      s.chTrains link = true ∧
      s.trainResult link full half far = some (width, rate16, l)) ∧
    -- full width and rate first
    (∃ (s : State) (link : Fin 2) (full : List LaneTraining) (far : List (Fin 8 × Bool)),
      s.chTrains link = true ∧
      s.rdN Obj.CH_RATE_MAX 0 link ≠ 16 ∧
      ((∀ n, n < 8 → s.lanePasses full (farLanes far false) n = true))) ∧
    -- none passed
    (∃ (s : State) (link : Fin 2) (full : List LaneTraining) (half : List LaneTraining) (far : List (Fin 8 × Bool)),
      s.chTrains link = true ∧
      s.trainResult link full half far = none) ∧
    -- not in training
    (∃ (s : State) (link : Fin 2),
      s.chTrains link = false) ∧
    -- taps
    (∃ (s : State) (link : Fin 2),
      s.chTrains link = true) ∧
    -- paired
    (∃ (s : State) (link : Fin 2) (hello : Hello),
      s.chWidth link ≠ 0 ∧
      s.chBit link csTest = false ∧
      hello.east ≠ (link.val == 1) ∧
      hello.station ≠ s.rdN Obj.MER_STATION) ∧
    -- not paired
    (∃ (s : State) (link : Fin 2) (hello : Hello),
      s.chWidth link ≠ 0 ∧
      s.chBit link csTest = false ∧
      hello.east = (link.val == 1)) ∧
    -- lost
    (∃ (s : State) (t : LinkSilence) (link : Fin 2),
      s.chWidth link ≠ 0 ∧
      s.chPower link ≠ 2 ∧
      (t.unlocked = true ∨ (s.chp link).lastHeard + 10000 ≤ max s.now t.time) ∧
      s.st.lent = [] ∧
      s.st.served = []) ∧
    -- in touch
    (∃ (s : State) (t : Nat) (link : Fin 2),
      max s.now t < (s.chp link).lastHeard + 10000) ∧
    -- lent
    (∃ (s : State) (link : Fin 2) (p : Fin 12),
      s.rdN Obj.RV_PORT_PIPELINE 0 p = 255 ∧
      s.lining = true ∧
      s.flag Obj.CAM_ENABLE p = true ∧
      s.flag Obj.ST_LOAN_ENABLE = true ∧
      s.chUp link = true ∧
      s.seamTraffic link = true ∧
      look s.st.lent none link.val = none ∧
      s.loanFits link p = true) ∧
    -- loan refused
    (∃ (s : State) (link : Fin 2) (p : Fin 12),
      s.rdN Obj.RV_PORT_PIPELINE 0 p = 255 ∧
      s.lining = true ∧
      s.flag Obj.CAM_ENABLE p = true ∧
      s.flag Obj.ST_LOAN_ENABLE = true ∧
      s.chUp link = true ∧
      s.seamTraffic link = true ∧
      look s.st.lent none link.val = none ∧
      s.loanFits link p = false) ∧
    -- served
    (∃ (s : State) (link : Fin 2),
      s.flag Obj.ST_LOAN_ENABLE = true ∧
      s.chUp link = true ∧
      s.seamTraffic link = true ∧
      s.rdN Obj.RV_SPARE < 13 ∧
      s.lining = true ∧
      look s.st.served none link.val = none) ∧
    -- line
    (∃ (s : State) (home : Nat) (link : Fin 2),
      look s.st.served none link.val = some home) ∧
    -- pattern
    (∃ (s : State) (path : Path) (lane : Fin 80) (value : List Byte),
      s.checkAccess path Obj.LN_PATTERN 0 lane value.length = 0 ∧
      leNat value ≤ 6 ∧
      (leNat value = 0 ∨ s.laneTestAllowed lane = true)) ∧
    -- pattern refused
    (∃ (s : State) (path : Path) (lane : Fin 80) (value : List Byte),
      s.checkAccess path Obj.LN_PATTERN 0 lane value.length = 0 ∧
      leNat value ≠ 0 ∧
      s.laneTestAllowed lane = false) ∧
    -- injected
    (∃ (s : State) (lane : Fin 80),
      s.rdN Obj.LN_PATTERN 0 lane ≠ 0 ∧
      s.rdN Obj.LN_INJECT 0 lane ≠ 0) ∧
    -- eye in loopback
    (∃ (s : State) (lane : Fin 80),
      s.flag Obj.LN_LOCKED 0 lane = true ∧
      s.flag Obj.LN_LOOPBACK 0 lane = true ∧
      (lane.val < 16 ∨ 64 ≤ lane.val)) ∧
    -- lock
    (∃ (s : State) (lane : Fin 80),
      s.rdN Obj.LN_PATTERN 0 lane ≠ 0) ∧
    -- lock lost
    (∃ (s : State) (lane : Fin 80),
      s.flag Obj.LN_LOCKED 0 lane = true) :=
  ⟨⟨(wChd 32), 1, wLanes, [], wFar, 3, false, (List.range 8), by decide⟩,
   ⟨(wChd 32), 1, wLanes, wFar, by decide⟩,
   ⟨(wChd 32), 1, [⟨2,[],0⟩], [], [], by decide⟩,
   ⟨(wCh 3 0 {}), 1, by decide⟩,
   ⟨(wChd 32), 1, by decide⟩,
   ⟨(wCh 3 0 {}), 1, (wHello false), by decide⟩,
   ⟨(wCh 3 0 {}), 1, (wHello true), by decide⟩,
   ⟨(wCh 3 0 {}), (LinkSilence.mk 60000 true), 1, by decide⟩,
   ⟨(wCh 3 0 { lastHeard := 59000 }), 60000, 1, by decide⟩,
   ⟨(wLoanFits 8000), 1, 2, by decide⟩,
   ⟨(wLoanFits 1), 1, 2, by decide⟩,
   ⟨wServes, 1, by decide⟩,
   ⟨wServed, 3, 1, by decide⟩,
   ⟨wPreop, .chain, 3, [2], by decide⟩,
   ⟨wLine, .chain, 3, [2], by decide⟩,
   ⟨((wLine.putN Obj.LN_PATTERN 0 3 1).putN Obj.LN_INJECT 0 3 2), 3, by decide⟩,
   ⟨((wLine.putN Obj.LN_LOCKED 0 3 1).putN Obj.LN_LOOPBACK 0 3 1), 3, by decide⟩,
   ⟨(wLine.putN Obj.LN_PATTERN 0 3 1), 3, by decide⟩,
   ⟨(wLine.putN Obj.LN_LOCKED 0 3 1), 3, by decide⟩⟩

/-- Each clause of `Obligations.CalibrationRequests` with hypotheses: a state and operands that meet them. -/
theorem witness_CalibrationRequests :
    -- plateRef
    (∃ (s : State) (path : Path) (target : Nat),
      s.checkAccess path Obj.CAL_REQUEST 0 0 4 = 0 ∧
      calTargetExists 1 target = true ∧
      isGroup 1 target = false ∧
      s.calRequest 1 target = none ∧
      s.cal.queue.length < 16) ∧
    -- defectMerge
    (∃ (s : State) (path : Path) (target : Nat),
      s.checkAccess path Obj.CAL_REQUEST 0 0 4 = 0 ∧
      calTargetExists 2 target = true ∧
      isGroup 2 target = false ∧
      s.calRequest 2 target = none ∧
      s.cal.queue.length < 16) ∧
    -- stitch
    (∃ (s : State) (path : Path) (target : Nat),
      s.checkAccess path Obj.CAL_REQUEST 0 0 4 = 0 ∧
      calTargetExists 3 target = true ∧
      isGroup 3 target = false ∧
      s.calRequest 3 target = none ∧
      s.cal.queue.length < 16) ∧
    -- valveLatency
    (∃ (s : State) (path : Path) (target : Nat),
      s.checkAccess path Obj.CAL_REQUEST 0 0 4 = 0 ∧
      calTargetExists 4 target = true ∧
      isGroup 4 target = false ∧
      s.calRequest 4 target = none ∧
      s.cal.queue.length < 16) ∧
    -- valveThreshold
    (∃ (s : State) (path : Path) (target : Nat),
      s.checkAccess path Obj.CAL_REQUEST 0 0 4 = 0 ∧
      calTargetExists 5 target = true ∧
      isGroup 5 target = false ∧
      s.calRequest 5 target = none ∧
      s.cal.queue.length < 16) ∧
    -- pipeBist
    (∃ (s : State) (path : Path) (target : Nat),
      s.checkAccess path Obj.CAL_REQUEST 0 0 4 = 0 ∧
      calTargetExists 6 target = true ∧
      isGroup 6 target = false ∧
      s.calRequest 6 target = none ∧
      s.cal.queue.length < 16) ∧
    -- vernier
    (∃ (s : State) (path : Path) (target : Nat),
      s.checkAccess path Obj.CAL_REQUEST 0 0 4 = 0 ∧
      calTargetExists 7 target = true ∧
      isGroup 7 target = false ∧
      s.calRequest 7 target = none ∧
      s.cal.queue.length < 16) ∧
    -- no target
    (∃ (s : State) (path : Path) (target : Nat),
      s.checkAccess path Obj.CAL_REQUEST 0 0 4 = 0 ∧
      calTargetExists 1 target = false) ∧
    -- not forcible
    (∃ (s : State) (path : Path),
      s.checkAccess path Obj.CAL_REQUEST 0 0 4 = 0) ∧
    -- full
    (∃ (s : State) (path : Path) (target : Nat),
      s.checkAccess path Obj.CAL_REQUEST 0 0 4 = 0 ∧
      calTargetExists 1 target = true ∧
      s.calRequest 1 target = none ∧
      16 ≤ s.cal.queue.length) :=
  ⟨⟨wCal, .chain, 2, by decide⟩,
   ⟨wCal, .chain, 2, by decide⟩,
   ⟨wCal, .chain, 0, by decide⟩,
   ⟨wCal, .chain, 69, by decide⟩,
   ⟨wCal, .chain, 69, by decide⟩,
   ⟨wCal, .chain, 2, by decide⟩,
   ⟨wCal, .chain, 1, by decide⟩,
   ⟨wCal, .chain, 12, by decide⟩,
   ⟨wCal, .chain, by decide⟩,
   ⟨wCalFull, .chain, 2, by decide⟩⟩

/-- Each clause of `Obligations.CalibrationResults` with hypotheses: a state and operands that meet them. -/
theorem witness_CalibrationResults :
    -- starves
    (∃ (s : State) (t : Nat) (r : CalRequest),
      s.cal.queue.filter (fun x => decide (x.due ≤ max s.now t)) = [r] ∧
      r.forced = false ∧
      r.task < 7 ∧
      r.task ≠ 2) ∧
    -- vernier starves
    (∃ (s : State) (t : Nat) (r : CalRequest),
      s.cal.queue.filter (fun x => decide (x.due ≤ max s.now t)) = [r] ∧
      r.task = 7 ∧
      r.forced = false ∧
      s.linkUp r.target = false) ∧
    -- forced
    (∃ (s : State) (t : Nat) (r : CalRequest),
      r ∈ s.cal.queue ∧
      r.due ≤ max s.now t ∧
      (r.task = 1 ∨ r.task = 5) ∧
      r.forced = true ∧
      ((∀ x ∈ s.cal.queue, x.task = r.task → x.target = r.target → x = r))) ∧
    -- in time
    (∃ (s : State) (t : Nat),
      (∀ r ∈ s.cal.queue, max s.now t < r.due)) ∧
    -- plate reference
    (∃ (s : State) (p : Fin 12) (r : CalRequest),
      s.calRunning 1 p = some r ∧
      s.flag Obj.CAM_ENABLE p = true ∧
      s.calBeaten (Obj.RC_FF_PLATE_REF.key p 0) = false ∧
      s.rdBlob Obj.RC_FF_PLATE_REF p = [] ∧
      ((∀ y, y < layoutRows (s.rdN Obj.CAM_LAYOUT p) → ∀ x, x < s.camC p → s.siteValid p y x = true → s.rdN
        Obj.CAL_PLATE_LINES ≤ ((look s.cal.plate [] p.val).getD (y * s.camC p + x) (0, 0)).1 ∧ (siteAt (s.rcp p).sites
        (s.camC p) y x).stale = false))) ∧
    -- port disabled
    (∃ (s : State) (p : Fin 12) (r : CalRequest),
      s.calRunning 2 p = some r ∧
      s.flag Obj.CAM_ENABLE p = false) ∧
    -- defect merge
    (∃ (s : State) (p : Fin 12) (r : CalRequest),
      s.calRunning 2 p = some r ∧
      s.flag Obj.CAM_ENABLE p = true ∧
      s.calBeaten (Obj.RC_DEFECT_MAP.key p 0) = false ∧
      (s.mergedMap p).length ≤ 1024 ∧
      mapFits (mapBlob (s.camC p) (s.mergedMap p)) (s.rdN Obj.CAM_LAYOUT p) (s.rdN Obj.CAM_WIDTH p) = true) ∧
    -- stitched
    (∃ (s : State),
      s.rdN Obj.ST_CAL_STATE = 1 ∧
      ((∀ k, k < 12 → s.flag Obj.CAM_ENABLE k = true → s.st.calDone.contains k = true)) ∧
      ((∀ r ∈ s.cal.queue, r.task = 3 → r.started = true))) ∧
    -- latency
    (∃ (s : State) (v : Fin 2048) (l : Int),
      s.valveGone v = false ∧
      s.rdN Obj.CAL_LAT_SAMPLES ≤ (look s.cal.latency (0, 0) v.val).1 ∧
      s.calBeaten (Obj.EJ_VALVE_OPEN_LAT_NS.key 0 v) = false ∧
      l = rnd (100 * ((look s.cal.latency (0, 0) v.val).2 : Int)) (s.rdN Obj.CAL_LAT_SAMPLES) ∧
      absNat (l - s.rd Obj.EJ_VALVE_OPEN_LAT_NS 0 v) ≤ s.rdN Obj.CAL_LAT_STEP_MAX ∧
      100000 ≤ l ∧
      l ≤ 6553500) ∧
    -- latency too far
    (∃ (s : State) (v : Fin 2048) (l : Int),
      s.valveGone v = false ∧
      s.rdN Obj.CAL_LAT_SAMPLES ≤ (look s.cal.latency (0, 0) v.val).1 ∧
      l = rnd (100 * ((look s.cal.latency (0, 0) v.val).2 : Int)) (s.rdN Obj.CAL_LAT_SAMPLES) ∧
      ((s.rdN Obj.CAL_LAT_STEP_MAX < absNat (l - s.rd Obj.EJ_VALVE_OPEN_LAT_NS 0 v) ∨ l < 100000 ∨ 6553500 < l))) ∧
    -- threshold
    (∃ (s : State) (v : Fin 2048) (r : CalRequest) (w : Nat),
      s.calRunning 5 v = some r ∧
      s.valveGone v = false ∧
      s.calBeaten (Obj.EJ_VALVE_OPEN_THRESH_NS.key 0 v) = false ∧
      (look s.cal.sweeps {} v.val).still = false ∧
      3 ≤ (look s.cal.sweeps {} v.val).found.length ∧
      w ∈ (look s.cal.sweeps {} v.val).found ∧
      (∀ y ∈ (look s.cal.sweeps {} v.val).found, w ≤ y) ∧
      10000 ≤ w ∧
      w ≤ 1000000) ∧
    -- self-test
    (∃ (s : State) (q : Fin 13) (r : CalRequest),
      s.calRunning 6 q = some r ∧
      look s.cal.bist 0 q.val ≠ 0) ∧
    -- vernier
    (∃ (s : State) (link : Fin 32) (delays : List Nat) (cells : Nat) (r : CalRequest),
      s.calRunning 7 link = some r ∧
      s.linkUp link = true ∧
      vernierOk delays cells = true) ∧
    -- vernier link down
    (∃ (s : State) (link : Fin 32) (r : CalRequest),
      s.calRunning 7 link = some r ∧
      s.linkUp link = false) ∧
    -- periodic
    (∃ (s : State) (t : Nat) (link : Fin 32) (delays : List Nat) (cells : Nat),
      s.linkUp link = true ∧
      ((∀ x, find? s.cal.vernierAt link.val = some x → x + 10000000000 ≤ max s.now t)) ∧
      s.calRunning 7 link = none ∧
      vernierOk delays cells = true) ∧
    -- periodic refused
    (∃ (s : State) (t : Nat) (link : Fin 32) (delays : List Nat) (cells : Nat),
      s.linkUp link = true ∧
      ((∀ x, find? s.cal.vernierAt link.val = some x → x + 10000000000 ≤ max s.now t)) ∧
      s.calRunning 7 link = none ∧
      vernierOk delays cells = false) ∧
    -- modulator
    (∃ (s : State) (t : Nat) (channel : Fin 16) (elements : List Nat) (l : List Nat),
      s.amBit channel amEnabled = true ∧
      ((∀ x, find? s.cal.rotatedAt channel.val = some x → x + s.rdN Obj.CAL_AM_ROTATE_MS * 1000000 ≤ max s.now t)) ∧
      rotateSet elements (look s.cal.dac [0, 1, 2, 3, 4, 5, 6] channel) = some l) ∧
    -- modulator refused
    (∃ (s : State) (t : Nat) (channel : Fin 16) (elements : List Nat),
      s.amBit channel amEnabled = true ∧
      ((∀ x, find? s.cal.rotatedAt channel.val = some x → x + s.rdN Obj.CAL_AM_ROTATE_MS * 1000000 ≤ max s.now t)) ∧
      rotateSet elements (look s.cal.dac [0, 1, 2, 3, 4, 5, 6] channel) = none) ∧
    -- stored
    (∃ (s : State) (path : Path),
      s.checkAccess path Obj.CAL_STORE_CMD 0 0 1 = 0 ∧
      s.mode = stPreop) ∧
    -- store cleared
    (∃ (s : State) (path : Path),
      s.checkAccess path Obj.CAL_STORE_CMD 0 0 1 = 0 ∧
      s.mode = stPreop) ∧
    -- not in PREOP
    (∃ (s : State) (path : Path),
      Obj.CAL_STORE_CMD.level ≤ s.pathLevel path ∧
      s.pathOwns path (s.ownerOf Obj.CAL_STORE_CMD 0 0) = true ∧
      s.mode ≠ stPreop) ∧
    -- Almanac written
    (∃ (s : State) (t : Nat),
      s.mode ≠ stBoot ∧
      s.rdN Obj.ALM_GENERATION + 1 < 2 ^ 64 ∧
      s.cal.written + 60000000000 ≤ max s.now t) ∧
    -- not due
    (∃ (s : State) (t : Nat),
      max s.now t < s.cal.written + 60000000000) ∧
    -- sampled
    (∃ (s : State) (t : Nat),
      s.mode ≠ stBoot ∧
      s.mode ≠ stSave ∧
      s.cal.sampled + 1000000000 ≤ max s.now t) :=
  ⟨⟨(wCalTwo (wReq 1 2)), 60000, (wReq 1 2), by decide⟩,
   ⟨(wCalTwo (wReq 7 2)), 60000, (wReq 7 2), by decide⟩,
   ⟨(wCalTwo { wReq 1 2 with forced := true }), 60000, { wReq 1 2 with forced := true }, by decide⟩,
   ⟨(wCalQ { wReq 1 2 with due := 99999 }), 60000, by decide⟩,
   ⟨((wCalOf 1 2).putN Obj.CAM_WIDTH 2 0 0), 2, (wReq 1 2), by decide⟩,
   ⟨((wCalOf 2 2).putN Obj.CAM_ENABLE 2 0 0), 2, (wReq 2 2), by decide⟩,
   ⟨(wCalOf 2 2), 2, (wReq 2 2), by decide⟩,
   ⟨wStitchEnd, by decide⟩,
   ⟨wLat, 69, 200200, by decide⟩,
   ⟨(wLat.put Obj.EJ_VALVE_OPEN_LAT_NS 0 69 900000), 69, 200200, by decide⟩,
   ⟨wThresh, 69, (wReq 5 69), 200000, by decide⟩,
   ⟨{ wCalOf 6 2 with cal := { queue := [wReq 6 2], bist := [(2, 1)] } }, 2, (wReq 6 2), by decide⟩,
   ⟨(wCalQ (wReq 7 1)), 1, wCells, 1048575, (wReq 7 1), by decide⟩,
   ⟨{ wLine with cal := { queue := [wReq 7 1] } }, 1, (wReq 7 1), by decide⟩,
   ⟨(wVernAt 50000), 10000050000, 1, wCells, 1048575, by decide⟩,
   ⟨wLinkUp, 60000, 1, wCells, 3, by decide⟩,
   ⟨(wRotAt 50000), 60000000000, 3, (List.replicate 9 100), [7, 1, 2, 3, 4, 5, 6], by decide⟩,
   ⟨wAmOn, 60000, 3, [100, 1, 100], by decide⟩,
   ⟨wCal, .chain, by decide⟩,
   ⟨wCal, .chain, by decide⟩,
   ⟨wLine, .chain, by decide⟩,
   ⟨wLine, 60000000000, by decide⟩,
   ⟨wLine, 60000, by decide⟩,
   ⟨wLine, 60000000000, by decide⟩⟩

/-- Each clause of `Obligations.DeviceResets` with hypotheses: a state and operands that meet them. -/
theorem witness_DeviceResets :
    -- reset of any unit
    (∃ (s : State) (path : Path) (value : List Byte),
      s.checkWrite path Obj.DEVICE_RESET 0 0 value = 0 ∧
      s.mode ≠ stSave ∧
      2 ≤ s.power.step) ∧
    -- pin of any unit
    (∃ (s : State),
      s.power.nreset = false ∧
      s.mode ≠ stSave ∧
      2 ≤ s.power.step) ∧
    -- reset
    (∃ (s : State) (path : Path) (value : List Byte),
      s.checkWrite path Obj.DEVICE_RESET 0 0 value = 0 ∧
      s.mode ≠ stSave ∧
      2 ≤ s.power.step ∧
      s.fw.trial = none ∧
      s.fw.abandoned = false ∧
      s.bank.pulses = [] ∧
      s.bank.flights = [] ∧
      s.st.lent = [] ∧
      s.st.served = [] ∧
      s.cal.queue = []) ∧
    -- pin
    (∃ (s : State),
      s.power.nreset = false ∧
      s.mode ≠ stSave ∧
      2 ≤ s.power.step ∧
      s.fw.trial ≠ none ∧
      s.bank.pulses = [] ∧
      s.bank.flights = [] ∧
      s.st.lent = [] ∧
      s.st.served = [] ∧
      s.cal.queue = []) ∧
    -- held already
    (∃ (s : State),
      s.power.nreset = true) :=
  ⟨⟨wQuiet, .chain, [1], by decide⟩,
   ⟨wQuiet, by decide⟩,
   ⟨wQuiet, .chain, [1], by decide⟩,
   ⟨{ wQuiet with fw := { trial := some true } }, by decide⟩,
   ⟨(wPow { step := 9, nreset := true }), by decide⟩⟩

/-- Each clause of `Obligations.StartUp` with hypotheses: a state and operands that meet them. -/
theorem witness_StartUp :
    -- power
    (∃ (s : State),
      s.power.step = 0 ∧
      s.power.asleep = false ∧
      s.power.tripped = none ∧
      s.power.tries < 3) ∧
    -- next rails
    (∃ (s : State) (t : Nat),
      s.power.step = 1 ∧
      s.power.failed = none ∧
      s.power.rail < 5 ∧
      s.power.railAt + 500000 ≤ max s.now t) ∧
    -- rails settle
    (∃ (s : State) (t : Nat),
      max s.now t < s.power.railAt + 500000) ∧
    -- rails up
    (∃ (s : State) (t : Nat),
      s.power.step = 1 ∧
      s.power.failed = none ∧
      5 ≤ s.power.rail ∧
      s.power.railAt + 500000 ≤ max s.now t) ∧
    -- late
    (∃ (s : State) (t : Nat) (r : Fin 10),
      s.power.step = 1 ∧
      s.power.failed = none ∧
      railStep r = s.power.rail ∧
      s.power.railAt + s.rdN Obj.PW_PG_TIMEOUT_MS * 1000000 ≤ max s.now t) ∧
    -- again
    (∃ (s : State) (t : Nat) (f : Nat),
      s.power.failed = some f ∧
      f + 1000000000 ≤ max s.now t ∧
      s.power.tries < 3) ∧
    -- given up
    (∃ (s : State),
      3 ≤ s.power.tries) ∧
    -- control
    (∃ (s : State),
      s.power.nreset = false ∧
      s.mode ≠ stSave ∧
      s.mode ≠ stFault ∧
      s.power.step = 2) ∧
    -- INIT
    (∃ (s : State),
      s.power.nreset = false ∧
      s.mode ≠ stSave ∧
      s.mode ≠ stFault ∧
      s.power.step = 7) ∧
    -- PREOP
    (∃ (s : State),
      s.power.nreset = false ∧
      s.power.step = 8 ∧
      s.mode = stInit ∧
      s.bit Obj.LG_STATUS 0 0 lgValid = true ∧
      s.cold = false ∧
      s.flag Obj.CAL_STORE_AUTO = false) ∧
    -- cold
    (∃ (s : State),
      s.power.nreset = false ∧
      s.power.step = 8 ∧
      s.mode = stInit ∧
      s.bit Obj.LG_STATUS 0 0 lgValid = true ∧
      s.cold = true) ∧
    -- warm-up given up
    (∃ (s : State) (t : Nat) (c : Nat),
      s.power.coldAt = some c ∧
      s.mode = stInit ∧
      s.cold = true ∧
      c + s.rdN Obj.PW_WARMUP_MAX_S * 1000000000 ≤ max s.now t) ∧
    -- after a trip
    (∃ (s : State) (t : Nat) (x : Nat),
      s.power.tripped = some x ∧
      s.power.step = 0 ∧
      x + 60000000000 ≤ max s.now t) ∧
    -- from the mirror
    (∃ (x : LedgerCopy),
      ledgerCopyOk x = true) :=
  ⟨⟨wOff, by decide⟩,
   ⟨(wRail 2), 600000, by decide⟩,
   ⟨(wRail 2), 400000, by decide⟩,
   ⟨(wRail 5), 600000, by decide⟩,
   ⟨(wRail 2), 60000000000, 3, by decide⟩,
   ⟨wFailed, 6000000000, 9, by decide⟩,
   ⟨wGaveUp, by decide⟩,
   ⟨(wStep 2), by decide⟩,
   ⟨(wStep 7), by decide⟩,
   ⟨wLastManual, by decide⟩,
   ⟨wLastCold, by decide⟩,
   ⟨wCold, 6000000000000, 9, by decide⟩,
   ⟨wTripped, 600000000000, 9, by decide⟩,
   ⟨wCopy, by decide⟩⟩

/-- Each clause of `Obligations.PowerSupervision` with hypotheses: a state and operands that meet them. -/
theorem witness_PowerSupervision :
    -- rail fault in operation
    (∃ (s : State) (r : Fin 10),
      2 ≤ s.power.step ∧
      s.canSave = true ∧
      s.mode ≠ stBoot ∧
      [1, 4, 6].contains r.val = true) ∧
    -- rail fault
    (∃ (s : State) (r : Fin 10),
      2 ≤ s.power.step ∧
      s.canSave = true ∧
      s.mode ≠ stBoot ∧
      [1, 4, 6].contains r.val = true ∧
      s.bank.pulses = [] ∧
      s.bank.flights = [] ∧
      s.cal.queue = []) ∧
    -- rail lost
    (∃ (s : State) (r : Fin 10),
      2 ≤ s.power.step ∧
      s.mode ≠ stSave ∧
      [0, 2, 3, 5, 7, 8, 9].contains r.val = true) ∧
    -- polled
    (∃ (s : State) (t : Nat) (millivolts : List Nat) (milliamps : List Nat),
      s.power.step ≠ 0 ∧
      (s.twPort 1).waits = false ∧
      (s.twPort 1).stuck = false ∧
      (s.twPort 1).clearUntil ≤ max s.now t ∧
      millivolts.length = 10 ∧
      milliamps.length = 10) ∧
    -- bus stuck
    (∃ (s : State) (t : Nat),
      s.power.step ≠ 0 ∧
      (s.twPort 1).waits = false ∧
      (s.twPort 1).stuck = true ∧
      (s.twPort 1).clearUntil ≤ max s.now t) ∧
    -- temperatures
    (∃ (s : State) (temps : List Int),
      2 ≤ s.power.step ∧
      temps.length = 4 ∧
      hotGroups temps (s.rd Obj.PW_TEMP_WARN_C) = [] ∧
      hotGroups temps 103 = []) ∧
    -- trip
    (∃ (s : State) (temps : List Int) (g : Fin 4),
      2 ≤ s.power.step ∧
      temps.length = 4 ∧
      hotGroups temps 103 = [g.val] ∧
      s.power.trip = [] ∧
      s.canSave = true ∧
      s.mode ≠ stBoot ∧
      s.bank.pulses = [] ∧
      s.bank.flights = [] ∧
      s.cal.queue = []) ∧
    -- VIN falls
    (∃ (s : State),
      s.power.asleep = false ∧
      s.power.below = none) ∧
    -- short
    (∃ (s : State) (t : Nat) (b : Nat),
      s.power.below = some b ∧
      s.power.sagged = false ∧
      max s.now t < b + 20000) ∧
    -- sag in operation
    (∃ (s : State) (t : Nat) (b : Nat),
      s.power.below = some b ∧
      s.power.sagged = false ∧
      s.power.asleep = false ∧
      s.power.save = none ∧
      b + 20000 ≤ max s.now t ∧
      s.canSave = true ∧
      s.mode ≠ stBoot) ∧
    -- sag
    (∃ (s : State) (t : Nat) (b : Nat),
      s.power.below = some b ∧
      s.power.sagged = false ∧
      s.power.asleep = false ∧
      s.power.save = none ∧
      b + 20000 ≤ max s.now t ∧
      s.canSave = true ∧
      s.mode ≠ stBoot ∧
      s.bank.pulses = [] ∧
      s.bank.flights = [] ∧
      s.cal.queue = []) ∧
    -- written
    (∃ (s : State) (x : SaveRun) (a : SaveArea),
      s.power.save = some x ∧
      s.vault.save x.area = some a ∧
      x.done = none ∧
      x.cause = 0) ∧
    -- a save is complete
    (∃ (s : State),
      s.ledgerPart.length + 4096 < 2 ^ 32) ∧
    -- resumed
    (∃ (s : State) (t : Nat) (d : Nat) (x : SaveRun),
      s.power.save = some x ∧
      x.done = some d ∧
      s.power.below = none ∧
      s.rdN Obj.PW_RESUME_MV < s.rdN Obj.PW_VIN_MV ∧
      max s.power.risen d + 100000000 ≤ max s.now t) ∧
    -- collapse
    (∃ (s : State),
      s.power.below ≠ none ∧
      s.power.step ≠ 0) ∧
    -- sleep of any unit
    (∃ (s : State) (path : Path) (value : List Byte),
      s.checkWrite path Obj.PW_SLEEP_CMD 0 0 value = 0 ∧
      s.mode = stPreop) ∧
    -- sleep
    (∃ (s : State) (path : Path) (value : List Byte),
      s.checkWrite path Obj.PW_SLEEP_CMD 0 0 value = 0 ∧
      s.mode = stPreop ∧
      s.bank.pulses = [] ∧
      s.bank.flights = [] ∧
      s.cal.queue = []) ∧
    -- sleep refused
    (∃ (s : State) (path : Path) (value : List Byte) (r : Nat),
      s.checkWrite path Obj.PW_SLEEP_CMD 0 0 value = r ∧
      r ≠ 0) ∧
    -- sleep outside PREOP
    (∃ (s : State) (path : Path),
      Obj.PW_SLEEP_CMD.level ≤ s.pathLevel path ∧
      s.pathOwns path (s.ownerOf Obj.PW_SLEEP_CMD 0 0) = true ∧
      s.mode ≠ stPreop) :=
  ⟨⟨wQuiet, 4, by decide⟩,
   ⟨wQuiet, 4, by decide⟩,
   ⟨wQuiet, 3, by decide⟩,
   ⟨wQuiet, 60000, (List.replicate 10 900), (List.replicate 10 50), by decide⟩,
   ⟨wStuck, 60000, by decide⟩,
   ⟨wQuiet, [40, 41, 42, 43], by decide⟩,
   ⟨wQuiet, [40, 41, 104, 43], 2, by decide⟩,
   ⟨wQuiet, by decide⟩,
   ⟨(wBelow 50000), 60000, 50000, by decide⟩,
   ⟨(wBelow 40000), 60000, 40000, by decide⟩,
   ⟨(wBelow 40000), 60000, 40000, by decide⟩,
   ⟨(wSave none), wSaveRun, wArea, ⟨by decide, rfl, by decide, by decide⟩⟩,
   ⟨wQuiet, by decide⟩,
   ⟨wResume, 600000000, 9, wSaveDone, by decide⟩,
   ⟨(wBelow 40000), by decide⟩,
   ⟨wQuiet, .chain, [1], by decide⟩,
   ⟨wQuiet, .chain, [1], by decide⟩,
   ⟨wLine, .chain, [1], 4, by decide⟩,
   ⟨wLine, .chain, by decide⟩⟩

/-- Each clause of `Obligations.StateRequests` with hypotheses: a state and operands that meet them. -/
theorem witness_StateRequests :
    -- INIT
    (∃ (s : State) (path : Path),
      s.checkWrite path Obj.STATE_REQUEST 0 0 [stInit] = 0 ∧
      s.trans = none ∧
      s.mode = stPreop) ∧
    -- running
    (∃ (s : State) (path : Path),
      Obj.STATE_REQUEST.level ≤ s.pathLevel path ∧
      s.pathOwns path (s.ownerOf Obj.STATE_REQUEST 0 0) = true ∧
      s.trans ≠ none) ∧
    -- present
    (∃ (s : State) (path : Path),
      s.checkWrite path Obj.STATE_REQUEST 0 0 [stPreop] = 0 ∧
      s.trans = none ∧
      s.mode = stPreop) ∧
    -- PREOP
    (∃ (s : State) (path : Path),
      s.checkWrite path Obj.STATE_REQUEST 0 0 [stPreop] = 0 ∧
      s.trans = none ∧
      s.mode = stInit ∧
      s.bit Obj.LG_STATUS 0 0 lgValid = true ∧
      s.cold = false) ∧
    -- ledger not valid
    (∃ (s : State) (path : Path),
      s.checkWrite path Obj.STATE_REQUEST 0 0 [stPreop] = 0 ∧
      s.trans = none ∧
      s.mode = stInit ∧
      s.bit Obj.LG_STATUS 0 0 lgValid = false) ∧
    -- ARMED
    (∃ (s : State) (v : State) (t : Nat) (path : Path),
      s.checkWrite path Obj.STATE_REQUEST 0 0 [stArmed] = 0 ∧
      s.trans = none ∧
      s.mode = stPreop ∧
      v = ((((s.at t).touch path).putN Obj.STATE_REQUEST 0 0 stArmed).answer path (Obj.STATE_REQUEST.key 0 0) 0).leavePreop ∧
      v.leaveRefusals = []) ∧
    -- not ARMED
    (∃ (s : State) (v : State) (t : Nat) (path : Path),
      s.checkWrite path Obj.STATE_REQUEST 0 0 [stArmed] = 0 ∧
      s.trans = none ∧
      s.mode = stPreop ∧
      v = ((((s.at t).touch path).putN Obj.STATE_REQUEST 0 0 stArmed).answer path (Obj.STATE_REQUEST.key 0 0) 0).leavePreop ∧
      v.leaveRefusals ≠ []) ∧
    -- RUN from HOLD
    (∃ (s : State) (path : Path),
      s.checkWrite path Obj.STATE_REQUEST 0 0 [stRun] = 0 ∧
      s.trans = none ∧
      s.mode = stHold ∧
      s.holdCause = false) ∧
    -- cause remains
    (∃ (s : State) (path : Path),
      s.checkWrite path Obj.STATE_REQUEST 0 0 [stRun] = 0 ∧
      s.trans = none ∧
      s.mode = stHold ∧
      s.rdN Obj.EJ_ILK_STATE ≠ 0) ∧
    -- HOLD
    (∃ (s : State) (path : Path),
      s.checkWrite path Obj.STATE_REQUEST 0 0 [stHold] = 0 ∧
      s.trans = none ∧
      s.mode = stRun) ∧
    -- not listed
    (∃ (s : State) (path : Path),
      s.checkWrite path Obj.STATE_REQUEST 0 0 [stHold] = 0 ∧
      s.trans = none ∧
      s.mode = stPreop) :=
  ⟨⟨wPreop, .chain, by decide⟩,
   ⟨(wTrans 3), .chain, by decide⟩,
   ⟨wPreop, .chain, by decide⟩,
   ⟨wValid, .chain, by decide⟩,
   ⟨wInvalid, .chain, by decide⟩,
   ⟨wPreop, (wAsked2 wPreop 60000 .chain stArmed).leavePreop, 60000, .chain, by decide, by decide, by decide, rfl,
     ready_leaves⟩,
   ⟨wNoCap, (wAsked2 wNoCap 60000 .chain stArmed).leavePreop, 60000, .chain, by decide, by decide, by decide, rfl,
     unready_refused⟩,
   ⟨wFreeHold, .chain, by decide⟩,
   ⟨(wHold.putN Obj.EJ_ILK_STATE 0 0 2), .chain, by decide⟩,
   ⟨wLine, .chain, by decide⟩,
   ⟨wPreop, .chain, by decide⟩⟩

/-- Each clause of `Obligations.StateChanges` with hypotheses: a state and operands that meet them. -/
theorem witness_StateChanges :
    -- INIT
    (∃ (s : State) (n : Nat),
      s.trans = some { target := stInit, since := n } ∧
      s.mode = stPreop) ∧
    -- HOLD
    (∃ (s : State) (n : Nat),
      s.trans = some { target := stHold, since := n } ∧
      s.mode = stRun) ∧
    -- RUN
    (∃ (s : State) (n : Nat),
      s.trans = some { target := stRun, since := n } ∧
      s.mode = stArmed) ∧
    -- ARMED
    (∃ (s : State) (v : State) (t : Nat) (n : Nat),
      s.trans = some { target := stArmed, since := n } ∧
      s.mode = stPreop ∧
      ((∀ p, p < 12 → (s.cam p).writes.all (fun w => !w.arming || w.readback) = true)) ∧
      v = (s.at t).leavePreop ∧
      v.leaveRefusals = [] ∧
      (v.leaveBits []).armWriteAll.transWaits stArmed = false) ∧
    -- ARMED refused
    (∃ (s : State) (v : State) (t : Nat) (n : Nat),
      s.trans = some { target := stArmed, since := n } ∧
      s.mode = stPreop ∧
      ((∀ p, p < 12 → (s.cam p).writes.all (fun w => !w.arming || w.readback) = true)) ∧
      v = (s.at t).leavePreop ∧
      v.leaveRefusals ≠ []) ∧
    -- ARMED waits
    (∃ (s : State) (n : Nat) (p : Nat),
      s.trans = some { target := stArmed, since := n } ∧
      p < 12 ∧
      (s.cam p).writes.any (fun w => w.arming && !w.readback) = true) ∧
    -- draining
    (∃ (s : State) (n : Nat),
      s.trans = some { target := stPreop, since := n } ∧
      s.mode = stRun ∧
      s.judged ≠ []) ∧
    -- none runs
    (∃ (s : State),
      s.trans = none) ∧
    -- any fault
    (∃ (s : State),
      s.mode ≠ stSave ∧
      s.mode ≠ stFault ∧
      3 ≤ s.power.step) ∧
    -- fault
    (∃ (s : State),
      s.mode ≠ stSave ∧
      s.mode ≠ stFault ∧
      3 ≤ s.power.step ∧
      s.bank.pulses = [] ∧
      s.bank.flights = [] ∧
      s.cal.queue = []) ∧
    -- lock lost
    (∃ (s : State),
      s.tim.oscillator = false ∧
      s.mode = stRun) ∧
    -- lock returns
    (∃ (s : State),
      s.tim.oscillator = true ∧
      s.timeReference = false) :=
  ⟨⟨(wTrans stInit), 9, by decide⟩,
   ⟨(wGone stRun stHold), 9, by decide⟩,
   ⟨(wGone stArmed stRun), 9, by decide⟩,
   ⟨(wTrans stArmed), wGoing, 60000, 9, rfl, by decide, by decide, rfl, going_leaves, by decide⟩,
   ⟨wStuckArm, wBack, 60000, 9, rfl, by decide, by decide, rfl, back_refused⟩,
   ⟨((wTrans stArmed).setCam 2 { writes := [wArmWrite] }), 9, 2, by decide⟩,
   ⟨{ wAcc with trans := some { target := stPreop, since := 9 } }, 9, by decide⟩,
   ⟨wLine, by decide⟩,
   ⟨wBooted, by decide⟩,
   ⟨wBooted, by decide⟩,
   ⟨wLine, by decide⟩,
   ⟨wUnlocked, by decide⟩⟩

/-- Each clause of `Obligations.AccessLevels` with hypotheses: a state and operands that meet them. -/
theorem witness_AccessLevels :
    -- code
    (∃ (s : State) (t : Nat) (value : List Byte),
      s.checkWrite .chain Obj.ACCESS_CODE_CHAIN 0 0 value = 0 ∧
      value.headD 0 = 1 ∧
      s.pathLevel .chain = 0 ∧
      s.access.lockChain ≤ max s.now t ∧
      s.rdBlob Obj.SEC_ACCESS_HASH 0 0 = []) ∧
    -- code with a hash
    (∃ (s : State) (t : Nat) (value : List Byte),
      s.checkWrite .chain Obj.ACCESS_CODE_CHAIN 0 0 value = 0 ∧
      value.headD 0 = 1 ∧
      s.pathLevel .chain = 0 ∧
      s.access.lockChain ≤ max s.now t ∧
      s.rdBlob Obj.SEC_ACCESS_HASH 0 0 ≠ []) ∧
    -- not above
    (∃ (s : State) (value : List Byte),
      s.checkWrite .chain Obj.ACCESS_CODE_CHAIN 0 0 value = 0 ∧
      value.headD 0 = 1 ∧
      1 ≤ s.pathLevel .chain) ∧
    -- no key
    (∃ (s : State) (t : Nat) (value : List Byte),
      s.checkWrite .chain Obj.ACCESS_UNLOCK_CHAIN 0 0 value = 0 ∧
      s.pathLevel .chain < 3 ∧
      s.access.lockChain ≤ max s.now t ∧
      s.keys = [] ∧
      s.access.failsChain < 2) ∧
    -- third failure
    (∃ (s : State) (t : Nat) (value : List Byte),
      s.checkWrite .chain Obj.ACCESS_UNLOCK_CHAIN 0 0 value = 0 ∧
      s.pathLevel .chain < 3 ∧
      s.access.lockChain ≤ max s.now t ∧
      s.keys = [] ∧
      s.access.failsChain = 2) ∧
    -- signature
    (∃ (s : State) (t : Nat) (value : List Byte),
      s.checkWrite .chain Obj.ACCESS_UNLOCK_CHAIN 0 0 value = 0 ∧
      s.pathLevel .chain < 3 ∧
      s.access.lockChain ≤ max s.now t) ∧
    -- locked
    (∃ (s : State) (t : Nat) (value : List Byte),
      s.checkWrite .chain Obj.ACCESS_UNLOCK_CHAIN 0 0 value = 0 ∧
      s.pathLevel .chain < 3 ∧
      max s.now t < s.access.lockChain) ∧
    -- lowered
    (∃ (s : State) (value : List Byte),
      s.checkWrite .chain Obj.ACCESS_LEVEL_CHAIN 0 0 value = 0 ∧
      leNat value ≤ s.pathLevel .chain) ∧
    -- not raised
    (∃ (s : State) (value : List Byte),
      s.checkWrite .chain Obj.ACCESS_LEVEL_CHAIN 0 0 value = 0 ∧
      s.pathLevel .chain < leNat value) ∧
    -- timeout
    (∃ (s : State) (t : Nat),
      s.access.lastChain + 600000000000 ≤ max s.now t) ∧
    -- nonce
    (∃ (s : State) (t : Nat),
      s.access.nonceTime + 60000000000 ≤ max s.now t) ∧
    -- lockout ends
    (∃ (s : State) (t : Nat),
      s.access.lockChain ≤ max s.now t) :=
  ⟨⟨(wLevel 0), 60000, (wCode 1), by decide⟩,
   ⟨wHashed, 60000, (wCode 1), by decide⟩,
   ⟨wPreop, (wCode 1), by decide⟩,
   ⟨(wFails 1), 60000, (List.replicate 98 5), by decide⟩,
   ⟨(wFails 2), 60000, (List.replicate 98 5), by decide⟩,
   ⟨((wLevel 0).putBlob Obj.SEC_KEY 2 0 wKey), 60000, (List.replicate 98 5), by decide⟩,
   ⟨wLocked, 60000, (List.replicate 98 5), by decide⟩,
   ⟨wPreop, [1], by decide⟩,
   ⟨(wLevel 1), [2], by decide⟩,
   ⟨wPreop, 600000000000, by decide⟩,
   ⟨wPreop, 600000000000, by decide⟩,
   ⟨wLocked, 600000, by decide⟩⟩

/-- Each clause of `Obligations.KeysAndFirmware` with hypotheses: a state and operands that meet them. -/
theorem witness_KeysAndFirmware :
    -- key
    (∃ (s : State) (path : Path) (slot : Fin 8) (value : List Byte),
      s.pathLevel path = 3 ∧
      s.checkAccess path Obj.SEC_KEY slot 0 value.length = 0 ∧
      s.keyValueOk slot value = true) ∧
    -- first key
    (∃ (s : State) (path : Path) (slot : Fin 8) (value : List Byte),
      s.pathLevel path ≠ 3 ∧
      s.pathLevel path ≠ 0 ∧
      s.mode = stPreop ∧
      s.keys = [] ∧
      value.length = 100 ∧
      (leAt value 2 1).testBit 2 = true ∧
      s.keyValueOk slot value = true) ∧
    -- bad image
    (∃ (s : State) (path : Path) (image : List Byte) (b : Bool),
      s.checkAccess path Obj.FW_IMAGE 0 0 image.length = 0 ∧
      s.fw.running = some b ∧
      s.fw.writing = none ∧
      openTransfer s.cxl.mb.partials Obj.FW_IMAGE_HOST = false ∧
      image.length < 64) ∧
    -- checked image
    (∃ (s : State) (path : Path) (image : List Byte) (b : Bool),
      s.checkAccess path Obj.FW_IMAGE 0 0 image.length = 0 ∧
      s.fw.running = some b ∧
      s.fw.writing = none ∧
      openTransfer s.cxl.mb.partials Obj.FW_IMAGE_HOST = false) ∧
    -- busy
    (∃ (s : State) (image : List Byte) (b : Bool),
      s.checkAccess .host Obj.FW_IMAGE_HOST 0 0 image.length = 0 ∧
      s.fw.running = some b ∧
      s.fw.writing ≠ none) ∧
    -- host image
    (∃ (s : State) (image : List Byte) (b : Bool),
      s.checkAccess .host Obj.FW_IMAGE_HOST 0 0 image.length = 0 ∧
      s.fw.running = some b ∧
      s.fw.writing = none ∧
      openTransfer s.mer.partials Obj.FW_IMAGE = false) ∧
    -- written
    (∃ (s : State) (img : FwImage) (b : Bool),
      s.fw.writing = some img ∧
      s.fw.running = some b) ∧
    -- not read back
    (∃ (s : State) (img : FwImage) (b : Bool),
      s.fw.writing = some img ∧
      s.fw.running = some b) ∧
    -- activated in any unit
    (∃ (s : State) (path : Path) (value : List Byte) (b : Bool),
      s.checkWrite path Obj.FW_ACTIVATE 0 0 value = 0 ∧
      s.fw.running = some b ∧
      s.mode = stPreop ∧
      s.fw.verified (!b) = true ∧
      2 ≤ s.power.step) ∧
    -- activated
    (∃ (s : State) (path : Path) (value : List Byte) (b : Bool),
      s.checkWrite path Obj.FW_ACTIVATE 0 0 value = 0 ∧
      s.fw.running = some b ∧
      s.mode = stPreop ∧
      s.fw.verified (!b) = true ∧
      2 ≤ s.power.step ∧
      s.bank.pulses = [] ∧
      s.bank.flights = [] ∧
      s.st.lent = [] ∧
      s.st.served = [] ∧
      s.cal.queue = []) ∧
    -- empty slot
    (∃ (s : State) (path : Path) (value : List Byte) (b : Bool),
      s.checkWrite path Obj.FW_ACTIVATE 0 0 value = 0 ∧
      s.fw.running = some b ∧
      s.fw.verified (!b) = false) ∧
    -- confirmed
    (∃ (s : State) (path : Path) (value : List Byte) (b : Bool) (img : FwImage),
      s.checkWrite path Obj.FW_CONFIRM 0 0 value = 0 ∧
      s.fw.running = some b ∧
      s.mode = stPreop ∧
      s.fw.trial = some b ∧
      s.fw.slot b = some img) ∧
    -- abandoned
    (∃ (s : State) (t : Nat) (b : Bool),
      s.fw.running = some b ∧
      s.fw.trial = some b ∧
      s.power.step ≠ 9 ∧
      s.fw.trialFrom + 60000000000 ≤ max s.now t) :=
  ⟨⟨(wLevel 3), .chain, 2, wKey, by decide⟩,
   ⟨(wLevel 1), .chain, 2, wKey, by decide⟩,
   ⟨(wSlots wFw2), .chain, [1, 2], false, by decide⟩,
   ⟨(wSlots wFw2), .chain, [1, 2], false, by decide⟩,
   ⟨((wSlots wFwWriting).putN Obj.ACCESS_LEVEL_HOST 0 0 2), [1, 2], false, by decide⟩,
   ⟨((wSlots wFw2).putN Obj.ACCESS_LEVEL_HOST 0 0 2), [1, 2], false, by decide⟩,
   ⟨(wSlots wFwWriting), { version := 9, rollback := 9 }, false, by decide⟩,
   ⟨(wSlots wFwWriting), { version := 9, rollback := 9 }, false, by decide⟩,
   ⟨(wSlots wFw2), .chain, [1], false, by decide⟩,
   ⟨(wSlots wFw2), .chain, [1], false, by decide⟩,
   ⟨(wSlots wFw), .chain, [1], false, by decide⟩,
   ⟨(wSlots wTrial), .chain, [1], true, { version := 4, rollback := 2 }, by decide⟩,
   ⟨{ wSlots wTrial with power := { step := 8 } }, 600000000000, true, by decide⟩⟩

/-- Each clause of `Obligations.Channels` with hypotheses: a state and operands that meet them. -/
theorem witness_Channels :
    -- other source
    (∃ (s : State) (src : Nat) (n : Nat),
      (s.channelWord n / 2 ^ 49) % 128 ≠ src) ∧
    -- disabled
    (∃ (s : State) (n : Nat),
      (s.channelWord n).testBit 63 = false) ∧
    -- loop
    (∃ (s : State) (src : Nat) (tags : List Nat) (n : Fin 56),
      (s.channelWord n).testBit 63 = true ∧
      (s.channelWord n).testBit 62 = false ∧
      (s.channelWord n / 2 ^ 49) % 128 = src ∧
      s.islandRuns (sourceIsland src false) = true ∧
      tags.contains n.val = true) ∧
    -- loop stopped
    (∃ (s : State) (src : Nat) (tags : List Nat) (n : Fin 56),
      (s.channelWord n).testBit 63 = true ∧
      (s.channelWord n).testBit 62 = true ∧
      (s.channelWord n / 2 ^ 49) % 128 = src ∧
      s.islandRuns (sourceIsland src false) = true ∧
      tags.contains n.val = true) ∧
    -- gated
    (∃ (s : State) (src : Nat) (tags : List Nat) (n : Fin 56),
      (s.channelWord n).testBit 63 = true ∧
      (s.channelWord n / 2 ^ 49) % 128 = src ∧
      s.islandRuns (sourceIsland src false) = true ∧
      tags.contains n.val = false ∧
      (s.channelWord n).testBit 61 = true ∧
      s.gateLevel ((s.channelWord n / 2 ^ 42) % 128) = (s.channelWord n).testBit 60) ∧
    -- limited
    (∃ (s : State) (src : Nat) (tags : List Nat) (n : Fin 56),
      (s.channelWord n).testBit 63 = true ∧
      (s.channelWord n / 2 ^ 49) % 128 = src ∧
      s.islandRuns (sourceIsland src false) = true ∧
      tags.contains n.val = false ∧
      (s.channelWord n).testBit 61 = false ∧
      look s.lattice.lastFwd 0 n.val ≠ 0 ∧
      s.now + 1 < look s.lattice.lastFwd 0 n.val + channelInterval n (s.channelWord n)) ∧
    -- fired
    (∃ (s : State) (src : Nat) (tags : List Nat) (n : Fin 56),
      (s.channelWord n).testBit 63 = true ∧
      (s.channelWord n / 2 ^ 49) % 128 = src ∧
      s.islandRuns (sourceIsland src false) = true ∧
      tags.contains n.val = false ∧
      (s.channelWord n).testBit 61 = false ∧
      look s.lattice.lastFwd 0 n.val = 0) :=
  ⟨⟨wLine, 3, 5, by decide⟩,
   ⟨wLine, 5, by decide⟩,
   ⟨(wCfg 8 3 0 72 0), 3, [5], 5, by decide⟩,
   ⟨(wCfg 12 3 0 72 0), 3, [5], 5, by decide⟩,
   ⟨(wCfg 10 3 56 72 0), 3, [], 5, by decide⟩,
   ⟨wLimited, 3, [], 5, by decide⟩,
   ⟨(wCfg 8 3 0 72 0), 3, [], 5, by decide⟩⟩

/-- Each clause of `Obligations.LatticeTasks` with hypotheses: a state and operands that meet them. -/
theorem witness_LatticeTasks :
    -- DMA
    (∃ (s : State) (n : Fin 32) (a : Activation),
      s.lattice.activations.find? (fun x => x.task == n.val) = some a ∧
      s.islandRuns (taskIsland (n.val) false) = true ∧
      (s.dma n).state ≠ dsIdle) ∧
    -- host
    (∃ (s : State) (n : Fin 16) (a : Activation),
      s.lattice.activations.find? (fun x => x.task == 32 + n.val) = some a ∧
      s.islandRuns (taskIsland (32 + n.val) false) = true ∧
      s.cxl.linkUp = true ∧
      s.cxl.unmasked.contains (48 + n.val) = true) ∧
    -- host masked
    (∃ (s : State) (n : Fin 16) (a : Activation),
      s.lattice.activations.find? (fun x => x.task == 32 + n.val) = some a ∧
      s.islandRuns (taskIsland (32 + n.val) false) = true ∧
      s.cxl.linkUp = false ∧
      s.cxl.pendingVec.contains (48 + n.val) = false) ∧
    -- epoch
    (∃ (s : State) (g : Fin 12) (a : Activation),
      s.lattice.activations.find? (fun x => x.task == 56 + g.val) = some a ∧
      s.islandRuns (taskIsland (56 + g.val) false) = true ∧
      s.lining = true ∧
      s.groupPorts g ≠ [] ∧
      s.rdN Obj.EPOCH_PENDING 0 g = 0) ∧
    -- HOLD
    (∃ (s : State) (a : Activation),
      s.lattice.activations.find? (fun x => x.task == 70) = some a ∧
      s.islandRuns (taskIsland (70) false) = true ∧
      s.mode = stRun ∧
      s.trans = none) ∧
    -- CXL island in reset
    (∃ (s : State),
      s.islandRuns islandCxl = false ∧
      (∀ x ∈ s.lattice.activations, x.tags.headD 0 < 56)) ∧
    -- no activation
    (∃ (s : State),
      s.lattice.activations = []) ∧
    -- RUN
    (∃ (s : State) (a : Activation),
      s.lattice.activations.find? (fun x => x.task == 71) = some a ∧
      s.islandRuns (taskIsland (71) false) = true ∧
      s.mode = stHold ∧
      s.trans = none ∧
      s.holdCause = false) ∧
    -- RUN refused
    (∃ (s : State) (a : Activation),
      s.lattice.activations.find? (fun x => x.task == 71) = some a ∧
      s.holdCause = true) ∧
    -- captured
    (∃ (s : State) (n : Fin 8) (a : Activation),
      s.lattice.activations.find? (fun x => x.task == 72 + n.val) = some a ∧
      s.islandRuns (taskIsland (72 + n.val) false) = true) ∧
    -- wakes
    (∃ (s : State) (a : Activation),
      s.lattice.activations.find? (fun x => x.task == 80) = some a ∧
      s.islandRuns (taskIsland (80) false) = true ∧
      s.power.asleep = true ∧
      s.power.step = 0) ∧
    -- pulse
    (∃ (s : State) (n : Fin 8) (a : Activation),
      s.lattice.activations.find? (fun x => x.task == 48 + n.val) = some a ∧
      s.islandRuns (taskIsland (48 + n.val) false) = true ∧
      (∀ x ∈ s.lattice.activations, x.async = false) ∧
      s.pinMode n = 1) ∧
    -- toggle
    (∃ (s : State) (n : Fin 8) (a : Activation),
      s.lattice.activations.find? (fun x => x.task == 48 + n.val) = some a ∧
      s.islandRuns (taskIsland (48 + n.val) false) = true ∧
      (∀ x ∈ s.lattice.activations, x.async = false) ∧
      s.pinMode n = 2) ∧
    -- pulse ends
    (∃ (s : State) (t : Nat) (n : Fin 8),
      s.pinMode n = 1 ∧
      (s.evtPin n).drive = true ∧
      (s.evtPin n).until_ ≤ max s.now t) ∧
    -- input
    (∃ (s : State) (stable : Nat) (n : Fin 8),
      s.pinMode n = 0 ∧
      s.rdN Obj.EV_PIN_FILTER_NS 0 n ≤ stable ∧
      s.bit Obj.EV_PIN_WAKE 0 0 n = false) ∧
    -- not stable
    (∃ (s : State) (stable : Nat) (n : Fin 8),
      stable < s.rdN Obj.EV_PIN_FILTER_NS 0 n) ∧
    -- fires
    (∃ (s : State) (t : Nat) (n : Fin 8),
      (s.timer n).1 ≠ 0 ∧
      max s.now t % (s.timer n).1 = (s.timer n).2 % (s.timer n).1) ∧
    -- between
    (∃ (s : State) (t : Nat) (n : Fin 8),
      (s.timer n).1 ≠ 0 ∧
      max s.now t % (s.timer n).1 ≠ (s.timer n).2 % (s.timer n).1) ∧
    -- taken
    (∃ (s : State) (t : Nat),
      max s.now t % 1000000 = 0) ∧
    -- channel word
    (∃ (s : State) (path : Path) (channel : Fin 64) (value : List Byte),
      s.checkWrite path Obj.EV_CH_CONFIG channel 0 value = 0 ∧
      channelWordOk channel (s.rdN Obj.EV_CH_OWNER 0 channel) (leNat value) = true) ∧
    -- word refused
    (∃ (s : State) (path : Path) (channel : Fin 64) (value : List Byte),
      s.checkWrite path Obj.EV_CH_CONFIG channel 0 value = 0 ∧
      channelWordOk channel (s.rdN Obj.EV_CH_OWNER 0 channel) (leNat value) = false) :=
  ⟨⟨wBusyDma, 3, (wActOf 3 1), by decide⟩,
   ⟨{ wAct 35 1 with cxl := { linkUp := true, unmasked := [51] } }, 3, (wActOf 35 1), by decide⟩,
   ⟨(wAct 35 1), 3, (wActOf 35 1), by decide⟩,
   ⟨wEpochAct, 1, (wActOf 57 1), by decide⟩,
   ⟨(wAct 70 1), (wActOf 70 1), by decide⟩,
   ⟨((wAct 35 1).putN Obj.ISLAND_STATE 0 35 2), by decide⟩,
   ⟨wLine, by decide⟩,
   ⟨wHoldFree, (wActOf 71 1), by decide⟩,
   ⟨(wHoldAct.putN Obj.EJ_ILK_STATE 0 0 2), (wActOf 71 1), by decide⟩,
   ⟨(wAct 75 1), 3, (wActOf 75 1), by decide⟩,
   ⟨(wSleep 80), (wActOf 80 60), by decide⟩,
   ⟨(wPin 1 {}), 3, (wActOf 51 1), by decide⟩,
   ⟨(wPin 2 {}), 3, (wActOf 51 1), by decide⟩,
   ⟨(wPin 1 { drive := true, until_ := 9 }), 60000, 3, by decide⟩,
   ⟨wLine, 900000000, 3, by decide⟩,
   ⟨(wLine.putN Obj.EV_PIN_FILTER_NS 0 3 100), 9, 3, by decide⟩,
   ⟨(wTimer (1000, 0)), 60000, 2, by decide⟩,
   ⟨(wTimer (1000, 3)), 60000, 2, by decide⟩,
   ⟨wLine, 60000000, by decide⟩,
   ⟨wPreop, .chain, 5, (toLe 8 (wWord 8 3 0 72 0)), by decide⟩,
   ⟨wPreop, .chain, 5, (toLe 8 (wWord 8 3 0 69 0)), by decide⟩⟩

/-- Each clause of `Obligations.TwoWirePorts` with hypotheses: a state and operands that meet them. -/
theorem witness_TwoWirePorts :
    -- by task
    (∃ (s : State) (t : Nat) (a : Activation),
      s.lattice.activations.find? (fun x => x.task == 68) = some a ∧
      s.islandRuns (taskIsland 68 false) = true ∧
      s.lattice.tw.xfer = none ∧
      s.lattice.tw.running = 0 ∧
      s.lattice.tw.polls = [] ∧
      (s.twPort 0).stuck = false ∧
      (s.twPort 0).clearUntil ≤ max s.now t) ∧
    -- by command
    (∃ (s : State) (t : Nat) (path : Path) (value : List Byte),
      s.checkWrite path Obj.TW0_XFER_CMD 0 0 value = 0 ∧
      s.lattice.tw.xfer = none ∧
      s.lattice.tw.running = 0 ∧
      s.lattice.tw.polls = [] ∧
      (s.twPort 0).stuck = false ∧
      (s.twPort 0).clearUntil ≤ max s.now t) ∧
    -- refused
    (∃ (s : State) (path : Path),
      Obj.TW0_XFER_CMD.level ≤ s.pathLevel path ∧
      s.pathOwns path (s.ownerOf Obj.TW0_XFER_CMD 0 0) = true ∧
      s.lattice.tw.xfer ≠ none) ∧
    -- acknowledged
    (∃ (s : State) (x : TwXfer),
      s.lattice.tw.running = 2 ∧
      (s.twPort 0).waits = false ∧
      s.lattice.tw.xfer = some x ∧
      x.read ≠ 0 ∧
      s.lattice.tw.polls = []) ∧
    -- not acknowledged
    (∃ (s : State) (x : TwXfer),
      s.lattice.tw.running = 2 ∧
      (s.twPort 0).waits = false ∧
      s.lattice.tw.xfer = some x ∧
      s.lattice.tw.polls = []) ∧
    -- poll due
    (∃ (s : State) (t : Nat) (r : Nat × Nat) (rest : List (Nat × Nat)),
      s.lattice.tw.polled + s.rdN Obj.TW0_POLL_US * 1000 ≤ max s.now t ∧
      s.lattice.tw.polls = [] ∧
      s.lattice.tw.running = 0 ∧
      (s.twPort 0).stuck = false ∧
      (s.twPort 0).clearUntil ≤ max s.now t ∧
      (s.pocxpPorts.map (fun x => (pocxpAddr x.2, pocxpReg x.2))).eraseDups = r :: rest) ∧
    -- not due
    (∃ (s : State) (t : Nat),
      max s.now t < s.lattice.tw.polled + s.rdN Obj.TW0_POLL_US * 1000) ∧
    -- read
    (∃ (s : State) (r : Nat × Nat),
      s.lattice.tw.running = 1 ∧
      (s.twPort 0).waits = false ∧
      s.lattice.tw.polls = [r] ∧
      s.lattice.tw.xfer = none) ∧
    -- read failed
    (∃ (s : State) (r : Nat × Nat),
      s.lattice.tw.running = 1 ∧
      (s.twPort 0).waits = false ∧
      s.lattice.tw.polls = [r] ∧
      s.lattice.tw.xfer = none) ∧
    -- stretched
    (∃ (s : State) (low : Nat) (port : Fin 3),
      s.twRuns port = true ∧
      1000000 * s.rdN Obj.TW_STRETCH_TIMEOUT_MS 0 port < low) ∧
    -- not too long
    (∃ (s : State) (low : Nat) (port : Fin 3),
      low ≤ 1000000 * s.rdN Obj.TW_STRETCH_TIMEOUT_MS 0 port) ∧
    -- bus error
    (∃ (s : State) (port : Fin 3),
      s.twRuns port = true) ∧
    -- nothing runs
    (∃ (s : State),
      (s.twPort 0).busy = false) ∧
    -- arbitration lost
    (∃ (s : State) (bit : Nat) (port : Fin 2),
      s.twRuns port = true ∧
      bit % 9 ≠ 8 ∧
      (s.twPort port).lost + 1 ≤ s.rdN Obj.TW_RETRIES 0 port) ∧
    -- lost too often
    (∃ (s : State) (bit : Nat),
      (s.twPort 1).waits = false ∧
      bit % 9 ≠ 8 ∧
      s.rdN Obj.TW_RETRIES 0 1 < (s.twPort 1).lost + 1) ∧
    -- acknowledge slot
    (∃ (bit : Nat),
      bit % 9 = 8) ∧
    -- sent again
    (∃ (s : State) (x : TwXfer),
      (s.twPort 0).waits = true ∧
      s.lattice.tw.running = 2 ∧
      s.lattice.tw.xfer = some x) ∧
    -- stop
    (∃ (s : State) (port : Fin 2),
      (port.val = 1 ∨ (s.lattice.tw.polls = [] ∧ s.lattice.tw.xfer = none))) ∧
    -- address
    (∃ (s : State) (t : TwAddress),
      t.address.val = s.rdN Obj.TW2_ADDR ∧
      s.power.asleep = false) ∧
    -- another address
    (∃ (s : State) (t : TwAddress),
      t.address.val ≠ s.rdN Obj.TW2_ADDR) ∧
    -- wakes
    (∃ (s : State) (t : TwAddress),
      t.address.val = s.rdN Obj.TW2_ADDR ∧
      s.power.asleep = true ∧
      s.power.step = 0) ∧
    -- transfer
    (∃ (s : State) (read : Nat),
      (s.twPort 2).busy = true ∧
      read ≠ 0) ∧
    -- alert
    (∃ (s : State) (t : Nat) (words : List Nat),
      s.power.step ≠ 0 ∧
      (s.twPort 1).waits = false ∧
      (s.twPort 1).stuck = false ∧
      (s.twPort 1).clearUntil ≤ max s.now t ∧
      words.length = 10) ∧
    -- alert on a stuck bus
    (∃ (s : State) (t : Nat),
      s.power.step ≠ 0 ∧
      (s.twPort 1).waits = false ∧
      (s.twPort 1).stuck = true ∧
      (s.twPort 1).clearUntil ≤ max s.now t) :=
  ⟨⟨wTwAct, 60000, wTwActOf, by decide⟩,
   ⟨(wPreop.putN Obj.ACCESS_LEVEL_HOST 0 0 2), 60000, .host, [1], by decide⟩,
   ⟨(wBusy.putN Obj.ACCESS_LEVEL_HOST 0 0 2), .host, by decide⟩,
   ⟨wBusy, wXfer, by decide⟩,
   ⟨wBusy, wXfer, by decide⟩,
   ⟨(wMapped {}), 60000000000, (32, 7), [], by decide⟩,
   ⟨(wTw { polled := 60000 } {}), 60001, by decide⟩,
   ⟨wPolling, (32, 7), by decide⟩,
   ⟨wPolling, (32, 7), by decide⟩,
   ⟨wTw2, 900000000, 2, by decide⟩,
   ⟨wTw2, 9, 2, by decide⟩,
   ⟨wPreop, 1, by decide⟩,
   ⟨wPreop, by decide⟩,
   ⟨(wPreop.putN Obj.TW_RETRIES 0 1 3), 16, 1, by decide⟩,
   ⟨(wTwPort 1 { lost := 200 }), 16, by decide⟩,
   ⟨17, by decide⟩,
   ⟨(wTw { xfer := some wXfer, running := 2 } { busy := true, waits := true }), wXfer, by decide⟩,
   ⟨(wTwPort 1 { waits := true, stuck := true }), 1, by decide⟩,
   ⟨wAddr, (TwAddress.mk 60000 40), by decide⟩,
   ⟨wAddr, (TwAddress.mk 60000 41), by decide⟩,
   ⟨{ wAddr with power := { asleep := true } }, (TwAddress.mk 60000 40), by decide⟩,
   ⟨wTw2, 4, by decide⟩,
   ⟨wPmb, 60000, [0, 1, 2, 3, 4, 5, 6, 7, 8, 9], by decide⟩,
   ⟨{ wTwPort 1 { stuck := true } with power := { step := 9 } }, 60000, by decide⟩⟩

/-- Each clause of `Obligations.DictionaryRequests` with hypotheses: a state and operands that meet them. -/
theorem witness_DictionaryRequests :
    -- no such object
    (∃ (object : Nat),
      objAt object = none) ∧
    -- refused
    (∃ (s : State) (path : Path) (object : Nat) (value : List Byte) (o : ObjRow) (b : Nat) (e : Nat),
      objAt object = some (o, b, e) ∧
      ownWrites.contains o.index = false ∧
      s.checkWrite path o b e value ≠ 0) ∧
    -- effect now
    (∃ (s : State) (path : Path) (object : Nat) (value : List Byte) (o : ObjRow) (b : Nat) (e : Nat),
      objAt object = some (o, b, e) ∧
      ownWrites.contains o.index = false ∧
      o.effect = .now ∧
      o.isBytes = false ∧
      o.counter = false ∧
      s.checkWrite path o b e value = 0) ∧
    -- effect preop
    (∃ (s : State) (path : Path) (object : Nat) (value : List Byte) (o : ObjRow) (b : Nat) (e : Nat),
      objAt object = some (o, b, e) ∧
      ownWrites.contains o.index = false ∧
      o.effect = .preop ∧
      o.isBytes = false ∧
      s.checkWrite path o b e value = 0) ∧
    -- RWE
    (∃ (s : State) (path : Path) (object : Nat) (value : List Byte) (o : ObjRow) (b : Nat) (e : Nat) (g : Nat),
      objAt object = some (o, b, e) ∧
      ownWrites.contains o.index = false ∧
      o.access = .rwe ∧
      o.effect = .epoch ∧
      o.isBytes = false ∧
      s.groupOf o b e = some g ∧
      s.checkWrite path o b e value = 0) ∧
    -- declared
    (∃ (s : State) (path : Path) (g : Fin 12) (value : List Byte),
      s.checkAccess path Obj.EPOCH_PENDING 0 g value.length = 0 ∧
      s.lining = true ∧
      s.epochFloor g ≤ leNat value ∧
      (s.rdN Obj.EPOCH_PENDING 0 g = 0 ∨ leNat value < s.rdN Obj.EPOCH_PENDING 0 g)) ∧
    -- late
    (∃ (s : State) (path : Path) (g : Fin 12) (value : List Byte),
      s.checkAccess path Obj.EPOCH_PENDING 0 g value.length = 0 ∧
      s.lining = true ∧
      (leNat value < s.epochFloor g ∨ (s.rdN Obj.EPOCH_PENDING 0 g ≠ 0 ∧ s.rdN Obj.EPOCH_PENDING 0 g ≤ leNat value))) ∧
    -- outside
    (∃ (s : State) (path : Path) (g : Fin 12) (value : List Byte),
      s.checkAccess path Obj.EPOCH_PENDING 0 g value.length = 0 ∧
      s.lining = false) ∧
    -- latch
    (∃ (s : State) (object : Nat) (o : ObjRow) (b : Nat) (e : Nat),
      ¬ (0x4c00 ≤ object / 256 ∧ object / 256 ≤ 0x4cff) ∧
      objAt object = some (o, b, e) ∧
      o.size e = 8 ∧
      o.access ≠ .rws ∧
      o.access ≠ .wo ∧
      s.mode ≠ stSave) ∧
    -- no such object
    (∃ (object : Nat),
      ¬ (0x4c00 ≤ object / 256 ∧ object / 256 ≤ 0x4cff) ∧
      objAt object = none) :=
  ⟨⟨5, by decide⟩,
   ⟨wLine, .host, (Obj.SP_PERIOD_US.key 0 1), [1], Obj.SP_PERIOD_US, 0, 1, by decide⟩,
   ⟨wPreop, .chain, (Obj.QE_SPEED_FLOOR.key 0 1), (toLe 4 500), Obj.QE_SPEED_FLOOR, 0, 1, by decide⟩,
   ⟨wPreop, .chain, (Obj.QE_MODE.key 0 1), [3], Obj.QE_MODE, 0, 1, by decide⟩,
   ⟨wLine, .chain, (Obj.CAM_EXPOSURE.key 2 0), (toLe 4 30000), Obj.CAM_EXPOSURE, 2, 0, 1, by decide⟩,
   ⟨wLine, .chain, 1, (toLe 8 900), by decide⟩,
   ⟨wLine, .chain, 1, (toLe 8 7), by decide⟩,
   ⟨wPreop, .chain, 1, (toLe 8 900), by decide⟩,
   ⟨wLine, (Obj.QE_PHASE_ERRORS.key 0 1), Obj.QE_PHASE_ERRORS, 0, 1, by decide⟩,
   ⟨5, by decide⟩⟩

/-- Each clause of `Obligations.Counters` with hypotheses: a state and operands that meet them. -/
theorem witness_Counters :
    -- counting
    (∃ (s : State) (o : ObjRow) (b : Nat) (e : Nat) (n : Nat),
      s.rdN o b e ≤ countMax ∧
      s.rdN o b e + n < countMax) ∧
    -- reaching
    (∃ (s : State) (o : ObjRow) (b : Nat) (e : Nat) (n : Nat),
      s.rdN o b e ≤ countMax ∧
      countMax ≤ s.rdN o b e + n) ∧
    -- staying
    (∃ (s : State) (o : ObjRow) (b : Nat) (e : Nat),
      s.rdN o b e = 2 ^ 63 + countMax) ∧
    -- reset
    (∃ (o : ObjRow) (b : Nat) (e : Nat),
      o ∈ objectTable ∧
      o.counter = true ∧
      b < o.blocks ∧
      e < o.count) ∧
    -- counter cleared
    (∃ (s : State) (path : Path) (object : Nat) (value : List Byte) (o : ObjRow) (b : Nat) (e : Nat),
      objAt object = some (o, b, e) ∧
      o.counter = true ∧
      leNat value = 0 ∧
      s.checkAccess path o b e value.length = 0) ∧
    -- counter kept
    (∃ (s : State) (path : Path) (object : Nat) (value : List Byte) (o : ObjRow) (b : Nat) (e : Nat),
      objAt object = some (o, b, e) ∧
      o.counter = true ∧
      o.decodeValue value ≠ 0 ∧
      s.checkAccess path o b e value.length = 0) :=
  ⟨⟨wPreop, Obj.QE_PHASE_ERRORS, 0, 1, 3, by decide⟩,
   ⟨wPreop, Obj.QE_PHASE_ERRORS, 0, 1, 281474976710655, by decide⟩,
   ⟨(wPreop.putN Obj.QE_PHASE_ERRORS 0 1 (2 ^ 63 + 281474976710655)), Obj.QE_PHASE_ERRORS, 0, 1, by decide⟩,
   ⟨Obj.QE_PHASE_ERRORS, 0, 1, by decide, rfl, by decide, by decide⟩,
   ⟨wPreop, .chain, (Obj.QE_PHASE_ERRORS.key 0 1), (toLe 8 0), Obj.QE_PHASE_ERRORS, 0, 1, by decide⟩,
   ⟨wPreop, .chain, (Obj.QE_PHASE_ERRORS.key 0 1), (toLe 8 1), Obj.QE_PHASE_ERRORS, 0, 1, by decide⟩⟩

/-- Each clause of `Obligations.HostMailbox` with hypotheses: a state and operands that meet them. -/
theorem witness_HostMailbox :
    -- read asked
    (∃ (s : State),
      s.cxl.mb.state ≠ 1 ∧
      s.cxl.mb.request = none) ∧
    -- read refused
    (∃ (s : State),
      s.cxl.mb.state = 1) ∧
    -- write asked
    (∃ (s : State),
      s.cxl.mb.state ≠ 1 ∧
      s.cxl.mb.request = none) ∧
    -- write refused
    (∃ (s : State),
      s.cxl.mb.state = 1) ∧
    -- abort asked
    (∃ (s : State),
      s.cxl.mb.state ≠ 1 ∧
      s.cxl.mb.request = none) ∧
    -- abort refused
    (∃ (s : State),
      s.cxl.mb.state = 1) ∧
    -- read of a byte
    (∃ (s : State) (r : MbRequest),
      s.cxl.mb.request = some r ∧
      s.cxl.mb.state = 1 ∧
      r.op = 1 ∧
      r.object / 256 = Obj.DEVICE_STATE.key 0 0 ∧
      r.offset = 0 ∧
      r.length = 1 ∧
      s.mode ≠ stSave) ∧
    -- read of no length
    (∃ (s : State) (r : MbRequest),
      s.cxl.mb.request = some r ∧
      s.cxl.mb.state = 1 ∧
      r.op = 1 ∧
      r.object / 256 = Obj.DEVICE_STATE.key 0 0 ∧
      s.mode ≠ stSave ∧
      (r.length = 0 ∨ 4096 < r.length)) ∧
    -- after a link reset
    (∃ (s : State) (r : MbRequest),
      s.cxl.mb.request = some r ∧
      s.cxl.mb.state ≠ 1 ∧
      r.op = 1 ∧
      r.object / 256 = Obj.DEVICE_STATE.key 0 0 ∧
      s.mode ≠ stSave ∧
      r.length = 0) ∧
    -- first segment
    (∃ (s : State) (r : MbRequest),
      s.cxl.mb.request = some r ∧
      s.cxl.mb.state = 1 ∧
      r.op = 2 ∧
      r.length = r.data.length ∧
      r.final = false ∧
      r.offset = 0 ∧
      s.segmentCheck .host (r.object / 256) 0 r.data.length false = 0 ∧
      s.cxl.mb.partials = [] ∧
      r.object / 256 ≠ Obj.FW_IMAGE.key 0 0 ∧
      r.object / 256 ≠ Obj.FW_IMAGE_HOST.key 0 0) ∧
    -- segment out of order
    (∃ (s : State) (r : MbRequest) (x : Nat × List Byte × Nat),
      s.cxl.mb.request = some r ∧
      s.cxl.mb.state = 1 ∧
      r.op = 2 ∧
      r.length = r.data.length ∧
      s.cxl.mb.partials = [x] ∧
      x.1 = r.object / 256 ∧
      s.segmentCheck .host (r.object / 256) r.offset r.data.length r.final = 0 ∧
      r.offset ≠ x.2.1.length ∧
      r.object / 256 ≠ Obj.FW_IMAGE.key 0 0 ∧
      r.object / 256 ≠ Obj.FW_IMAGE_HOST.key 0 0) ∧
    -- transfer ended
    (∃ (s : State) (r : MbRequest),
      s.cxl.mb.request = some r ∧
      s.cxl.mb.state = 1 ∧
      r.op = 3 ∧
      (objAt (r.object / 256)).isSome = true) ∧
    -- no object to end
    (∃ (s : State) (r : MbRequest),
      s.cxl.mb.request = some r ∧
      s.cxl.mb.state = 1 ∧
      r.op = 3 ∧
      objAt (r.object / 256) = none) ∧
    -- timeout
    (∃ (s : State) (t : Nat) (x : Nat × List Byte × Nat),
      s.mer.partials = [x] ∧
      s.cxl.mb.partials = [] ∧
      x.2.2 + 1000000000 ≤ max s.now t) ∧
    -- not yet
    (∃ (s : State) (t : Nat),
      s.mer.partials.all (fun x => decide (max s.now t < x.2.2 + 1000000000)) = true ∧
      s.cxl.mb.partials.all (fun x => decide (max s.now t < x.2.2 + 1000000000)) = true) :=
  ⟨⟨wMb, by decide⟩,
   ⟨wMbBusy, by decide⟩,
   ⟨wMb, by decide⟩,
   ⟨wMbBusy, by decide⟩,
   ⟨wMb, by decide⟩,
   ⟨wMbBusy, by decide⟩,
   ⟨(wMbAsked wOne), wOne, by decide⟩,
   ⟨(wMbAsked wLong), wLong, by decide⟩,
   ⟨(wMbWith { state := 4, request := some wEmpty }), wEmpty, by decide⟩,
   ⟨(wMbWith { state := 1, request := some (wSeg 0) }), (wSeg 0), by decide⟩,
   ⟨(wMbWith { state := 1, request := some (wSeg 5), partials := [(Obj.SEC_ACCESS_HASH.key 0 1, [1, 2], 9)] }), (wSeg 5),
     (Obj.SEC_ACCESS_HASH.key 0 1, [1, 2], 9), by decide⟩,
   ⟨(wMbWith { state := 1, request := some wAbortReq, partials := [(Obj.SEC_ACCESS_HASH.key 0 1, [1, 2], 9)] }), wAbortReq,
     by decide⟩,
   ⟨(wMbAsked (wMbReq 3 1280 0 0 false [])), (wMbReq 3 1280 0 0 false []), by decide⟩,
   ⟨(wOpen 9), 2000000000, (Obj.ST_MAP.key 2 0, [1], 9), by decide⟩,
   ⟨(wOpen 9), 60000, by decide⟩⟩

/-- Each clause of `Obligations.StepRunsFront` with hypotheses: a state and operands that meet them. -/
theorem witness_StepRunsFront :
    -- idle
    (∃ (s : State),
      s.pending = []) :=
  ⟨wPreop, by decide⟩

/-- Each clause of `Obligations.EveryCommandGoesOn` with hypotheses: a state and operands that meet them. -/
theorem witness_EveryCommandGoesOn :
    -- goes on
    (∃ (c : Instr) (s : State),
      inWindow c s = true) ∧
    -- outside
    (∃ (c : Instr) (s : State),
      inWindow c s = false) :=
  ⟨⟨(.causeClear 9 0), wPreop, by decide⟩,
   ⟨(.windowWrite 9 (2 ^ 50) [1]), wPreop, by decide⟩⟩

/-- Each clause of `Obligations.ClockNeverGoesBack` with hypotheses: a state and operands that meet them. -/
theorem witness_ClockNeverGoesBack :
    -- time
    (∃ (c : Instr) (s : State) (u : State),
      exec c s = .next u) :=
  ⟨(.causeClear 9 0), wPreop, wNext, rfl⟩

/-- Each clause of `Obligations.Footprint` with hypotheses: a state and operands that meet them. -/
theorem witness_Footprint :
    -- frame
    (∃ (c : Instr) (s : State) (u : State),
      exec c s = .next u) :=
  ⟨(.causeClear 9 0), wPreop, wNext, rfl⟩

/-- Each clause of `Obligations.MemoryStaysCanonical` with hypotheses: a state and operands that meet them. -/
theorem witness_MemoryStaysCanonical :
    -- step
    (∃ (s : State) (u : State),
      s.memOk = true ∧
      step s = .next u) :=
  ⟨wQueued, wAfter, by decide, rfl⟩

end Sys2Proof.Tests
end

section
/-! Counters and the dictionary's requests (spec/00_scope.md; spec/01_curtain_and_coordinates.md, R33). -/

namespace Sys2Proof.Machine

open Sys2Proof

/-! ## Counter words (R8) -/

/-- R8: below the maximum a counter word counts on. -/
theorem satCount_of_lt {v n : Nat} (h : v + n < countMax) : satCount v n = v + n := by
  have hv : v % 2 ^ 48 = v := Nat.mod_eq_of_lt (by simp only [countMax] at h; omega)
  rw [satCount, hv, if_neg (by omega)]

/-- R8: a count that reaches the maximum stays there, and SAT is set. -/
theorem satCount_of_le {v n : Nat} (h : countMax ≤ v % 2 ^ 48 + n) : satCount v n = 2 ^ 63 + countMax := if_pos h

/-- R8: bits 62:48 of a counter word are reserved. -/
theorem satCount_reserved (v n : Nat) : satCount v n / 2 ^ 48 % 2 ^ 15 = 0 := by
  by_cases h : countMax ≤ v % 2 ^ 48 + n
  · rw [satCount_of_le h]; decide
  · rw [satCount, if_neg h, Nat.div_eq_of_lt (by simp only [countMax] at h; omega), Nat.zero_mod]

/-! ## The counter rows of the dictionary -/

/-- R439 check 7: the indexes of the objects that the chapters relate to others. -/
def relatedIndexes : List Nat := [0x1048, 0x1109, 0x2282, 0x310a, 0x4022, 0x4023, 0x4030, 0x4043, 0x4044, 0x4045, 0x40c1,
  0x40c2, 0x40c7, 0x40d1, 0x40d2, 0x4f00, 0x4f05, 0x4f06, 0x5001, 0x5207, 0x6017, 0x6018, 0x6230, 0x8040, 0x9010, 0x9011,
  0xa001, 0xa018, 0xe002, 0xe003]

theorem relationOk_of_unrelated (s : State) {o : ObjRow} (b e : Nat) (v : Int) (h : o.index ∉ relatedIndexes) :
    s.relationOk o b e v = true := by
  simp only [relatedIndexes, List.mem_cons, not_or] at h
  unfold State.relationOk
  split
  · simp_all
  · split <;> simp_all

/-- R8, R10: a row of a counter: a 64-bit word that is 0 at reset, in relation to no other object, and a write of which acts
at once. -/
structure ObjRow.CounterRow (o : ObjRow) : Prop where
  kind : o.kind = .u64
  dflt : o.dflt = 0
  special : o.special = []
  effect : o.effect = .none ∨ o.effect = .now
  unrelated : o.index ∉ relatedIndexes

theorem objAt_mem {k : Nat} {o : ObjRow} {b e : Nat} (h : objAt k = some (o, b, e)) : o ∈ objectTable := by
  obtain ⟨x, hx, hloc⟩ := List.exists_of_findSome?_eq_some h
  split at hloc
  · simp only [Option.some.injEq, Prod.mk.injEq] at hloc
    exact hloc.1 ▸ hx
  · cases hloc

set_option maxRecDepth 20000 in
/-- R8, R10: every counter of the dictionary's tables has such a row. -/
theorem counterRow_of_mem {o : ObjRow} (ho : o ∈ objectTable) (hc : o.counter = true) : o.CounterRow := by
  have htable : objectTable.all (fun o => !o.counter || (o.kind == .u64 && o.dflt == 0 && o.special.isEmpty &&
      (o.effect == .none || o.effect == .now) && !relatedIndexes.contains o.index)) = true := by decide
  have hrow := List.all_eq_true.mp htable o ho
  simp only [hc, Bool.not_true, Bool.false_or, Bool.and_eq_true, Bool.or_eq_true, beq_iff_eq, List.isEmpty_iff,
    Bool.not_eq_true', List.contains_eq_mem, decide_eq_false_iff_not] at hrow
  obtain ⟨⟨⟨⟨hkind, hdflt⟩, hspecial⟩, heffect⟩, hfree⟩ := hrow
  exact ⟨hkind, hdflt, hspecial, heffect, hfree⟩

section

variable {o : ObjRow} (h : o.CounterRow)

include h

theorem ObjRow.CounterRow.isBytes : o.isBytes = false := by simp [ObjRow.isBytes, h.kind]

theorem ObjRow.CounterRow.dfltAt (e : Nat) : o.dfltAt e = 0 := by simp [ObjRow.dfltAt, h.special, h.dflt]

theorem ObjRow.CounterRow.decodeValue (bs : List Byte) : o.decodeValue bs = leNat bs := by
  simp [ObjRow.decodeValue, h.kind]

end

/-! ## Writes of a counter (R10, R439) -/

/-- The checks of a write look at nothing that a request's arrival changes. -/
theorem checkAccess_at_touch (s : State) (t : Nat) (p q : Path) (o : ObjRow) (b e n : Nat) :
    ((s.at t).touch q).checkAccess p o b e n = s.checkAccess p o b e n := rfl

theorem checkWrite_counter {s : State} {p : Path} {o : ObjRow} {b e : Nat} {bs : List Byte} (h : o.CounterRow)
    (hc : o.counter = true) (hacc : s.checkAccess p o b e bs.length = 0) :
    s.checkWrite p o b e bs = if o.decodeValue bs = 0 then 0 else 5 := by
  have hrel := relationOk_of_unrelated s b e (o.decodeValue bs) h.unrelated
  simp [State.checkWrite, hacc, h.isBytes, ObjRow.rangeOk, hc, hrel]

theorem applyWrite_counter (s : State) {o : ObjRow} (b e : Nat) (bs : List Byte) (h : o.CounterRow)
    (hc : o.counter = true) : s.applyWrite o b e bs = s.clearCount o b e := by
  rcases h.effect with heff | heff <;> simp [State.applyWrite, heff, h.isBytes, hc]

section

variable {s : State} {t : Nat} {path : Path} {object : Nat} {value : List Byte} {o : ObjRow} {b e : Nat}

/-- R10: a counter-clear command that names a counter is a dictionary write of it. -/
theorem exec_counterClear_of_counter (hobj : objAt object = some (o, b, e)) (hc : o.counter = true) :
    exec (.counterClear t path object value) s = .next ((s.at t).dictWrite path o b e value) := by
  show execCounterClear t path object value s = _
  simp [execCounterClear, hobj, hc]

/-- R10: a write of zero that the access checks pass clears the counter. -/
theorem exec_counterClear_zero (hobj : objAt object = some (o, b, e)) (hc : o.counter = true)
    (hv : o.decodeValue value = 0) (hacc : s.checkAccess path o b e value.length = 0) :
    exec (.counterClear t path object value) s =
      .next ((((s.at t).touch path).clearCount o b e).answer path (o.key b e) 0) := by
  have hrow := counterRow_of_mem (objAt_mem hobj) hc
  have hchk := checkWrite_counter hrow hc ((checkAccess_at_touch s t path path o b e _).trans hacc)
  rw [exec_counterClear_of_counter hobj hc]
  simp [State.dictWrite, hchk, hv, applyWrite_counter _ _ _ _ hrow hc]

/-- R10: any other value is out of range. -/
theorem exec_counterClear_nonzero (hobj : objAt object = some (o, b, e)) (hc : o.counter = true)
    (hv : o.decodeValue value ≠ 0) (hacc : s.checkAccess path o b e value.length = 0) :
    exec (.counterClear t path object value) s = .next (((s.at t).touch path).answer path (o.key b e) 5) := by
  have hrow := counterRow_of_mem (objAt_mem hobj) hc
  have hchk := checkWrite_counter hrow hc ((checkAccess_at_touch s t path path o b e _).trans hacc)
  rw [exec_counterClear_of_counter hobj hc]
  simp [State.dictWrite, hchk, hv]

end

theorem rd_clearCount_same (s : State) (o : ObjRow) (b e : Nat) :
    (s.clearCount o b e).rd o b e = satCount 0 (look s.fresh 0 (o.key b e)) := rd_putN_same s o b e _

/-- R10: the events of the present instant, when a command arrives. -/
theorem look_fresh_at (s : State) (t k : Nat) :
    look (s.at t).fresh 0 k = if s.now < t then 0 else look s.fresh 0 k := by
  simp only [State.at]
  split <;> rfl

theorem rdN_reset_counter {o : ObjRow} (h : o.CounterRow) (b e : Nat) : State.reset.rdN o b e = 0 := by
  show (o.dfltAt e).toNat = 0
  rw [h.dfltAt, Int.toNat_zero]

/-- R8: an event that a cleared counter counts reads 1. -/
theorem rd_count_one_of_zero {s : State} {o : ObjRow} {b e : Nat} (h : s.rd o b e = 0) : (s.count o b e 1).rd o b e = 1 := by
  have hN : s.rdN o b e = 0 := by rw [State.rdN, h, Int.toNat_zero]
  show (s.putN o b e (satCount (s.rdN o b e) 1)).rd o b e = 1
  rw [rd_putN_same, hN]
  rfl

/-- Settles O53: counting is `satCount`, and a counter's row makes its write a clear or a refusal. -/
theorem counters : Obligations.Counters := by
  unfold Obligations.Counters
  refine ⟨?below, ?reaches, ?stays, fun v n => ⟨rfl, satCount_reserved v n⟩, ?reset, ?cleared, ?refused⟩
  case below =>
    intro s o b e n _ hlt
    rw [rdN_count_same, satCount_of_lt hlt]
  case reaches =>
    intro s o b e n hmax hle
    have hv : s.rdN o b e % 2 ^ 48 = s.rdN o b e := Nat.mod_eq_of_lt (by simp only [countMax] at hmax; omega)
    rw [rdN_count_same, satCount_of_le (by rwa [hv])]
  case stays =>
    intro s o b e n hsat
    rw [rdN_count_same, hsat, satCount_of_le (by simp only [countMax]; omega)]
  case reset =>
    intro o b e ho hc _ _
    exact rdN_reset_counter (counterRow_of_mem ho hc) b e
  case cleared =>
    intro s t path object value o b e hobj hc hv hacc
    have hdec : o.decodeValue value = 0 := by
      rw [(counterRow_of_mem (objAt_mem hobj) hc).decodeValue, hv, Int.natCast_zero]
    have hrd : ((((s.at t).touch path).clearCount o b e).answer path (o.key b e) 0).rd o b e =
        satCount 0 (if s.now < t then 0 else look s.fresh 0 (o.key b e)) := by
      rw [← look_fresh_at]
      exact rd_clearCount_same ((s.at t).touch path) o b e
    refine ⟨_, exec_counterClear_zero hobj hc hdec hacc, hrd, fun hquiet => ?_, fun d k hk => ?_, rfl⟩
    · have hzero : (if s.now < t then 0 else look s.fresh 0 (o.key b e)) = 0 := by
        split <;> simp_all
      rw [hzero] at hrd
      exact ⟨hrd, rd_count_one_of_zero hrd⟩
    · exact look_store_other _ _ _ _ _ _ hk
  case refused =>
    intro s t path object value o b e hobj hc hv hacc
    exact ⟨_, exec_counterClear_nonzero hobj hc hv hacc, rfl, rfl⟩

/-! ## A late declaration of an epoch (R33, R463) -/

/-- A unit in RUN whose channel 56 forwards ERR_RAISED (source 118), stops at a loop (R463), and finds its own tag on that
event: the table of recent activations lists it under the source's block. No task acts on that block, so no command lists it;
the obligation speaks of every state. -/
def lateLoopState : State :=
  let s := (State.reset.putN Obj.ACCESS_LEVEL_CHAIN 0 0 2).putN Obj.DEVICE_STATE 0 0 stRun
  let s := s.putN Obj.EV_CH_CONFIG 56 0 (2 ^ 63 + 2 ^ 62 + 118 * 2 ^ 49)
  { s with lattice := { s.lattice with recent := [(sourceBlock 118, [(0, [56])])] } }

set_option maxRecDepth 20000 in
/-- R463: EPOCH_LATE fires source 118, the channel stops at its own tag, and the EV_LOOP it raises is the last event. -/
theorem lateLoopState_errName :
    (afterRow (exec (.epochPendingWrite 0 .chain 0 (toLe 8 7)) lateLoopState) lateLoopState).errName = some .EV_LOOP := by
  decide

/-- Refutes O52 in its clause of the late declaration: EPOCH_LATE is raised, but it need not be the last event, whose name is
kept. In `lateLoopState` the last one is the EV_LOOP of a channel that stops by a loop on it. -/
theorem not_dictionaryRequests : ¬ Obligations.DictionaryRequests := by
  unfold Obligations.DictionaryRequests
  rintro ⟨-, -, -, -, -, -, late, -⟩
  obtain ⟨u, hnext, -, -, hname, -⟩ :=
    late lateLoopState 0 .chain 0 (toLe 8 7) (by decide) (by decide) (by decide)
  have hloop := lateLoopState_errName
  rw [hnext] at hloop
  exact absurd (hname.symm.trans hloop) (by decide)

end Sys2Proof.Machine

end

section
/-! A defect map and a plate reference, staged for the next epoch or refused (spec/04_raw_correction.md, R100 to R102 and
R111). -/

namespace Sys2Proof.Machine

open Sys2Proof

/-! ## Staging a blob for the next epoch (R18, R34) -/

theorem find?_enlist_same {α : Type} (t : Tab α) (k : Nat) (v : α) : find? (enlist t k v) k = some v := by
  induction t with
  | nil => exact if_pos rfl
  | cons c r ih =>
    obtain ⟨k', w⟩ := c
    rw [enlist]
    split
    · exact if_pos rfl
    · split
      · exact if_pos rfl
      · next hne => rw [find?, if_neg hne, ih]

/-- R34: the device's own declaration writes `EPOCH_PENDING` and stages nothing. -/
@[simp] theorem State.declareOwn_epochs (s : State) (g : Nat) : (s.declareOwn g).epochs = s.epochs :=
  of_see (fun s => s.epochs) (State.declareOwn_see _ (fun _ _ h => h .epochs rfl) s g)

@[simp] theorem State.stageEpochBlob_out (s : State) (o : ObjRow) (b e : Nat) (v : List Byte) :
    (s.stageEpochBlob o b e v).out = s.out :=
  of_see (fun s => s.out) (State.stageEpochBlob_see _ (fun _ _ h => h .out rfl) s o b e v)

/-- R31: a blob of an object with a value for each port is staged under the object's key. -/
theorem find?_stagedBlobs_stageEpochBlob (s : State) {o : ObjRow} (b e : Nat) (v : List Byte) (hport : o.scope = .port) :
    find? (s.stageEpochBlob o b e v).epochs.stagedBlobs (o.key b e) = some v := by
  have hgroups : s.stageGroups o b e = [s.portGroup b] := by simp [State.stageGroups, State.groupOf, hport]
  have hkey : ∀ g, epochKey o b e g = o.key b e := fun g => by simp [epochKey, hport]
  simp [State.stageEpochBlob, hgroups, hkey, find?_enlist_same]

/-! ## The two writes, by the checks that decide them -/

section

variable {s : State} {path : Path} {p : Fin 12} {blob : List Byte} (t : Nat)

/-- R102: a map that is right for the layout is staged, and MAP_REFUSED goes. -/
theorem exec_defectMapWrite_of_fits (hacc : s.checkAccess path Obj.RC_DEFECT_MAP p 0 blob.length = 0)
    (hfits : mapFits blob (s.lastN Obj.CAM_LAYOUT p) (s.lastN Obj.CAM_WIDTH p) = true) :
    exec (.defectMapWrite t path p blob) s =
      .next ((((((s.at t).touch path).stageEpochBlob Obj.RC_DEFECT_MAP p 0 blob).putN Obj.RC_DEFECT_MAP_STATE p 0 2).rcBit p
        rsMapRefused false).answer path (Obj.RC_DEFECT_MAP.key p 0) 0) := by
  have hacc' := (checkAccess_at_touch s t path path Obj.RC_DEFECT_MAP p 0 blob.length).trans hacc
  have hfits' : mapFits blob (((s.at t).touch path).lastN Obj.CAM_LAYOUT p) (((s.at t).touch path).lastN Obj.CAM_WIDTH p) =
    true := hfits
  show execDefectMapWrite t path p blob s = _
  simp only [execDefectMapWrite, hacc', hfits', if_true]

/-- R102: any other is refused with MAP_REFUSED and DEFECT_MAP_REFUSED. -/
theorem exec_defectMapWrite_of_not_fits (hacc : s.checkAccess path Obj.RC_DEFECT_MAP p 0 blob.length = 0)
    (hfits : mapFits blob (s.lastN Obj.CAM_LAYOUT p) (s.lastN Obj.CAM_WIDTH p) = false) :
    exec (.defectMapWrite t path p blob) s =
      .next ((((((s.at t).touch path).putN Obj.RC_DEFECT_MAP_STATE p 0 3).rcBit p rsMapRefused true).raise .DEFECT_MAP_REFUSED
        (Obj.RC_DEFECT_MAP.ident p)).answer path (Obj.RC_DEFECT_MAP.key p 0) 5) := by
  have hacc' := (checkAccess_at_touch s t path path Obj.RC_DEFECT_MAP p 0 blob.length).trans hacc
  have hfits' : mapFits blob (((s.at t).touch path).lastN Obj.CAM_LAYOUT p) (((s.at t).touch path).lastN Obj.CAM_WIDTH p) =
    false := hfits
  show execDefectMapWrite t path p blob s = _
  simp only [execDefectMapWrite, hacc', hfits', Bool.false_eq_true, if_false]

/-- R111: a reference that is not empty is staged where it holds two bytes for each column, and refused otherwise. -/
theorem exec_plateRefWrite_of_ne_nil (hacc : s.checkAccess path Obj.RC_FF_PLATE_REF p 0 blob.length = 0) (hne : blob ≠ []) :
    exec (.plateRefWrite t path p blob) s =
      if blob.length = 2 * s.lastN Obj.CAM_WIDTH p then
        .next ((((s.at t).touch path).stageEpochBlob Obj.RC_FF_PLATE_REF p 0 blob).answer path (Obj.RC_FF_PLATE_REF.key p 0) 0)
      else .next (((s.at t).touch path).answer path (Obj.RC_FF_PLATE_REF.key p 0) 5) := by
  have hacc' := (checkAccess_at_touch s t path path Obj.RC_FF_PLATE_REF p 0 blob.length).trans hacc
  have hlast : ((s.at t).touch path).lastN Obj.CAM_WIDTH p = s.lastN Obj.CAM_WIDTH p := rfl
  show execPlateRefWrite t path p blob s = _
  simp [execPlateRefWrite, hacc', hlast, hne]

end

/-! ## What an answer and the bits of `RC_STATUS` leave -/

@[simp] theorem State.answer_out (s : State) (path : Path) (k r : Nat) :
    (s.answer path k r).out = s.out ++ [.result path k r] := rfl

@[simp] theorem rdN_answer (s : State) (path : Path) (k r : Nat) (o : ObjRow) (b e : Nat) :
    (s.answer path k r).rdN o b e = s.rdN o b e := rfl

@[simp] theorem State.rcBit_epochs (s : State) (p i : Nat) (v : Bool) : (s.rcBit p i v).epochs = s.epochs := rfl

@[simp] theorem State.rcBit_out (s : State) (p i : Nat) (v : Bool) : (s.rcBit p i v).out = s.out := rfl

/-- A bit of `RC_STATUS` leaves `RC_DEFECT_MAP_STATE` of the port. -/
theorem rdN_defectMapState_rcBit (s : State) (p i : Nat) (v : Bool) :
    (s.rcBit p i v).rdN Obj.RC_DEFECT_MAP_STATE p = s.rdN Obj.RC_DEFECT_MAP_STATE p :=
  rdN_setBit_other s Obj.RC_STATUS Obj.RC_DEFECT_MAP_STATE p 0 p 0 i v
    (by simp only [ObjRow.key, Obj.RC_STATUS, Obj.RC_DEFECT_MAP_STATE]; omega)

/-- R449: `RC_DEFECT_MAP_STATE` of a port is none of the registers of events. -/
theorem isEventReg_defectMapState (p : Fin 12) : isEventReg (Obj.RC_DEFECT_MAP_STATE.key p 0) = false :=
  evReg_false _ (by simp only [ObjRow.key, Obj.RC_DEFECT_MAP_STATE]; omega)

/-- Settles O8: each write's checks name the state after it, and that state's parts are read off. -/
theorem imageMaps : Obligations.ImageMaps := by
  unfold Obligations.ImageMaps
  refine ⟨?mapStaged, ?mapRefused, ?refStaged, ?refRefused⟩
  case mapStaged =>
    intro s t path p blob hacc hfits
    refine ⟨_, exec_defectMapWrite_of_fits t hacc hfits, ?_, ?_, ?_⟩
    · simpa using find?_stagedBlobs_stageEpochBlob ((s.at t).touch path) p 0 blob (o := Obj.RC_DEFECT_MAP) rfl
    · simp [rdN_defectMapState_rcBit]
    · simp
  case mapRefused =>
    intro s t path p blob hacc hfits
    refine ⟨_, exec_defectMapWrite_of_not_fits t hacc hfits, ?_, ?_, ?_⟩
    · simp [isEventReg_defectMapState, rdN_defectMapState_rcBit]
    · simp
    · simp
  case refStaged =>
    intro s t path p blob hacc hne hlen
    refine ⟨_, (exec_plateRefWrite_of_ne_nil t hacc hne).trans (if_pos hlen), ?_, ?_⟩
    · simpa using find?_stagedBlobs_stageEpochBlob ((s.at t).touch path) p 0 blob (o := Obj.RC_FF_PLATE_REF) rfl
    · simp
  case refRefused =>
    intro s t path p blob hacc hne hlen
    exact ⟨_, (exec_plateRefWrite_of_ne_nil t hacc hne).trans (if_neg hlen), by simp, by simp, by simp⟩

end Sys2Proof.Machine

end

section
/-! Atlas blobs, loads, holds and scrub passes (spec/06_atlas_and_segmentation.md, R156 to R164). -/

namespace Sys2Proof.Machine

open Sys2Proof

/-! ## The bits of a status word (R6) -/

/-- A bit that is clear can be added without a carry. -/
theorem testBit_two_pow_add_of_ne {n i j : Nat} (hclear : n.testBit i = false) (hij : i ≠ j) :
    (2 ^ i + n).testBit j = n.testBit j := by
  have heven : n / 2 ^ i % 2 = 0 := by simpa [Nat.testBit_eq_decide_div_mod_eq] using hclear
  have hlow : n % 2 ^ i < 2 ^ i := Nat.mod_lt n (Nat.two_pow_pos i)
  have hn : n = 2 ^ i * (n / 2 ^ i) + n % 2 ^ i := (Nat.div_add_mod ..).symm
  have hsum : 2 ^ i + n = 2 ^ i * (n / 2 ^ i + 1) + n % 2 ^ i := by rw [Nat.mul_add]; omega
  have hread : n.testBit j = if j < i then (n % 2 ^ i).testBit j else (n / 2 ^ i).testBit (j - i) := by
    rw [← Nat.testBit_two_pow_mul_add _ hlow, ← hn]
  rw [hsum, Nat.testBit_two_pow_mul_add _ hlow, hread]
  split
  · rfl
  · next hle =>
    obtain ⟨k, hk⟩ : ∃ k, j - i = k + 1 := ⟨j - i - 1, by omega⟩
    rw [hk, Nat.testBit_add_one, Nat.testBit_add_one, show (n / 2 ^ i + 1) / 2 = n / 2 ^ i / 2 by omega]

theorem testBit_withBit_other {i j : Nat} (n : Nat) (v : Bool) (hij : i ≠ j) : (withBit n i v).testBit j = n.testBit j := by
  unfold withBit
  cases hn : n.testBit i
  · cases v
    · rfl
    · simpa [Nat.add_comm] using testBit_two_pow_add_of_ne hn hij
  · cases v
    · have hback : 2 ^ i + (n - 2 ^ i) = n := Nat.add_sub_cancel' (Nat.ge_two_pow_of_testBit hn)
      have hclear : (n - 2 ^ i).testBit i = false := by
        rw [← hback, Nat.testBit_two_pow_add_eq] at hn
        simpa using hn
      calc (n - 2 ^ i).testBit j = (2 ^ i + (n - 2 ^ i)).testBit j := (testBit_two_pow_add_of_ne hclear hij).symm
        _ = n.testBit j := by rw [hback]
    · rfl

/-! ## The rows of a port -/

/-- Two rows of a port's block with a single element each lie at different keys. -/
theorem key_ne_of_index_ne {o o' : ObjRow} {p : Nat}
    (h : o.stride = o'.stride ∧ o.sub = 0 ∧ o'.sub = 0 ∧ o.index ≠ o'.index) : o.key p 0 ≠ o'.key p 0 := by
  obtain ⟨hstride, hsub, hsub', hindex⟩ := h
  simp only [ObjRow.key, hstride, hsub, hsub']
  omega

/-- R449: the rows of a camera port's block are none of the registers of events. -/
theorem isEventReg_portRow {o : ObjRow} (p : Fin 12)
    (h : o.stride = 0x100 ∧ o.sub = 0 ∧ 0x4000 ≤ o.index ∧ o.index < 0x4100) : isEventReg (o.key p 0) = false := by
  obtain ⟨hstride, hsub, hlo, hhi⟩ := h
  exact evReg_false _ (by simp only [ObjRow.key, hstride, hsub]; omega)

/-! ## The atlas of a port and of a pipeline -/

@[simp] theorem atp_setAt_same (s : State) (p : Nat) (v : AtPort) : (s.setAt p v).atp p = v := look_store_same _ _ _ _

@[simp] theorem atPipe_setAtPipe_same (s : State) (q : Nat) (v : AtlasPipe) : (s.setAtPipe q v).atPipe q = v :=
  look_store_same _ _ _ _

theorem atPipe_setAtPipe_other (s : State) {q r : Nat} (v : AtlasPipe) (h : r ≠ q) :
    (s.setAtPipe q v).atPipe r = s.atPipe r := look_store_other _ _ _ _ _ _ h

@[simp] theorem State.setAt_epochs (s : State) (p : Nat) (v : AtPort) : (s.setAt p v).epochs = s.epochs := rfl

@[simp] theorem atp_answer (s : State) (path : Path) (k r p : Nat) : (s.answer path k r).atp p = s.atp p := rfl

@[simp] theorem rdN_touch (s : State) (path : Path) (o : ObjRow) (b e : Nat) : (s.touch path).rdN o b e = s.rdN o b e := rfl

@[simp] theorem bit_answer (s : State) (path : Path) (k r : Nat) (o : ObjRow) (b e i : Nat) :
    (s.answer path k r).bit o b e i = s.bit o b e i := rfl

/-! ## What the status objects read (R184, R185) -/

section

variable (s : State) (p : Nat)

@[simp] theorem State.atPublish_atl : (s.atPublish p).atl = s.atl :=
  of_see (fun s => s.atl) (State.atPublish_see _ (fun _ _ h => h .atl rfl) s p)

@[simp] theorem State.atPublish_apipes : (s.atPublish p).apipes = s.apipes :=
  of_see (fun s => s.apipes) (State.atPublish_see _ (fun _ _ h => h .apipes rfl) s p)

@[simp] theorem State.atPublish_epochs : (s.atPublish p).epochs = s.epochs :=
  of_see (fun s => s.epochs) (State.atPublish_see _ (fun _ _ h => h .epochs rfl) s p)

@[simp] theorem State.atPublish_out : (s.atPublish p).out = s.out :=
  of_see (fun s => s.out) (State.atPublish_see _ (fun _ _ h => h .out rfl) s p)

@[simp] theorem atp_atPublish (q : Nat) : (s.atPublish p).atp q = s.atp q := by simp only [State.atp, State.atPublish_atl]

@[simp] theorem atPipe_atPublish (q : Nat) : (s.atPublish p).atPipe q = s.atPipe q := by
  simp only [State.atPipe, State.atPublish_apipes]

@[simp] theorem rdN_putBlob (o o' : ObjRow) (b e b' e' : Nat) (v : List Byte) :
    (s.putBlob o b e v).rdN o' b' e' = s.rdN o' b' e' := rfl

/-- R184: LOADING, STAGED, PREVIOUS_HELD, LIVE and none, the first that applies. -/
theorem rdN_atState_atPublish : (s.atPublish p).rdN Obj.AT_STATE p =
    if (s.atp p).loading.isSome then 1 else if (s.atStaged p).isSome then 2 else if (s.atp p).holdLine.isSome then 4
      else if (s.rdBlob Obj.AT_BLOB p).isEmpty then 0 else 3 := by
  simp (disch := (apply key_ne_of_index_ne; decide)) only [State.atPublish, rdN_putN_other, rdN_putBlob, rdN_putN_same]

/-- R184: the ATLAS_ID of the staged atlas. -/
theorem rdN_atStagedId_atPublish {blob : List Byte} (hstaged : s.atStaged p = some blob) :
    (s.atPublish p).rdN Obj.AT_STAGED_ID p = atId blob := by
  simp (disch := (apply key_ne_of_index_ne; decide)) only [State.atPublish, hstaged, rdN_putN_other, rdN_putBlob, rdN_putN_same]

/-- R164: the line until which the previous atlas is held. -/
theorem rdN_atBusyUntil_atPublish : (s.atPublish p).rdN Obj.AT_BUSY_UNTIL p = (s.atp p).holdLine.getD 0 := by
  simp (disch := (apply key_ne_of_index_ne; decide)) only [State.atPublish, rdN_putN_other, rdN_putBlob, rdN_putN_same]

/-- The refusal code stands until the next refusal. -/
theorem rdN_atRefuseCode_atPublish : (s.atPublish p).rdN Obj.AT_REFUSE_CODE p = s.rdN Obj.AT_REFUSE_CODE p := by
  simp (disch := (apply key_ne_of_index_ne; decide)) only [State.atPublish, rdN_putN_other, rdN_putBlob]

/-- R185: LIVE, LOADING, STAGED and PREVIOUS_HELD follow the atlas; the other bits stand. -/
theorem rdN_atStatus_atPublish : (s.atPublish p).rdN Obj.AT_STATUS p =
    withBit (withBit (withBit (withBit (s.rdN Obj.AT_STATUS p) 1 (!(s.rdBlob Obj.AT_BLOB p).isEmpty)) 2
      (s.atp p).loading.isSome) 3 (s.atStaged p).isSome) 5 (s.atp p).holdLine.isSome := by
  simp (disch := (apply key_ne_of_index_ne; decide)) only [State.atPublish, rdN_putN_other, rdN_putBlob, rdN_putN_same]

/-- R185: REFUSED. -/
theorem bit_refused_atPublish : (s.atPublish p).bit Obj.AT_STATUS p 0 4 = s.bit Obj.AT_STATUS p 0 4 := by
  simp [State.bit, rdN_atStatus_atPublish, testBit_withBit_other]

/-- R185: PREVIOUS_HELD. -/
theorem bit_previousHeld_atPublish : (s.atPublish p).bit Obj.AT_STATUS p 0 5 = (s.atp p).holdLine.isSome := by
  simp [State.bit, rdN_atStatus_atPublish, testBit_withBit_same]

end

/-! ## A refusal (R160) -/

section

variable (s : State) (p : Fin 12) (code : Nat)

@[simp] theorem State.atRefuse_atl : (s.atRefuse p code).atl = s.atl :=
  of_see (fun s => s.atl) (State.atRefuse_see _ (fun _ _ h => h .atl rfl) s p code)

@[simp] theorem State.atRefuse_epochs : (s.atRefuse p code).epochs = s.epochs :=
  of_see (fun s => s.epochs) (State.atRefuse_see _ (fun _ _ h => h .epochs rfl) s p code)

@[simp] theorem atp_atRefuse (q : Nat) : (s.atRefuse p code).atp q = s.atp q := by simp only [State.atp, State.atRefuse_atl]

/-- The events of a refusal leave the registers that are none of theirs. -/
theorem rdN_atRefuse {o : ObjRow} {b e : Nat} (h : isEventReg (o.key b e) = false) :
    (s.atRefuse p code).rdN o b e = ((s.putN Obj.AT_REFUSE_CODE p 0 code).setBit Obj.AT_STATUS p 0 4 true).rdN o b e := by
  unfold State.atRefuse
  by_cases hbusy : code = 6 <;> simp [hbusy, h]

theorem rdN_atRefuseCode_atRefuse : (s.atRefuse p code).rdN Obj.AT_REFUSE_CODE p = code := by
  rw [rdN_atRefuse s p code (isEventReg_portRow p (by decide)),
    rdN_setBit_other _ _ _ _ _ _ _ _ _ (key_ne_of_index_ne (by decide)), rdN_putN_same]

theorem bit_refused_atRefuse : (s.atRefuse p code).bit Obj.AT_STATUS p 0 4 = true := by
  rw [State.bit, rdN_atRefuse s p code (isEventReg_portRow p (by decide))]
  exact bit_setBit_same _ _ _ _ _ _

end

/-! ## A blob arrives (R160 to R162) -/

section

variable {s : State} {t : Nat} {path : Path} {p : Fin 12} {blob : List Byte}

/-- R160, R161: a blob that passes the checks made on arrival cancels a running load, with code 7, and its own load starts. -/
def State.atStart (s : State) (p : Nat) (blob : List Byte) (scratch : Bool) : State :=
  let s := if (s.atp p).loading.isSome then s.atRefuse p 7 else s
  ((s.setAt p { s.atp p with loading := some blob, fromScratch := scratch }).setBit Obj.AT_STATUS p 0 4 false).atPublish p

/-- R160: the checks look at nothing that a request's arrival changes. -/
@[simp] theorem atCheck_at_touch (s : State) (t : Nat) (path : Path) (p : Nat) (blob : List Byte) :
    ((s.at t).touch path).atCheck p blob = s.atCheck p blob := rfl

theorem atArrive_of_pass {k : Nat} {scratch : Bool} (hpass : s.atCheck p blob = 0) :
    s.atArrive path p k blob scratch = (s.atStart p blob scratch).answer path k 0 := by
  simp only [State.atArrive, hpass, State.atStart]

theorem atArrive_of_fail {k : Nat} {scratch : Bool} (hfail : s.atCheck p blob ≠ 0) :
    s.atArrive path p k blob scratch =
      ((s.atRefuse p (s.atCheck p blob)).atPublish p).answer path k (if s.atCheck p blob = 6 then 8 else 5) := by
  -- `hfail` rules out the arm of code 0
  simp only [State.atArrive]

theorem atp_atStart (scratch : Bool) :
    (s.atStart p blob scratch).atp p = { s.atp p with loading := some blob, fromScratch := scratch } := by
  have hset : ∀ u : State, u.atp p = s.atp p →
      (((u.setAt p { u.atp p with loading := some blob, fromScratch := scratch }).setBit Obj.AT_STATUS p 0 4 false).atPublish
        p).atp p = { s.atp p with loading := some blob, fromScratch := scratch } := fun u hu => by
    rw [atp_atPublish, ← hu]
    exact atp_setAt_same u p _
  unfold State.atStart
  split
  · exact hset _ (atp_atRefuse s p 7 p)
  · exact hset _ rfl

/-- R161: AT_STATE reads LOADING. -/
theorem rdN_atState_atStart (scratch : Bool) : (s.atStart p blob scratch).rdN Obj.AT_STATE p = 1 := by
  have hloading := congrArg AtPort.loading (atp_atStart (s := s) (p := p) (blob := blob) scratch)
  unfold State.atStart at hloading ⊢
  rw [rdN_atState_atPublish]
  rw [atp_atPublish] at hloading
  simp only [hloading, Option.isSome_some, if_true]

/-- R185: REFUSED goes. -/
theorem bit_refused_atStart (scratch : Bool) : (s.atStart p blob scratch).bit Obj.AT_STATUS p 0 4 = false := by
  unfold State.atStart
  exact (bit_refused_atPublish _ p).trans (bit_setBit_same ..)

theorem out_atStart_of_idle (scratch : Bool) (hidle : (s.atp p).loading = none) : (s.atStart p blob scratch).out = s.out := by
  simp only [State.atStart, hidle, State.atPublish_out]
  rfl

/-- R160, R161: a write of `AT_BLOB` that the access checks pass. -/
theorem exec_atBlobWrite_of_access (hacc : s.checkAccess path Obj.AT_BLOB p 0 blob.length = 0) :
    exec (.atBlobWrite t path p blob) s = .next (((s.at t).touch path).atArrive path p (Obj.AT_BLOB.key p 0) blob false) := by
  have hacc' := (checkAccess_at_touch s t path path Obj.AT_BLOB p 0 blob.length).trans hacc
  show execAtBlobWrite t path p blob s = _
  simp only [execAtBlobWrite, hacc']

/-- R161: a load from scratch takes the bytes there (log entry 20). -/
theorem exec_atLoad_of_inScratch (hacc : s.checkAccess path Obj.AT_LOAD_CMD p 0 1 = 0)
    (hin : s.inScratch (s.rdN Obj.AT_LOAD_ADDR p) (s.rdN Obj.AT_LOAD_BYTES p) = true) :
    exec (.atLoad t path p) s = .next (((s.at t).touch path).atArrive path p (Obj.AT_LOAD_CMD.key p 0)
      (s.memBytes (s.rdN Obj.AT_LOAD_ADDR p) (s.rdN Obj.AT_LOAD_BYTES p)) true) := by
  have hacc' := (checkAccess_at_touch s t path path Obj.AT_LOAD_CMD p 0 1).trans hacc
  have hin' : ((s.at t).touch path).inScratch (s.rdN Obj.AT_LOAD_ADDR p) (s.rdN Obj.AT_LOAD_BYTES p) = true := hin
  show execAtLoad t path p s = _
  simp only [execAtLoad, hacc']
  exact if_neg (by simp [hin'])

/-- R162: one outside scratch is refused. -/
theorem exec_atLoad_of_outside (hacc : s.checkAccess path Obj.AT_LOAD_CMD p 0 1 = 0)
    (hout : s.inScratch (s.rdN Obj.AT_LOAD_ADDR p) (s.rdN Obj.AT_LOAD_BYTES p) = false) :
    exec (.atLoad t path p) s =
      .next (((((s.at t).touch path).atRefuse p 8).atPublish p).answer path (Obj.AT_LOAD_CMD.key p 0) 5) := by
  have hacc' := (checkAccess_at_touch s t path path Obj.AT_LOAD_CMD p 0 1).trans hacc
  have hout' : ((s.at t).touch path).inScratch (s.rdN Obj.AT_LOAD_ADDR p) (s.rdN Obj.AT_LOAD_BYTES p) = false := hout
  show execAtLoad t path p s = _
  simp only [execAtLoad, hacc']
  exact if_pos (by simp [hout'])

/-- R161: a running load is cancelled with code 7. -/
theorem exec_atLoadCancel_of_loading (hacc : s.checkAccess path Obj.AT_LOAD_CMD p 0 1 = 0)
    (hload : (s.atp p).loading = some blob) :
    exec (.atLoadCancel t path p) s = .next ((((((s.at t).touch path).setAt p { s.atp p with loading := none }).atRefuse p
      7).atPublish p).answer path (Obj.AT_LOAD_CMD.key p 0) 0) := by
  have hacc' := (checkAccess_at_touch s t path path Obj.AT_LOAD_CMD p 0 1).trans hacc
  have hload' : (((s.at t).touch path).atp p).loading = some blob := hload
  show execAtLoadCancel t path p s = _
  simp only [execAtLoadCancel, hacc', hload', Option.isSome_some, if_true]
  rfl

end

/-! ## A load ends (R160, R161) -/

section

variable {s : State} {t : Nat} {p : Fin 12} {blob : List Byte}

/-- R161: a loaded atlas goes to the DRAM image and the shadow copies of its holders, and is staged. -/
def State.atStage (s : State) (p : Nat) (blob : List Byte) : State :=
  let s := s.setAt p { s.atp p with other := atlasImage blob }
  let s := s.atEach p (fun x => { x with s0 := blob, s1 := blob })
  s.stageEpochBlob Obj.AT_BLOB p 0 blob

/-- The end of the load of `blob`: refused with code 4 or 3, or staged. -/
theorem exec_atLoadDone_of_loading (hload : (s.atp p).loading = some blob) :
    exec (.atLoadDone t p) s =
      let u := (s.at t).setAt p { s.atp p with loading := none }
      if atSigKind blob = 1 && !s.blobSigned blob (atKeyId blob) 0 then .next ((u.atRefuse p 4).atPublish p)
      else if !atBodyOk blob then .next ((u.atRefuse p 3).atPublish p)
      else .next ((u.atStage p blob).atPublish p) := by
  have hload' : ((s.at t).atp p).loading = some blob := hload
  show execAtLoadDone t p s = _
  simp only [execAtLoadDone, hload']
  rfl

/-- R160 check 7: the signature does not fail. -/
theorem atSignature_of_kind (hsig : atSigKind blob = 0 ∨ (atSigKind blob = 1 ∧ s.blobSigned blob (atKeyId blob) 0 = true)) :
    (atSigKind blob = 1 && !s.blobSigned blob (atKeyId blob) 0) = false := by
  rcases hsig with hkind | ⟨-, hsigned⟩
  · simp [hkind]
  · simp [hsigned]

/-- R158, R165: a body that holds is not empty, and its atlas has an image. -/
theorem atlasImage_blob_of_bodyOk (hbody : atBodyOk blob = true) : (atlasImage blob).map (fun i => i.blob) = some blob := by
  cases blob with
  | nil => exact absurd hbody (by decide)
  | cons b r => rfl

/-- R163: every holder of a port's atlas takes the change, once or more often where the change made twice is the change. -/
theorem atPipe_atEach_of_holder (u : State) (f : AtlasPipe → AtlasPipe) {q : Nat} (hf : ∀ x, f (f x) = f x)
    (hq : q ∈ u.atHolders p) : (u.atEach p f).atPipe q = f (u.atPipe q) := by
  have hfold : ∀ (l : List Nat) (v : State),
      (l.foldl (fun s r => s.setAtPipe r (f (s.atPipe r))) v).atPipe q = if q ∈ l then f (v.atPipe q) else v.atPipe q := by
    intro l
    induction l with
    | nil => intro v; rfl
    | cons r l ih =>
      intro v
      rw [List.foldl_cons, ih]
      by_cases hqr : q = r
      · subst hqr
        simp [hf]
      · simp [hqr, atPipe_setAtPipe_other]
  rw [State.atEach, hfold, if_pos hq]


theorem atp_atStage : (s.atStage p blob).atp p = { s.atp p with other := atlasImage blob } := by
  have hatl : (s.atStage p blob).atl = (s.setAt p { s.atp p with other := atlasImage blob }).atl :=
    (of_see (fun s => s.atl) (State.stageEpochBlob_see _ (fun _ _ h => h .atl rfl) ..)).trans
      (of_see (fun s => s.atl) (State.atEach_see _ (fun _ _ h => h .atl rfl) ..))
  rw [State.atp, hatl]
  exact atp_setAt_same s p _

theorem atPipe_atStage_of_holder {q : Nat} (hq : q ∈ s.atHolders p) :
    (s.atStage p blob).atPipe q = { s.atPipe q with s0 := blob, s1 := blob } := by
  have hstage : ∀ u : State, (u.stageEpochBlob Obj.AT_BLOB p 0 blob).apipes = u.apipes := fun u =>
    of_see (fun s => s.apipes) (State.stageEpochBlob_see _ (fun _ _ h => h .apipes rfl) u _ _ _ _)
  unfold State.atStage State.atPipe
  rw [hstage]
  exact atPipe_atEach_of_holder (s.setAt p { s.atp p with other := atlasImage blob }) _ (fun _ => rfl) hq

theorem atStaged_atStage : (s.atStage p blob).atStaged p = some blob :=
  find?_stagedBlobs_stageEpochBlob _ _ _ _ rfl

end

/-! ## Holds, shadow reloads and scrub passes (R156, R164) -/

section

variable {s : State} {t : Nat}

/-- R164: a hold whose line is reached ends. -/
theorem exec_atlasHoldEnd_of_reached {p : Fin 12} {l : Nat} (hhold : (s.atp p).holdLine = some l)
    (hreached : l ≤ s.presentLine (s.portGroup p)) :
    exec (.atlasHoldEnd t p) s = .next ((s.at t).atRelease p) := by
  have hhold' : ((s.at t).atp p).holdLine = some l := hhold
  have hheld : (s.at t).atHeld p = false := by
    simp only [State.atHeld, hhold']
    exact decide_eq_false (Nat.not_lt.mpr hreached)
  show execAtlasHoldEnd t p s = _
  simp [execAtlasHoldEnd, hhold', hheld]

/-- R164: one whose line is still to come stands. -/
theorem exec_atlasHoldEnd_of_not_reached {p : Fin 12} {l : Nat} (hhold : (s.atp p).holdLine = some l)
    (hahead : s.presentLine (s.portGroup p) < l) : exec (.atlasHoldEnd t p) s = .next (s.at t) := by
  have hhold' : ((s.at t).atp p).holdLine = some l := hhold
  have hheld : (s.at t).atHeld p = true := by
    simp only [State.atHeld, hhold']
    exact decide_eq_true hahead
  show execAtlasHoldEnd t p s = _
  simp [execAtlasHoldEnd, hhold', hheld]

/-- R156: the image that the shadows of a pipeline are reloaded from; their own contents where DRAM has none. -/
def State.shadowImage (s : State) (p q : Nat) : List Byte :=
  ((if (s.atPipe q).ahead then (s.atp p).image else (s.atp p).other).map (fun i => i.blob)).getD (s.atPipe q).s0

/-- R156: the reload of the shadows of a serving pipeline begins, and ends. -/
theorem exec_atlasShadowReload_of_serving {p : Fin 12} {done : Bool} (hserved : s.pipelineOf p < 13) :
    exec (.atlasShadowReload t p done) s =
      .next (if done then (s.at t).setAtPipe (s.pipelineOf p) { s.atPipe (s.pipelineOf p) with
          s0 := s.shadowImage p (s.pipelineOf p), s1 := s.shadowImage p (s.pipelineOf p), reloading := false }
        else (s.at t).shadowFail (s.pipelineOf p)) := by
  have hserved' : ¬ 13 ≤ (s.at t).pipelineOf p := Nat.not_le.mpr hserved
  show execAtlasShadowReload t p done s = _
  cases done
  · simp only [execAtlasShadowReload, if_neg hserved']
    rfl
  · simp only [execAtlasShadowReload, if_neg hserved']
    rfl

/-- R156: a pass that is due, of a running pipeline, without a word in error. -/
theorem exec_atlasScrubPass_of_due {q : Fin 13} (hscrub : s.scrubbing = true)
    (hdue : (s.atPipe q).scrubFrom + s.scrubPeriod q ≤ max s.now t) (hruns : s.islandRuns (2 + q.val) = true) :
    exec (.atlasScrubPass t q []) s = .next (((s.at t).scrubPass q []).1) := by
  have hscrub' : (s.at t).scrubbing = true := hscrub
  have hruns' : (s.at t).islandRuns (2 + q.val) = true := hruns
  have hdue' : decide (((s.at t).atPipe q).scrubFrom + (s.at t).scrubPeriod q ≤ (s.at t).now) = true := decide_eq_true hdue
  show execAtlasScrubPass t q [] s = _
  simp only [execAtlasScrubPass, hscrub', hruns', hdue', Bool.not_true, Bool.or_false, Bool.false_eq_true, if_false]
  rfl

/-- R156: before its period has passed no pass ends. -/
theorem exec_atlasScrubPass_of_early {q : Fin 13} {upsets : List AtlasUpset}
    (hearly : max s.now t < (s.atPipe q).scrubFrom + s.scrubPeriod q) :
    exec (.atlasScrubPass t q upsets) s = .next (s.at t) := by
  have hdue : decide (((s.at t).atPipe q).scrubFrom + (s.at t).scrubPeriod q ≤ (s.at t).now) = false :=
    decide_eq_false (Nat.not_le.mpr hearly)
  show execAtlasScrubPass t q upsets s = _
  simp only [execAtlasScrubPass, hdue, Bool.not_false, Bool.or_true, Bool.true_or, if_true]

/-- R156: a pass without a word in error counts on the port its pipeline serves. -/
theorem scrubPass_nil_of_port {q p : Nat} (hport : s.portOf q = some p) :
    (s.scrubPass q []).1 = (s.count Obj.AT_SCRUB_PASSES p 0 1).setAtPipe q { s.atPipe q with scrubFrom := s.now } := by
  simp only [State.scrubPass, hport]
  rfl

/-- R156, log entry 263: the pass of a spare counts on no port. -/
theorem scrubPass_nil_of_spare {q : Nat} (hspare : s.portOf q = none) :
    (s.scrubPass q []).1 = s.setAtPipe q { s.atPipe q with scrubFrom := s.now } := by
  simp only [State.scrubPass, hspare]
  rfl

end

/-- Settles O10: each command's equation names the state after it, and the status objects are read off `atPublish`. -/
theorem atlases : Obligations.Atlases := by
  unfold Obligations.Atlases
  refine ⟨?written, ?refused, ?loaded, ?outside, ?cancelled, ?staged, ?badBody, ?badSignature, ?released, ?held, ?reload,
    ?reloaded, ?pass, ?sparePass, ?early⟩
  case written =>
    intro s t path p blob hacc hpass hidle
    have hnext := exec_atBlobWrite_of_access (t := t) hacc
    rw [atArrive_of_pass (s := (s.at t).touch path) hpass] at hnext
    refine ⟨_, hnext, ?_, ?_, ?_, ?_⟩
    · simp [atp_atStart]
    · simp [rdN_atState_atStart]
    · simp [bit_refused_atStart]
    · simp [out_atStart_of_idle (s := (s.at t).touch path) _ hidle]
  case refused =>
    intro s t path p blob hacc hfail
    have hnext := exec_atBlobWrite_of_access (t := t) hacc
    rw [atArrive_of_fail (s := (s.at t).touch path) hfail, atCheck_at_touch] at hnext
    refine ⟨_, hnext, ?_, ?_, ?_, ?_, ?_⟩
    · simp [rdN_atRefuseCode_atPublish, rdN_atRefuseCode_atRefuse]
    · simp [bit_refused_atPublish, bit_refused_atRefuse]
    · simp
    · simp
    · simp
  case loaded =>
    intro s t path p hacc hin hpass
    have hnext := exec_atLoad_of_inScratch (t := t) hacc hin
    rw [atArrive_of_pass (s := (s.at t).touch path) hpass] at hnext
    refine ⟨_, hnext, ?_, ?_, ?_⟩
    · simp [atp_atStart]
    · simp [atp_atStart]
    · simp [rdN_atState_atStart]
  case outside =>
    intro s t path p hacc hout
    refine ⟨_, exec_atLoad_of_outside hacc hout, ?_, ?_, ?_⟩
    · simp [rdN_atRefuseCode_atPublish, rdN_atRefuseCode_atRefuse]
    · simp
    · simp
  case cancelled =>
    intro s t path p blob hacc hload
    refine ⟨_, exec_atLoadCancel_of_loading hacc hload, ?_, ?_, ?_, ?_⟩
    · simp
    · simp [rdN_atRefuseCode_atPublish, rdN_atRefuseCode_atRefuse]
    · simp
    · simp
  case staged =>
    intro s t p blob q hload hsig hbody hholder
    have hnext := exec_atLoadDone_of_loading (t := t) hload
    simp only [atSignature_of_kind hsig, hbody, Bool.not_true, Bool.false_eq_true, if_false] at hnext
    have hq : q ∈ s.atHolders p := List.contains_iff_mem.mp hholder
    have hpipe := atPipe_atStage_of_holder (s := (s.at t).setAt p { s.atp p with loading := none }) (blob := blob) hq
    refine ⟨_, hnext, ?_, ?_, ?_, ?_, ?_, ?_, ?_⟩
    · simp [atp_atStage]
    · simp [atp_atStage, atlasImage_blob_of_bodyOk hbody]
    · simp [hpipe]
    · simp [hpipe]
    · rw [State.atPublish_epochs]
      exact atStaged_atStage
    · simp [rdN_atState_atPublish, atp_atStage, atStaged_atStage]
    · exact rdN_atStagedId_atPublish _ _ atStaged_atStage
  case badBody =>
    intro s t p blob hload hsig hbody
    have hnext := exec_atLoadDone_of_loading (t := t) hload
    simp only [atSignature_of_kind hsig, hbody, Bool.not_false, Bool.false_eq_true, if_false, if_true] at hnext
    refine ⟨_, hnext, ?_, ?_, ?_⟩
    · simp
    · simp [rdN_atRefuseCode_atPublish, rdN_atRefuseCode_atRefuse]
    · simp
  case badSignature =>
    intro s t p blob hload hkind hsigned
    have hnext := exec_atLoadDone_of_loading (t := t) hload
    simp only [hkind, hsigned, decide_true, Bool.not_false, Bool.and_self, if_true] at hnext
    refine ⟨_, hnext, ?_, ?_, ?_⟩
    · simp
    · simp [rdN_atRefuseCode_atPublish, rdN_atRefuseCode_atRefuse]
    · simp
  case released =>
    intro s t p l hhold hreached
    refine ⟨_, exec_atlasHoldEnd_of_reached hhold hreached, ?_, ?_, ?_⟩
    · simp [State.atRelease]
    · simp [State.atRelease, rdN_atBusyUntil_atPublish]
    · simp [State.atRelease, bit_previousHeld_atPublish]
  case held =>
    intro s t p l hhold hahead
    exact ⟨_, exec_atlasHoldEnd_of_not_reached hhold hahead, rfl, rfl⟩
  case reload =>
    intro s t p done hserved
    refine ⟨_, exec_atlasShadowReload_of_serving hserved, ?_⟩
    cases done
    · exact ⟨by simp [State.shadowFail], rfl, rfl⟩
    · exact ⟨by simp, rfl, rfl⟩
  case reloaded =>
    intro s t p i hserved hahead hother
    have himage : s.shadowImage p (s.pipelineOf p) = i.blob := by simp [State.shadowImage, hahead, hother]
    exact ⟨_, exec_atlasShadowReload_of_serving hserved, by simp [himage], by simp [himage]⟩
  case pass =>
    intro s t q p hscrub hdue hruns hport
    have hnext := exec_atlasScrubPass_of_due hscrub hdue hruns
    rw [scrubPass_nil_of_port (s := s.at t) hport] at hnext
    refine ⟨_, hnext, ?_, ?_, ?_⟩
    · exact rdN_count_same (s.at t) _ _ _ _
    · simp
    · exact fun d k hk => look_store_other _ _ _ _ _ _ hk
  case sparePass =>
    intro s t q hscrub hdue hruns hspare
    have hnext := exec_atlasScrubPass_of_due hscrub hdue hruns
    rw [scrubPass_nil_of_spare (s := s.at t) hspare] at hnext
    exact ⟨_, hnext, rfl, by simp⟩
  case early =>
    intro s t q upsets hearly
    exact ⟨_, exec_atlasScrubPass_of_early hearly, rfl⟩

end Sys2Proof.Machine

end

section
/-! The first line of a part that leaves segmentation (spec/06_atlas_and_segmentation.md, R181; spec/07_stitching.md, R194). -/

namespace Sys2Proof.Machine

open Sys2Proof

/-- A part of lines 3 and 4 whose sums know of an object site on line 4 alone. Its sums are those of one site, at column 1.
Segmentation adds the sites of a part's first line to its sums, so no command leaves such a part; the obligation speaks of
every state. -/
def latePart : SgObj :=
  { id := 1, key := some 0, port := 2, group := 1, epoch := 0, first := 3, last := 4, anchorLine := 3, anchorCol := 1,
    acc := {
      area := 1, minCol := some 1, maxCol := 1, sc := 1, sl := 1, scc := 1, sll := 1, scl := 1,
      firstL := some 4, lastL := 4, anchor := 1 } }

/-- The state after reset, with `latePart` closed on port 2. -/
def latePartState : State := State.reset.setSg 2 { done := [latePart] }

set_option maxRecDepth 20000 in
/-- R196, R202: the object that `latePart` becomes takes its first line from its sums (`State.halfWith`), not from the part. -/
theorem latePartState_judged_first :
    (afterRow (exec (.objectLeaveSeg 0 2) latePartState) latePartState).judged.map (fun j => j.first) = [4] := by
  decide

/-- Refutes O12 in its clause of the part that leaves: the object on its way to the verdict need not have the part's first line
and sums. `latePart` begins on line 3, and its object on line 4. -/
theorem not_seamTraffic : ¬ Obligations.SeamTraffic := by
  unfold Obligations.SeamTraffic
  rintro ⟨leaves, -⟩
  obtain ⟨u, hnext, -, -, hsame, -⟩ := leaves latePartState 0 2 latePart [] rfl rfl rfl (by decide) (by decide)
  have hfirst := latePartState_judged_first
  rw [hnext] at hfirst
  obtain ⟨j, hj, hj3⟩ := List.any_eq_true.mp hsame
  have hj4 : j.first ∈ [4] := hfirst ▸ List.mem_map_of_mem hj
  simp [List.mem_singleton.mp hj4, latePart] at hj3

end Sys2Proof.Machine

end

section
/-! A sort program and a class table entry, staged for the next epoch or refused, and the end of a hold
(spec/06_atlas_and_segmentation.md, R168; spec/08_trajectory_and_verdict.md, R217, R220, R237). -/

namespace Sys2Proof.Machine

open Sys2Proof

/-! ## Staging a value of a group for the next epoch (R18, R31, R34) -/

/-- R34: the device's own declaration writes `EPOCH_PENDING` alone. -/
theorem rdN_declareOwn (s : State) (g : Nat) {o : ObjRow} {b e : Nat} (h : o.key b e ≠ Obj.EPOCH_PENDING.key 0 g) :
    (s.declareOwn g).rdN o b e = s.rdN o b e := by
  unfold State.declareOwn
  split
  · exact rdN_putN_other _ _ _ _ _ _ _ _ h
  · rfl

section

variable (s : State) {o : ObjRow} (b e : Nat)

/-- R31: a blob of an object with a value for each group is staged for that group, which has an epoch declared. -/
theorem stageEpochBlob_of_group (v : List Byte) (hgroup : o.scope = .group) :
    s.stageEpochBlob o b e v = { s.noteWrite o b e with epochs := { (s.noteWrite o b e).epochs with
      stagedBlobs := enlist (s.noteWrite o b e).epochs.stagedBlobs (o.key b e) v } }.declareOwn b := by
  simp [State.stageEpochBlob, State.stageGroups, State.groupOf, epochKey, hgroup]

/-- R31: the same of a number. -/
theorem stageEpoch_of_group (v : Int) (hgroup : o.scope = .group) :
    s.stageEpoch o b e v =
      { s with epochs := { s.epochs with staged := enlist s.epochs.staged (o.key b e) v } }.declareOwn b := by
  simp [State.stageEpoch, State.stageGroups, State.groupOf, epochKey, hgroup]

theorem find?_stagedBlobs_stageEpochBlob_group (v : List Byte) (hgroup : o.scope = .group) :
    find? (s.stageEpochBlob o b e v).epochs.stagedBlobs (o.key b e) = some v := by
  rw [stageEpochBlob_of_group s b e v hgroup, State.declareOwn_epochs, find?_enlist_same]

theorem find?_staged_stageEpoch_group (v : Int) (hgroup : o.scope = .group) :
    find? (s.stageEpoch o b e v).epochs.staged (o.key b e) = some v := by
  rw [stageEpoch_of_group s b e v hgroup, State.declareOwn_epochs, find?_enlist_same]

theorem rdN_stageEpochBlob_group (v : List Byte) (hgroup : o.scope = .group) {o' : ObjRow} {b' e' : Nat}
    (h : o'.key b' e' ≠ Obj.EPOCH_PENDING.key 0 b) : (s.stageEpochBlob o b e v).rdN o' b' e' = s.rdN o' b' e' := by
  have hnote : (s.noteWrite o b e).dict = s.dict := of_see (fun s => s.dict) (State.noteWrite_see _ (fun _ _ h => h .dict rfl) ..)
  rw [stageEpochBlob_of_group s b e v hgroup, rdN_declareOwn _ _ h]
  simp only [State.rdN, State.rd, hnote]

@[simp] theorem State.stageEpoch_out (v : Int) : (s.stageEpoch o b e v).out = s.out :=
  of_see (fun s => s.out) (State.stageEpoch_see _ (fun _ _ h => h .out rfl) s o b e v)

end

/-! ## A refusal (R217, R237) -/

/-- R449: a group's element of the verdict's rows is none of the registers of events. -/
theorem isEventReg_groupElem {o : ObjRow} (g : Fin 12) (h : o.sub = 0 ∧ 0x5100 ≤ o.index ∧ o.index < 0x5200) :
    isEventReg (o.key 0 g) = false := by
  obtain ⟨hsub, hlo, hhi⟩ := h
  exact evReg_false _ (by simp only [ObjRow.key, hsub]; omega)

section

variable (s : State) (g : Fin 12) (code : Nat)

@[simp] theorem State.vdRefuse_epochs (program : Bool) : (s.vdRefuse g code program).epochs = s.epochs :=
  of_see (fun s => s.epochs) (State.vdRefuse_see _ (fun _ _ h => h .epochs rfl) s g code program)

/-- The events of a refusal leave the registers that are none of theirs. -/
theorem rdN_vdRefuse (program : Bool) {o : ObjRow} {b e : Nat} (h : isEventReg (o.key b e) = false) :
    (s.vdRefuse g code program).rdN o b e =
      (if program then (s.putN Obj.VD_REFUSE_CODE 0 g code).putN Obj.VD_STATE 0 g 3
        else s.putN Obj.VD_REFUSE_CODE 0 g code).rdN o b e := by
  unfold State.vdRefuse
  by_cases hbusy : code = 7 <;> cases program <;> simp [hbusy, h]

theorem rdN_refuseCode_vdRefuse (program : Bool) : (s.vdRefuse g code program).rdN Obj.VD_REFUSE_CODE 0 g = code := by
  have hkey : Obj.VD_REFUSE_CODE.key 0 g ≠ Obj.VD_STATE.key 0 g := by
    simp only [ObjRow.key, Obj.VD_REFUSE_CODE, Obj.VD_STATE]; omega
  rw [rdN_vdRefuse s g code program (isEventReg_groupElem g (by decide))]
  cases program <;> simp [hkey]

theorem rdN_vdState_vdRefuse_program : (s.vdRefuse g code true).rdN Obj.VD_STATE 0 g = 3 := by
  rw [rdN_vdRefuse s g code true (isEventReg_groupElem g (by decide))]
  exact rdN_putN_same ..

end

/-! ## The writes, by the checks that decide them -/

section

variable {s : State} (t : Nat) {path : Path} {g : Fin 12}

/-- R217: the checks look at nothing that a request's arrival changes. -/
theorem vdCheck_at_touch (s : State) (t : Nat) (path : Path) (g : Nat) (blob : List Byte) :
    ((s.at t).touch path).vdCheck g blob = s.vdCheck g blob := rfl

theorem exec_vdProgramWrite_of_pass {blob : List Byte} (hacc : s.checkAccess path Obj.VD_PROGRAM g 0 blob.length = 0)
    (hpass : s.vdCheck g blob = 0) :
    exec (.vdProgramWrite t path g blob) s = .next (((((s.at t).touch path).putN Obj.VD_STATE 0 g 2).stageEpochBlob
      Obj.VD_PROGRAM g 0 blob).answer path (Obj.VD_PROGRAM.key g 0) 0) := by
  have hacc' := (checkAccess_at_touch s t path path Obj.VD_PROGRAM g 0 blob.length).trans hacc
  have hpass' := (vdCheck_at_touch s t path g blob).trans hpass
  show execVdProgramWrite t path g blob s = _
  simp only [execVdProgramWrite, hacc', hpass']

theorem exec_vdProgramWrite_of_fail {blob : List Byte} (hacc : s.checkAccess path Obj.VD_PROGRAM g 0 blob.length = 0)
    (hfail : s.vdCheck g blob ≠ 0) :
    exec (.vdProgramWrite t path g blob) s = .next ((((s.at t).touch path).vdRefuse g (s.vdCheck g blob) true).answer path
      (Obj.VD_PROGRAM.key g 0) (if s.vdCheck g blob = 7 then 8 else 5)) := by
  have hacc' := (checkAccess_at_touch s t path path Obj.VD_PROGRAM g 0 blob.length).trans hacc
  show execVdProgramWrite t path g blob s = _
  -- `hfail` rules out the arm of code 0
  simp only [execVdProgramWrite, hacc', vdCheck_at_touch]

/-- R220: a write of one element of the class table that the access checks pass. -/
theorem exec_classTableWrite_of_element {first : Fin 256} {values : List Byte} (hlen : values.length = 4)
    (hacc : s.checkAccess path Obj.CLASS_TABLE g first 4 = 0) :
    exec (.classTableWrite t path g first values) s =
      let u := (s.at t).touch path
      let k := Obj.CLASS_TABLE.key g first
      if !classEntryOk first (leAt values 0 4) then .next (u.answer path k 5)
      else if (s.vdg g).tableHold.isSome then .next ((u.vdRefuse g 7 false).answer path k 8)
      else .next ((u.stageEpoch Obj.CLASS_TABLE g first (leAt values 0 4)).answer path k 0) := by
  have hacc' := (checkAccess_at_touch s t path path Obj.CLASS_TABLE g first 4).trans hacc
  have hentries : classEntries first values = [(first.val, leAt values 0 4)] := by simp [classEntries, hlen]
  have hvdg : ((s.at t).touch path).vdg g = s.vdg g := rfl
  show execClassTableWrite t path g first values s = _
  simp [execClassTableWrite, hlen, hacc', hentries, hvdg]

end

/-- R237: the holds of a group that its present line has reached end, and the others stand. -/
theorem vdg_vdHolds (s : State) (g : Nat) : (s.vdHolds g).vdg g = { s.vdg g with
    progHold := (s.vdg g).progHold.filter (fun l => decide (s.presentLine g < l))
    tableHold := (s.vdg g).tableHold.filter (fun l => decide (s.presentLine g < l)) } := look_store_same _ _ _ _

/-- Settles O14: each write's checks name the state after it, and a hold is kept by the line it waits for. -/
theorem verdictPrograms : Obligations.VerdictPrograms := by
  unfold Obligations.VerdictPrograms
  refine ⟨?staged, ?refused, ?entryStaged, ?entryRefused, ?tableHeld, ?holdEnds, ?holdStands⟩
  case staged =>
    intro s t path g blob hacc hpass
    have hkey : Obj.VD_STATE.key 0 g ≠ Obj.EPOCH_PENDING.key 0 g := by
      simp only [ObjRow.key, Obj.VD_STATE, Obj.EPOCH_PENDING]; omega
    refine ⟨_, exec_vdProgramWrite_of_pass t hacc hpass, ?_, ?_, ?_⟩
    · exact find?_stagedBlobs_stageEpochBlob_group _ _ _ _ rfl
    · exact (rdN_stageEpochBlob_group _ _ _ _ rfl hkey).trans (rdN_putN_same ..)
    · simp
  case refused =>
    intro s t path g blob hacc hfail
    refine ⟨_, exec_vdProgramWrite_of_fail t hacc hfail, ?_, ?_, ?_, ?_⟩
    · simp [rdN_refuseCode_vdRefuse]
    · simp [rdN_vdState_vdRefuse_program]
    · simp
    · simp
  case entryStaged =>
    intro s t path g first values hlen hacc hok hfree
    have hnext := exec_classTableWrite_of_element t hlen hacc
    simp only [hok, hfree, Bool.not_true, Bool.false_eq_true, Option.isSome_none, if_false] at hnext
    refine ⟨_, hnext, ?_, ?_⟩
    · exact find?_staged_stageEpoch_group _ _ _ _ rfl
    · simp
  case entryRefused =>
    intro s t path g first values hlen hacc hbad
    have hnext := exec_classTableWrite_of_element t hlen hacc
    simp only [hbad, Bool.not_false, if_true] at hnext
    exact ⟨_, hnext, by simp, by simp⟩
  case tableHeld =>
    intro s t path g first values l hlen hacc hok hheld
    have hnext := exec_classTableWrite_of_element t hlen hacc
    simp only [hok, hheld, Bool.not_true, Bool.false_eq_true, Option.isSome_some, if_false, if_true] at hnext
    refine ⟨_, hnext, ?_, ?_, ?_⟩
    · simp [rdN_refuseCode_vdRefuse]
    · simp
    · simp
  case holdEnds =>
    intro s t g l hhold hreached
    refine ⟨(s.at t).vdHolds g, rfl, ?_, rfl⟩
    have hhold' : ((s.at t).vdg g).progHold = some l := hhold
    rw [vdg_vdHolds]
    simp only [hhold']
    exact Option.filter_some_neg (decide_eq_false (Nat.not_lt.mpr hreached))
  case holdStands =>
    intro s t g l hhold hahead
    refine ⟨(s.at t).vdHolds g, rfl, ?_⟩
    have hhold' : ((s.at t).vdg g).progHold = some l := hhold
    rw [vdg_vdHolds]
    simp only [hhold']
    exact Option.filter_some_pos (decide_eq_true hahead)

end Sys2Proof.Machine

end

section
/-! A column map, staged until PREOP's exit or refused, and the target calibration (spec/07_stitching.md, R189 to R191). -/

namespace Sys2Proof.Machine

open Sys2Proof

/-! ## Staging a blob for PREOP's exit (R17) -/

section

variable (s : State) (o : ObjRow) (b e : Nat) (v : List Byte)

theorem find?_stagedBlobs_stageBlob : find? (s.stageBlob o b e v).stagedBlobs (o.key b e) = some v := find?_enlist_same ..

@[simp] theorem State.stageBlob_dict : (s.stageBlob o b e v).dict = s.dict :=
  of_see (fun s => s.dict) (State.stageBlob_see _ (fun _ _ h => h .dict rfl) s o b e v)

@[simp] theorem State.stageBlob_out : (s.stageBlob o b e v).out = s.out :=
  of_see (fun s => s.out) (State.stageBlob_see _ (fun _ _ h => h .out rfl) s o b e v)

@[simp] theorem State.stageBlob_st : (s.stageBlob o b e v).st = s.st :=
  of_see (fun s => s.st) (State.stageBlob_see _ (fun _ _ h => h .st rfl) s o b e v)

end

/-- A register reads what the dictionary holds. -/
theorem rdN_of_dict {s u : State} (h : u.dict = s.dict) (o : ObjRow) (b e : Nat) : u.rdN o b e = s.rdN o b e := by
  simp only [State.rdN, State.rd, h]

/-! ## The write of a map (R189) -/

section

variable {s : State} {path : Path} {p : Fin 12} {blob : List Byte} (t : Nat)

/-- R189: a map that fits the layout and the width written last (log entry 63) is staged. -/
theorem exec_stMapWrite_of_ok (hacc : s.checkAccess path Obj.ST_MAP p 0 blob.length = 0)
    (hok : mapOk blob (rowWidth (s.lastN Obj.CAM_LAYOUT p) (s.lastN Obj.CAM_WIDTH p)) = true) :
    exec (.stMapWrite t path p blob) s =
      .next ((((s.at t).touch path).stageBlob Obj.ST_MAP p 0 blob).answer path (Obj.ST_MAP.key p 0) 0) := by
  have hacc' := (checkAccess_at_touch s t path path Obj.ST_MAP p 0 blob.length).trans hacc
  have hok' : mapOk blob (rowWidth (((s.at t).touch path).lastN Obj.CAM_LAYOUT p)
    (((s.at t).touch path).lastN Obj.CAM_WIDTH p)) = true := hok
  show execStMapWrite t path p blob s = _
  simp only [execStMapWrite, hacc', hok', if_true]

/-- R189: one that does not is refused with ST_MAP_REFUSED. -/
theorem exec_stMapWrite_of_not_ok (hacc : s.checkAccess path Obj.ST_MAP p 0 blob.length = 0)
    (hbad : mapOk blob (rowWidth (s.lastN Obj.CAM_LAYOUT p) (s.lastN Obj.CAM_WIDTH p)) = false) :
    exec (.stMapWrite t path p blob) s =
      .next ((((s.at t).touch path).raise .ST_MAP_REFUSED (Obj.ST_MAP.ident p)).answer path (Obj.ST_MAP.key p 0) 5) := by
  have hacc' := (checkAccess_at_touch s t path path Obj.ST_MAP p 0 blob.length).trans hacc
  have hbad' : mapOk blob (rowWidth (((s.at t).touch path).lastN Obj.CAM_LAYOUT p)
    (((s.at t).touch path).lastN Obj.CAM_WIDTH p)) = false := hbad
  show execStMapWrite t path p blob s = _
  simp only [execStMapWrite, hacc', hbad', Bool.false_eq_true, if_false]

end

/-! ## The queue of calibration requests (R519 to R524) -/

section

variable (s : State)

@[simp] theorem queue_setQueue (q : List CalRequest) : (s.setQueue q).cal.queue = q := rfl

/-- R540: of the registers the queue changes `CAL_QUEUE_USED` alone. -/
theorem rdN_setQueue (q : List CalRequest) {o : ObjRow} {b e : Nat} (h : o.key b e ≠ Obj.CAL_QUEUE_USED.key 0 0) :
    (s.setQueue q).rdN o b e = s.rdN o b e := rdN_putN_other _ _ _ _ _ _ _ _ h

/-- R522: a request that replaces none joins a queue with room. -/
theorem calEnqueue_of_room {r : CalRequest} (hnew : s.calRequest r.task r.target = none) (hroom : s.cal.queue.length < 16) :
    s.calEnqueue r = some (s.setQueue (s.cal.queue ++ [r])) := by
  simp only [State.calEnqueue, hnew, if_neg (Nat.not_le.mpr hroom)]

theorem rdN_calDone (task x : Nat) {o : ObjRow} {b e : Nat} (h : o.key b e ≠ Obj.CAL_QUEUE_USED.key 0 0) :
    (s.calDone task x).rdN o b e = s.rdN o b e := rdN_setQueue _ _ h

/-- R540: a list of values written to a row lies at that row's elements. -/
theorem rdN_putList (o' : ObjRow) (b' : Nat) (vs : List Int) {o : ObjRow} {b e : Nat}
    (h : o.key b e < o'.key b' 0) : (s.putList o' b' vs).rdN o b e = s.rdN o b e :=
  foldl_keep (fun s => s.rdN o b e) _ _ s fun a x _ =>
    rdN_put_other a o' o b' x.2 b e x.1 (by simp only [ObjRow.key] at h ⊢; omega)

/-- R524, R540: an accepted result changes registers of the calibration engine alone. -/
theorem rdN_calAccept (task target : Nat) {o : ObjRow} {b e : Nat} (h : o.key b e < Obj.CAL_LAST.key 0 0) :
    (s.calAccept task target).rdN o b e = s.rdN o b e := by
  have hdone : o.key b e ≠ Obj.CAL_DONE.key 0 task := by
    simp only [ObjRow.key, Obj.CAL_LAST, Obj.CAL_DONE] at h ⊢; omega
  rw [State.calAccept, State.calLast, rdN_putList _ _ _ _ h, rdN_count_other _ _ _ _ _ _ _ _ hdone]

@[simp] theorem State.calAccept_st (task target : Nat) : (s.calAccept task target).st = s.st :=
  of_see (fun s => s.st) (State.calAccept_see _ (fun _ _ h => h .st rfl) ..)

@[simp] theorem State.calAccept_stagedBlobs (task target : Nat) : (s.calAccept task target).stagedBlobs = s.stagedBlobs :=
  of_see (fun s => s.stagedBlobs) (State.calAccept_see _ (fun _ _ h => h .stagedBlobs rfl) ..)

@[simp] theorem State.calReject_st (task target cause : Nat) : (s.calReject task target cause).st = s.st :=
  of_see (fun s => s.st) (State.calReject_see _ (fun _ _ h => h .st rfl) ..)

@[simp] theorem State.calReject_stagedBlobs (task target cause : Nat) :
    (s.calReject task target cause).stagedBlobs = s.stagedBlobs :=
  of_see (fun s => s.stagedBlobs) (State.calReject_see _ (fun _ _ h => h .stagedBlobs rfl) ..)

end

/-! ## The start of a target calibration (R191) -/

/-- R191: the request that `ST_CAL_CMD` = 1 makes. -/
def State.targetRequest (s : State) : CalRequest := { task := 3, target := 0, forced := false, due := s.calDue 0, left := [0] }

section

variable (s : State)

/-- R525: that the tasks of all ports begin changes no view that the beginning of one does not. -/
theorem foldl_calWatch {α : Type} (φ : State → α) (h : ∀ (a : State) (k : Nat), φ (a.calWatch k) = φ a) :
    φ ((List.range 12).foldl (fun s p => s.calWatch (Obj.ST_MAP.key p 0)) s) = φ s :=
  foldl_keep φ _ _ s fun a _ _ => h a _

theorem rdN_stCalState_calStart : s.calStart.rdN Obj.ST_CAL_STATE = 1 := by
  rw [State.calStart, rdN_setQueue _ _ (by decide), foldl_calWatch _ (fun s => s.rdN Obj.ST_CAL_STATE) fun _ _ => rfl]
  exact rdN_putN_same s Obj.ST_CAL_STATE 0 0 1

theorem calDone_calStart : s.calStart.st.calDone = [] := by
  have hst : ∀ u q, (State.setQueue u q).st = u.st := fun _ _ => rfl
  rw [State.calStart, hst, foldl_calWatch _ (fun s => s.st) fun _ _ => rfl]

theorem length_queue_calStart : s.calStart.cal.queue.length = s.cal.queue.length := by
  rw [State.calStart, queue_setQueue, List.length_map, foldl_calWatch _ (fun s => s.cal.queue) fun _ _ => rfl]
  rfl

@[simp] theorem State.calStart_out : s.calStart.out = s.out :=
  of_see (fun s => s.out) (State.calStart_see _ (fun _ _ h => h .out rfl) s)

end

section

variable {s : State} {path : Path} (t : Nat)

/-- R191: a new request in ARMED joins the queue, and the calibration starts. -/
theorem exec_stCalStart_of_armed (hacc : s.checkAccess path Obj.ST_CAL_CMD 0 0 1 = 0) (hmode : s.mode = stArmed)
    (hidle : s.rdN Obj.ST_CAL_STATE ≠ 1) (hnew : s.calRequest 3 0 = none) (hroom : s.cal.queue.length < 16) :
    exec (.stCalStart t path) s =
      let u := (s.at t).touch path
      .next ((u.setQueue (u.cal.queue ++ [u.targetRequest])).calStart.answer path (Obj.ST_CAL_CMD.key 0 0) 0) := by
  have hacc' := (checkAccess_at_touch s t path path Obj.ST_CAL_CMD 0 0 1).trans hacc
  have hmode' : ¬ ((s.at t).touch path).mode ≠ stArmed := fun h => h hmode
  have hqueue := calEnqueue_of_room ((s.at t).touch path) (r := ((s.at t).touch path).targetRequest) hnew hroom
  have hidle' : ∀ q, ¬ (((s.at t).touch path).setQueue q).rdN Obj.ST_CAL_STATE = 1 := fun q => by
    rwa [rdN_setQueue _ _ (by decide)]
  show execStCalStart t path s = _
  simp only [State.targetRequest] at hqueue
  simp only [execStCalStart, hacc', if_neg hmode', hqueue, if_neg (hidle' _), State.targetRequest]

/-- R191: outside ARMED none is accepted. -/
theorem exec_stCalStart_of_not_armed (hacc : s.checkAccess path Obj.ST_CAL_CMD 0 0 1 = 0) (hmode : s.mode ≠ stArmed) :
    exec (.stCalStart t path) s = .next (((s.at t).touch path).answer path (Obj.ST_CAL_CMD.key 0 0) 4) := by
  have hacc' := (checkAccess_at_touch s t path path Obj.ST_CAL_CMD 0 0 1).trans hacc
  have hmode' : ((s.at t).touch path).mode ≠ stArmed := hmode
  show execStCalStart t path s = _
  simp only [execStCalStart, hacc', if_pos hmode']

/-- R191, R209: a running calibration is cancelled. -/
theorem exec_stCalCancel_of_running (hacc : s.checkAccess path Obj.ST_CAL_CMD 0 0 1 = 0) (hrun : s.rdN Obj.ST_CAL_STATE = 1) :
    exec (.stCalCancel t path) s =
      .next (((((s.at t).touch path).putN Obj.ST_CAL_STATE 0 0 0).calDone 3 0).answer path (Obj.ST_CAL_CMD.key 0 0) 0) := by
  have hacc' := (checkAccess_at_touch s t path path Obj.ST_CAL_CMD 0 0 1).trans hacc
  have hrun' : ((s.at t).touch path).rdN Obj.ST_CAL_STATE = 1 := hrun
  show execStCalCancel t path s = _
  simp only [execStCalCancel, hacc', if_pos hrun']

end

/-! ## The fit of a port (R191) -/

/-- R191: a port's fit is noted in `ST_CAL_RMS` and `ST_CAL_EDGES`. -/
def State.noteFit (s : State) (p : Nat) (fit : CalFit) : State :=
  (s.putN Obj.ST_CAL_RMS 0 p fit.rms).putN Obj.ST_CAL_EDGES 0 p fit.edges

/-- R191: port `p` is done; after the last enabled port the calibration ends. -/
def State.endPort (s : State) (p : Nat) (bad : Bool) : State :=
  let s := { s with st := { s.st with calDone := s.st.calDone ++ [p], calBad := s.st.calBad || bad } }
  if (List.range 12).all (fun k => !s.flag Obj.CAM_ENABLE k || s.st.calDone.contains k) then
    (s.putN Obj.ST_CAL_STATE 0 0 (if s.st.calBad then 3 else 2)).calDone 3 0
  else s

/-- R524, R525: the cause for which a fit is refused, if it is. -/
def State.fitCause (s : State) (p : Nat) (fit : CalFit) : Nat :=
  if s.calBeaten (Obj.ST_MAP.key p 0) then 3 else if fit.edges < 12 then 2 else 1

/-- R191, R525: the fit of port `p` becomes no map. -/
def State.fitFails (s : State) (p : Nat) (fit : CalFit) : Bool := s.fitRefused p fit || s.fitCause p fit == 3

/-- R191: the result of port `p`: refused, or its map staged. -/
def State.fitResult (s : State) (p : Nat) (fit : CalFit) : State :=
  if s.fitFails p fit then s.calReject 3 0 (s.fitCause p fit)
  else (s.stageBlob Obj.ST_MAP p 0 (fitMap (s.camC p) s.targetId fit)).calAccept 3 0

section

variable (s : State) (p : Nat) (fit : CalFit) (bad : Bool)

@[simp] theorem State.noteFit_st : (s.noteFit p fit).st = s.st := rfl

@[simp] theorem State.noteFit_stagedBlobs : (s.noteFit p fit).stagedBlobs = s.stagedBlobs := rfl

theorem rdN_stCalRms_noteFit : (s.noteFit p fit).rdN Obj.ST_CAL_RMS 0 p = fit.rms := by
  rw [State.noteFit, rdN_putN_other _ _ _ _ _ _ _ _ (by simp only [ObjRow.key, Obj.ST_CAL_RMS, Obj.ST_CAL_EDGES]; omega),
    rdN_putN_same]

theorem rdN_stCalEdges_noteFit : (s.noteFit p fit).rdN Obj.ST_CAL_EDGES 0 p = fit.edges := rdN_putN_same ..

@[simp] theorem State.fitResult_st : (s.fitResult p fit).st = s.st := by
  unfold State.fitResult
  split <;> simp

theorem stagedBlobs_fitResult_of_fails (h : s.fitFails p fit = true) : (s.fitResult p fit).stagedBlobs = s.stagedBlobs := by
  rw [State.fitResult, if_pos h, State.calReject_stagedBlobs]

/-- R191: the map of a fit that does not fail. -/
theorem find?_stagedBlobs_fitResult (h : s.fitFails p fit = false) :
    find? (s.fitResult p fit).stagedBlobs (Obj.ST_MAP.key p 0) = some (fitMap (s.camC p) s.targetId fit) := by
  rw [State.fitResult, if_neg (by simp [h]), State.calAccept_stagedBlobs, find?_stagedBlobs_stageBlob]

theorem rdN_fitResult (h : s.fitFails p fit = false) {o : ObjRow} {b e : Nat} (hkey : o.key b e < Obj.CAL_LAST.key 0 0) :
    (s.fitResult p fit).rdN o b e = s.rdN o b e := by
  rw [State.fitResult, if_neg (by simp [h]), rdN_calAccept _ _ _ hkey, rdN_of_dict (State.stageBlob_dict ..)]

@[simp] theorem stagedBlobs_endPort : (s.endPort p bad).stagedBlobs = s.stagedBlobs := by
  unfold State.endPort; dsimp only; split <;> rfl

@[simp] theorem calDone_endPort : (s.endPort p bad).st.calDone = s.st.calDone ++ [p] := by
  unfold State.endPort; dsimp only; split <;> rfl

@[simp] theorem calBad_endPort : (s.endPort p bad).st.calBad = (s.st.calBad || bad) := by
  unfold State.endPort; dsimp only; split <;> rfl

theorem rdN_endPort {o : ObjRow} {b e : Nat} (hstate : o.key b e ≠ Obj.ST_CAL_STATE.key 0 0)
    (hqueue : o.key b e ≠ Obj.CAL_QUEUE_USED.key 0 0) : (s.endPort p bad).rdN o b e = s.rdN o b e := by
  unfold State.endPort
  dsimp only
  split
  · rw [rdN_calDone _ _ _ hqueue, rdN_putN_other _ _ _ _ _ _ _ _ hstate]
    rfl
  · rfl

/-- R191: a row of the target calibration with an element for each port lies apart from the rows that end it. -/
theorem rdN_endPort_fitResult (h : s.fitFails p fit = false) {o : ObjRow} {e : Nat}
    (hrow : o.sub = 0 ∧ Obj.ST_CAL_STATE.index < o.index ∧ o.index < 0x5040) (he : e < 12) :
    ((s.fitResult p fit).endPort p bad).rdN o 0 e = s.rdN o 0 e := by
  obtain ⟨hsub, hlo, hhi⟩ := hrow
  simp only [Obj.ST_CAL_STATE] at hlo
  rw [rdN_endPort, rdN_fitResult _ _ _ h]
  all_goals simp only [ObjRow.key, hsub, Obj.ST_CAL_STATE, Obj.CAL_QUEUE_USED, Obj.CAL_LAST]; omega

end

section

variable {s : State} {t : Nat} {p : Fin 12} {levels : List (Nat × Nat)}

theorem camC_noteFit (s : State) (p : Fin 12) (fit : CalFit) : (s.noteFit p fit).camC p = s.camC p := by
  rw [State.camC, State.noteFit, rdN_putN_other, rdN_putN_other, rdN_putN_other, rdN_putN_other]
  · rfl
  all_goals simp only [ObjRow.key, Obj.CAM_LAYOUT, Obj.CAM_WIDTH, Obj.ST_CAL_RMS, Obj.ST_CAL_EDGES]; omega

/-- R191: what decides about a fit is not what it is noted in. -/
theorem fitRefused_noteFit (s : State) (p : Fin 12) (fit : CalFit) :
    (s.noteFit p fit).fitRefused p fit = s.fitRefused p fit := by
  have hmax : (s.noteFit p fit).rdN Obj.ST_CAL_RMS_MAX = s.rdN Obj.ST_CAL_RMS_MAX := by
    rw [State.noteFit, rdN_putN_other, rdN_putN_other]
    all_goals simp only [ObjRow.key, Obj.ST_CAL_RMS_MAX, Obj.ST_CAL_RMS, Obj.ST_CAL_EDGES]; omega
  have htarget : (s.noteFit p fit).targetId = s.targetId := rfl
  simp only [State.fitRefused, camC_noteFit, hmax, htarget]

theorem fitFails_of_refused {fit : CalFit} (h : s.fitRefused p fit = true) : (s.noteFit p fit).fitFails p fit = true := by
  rw [State.fitFails, fitRefused_noteFit, h, Bool.true_or]

theorem fitFails_of_kept {fit : CalFit} (h : s.fitRefused p fit = false) (hkept : s.calBeaten (Obj.ST_MAP.key p 0) = false) :
    (s.noteFit p fit).fitFails p fit = false := by
  have hkept' : (s.noteFit p fit).calBeaten (Obj.ST_MAP.key p 0) = false := hkept
  rw [State.fitFails, fitRefused_noteFit, h, State.fitCause, hkept']
  by_cases hfew : fit.edges < 12 <;> simp [hfew]

/-- R191: port `p` has averaged the lines that its fit asks for. -/
structure State.Averaged (s : State) (p : Fin 12) : Prop where
  running : s.rdN Obj.ST_CAL_STATE = 1
  enabled : s.flag Obj.CAM_ENABLE p = true
  fresh : s.st.calDone.contains p.val = false
  lines : s.rdN Obj.ST_CAL_LINES ≤ look s.st.calLines 0 p.val

/-- R191: the fit of a port that has averaged its lines is noted, gives a result, and the port is done. -/
theorem exec_stCalDone_of_averaged (h : s.Averaged p) :
    exec (.stCalDone t p levels) s =
      let fit := s.targetFit p levels
      let u := (s.at t).noteFit p fit
      .next ((u.fitResult p fit).endPort p (u.fitFails p fit)) := by
  obtain ⟨hrun, hon, hnew, hlines⟩ := h
  have hguard : ¬ (decide ((s.at t).rdN Obj.ST_CAL_STATE ≠ 1) || !(s.at t).flag Obj.CAM_ENABLE p ||
      (s.at t).st.calDone.contains p.val || decide (look (s.at t).st.calLines 0 p.val < (s.at t).rdN Obj.ST_CAL_LINES)) =
      true := by
    simp [hrun, hon, Nat.not_lt.mpr hlines, hnew, -List.contains_eq_mem]
  show execStCalDone t p levels s = _
  exact (if_neg hguard).trans (apply_ite Host.Outcome.next ..).symm

end

/-- Settles O11: each command's equation names the state after it, and that state's parts are read off. -/
theorem coordinateMaps : Obligations.CoordinateMaps := by
  unfold Obligations.CoordinateMaps
  refine ⟨?staged, ?refused, ?start, ?notArmed, ?cancel, ?fitted, ?fitRefused⟩
  case staged =>
    intro s t path p blob hacc hok
    exact ⟨_, exec_stMapWrite_of_ok t hacc hok, find?_stagedBlobs_stageBlob .., by simp, by simp⟩
  case refused =>
    intro s t path p blob hacc hbad
    exact ⟨_, exec_stMapWrite_of_not_ok t hacc hbad, by simp, by simp, by simp⟩
  case start =>
    intro s t path hacc hmode hidle hnew hroom
    refine ⟨_, exec_stCalStart_of_armed t hacc hmode hidle hnew hroom, ?_, ?_, ?_, ?_⟩
    · rw [rdN_answer, rdN_stCalState_calStart]
    · rw [State.answer_st, calDone_calStart]
    · rw [State.answer_cal, length_queue_calStart, queue_setQueue, List.length_append]
      rfl
    · rw [State.answer_out, State.calStart_out]
      rfl
  case notArmed =>
    intro s t path hacc hmode
    exact ⟨_, exec_stCalStart_of_not_armed t hacc hmode, by simp, by simp, by simp⟩
  case cancel =>
    intro s t path hacc hrun
    refine ⟨_, exec_stCalCancel_of_running t hacc hrun, ?_, rfl, rfl⟩
    rw [rdN_answer, rdN_calDone _ _ _ (by decide), rdN_putN_same]
  case fitted =>
    intro s t p levels hrun hon hnew hlines hgood hkept
    have hpass := fitFails_of_kept (s := s.at t) hgood hkept
    refine ⟨_, exec_stCalDone_of_averaged ⟨hrun, hon, hnew, hlines⟩, ?_, ?_, ?_, ?_⟩
    · rw [stagedBlobs_endPort, find?_stagedBlobs_fitResult _ _ _ hpass, camC_noteFit]
      rfl
    · rw [rdN_endPort_fitResult _ _ _ _ hpass (by decide) p.isLt, rdN_stCalRms_noteFit]
    · rw [rdN_endPort_fitResult _ _ _ _ hpass (by decide) p.isLt, rdN_stCalEdges_noteFit]
    · simp
  case fitRefused =>
    intro s t p levels hrun hon hnew hlines hbad
    have hfails := fitFails_of_refused (s := s.at t) hbad
    refine ⟨_, exec_stCalDone_of_averaged ⟨hrun, hon, hnew, hlines⟩, ?_, ?_, ?_⟩
    · rw [stagedBlobs_endPort, stagedBlobs_fitResult_of_fails _ _ _ hfails]
      rfl
    · rw [calBad_endPort, hfails, Bool.or_true]
    · simp

end Sys2Proof.Machine

end

section
/-! Groups of halves: merged, left to their owner, or split (spec/07_stitching.md, R196 to R204). -/

namespace Sys2Proof.Machine

open Sys2Proof

/-! ## Lists in an order -/

theorem insertBy_perm {α : Type} (before : α → α → Bool) (x : α) (l : List α) : (insertBy before x l).Perm (x :: l) := by
  induction l with
  | nil => exact .refl _
  | cons y r ih =>
    rw [insertBy]
    split
    · exact .refl _
    · exact (ih.cons y).trans (.swap x y r)

/-- A list brought into an order holds what it held. -/
theorem sortBy_perm {α : Type} (before : α → α → Bool) (l : List α) : (sortBy before l).Perm l := by
  induction l with
  | nil => exact .refl _
  | cons x r ih => exact (insertBy_perm before x _).trans (ih.cons x)

/-- What each step of a fold adds one to, the fold adds its length to. -/
theorem foldl_add_one {α β : Type} (φ : α → Nat) (f : α → β → α) (h : ∀ a x, φ (f a x) = φ a + 1) (l : List β) (a : α) :
    φ (l.foldl f a) = φ a + l.length := by
  induction l generalizing a with
  | nil => rfl
  | cons x r ih => rw [List.foldl_cons, ih, h, List.length_cons]; omega

/-! ## Objects for the verdict (R194, R204) -/

section

variable (s : State)

@[simp] theorem State.facets_dict (p g : Nat) (a : Acc) (r : TrackResult) (first last edge part : Nat) :
    (s.facets p g a r first last edge part).1.dict = s.dict :=
  of_see (fun s => s.dict) (State.facets_see _ (fun _ _ h => h .dict rfl) ..)

@[simp] theorem State.facets_judged (p g : Nat) (a : Acc) (r : TrackResult) (first last edge part : Nat) :
    (s.facets p g a r first last edge part).1.judged = s.judged :=
  of_see (fun s => s.judged) (State.facets_see _ (fun _ _ h => h .judged rfl) ..)

/-- R230: an object for the verdict joins those that wait. -/
theorem judged_toVerdict_perm (j : Judged) : (s.toVerdict j).judged.Perm (s.judged ++ [{ j with arrived := s.now }]) :=
  sortBy_perm _ _

theorem length_judged_toVerdict (j : Judged) : (s.toVerdict j).judged.length = s.judged.length + 1 := by
  rw [(judged_toVerdict_perm s j).length_eq, List.length_append]
  rfl

@[simp] theorem State.toVerdict_dict (j : Judged) : (s.toVerdict j).dict = s.dict := rfl

theorem length_judged_ownObject (h : Half) (extra wait : Nat) (widen : Option (Int × Int)) :
    (s.ownObject h extra wait widen).judged.length = s.judged.length + 1 := by
  rw [State.ownObject, length_judged_toVerdict, State.facets_judged]

@[simp] theorem State.ownObject_dict (h : Half) (extra wait : Nat) (widen : Option (Int × Int)) :
    (s.ownObject h extra wait widen).dict = s.dict :=
  of_see (fun s => s.dict) (State.ownObject_see _ (fun _ _ h => h .dict rfl) ..)

/-- R199: of the registers a wait changes `ST_WAIT_MAX_SEEN` alone. -/
theorem rdN_noteWait (w : Nat) {o : ObjRow} {b e : Nat} (h : o.key b e ≠ Obj.ST_WAIT_MAX_SEEN.key 0 0) :
    (s.noteWait w).rdN o b e = s.rdN o b e := rdN_putN_other _ _ _ _ _ _ _ _ h

@[simp] theorem State.noteWait_judged (w : Nat) : (s.noteWait w).judged = s.judged := rfl

@[simp] theorem State.noteWait_st (w : Nat) : (s.noteWait w).st = s.st := rfl

/-! ## Split resolution (R204) -/

/-- R204: every half of this unit becomes an object of its own. -/
theorem length_judged_splitResolve (halves : List Half) :
    (s.splitResolve halves).judged.length = s.judged.length + (halves.filter (fun h => h.link.isNone)).length := by
  refine foldl_add_one (fun s => s.judged.length) _ (fun a h => ?_) _ s
  dsimp only
  rw [State.noteWait_judged, State.count_judged, length_judged_ownObject]

/-- R204: split resolution counts partial objects and notes waits, and changes no other register. -/
theorem rdN_splitResolve (halves : List Half) {o : ObjRow} {b e : Nat} (hpartial : o.key b e ≠ Obj.ST_PARTIAL_OBJECTS.key 0 0)
    (hwait : o.key b e ≠ Obj.ST_WAIT_MAX_SEEN.key 0 0) : (s.splitResolve halves).rdN o b e = s.rdN o b e :=
  foldl_keep (fun s => s.rdN o b e) _ _ s fun _ _ _ =>
    (rdN_noteWait _ _ hwait).trans ((rdN_count_other _ _ _ _ _ _ _ _ hpartial).trans (rdN_of_dict (State.ownObject_dict ..) ..))

@[simp] theorem State.splitResolve_st (halves : List Half) : (s.splitResolve halves).st = s.st :=
  of_see (fun s => s.st) (State.splitResolve_see _ (fun _ _ h => h .st rfl) ..)

/-- R204: of the registers a split at the unit seams changes `ST_STATUS` and those of events. -/
theorem rdN_markSplit (seams : List Nat) (on : Bool) {o : ObjRow} {b e : Nat} (hstatus : o.key b e ≠ Obj.ST_STATUS.key 0 0)
    (hevent : isEventReg (o.key b e) = false) : (s.markSplit seams on).rdN o b e = s.rdN o b e := by
  refine foldl_keep (fun s => s.rdN o b e) _ _ s fun _ _ _ => ?_
  dsimp only
  split
  · rfl
  · split
    · rw [rdN_raise _ _ _ _ _ _ hevent, rdN_setBit_other _ _ _ _ _ _ _ _ _ hstatus]
    · rw [rdN_setBit_other _ _ _ _ _ _ _ _ _ hstatus]

@[simp] theorem State.markSplit_st (seams : List Nat) (on : Bool) : (s.markSplit seams on).st = s.st :=
  of_see (fun s => s.st) (State.markSplit_see _ (fun _ _ h => h .st rfl) ..)

@[simp] theorem State.markSplit_judged (seams : List Nat) (on : Bool) : (s.markSplit seams on).judged = s.judged :=
  of_see (fun s => s.judged) (State.markSplit_see _ (fun _ _ h => h .judged rfl) ..)

end

/-! ## A merged group (R196 to R198) -/

theorem anchorHalf_ne_none {l : List Half} (h : l ≠ []) : anchorHalf l ≠ none := by
  cases l with
  | nil => exact absurd rfl h
  | cons x r => exact Option.some_ne_none _

section

variable (s : State) {l : List Half} (owner : Nat) (x : Int)

/-- R197, R198: the halves of a group become one object of the owner's, and more than one of them count as merged. -/
theorem mergeGroup_eq (hne : l ≠ []) : ∃ (q : State) (j : Judged) (w : Nat),
    q.dict = s.dict ∧ q.judged = s.judged ∧ j.port = owner ∧ j.centroid = umOf x ∧
    s.mergeGroup l owner x = (((if 1 < l.length then q.count Obj.ST_MERGED 0 0 1 else q).noteWait w).toVerdict j) := by
  unfold State.mergeGroup
  extract_lets g lines first mark epoch ranked parts acc last edge wests easts merged lent extra left
  have hranked : ranked.length = l.length := List.length_map ..
  split
  · next hnone => exact absurd hnone (anchorHalf_ne_none (by simpa [ranked] using hne))
  · next an _ =>
    extract_lets _ _ _ _ q counted
    have hcounted : counted = if 1 < l.length then q.1.count Obj.ST_MERGED 0 0 1 else q.1 := by
      simp only [counted, merged, hranked, decide_eq_true_eq]
    refine ⟨q.1, _, counted.now - left.foldl min (left.headD 0), State.facets_dict .., State.facets_judged .., ?_, ?_,
      congrArg (fun u => State.toVerdict u _) (congrArg (fun u => State.noteWait u _) hcounted)⟩
    · rfl
    · rfl

theorem judged_mergeGroup_perm (hne : l ≠ []) : ∃ j : Judged,
    j.port = owner ∧ j.centroid = umOf x ∧ (s.mergeGroup l owner x).judged.Perm (s.judged ++ [j]) := by
  obtain ⟨q, j, w, -, hjudged, hport, hcentroid, hmerge⟩ := mergeGroup_eq s owner x hne
  have hcounted : ((if 1 < l.length then q.count Obj.ST_MERGED 0 0 1 else q).noteWait w).judged = s.judged := by
    rw [State.noteWait_judged, ← hjudged]
    split <;> rfl
  rw [hmerge, ← hcounted]
  refine ⟨_, ?_, ?_, judged_toVerdict_perm _ j⟩
  · exact hport
  · exact hcentroid

theorem rdN_stMerged_mergeGroup (hmany : 2 ≤ l.length) :
    (s.mergeGroup l owner x).rdN Obj.ST_MERGED = satCount (s.rdN Obj.ST_MERGED) 1 := by
  have hne : l ≠ [] := fun h => by simp [h] at hmany
  obtain ⟨q, j, w, hdict, -, -, -, hmerge⟩ := mergeGroup_eq s owner x hne
  rw [hmerge, if_pos (show 1 < l.length from hmany), rdN_of_dict (State.toVerdict_dict ..),
    rdN_noteWait _ _ (by decide), rdN_count_same, rdN_of_dict hdict]

@[simp] theorem State.mergeGroup_st : (s.mergeGroup l owner x).st = s.st :=
  of_see (fun s => s.st) (State.mergeGroup_see _ (fun _ _ h => h .st rfl) ..)

end

/-! ## The resolution of a group (R196, R199, R203) -/

/-- R196: the centroid of a group without an object site is a free value, which is then used up. -/
def State.drawnFor (s : State) (l : List Half) : State := if l.all (fun h => h.acc.area == 0) then s.drawn else s

/-- R203: a group waits for TAKEN from now on. -/
def State.awaitTaken (s : State) (g : SeamGroup) : State :=
  { s with st := { s.st with groups := s.st.groups.map (fun x => if x = g then { g with waiting := some s.now } else x) } }

section

variable (s : State) (l : List Half) {g : SeamGroup}

@[simp] theorem State.drawnFor_st : (s.drawnFor l).st = s.st := by unfold State.drawnFor; split <;> rfl

@[simp] theorem State.drawnFor_judged : (s.drawnFor l).judged = s.judged := by unfold State.drawnFor; split <;> rfl

@[simp] theorem State.drawnFor_dict : (s.drawnFor l).dict = s.dict := by unfold State.drawnFor; split <;> rfl

@[simp] theorem State.drawnFor_now : (s.drawnFor l).now = s.now := by unfold State.drawnFor; split <;> rfl

theorem zoneOf_drawnFor (k : List Half) (x : Int) : (s.drawnFor l).zoneOf k x = s.zoneOf k x := by
  unfold State.drawnFor; split <;> rfl

@[simp] theorem State.dropGroup_dict : (s.dropGroup g).dict = s.dict := rfl

@[simp] theorem State.dropGroup_judged : (s.dropGroup g).judged = s.judged := rfl

theorem groups_dropGroup_of_single (h : s.st.groups = [g]) : (s.dropGroup g).st.groups = [] := by
  simp [State.dropGroup, h]

/-- R196: a group whose centroid lies in a primary zone of this unit is merged here. -/
theorem resolveGroup_of_own {p : Nat} (hzone : s.zoneOf g.halves (s.groupX g.halves) = .inl p) :
    s.resolveGroup g = (((s.drawnFor g.halves).dropGroup g).mergeGroup g.halves p (s.groupX g.halves)).markSplit g.seams
      false := by
  have hzone' := (zoneOf_drawnFor s g.halves g.halves (s.groupX g.halves)).trans hzone
  unfold State.drawnFor at hzone' ⊢
  simp only [State.resolveGroup, hzone']

/-- R196, R203: one whose centroid lies in the neighbour's waits for TAKEN. -/
theorem resolveGroup_of_neighbour {k : Nat} (hzone : s.zoneOf g.halves (s.groupX g.halves) = .inr k) :
    ∃ w, s.resolveGroup g = ((s.drawnFor g.halves).noteWait w).awaitTaken g := by
  have hzone' := (zoneOf_drawnFor s g.halves g.halves (s.groupX g.halves)).trans hzone
  unfold State.drawnFor at hzone' ⊢
  simp only [State.resolveGroup, hzone']
  exact ⟨_, rfl⟩

end

/-! ## The three commands, for a unit that holds one group (R199, R204) -/

/-- R204: the seams of a group whose peer's watermark has not passed the group's end. -/
def State.silentSeams (s : State) (g : SeamGroup) : List Nat :=
  g.seams.filter (fun j => (s.seamLink j).any (fun k => decide (look s.st.marks 0 k < s.groupEnd g)))

section

variable {s : State} {t : Nat} {g : SeamGroup} (hone : s.st.groups = [g])

include hone

theorem exec_groupResolve_of_ready (hwait : g.waiting = none) (hcameras : s.camerasDone g = true)
    (hstopped : s.groupStopped g = false) (hpeers : s.peersDone g = true) :
    exec (.groupResolve t) s = .next ((s.at t).resolveGroup g) := by
  have hcameras' : (s.at t).camerasDone g = true := hcameras
  have hstopped' : (s.at t).groupStopped g = false := hstopped
  have hpeers' : (s.at t).peersDone g = true := hpeers
  show execGroupResolve t s = _
  simp [execGroupResolve, hone, hwait, hcameras', hstopped', hpeers']

theorem exec_groupResolve_of_open (hcameras : s.camerasDone g = false) : exec (.groupResolve t) s = .next (s.at t) := by
  have hcameras' : (s.at t).camerasDone g = false := hcameras
  show execGroupResolve t s = _
  simp [execGroupResolve, hone, hcameras']

/-- R204: the group of a peer that stays silent is split, and SEAM_SPLIT is raised at the seams of the silent peers. -/
theorem exec_seamWaitTimeout_of_late (hwait : g.waiting = none) (hpeers : s.peersDone g = false)
    (hlate : g.closed + s.rdN Obj.ST_WAIT_MAX_US * 1000 ≤ max s.now t) :
    exec (.seamWaitTimeout t) s =
      .next (((((s.at t).dropGroup g).splitResolve g.halves).count Obj.ST_WAIT_TIMEOUTS 0 0 1).markSplit
        ((s.at t).silentSeams g) true) := by
  have hpeers' : (s.at t).peersDone g = false := hpeers
  have hgroups : (s.at t).st.groups = [g] := hone
  have hlate' : decide (g.closed + (s.at t).rdN Obj.ST_WAIT_MAX_US * 1000 ≤ (s.at t).now) = true := decide_eq_true hlate
  show execSeamWaitTimeout t s = _
  simp only [execSeamWaitTimeout, hgroups, List.find?, hwait, hpeers', hlate', Option.isNone_none, Bool.not_false,
    Bool.and_self, State.silentSeams]

/-- R203, R204: the group that waits for TAKEN too long is split. -/
theorem exec_takenTimeout_of_late {w : Nat} (hwait : g.waiting = some w)
    (hlate : w + s.rdN Obj.ST_WAIT_MAX_US * 1000 ≤ max s.now t) :
    exec (.takenTimeout t) s =
      .next ((((s.at t).dropGroup g).splitResolve g.halves).count Obj.ST_WAIT_TIMEOUTS 0 0 1) := by
  have hgroups : (s.at t).st.groups = [g] := hone
  have hlate' : decide (w + (s.at t).rdN Obj.ST_WAIT_MAX_US * 1000 ≤ (s.at t).now) = true := decide_eq_true hlate
  show execTakenTimeout t s = _
  simp only [execTakenTimeout, hgroups, List.find?, hwait, hlate']

end

/-- R204: a group that is split after its wait is one timeout more. -/
theorem rdN_stWaitTimeouts_split (s : State) (g : SeamGroup) :
    (((s.dropGroup g).splitResolve g.halves).count Obj.ST_WAIT_TIMEOUTS 0 0 1).rdN Obj.ST_WAIT_TIMEOUTS =
      satCount (s.rdN Obj.ST_WAIT_TIMEOUTS) 1 := by
  rw [rdN_count_same, rdN_splitResolve _ _ (by decide) (by decide), rdN_of_dict (State.dropGroup_dict ..)]

/-- Settles O13: the one group is the first that is ready or late, and its resolution is read off. -/
theorem seamGroups : Obligations.SeamGroups := by
  unfold Obligations.SeamGroups
  refine ⟨?merged, ?left, ?notYet, ?silent, ?untaken⟩
  case merged =>
    intro s t g p hone hwait hmany hcameras hstopped hpeers hzone
    have hne : g.halves ≠ [] := fun h => by simp [h] at hmany
    have hnext := exec_groupResolve_of_ready (t := t) hone hwait hcameras hstopped hpeers
    rw [resolveGroup_of_own (s.at t) hzone] at hnext
    obtain ⟨j, hport, hcentroid, hperm⟩ :=
      judged_mergeGroup_perm (((s.at t).drawnFor g.halves).dropGroup g) p ((s.at t).groupX g.halves) hne
    rw [State.dropGroup_judged, State.drawnFor_judged, State.at_judged] at hperm
    refine ⟨_, hnext, ?_, ?_, ?_, ?_⟩
    · rw [State.markSplit_st, State.mergeGroup_st]
      exact groups_dropGroup_of_single _ (by simpa using hone)
    · rw [State.markSplit_judged, hperm.length_eq, List.length_append, List.length_singleton]
    · rw [State.markSplit_judged]
      refine List.any_eq_true.mpr ⟨j, hperm.mem_iff.mpr (by simp), ?_⟩
      have hx : (s.at t).groupX g.halves = s.groupX g.halves := rfl
      simp only [hport, hcentroid, hx, beq_self_eq_true, Bool.and_self]
    · rw [rdN_markSplit _ _ _ (by decide) (by decide), rdN_stMerged_mergeGroup _ _ _ hmany,
        rdN_of_dict (State.dropGroup_dict ..), rdN_of_dict (State.drawnFor_dict ..), rdN_at]
  case left =>
    intro s t g k hone hwait hcameras hstopped hpeers hzone
    have hnext := exec_groupResolve_of_ready (t := t) hone hwait hcameras hstopped hpeers
    obtain ⟨w, hleft⟩ := resolveGroup_of_neighbour (s.at t) hzone
    rw [hleft] at hnext
    refine ⟨_, hnext, ?_, ?_, ?_⟩
    · simp [State.awaitTaken, State.noteWait, hone]
    · simp [State.awaitTaken, State.noteWait]
    · intro d key hkey
      exact (look_store_other _ _ _ _ _ _ hkey).trans (by rw [State.drawnFor_dict, State.at_dict])
  case notYet =>
    intro s t g hone hcameras
    exact ⟨_, exec_groupResolve_of_open hone hcameras, rfl⟩
  case silent =>
    intro s t g hone hwait hpeers hlate
    refine ⟨_, exec_seamWaitTimeout_of_late hone hwait hpeers hlate, ?_, ?_, ?_⟩
    · rw [State.markSplit_st, State.count_st, State.splitResolve_st]
      exact groups_dropGroup_of_single _ hone
    · rw [rdN_markSplit _ _ _ (by decide) (by decide), rdN_stWaitTimeouts_split, rdN_at]
    · rw [State.markSplit_judged, State.count_judged, length_judged_splitResolve, State.dropGroup_judged, State.at_judged]
  case untaken =>
    intro s t g w hone hwait hlate
    refine ⟨_, exec_takenTimeout_of_late hone hwait hlate, ?_, ?_, ?_⟩
    · rw [State.count_st, State.splitResolve_st]
      exact groups_dropGroup_of_single _ hone
    · rw [rdN_stWaitTimeouts_split, rdN_at]
    · rw [State.count_judged, length_judged_splitResolve, State.dropGroup_judged, State.at_judged]

end Sys2Proof.Machine

end

section
/-! TAKEN and its answer (spec/07_stitching.md, R203; spec/09_ejector_bank.md, R274). -/

namespace Sys2Proof.Machine

open Sys2Proof

/-! ## A packet on a chord port (R506) -/

section

variable (s : State) (k cls typ : Nat) (payload : List Byte)

@[simp] theorem chp_setCh_same (v : ChPort) : (s.setCh k v).chp k = v := look_store_same ..

@[simp] theorem State.chordSend_st : (s.chordSend k cls typ payload).st = s.st :=
  of_see (fun s => s.st) (State.chordSend_see _ (fun _ _ h => h .st rfl) ..)

@[simp] theorem State.chordSend_judged : (s.chordSend k cls typ payload).judged = s.judged :=
  of_see (fun s => s.judged) (State.chordSend_see _ (fun _ _ h => h .judged rfl) ..)

@[simp] theorem State.chordSend_bank : (s.chordSend k cls typ payload).bank = s.bank :=
  of_see (fun s => s.bank) (State.chordSend_see _ (fun _ _ h => h .bank rfl) ..)

section

variable {o : ObjRow} {b e : Nat} (h : o.key b e < Obj.CH_STATUS.key 0 0)

include h

theorem rdN_chEmit (seq : Nat) : (s.chEmit k cls typ seq payload).rdN o b e = s.rdN o b e := by
  have hbytes : o.key b e ≠ Obj.CH_BYTES_SENT.key 0 (5 * k + cls) := by
    simp only [ObjRow.key, Obj.CH_STATUS, Obj.CH_BYTES_SENT] at h ⊢; omega
  have hinjected : o.key b e ≠ Obj.CH_INJECTED.key 0 k := by
    simp only [ObjRow.key, Obj.CH_STATUS, Obj.CH_INJECTED] at h ⊢; omega
  unfold State.chEmit
  dsimp only
  rw [rdN_emit, rdN_count_other _ _ _ _ _ _ _ _ hbytes]
  split
  · exact rdN_count_other _ _ _ _ _ _ _ _ hinjected
  · rfl

/-- R506, R510: of the registers a packet changes those of the chord ports alone. -/
theorem rdN_chordSend : (s.chordSend k cls typ payload).rdN o b e = s.rdN o b e := by
  have hstatus : (s.setField Obj.CH_STATUS 0 k 9 2 0).rdN o b e = s.rdN o b e :=
    rdN_putN_other _ _ _ _ _ _ _ _ (by simp only [ObjRow.key, Obj.CH_STATUS] at h ⊢; omega)
  unfold State.chordSend
  dsimp only
  split
  · rfl
  · split
    · exact (rdN_chEmit _ k cls typ payload h _).trans hstatus
    · exact hstatus

end

/-- R514: what goes out again stands in the replay buffer already. -/
theorem replay_chEmit (seq : Nat) : ((s.chEmit k cls typ seq payload).chp k).replay = (s.chp k).replay := by
  have hset : ∀ n, ((s.setCh k { s.chp k with inject := n }).chp k).replay = (s.chp k).replay := fun n => by
    rw [chp_setCh_same]
  unfold State.chEmit
  dsimp only
  split
  · exact hset _
  · exact hset _

/-- R506: over a link that is up, a packet that fits enters the replay buffer at once. -/
theorem replay_chordSend (hup : s.chUp k = true) (hfree : (s.chp k).stalled = []) (hfits : (s.chp k).fits payload = true) :
    ((s.chordSend k cls typ payload).chp k).replay =
      (s.chp k).replay ++ [{ cls := cls, typ := typ, seq := (s.chp k).nextSeq, payload := payload }] := by
  have hroom : ((s.chp k).stalled.isEmpty && (s.chp k).fits payload) = true := by simp [hfree, hfits]
  have hsend : s.chordSend k cls typ payload = (s.setField Obj.CH_STATUS 0 k 9 2 0).chPush k cls typ payload := by
    unfold State.chordSend
    exact (if_neg (by simp [hup])).trans (if_pos hroom)
  rw [hsend, State.chPush, replay_chEmit, chp_setCh_same]
  rfl

end

/-! ## TAKEN yields halves (R203) -/

/-- R203: the halves of this unit that TAKEN does not name. -/
def SeamGroup.unnamed (g : SeamGroup) (k : Nat) (parts : List Nat) : List Half :=
  g.halves.filter (fun h => h.link.isNone && !h.named k parts)

/-- R203: the group of the halves that go on waiting, if there are any. -/
def SeamGroup.remainder (g : SeamGroup) (k : Nat) (parts : List Nat) (now : Nat) : List SeamGroup :=
  if (g.unnamed k parts).isEmpty then []
  else [{ g with halves := g.unnamed k parts, waiting := some (g.waiting.getD now) }]

section

variable (s : State) (k : Nat) (g : SeamGroup) (parts : List Nat)

@[simp] theorem State.keepParts_st (l : List PartId) : (s.keepParts l).st = s.st := rfl

@[simp] theorem State.keepParts_dict (l : List PartId) : (s.keepParts l).dict = s.dict := rfl

theorem unnamed_eq_filter :
    (g.halves.filter (fun h => h.link.isNone)).filter (fun h => !h.named k parts) = g.unnamed k parts := by
  rw [List.filter_filter, SeamGroup.unnamed]
  exact List.filter_congr fun h _ => Bool.and_comm ..

theorem isEmpty_unnamed : (g.unnamed k parts).isEmpty = g.halves.all (fun h => h.link.isSome || h.named k parts) := by
  rw [Bool.eq_iff_iff, SeamGroup.unnamed, List.isEmpty_iff, List.filter_eq_nil_iff, List.all_eq_true]
  refine forall₂_congr fun h _ => ?_
  cases h.link <;> simp

/-- R203: a group whose halves TAKEN names is dropped but for its remainder, and counts as yielded; SEAM_SPLIT clears at
seams, and the identities of parts are kept. -/
theorem yieldGroup_eq : ∃ (q : State) (seams : List Nat) (kept : List PartId),
    q.st.groups = s.st.groups.erase g ++ g.remainder k parts s.now ∧
    q.rdN Obj.ST_YIELDED = satCount (s.rdN Obj.ST_YIELDED) 1 ∧
    s.yieldGroup k g parts [] = (q.markSplit seams false).keepParts kept := by
  unfold State.yieldGroup
  extract_lets own named rest left noted counted _ joined
  have hrest : rest = g.unnamed k parts := unnamed_eq_filter k g parts
  have hnoted : noted.st = s.st ∧ noted.now = s.now ∧ noted.rdN Obj.ST_YIELDED = s.rdN Obj.ST_YIELDED := by
    simp only [noted]
    split
    · exact ⟨rfl, rfl, rdN_noteWait _ _ (by decide)⟩
    · exact ⟨rfl, rfl, rfl⟩
  obtain ⟨hst, hnow, hyielded⟩ := hnoted
  have hcounted : counted.st.groups = s.st.groups.erase g := congrArg (fun x => x.groups.erase g) hst
  have hcounted_now : counted.now = s.now := hnow
  refine ⟨joined, _, _, ?_, ?_, rfl⟩
  · simp only [joined, SeamGroup.remainder, ← hrest]
    split
    · rw [List.append_nil, hcounted]
    · rw [← hcounted, ← hcounted_now]
  · have hjoined : joined.dict = counted.dict := by
      simp only [joined]
      split <;> rfl
    rw [rdN_of_dict hjoined, rdN_count_same, rdN_of_dict (State.dropGroup_dict ..), hyielded]

theorem yieldGroup_groups : (s.yieldGroup k g parts []).st.groups = s.st.groups.erase g ++ g.remainder k parts s.now := by
  obtain ⟨q, seams, kept, hgroups, -, heq⟩ := yieldGroup_eq s k g parts
  rw [heq, State.keepParts_st, State.markSplit_st, hgroups]

theorem rdN_stYielded_yieldGroup :
    (s.yieldGroup k g parts []).rdN Obj.ST_YIELDED = satCount (s.rdN Obj.ST_YIELDED) 1 := by
  obtain ⟨q, seams, kept, -, hyielded, heq⟩ := yieldGroup_eq s k g parts
  rw [heq, rdN_of_dict (State.keepParts_dict ..), rdN_markSplit _ _ _ (by decide) (by decide), hyielded]

theorem yieldGroup_judged : (s.yieldGroup k g parts []).judged = s.judged :=
  of_see (fun s => s.judged) (State.yieldGroup_see _ (fun _ _ h => h .judged rfl) ..)

/-- R203: a group of which TAKEN names every half of this unit leaves none to wait. -/
theorem remainder_of_all (now : Nat) (h : g.halves.all (fun h => h.link.isSome || h.named k parts) = true) :
    g.remainder k parts now = [] := by
  rw [SeamGroup.remainder, isEmpty_unnamed, if_pos h]

theorem remainder_of_not_all (now : Nat) (h : g.halves.all (fun h => h.link.isSome || h.named k parts) = false) :
    g.remainder k parts now = [{ g with halves := g.unnamed k parts, waiting := some (g.waiting.getD now) }] := by
  rw [SeamGroup.remainder, isEmpty_unnamed, if_neg (by simp [h])]

end

section

variable {s : State} {t : Nat} {link : Fin 2} {seq : Nat} {parts : List Nat} {orders : List (List Byte)}

theorem exec_taken_of_named {g : SeamGroup} (hup : s.chUp link = true) (hnamed : s.namedGroup link parts = some g) :
    exec (.taken t link seq parts orders) s =
      .next (((s.at t).yieldGroup link g parts orders).chordSend link 1 3 (toLe 8 (parts.headD 0) ++ [0])) := by
  have hup' : (s.at t).chUp link = true := hup
  have hnamed' : (s.at t).namedGroup link parts = some g := hnamed
  show execTaken t link seq parts orders s = _
  simp [execTaken, hup', hnamed']

theorem exec_taken_of_unnamed (hup : s.chUp link = true) (hnone : s.namedGroup link parts = none) :
    exec (.taken t link seq parts orders) s = .next ((s.at t).chordSend link 1 3 (toLe 8 (parts.headD 0) ++ [1])) := by
  have hup' : (s.at t).chUp link = true := hup
  have hnone' : (s.at t).namedGroup link parts = none := hnone
  show execTaken t link seq parts orders s = _
  simp [execTaken, hup', hnone']

end

/-! ## TAKEN_ACK (R203, R274) -/

/-- R274: an order waits for the sub-order on chord port `k` no more: its zone there is uncovered. -/
def Flight.refusedOn (f : Flight) (k : Nat) : Flight :=
  { f with remote := f.remote.filter (fun j => j != k), causes := f.causes ++ [.uncovered],
           flags := withBit f.flags ofRefused true }

section

variable {s : State} {t : Nat} {link : Fin 2} {part : Nat} {f : Flight}

theorem exec_takenAck_of_refused (hup : s.chUp link = true) (hone : s.bank.flights = [f])
    (hnamed : f.named.contains (link.val, part) = true) (hwaits : f.remote.contains link.val = true) :
    exec (.takenAck t link part true) s =
      .next ((((s.at t).count Obj.ST_TAKEN_REFUSED 0 0 1).modFlight f.id (fun x => x.refusedOn link)).settle) := by
  have hup' : (s.at t).chUp link = true := hup
  show execTakenAck t link part true s = _
  simp [execTakenAck, hup', hone, hnamed, hwaits, Flight.refusedOn, -List.contains_eq_mem]

/-- R248, R270: a queue of one order that is not done stands as it is. -/
theorem settle_of_single_open (hone : s.bank.flights = [f]) (hopen : s.flightDone f = false) :
    s.settle.bank.flights = [f] ∧ s.settle.dict = s.dict := by
  have hsettle : s.settle = s.queueSort := by simp [State.settle, hone, hopen]
  rw [hsettle]
  exact ⟨by simp [State.queueSort, hone, sortBy, insertBy], rfl⟩

theorem flights_modFlight_of_single (hone : s.bank.flights = [f]) (change : Flight → Flight) :
    (s.modFlight f.id change).bank.flights = [change f] := by simp [State.modFlight, hone]

@[simp] theorem State.modFlight_dict (s : State) (id : Nat) (change : Flight → Flight) : (s.modFlight id change).dict = s.dict := rfl

/-- R270: an order for which a result is still to come is not done. -/
theorem flightDone_of_remote (hremote : f.remote ≠ []) : s.flightDone f = false := by
  rw [State.flightDone, List.isEmpty_eq_false_iff.mpr hremote, Bool.false_and]

end

/-- Settles O16: the group that TAKEN names is yielded, and the one order is not done while another link owes its result. -/
theorem takenMessages : Obligations.TakenMessages := by
  unfold Obligations.TakenMessages
  refine ⟨?named, ?namedInPart, ?unknown, ?refused, ?accepted⟩
  case named =>
    intro s t link seq parts g hup hnamed hall
    refine ⟨_, exec_taken_of_named hup hnamed, ?_, ?_, ?_⟩
    · rw [State.chordSend_st, yieldGroup_groups, remainder_of_all _ _ _ _ hall, List.append_nil, State.at_st]
    · rw [rdN_chordSend _ _ _ _ _ (by decide), rdN_stYielded_yieldGroup, rdN_at]
    · rw [State.chordSend_judged, yieldGroup_judged, State.at_judged]
  case namedInPart =>
    intro s t link seq parts g hup hnamed hrest
    refine ⟨_, exec_taken_of_named hup hnamed, ?_, ?_, ?_⟩
    · rw [State.chordSend_st, yieldGroup_groups, remainder_of_not_all _ _ _ _ hrest]
      rfl
    · rw [rdN_chordSend _ _ _ _ _ (by decide), rdN_stYielded_yieldGroup, rdN_at]
    · rw [State.chordSend_judged, yieldGroup_judged, State.at_judged]
  case unknown =>
    intro s t link seq parts orders hup hfree hfits hnone
    refine ⟨_, exec_taken_of_unnamed hup hnone, ?_, ?_, ?_⟩
    · rw [State.chordSend_st, State.at_st]
    · rw [State.chordSend_bank, State.at_bank]
    · rw [replay_chordSend (s.at t) link 1 3 _ hup hfree hfits, List.map_append]
      rfl
  case refused =>
    intro s t link part f hup hone hnamed hwaits hmore
    have hflights := flights_modFlight_of_single (s := (s.at t).count Obj.ST_TAKEN_REFUSED 0 0 1) (f := f) hone
      (fun x => x.refusedOn link)
    obtain ⟨hsettled, hdict⟩ := settle_of_single_open hflights (flightDone_of_remote hmore)
    refine ⟨_, exec_takenAck_of_refused hup hone hnamed hwaits, ?_, ?_⟩
    · rw [rdN_of_dict hdict, rdN_of_dict (State.modFlight_dict ..), rdN_count_same, rdN_at]
    · rw [hsettled]
      rfl
  case accepted =>
    intro s t link part
    exact ⟨_, (show execTakenAck t link part false s = .next (s.at t) by simp [execTakenAck]), rfl⟩

end Sys2Proof.Machine

end

section
/-! The comparisons of a sort program's terms, and the acceptance of an object that such a program judged
(spec/08_trajectory_and_verdict.md, R212 to R231). -/

namespace Sys2Proof.Machine

open Sys2Proof

/-! ## Comparisons (R214, R215) -/

/-- R214: the 64 bits that a value is widened to. -/
theorem unsignedOf_eight (v : Int) : unsignedOf 8 v = (BitVec.ofInt 64 v).toNat := (BitVec.toNat_ofInt v).symm

theorem and_unsignedOf_eight (v c : Int) :
    unsignedOf 8 v &&& unsignedOf 8 c = (BitVec.ofInt 64 v &&& BitVec.ofInt 64 c).toNat := by
  rw [unsignedOf_eight, unsignedOf_eight, BitVec.toNat_and]

theorem and_unsignedOf_eight_eq_zero (v c : Int) :
    unsignedOf 8 v &&& unsignedOf 8 c = 0 ↔ BitVec.ofInt 64 v &&& BitVec.ofInt 64 c = 0 := by
  rw [and_unsignedOf_eight, BitVec.toNat_eq]
  rfl

/-- Settles O17: codes 0 to 5 decide what they name, and the AND of ANY and NONE is that of 64-bit words. -/
theorem comparisons : Obligations.Comparisons := by
  unfold Obligations.Comparisons
  intro v c
  have hand := and_unsignedOf_eight_eq_zero v c
  refine ⟨?lt, ?le, ?eq, ?ne, ?ge, ?gt, ?any, ?none⟩
  case lt => exact decide_eq_true_iff
  case le => exact decide_eq_true_iff
  case eq => exact beq_iff_eq
  case ne => exact bne_iff_ne
  case ge => exact decide_eq_true_iff
  case gt => exact decide_eq_true_iff
  case any => exact bne_iff_ne.trans (not_congr hand)
  case none => exact beq_iff_eq.trans hand

/-! ## A verdict that is none of the three (R212, R230, R231) -/

/-- An outcome whose element of `VD_OUTCOME_COUNT` would lie at the key of `LG_NEXT_SEQ`. -/
def strayDefault : Nat := Obj.LG_NEXT_SEQ.key 0 0 - Obj.VD_OUTCOME_COUNT.key 0 0

/-- A sort program without a clause whose default outcome is `strayDefault`. R217's check of the header refuses a default outcome
above 2, and no byte of a blob holds this one; the model's bytes are numbers, and the obligation speaks of every state. -/
def strayProgram : List Byte := [0, 0, 0, 0, 0, 0, 0, strayDefault]

/-- An object of group 1 on its way to the verdict. -/
def strayJudged : Judged :=
  { port := 2, group := 1, epoch := 0, first := 3, last := 4, firstTime := 5, closeLine := 5, closeTime := 9, anchorCol := 1,
    acc := { area := 1, slots := [{ cls := 1, area := 1, severity := 0 }] }, facets := [], flags := 0, mask := 4,
    result := { speed := 1 }, centroid := 0, west := 0, east := 9, wait := 0 }

/-- A unit in RUN with an empty ledger, where group 1 holds `strayProgram` and `strayJudged` waits for the acceptor. -/
def strayState : State :=
  { (State.reset.putN Obj.DEVICE_STATE 0 0 stRun).putBlob Obj.VD_PROGRAM 1 0 strayProgram with judged := [strayJudged] }

set_option maxRecDepth 20000 in
/-- R230: the record of the object takes a SEQ, and the count of its outcome adds another to `LG_NEXT_SEQ`. -/
theorem strayState_nextSeq :
    (afterRow (exec (.objectAccept 0) strayState) strayState).rdN Obj.LG_NEXT_SEQ = strayState.rdN Obj.LG_NEXT_SEQ + 2 := by
  decide

/-- Refutes O15 in its clause of an object with any verdict: the outcome of a program that no check has passed may be any number,
and counting it in `VD_OUTCOME_COUNT` may reach a register of another row. In `strayState` that is `LG_NEXT_SEQ`, which rises
by 2 where the clause says 1. -/
theorem not_acceptance : ¬ Obligations.Acceptance := by
  unfold Obligations.Acceptance
  rintro ⟨-, -, anyVerdict, -⟩
  obtain ⟨u, hnext, -, hseq, -⟩ :=
    anyVerdict strayState 0 strayJudged [] rfl (by decide) (.inl (by decide)) rfl (by decide) (by decide)
  have htwo := strayState_nextSeq
  rw [hnext, afterRow] at htwo
  omega

end Sys2Proof.Machine

end

section
/-! The operations of the ledger, its rings and its mirror (spec/10_records_streams_and_compression.md, R303 to R307;
spec/11_islands_crossings_and_continuity.md, R341 to R347). -/

namespace Sys2Proof.Machine

open Sys2Proof

/-! ## What the part has sent stays sent -/

/-- What each step of a fold only adds to, the fold only adds to. -/
theorem foldl_out_prefix {β : Type} (f : State → β → State) (h : ∀ a x, a.out <+: (f a x).out) (l : List β) (s : State) :
    s.out <+: (l.foldl f s).out := by
  induction l generalizing s with
  | nil => exact List.prefix_rfl
  | cons x r ih => exact (h s x).trans (ih (f s x))

section

variable (s : State)

theorem out_prefix_vector (v : Nat) : s.out <+: (s.vector v).out := by
  unfold State.vector
  split
  · exact List.prefix_append ..
  · split <;> exact List.prefix_rfl

theorem out_prefix_causeBit (n : Nat) : s.out <+: (s.causeBit n).out := by
  unfold State.causeBit
  split
  · exact List.prefix_rfl
  · exact out_prefix_vector { s with cxl := { s.cxl with cause := s.cxl.cause ||| 2 ^ n } } 3

theorem out_prefix_causeOf (num : Nat) : s.out <+: (s.causeOf num).out := by
  refine foldl_out_prefix _ (fun a n => ?_) _ s
  dsimp only
  split
  · exact List.prefix_rfl
  · split
    · exact out_prefix_causeBit a n
    · exact List.prefix_rfl

theorem out_channels (src : Nat) (tags : List Nat) (n : Nat) : (s.channels src tags n).1.out = s.out :=
  of_see (fun s => s.out) (State.channels_see _ (fun _ _ h => h .out rfl) s src tags n)

theorem out_prefix_raiseWith (fuel : Nat) (e : Ev) (obj : Nat) : s.out <+: (raiseWith fuel s e obj).out := by
  induction fuel generalizing s e obj with
  | zero =>
    unfold raiseWith
    dsimp only
    rw [out_channels]
    refine List.IsPrefix.trans ?_ (out_prefix_causeOf _ _)
    refine List.IsPrefix.trans ?_ (out_prefix_causeOf _ _)
    exact List.prefix_rfl
  | succ f ih =>
    unfold raiseWith
    dsimp only
    refine List.IsPrefix.trans ?_ (foldl_out_prefix _ (fun a n => ih a _ _) _ _)
    rw [out_channels]
    refine List.IsPrefix.trans ?_ (out_prefix_causeOf _ _)
    refine List.IsPrefix.trans ?_ (out_prefix_causeOf _ _)
    exact List.prefix_rfl

/-- R453: a source's event takes back nothing that was sent. -/
theorem out_prefix_fire (src n : Nat) : s.out <+: (s.fire src n).out := by
  refine List.IsPrefix.trans ?_ (foldl_out_prefix _ (fun a x => out_prefix_raiseWith a 64 _ _) _ _)
  rw [out_channels]
  exact out_prefix_causeOf s (src + 1)

end

/-! ## Ring writes (R303 to R307) -/

/-- What `g` shows of a list's entries stands where some of them change in what `g` does not show. -/
theorem map_map_ite {α β : Type} {p : α → Prop} [DecidablePred p] {f : α → α} (l : List α) (g : α → β)
    (hg : ∀ x, g (f x) = g x) : (l.map (fun x => if p x then f x else x)).map g = l.map g := by
  rw [List.map_map]
  refine List.map_congr_left fun x _ => ?_
  rw [Function.comp_apply]
  split
  · exact hg x
  · rfl

section

variable (s : State)

@[simp] theorem State.headWrite_lg (a : ObjRow) (v src : Nat) : (s.headWrite a v src).lg = s.lg :=
  of_see (fun s => s.lg) (State.headWrite_see _ (fun _ _ h => h .lg rfl) ..)

/-- R449: the event of a head changes no register but those of events. -/
@[simp] theorem rdN_headWrite (a : ObjRow) (v src : Nat) {o : ObjRow} {b e : Nat} (h : isEventReg (o.key b e) = false) :
    (s.headWrite a v src).rdN o b e = s.rdN o b e := by
  unfold State.headWrite
  split
  · rfl
  · exact rdN_fire _ _ _ _ _ h

theorem out_prefix_headWrite (a : ObjRow) (v src : Nat) : s.out <+: (s.headWrite a v src).out := by
  unfold State.headWrite
  split
  · exact List.prefix_rfl
  · exact List.IsPrefix.trans (List.prefix_append ..) (out_prefix_fire (s.hostWrite _ _) _ _)

@[simp] theorem State.writeRecord_dict (e : LedgerRecord) : (s.writeRecord e).dict = s.dict :=
  of_see (fun s => s.dict) (State.writeRecord_see _ (fun _ _ h => h .dict rfl) ..)

/-- R304: the record is marked as written. -/
theorem State.writeRecord_lg (e : LedgerRecord) : (s.writeRecord e).lg =
    { s.lg with records := s.lg.records.map (fun x => if x.seq = e.seq then { x with written := true } else x) } := by
  unfold State.writeRecord
  dsimp only
  split <;> rfl

/-- R303, R304: the slot of a record is that of its SEQ, and its extended record goes first. -/
theorem State.writeRecord_out (e : LedgerRecord) : (s.writeRecord e).out = s.out ++
    ((if e.ext.isEmpty then [] else
        hostWrites (s.rdN Obj.EXT_RING_BASE + 256 * (e.seq % 2 ^ s.rdN Obj.REC_RING_LOG2)) e.ext) ++
      hostWrites (s.rdN Obj.REC_RING_BASE + 128 * (e.seq % 2 ^ s.rdN Obj.REC_RING_LOG2)) e.record) := by
  unfold State.writeRecord
  dsimp only
  split
  · rfl
  · exact List.append_assoc ..

theorem out_prefix_writeRecord (e : LedgerRecord) : s.out <+: (s.writeRecord e).out :=
  s.writeRecord_out e ▸ List.prefix_append ..

theorem mem_out_writeRecord {e : LedgerRecord} {w : Out}
    (hw : w ∈ hostWrites (s.rdN Obj.REC_RING_BASE + 128 * (e.seq % 2 ^ s.rdN Obj.REC_RING_LOG2)) e.record) :
    w ∈ (s.writeRecord e).out := by
  rw [State.writeRecord_out]
  exact List.mem_append_right _ (List.mem_append_right _ hw)

@[simp] theorem State.writeOutcome_dict (o : LedgerOrder) : (s.writeOutcome o).dict = s.dict := rfl

/-- R305: an order whose outcome is written waits for the ring no more. -/
theorem State.writeOutcome_lg (o : LedgerOrder) : (s.writeOutcome o).lg = { s.lg with
    closed := s.lg.closed.filter (fun x => x != o.orderId)
    orders := s.lg.orders.map (fun x => if x.orderId = o.orderId then { x with written := true } else x) } := rfl

theorem State.writeOutcome_out (o : LedgerOrder) : (s.writeOutcome o).out =
    s.out ++ hostWrites (s.rdN Obj.OUT_RING_BASE + 32 * (o.orderId % 2 ^ s.rdN Obj.OUT_RING_LOG2)) o.outcome := rfl

variable (out : Bool)

@[simp] theorem State.ringIrq_dict : (s.ringIrq out).dict = s.dict :=
  of_see (fun s => s.dict) (State.ringIrq_see _ (fun _ _ h => h .dict rfl) ..)

/-- R307: what the rings know of their interrupts becomes `rec` and `out`. -/
def State.withIrqs (s : State) (rec out : RingIrq) : State := { s with lg := { s.lg with recIrq := rec, outIrq := out } }

/-- R307: a complete write changes the counts of the interrupts, and raises a vector at most. -/
theorem ringIrq_eq : ∃ rec out', s.ringIrq out = s.withIrqs rec out' ∨ ∃ v, s.ringIrq out = (s.withIrqs rec out').vector v := by
  unfold State.ringIrq
  extract_lets q n limit q' l u
  have hu : ∃ rec out', u = s.withIrqs rec out' := by
    cases out <;> exact ⟨_, _, rfl⟩
  obtain ⟨rec, out', hu⟩ := hu
  refine ⟨rec, out', ?_⟩
  rw [← hu]
  split
  · exact .inr ⟨_, rfl⟩
  · exact .inl rfl

theorem ringIrq_lg : ∃ rec out', (s.ringIrq out).lg = { s.lg with recIrq := rec, outIrq := out' } := by
  obtain ⟨rec, out', hirq | ⟨v, hirq⟩⟩ := ringIrq_eq s out
  · exact ⟨rec, out', congrArg State.lg hirq⟩
  · exact ⟨rec, out', hirq ▸ State.vector_lg _ v⟩

theorem out_prefix_ringIrq : s.out <+: (s.ringIrq out).out := by
  obtain ⟨rec, out', hirq | ⟨v, hirq⟩⟩ := ringIrq_eq s out
  · rw [hirq]
    exact List.prefix_rfl
  · rw [hirq]
    exact out_prefix_vector (s.withIrqs rec out') v

end

/-! ## The windows and their acknowledgement (R306, R341) -/

section

variable (s : State) {o : ObjRow} {b e : Nat}

theorem bit_setBit_other {i j : Nat} (v : Bool) (hij : i ≠ j) : (s.setBit o b e i v).bit o b e j = s.bit o b e j := by
  simp [State.bit, State.setBit, testBit_withBit_other _ _ hij]

@[simp] theorem State.lgPublish_lg : s.lgPublish.lg = s.lg := rfl

/-- R341: the windows and their bits are all that follows. -/
theorem rdN_lgPublish (hrec : o.key b e ≠ Obj.LG_REC_WINDOW.key 0 0) (hord : o.key b e ≠ Obj.LG_ORDER_WINDOW.key 0 0)
    (hstatus : o.key b e ≠ Obj.LG_STATUS.key 0 0) : s.lgPublish.rdN o b e = s.rdN o b e := by
  simp only [State.lgPublish, rdN_setBit_other _ _ _ _ _ _ _ _ _ hstatus, rdN_putN_other _ _ _ _ _ _ _ _ hord,
    rdN_putN_other _ _ _ _ _ _ _ _ hrec]

/-- R364: of `LG_STATUS` REC_FULL and ORDER_FULL follow. -/
theorem bit_lgPublish {i : Nat} (hrec : lgRecFull ≠ i) (hord : lgOrderFull ≠ i) :
    s.lgPublish.bit Obj.LG_STATUS 0 0 i = s.bit Obj.LG_STATUS 0 0 i := by
  unfold State.lgPublish
  rw [bit_setBit_other _ _ hord, bit_setBit_other _ _ hrec]
  simp (disch := decide) only [State.bit, rdN_putN_other]

end

/-! ## The mirror (R347) -/

section

variable (s : State)

@[simp] theorem State.chordSend_lg (k cls typ : Nat) (payload : List Byte) : (s.chordSend k cls typ payload).lg = s.lg :=
  of_see (fun s => s.lg) (State.chordSend_see _ (fun _ _ h => h .lg rfl) ..)

@[simp] theorem State.mirrorSend_lg (typ : Nat) (payload : List Byte) : (s.mirrorSend typ payload).lg = s.lg :=
  of_see (fun s => s.lg) (State.mirrorSend_see _ (fun _ _ h => h .lg rfl) ..)

@[simp] theorem State.mirrorAcks_lg : s.mirrorAcks.lg = s.lg := s.mirrorSend_lg ..

/-- R347: the loss of the mirror shows in `LG_STATUS` and in the registers of events. -/
theorem rdN_mirrorLost {o : ObjRow} {b e : Nat} (hstatus : o.key b e ≠ Obj.LG_STATUS.key 0 0)
    (hevent : isEventReg (o.key b e) = false) : s.mirrorLost.rdN o b e = s.rdN o b e := by
  unfold State.mirrorLost
  dsimp only
  split
  · rw [rdN_raise _ _ _ _ _ _ hevent, rdN_setBit_other _ _ _ _ _ _ _ _ _ hstatus, rdN_setBit_other _ _ _ _ _ _ _ _ _ hstatus]
  · exact rdN_setBit_other _ _ _ _ _ _ _ _ _ hstatus

/-- R347, R506: an entry for the mirror changes the registers of a chord port, or shows that the mirror is lost. -/
theorem rdN_mirrorSend (typ : Nat) (payload : List Byte) {o : ObjRow} {b e : Nat}
    (hchord : o.key b e < Obj.CH_STATUS.key 0 0) (hstatus : o.key b e ≠ Obj.LG_STATUS.key 0 0)
    (hevent : isEventReg (o.key b e) = false) : (s.mirrorSend typ payload).rdN o b e = s.rdN o b e := by
  unfold State.mirrorSend
  split
  · rfl
  · split
    · exact rdN_chordSend _ _ _ _ _ hchord
    · exact rdN_mirrorLost s hstatus hevent

/-- R347: without a mirror no entry goes out. -/
theorem mirrorSend_of_disabled (typ : Nat) (payload : List Byte) (h : s.flag Obj.LG_MIRROR_ENABLE = false) :
    s.mirrorSend typ payload = s := by simp [State.mirrorSend, h]

theorem mirrorRecord_of_disabled (e : LedgerRecord) (h : s.flag Obj.LG_MIRROR_ENABLE = false) : s.mirrorRecord e = s := by
  simp [State.mirrorRecord, h, mirrorSend_of_disabled]

/-- R347: of the ledger, sending a record to the mirror changes how long that record has waited for it. -/
theorem mirrorRecord_lg (e : LedgerRecord) : (s.mirrorRecord e).lg = s.lg ∨ (s.mirrorRecord e).lg =
    { s.lg with records := s.lg.records.map (fun x => if x.seq = e.seq then { x with mirror := some s.now } else x) } := by
  unfold State.mirrorRecord
  split
  · exact .inl (s.mirrorSend_lg ..)
  · exact .inr (State.mirrorSend_lg ..)

theorem map_records_mirrorRecord {β : Type} (e : LedgerRecord) (g : LedgerRecord → β)
    (hg : ∀ x m, g { x with mirror := m } = g x) : (s.mirrorRecord e).lg.records.map g = s.lg.records.map g := by
  rcases mirrorRecord_lg s e with hlg | hlg
  · rw [hlg]
  · rw [hlg]
    exact map_map_ite _ _ (fun x => hg x _)

theorem orders_mirrorRecord (e : LedgerRecord) : (s.mirrorRecord e).lg.orders = s.lg.orders := by
  rcases mirrorRecord_lg s e with hlg | hlg <;> rw [hlg]

/-- R347: the same of an order entry. -/
theorem mirrorOrder_lg (o : LedgerOrder) : (s.mirrorOrder o).lg = s.lg ∨ (s.mirrorOrder o).lg =
    { s.lg with orders := s.lg.orders.map (fun x => if x.orderId = o.orderId then { x with mirror := some s.now } else x) } := by
  unfold State.mirrorOrder
  split
  · exact .inl (s.mirrorSend_lg ..)
  · exact .inr (State.mirrorSend_lg ..)

theorem map_orders_mirrorOrder {β : Type} (o : LedgerOrder) (g : LedgerOrder → β)
    (hg : ∀ x m, g { x with mirror := m } = g x) : (s.mirrorOrder o).lg.orders.map g = s.lg.orders.map g := by
  rcases mirrorOrder_lg s o with hlg | hlg
  · rw [hlg]
  · rw [hlg]
    exact map_map_ite _ _ (fun x => hg x _)

theorem records_mirrorOrder (o : LedgerOrder) : (s.mirrorOrder o).lg.records = s.lg.records := by
  rcases mirrorOrder_lg s o with hlg | hlg <;> rw [hlg]

end

end Sys2Proof.Machine

end

section
/-! The acknowledgements of the host rings, from the dictionary and from the doorbells
(spec/10_records_streams_and_compression.md, R306; spec/12_cxl_host_and_dma.md, R370). -/

namespace Sys2Proof.Machine

open Sys2Proof

/-! ## An acknowledgement taken or refused (R306, R341) -/

/-- R341: the places up to `v` are free again, and the mirror is told. -/
def State.freeRecords (s : State) (v : Nat) : State :=
  let s := s.putN Obj.REC_ACK_SEQ 0 0 v
  { s with lg := { s.lg with records := s.lg.records.filter (fun e => decide (v < e.seq)) } }.lgPublish.mirrorAcks

/-- R341: the same of outcomes. -/
def State.freeOrders (s : State) (v : Nat) : State :=
  let s := s.putN Obj.OUT_ACK_ORDER 0 0 v
  { s with lg := { s.lg with orders := s.lg.orders.filter (fun e => decide (v < e.orderId)) } }.lgPublish.mirrorAcks

section

variable {s : State} {v : Nat}

theorem ackRecords_of_inRange (hlow : s.rdN Obj.REC_ACK_SEQ ≤ v) (hhigh : v ≤ s.rdN Obj.REC_HEAD_SEQ) :
    s.ackRecords v = (s.freeRecords v, true) := by
  rw [State.ackRecords, if_neg (by simp; omega)]
  rfl

theorem ackRecords_of_outOfRange (h : s.rdN Obj.REC_HEAD_SEQ < v ∨ v < s.rdN Obj.REC_ACK_SEQ) :
    s.ackRecords v = (s.count Obj.RING_ACK_REFUSED 0 0 1, false) := by
  rw [State.ackRecords, if_pos (by simpa using h)]

theorem ackOutcomes_of_inRange (hlow : s.rdN Obj.OUT_ACK_ORDER ≤ v) (hhigh : v < s.rdN Obj.OUT_LOW_ORDER) :
    s.ackOutcomes v = (s.freeOrders v, true) := by
  rw [State.ackOutcomes, if_neg (by simp; omega)]
  rfl

theorem ackOutcomes_of_outOfRange (h : s.rdN Obj.OUT_LOW_ORDER ≤ v ∨ v < s.rdN Obj.OUT_ACK_ORDER) :
    s.ackOutcomes v = (s.count Obj.RING_ACK_REFUSED 0 0 1, false) := by
  rw [State.ackOutcomes, if_pos (by simpa using h)]

end

section

variable (s : State) (v : Nat)

theorem freeRecords_lg : (s.freeRecords v).lg =
    { s.lg with records := s.lg.records.filter (fun e => decide (v < e.seq)) } := State.mirrorAcks_lg _

theorem freeOrders_lg : (s.freeOrders v).lg =
    { s.lg with orders := s.lg.orders.filter (fun e => decide (v < e.orderId)) } := State.mirrorAcks_lg _

theorem rdN_recAckSeq_freeRecords : (s.freeRecords v).rdN Obj.REC_ACK_SEQ = v := by
  unfold State.freeRecords State.mirrorAcks
  rw [rdN_mirrorSend _ _ _ (by decide) (by decide) (by decide), rdN_lgPublish _ (by decide) (by decide) (by decide)]
  exact rdN_putN_same ..

theorem rdN_outAckOrder_freeOrders : (s.freeOrders v).rdN Obj.OUT_ACK_ORDER = v := by
  unfold State.freeOrders State.mirrorAcks
  rw [rdN_mirrorSend _ _ _ (by decide) (by decide) (by decide), rdN_lgPublish _ (by decide) (by decide) (by decide)]
  exact rdN_putN_same ..

end

/-! ## The four commands -/

section

variable {s : State} {path : Path} {value : List Byte} (t : Nat)

/-- R306: a write that the access checks pass is an acknowledgement, and RESULT 5 refuses it. -/
theorem exec_recAckSeqWrite_of_access (hacc : s.checkAccess path Obj.REC_ACK_SEQ 0 0 value.length = 0) :
    exec (.recAckSeqWrite t path value) s =
      let q := ((s.at t).touch path).ackRecords (leNat value)
      .next (q.1.answer path (Obj.REC_ACK_SEQ.key 0 0) (if q.2 then 0 else 5)) := by
  have hacc' := (checkAccess_at_touch s t path path Obj.REC_ACK_SEQ 0 0 value.length).trans hacc
  show execRecAckSeqWrite t path value s = _
  simp only [execRecAckSeqWrite, State.ackWrite, hacc']

/-- R306: the same of outcomes. -/
theorem exec_outAckOrderWrite_of_access (hacc : s.checkAccess path Obj.OUT_ACK_ORDER 0 0 value.length = 0) :
    exec (.outAckOrderWrite t path value) s =
      let q := ((s.at t).touch path).ackOutcomes (leNat value)
      .next (q.1.answer path (Obj.OUT_ACK_ORDER.key 0 0) (if q.2 then 0 else 5)) := by
  have hacc' := (checkAccess_at_touch s t path path Obj.OUT_ACK_ORDER 0 0 value.length).trans hacc
  show execOutAckOrderWrite t path value s = _
  simp only [execOutAckOrderWrite, State.ackWrite, hacc']

/-- R370: a write of the whole doorbell acknowledges, and leaves the half that is held. -/
theorem exec_recAck_whole (s : State) (v : Nat) : exec (.recAck t (.whole v)) s = .next ((s.at t).ackRecords v).1 := rfl

/-- R370: a low half is held. -/
theorem exec_recAck_low (s : State) (v : Nat) :
    exec (.recAck t (.low v)) s = .next { s.at t with lg := { s.lg with recLow := some v } } := rfl

theorem exec_outAck_whole (s : State) (v : Nat) : exec (.outAck t (.whole v)) s = .next ((s.at t).ackOutcomes v).1 := rfl

/-- R370: the high half completes the low half that is held. -/
theorem exec_outAck_high {l : Nat} (v : Nat) (hheld : s.lg.outLow = some l) : exec (.outAck t (.high v)) s =
    .next (State.ackOutcomes { s.at t with lg := { s.lg with outLow := none } } (v * 2 ^ 32 + l)).1 := by
  show execOutAck t (.high v) s = _
  simp only [execOutAck, State.at_lg, hheld, doorbell]

end

/-- Settles O24: an acknowledgement in range frees its places and one out of range only counts, whichever command brings it. -/
theorem ringAcknowledgements : Obligations.RingAcknowledgements := by
  unfold Obligations.RingAcknowledgements
  refine ⟨?recTaken, ?recRefused, ?outTaken, ?outRefused, ?recBell, ?recHeld, ?outBell, ?outBellRefused⟩
  case recTaken =>
    intro s t path value hacc hlow hhigh
    have hnext := exec_recAckSeqWrite_of_access t hacc
    rw [ackRecords_of_inRange (s := (s.at t).touch path) hlow hhigh] at hnext
    refine ⟨_, hnext, ?_, ?_, ?_⟩
    · rw [rdN_answer, rdN_recAckSeq_freeRecords]
    · exact congrArg Ledger.records (freeRecords_lg ..)
    · simp
  case recRefused =>
    intro s t path value hacc hout
    have hnext := exec_recAckSeqWrite_of_access t hacc
    rw [ackRecords_of_outOfRange (s := (s.at t).touch path) hout] at hnext
    refine ⟨_, hnext, ?_, rfl, rfl⟩
    rw [rdN_answer, rdN_count_same, rdN_touch, rdN_at]
  case outTaken =>
    intro s t path value hacc hlow hhigh
    have hnext := exec_outAckOrderWrite_of_access t hacc
    rw [ackOutcomes_of_inRange (s := (s.at t).touch path) hlow hhigh] at hnext
    refine ⟨_, hnext, ?_, ?_, ?_⟩
    · rw [rdN_answer, rdN_outAckOrder_freeOrders]
    · exact congrArg Ledger.orders (freeOrders_lg ..)
    · simp
  case outRefused =>
    intro s t path value hacc hout
    have hnext := exec_outAckOrderWrite_of_access t hacc
    rw [ackOutcomes_of_outOfRange (s := (s.at t).touch path) hout] at hnext
    refine ⟨_, hnext, ?_, rfl, rfl⟩
    rw [rdN_answer, rdN_count_same, rdN_touch, rdN_at]
  case recBell =>
    intro s t v hlow hhigh
    have hnext := exec_recAck_whole t s v
    rw [ackRecords_of_inRange (s := s.at t) hlow hhigh] at hnext
    exact ⟨_, hnext, rdN_recAckSeq_freeRecords .., congrArg Ledger.records (freeRecords_lg ..)⟩
  case recHeld =>
    intro s t v
    exact ⟨_, exec_recAck_low t s v, rfl, rfl, rfl⟩
  case outBell =>
    intro s t v l hheld hlow hhigh
    have hnext := exec_outAck_high t v hheld
    rw [ackOutcomes_of_inRange (s := { s.at t with lg := { s.lg with outLow := none } }) hlow hhigh] at hnext
    exact ⟨_, hnext, rdN_outAckOrder_freeOrders .., congrArg Ledger.orders (freeOrders_lg ..),
      congrArg Ledger.outLow (freeOrders_lg ..)⟩
  case outBellRefused =>
    intro s t v hout
    have hnext := exec_outAck_whole t s v
    rw [ackOutcomes_of_outOfRange (s := s.at t) hout] at hnext
    exact ⟨_, hnext, rdN_count_same .., rfl⟩

end Sys2Proof.Machine

end

section
/-! Records and outcomes on their way: into both copies of the ledger, into the host rings, and to the host's attention
(spec/10_records_streams_and_compression.md, R303 to R307; spec/11_islands_crossings_and_continuity.md, R335, R340). -/

namespace Sys2Proof.Machine

open Sys2Proof

/-! ## The write of an entry to both copies (R335, R340, R404) -/

/-- R404: the order entry asked for first is one of those that wait. -/
theorem oldestOrder_mem {l : List LedgerOrder} {o : LedgerOrder} (h : oldestOrder l = some o) : o ∈ l := by
  have hfold : ∀ (r : List LedgerOrder) (a : LedgerOrder), r.foldl (fun a b => if b.since < a.since then b else a) a ∈ a :: r := by
    intro r
    induction r with
    | nil => intro a; exact List.mem_cons_self ..
    | cons b r ih =>
      intro a
      rw [List.foldl_cons]
      split
      · exact List.mem_cons_of_mem a (ih b)
      · rcases List.mem_cons.mp (ih a) with heq | hmem
        · rw [heq]
          exact List.mem_cons_self ..
        · exact List.mem_cons_of_mem a (List.mem_cons_of_mem b hmem)
  cases l with
  | nil => cases h
  | cons a r => exact Option.some.inj h ▸ hfold r a

section

variable {s : State} {t : Nat}

/-- R340, R404: the oldest record that waits is stored, where no order entry has waited longer. -/
theorem exec_ledgerCommit_of_record {e : LedgerRecord} (hrec : s.lg.records.find? (fun x => !x.stored) = some e)
    (hfirst : s.lg.orders.all (fun o => o.stored || decide (e.since ≤ o.since)) = true) (hruns : s.copiesRun = true)
    (hserves : (s.at t).dramServes ((s.at t).ledgerRequest e.since) = true) :
    exec (.ledgerCommit t) s = .next
      (((s.at t).modRecord e.seq (fun _ => { e with stored := true })).mirrorRecord { e with stored := true }) := by
  have hruns' : (s.at t).copiesRun = true := hruns
  show execLedgerCommit t s = _
  cases hord : oldestOrder (s.lg.orders.filter (fun o => !o.stored)) with
  | none => simp [execLedgerCommit, hrec, hord, hruns', hserves]
  | some o =>
    have hsince : e.since ≤ o.since := by
      obtain ⟨hmem, hopen⟩ := List.mem_filter.mp (oldestOrder_mem hord)
      have hwaits : o.stored = false := by simpa using hopen
      simpa [hwaits] using List.all_eq_true.mp hfirst o hmem
    simp [execLedgerCommit, hrec, hord, hsince, hruns', hserves]

/-- R340, R404: with every record stored, the oldest order entry is. -/
theorem exec_ledgerCommit_of_order {o : LedgerOrder} (hrec : s.lg.records.all (fun e => e.stored) = true)
    (hord : oldestOrder (s.lg.orders.filter (fun x => !x.stored)) = some o) (hruns : s.copiesRun = true)
    (hserves : (s.at t).dramServes ((s.at t).ledgerRequest o.since) = true) :
    exec (.ledgerCommit t) s = .next
      (((s.at t).modOrder o.orderId (fun _ => { o with stored := true })).mirrorOrder { o with stored := true }) := by
  have hruns' : (s.at t).copiesRun = true := hruns
  have hnone : s.lg.records.find? (fun x => !x.stored) = none := by
    simpa [List.find?_eq_none] using hrec
  show execLedgerCommit t s = _
  simp [execLedgerCommit, hnone, hord, hruns', hserves]

/-- R335: while a copy's channel is in reset nothing is stored. -/
theorem exec_ledgerCommit_of_reset (hruns : s.copiesRun = false) : exec (.ledgerCommit t) s = .next (s.at t) := by
  have hruns' : (s.at t).copiesRun = false := hruns
  show execLedgerCommit t s = _
  simp [execLedgerCommit, hruns']

end

/-! ## The write of a record and of an outcome (R303 to R305) -/

section

variable {s : State} (t : Nat)

/-- R303, R304: the state after a record is written: its slot, the head, the count and the interrupt follow. -/
def State.afterRecord (s : State) (e : LedgerRecord) : State :=
  ((((s.writeRecord e).putN Obj.REC_HEAD_SEQ 0 0 e.seq).count Obj.REC_WRITTEN 0 0 1).headWrite Obj.REC_HEAD_ADDR e.seq
    106).ringIrq false

/-- R304: over an open ring the next record is written once both copies hold it. -/
theorem exec_recordWrite_of_stored {e : LedgerRecord} (hnext : s.lg.records.find? (fun x => !x.written) = some e)
    (hopen : s.ringOpen Obj.REC_RING_BASE = true) (hstored : e.stored = true) :
    exec (.recordWrite t) s = .next ((s.at t).afterRecord e) := by
  have hopen' : (s.at t).ringOpen Obj.REC_RING_BASE = true := hopen
  show execRecordWrite t s = _
  simp only [execRecordWrite, State.at_lg, hnext, hopen', hstored]
  rfl

/-- R340: none goes before. -/
theorem exec_recordWrite_of_not_stored {e : LedgerRecord} (hnext : s.lg.records.find? (fun x => !x.written) = some e)
    (hstored : e.stored = false) : exec (.recordWrite t) s = .next (s.at t) := by
  show execRecordWrite t s = _
  simp [execRecordWrite, hnext, hstored]

/-- R303, R305: the state after an outcome is written. -/
def State.afterOutcome (s : State) (o : LedgerOrder) : State :=
  let s := s.writeOutcome o
  let s := (s.putN Obj.OUT_LOW_ORDER 0 0 s.lowOrder).count Obj.OUT_WRITTEN 0 0 1
  (s.headWrite Obj.OUT_HEAD_ADDR s.lowOrder 107).ringIrq true

/-- R305: over an open ring the outcome of the order that closed first is written after the record of its SEQ. -/
theorem exec_outcomeWrite_of_recordWritten {id : Nat} {r : List Nat} {o : LedgerOrder} (hclosed : s.lg.closed = id :: r)
    (hord : s.lg.orders.find? (fun x => x.orderId == id) = some o) (hopen : s.ringOpen Obj.OUT_RING_BASE = true)
    (hseq : o.seq ≤ s.rdN Obj.REC_HEAD_SEQ) : exec (.outcomeWrite t) s = .next ((s.at t).afterOutcome o) := by
  have hopen' : (s.at t).ringOpen Obj.OUT_RING_BASE = true := hopen
  show execOutcomeWrite t s = _
  simp [execOutcomeWrite, hclosed, hord, hopen', Nat.not_lt.mpr hseq, State.afterOutcome]

/-- R305: and not before. -/
theorem exec_outcomeWrite_of_recordAhead {id : Nat} {r : List Nat} {o : LedgerOrder} (hclosed : s.lg.closed = id :: r)
    (hord : s.lg.orders.find? (fun x => x.orderId == id) = some o) (hseq : s.rdN Obj.REC_HEAD_SEQ < o.seq) :
    exec (.outcomeWrite t) s = .next (s.at t) := by
  show execOutcomeWrite t s = _
  simp [execOutcomeWrite, hclosed, hord, hseq]

end

section

variable (s : State)

/-- R304: the record becomes the head. -/
theorem rdN_recHeadSeq_afterRecord (e : LedgerRecord) : (s.afterRecord e).rdN Obj.REC_HEAD_SEQ = e.seq := by
  unfold State.afterRecord
  rw [rdN_of_dict (State.ringIrq_dict ..), rdN_headWrite _ _ _ _ (by decide), rdN_count_other _ _ _ _ _ _ _ _ (by decide),
    rdN_putN_same]

theorem rdN_recWritten_afterRecord (e : LedgerRecord) :
    (s.afterRecord e).rdN Obj.REC_WRITTEN = satCount (s.rdN Obj.REC_WRITTEN) 1 := by
  unfold State.afterRecord
  rw [rdN_of_dict (State.ringIrq_dict ..), rdN_headWrite _ _ _ _ (by decide), rdN_count_same,
    rdN_putN_other _ _ _ _ _ _ _ _ (by decide), rdN_of_dict (State.writeRecord_dict ..)]

theorem afterRecord_lg (e : LedgerRecord) : ∃ rec out, (s.afterRecord e).lg = { s.lg with
    records := s.lg.records.map (fun x => if x.seq = e.seq then { x with written := true } else x)
    recIrq := rec, outIrq := out } := by
  obtain ⟨rec, out, hlg⟩ := ringIrq_lg ((((s.writeRecord e).putN Obj.REC_HEAD_SEQ 0 0 e.seq).count Obj.REC_WRITTEN 0 0
    1).headWrite Obj.REC_HEAD_ADDR e.seq 106) false
  refine ⟨rec, out, hlg.trans ?_⟩
  rw [State.headWrite_lg, State.count_lg, State.putN_lg, State.writeRecord_lg]

theorem out_prefix_afterRecord (e : LedgerRecord) : (s.writeRecord e).out <+: (s.afterRecord e).out :=
  (out_prefix_headWrite (((s.writeRecord e).putN Obj.REC_HEAD_SEQ 0 0 e.seq).count Obj.REC_WRITTEN 0 0 1) _ _ _).trans
    (out_prefix_ringIrq _ _)

theorem rdN_outWritten_afterOutcome (o : LedgerOrder) :
    (s.afterOutcome o).rdN Obj.OUT_WRITTEN = satCount (s.rdN Obj.OUT_WRITTEN) 1 := by
  unfold State.afterOutcome
  rw [rdN_of_dict (State.ringIrq_dict ..), rdN_headWrite _ _ _ _ (by decide), rdN_count_same,
    rdN_putN_other _ _ _ _ _ _ _ _ (by decide), rdN_of_dict (State.writeOutcome_dict ..)]

theorem closed_afterOutcome (o : LedgerOrder) :
    (s.afterOutcome o).lg.closed = s.lg.closed.filter (fun x => x != o.orderId) := by
  unfold State.afterOutcome
  extract_lets u v
  obtain ⟨rec, out, hlg⟩ := ringIrq_lg (v.headWrite Obj.OUT_HEAD_ADDR v.lowOrder 107) true
  rw [hlg, State.headWrite_lg]
  rfl

theorem out_prefix_afterOutcome (o : LedgerOrder) : (s.writeOutcome o).out <+: (s.afterOutcome o).out := by
  unfold State.afterOutcome
  extract_lets u v
  exact (out_prefix_headWrite v Obj.OUT_HEAD_ADDR v.lowOrder 107).trans (out_prefix_ringIrq _ _)

end

/-! ## The interrupt of a ring (R307, R379) -/

section

variable {s : State} {t : Nat}

theorem exec_ringIrqTimeout_records (hwaits : s.lg.recIrq.count ≠ 0)
    (hlate : s.lg.recIrq.since + s.rdN Obj.REC_IRQ_NS ≤ max s.now t) :
    exec (.ringIrqTimeout t false) s = .next ((s.at t).withIrqs {} s.lg.outIrq |>.vector 1) := by
  show execRingIrqTimeout t false s = _
  simp [execRingIrqTimeout, hwaits, Nat.not_lt.mpr hlate, State.withIrqs]

theorem exec_ringIrqTimeout_outcomes (hwaits : s.lg.outIrq.count ≠ 0)
    (hlate : s.lg.outIrq.since + s.rdN Obj.OUT_IRQ_NS ≤ max s.now t) :
    exec (.ringIrqTimeout t true) s = .next ((s.at t).withIrqs s.lg.recIrq {} |>.vector 2) := by
  show execRingIrqTimeout t true s = _
  simp [execRingIrqTimeout, hwaits, Nat.not_lt.mpr hlate, State.withIrqs]

/-- R379: over an unmasked vector and a link that is up the message goes out. -/
theorem out_vector_of_unmasked {v : Nat} (hup : s.cxl.linkUp = true) (hopen : s.cxl.unmasked.contains v = true) :
    (s.vector v).out = s.out ++ [.msix v] := by
  rw [State.vector, if_pos (by rw [hup, hopen]; rfl)]
  rfl

/-- R379: a masked vector is pending, and sends nothing. -/
theorem vector_of_masked {v : Nat} (hmasked : s.cxl.unmasked.contains v = false) :
    (s.vector v).cxl.pendingVec.contains v = true ∧ (s.vector v).out = s.out := by
  rw [State.vector, if_neg (by rw [hmasked, Bool.and_false]; exact Bool.false_ne_true)]
  split
  · next hpending => exact ⟨hpending, rfl⟩
  · exact ⟨by simp, rfl⟩

end

/-- Settles O23: each command's equation names the state after it, and what was sent before the last events stays sent. -/
theorem ledgerRings : Obligations.LedgerRings := by
  unfold Obligations.LedgerRings
  refine ⟨?record, ?order, ?reset, ?written, ?notStored, ?outcome, ?recordAhead, ?raised, ?masked⟩
  case record =>
    intro s t e hrec hfirst hruns hserves
    refine ⟨_, exec_ledgerCommit_of_record hrec hfirst hruns hserves, ?_, ?_, fun hoff => ?_⟩
    · rw [map_records_mirrorRecord _ _ _ (fun _ _ => rfl)]
      simp only [State.modRecord, State.at_lg, List.map_map]
      refine List.map_congr_left fun x _ => ?_
      by_cases hx : x.seq = e.seq <;> simp [hx]
    · rw [orders_mirrorRecord]
      rfl
    · rw [mirrorRecord_of_disabled ((s.at t).modRecord e.seq _) _ hoff]
      exact ⟨rfl, rfl⟩
  case order =>
    intro s t o hrec hord hruns hserves
    refine ⟨_, exec_ledgerCommit_of_order hrec hord hruns hserves, ?_, ?_⟩
    · rw [map_orders_mirrorOrder _ _ _ (fun _ _ => rfl)]
      simp only [State.modOrder, State.at_lg, List.map_map]
      refine List.map_congr_left fun x _ => ?_
      by_cases hx : x.orderId = o.orderId <;> simp [hx]
    · rw [records_mirrorOrder]
      rfl
  case reset =>
    intro s t hruns
    exact exec_ledgerCommit_of_reset hruns
  case written =>
    intro s t e hnext hopen hstored
    obtain ⟨rec, out, hlg⟩ := afterRecord_lg (s.at t) e
    refine ⟨_, exec_recordWrite_of_stored t hnext hopen hstored, ?_, ?_, ?_, ?_, fun w hw => ?_⟩
    · exact rdN_recHeadSeq_afterRecord ..
    · exact rdN_recWritten_afterRecord ..
    · rw [hlg, State.at_lg]
    · rw [hlg, State.at_lg]
    · exact (out_prefix_afterRecord ..).subset (mem_out_writeRecord (s.at t) hw)
  case notStored =>
    intro s t e hnext hstored
    exact ⟨_, exec_recordWrite_of_not_stored t hnext hstored, rfl⟩
  case outcome =>
    intro s t id r o hclosed hord hopen hseq
    have hid : o.orderId = id := by simpa using List.find?_some hord
    refine ⟨_, exec_outcomeWrite_of_recordWritten t hclosed hord hopen hseq, ?_, ?_, fun w hw => ?_⟩
    · exact rdN_outWritten_afterOutcome ..
    · rw [closed_afterOutcome, State.at_lg, hclosed, hid]
      simp
    · refine (out_prefix_afterOutcome ..).subset ?_
      rw [State.writeOutcome_out, hid]
      exact List.mem_append_right _ hw
  case recordAhead =>
    intro s t id r o hclosed hord hseq
    exact ⟨_, exec_outcomeWrite_of_recordAhead t hclosed hord hseq, rfl⟩
  case raised =>
    intro s t hwaits hlate hup hopen
    refine ⟨_, exec_ringIrqTimeout_records hwaits hlate, ?_, ?_, ?_⟩
    · rw [State.vector_lg]
      rfl
    · rw [State.vector_lg]
      rfl
    · exact out_vector_of_unmasked (s := (s.at t).withIrqs {} s.lg.outIrq) hup hopen
  case masked =>
    intro s t hwaits hlate hmasked
    obtain ⟨hpending, hout⟩ := vector_of_masked (s := (s.at t).withIrqs s.lg.recIrq {}) hmasked
    refine ⟨_, exec_ringIrqTimeout_outcomes hwaits hlate, ?_, hpending, hout⟩
    rw [State.vector_lg]
    rfl

end Sys2Proof.Machine

end

section
/-! Thumbnails, and the upkeep of the ledger: its copies, its re-issue, its discard and its mirror
(spec/10_records_streams_and_compression.md, R311, R312; spec/11_islands_crossings_and_continuity.md, R343 to R347). -/

namespace Sys2Proof.Machine

open Sys2Proof

/-! ## Thumbnails (R311, R312) -/

section

variable {s : State} {t : Nat}

theorem exec_thumbWrite_of_ready {j : ThumbJob} (hready : s.thumbs.find? (fun x => s.thumbReady x) = some j)
    (hserves : (s.at t).dramServes ((s.at t).thumbRequest j) = true) :
    exec (.thumbWrite t) s = .next ({ s.at t with thumbs := s.thumbs.filter (fun x => x != j) }.writeThumb j) := by
  have hready' : (s.at t).thumbs.find? (fun x => (s.at t).thumbReady x) = some j := hready
  show execThumbWrite t s = _
  simp only [execThumbWrite, hready', hserves, if_true]
  rfl

theorem exec_thumbWrite_of_none_ready (hnone : s.thumbs.find? (fun x => s.thumbReady x) = none) :
    exec (.thumbWrite t) s = .next (s.at t) := by
  have hnone' : (s.at t).thumbs.find? (fun x => (s.at t).thumbReady x) = none := hnone
  show execThumbWrite t s = _
  simp only [execThumbWrite, hnone']

@[simp] theorem State.writeThumb_thumbs (s : State) (j : ThumbJob) : (s.writeThumb j).thumbs = s.thumbs :=
  of_see (fun s => s.thumbs) (State.writeThumb_see _ (fun _ _ h => h .thumbs rfl) s j)

@[simp] theorem State.writeThumb_lg (s : State) (j : ThumbJob) : (s.writeThumb j).lg = s.lg :=
  of_see (fun s => s.lg) (State.writeThumb_see _ (fun _ _ h => h .lg rfl) s j)

theorem State.writeSlot_dict (s : State) (buffer n size : Nat) (b : List Byte) : (s.writeSlot buffer n size b).dict = s.dict :=
  of_see (fun s => s.dict) (State.writeSlot_see _ (fun _ _ h => h .dict rfl) s buffer n size b)

/-- R312: a thumbnail that misses rows or is clipped counts as such beside. -/
theorem rdN_thWritten_writeThumb (s : State) (j : ThumbJob) :
    (s.writeThumb j).rdN Obj.TH_WRITTEN = satCount (s.rdN Obj.TH_WRITTEN) 1 := by
  have hif : ∀ (u : State) (c : Bool) (o : ObjRow), Obj.TH_WRITTEN.key 0 0 ≠ o.key 0 0 →
      (if c then u.count o 0 0 1 else u).rdN Obj.TH_WRITTEN = u.rdN Obj.TH_WRITTEN := by
    intro u c o hkey
    cases c
    · rfl
    · exact rdN_count_other _ _ _ _ _ _ _ _ hkey
  unfold State.writeThumb
  dsimp only
  rw [rdN_count_same, hif _ _ _ (by decide), hif _ _ _ (by decide), rdN_of_dict (State.writeSlot_dict ..)]

end

/-! ## The copies of the ledger (R338, R343) -/

section

variable (s : State) {o : ObjRow} {b e : Nat}

theorem bit_raise (x : Ev) (n : Nat) (i : Nat) (h : isEventReg (o.key b e) = false) :
    (s.raise x n).bit o b e i = s.bit o b e i := by rw [State.bit, rdN_raise _ _ _ _ _ _ h, State.bit]

/-- R338: of the registers that are not those of events, DEGRADED alone follows the faulty parts. -/
theorem rdN_degrade (l : List (Nat × Nat)) (hstatus : o.key b e ≠ Obj.LG_STATUS.key 0 0)
    (hevent : isEventReg (o.key b e) = false) : (s.degrade l).rdN o b e = s.rdN o b e := by
  unfold State.degrade
  dsimp only
  split
  · rfl
  · split
    · rw [rdN_raise _ _ _ _ _ _ hevent, rdN_setBit_other _ _ _ _ _ _ _ _ _ hstatus]
      rfl
    · rw [rdN_setBit_other _ _ _ _ _ _ _ _ _ hstatus]
      rfl

theorem bit_degrade (l : List (Nat × Nat)) {i : Nat} (hi : 9 ≠ i) :
    (s.degrade l).bit Obj.LG_STATUS 0 0 i = s.bit Obj.LG_STATUS 0 0 i := by
  unfold State.degrade
  dsimp only
  split
  · rfl
  · split
    · rw [bit_raise _ _ _ _ (by decide), bit_setBit_other _ _ hi]
      rfl
    · rw [bit_setBit_other _ _ hi]
      rfl

theorem cont_degrade (l : List (Nat × Nat)) : (s.degrade l).cont = { s.cont with faulty := l } := by
  unfold State.degrade
  dsimp only
  split
  · rfl
  · split
    · rw [State.raise_cont]
      rfl
    · rfl

variable (kind n : Nat)

/-- R338: a part that returns to service leaves the list of the faulty, if it was on it. -/
theorem rdN_partBack (hstatus : o.key b e ≠ Obj.LG_STATUS.key 0 0) (hevent : isEventReg (o.key b e) = false) :
    (s.partBack kind n).rdN o b e = s.rdN o b e := by
  unfold State.partBack
  split
  · exact rdN_degrade s _ hstatus hevent
  · rfl

theorem bit_partBack {i : Nat} (hi : 9 ≠ i) : (s.partBack kind n).bit Obj.LG_STATUS 0 0 i = s.bit Obj.LG_STATUS 0 0 i := by
  unfold State.partBack
  split
  · exact bit_degrade s _ hi
  · rfl

theorem copying_partBack : (s.partBack kind n).cont.copying = s.cont.copying := by
  unfold State.partBack
  split
  · rw [cont_degrade]
  · rfl

end

/-- R343: copy `i` of the ledger lies on channel `c`, and the ledger is double. -/
def State.afterCopy (s : State) (i c : Nat) : State :=
  ({ s with cont := { s.cont with copying := none, returning := s.cont.returning.filter (fun x => x != c) } }.putN
    Obj.LG_COPY_CHANNEL 0 i c).setBit Obj.LG_STATUS 0 0 lgSingle false

theorem exec_ledgerCopyDone_of_copying {s : State} {t i c : Nat} (hcopy : s.cont.copying = some (i, c)) :
    exec (.ledgerCopyDone t) s = .next (if s.cont.returning.contains c then ((s.at t).afterCopy i c).partBack 1 c
      else (s.at t).afterCopy i c) := by
  have hcopy' : (s.at t).cont.copying = some (i, c) := hcopy
  show execLedgerCopyDone t s = _
  simp only [execLedgerCopyDone, hcopy']
  rfl

/-! ## The re-issue (R344) -/

/-- R344: what the window holds of its records and orders: SEQ and contents, and ORDER_ID and SEQ. -/
def State.ledgerHeld (s : State) : List (Nat × List Byte × List Byte) × List (Nat × Nat) :=
  (s.lg.records.map (fun e => (e.seq, e.record, e.ext)), s.lg.orders.map (fun o => (o.orderId, o.seq)))

/-- R344: the records of the window written again, with the head. -/
def State.rewriteRecords (s : State) : State :=
  if s.rdN Obj.REC_RING_BASE = 0 then s
  else
    let u := s.lg.records.foldl (fun s e => s.writeRecord e) s
    (u.count Obj.LG_REISSUED_RECORDS 0 0 s.lg.records.length).putN Obj.REC_HEAD_SEQ 0 0 (u.rdN Obj.LG_NEXT_SEQ - 1)

/-- R344: the closed outcomes written again, with the lowest ORDER_ID that is not. -/
def State.rewriteOutcomes (s : State) : State :=
  if s.rdN Obj.OUT_RING_BASE = 0 then s
  else
    let outs := s.lg.orders.filter (fun o => !o.outcome.isEmpty)
    let u := (outs.foldl (fun s o => s.writeOutcome o) s).count Obj.LG_REISSUED_OUTCOMES 0 0 outs.length
    u.putN Obj.OUT_LOW_ORDER 0 0 u.lowOrder

/-- R344: the heads of the two rings after them. -/
def State.rewriteHeads (s : State) : State :=
  let u := if s.rdN Obj.REC_RING_BASE = 0 then s else s.headWrite Obj.REC_HEAD_ADDR (s.rdN Obj.REC_HEAD_SEQ) 106
  if u.rdN Obj.OUT_RING_BASE = 0 then u else u.headWrite Obj.OUT_HEAD_ADDR (u.rdN Obj.OUT_LOW_ORDER) 107

section

variable (s : State)

theorem rewriteWindows_eq : s.rewriteWindows = s.rewriteRecords.rewriteOutcomes.rewriteHeads := by
  unfold State.rewriteWindows State.rewriteRecords State.rewriteOutcomes State.rewriteHeads
  rfl

theorem ledgerHeld_of_lg {s u : State} (h : u.lg = s.lg) : u.ledgerHeld = s.ledgerHeld := by
  simp only [State.ledgerHeld, h]

/-- R270: an order that closes gets its outcome, and stays in the window. -/
theorem ledgerHeld_closeFlight (f : Flight) : (s.closeFlight f).ledgerHeld = s.ledgerHeld := by
  unfold State.closeFlight
  dsimp only
  split
  · exact Prod.ext rfl (map_map_ite _ _ fun _ => rfl)
  · exact ledgerHeld_of_lg (State.chordSend_lg ..)
  · rfl

theorem ledgerHeld_closeOrders : s.closeOrders.ledgerHeld = s.ledgerHeld :=
  foldl_keep State.ledgerHeld _ _ _ fun a _ _ => ledgerHeld_closeFlight a _

theorem ledgerHeld_writeRecord (e : LedgerRecord) : (s.writeRecord e).ledgerHeld = s.ledgerHeld := by
  simp only [State.ledgerHeld, State.writeRecord_lg]
  exact Prod.ext (map_map_ite _ _ fun _ => rfl) rfl

theorem ledgerHeld_writeOutcome (o : LedgerOrder) : (s.writeOutcome o).ledgerHeld = s.ledgerHeld := by
  simp only [State.ledgerHeld, State.writeOutcome_lg]
  exact Prod.ext rfl (map_map_ite _ _ fun _ => rfl)

theorem ledgerHeld_rewriteRecords : s.rewriteRecords.ledgerHeld = s.ledgerHeld := by
  unfold State.rewriteRecords
  split
  · rfl
  · exact foldl_keep State.ledgerHeld _ _ _ fun a e _ => ledgerHeld_writeRecord a e

theorem ledgerHeld_rewriteOutcomes : s.rewriteOutcomes.ledgerHeld = s.ledgerHeld := by
  unfold State.rewriteOutcomes
  split
  · rfl
  · exact foldl_keep State.ledgerHeld _ _ _ fun a o _ => ledgerHeld_writeOutcome a o

theorem rewriteHeads_lg : s.rewriteHeads.lg = s.lg := by
  have hif : ∀ (u : State) (c : Prop) [Decidable c] (a : ObjRow) (v src : Nat),
      (if c then u else u.headWrite a v src).lg = u.lg := by
    intro u c _ a v src
    split
    · rfl
    · exact State.headWrite_lg ..
  exact (hif ..).trans (hif ..)

/-- R344: a re-issue ends with the records and orders it began with. -/
theorem ledgerHeld_rewriteWindows : s.rewriteWindows.ledgerHeld = s.ledgerHeld := by
  rw [rewriteWindows_eq, ledgerHeld_of_lg (rewriteHeads_lg _), ledgerHeld_rewriteOutcomes, ledgerHeld_rewriteRecords]

theorem rdN_foldl_writeRecord (l : List LedgerRecord) (o : ObjRow) (b e : Nat) :
    (l.foldl (fun s e => s.writeRecord e) s).rdN o b e = s.rdN o b e :=
  foldl_keep (fun s => s.rdN o b e) _ _ _ fun a x _ => rdN_of_dict (a.writeRecord_dict x) o b e

/-- R344: each record of the list goes to the slot of its SEQ. -/
theorem mem_out_foldl_writeRecord {l : List LedgerRecord} {e : LedgerRecord} (he : e ∈ l) {w : Out}
    (hw : w ∈ hostWrites (s.rdN Obj.REC_RING_BASE + 128 * (e.seq % 2 ^ s.rdN Obj.REC_RING_LOG2)) e.record) :
    w ∈ (l.foldl (fun s e => s.writeRecord e) s).out := by
  induction l generalizing s with
  | nil => cases he
  | cons x r ih =>
    rw [List.foldl_cons]
    rcases List.mem_cons.mp he with rfl | hmem
    · exact (foldl_out_prefix _ out_prefix_writeRecord r _).subset (mem_out_writeRecord s hw)
    · refine ih (s.writeRecord x) hmem ?_
      simpa only [rdN_of_dict (s.writeRecord_dict x)] using hw

end

section

variable {s : State}

/-- R344: with a record ring alone, records and their head are all that is written again. -/
theorem rewriteWindows_of_records_only (hrec : s.rdN Obj.REC_RING_BASE ≠ 0) (hout : s.rdN Obj.OUT_RING_BASE = 0) :
    s.rewriteWindows =
      s.rewriteRecords.headWrite Obj.REC_HEAD_ADDR (s.rewriteRecords.rdN Obj.REC_HEAD_SEQ) 106 := by
  have hbase : ∀ o : ObjRow, o.key 0 0 ≠ Obj.LG_REISSUED_RECORDS.key 0 0 → o.key 0 0 ≠ Obj.REC_HEAD_SEQ.key 0 0 →
      s.rewriteRecords.rdN o = s.rdN o := by
    intro o hcount hhead
    rw [State.rewriteRecords, if_neg hrec, rdN_putN_other _ _ _ _ _ _ _ _ hhead, rdN_count_other _ _ _ _ _ _ _ _ hcount,
      rdN_foldl_writeRecord]
  have hrec' : s.rewriteRecords.rdN Obj.REC_RING_BASE ≠ 0 := by rwa [hbase _ (by decide) (by decide)]
  have hout' : s.rewriteRecords.rdN Obj.OUT_RING_BASE = 0 := by rwa [hbase _ (by decide) (by decide)]
  have houtcomes : s.rewriteRecords.rewriteOutcomes = s.rewriteRecords := if_pos hout'
  rw [rewriteWindows_eq, houtcomes, State.rewriteHeads, if_neg hrec']
  exact if_pos ((rdN_headWrite _ _ _ _ (by decide)).trans hout')

theorem rdN_recHeadSeq_rewriteRecords (hrec : s.rdN Obj.REC_RING_BASE ≠ 0) :
    s.rewriteRecords.rdN Obj.REC_HEAD_SEQ = s.rdN Obj.LG_NEXT_SEQ - 1 := by
  rw [State.rewriteRecords, if_neg hrec, rdN_putN_same, rdN_foldl_writeRecord]

theorem rdN_lgReissuedRecords_rewriteRecords (hrec : s.rdN Obj.REC_RING_BASE ≠ 0) :
    s.rewriteRecords.rdN Obj.LG_REISSUED_RECORDS = satCount (s.rdN Obj.LG_REISSUED_RECORDS) s.lg.records.length := by
  rw [State.rewriteRecords, if_neg hrec, rdN_putN_other _ _ _ _ _ _ _ _ (by decide), rdN_count_same, rdN_foldl_writeRecord]

theorem mem_out_rewriteRecords (hrec : s.rdN Obj.REC_RING_BASE ≠ 0) {e : LedgerRecord} (he : e ∈ s.lg.records) {w : Out}
    (hw : w ∈ hostWrites (s.rdN Obj.REC_RING_BASE + 128 * (e.seq % 2 ^ s.rdN Obj.REC_RING_LOG2)) e.record) :
    w ∈ s.rewriteRecords.out := by
  rw [State.rewriteRecords, if_neg hrec]
  exact mem_out_foldl_writeRecord s he hw

/-- R344: a re-issue that waits runs once the CXL island and its link are there. -/
theorem exec_reissue_of_link {t : Nat} (hwaits : s.bit Obj.LG_STATUS 0 0 lgReissuing = true)
    (hisland : s.islandRuns 35 = true) (hlink : s.cxl.linkUp = true) :
    exec (.reissue t) s = .next ((s.at t).closeOrders.rewriteWindows.setBit Obj.LG_STATUS 0 0 lgReissuing false) := by
  have hisland' : (s.at t).islandRuns 35 = true := hisland
  show execReissue t s = _
  simp [execReissue, hwaits, hisland', hlink]

theorem closeOrders_of_none (hnone : s.bank.flights = []) : s.closeOrders = s := by
  rw [State.closeOrders, hnone, List.foldl_nil]

end

/-! ## The discard (R342, R346) -/

section

variable {s : State} {t : Nat} {path : Path} {value : List Byte}

theorem checkWrite_at_touch (s : State) (t : Nat) (p q : Path) (o : ObjRow) (b e : Nat) (bs : List Byte) :
    ((s.at t).touch q).checkWrite p o b e bs = s.checkWrite p o b e bs := rfl

theorem exec_lgDiscard_of_init (hpass : s.checkWrite path Obj.LG_DISCARD 0 0 value = 0) (hmode : s.mode = stInit) :
    exec (.lgDiscard t path value) s =
      .next (((s.at t).touch path).discardLedger.answer path (Obj.LG_DISCARD.key 0 0) 0) := by
  have hpass' := (checkWrite_at_touch s t path path Obj.LG_DISCARD 0 0 value).trans hpass
  have hmode' : ((s.at t).touch path).mode = stInit := hmode
  show execLgDiscard t path value s = _
  simp only [execLgDiscard, hpass', hmode', if_true]

theorem exec_lgDiscard_of_refused (hfail : s.checkWrite path Obj.LG_DISCARD 0 0 value ≠ 0) :
    exec (.lgDiscard t path value) s = .next (((s.at t).touch path).answer path (Obj.LG_DISCARD.key 0 0)
      (s.checkWrite path Obj.LG_DISCARD 0 0 value)) := by
  show execLgDiscard t path value s = _
  -- `hfail` rules out the arm of RESULT 0
  simp only [execLgDiscard, checkWrite_at_touch]

/-- R439 check 4: outside INIT a discard that the path may write is refused for its state. -/
theorem checkWrite_lgDiscard_of_not_init (hlevel : Obj.LG_DISCARD.level ≤ s.pathLevel path)
    (howns : s.pathOwns path (s.ownerOf Obj.LG_DISCARD 0 0) = true) (hmode : s.mode ≠ stInit) :
    s.checkWrite path Obj.LG_DISCARD 0 0 value = 4 := by
  have hwritable : Obj.LG_DISCARD.writable = true := rfl
  have hstate : s.stateAllows Obj.LG_DISCARD 0 = false := by
    have hinit : (s.mode == stInit) = false := by simpa using hmode
    unfold State.stateAllows
    split
    · rfl
    · rw [if_neg (by decide), if_neg (by decide), if_neg (by decide), if_neg (by decide), if_pos rfl]
      exact hinit
  have hacc : s.checkAccess path Obj.LG_DISCARD 0 0 value.length = 4 := by
    simp [State.checkAccess, hwritable, Nat.not_lt.mpr hlevel, howns, hstate]
  simp only [State.checkWrite, hacc]

end

section

variable (s : State)

theorem discardLedger_lg : s.discardLedger.lg = { s.lg with records := [], orders := [], closed := [], missed := none } := by
  simp only [State.discardLedger, State.lgPublish_lg, State.setBit_lg, State.putN_lg]

theorem discardLedger_out : s.discardLedger.out = s.out :=
  of_see (fun s => s.out) (State.discardLedger_see _ (fun _ _ h => h .out rfl) s)

theorem rdN_lgNextSeq_discardLedger :
    s.discardLedger.rdN Obj.LG_NEXT_SEQ = max (s.rdN Obj.LG_NEXT_SEQ) s.vault.seqMark := by
  unfold State.discardLedger
  rw [rdN_lgPublish _ (by decide) (by decide) (by decide)]
  simp (disch := decide) only [rdN_setBit_other, rdN_putN_other, rdN_putN_same]

theorem rdN_lgNextOrder_discardLedger :
    s.discardLedger.rdN Obj.LG_NEXT_ORDER = max (s.rdN Obj.LG_NEXT_ORDER) s.vault.orderMark := by
  unfold State.discardLedger
  rw [rdN_lgPublish _ (by decide) (by decide) (by decide)]
  simp (disch := decide) only [rdN_setBit_other, rdN_putN_other, rdN_putN_same]

theorem bit_lgValid_discardLedger : s.discardLedger.bit Obj.LG_STATUS 0 0 lgValid = true := by
  unfold State.discardLedger
  rw [bit_lgPublish _ (by decide) (by decide)]
  exact bit_setBit_same ..

end

/-! ## The mirror (R347) -/

/-- R347: what the partner confirms up to `seq` waits no more. -/
def State.confirmed (s : State) (seq : Nat) : State :=
  { s with lg := { s.lg with
    records := s.lg.records.map (fun e => if e.seq ≤ seq then { e with mirror := none } else e)
    orders := s.lg.orders.map (fun o => if o.seq ≤ seq then { o with mirror := none } else o) } }

section

variable {s : State} {t : Nat} {link : Fin 2}

theorem exec_mirrorEntry_of_up {acks : Bool} {payload : List Byte} (hup : s.chUp link = true) :
    exec (.mirrorEntry t link acks payload) s =
      let w := (s.lg.mirrored.getD {}).take acks payload
      .next ({ s.at t with lg := { s.lg with mirrored := some w } }.chordSend link 3 2 (toLe 8 w.highest)) := by
  have hup' : (s.at t).chUp link = true := hup
  show execMirrorEntry t link acks payload s = _
  simp [execMirrorEntry, hup']

theorem exec_mirrorConfirm_of_mirror {seq : Nat} (hup : s.chUp link = true) (hlink : link.val = s.mirrorLink)
    (hon : s.flag Obj.LG_MIRROR_ENABLE = true) :
    exec (.mirrorConfirm t link seq) s = .next (if ((s.at t).confirmed seq).mirrorOverdue then (s.at t).confirmed seq
      else ((s.at t).confirmed seq).setBit Obj.LG_STATUS 0 0 lgMirrorActive true) := by
  have hup' : (s.at t).chUp link = true := hup
  have hlink' : (link.val != (s.at t).mirrorLink) = false := bne_eq_false_iff_eq.mpr hlink
  show execMirrorConfirm t link seq s = _
  simp only [execMirrorConfirm, hup', hlink', flag_at, hon, Bool.not_true, Bool.or_self, Bool.false_eq_true, if_false]
  rfl

/-- R347: where nothing waits for its confirmation, nothing has waited too long. -/
theorem mirrorOverdue_of_none_waits (hrec : ∀ e ∈ s.lg.records, e.mirror = none) (hord : ∀ o ∈ s.lg.orders, o.mirror = none) :
    s.mirrorOverdue = false := by
  simp only [State.mirrorOverdue, Bool.or_eq_false_iff, List.any_eq_false]
  exact ⟨fun e he => by simp [hrec e he], fun o ho => by simp [hord o ho]⟩

/-- R347: after a confirmation of all of them no entry waits. -/
theorem none_waits_confirmed {seq : Nat} (hrec : s.lg.records.all (fun e => decide (e.seq ≤ seq)) = true)
    (hord : s.lg.orders.all (fun o => decide (o.seq ≤ seq)) = true) :
    (∀ e ∈ (s.confirmed seq).lg.records, e.mirror = none) ∧ ∀ o ∈ (s.confirmed seq).lg.orders, o.mirror = none := by
  constructor
  · intro e he
    obtain ⟨x, hx, rfl⟩ := List.mem_map.mp he
    rw [if_pos (of_decide_eq_true (List.all_eq_true.mp hrec x hx))]
  · intro o ho
    obtain ⟨x, hx, rfl⟩ := List.mem_map.mp ho
    rw [if_pos (of_decide_eq_true (List.all_eq_true.mp hord x hx))]

end

/-- Settles O25: each command's equation names the state after it; a re-issue keeps what the window holds. -/
theorem ledgerUpkeep : Obligations.LedgerUpkeep := by
  unfold Obligations.LedgerUpkeep
  refine ⟨?thumb, ?noThumb, ?copied, ?reissued, ?rewritten, ?discarded, ?refused, ?notInit, ?mirrorOrder, ?mirrorRecord,
    ?confirmed, ?allConfirmed, ?overdue⟩
  case thumb =>
    intro s t j hready hserves
    exact ⟨_, exec_thumbWrite_of_ready hready hserves, State.writeThumb_thumbs .., rdN_thWritten_writeThumb ..,
      State.writeThumb_lg ..⟩
  case noThumb =>
    intro s t hnone
    exact ⟨_, exec_thumbWrite_of_none_ready hnone, rfl⟩
  case copied =>
    intro s t i c hcopy hi
    have hkey : Obj.LG_COPY_CHANNEL.key 0 i ≠ Obj.LG_STATUS.key 0 0 := by
      simp only [ObjRow.key, Obj.LG_COPY_CHANNEL, Obj.LG_STATUS]; omega
    have hevent : isEventReg (Obj.LG_COPY_CHANNEL.key 0 i) = false :=
      evReg_false _ (by simp only [ObjRow.key, Obj.LG_COPY_CHANNEL]; omega)
    have hchannel : ((s.at t).afterCopy i c).rdN Obj.LG_COPY_CHANNEL 0 i = c :=
      (rdN_setBit_other _ _ _ _ _ _ _ _ _ hkey).trans (rdN_putN_same ..)
    have hsingle : ((s.at t).afterCopy i c).bit Obj.LG_STATUS 0 0 lgSingle = false := bit_setBit_same ..
    refine ⟨_, exec_ledgerCopyDone_of_copying hcopy, ?_⟩
    split
    · rw [rdN_partBack _ _ _ hkey hevent, bit_partBack _ _ _ (by decide), copying_partBack]
      exact ⟨hchannel, hsingle, rfl⟩
    · exact ⟨hchannel, hsingle, rfl⟩
  case reissued =>
    intro s t hwaits hisland hlink
    have hheld : ((s.at t).closeOrders.rewriteWindows.setBit Obj.LG_STATUS 0 0 lgReissuing false).ledgerHeld = s.ledgerHeld :=
      (ledgerHeld_of_lg (State.setBit_lg ..)).trans ((ledgerHeld_rewriteWindows _).trans (ledgerHeld_closeOrders _))
    obtain ⟨hrecords, horders⟩ := Prod.mk.inj hheld
    exact ⟨_, exec_reissue_of_link hwaits hisland hlink, bit_setBit_same .., hrecords, horders⟩
  case rewritten =>
    intro s t hwaits hisland hlink hnone hrec hout
    have hnext := exec_reissue_of_link (t := t) hwaits hisland hlink
    rw [closeOrders_of_none (s := s.at t) hnone, rewriteWindows_of_records_only (s := s.at t) hrec hout] at hnext
    refine ⟨_, hnext, bit_setBit_same .., ?_, ?_, fun e he w hw => ?_⟩
    · rw [rdN_setBit_other _ _ _ _ _ _ _ _ _ (by decide), rdN_headWrite _ _ _ _ (by decide),
        rdN_recHeadSeq_rewriteRecords (s := s.at t) hrec, rdN_at]
    · rw [rdN_setBit_other _ _ _ _ _ _ _ _ _ (by decide), rdN_headWrite _ _ _ _ (by decide),
        rdN_lgReissuedRecords_rewriteRecords (s := s.at t) hrec, rdN_at, State.at_lg]
    · exact (out_prefix_headWrite ..).subset (mem_out_rewriteRecords (s := s.at t) hrec he hw)
  case discarded =>
    intro s t path value hpass hmode
    have hlg := discardLedger_lg ((s.at t).touch path)
    refine ⟨_, exec_lgDiscard_of_init hpass hmode, congrArg Ledger.records hlg, congrArg Ledger.orders hlg, ?_, ?_, ?_, ?_⟩
    · exact rdN_lgNextSeq_discardLedger ((s.at t).touch path)
    · exact rdN_lgNextOrder_discardLedger ((s.at t).touch path)
    · exact bit_lgValid_discardLedger ((s.at t).touch path)
    · rw [State.answer_out, discardLedger_out]
      rfl
  case refused =>
    rintro s t path value r rfl hfail
    exact ⟨_, exec_lgDiscard_of_refused hfail, rfl, rfl, rfl⟩
  case notInit =>
    intro s t path value hlevel howns hmode
    have hfour := checkWrite_lgDiscard_of_not_init (value := value) hlevel howns hmode
    have hnext := exec_lgDiscard_of_refused (t := t) (s := s) (by rw [hfour]; decide)
    rw [hfour] at hnext
    exact ⟨_, hnext, rfl, rfl⟩
  case mirrorOrder =>
    intro s t link payload hup hshort
    refine ⟨_, exec_mirrorEntry_of_up hup, ?_, ?_⟩
    · simp [MirrorWindow.take, hshort]
    · rw [State.chordSend_lg]
  case mirrorRecord =>
    intro s t link payload hup hlong
    refine ⟨_, exec_mirrorEntry_of_up hup, ?_, ?_⟩
    · simp [MirrorWindow.take, Nat.not_lt.mpr hlong]
    · rw [State.chordSend_lg]
  case confirmed =>
    intro s t link seq hup hlink hon
    refine ⟨_, exec_mirrorConfirm_of_mirror hup hlink hon, ?_⟩
    split <;> exact ⟨rfl, rfl⟩
  case allConfirmed =>
    intro s t link seq hup hlink hon hrec hord
    obtain ⟨hnoRec, hnoOrd⟩ := none_waits_confirmed (s := s.at t) hrec hord
    have hnext := exec_mirrorConfirm_of_mirror (t := t) (seq := seq) hup hlink hon
    rw [mirrorOverdue_of_none_waits hnoRec hnoOrd, if_neg Bool.false_ne_true] at hnext
    exact ⟨_, hnext, bit_setBit_same .., mirrorOverdue_of_none_waits hnoRec hnoOrd⟩
  case overdue =>
    intro s t hlate
    have hnext : exec (.mirrorConfirmTimeout t) s = .next ((s.at t).setBit Obj.LG_STATUS 0 0 lgMirrorActive false) := by
      show execMirrorConfirmTimeout t s = _
      rw [execMirrorConfirmTimeout, if_pos hlate]
    exact ⟨_, hnext, bit_setBit_same .., rfl⟩

end Sys2Proof.Machine

end
